-- ==== Sys2Proof/Word.lean ====
section
/-!
DEFINITION. The word types of the Verog K4 (R6) and their plainest arithmetic.
-/

namespace Sys2Proof

/-- A byte of memory. -/
abbrev Byte := BitVec 8

/-- A halfword (R6). -/
abbrev Half := BitVec 16

/-- A 32-bit word (R6): a kernel lane, an instruction word, a syllable, a stream word. -/
abbrev W32 := BitVec 32

/-- A dword (R6): a control-core register. -/
abbrev Word := BitVec 64

/-- The integer clamped to `[lo, hi]` (R103, `Sat`). -/
def satInt (x lo hi : Int) : Int := if x < lo then lo else if hi < x then hi else x

/-- The number of 1 bits among the low `n` bits of `x`. -/
def popNat : Nat → Nat → Nat
  | 0, _ => 0
  | n + 1, x => x % 2 + popNat n (x / 2)

/-- Bits `[lo + w - 1 : lo]` of a number. -/
def bitsNat (x lo w : Nat) : Nat := x / 2 ^ lo % 2 ^ w

/-- Bit `i` of a number. -/
def bitNat (x i : Nat) : Bool := x / 2 ^ i % 2 == 1

end Sys2Proof
end

