-- ==== Sys2Proof/Machine/Float.lean ====
section
/-!
DEFINITION. The number formats of the device (R78-R91): exact values, the one rounding of R79, and the
arithmetic of FP32, BF16 and BX in terms of them.
-/

namespace Sys2Proof.Machine

/-- The value of a floating-point pattern: `fin neg m e` is (-1)^neg * m * 2^e (R78). -/
inductive FVal where
  | nan
  | inf (neg : Bool)
  | fin (neg : Bool) (m : Nat) (e : Int)
  deriving DecidableEq, Repr, Inhabited

/-- A binary format with an 8-bit exponent: `p` significant bits, so 24 for FP32 and 8 for BF16 (R78, R82). -/
def quantumMin (p : Nat) : Int := -(125 + p : Int)

/-- The pattern of infinity without its sign. -/
def infPattern (p : Nat) : Nat := 255 * 2 ^ (p - 1)

/-- The sign bit's weight. -/
def signWeight (p : Nat) : Nat := 256 * 2 ^ (p - 1)

/-- The canonical quiet NaN (R79): 0x7FC0_0000 or 0x7FC0. -/
def nanPattern (p : Nat) : Nat := infPattern p + 2 ^ (p - 2)

/-- The value of a pattern of a format (R78, R82). -/
def decodeF (p x : Nat) : FVal :=
  let neg := x / signWeight p % 2 == 1
  let ex := x / 2 ^ (p - 1) % 256
  let fr := x % 2 ^ (p - 1)
  if ex = 255 then (if fr = 0 then .inf neg else .nan)
  else if ex = 0 then .fin neg fr (quantumMin p)
  else .fin neg (2 ^ (p - 1) + fr) (quantumMin p + ex - 1)

/-- `m / 2^sh` rounded to the nearest integer, ties to even. -/
def shiftRNE (m sh : Nat) : Nat :=
  if Nat.log2 m + 2 < sh then 0
  else
    let q := m / 2 ^ sh
    let r := m % 2 ^ sh
    if 2 ^ sh < 2 * r || (2 * r = 2 ^ sh && q % 2 = 1) then q + 1 else q

/-- The magnitude pattern of `m * 2^e` rounded once, to nearest with ties to even; beyond the largest finite value it is
infinity (R79). -/
def roundMag (p m : Nat) (e : Int) : Nat :=
  if m = 0 then 0
  else
    let q := max (e + Nat.log2 m + 1 - p) (quantumMin p)
    let sig := if q ≤ e then m * 2 ^ (e - q).toNat else shiftRNE m (q - e).toNat
    let bits := (q - quantumMin p).toNat * 2 ^ (p - 1) + sig
    if infPattern p ≤ bits then infPattern p else bits

/-- The pattern of a value rounded to a format (R79). -/
def encodeF (p : Nat) : FVal → Nat
  | .nan => nanPattern p
  | .inf neg => (if neg then signWeight p else 0) + infPattern p
  | .fin neg m e => (if neg then signWeight p else 0) + roundMag p m e

/-- The value with its sign inverted. -/
def FVal.negate : FVal → FVal
  | .nan => .nan
  | .inf n => .inf (!n)
  | .fin n m e => .fin (!n) m e

/-- The sign of a value. -/
def FVal.sign : FVal → Bool
  | .nan => false
  | .inf n => n
  | .fin n _ _ => n

/-- Is the value a NaN? -/
def FVal.isNan : FVal → Bool
  | .nan => true
  | _ => false

/-- The signed significand of a finite value. -/
def signedSig (n : Bool) (m : Nat) : Int := if n then -(m : Int) else m

/-- The exact sum of two values; a zero sum of operands of opposite sign is +0 (R79). -/
def FVal.add : FVal → FVal → FVal
  | .nan, _ => .nan
  | _, .nan => .nan
  | .inf a, .inf b => if a == b then .inf a else .nan
  | .inf a, _ => .inf a
  | _, .inf b => .inf b
  | .fin a m e, .fin b n f =>
    if m = 0 then (if n = 0 then .fin (a && b) 0 0 else .fin b n f)
    else if n = 0 then .fin a m e
    else
      let lo := min e f
      let x := signedSig a m * 2 ^ (e - lo).toNat + signedSig b n * 2 ^ (f - lo).toNat
      .fin (x < 0) x.natAbs lo

/-- The exact product of two values; infinity times zero is NaN (R79). -/
def FVal.mul : FVal → FVal → FVal
  | .nan, _ => .nan
  | _, .nan => .nan
  | .inf a, .inf b => .inf (a != b)
  | .inf a, .fin b n _ => if n = 0 then .nan else .inf (a != b)
  | .fin a m _, .inf b => if m = 0 then .nan else .inf (a != b)
  | .fin a m e, .fin b n f => .fin (a != b) (m * n) (e + f)

/-- The value scaled by a power of two. -/
def FVal.scale (x : FVal) (k : Int) : FVal :=
  match x with
  | .fin n m e => .fin n m (e + k)
  | y => y

/-- The exact value of an integer. -/
def FVal.ofInt (x : Int) : FVal := .fin (x < 0) x.natAbs 0

/-- The integer square root by one Newton descent from above; `fuel` bounds the descent. -/
def isqrtFrom : Nat → Nat → Nat → Nat
  | 0, _, x => x
  | fuel + 1, n, x =>
    let y := (x + n / x) / 2
    if x ≤ y then x else isqrtFrom fuel n y

/-- Floor of the square root. -/
def isqrt (n : Nat) : Nat := if n = 0 then 0 else isqrtFrom 400 n (2 ^ (Nat.log2 n / 2 + 1))

/-- The exact quotient 1 / (m 2^e) to `31` bits and a sticky bit: enough for one correct rounding (R117). -/
def recipParts (m : Nat) (e : Int) : Nat × Int :=
  let k := Nat.log2 m + 32
  let q := 2 ^ k / m
  (2 * q + (if 2 ^ k % m = 0 then 0 else 1), -(k : Int) - 1 - e)

/-- frcp (R117). -/
def FVal.recip : FVal → FVal
  | .nan => .nan
  | .inf n => .fin n 0 0
  | .fin n m e => if m = 0 then .inf n else let r := recipParts m e; .fin n r.1 r.2

/-- The exact value 1 / sqrt(m 2^e) to 31 bits and a sticky bit (R117). -/
def rsqrtParts (m : Nat) (e : Int) : Nat × Int :=
  let m' := if e % 2 = 0 then m else 2 * m
  let e' := if e % 2 = 0 then e else e - 1
  let k := Nat.log2 m' / 2 + 33
  let q := isqrt (2 ^ (2 * k) / m')
  (2 * q + (if q * q * m' = 2 ^ (2 * k) then 0 else 1), -(k : Int) - 1 - e' / 2)

/-- frsq (R117): NaN below -0. -/
def FVal.rsqrt : FVal → FVal
  | .nan => .nan
  | .inf n => if n then .nan else .fin false 0 0
  | .fin n m e =>
    if m = 0 then .inf n else if n then .nan else let r := rsqrtParts m e; .fin false r.1 r.2

/-- Fraction bits of the fixed-point numbers of `exp2Frac`. -/
def expBits : Nat := 256

/-- 2^(f / 2^t) in fixed point with `expBits` fraction bits, by products of iterated square roots of 2.  `c` is
2^(2^-j) for the top bit of the `t` bits of `f` still to come. -/
def exp2Frac : Nat → Nat → Nat → Nat → Nat
  | 0, _, _, acc => acc
  | t + 1, f, c, acc =>
    let acc' := if f / 2 ^ t % 2 = 1 then acc * c / 2 ^ expBits else acc
    exp2Frac t f (isqrt (c * 2 ^ expBits)) acc'

/-- fexp2 (R117).  DEDUCED (log 15): 256 fraction bits decide the rounding of every FP32 argument, no one of which
with a fraction lies near enough to a tie.  Below 2^-26 in magnitude the result rounds to 1.0. -/
def FVal.exp2 : FVal → FVal
  | .nan => .nan
  | .inf n => if n then .fin false 0 0 else .inf false
  | .fin n m e =>
    if m = 0 then .fin false 1 0
    else if 10 < e + Nat.log2 m then (if n then .fin false 0 0 else .inf false)
    else if e + Nat.log2 m < -26 then .fin false 1 0
    else if 0 ≤ e then .fin false 1 (signedSig n m * 2 ^ e.toNat)
    else
      let t := (-e).toNat
      let x := signedSig n m
      let i := x / 2 ^ t
      let f := (x % 2 ^ t).toNat
      if f = 0 then .fin false 1 i
      else .fin false (2 * exp2Frac t f (isqrt (2 * 2 ^ (2 * expBits))) (2 ^ expBits) + 1) (i - expBits - 1)

/-- Fraction bits of the fixed-point numbers of `log2Bits`. -/
def logBits : Nat := 320

/-- The first `k` fraction bits of log2 of a fixed-point x in [1, 2), by repeated squaring. -/
def log2Bits : Nat → Nat → Nat → Nat
  | 0, _, acc => acc
  | k + 1, x, acc =>
    let y := x * x / 2 ^ logBits
    if 2 ^ (logBits + 1) ≤ y then log2Bits k (y / 2) (2 * acc + 1) else log2Bits k y (2 * acc)

/-- flog2 (R117).  DEDUCED (log 15): 140 fraction bits decide the rounding of every FP32 argument. -/
def FVal.log2 : FVal → FVal
  | .nan => .nan
  | .inf n => if n then .nan else .inf false
  | .fin n m e =>
    if m = 0 then .inf true
    else if n then .nan
    else
      let b := Nat.log2 m
      let whole : Int := e + b
      if m = 2 ^ b then FVal.ofInt whole
      else
        let fr := log2Bits 140 (m * 2 ^ (logBits - b)) 0
        let x : Int := 2 * (whole * 2 ^ 140 + fr) + 1
        .fin (x < 0) x.natAbs (-141)

/-- The value rounded to an integer, ties to even, with its sign (R81, R115 frnd). -/
def roundIntMag (m : Nat) (e : Int) : Nat := if 0 ≤ e then m * 2 ^ e.toNat else shiftRNE m (-e).toNat

/-- Conversion to an integer type with saturation; NaN converts to 0 (R81). -/
def FVal.toIntSat (lo hi : Int) : FVal → Int
  | .nan => 0
  | .inf n => if n then lo else hi
  | .fin n m e =>
    if 70 < e + Nat.log2 m && m != 0 then (if n then lo else hi)
    else satInt (signedSig n (roundIntMag m e)) lo hi

/-- IEEE order: less than (R116). -/
def FVal.lt : FVal → FVal → Bool
  | .nan, _ => false
  | _, .nan => false
  | .inf a, .inf b => a && !b
  | .inf a, _ => a
  | _, .inf b => !b
  | .fin a m e, .fin b n f =>
    let lo := min e f
    signedSig a m * 2 ^ (e - lo).toNat < signedSig b n * 2 ^ (f - lo).toNat

/-- IEEE equality (R116): +0 = -0, and a NaN equals nothing. -/
def FVal.eq (x y : FVal) : Bool := !x.isNan && !y.isNan && !x.lt y && !y.lt x

/-- minimumNumber, with -0 below +0 (R80). -/
def FVal.minNum (x y : FVal) : FVal :=
  if x.isNan then y else if y.isNan then x
  else if x.lt y then x else if y.lt x then y else if x.sign then x else y

/-- maximumNumber (R80). -/
def FVal.maxNum (x y : FVal) : FVal :=
  if x.isNan then y else if y.isNan then x
  else if x.lt y then y else if y.lt x then x else if x.sign then y else x

/-- The value of an FP32 word. -/
def f32 (x : W32) : FVal := decodeF 24 x.toNat

/-- RoundFP32 (R79, R114). -/
def roundFP32 (x : FVal) : W32 := BitVec.ofNat 32 (encodeF 24 x)

/-- The value of a BF16 halfword. -/
def bf16 (x : Half) : FVal := decodeF 8 x.toNat

/-- RoundBF16 (R79, R82). -/
def roundBF16 (x : FVal) : Half := BitVec.ofNat 16 (encodeF 8 x)

/-- The value of a BX8 element under its exponent pair (R87). -/
def bx8Val (el e0 e1 : Nat) : FVal :=
  let ex := if el / 128 % 2 = 1 then e1 else e0
  let neg := el / 64 % 2 = 1
  if ex = 0 then .fin neg 0 0 else if ex = 255 then .nan else .fin neg (el % 64) ((ex : Int) - 132)

/-- The value of a BX4 element under its exponent pair (R87). -/
def bx4Val (el e0 e1 : Nat) : FVal :=
  let ex := if el / 8 % 2 = 1 then e1 else e0
  let neg := el / 4 % 2 = 1
  if ex = 0 then .fin neg 0 0 else if ex = 255 then .nan else .fin neg (el % 4) ((ex : Int) - 128)

/-- Floor(Log2(Abs(x))) of a non-zero finite value. -/
def floorLog2 (m : Nat) (e : Int) : Int := e + Nat.log2 m

/-- The greatest exponent among the non-zero products of a pass. -/
def maxExp : List FVal → Option Int
  | [] => none
  | .fin _ m e :: t =>
    if m = 0 then maxExp t
    else match maxExp t with
      | none => some (floorLog2 m e)
      | some x => some (max x (floorLog2 m e))
  | _ :: t => maxExp t

/-- A product truncated toward zero to a multiple of 2^q, in units of 2^q (R91). -/
def truncTo (q : Int) : FVal → Int
  | .fin n m e => signedSig n (if q ≤ e then m * 2 ^ (e - q).toNat else m / 2 ^ (q - e).toNat)
  | _ => 0

/-- The sum of one column of one pass, rounded to FP32: R91 without its last line. -/
def sumPass (ps : List FVal) : W32 :=
  let pinf := ps.any (fun x => x == .inf false)
  let ninf := ps.any (fun x => x == .inf true)
  if ps.any FVal.isNan || (pinf && ninf) then roundFP32 .nan
  else if pinf then roundFP32 (.inf false)
  else if ninf then roundFP32 (.inf true)
  else match maxExp ps with
    | none => 0
    | some em =>
      let q := em - 56
      let t := ps.foldl (fun a x => a + truncTo q x) 0
      roundFP32 (.fin (t < 0) t.natAbs q)

/-- An FP32 addition of two words (R79). -/
def addFP32 (a b : W32) : W32 := roundFP32 ((f32 a).add (f32 b))

/-- An FP32 product of two words. -/
def mulFP32 (a b : W32) : W32 := roundFP32 ((f32 a).mul (f32 b))

/-! The quantiser (R88-R90). -/

/-- RoundNE(Abs(x) / 2^(ex - off)) (R88). -/
def scaledRNE (off ex : Nat) : FVal → Nat
  | .fin _ m e =>
    let sh := e - ((ex : Int) - off)
    if m = 0 then 0 else if 0 ≤ sh then m * 2 ^ sh.toNat else shiftRNE m (-sh).toNat
  | _ => 0

/-- The format constants of R88 by whether the format is BX8: MAXM, OFF, DELTA. -/
def bxMax (eight : Bool) : Nat := if eight then 63 else 3
def bxOff (eight : Bool) : Nat := if eight then 132 else 128
def bxDelta (eight : Bool) : Nat := if eight then 4 else 2

/-- Fits(x, E) of R88. -/
def bxFits (eight : Bool) (x : FVal) (ex : Nat) : Bool := scaledRNE (bxOff eight) ex x ≤ bxMax eight

/-- The smallest exponent in [from, from + fuel) that holds every element, or 254. -/
def bxSearch (eight : Bool) (ys : List FVal) : Nat → Nat → Nat
  | 0, _ => 254
  | fuel + 1, ex => if ys.all (fun y => bxFits eight y ex) then ex else bxSearch eight ys fuel (ex + 1)

/-- Is the value finite? -/
def FVal.isFin : FVal → Bool
  | .fin _ _ _ => true
  | _ => false

/-- Is the value a zero? -/
def FVal.isZero : FVal → Bool
  | .fin _ m _ => m == 0
  | _ => false

/-- The exponent pair (E0, E1) of a block of finite values (R88). -/
def bxExps (eight : Bool) (ys : List FVal) : Nat × Nat :=
  if ys.all FVal.isZero then (0, 0)
  else
    let e1 := bxSearch eight ys 254 1
    (max (e1 - bxDelta eight) 1, e1)

/-- One element of a block: selector, sign and m (R88, R89).  `y` is the word, whose sign bit is kept. -/
def bxElem (eight : Bool) (bad : Bool) (e0 e1 : Nat) (y : W32) : Nat :=
  let v := f32 y
  let sw := if eight then 64 else 4
  let sg := if y.toNat / 2 ^ 31 = 1 then sw else 0
  if v.isFin && bxFits eight v e0 then sg + min (scaledRNE (bxOff eight) e0 v) (bxMax eight)
  else if bad then 2 * sw + sg
  else 2 * sw + sg + min (scaledRNE (bxOff eight) e1 v) (bxMax eight)

/-- QNT of 32 transformed values: the exponent pair and the elements (R88, R89). -/
def bxBlock (eight : Bool) (ys : List W32) : Nat × Nat × List Nat :=
  let vs := ys.map f32
  let bad := vs.any (fun v => !v.isFin)
  let ex := bxExps eight (vs.map (fun v => if v.isFin then v else .fin false 0 0))
  let e1 := if bad then 255 else ex.2
  (ex.1, e1, ys.map (bxElem eight bad ex.1 e1))

/-- SignKey(K, i) of R90, modulo 2^64. -/
def signKey (k i : Word) : Bool :=
  let z := k ^^^ (i * 0x9E3779B97F4A7C15#64)
  let z := (z ^^^ (z >>> 30)) * 0xBF58476D1CE4E5B9#64
  let z := (z ^^^ (z >>> 27)) * 0x94D049BB133111EB#64
  let z := z ^^^ (z >>> 31)
  z.toNat / 2 ^ 63 == 1

/-- The sign of H[j][i] is negative: the parity of popcount(i AND j) (R90). -/
def hadamardNeg (j i : Nat) : Bool := popNat 5 (Nat.land i j) % 2 == 1

/-- A value, negated when `n`. -/
def FVal.flip (n : Bool) (x : FVal) : FVal := if n then x.negate else x

/-- The exact sum of a list of values. -/
def sumVals : List FVal → FVal
  | [] => .fin false 0 0
  | x :: t => t.foldl FVal.add x

/-- The forward transform of a block whose key bits are `ks` (R90 step 3). -/
def bxForward (ks : List Bool) (xs : List W32) : List W32 :=
  (List.range 32).map (fun j =>
    roundFP32 (sumVals ((List.range 32).map (fun i =>
      (f32 (xs.getD i 0)).flip (hadamardNeg j i != ks.getD i false)))))

/-- The inverse transform of dequantised values (R90 step 4). -/
def bxInverse (ks : List Bool) (ys : List FVal) : List W32 :=
  (List.range 32).map (fun i =>
    let x := roundFP32 ((sumVals ((List.range 32).map (fun j =>
      (ys.getD j (.fin false 0 0)).flip (hadamardNeg i j)))).scale (-5))
    if ks.getD i false then roundFP32 (f32 x).negate else x)

end Sys2Proof.Machine
end

