-- ==== Sys2Proof/Machine/Mille.lean ====
section
/-!
DEFINITION. Millefeuille compression (R290-R296): the transform, the plane codes, the encoder and the decoder of one
256-byte block.  A plane and a bitstream are numbers whose bit i is their bit i.
-/

namespace Sys2Proof.Machine

/-- Word i of a block of `w` bytes a word, little-endian (R290). -/
def blockWord (w : Nat) (bs : List Byte) (i : Nat) : Nat :=
  ((bs.drop (w * i)).take w).foldr (fun b a => b.toNat + 256 * a) 0

/-- The `k` bytes of a number, little-endian. -/
def natBytes (k x : Nat) : List Byte := (List.range k).map (fun i => BitVec.ofNat 8 (x / 256 ^ i))

/-- The number of little-endian bytes. -/
def bytesNat (bs : List Byte) : Nat := bs.foldr (fun b a => b.toNat + 256 * a) 0

/-- The deltas d[i] (R291). -/
def deltas (w : Nat) (xs : List Nat) : List Nat :=
  List.zipWith (fun x p => (x + 2 ^ w - p) % 2 ^ w) xs (0 :: xs)

/-- Plane b: bit i is bit b of d[i] (R291). -/
def planeOf (ds : List Nat) (b : Nat) : Nat := ds.foldr (fun d a => d / 2 ^ b % 2 + 2 * a) 0

/-- The planes q[w-1] first, each XORed with the one above it (R291, R294). -/
def qPlanes (w : Nat) (ds : List Nat) : List Nat :=
  (List.range w).map (fun k =>
    let b := w - 1 - k
    if b + 1 = w then planeOf ds b else Nat.xor (planeOf ds b) (planeOf ds (b + 1)))

/-- The maximal runs of ones of a plane of `n` bits, from bit `i`: start and length (R293). -/
def runsFrom : Nat → Nat → Nat → Option Nat → List (Nat × Nat)
  | 0, _, i, some s => [(s, i - s)]
  | 0, _, _, none => []
  | n + 1, q, i, o =>
    if q % 2 = 1 then runsFrom n (q / 2) (i + 1) (some (o.getD i))
    else match o with
      | some s => (s, i - s) :: runsFrom n (q / 2) (i + 1) none
      | none => runsFrom n (q / 2) (i + 1) none

/-- The code of one plane: its bits, low first, and how many (R292, R293). -/
def encodePlane (n q : Nat) : Nat × Nat :=
  if q = 0 then (0, 2)
  else if q = 2 ^ n - 1 then (3, 2)
  else
    let rs := runsFrom n q 0 none
    let r := rs.length
    if r ≤ 8 && 7 + 14 * r < 2 + n then
      ((rs.zipIdx).foldl (fun a p =>
          a + (p.1.1 + (p.1.2 - 1) * 2 ^ 7) * 2 ^ (7 + 14 * p.2)) (2 + r * 4), 7 + 14 * r)
    else (1 + q * 4, 2 + n)

/-- The bitstream of planes and its length (R294). -/
def encodePlanes (n : Nat) (qs : List Nat) : Nat × Nat :=
  qs.foldl (fun a q => let c := encodePlane n q; (a.1 + c.1 * 2 ^ a.2, a.2 + c.2)) (0, 0)

/-- The encoder: the stored bytes (a prefix of the block) and the tag (R293-R295).  `wide` is W32. -/
def milleEncode (wide : Bool) (bs : List Byte) : List Byte × Nat :=
  let wb := if wide then 4 else 2
  let n := 256 / wb
  let xs := (List.range n).map (blockWord wb bs)
  let c := encodePlanes n (qPlanes (8 * wb) (deltas (8 * wb) xs))
  if 1792 < c.2 then (bs, 15)
  else
    let s := (c.2 + 255) / 256
    (natBytes (32 * s) c.1, s - 1)

/-- A plane from its runs, or none where they break R292. -/
def decodeRuns (n : Nat) : Nat → Nat → Nat → Nat → Option Nat
  | 0, _, _, acc => some acc
  | r + 1, x, low, acc =>
    let st := x % 128
    let len := x / 128 % 128 + 1
    if low ≤ st && st + len ≤ n then decodeRuns n r (x / 2 ^ 14) (st + len) (acc + (2 ^ len - 1) * 2 ^ st) else none

/-- One plane from a bitstream with `left` bits: the plane and the bits it took. -/
def decodePlane (n x left : Nat) : Option (Nat × Nat) :=
  let code := x % 4
  if code = 0 then (if 2 ≤ left then some (0, 2) else none)
  else if code = 3 then (if 2 ≤ left then some (2 ^ n - 1, 2) else none)
  else if code = 1 then (if 2 + n ≤ left then some (x / 4 % 2 ^ n, 2 + n) else none)
  else
    let r := x / 4 % 32
    if 1 ≤ r && r ≤ 8 && 7 + 14 * r ≤ left then
      (decodeRuns n r (x / 2 ^ 7) 0 0).map (fun p => (p, 7 + 14 * r))
    else none

/-- `k` planes from a bitstream; the bits after the last must be zero (R296). -/
def decodePlanes (n : Nat) : Nat → Nat → Nat → Option (List Nat)
  | 0, x, _ => if x = 0 then some [] else none
  | k + 1, x, left =>
    match decodePlane n x left with
    | none => none
    | some (q, used) => (decodePlanes n k (x / 2 ^ used) (left - used)).map (fun l => q :: l)

/-- The planes undone: plane[b] = q[b] XOR plane[b+1], top first (R291). -/
def unXor : List Nat → Nat → List Nat
  | [], _ => []
  | q :: qs, up => Nat.xor q up :: unXor qs (Nat.xor q up)

/-- d[i] from the planes, top first. -/
def deltaOf (ps : List Nat) (i : Nat) : Nat := ps.foldl (fun a p => 2 * a + p / 2 ^ i % 2) 0

/-- The running sums x[i] (R291). -/
def prefixSums (w : Nat) : List Nat → Nat → List Nat
  | [], _ => []
  | d :: ds, x => ((x + d) % 2 ^ w) :: prefixSums w ds ((x + d) % 2 ^ w)

/-- The decoder: the 256 bytes, or none for a malformed block (R296).  `tag` is the 4-bit tag. -/
def milleDecode (wide : Bool) (tag : Nat) (bs : List Byte) : Option (List Byte) :=
  if tag = 15 then some bs
  else if 6 < tag then none
  else
    let wb := if wide then 4 else 2
    let n := 256 / wb
    let left := 256 * (tag + 1)
    match decodePlanes n (8 * wb) (bytesNat (bs.take (32 * (tag + 1)))) left with
    | none => none
    | some qs =>
      let ps := unXor qs 0
      let xs := prefixSums (8 * wb) ((List.range n).map (deltaOf ps)) 0
      some (xs.flatMap (natBytes wb))

end Sys2Proof.Machine
end

