-- ==== Sys2Proof/Syntax.lean ====
section
/-!
DEFINITION. The abstract syntax of everything the table of operations and events names: one constructor per row.
A kernel operation is one syllable of a bundle (R37); which slot holds it is the machine's cursor, not syntax.
A row without an encoding is an event of the device; its constructor carries what the schedule or the
environment chooses for it (which run, which entry, which arriving frame, which host request).
-/

namespace Sys2Proof

/-- What a host port request addresses (R349): package register space (BAR0), memory (BAR2) or CXL.mem. -/
inductive HostSpace where
  | bar0
  | bar2
  | cxl
  deriving DecidableEq, Repr, Inhabited

/-- The atomic operations a host may request (R311). -/
inductive HostAtomicOp where
  | fetchAdd
  | swap
  | cas
  deriving DecidableEq, Repr, Inhabited

/-- One request that arrives at a host port (R310, R311, R349). `size` is in bytes; `data` carries a write's bytes,
`operand` and `compare` an atomic's. -/
structure HostReq where
  port : Nat
  space : HostSpace
  addr : Nat
  size : Nat
  data : List Byte
  aop : HostAtomicOp
  operand : Nat
  compare : Nat
  deriving DecidableEq, Repr, Inhabited

/-- A request of an SPDM peer: the version of SPDM it speaks, as its messages code it (R391), and what it asks. -/
structure Spdm (α : Type) where
  ver : Nat
  ask : α
  deriving DecidableEq, Repr, Inhabited

/-- The hop part of a fabric frame (R364). -/
structure Hop where
  livemap : BitVec 64
  liveidx : BitVec 6
  lanes : BitVec 48
  fspace : BitVec 16
  nack : Bool
  lack : BitVec 7
  lseq : BitVec 7
  cte : BitVec 4
  install : Bool
  relay : Bool
  kind : BitVec 2
  deriving DecidableEq, Repr, Inhabited

/-- The end-to-end part of a frame in its full form (R365) and its payload.  The payload is held as the cipher text
that is on the wire and the tag beside it (R363, R373).  `described` says whether its operation has a descriptor frame (R376): its
target knows that before that frame comes (R375), though no bit of the header says it (log 52). -/
structure Frame where
  iv : BitVec 96
  len : BitVec 12
  off : BitVec 27
  oplen : BitVec 27
  opaddr : BitVec 53
  flowseq : BitVec 16
  opid : BitVec 8
  hsc : BitVec 4
  afmt : BitVec 4
  desc : Bool
  described : Bool
  aop : BitVec 3
  op : BitVec 3
  ord : Bool
  dst : BitVec 12
  src : BitVec 12
  payload : List Byte
  tag : BitVec 128
  deriving DecidableEq, Repr, Inhabited

/-- What a lane receives at one frame position (R367): a frame whose CRC fails after FEC, or a hop part with, for
a frame of KIND 1 or 2, the end-to-end part as expanded by the sender. -/
structure RxFrame where
  crcOk : Bool
  hop : Hop
  frame : Frame
  deriving DecidableEq, Repr, Inhabited

/-- What one run of the boot sequence finds (R388, R389, R352): the identity's harvest and the results of
self-test, image verification and training. -/
structure BootInput where
  imageA : List Byte
  imageB : List Byte
  coresLive : List (BitVec 16)
  stacksLive : BitVec 8
  bridges : BitVec 2
  lanes : BitVec 48
  hostTrained : BitVec 2
  storageTrained : BitVec 4
  temp : BitVec 8
  deriving DecidableEq, Repr, Inhabited

/-- One 100 us sample of the management processor (R393): the mean power over the last 1 ms in mW, and each die's
temperature. -/
structure PowerSample where
  meanMW : Nat
  temps : List (BitVec 8)
  deriving DecidableEq, Repr, Inhabited


/-- Every row of the table of operations and events: the 180 kernel operation points (R48), the 11 events of a
kernel run, the control-core instructions (R56) and the events of the rest of the device.  Fields are the raw
fields of the encoding; an event carries what the environment or the schedule chooses. -/
inductive Instr where
  /-- `CTL_NOP` (R38). An all-zero syllable does nothing in its slot. -/
  | ctlNop
  /-- `CTL_HALT` (R27). Stops issue; the run completes once every earlier operation has performed, unless it still holds an AM bank or TOM slot. -/
  | ctlHalt
  /-- `CTL_BR` (R100). Unconditional branch to a bundle index of the image. -/
  | ctlBr (t : BitVec 12)
  /-- `CTL_BANY` (R99). Branches if any bit of the predicate in any core of the group is 1. -/
  | ctlBany (p : BitVec 2) (t : BitVec 12)
  /-- `CTL_BALL` (R99). Branches if every bit of the predicate in every core is 1. -/
  | ctlBall (p : BitVec 2) (t : BitVec 12)
  /-- `CTL_BNONE` (R99). Branches if no bit of the predicate in any core is 1. -/
  | ctlBnone (p : BitVec 2) (t : BitVec 12)
  /-- `CTL_BNALL` (R99). Branches if at least one bit of the predicate is 0. -/
  | ctlBnall (p : BitVec 2) (t : BitVec 12)
  /-- `CTL_LSET` (R100). Sets a loop counter to a 20-bit immediate. -/
  | ctlLset (c : BitVec 2) (n : BitVec 20)
  /-- `CTL_LSETK` (R100). Sets a loop counter from a kernel argument read as z32. -/
  | ctlLsetk (c : BitVec 2) (k : BitVec 3)
  /-- `CTL_LSETV` (R100). Sets a loop counter from a uniform operand read as z32. -/
  | ctlLsetv (c : BitVec 2) (u : BitVec 8)
  /-- `CTL_LBNZ` (R100). Decrements the loop counter and branches while it was 2 or more, else clears it and falls through. -/
  | ctlLbnz (c : BitVec 2) (t : BitVec 12)
  /-- `CTL_BKZ` (R100). Branches if a kernel argument is zero. -/
  | ctlBkz (k : BitVec 3) (t : BitVec 12)
  /-- `CTL_BKNZ` (R100). Branches if a kernel argument is not zero. -/
  | ctlBknz (k : BitVec 3) (t : BitVec 12)
  /-- `CTL_KRET` (R102). Enqueues one lane of a source operand into every core's return queue, stalling while any queue is full. -/
  | ctlKret (l : BitVec 4) (s : BitVec 8)
  /-- `CTL_KRETP` (R102). Enqueues each core's predicate, zero-extended, into its return queue. -/
  | ctlKretp (p : BitVec 2)
  /-- `CTL_IDLE` (R101). Occupies n advancing cycles in which nothing further is issued. -/
  | ctlIdle (n : BitVec 12)
  /-- `HK_CHKEQ` (R112). Faults CHECK_MISMATCH if the two operands differ in any lane of any core. -/
  | hkChkeq (h : BitVec 12) (a : BitVec 8) (b : BitVec 8)
  /-- `HK_CHKZ` (R112). Faults if the operand is non-zero in any lane. -/
  | hkChkz (h : BitVec 12) (a : BitVec 8)
  /-- `HK_CHKOVF` (R112). Faults if the OVF bit of the named bank is set. -/
  | hkChkovf (h : BitVec 12) (a : BitVec 8)
  /-- `HK_CHKALL` (R112). Faults if the named predicate is not 0xFFFF in some core. -/
  | hkChkall (h : BitVec 12) (a : BitVec 8)
  /-- `I_ADD` (R104). 32-bit add modulo 2^32. -/
  | iAdd (p : BitVec 2) (d : BitVec 8) (a : BitVec 8) (b : BitVec 8)
  /-- `I_SUB` (R104). 32-bit subtract modulo 2^32. -/
  | iSub (p : BitVec 2) (d : BitVec 8) (a : BitVec 8) (b : BitVec 8)
  /-- `I_MUL` (R104). Low 32 bits of the product, latency 3. -/
  | iMul (p : BitVec 2) (d : BitVec 8) (a : BitVec 8) (b : BitVec 8)
  /-- `I_MULHS` (R104). High 32 bits of the signed product. -/
  | iMulhs (p : BitVec 2) (d : BitVec 8) (a : BitVec 8) (b : BitVec 8)
  /-- `I_MULHZ` (R104). High 32 bits of the unsigned product. -/
  | iMulhz (p : BitVec 2) (d : BitVec 8) (a : BitVec 8) (b : BitVec 8)
  /-- `I_AND` (R104). Bitwise AND. -/
  | iAnd (p : BitVec 2) (d : BitVec 8) (a : BitVec 8) (b : BitVec 8)
  /-- `I_OR` (R104). Bitwise OR. -/
  | iOr (p : BitVec 2) (d : BitVec 8) (a : BitVec 8) (b : BitVec 8)
  /-- `I_XOR` (R104). Bitwise XOR. -/
  | iXor (p : BitVec 2) (d : BitVec 8) (a : BitVec 8) (b : BitVec 8)
  /-- `I_ANDN` (R104). A AND NOT B. -/
  | iAndn (p : BitVec 2) (d : BitVec 8) (a : BitVec 8) (b : BitVec 8)
  /-- `I_SHL` (R105). Shift left; counts of 32 or more give 0. -/
  | iShl (p : BitVec 2) (d : BitVec 8) (a : BitVec 8) (b : BitVec 8)
  /-- `I_SHRZ` (R105). Logical shift right; counts of 32 or more give 0. -/
  | iShrz (p : BitVec 2) (d : BitVec 8) (a : BitVec 8) (b : BitVec 8)
  /-- `I_SHRS` (R105). Arithmetic shift right by min(n, 31). -/
  | iShrs (p : BitVec 2) (d : BitVec 8) (a : BitVec 8) (b : BitVec 8)
  /-- `I_ROTL` (R105). Rotate left by B[4:0]. -/
  | iRotl (p : BitVec 2) (d : BitVec 8) (a : BitVec 8) (b : BitVec 8)
  /-- `I_MINS` (R104). Signed minimum. -/
  | iMins (p : BitVec 2) (d : BitVec 8) (a : BitVec 8) (b : BitVec 8)
  /-- `I_MAXS` (R104). Signed maximum. -/
  | iMaxs (p : BitVec 2) (d : BitVec 8) (a : BitVec 8) (b : BitVec 8)
  /-- `I_MINZ` (R104). Unsigned minimum. -/
  | iMinz (p : BitVec 2) (d : BitVec 8) (a : BitVec 8) (b : BitVec 8)
  /-- `I_MAXZ` (R104). Unsigned maximum. -/
  | iMaxz (p : BitVec 2) (d : BitVec 8) (a : BitVec 8) (b : BitVec 8)
  /-- `I_ABS` (R104). Saturated absolute value of a signed word. -/
  | iAbs (p : BitVec 2) (d : BitVec 8) (a : BitVec 8)
  /-- `I_ADDSS` (R104). Signed saturating add. -/
  | iAddss (p : BitVec 2) (d : BitVec 8) (a : BitVec 8) (b : BitVec 8)
  /-- `I_ADDSZ` (R104). Unsigned saturating add. -/
  | iAddsz (p : BitVec 2) (d : BitVec 8) (a : BitVec 8) (b : BitVec 8)
  /-- `I_SUBSS` (R104). Signed saturating subtract. -/
  | iSubss (p : BitVec 2) (d : BitVec 8) (a : BitVec 8) (b : BitVec 8)
  /-- `I_SUBSZ` (R104). Unsigned saturating subtract. -/
  | iSubsz (p : BitVec 2) (d : BitVec 8) (a : BitVec 8) (b : BitVec 8)
  /-- `I_ABSDS` (R104). Absolute difference of signed words. -/
  | iAbsds (p : BitVec 2) (d : BitVec 8) (a : BitVec 8) (b : BitVec 8)
  /-- `I_ABSDZ` (R104). Absolute difference of unsigned words. -/
  | iAbsdz (p : BitVec 2) (d : BitVec 8) (a : BitVec 8) (b : BitVec 8)
  /-- `I_AVGS` (R104). Signed rounding average. -/
  | iAvgs (p : BitVec 2) (d : BitVec 8) (a : BitVec 8) (b : BitVec 8)
  /-- `I_AVGZ` (R104). Unsigned rounding average. -/
  | iAvgz (p : BitVec 2) (d : BitVec 8) (a : BitVec 8) (b : BitVec 8)
  /-- `I_ADDX2` (R104). A + 2B modulo 2^32. -/
  | iAddx2 (p : BitVec 2) (d : BitVec 8) (a : BitVec 8) (b : BitVec 8)
  /-- `I_ADDX4` (R104). A + 4B modulo 2^32. -/
  | iAddx4 (p : BitVec 2) (d : BitVec 8) (a : BitVec 8) (b : BitVec 8)
  /-- `I_ADDX8` (R104). A + 8B modulo 2^32. -/
  | iAddx8 (p : BitVec 2) (d : BitVec 8) (a : BitVec 8) (b : BitVec 8)
  /-- `I_HADD` (R106). Halfword-pair add modulo 2^16. -/
  | iHadd (p : BitVec 2) (d : BitVec 8) (a : BitVec 8) (b : BitVec 8)
  /-- `I_HSUB` (R106). Halfword-pair subtract modulo 2^16. -/
  | iHsub (p : BitVec 2) (d : BitVec 8) (a : BitVec 8) (b : BitVec 8)
  /-- `I_HADDSS` (R106). Halfword-pair signed saturating add. -/
  | iHaddss (p : BitVec 2) (d : BitVec 8) (a : BitVec 8) (b : BitVec 8)
  /-- `I_HADDSZ` (R106). Halfword-pair unsigned saturating add. -/
  | iHaddsz (p : BitVec 2) (d : BitVec 8) (a : BitVec 8) (b : BitVec 8)
  /-- `I_HSUBSS` (R106). Halfword-pair signed saturating subtract. -/
  | iHsubss (p : BitVec 2) (d : BitVec 8) (a : BitVec 8) (b : BitVec 8)
  /-- `I_HSUBSZ` (R106). Halfword-pair unsigned saturating subtract. -/
  | iHsubsz (p : BitVec 2) (d : BitVec 8) (a : BitVec 8) (b : BitVec 8)
  /-- `I_HMUL` (R106). Halfword-pair multiply modulo 2^16, latency 3. -/
  | iHmul (p : BitVec 2) (d : BitVec 8) (a : BitVec 8) (b : BitVec 8)
  /-- `I_HMINS` (R106). Halfword-pair signed minimum. -/
  | iHmins (p : BitVec 2) (d : BitVec 8) (a : BitVec 8) (b : BitVec 8)
  /-- `I_HMAXS` (R106). Halfword-pair signed maximum. -/
  | iHmaxs (p : BitVec 2) (d : BitVec 8) (a : BitVec 8) (b : BitVec 8)
  /-- `I_HMINZ` (R106). Halfword-pair unsigned minimum. -/
  | iHminz (p : BitVec 2) (d : BitVec 8) (a : BitVec 8) (b : BitVec 8)
  /-- `I_HMAXZ` (R106). Halfword-pair unsigned maximum. -/
  | iHmaxz (p : BitVec 2) (d : BitVec 8) (a : BitVec 8) (b : BitVec 8)
  /-- `I_HABSDS` (R106). Halfword-pair signed absolute difference. -/
  | iHabsds (p : BitVec 2) (d : BitVec 8) (a : BitVec 8) (b : BitVec 8)
  /-- `I_HABSDZ` (R106). Halfword-pair unsigned absolute difference. -/
  | iHabsdz (p : BitVec 2) (d : BitVec 8) (a : BitVec 8) (b : BitVec 8)
  /-- `I_HAVGS` (R106). Halfword-pair signed rounding average. -/
  | iHavgs (p : BitVec 2) (d : BitVec 8) (a : BitVec 8) (b : BitVec 8)
  /-- `I_HAVGZ` (R106). Halfword-pair unsigned rounding average. -/
  | iHavgz (p : BitVec 2) (d : BitVec 8) (a : BitVec 8) (b : BitVec 8)
  /-- `I_FEXT` (R111). Funnel extract of a zero-extended field from the 64-bit pair vd:A. -/
  | iFext (p : BitVec 2) (d : BitVec 8) (a : BitVec 8) (b : BitVec 8)
  /-- `I_FEXTS` (R111). Funnel extract of a sign-extended field. -/
  | iFexts (p : BitVec 2) (d : BitVec 8) (a : BitVec 8) (b : BitVec 8)
  /-- `I_CEQ` (R107). Sets predicate bits where A equals B. -/
  | iCeq (p : BitVec 2) (d : BitVec 8) (a : BitVec 8) (b : BitVec 8)
  /-- `I_CNE` (R107). Sets predicate bits where A differs from B. -/
  | iCne (p : BitVec 2) (d : BitVec 8) (a : BitVec 8) (b : BitVec 8)
  /-- `I_CLTS` (R107). Signed less-than compare to predicate. -/
  | iClts (p : BitVec 2) (d : BitVec 8) (a : BitVec 8) (b : BitVec 8)
  /-- `I_CLTZ` (R107). Unsigned less-than compare to predicate. -/
  | iCltz (p : BitVec 2) (d : BitVec 8) (a : BitVec 8) (b : BitVec 8)
  /-- `I_CLES` (R107). Signed less-or-equal compare to predicate. -/
  | iCles (p : BitVec 2) (d : BitVec 8) (a : BitVec 8) (b : BitVec 8)
  /-- `I_CLEZ` (R107). Unsigned less-or-equal compare to predicate. -/
  | iClez (p : BitVec 2) (d : BitVec 8) (a : BitVec 8) (b : BitVec 8)
  /-- `I_PAND` (R108). Predicate AND. -/
  | iPand (p : BitVec 2) (d : BitVec 8) (a : BitVec 8) (b : BitVec 8)
  /-- `I_POR` (R108). Predicate OR. -/
  | iPor (p : BitVec 2) (d : BitVec 8) (a : BitVec 8) (b : BitVec 8)
  /-- `I_PXOR` (R108). Predicate XOR. -/
  | iPxor (p : BitVec 2) (d : BitVec 8) (a : BitVec 8) (b : BitVec 8)
  /-- `I_SEL` (R109). Writes A where the selector predicate bit is 1 and B otherwise, in every lane. -/
  | iSel (p : BitVec 2) (d : BitVec 8) (a : BitVec 8) (b : BitVec 8)
  /-- `I_PCNT` (R105). Population count. -/
  | iPcnt (p : BitVec 2) (d : BitVec 8) (a : BitVec 8)
  /-- `I_CLZ` (R105). Count of leading zero bits. -/
  | iClz (p : BitVec 2) (d : BitVec 8) (a : BitVec 8)
  /-- `I_PGET` (R110). Writes a predicate's 16 bits, zero-extended, to enabled lanes. -/
  | iPget (p : BitVec 2) (d : BitVec 8) (a : BitVec 8)
  /-- `I_MOV` (R104). Copies A. -/
  | iMov (p : BitVec 2) (d : BitVec 8) (a : BitVec 8)
  /-- `F_FADD` (R115). FP32 add, rounded once. -/
  | fFadd (p : BitVec 2) (d : BitVec 8) (a : BitVec 8) (b : BitVec 8)
  /-- `F_FSUB` (R115). FP32 subtract. -/
  | fFsub (p : BitVec 2) (d : BitVec 8) (a : BitVec 8) (b : BitVec 8)
  /-- `F_FMUL` (R115). FP32 multiply. -/
  | fFmul (p : BitVec 2) (d : BitVec 8) (a : BitVec 8) (b : BitVec 8)
  /-- `F_FMA` (R115). FP32 fused A*B + D. -/
  | fFma (p : BitVec 2) (d : BitVec 8) (a : BitVec 8) (b : BitVec 8)
  /-- `F_FNMA` (R115). FP32 fused D - A*B. -/
  | fFnma (p : BitVec 2) (d : BitVec 8) (a : BitVec 8) (b : BitVec 8)
  /-- `F_FMIN` (R115). FP32 minimumNumber. -/
  | fFmin (p : BitVec 2) (d : BitVec 8) (a : BitVec 8) (b : BitVec 8)
  /-- `F_FMAX` (R115). FP32 maximumNumber. -/
  | fFmax (p : BitVec 2) (d : BitVec 8) (a : BitVec 8) (b : BitVec 8)
  /-- `F_FABS` (R115). Clears the sign bit. -/
  | fFabs (p : BitVec 2) (d : BitVec 8) (a : BitVec 8)
  /-- `F_FNEG` (R115). Inverts the sign bit. -/
  | fFneg (p : BitVec 2) (d : BitVec 8) (a : BitVec 8)
  /-- `F_FCPSGN` (R115). Copies B's sign onto A. -/
  | fFcpsgn (p : BitVec 2) (d : BitVec 8) (a : BitVec 8) (b : BitVec 8)
  /-- `F_FCEQ` (R116). FP32 equality compare to predicate, latency 2. -/
  | fFceq (p : BitVec 2) (d : BitVec 8) (a : BitVec 8) (b : BitVec 8)
  /-- `F_FCLT` (R116). FP32 less-than compare to predicate. -/
  | fFclt (p : BitVec 2) (d : BitVec 8) (a : BitVec 8) (b : BitVec 8)
  /-- `F_FCLE` (R116). FP32 less-or-equal compare to predicate. -/
  | fFcle (p : BitVec 2) (d : BitVec 8) (a : BitVec 8) (b : BitVec 8)
  /-- `F_FCUN` (R116). Sets predicate bits where either operand is NaN. -/
  | fFcun (p : BitVec 2) (d : BitVec 8) (a : BitVec 8) (b : BitVec 8)
  /-- `F_FRCP` (R117). Correctly rounded reciprocal, latency 12. -/
  | fFrcp (p : BitVec 2) (d : BitVec 8) (a : BitVec 8)
  /-- `F_FRSQ` (R117). Correctly rounded reciprocal square root. -/
  | fFrsq (p : BitVec 2) (d : BitVec 8) (a : BitVec 8)
  /-- `F_FEXP2` (R117). Correctly rounded 2^A. -/
  | fFexp2 (p : BitVec 2) (d : BitVec 8) (a : BitVec 8)
  /-- `F_FLOG2` (R117). Correctly rounded log2 A. -/
  | fFlog2 (p : BitVec 2) (d : BitVec 8) (a : BitVec 8)
  /-- `F_BADD` (R118). BF16-pair add. -/
  | fBadd (p : BitVec 2) (d : BitVec 8) (a : BitVec 8) (b : BitVec 8)
  /-- `F_BSUB` (R118). BF16-pair subtract. -/
  | fBsub (p : BitVec 2) (d : BitVec 8) (a : BitVec 8) (b : BitVec 8)
  /-- `F_BMUL` (R118). BF16-pair multiply. -/
  | fBmul (p : BitVec 2) (d : BitVec 8) (a : BitVec 8) (b : BitVec 8)
  /-- `F_BFMA` (R118). BF16-pair fused multiply-add. -/
  | fBfma (p : BitVec 2) (d : BitVec 8) (a : BitVec 8) (b : BitVec 8)
  /-- `F_BMIN` (R118). BF16-pair minimumNumber. -/
  | fBmin (p : BitVec 2) (d : BitVec 8) (a : BitVec 8) (b : BitVec 8)
  /-- `F_BMAX` (R118). BF16-pair maximumNumber. -/
  | fBmax (p : BitVec 2) (d : BitVec 8) (a : BitVec 8) (b : BitVec 8)
  /-- `F_FDOT2` (R115). FP32 D plus the BF16 pair dot product, one rounding. -/
  | fFdot2 (p : BitVec 2) (d : BitVec 8) (a : BitVec 8) (b : BitVec 8)
  /-- `F_FCLAMP` (R115). Clamps D between A and B. -/
  | fFclamp (p : BitVec 2) (d : BitVec 8) (a : BitVec 8) (b : BitVec 8)
  /-- `F_FSAT` (R115). Clamps A to [+0, 1.0]. -/
  | fFsat (p : BitVec 2) (d : BitVec 8) (a : BitVec 8)
  /-- `F_FRND` (R115). Rounds to an integral FP32 value, ties to even. -/
  | fFrnd (p : BitVec 2) (d : BitVec 8) (a : BitVec 8)
  /-- `F_FSCL` (R115). Scales A by 2 to the power of B read as s32. -/
  | fFscl (p : BitVec 2) (d : BitVec 8) (a : BitVec 8) (b : BitVec 8)
  /-- `F_CVTSF` (R119). s32 to FP32. -/
  | fCvtsf (p : BitVec 2) (d : BitVec 8) (a : BitVec 8)
  /-- `F_CVTZF` (R119). z32 to FP32. -/
  | fCvtzf (p : BitVec 2) (d : BitVec 8) (a : BitVec 8)
  /-- `F_CVTFS` (R119). FP32 to s32, saturating. -/
  | fCvtfs (p : BitVec 2) (d : BitVec 8) (a : BitVec 8)
  /-- `F_CVTFZ` (R119). FP32 to z32, saturating. -/
  | fCvtfz (p : BitVec 2) (d : BitVec 8) (a : BitVec 8)
  /-- `F_CVTFB` (R119). Packs two FP32 values as a BF16 pair. -/
  | fCvtfb (p : BitVec 2) (d : BitVec 8) (a : BitVec 8) (b : BitVec 8)
  /-- `F_CVTBFL` (R119). Widens BF16 element 0 to FP32. -/
  | fCvtbfl (p : BitVec 2) (d : BitVec 8) (a : BitVec 8)
  /-- `F_CVTBFH` (R119). Widens BF16 element 1 to FP32. -/
  | fCvtbfh (p : BitVec 2) (d : BitVec 8) (a : BitVec 8)
  /-- `F_CVTLSF` (R119). Halfword element 0 as s16 to FP32. -/
  | fCvtlsf (p : BitVec 2) (d : BitVec 8) (a : BitVec 8)
  /-- `F_CVTHSF` (R119). Halfword element 1 as s16 to FP32. -/
  | fCvthsf (p : BitVec 2) (d : BitVec 8) (a : BitVec 8)
  /-- `F_CVTLZF` (R119). Halfword element 0 as z16 to FP32. -/
  | fCvtlzf (p : BitVec 2) (d : BitVec 8) (a : BitVec 8)
  /-- `F_CVTHZF` (R119). Halfword element 1 as z16 to FP32. -/
  | fCvthzf (p : BitVec 2) (d : BitVec 8) (a : BitVec 8)
  /-- `TM_TLDW` (R122). Loads active weights column-major from a TOM slot, with a drain. -/
  | tmTldw (m : BitVec 8)
  /-- `TM_TLDWT` (R122). Loads active weights row-major, with a drain. -/
  | tmTldwt (m : BitVec 8)
  /-- `TM_TMMA` (R124). Queues a dense pass that adds column sums into an AM bank. -/
  | tmTmma (k : BitVec 8) (m : BitVec 8) (n : BitVec 8)
  /-- `TM_TMMZ` (R124). Queues a dense pass that overwrites AM elements with the sums. -/
  | tmTmmz (k : BitVec 8) (m : BitVec 8) (n : BitVec 8)
  /-- `TM_TMMN` (R124). Queues a dense pass that subtracts the sums. -/
  | tmTmmn (k : BitVec 8) (m : BitVec 8) (n : BitVec 8)
  /-- `TM_TLDX` (R122). Loads the shadow weight set in the background. -/
  | tmTldx (m : BitVec 8)
  /-- `TM_TDRN` (R122). Makes the shadow set active, with a drain. -/
  | tmTdrn
  /-- `TM_TWCLR` (R122). Sets the weight format to NONE and clears TOVR and TMIS, with a drain. -/
  | tmTwclr
  /-- `TM_TSTAT` (R128). Writes the tile-multiplier status word. -/
  | tmTstat (p : BitVec 2) (d : BitVec 8)
  /-- `TM_TSCL` (R129). Scales each FP32 bank element by a per-column word. -/
  | tmTscl (k : BitVec 8) (m : BitVec 8)
  /-- `TM_TBIAS` (R129). Adds a per-column bias to each FP32 bank element. -/
  | tmTbias (k : BitVec 8) (m : BitVec 8)
  /-- `TM_TAMW` (R129). Writes a register into one bank row. -/
  | tmTamw (k : BitVec 8) (s : BitVec 8) (r : BitVec 8)
  /-- `TM_TCVT` (R129). Converts FP32 bank rows into BF16 pairs in another bank. -/
  | tmTcvt (d : BitVec 8) (s : BitVec 8)
  /-- `TM_TMMH` (R124). Queues a dense pass over the first half of K, accumulating. -/
  | tmTmmh (k : BitVec 8) (m : BitVec 8) (n : BitVec 8)
  /-- `PT_PLD4` (R137). Validates and loads DP4 permutation tables, with a drain. -/
  | ptPld4 (m : BitVec 8)
  /-- `PT_PLD8` (R137). Validates and loads DP8 tables. -/
  | ptPld8 (m : BitVec 8)
  /-- `PT_PLDS` (R137). Validates and loads DPS tables. -/
  | ptPlds (m : BitVec 8)
  /-- `PT_PPASS` (R140). Queues a parts pass that adds part sums into a part-sum bank. -/
  | ptPpass (k : BitVec 8) (m : BitVec 8) (n : BitVec 8)
  /-- `PT_PPASSZ` (R140). Queues a parts pass that overwrites containers. -/
  | ptPpassz (k : BitVec 8) (m : BitVec 8) (n : BitVec 8)
  /-- `PT_PPASSN` (R140). Queues a parts pass that subtracts part sums. -/
  | ptPpassn (k : BitVec 8) (m : BitVec 8) (n : BitVec 8)
  /-- `PT_PCVT` (R144). Converts part sums to FP32 with per-column scales. -/
  | ptPcvt (d : BitVec 8) (s : BitVec 8) (m : BitVec 8)
  /-- `PT_PCLRO` (R145). Clears a bank's OVF bit. -/
  | ptPclro (k : BitVec 8)
  /-- `PT_PSTAT` (R146). Writes the parts status word. -/
  | ptPstat (p : BitVec 2) (d : BitVec 8)
  /-- `PT_PTCLR` (R138). Empties the tables and sets format NONE, with a drain. -/
  | ptPtclr
  /-- `PT_PDRN` (R138). Takes a drain and changes no state. -/
  | ptPdrn
  /-- `PT_PSCAN` (R147). Suffix sums across the lanes of each core. -/
  | ptPscan (p : BitVec 2) (d : BitVec 8) (s : BitVec 8)
  /-- `S_SPOP` (R155). Reads position rp+k of an input port into a register, waiting until it is filled. -/
  | sSpop (p : BitVec 2) (d : BitVec 8) (a : BitVec 8) (k : BitVec 8)
  /-- `S_SPOPC` (R157). Hands consecutive stream words to the selected lanes. -/
  | sSpopc (p : BitVec 2) (d : BitVec 8) (a : BitVec 8)
  /-- `S_SPUSH` (R155). Writes a register as the next unpublished position of an output port. -/
  | sSpush (a : BitVec 8) (s : BitVec 8)
  /-- `S_SPUSHC` (R156). Appends the selected lanes to the staging row, publishing a completed row. -/
  | sSpushc (p : BitVec 2) (a : BitVec 8) (s : BitVec 8)
  /-- `S_SWAITF` (R155). Waits until n granules beyond rp are filled. -/
  | sSwaitf (a : BitVec 8) (n : BitVec 8)
  /-- `S_SWAITE` (R155). Waits until n granules beyond wp are free. -/
  | sSwaite (a : BitVec 8) (n : BitVec 8)
  /-- `S_SADVR` (R155). Advances the read pointer, freeing positions. -/
  | sSadvr (a : BitVec 8) (n : BitVec 8)
  /-- `S_SADVW` (R155). Advances the write pointer, publishing positions. -/
  | sSadvw (a : BitVec 8) (n : BitVec 8)
  /-- `S_TFILL` (R159). Consumes a position into line 0 of a TOM slot and sets its tag. -/
  | sTfill (m : BitVec 8) (a : BitVec 8) (f : BitVec 8)
  /-- `S_TFILLX` (R159). Consumes a position into the next line of a TOM slot. -/
  | sTfillx (m : BitVec 8) (a : BitVec 8)
  /-- `S_SCNT` (R158). Enqueues the port's word count N into every return queue. -/
  | sScnt (a : BitVec 8)
  /-- `S_SFLUSH` (R156). Pads and publishes the staging row and pending pushes. -/
  | sSflush (a : BitVec 8)
  /-- `S_SPTRR` (R160). Writes the port's read pointer. -/
  | sSptrr (p : BitVec 2) (d : BitVec 8) (a : BitVec 8)
  /-- `S_SPTRW` (R160). Writes the port's write pointer. -/
  | sSptrw (p : BitVec 2) (d : BitVec 8) (a : BitVec 8)
  /-- `S_SAVAIL` (R160). Writes the input port's known-filled count. -/
  | sSavail (p : BitVec 2) (d : BitVec 8) (a : BitVec 8)
  /-- `S_SSPACE` (R160). Writes the output port's known-free count less pending pushes. -/
  | sSspace (p : BitVec 2) (d : BitVec 8) (a : BitVec 8)
  /-- `XS_XPERM` (R161). Within-core lane permute. -/
  | xsXperm (p : BitVec 2) (d : BitVec 8) (s : BitVec 8) (i : BitVec 8)
  /-- `XS_XPERMC` (R161). Group-wide lane permute. -/
  | xsXpermc (p : BitVec 2) (d : BitVec 8) (s : BitVec 8) (i : BitVec 8)
  /-- `XS_XBC` (R161). Within-core lane broadcast. -/
  | xsXbc (p : BitVec 2) (d : BitVec 8) (s : BitVec 8) (l : BitVec 8)
  /-- `XS_XBCC` (R161). Broadcasts one core's lanes across the group. -/
  | xsXbcc (p : BitVec 2) (d : BitVec 8) (s : BitVec 8) (n : BitVec 8)
  /-- `XS_XROT` (R161). Within-core lane rotate. -/
  | xsXrot (p : BitVec 2) (d : BitVec 8) (s : BitVec 8) (n : BitVec 8)
  /-- `XS_XROTC` (R161). Group-wide lane rotate. -/
  | xsXrotc (p : BitVec 2) (d : BitVec 8) (s : BitVec 8) (n : BitVec 8)
  /-- `XS_XCMP` (R161). Within-core compaction of selected lanes. -/
  | xsXcmp (p : BitVec 2) (d : BitVec 8) (s : BitVec 8)
  /-- `XS_XCMPC` (R161). Group-wide compaction of selected lanes. -/
  | xsXcmpc (p : BitVec 2) (d : BitVec 8) (s : BitVec 8)
  /-- `XS_XEXP` (R161). Group-wide expansion to the selected lanes. -/
  | xsXexp (p : BitVec 2) (d : BitVec 8) (s : BitVec 8)
  /-- `XS_XCNT` (R161). Writes selected-lane totals and prefix counts. -/
  | xsXcnt (p : BitVec 2) (d : BitVec 8)
  /-- `AM_AALLOC` (R131). Allocates an AM bank in FP32 mode in every core of the group. -/
  | amAalloc (k : BitVec 8)
  /-- `AM_AALLOCP` (R131). Allocates an AM bank in part-sum mode. -/
  | amAallocp (k : BitVec 8)
  /-- `AM_AFREE` (R131). Frees an AM bank. -/
  | amAfree (k : BitVec 8)
  /-- `AM_MCLAIM` (R132). Claims a TOM slot, zeroing it with tag NONE. -/
  | amMclaim (m : BitVec 8)
  /-- `AM_MREL` (R132). Releases a TOM slot, discarding later writes to it. -/
  | amMrel (m : BitVec 8)
  /-- `AM_ARD` (R133). Reads a bank row (low words) into a register. -/
  | amArd (p : BitVec 2) (d : BitVec 8) (k : BitVec 8) (r : BitVec 8)
  /-- `AM_ARDH` (R133). Reads the high words of a bank row. -/
  | amArdh (p : BitVec 2) (d : BitVec 8) (k : BitVec 8) (r : BitVec 8)
  /-- `AM_ACLR` (R131). Zeroes a bank and clears OVF, keeping its mode. -/
  | amAclr (k : BitVec 8)
  /-- `RESULT_LANDING` (R17). An operation's result lands in its destination once its latency in advancing cycles has elapsed. -/
  | resultLanding (sc run : Nat)
  /-- `TILE_ROW_ENTRY` (R125). The next row of a queued pass enters the array against the current weights. -/
  | tileRowEntry (sc run : Nat)
  /-- `TILE_UPDATE_VISIBLE` (R125). A dense row's column sums are applied to the AM 16 cycles after entry. -/
  | tileUpdateVisible (sc run : Nat)
  /-- `PARTS_UPDATE_VISIBLE` (R141). A parts row's part sums are applied to containers 24 cycles after entry. -/
  | partsUpdateVisible (sc run : Nat)
  /-- `TLDX_READ_END` (R123). The background shadow-weight read finishes, releasing waiting loads. -/
  | tldxReadEnd (sc run : Nat)
  /-- `KERNEL_RUN_START` (R176). A waiting kernel run starts on its group and a sequencer once its conditions hold. -/
  | kernelRunStart (sc e : Nat)
  /-- `RUN_COMPLETION` (R27). After a halt, the run completes when every earlier operation has performed, publishing and retiring. -/
  | runCompletion (sc run : Nat)
  /-- `PREEMPTION` (R28). At a bundle boundary the run's context and replay records are saved to the KSP area. -/
  | preemption (sc run : Nat)
  /-- `RUN_RESTORE` (R31). A saved run is restored on its cores when the pre-empting run retires. -/
  | runRestore (sc run : Nat)
  /-- `RUN_RECLAIM_STOP` (R33). A reclaimed task's run stops at its next boundary and is discarded. -/
  | runReclaimStop (sc run : Nat)
  /-- `PTHR_EXPIRY` (R334). The pre-emption condition has held longer than PTHR, so the blocking runs are marked for pre-emption. -/
  | pthrExpiry (sc e : Nat)
  /-- `ADD` (R196). 64-bit add. -/
  | add (d : BitVec 5) (a : BitVec 5) (b : BitVec 5)
  /-- `SUB` (R196). 64-bit subtract. -/
  | sub (d : BitVec 5) (a : BitVec 5) (b : BitVec 5)
  /-- `MUL` (R196). Low 64 bits of product. -/
  | mul (d : BitVec 5) (a : BitVec 5) (b : BitVec 5)
  /-- `MULHS` (R196). High 64 bits of the signed product. -/
  | mulhs (d : BitVec 5) (a : BitVec 5) (b : BitVec 5)
  /-- `MULHZ` (R196). High 64 bits of the unsigned product. -/
  | mulhz (d : BitVec 5) (a : BitVec 5) (b : BitVec 5)
  /-- `DIVS` (R196). Signed division truncated toward zero. -/
  | divs (d : BitVec 5) (a : BitVec 5) (b : BitVec 5)
  /-- `DIVZ` (R196). Unsigned division. -/
  | divz (d : BitVec 5) (a : BitVec 5) (b : BitVec 5)
  /-- `REMS` (R196). Signed remainder. -/
  | rems (d : BitVec 5) (a : BitVec 5) (b : BitVec 5)
  /-- `REMZ` (R196). Unsigned remainder. -/
  | remz (d : BitVec 5) (a : BitVec 5) (b : BitVec 5)
  /-- `AND` (R196). Bitwise AND. -/
  | and (d : BitVec 5) (a : BitVec 5) (b : BitVec 5)
  /-- `OR` (R196). Bitwise OR. -/
  | or (d : BitVec 5) (a : BitVec 5) (b : BitVec 5)
  /-- `XOR` (R196). Bitwise XOR. -/
  | xor (d : BitVec 5) (a : BitVec 5) (b : BitVec 5)
  /-- `ANDN` (R196). ga AND NOT gb. -/
  | andn (d : BitVec 5) (a : BitVec 5) (b : BitVec 5)
  /-- `SHL` (R196). Shift left; counts of 64 or more give 0. -/
  | shl (d : BitVec 5) (a : BitVec 5) (b : BitVec 5)
  /-- `SHRZ` (R196). Logical shift right. -/
  | shrz (d : BitVec 5) (a : BitVec 5) (b : BitVec 5)
  /-- `SHRS` (R196). Arithmetic shift right. -/
  | shrs (d : BitVec 5) (a : BitVec 5) (b : BitVec 5)
  /-- `SLTS` (R196). Signed set-less-than. -/
  | slts (d : BitVec 5) (a : BitVec 5) (b : BitVec 5)
  /-- `SLTZ` (R196). Unsigned set-less-than. -/
  | sltz (d : BitVec 5) (a : BitVec 5) (b : BitVec 5)
  /-- `POPC` (R196). Population count of ga. -/
  | popc (d : BitVec 5) (a : BitVec 5)
  /-- `ADDI` (R196). Add sign-extended immediate. -/
  | addi (d : BitVec 5) (a : BitVec 5) (i : BitVec 14)
  /-- `ANDI` (R196). AND with immediate. -/
  | andi (d : BitVec 5) (a : BitVec 5) (i : BitVec 14)
  /-- `ORI` (R196). OR with immediate. -/
  | ori (d : BitVec 5) (a : BitVec 5) (i : BitVec 14)
  /-- `XORI` (R196). XOR with immediate. -/
  | xori (d : BitVec 5) (a : BitVec 5) (i : BitVec 14)
  /-- `SHLI` (R196). Shift left by immediate. -/
  | shli (d : BitVec 5) (a : BitVec 5) (i : BitVec 14)
  /-- `SHRZI` (R196). Logical shift right by immediate. -/
  | shrzi (d : BitVec 5) (a : BitVec 5) (i : BitVec 14)
  /-- `SHRSI` (R196). Arithmetic shift right by immediate. -/
  | shrsi (d : BitVec 5) (a : BitVec 5) (i : BitVec 14)
  /-- `SLTSI` (R196). Signed set-less-than immediate. -/
  | sltsi (d : BitVec 5) (a : BitVec 5) (i : BitVec 14)
  /-- `SLTZI` (R196). Unsigned set-less-than immediate. -/
  | sltzi (d : BitVec 5) (a : BitVec 5) (i : BitVec 14)
  /-- `LDI` (R197). Loads a sign-extended 19-bit immediate. -/
  | ldi (d : BitVec 5) (i : BitVec 19)
  /-- `LSI` (R197). Shifts gd left 19 and ORs in a 19-bit immediate. -/
  | lsi (d : BitVec 5) (i : BitVec 19)
  /-- `BEQ` (R198). Branch if equal. -/
  | beq (a : BitVec 5) (b : BitVec 5) (o : BitVec 14)
  /-- `BNE` (R198). Branch if not equal. -/
  | bne (a : BitVec 5) (b : BitVec 5) (o : BitVec 14)
  /-- `BLTS` (R198). Branch if signed less. -/
  | blts (a : BitVec 5) (b : BitVec 5) (o : BitVec 14)
  /-- `BGES` (R198). Branch if signed greater or equal. -/
  | bges (a : BitVec 5) (b : BitVec 5) (o : BitVec 14)
  /-- `BLTZ` (R198). Branch if unsigned less. -/
  | bltz (a : BitVec 5) (b : BitVec 5) (o : BitVec 14)
  /-- `BGEZ` (R198). Branch if unsigned greater or equal. -/
  | bgez (a : BitVec 5) (b : BitVec 5) (o : BitVec 14)
  /-- `J` (R198). Jump relative. -/
  | j (o : BitVec 24)
  /-- `JAL` (R198). Jump relative, linking in g31. -/
  | jal (o : BitVec 24)
  /-- `JR` (R198). Jump to register. -/
  | jr (a : BitVec 5)
  /-- `JALR` (R198). Jump to register, linking in gd. -/
  | jalr (d : BitVec 5) (a : BitVec 5)
  /-- `LB` (R199). Load byte, sign-extended. -/
  | lb (d : BitVec 5) (a : BitVec 5) (i : BitVec 14)
  /-- `LBZ` (R199). Load byte, zero-extended. -/
  | lbz (d : BitVec 5) (a : BitVec 5) (i : BitVec 14)
  /-- `LH` (R199). Load halfword, sign-extended. -/
  | lh (d : BitVec 5) (a : BitVec 5) (i : BitVec 14)
  /-- `LHZ` (R199). Load halfword, zero-extended. -/
  | lhz (d : BitVec 5) (a : BitVec 5) (i : BitVec 14)
  /-- `LW` (R199). Load word, sign-extended. -/
  | lw (d : BitVec 5) (a : BitVec 5) (i : BitVec 14)
  /-- `LWZ` (R199). Load word, zero-extended. -/
  | lwz (d : BitVec 5) (a : BitVec 5) (i : BitVec 14)
  /-- `LD` (R199). Load dword. -/
  | ld (d : BitVec 5) (a : BitVec 5) (i : BitVec 14)
  /-- `LDX` (R199). Load dword at ga + gb. -/
  | ldx (d : BitVec 5) (a : BitVec 5) (b : BitVec 5)
  /-- `SB` (R199). Store byte. -/
  | sb (d : BitVec 5) (a : BitVec 5) (i : BitVec 14)
  /-- `SH` (R199). Store halfword. -/
  | sh (d : BitVec 5) (a : BitVec 5) (i : BitVec 14)
  /-- `SW` (R199). Store word. -/
  | sw (d : BitVec 5) (a : BitVec 5) (i : BitVec 14)
  /-- `SD` (R199). Store dword. -/
  | sd (d : BitVec 5) (a : BitVec 5) (i : BitVec 14)
  /-- `LD_ACQ` (R200). Dword load that acquires at PKG scope. -/
  | ldAcq (d : BitVec 5) (a : BitVec 5) (i : BitVec 14)
  /-- `ST_REL` (R200). Dword store that releases at PKG scope. -/
  | stRel (d : BitVec 5) (a : BitVec 5) (i : BitVec 14)
  /-- `LDM` (R201). Loads 1-8 dwords into consecutive registers, all or nothing. -/
  | ldm (d : BitVec 5) (a : BitVec 5) (n : BitVec 3)
  /-- `STM` (R201). Stores 1-8 consecutive registers, all or nothing. -/
  | stm (d : BitVec 5) (a : BitVec 5) (n : BitVec 3)
  /-- `NOP` (R202). Control-core no-op. -/
  | nop
  /-- `MFS` (R195). Reads a special register. -/
  | mfs (d : BitVec 5) (s : BitVec 14)
  /-- `MTS` (R195). Writes a special register. -/
  | mts (a : BitVec 5) (s : BitVec 14)
  /-- `FENCE_SC` (R202). Full fence at SC scope. -/
  | fenceSc
  /-- `FENCE_DIE` (R202). Full fence at DIE scope. -/
  | fenceDie
  /-- `FENCE_PKG` (R202). Full fence at PKG scope. -/
  | fencePkg
  /-- `FENCE_SYS` (R202). Full fence at SYS scope, also waiting for earlier remote operations. -/
  | fenceSys
  /-- `TRAP` (R209). Traps SOFT with TVAL = n. -/
  | trap (n : BitVec 14)
  /-- `TRET` (R206). Ends trap handling and resumes the owner at TPC. -/
  | tret
  /-- `BRK` (R209). Traps BREAK with TVAL = n. -/
  | brk (n : BitVec 14)
  /-- `PAUSE` (R202). The context is skipped by issue for 32 wall cycles. -/
  | pause
  /-- `DCFL` (R202). Writes back a dirty data-cache line. -/
  | dcfl (a : BitVec 5) (i : BitVec 14)
  /-- `DCINV` (R202). Discards a data-cache line. -/
  | dcinv (a : BitVec 5) (i : BitVec 14)
  /-- `DCZ` (R202). Stores 64 zero bytes to a whole line. -/
  | dcz (a : BitVec 5) (i : BitVec 14)
  /-- `IDLE` (R206). A system context ends its activity and becomes FREE. -/
  | idle
  /-- `CSAVE` (R207). Saves a TRAPPED context's state to a 1 KiB area. -/
  | csave (a : BitVec 5) (c : BitVec 5)
  /-- `CLOAD` (R207). Loads g1-g31, TPC and LODC of a TRAPPED context. -/
  | cload (a : BitVec 5) (c : BitVec 5)
  /-- `CTXKILL` (R206). Ends a TRAPPED task or message context. -/
  | ctxkill (c : BitVec 5)
  /-- `CTXSIG` (R206). Resumes a TRAPPED context or starts a FREE system context at ga. -/
  | ctxsig (a : BitVec 5) (c : BitVec 5)
  /-- `SALLOC` (R178). Allocates an SRF stream over a stripe and binds a handle. -/
  | salloc (a : BitVec 5) (h : BitVec 4) (b : BitVec 5) (g : BitVec 2)
  /-- `SFREE` (R179). Unbinds a handle and frees the stream after earlier users retire. -/
  | sfree (h : BitVec 4)
  /-- `SLOAD` (R216). Moves a record's window into a stream. -/
  | sload (a : BitVec 5) (h : BitVec 4) (k : BitVec 4) (e : BitVec 1)
  /-- `SSTORE` (R216). Moves a stream into a record's window. -/
  | sstore (a : BitVec 5) (h : BitVec 4) (k : BitVec 4) (e : BitVec 1)
  /-- `SGATHER` (R217). Gathers table elements by an index stream. -/
  | sgather (a : BitVec 5) (h : BitVec 4) (k : BitVec 4) (b : BitVec 5)
  /-- `SSCATTER` (R217). Scatters stream elements into a table by index. -/
  | sscatter (a : BitVec 5) (h : BitVec 4) (k : BitVec 4) (b : BitVec 5)
  /-- `SRESET` (R213). Resets a stream's pointers, length and blocks. -/
  | sreset (h : BitVec 4)
  /-- `SPTR` (R213). Reads a stream's rp or wp. -/
  | sptr (a : BitVec 5) (h : BitVec 4) (w : BitVec 1)
  /-- `SRD` (R215). Reads one stream word directly. -/
  | srd (a : BitVec 5) (h : BitVec 4) (b : BitVec 5)
  /-- `SWR` (R215). Writes one stream word directly. -/
  | swr (a : BitVec 5) (h : BitVec 4) (b : BitVec 5)
  /-- `SFILL` (R213). Fills and publishes n positions. -/
  | sfill (a : BitVec 5) (h : BitVec 4) (b : BitVec 5) (p : BitVec 1)
  /-- `SMOVH` (R213). Moves a descriptor binding to a new handle. -/
  | smovh (h : BitVec 4) (k : BitVec 4)
  /-- `SINFO` (R214). Reads the stream information word. -/
  | sinfo (a : BitVec 5) (h : BitVec 4)
  /-- `KLOAD` (R218). Validates and places a kernel image, returning a handle. -/
  | kload (a : BitVec 5) (b : BitVec 5)
  /-- `KFREE` (R219). Releases a kernel image once its runs retire. -/
  | kfree (a : BitVec 5)
  /-- `KINFO` (R219). Reads header bytes of a loaded kernel. -/
  | kinfo (a : BitVec 5) (b : BitVec 5)
  /-- `KRUN` (R220). Issues one kernel run, binding ports and reserving stream space. -/
  | krun (a : BitVec 5) (b : BitVec 5) (t : BitVec 5) (d : BitVec 1)
  /-- `KRQ` (R221). Removes the oldest return-queue entry of a tagged run's core. -/
  | krq (a : BitVec 5) (b : BitVec 5) (t : BitVec 5)
  /-- `SCOUNT` (R222). Returns a stream's length once final. -/
  | scount (a : BitVec 5) (h : BitVec 4)
  /-- `SWAIT` (R223). Waits for earlier entries of the masked classes to retire or complete. -/
  | swait (h : BitVec 4) (q : BitVec 1) (c : BitVec 1) (m : BitVec 3)
  /-- `SWAITA` (R223). Waits until every earlier entry has completed. -/
  | swaita
  /-- `STEST` (R223). Reports whether the equivalent SWAIT would block. -/
  | stest (a : BitVec 5) (h : BitVec 4) (q : BitVec 1) (c : BitVec 1) (m : BitVec 3)
  /-- `SBAR` (R172). Orders later entries of masked classes after earlier ones. -/
  | sbar (m : BitVec 3)
  /-- `RFENCE` (R186). Invalidates the tensor-record cache. -/
  | rfence
  /-- `FSPAWN` (R241). Creates a READY future task held by the spawner. -/
  | fspawn (d : BitVec 5) (a : BitVec 5) (b : BitVec 5)
  /-- `FSPAWNH` (R241). Spawns with an SC affinity hint. -/
  | fspawnh (d : BitVec 5) (a : BitVec 5) (b : BitVec 5) (s : BitVec 4)
  /-- `FREF` (R243). Raises a future's consumer count. -/
  | fref (a : BitVec 5)
  /-- `FDROP` (R243). Lowers a future's count, reclaiming or freeing at zero. -/
  | fdrop (a : BitVec 5)
  /-- `FGET` (R244). Waits for a future to end and returns its result. -/
  | fget (d : BitVec 5) (a : BitVec 5)
  /-- `FGETD` (R244). FGET followed by FDROP. -/
  | fgetd (d : BitVec 5) (a : BitVec 5)
  /-- `FPOLL` (R245). Returns a future's state word without blocking. -/
  | fpoll (d : BitVec 5) (a : BitVec 5)
  /-- `FRET` (R246). Ends the task DONE with a result after its entries complete. -/
  | fret (a : BitVec 5)
  /-- `FRETF` (R246). Ends the task FAULTED with a value. -/
  | fretf (a : BitVec 5)
  /-- `FYIELD` (R246). Ends the current slice. -/
  | fyield
  /-- `FSIG` (R261). Sends an early normal edge of the task's graph node. -/
  | fsig (n : BitVec 14)
  /-- `BALLOC` (R251). Allocates a barrier at SC or package scope. -/
  | balloc (d : BitVec 5) (a : BitVec 5) (b : BitVec 5)
  /-- `BFREE` (R251). Frees a barrier entry. -/
  | bfree (a : BitVec 5)
  /-- `BARR` (R252). Arrives at a barrier as a release. -/
  | barr (a : BitVec 5)
  /-- `BARRD` (R252). Arrives and drops from later phases. -/
  | barrd (a : BitVec 5)
  /-- `BWAIT` (R252). Waits for the barrier phase to complete. -/
  | bwait (a : BitVec 5)
  /-- `BPOLL` (R254). Reads a barrier's phase word. -/
  | bpoll (d : BitVec 5) (a : BitVec 5)
  /-- `WAITGE` (R255). Waits until a flag word reaches a threshold. -/
  | waitge (a : BitVec 5) (b : BitVec 5)
  /-- `GLAUNCH` (R257). Makes a graph resident and returns its future. -/
  | glaunch (d : BitVec 5) (a : BitVec 5)
  /-- `GFREE` (R257). Drops the launcher's graph reference. -/
  | gfree (a : BitVec 5)
  /-- `SCOPY` (R224). Copies elements between records or streams. -/
  | scopy (a : BitVec 5) (h : BitVec 4) (k : BitVec 4) (b : BitVec 5) (t : BitVec 1) (s : BitVec 1)
  /-- `SACC` (R226). Accumulates a source into a destination record. -/
  | sacc (a : BitVec 5) (h : BitVec 4) (b : BitVec 5) (o : BitVec 3) (l : BitVec 1)
  /-- `SCAS` (R227). Accumulate or compare-and-swap returning old values. -/
  | scas (a : BitVec 5) (h : BitVec 4) (k : BitVec 4) (b : BitVec 5) (o : BitVec 3) (t : BitVec 2) (l : BitVec 1)
  /-- `SSCADD` (R226). Scatter-accumulates stream elements by index. -/
  | sscadd (a : BitVec 5) (h : BitVec 4) (k : BitVec 4) (b : BitVec 5) (o : BitVec 3)
  /-- `SQUANT` (R228). Quantises an f32 record into BX. -/
  | squant (a : BitVec 5) (b : BitVec 5)
  /-- `SDQNT` (R228). Dequantises a BX record into f32. -/
  | sdqnt (a : BitVec 5) (b : BitVec 5)
  /-- `SDECOMP` (R229). Expands Millefeuille blocks into a stream on the DCE. -/
  | sdecomp (a : BitVec 5) (h : BitVec 4) (b : BitVec 5) (m : BitVec 1)
  /-- `SREAD` (R230). Reads NVMe blocks into a memory record. -/
  | sread (a : BitVec 5) (b : BitVec 5)
  /-- `SREADS` (R230). Reads NVMe blocks into a stream. -/
  | sreads (a : BitVec 5) (h : BitVec 4)
  /-- `RPUT` (R232). Writes a local source to a remote range. -/
  | rput (a : BitVec 5) (h : BitVec 4) (b : BitVec 5) (o : BitVec 1) (s : BitVec 1)
  /-- `RPUTH` (R232). Remote put followed by a handler arrival. -/
  | rputh (a : BitVec 5) (h : BitVec 4) (b : BitVec 5) (o : BitVec 1) (c : BitVec 4) (s : BitVec 1)
  /-- `RGET` (R232). Reads a remote range into a local destination. -/
  | rget (a : BitVec 5) (k : BitVec 4) (b : BitVec 5) (t : BitVec 1)
  /-- `RACC` (R232). Accumulates a local source into a remote range. -/
  | racc (a : BitVec 5) (h : BitVec 4) (b : BitVec 5) (o : BitVec 3) (t : BitVec 2) (l : BitVec 1)
  /-- `RSIG` (R232). Adds a value to a remote flag, optionally with a handler. -/
  | rsig (a : BitVec 5) (b : BitVec 5) (c : BitVec 4) (q : BitVec 1)
  /-- `TLBINV` (R277). Invalidates TLB entries of a VA and waits for its pins. -/
  | tlbinv (a : BitVec 5)
  /-- `TLBINVA` (R277). Invalidates all entries of the ASID and waits for its pins. -/
  | tlbinva
  /-- `XLAT` (R277). Returns the translation word of a VA. -/
  | xlat (d : BitVec 5) (a : BitVec 5)
  /-- `RNGSET` (R277). Writes a staging range-register word. -/
  | rngset (a : BitVec 5) (r : BitVec 6) (w : BitVec 2)
  /-- `RNGGET` (R277). Reads a staging or live range-register word. -/
  | rngget (d : BitVec 5) (r : BitVec 6) (l : BitVec 1) (w : BitVec 2)
  /-- `RNGCOMMIT` (R279). Checks and copies staging range registers to all dies' live registers. -/
  | rngcommit
  /-- `PSPLIT` (R344). Splits a WHOLE read-duplicate page into 64 KiB leaves. -/
  | psplit (a : BitVec 5)
  /-- `POWN` (R345). Makes a block OWNED by one holder. -/
  | pown (a : BitVec 5) (b : BitVec 5)
  /-- `PDUP` (R346). Makes an OWNED block DUP again, copying or not. -/
  | pdup (a : BitVec 5) (b : BitVec 5)
  /-- `PSTAT` (R347). Reads a read-duplicate block's state word. -/
  | pstat (d : BitVec 5) (a : BitVec 5)
  /-- `ASYNC_TRAP` (R203). A pending asynchronous trap such as STREAM_FAULT or BUDGET is taken at the next boundary. -/
  | asyncTrap (sc c : Nat)
  /-- `TRAP_HANDOVER` (R205). The head of the trap queue is handed to a free system context starting at TVEC. -/
  | trapHandover (sc : Nat)
  /-- `PAUSE_EXPIRY` (R202). The 32 wall cycles of a PAUSE elapse and the context is issued again. -/
  | pauseExpiry (sc c : Nat)
  /-- `CONTEXT_WAKE` (R165). A BLOCKED context becomes READY when its wait condition (room, value, phase, flag, pins) is met. -/
  | contextWake (sc c : Nat)
  /-- `MESSAGE_CONTEXT_START` (R167). A queued arrival starts on the lowest free message context. -/
  | messageContextStart (sc : Nat)
  /-- `ENTRY_START` (R171). A WAITING scoreboard entry starts on its engine once edges, SBAR, a job and the engine allow. -/
  | entryStart (sc e : Nat)
  /-- `STREAM_AGENT_TRANSFER` (R397). The stream agent moves a block of a started job once its position is filled or free. -/
  | streamAgentTransfer (sc e : Nat)
  /-- `ENTRY_RETIRE` (R174). An entry retires once its writes are published and performed, freeing its scoreboard entry. -/
  | entryRetire (sc e : Nat)
  /-- `ENTRY_COMPLETE` (R174). An entry completes once remote effects are acknowledged and its flag incremented, freeing its job and pins. -/
  | entryComplete (sc e : Nat)
  /-- `KERNEL_STORE_RELEASE` (R177). A freed kernel's store range is released once its last run retires. -/
  | kernelStoreRelease (sc k : Nat)
  /-- `STREAM_DEFERRED_FREE` (R179). A stream of an ended or reclaimed task is freed when its last entry retires. -/
  | streamDeferredFree (sc d : Nat)
  /-- `TASK_DISPATCH` (R331). When a task context is free the CP dispatches the first eligible ready slice. -/
  | taskDispatch
  /-- `RECLAMATION_POINT` (R247). A reclaimed running task is stopped and its entries, runs, streams, memberships, edges and children released. -/
  | reclamationPoint (f : Nat)
  /-- `TASK_END` (R246). After FRET's wait, the task's state, edges, memberships, children and streams are settled. -/
  | taskEnd (sc c : Nat)
  /-- `FSIG_DELIVERY` (R261). After the task's earlier effects perform, the early edge is delivered. -/
  | fsigDelivery (sc c : Nat)
  /-- `GRAPH_NODE_DISPATCH` (R259). A node whose dependency counter reaches zero is dispatched, skipped or poisoned. -/
  | graphNodeDispatch (g n : Nat)
  /-- `LAUNCH_READ` (R321). The CP reads and checks a published launch descriptor. -/
  | launchRead (q : Nat)
  /-- `BUDGET_EXPIRY` (R333). A slice budget reaches zero and the task is descheduled. -/
  | budgetExpiry (sc c : Nat)
  /-- `QCFG_WRITE` (R318). Enables or disables a work queue, setting HEAD to TAIL on enable. -/
  | qcfgWrite (q : Nat) (v : Word)
  /-- `QTAIL_WRITE` (R319). Publishes ring entries to the CP. -/
  | qtailWrite (q : Nat) (v : Word)
  /-- `QSTAT_REF_CLEAR` (R318). A 1 written to REF clears the refusal bit. -/
  | qstatRefClear (q : Nat) (v : Word)
  /-- `DREC_VALIDATE` (R339). Writing V in DREC0 validates or clears a DUP record. -/
  | drecValidate (i : Nat) (v : Word)
  /-- `FID_WRITE` (R362). Sets the package id for later translations and checks. -/
  | fidWrite (v : Word)
  /-- `KSP_WRITE` (R208). Sets the kernel save pointer, leaving V at 0 if the area is invalid. -/
  | kspWrite (sc : Nat) (v : Word)
  /-- `PTB_WRITE` (R271). Sets the SC's page table base for later translations. -/
  | ptbWrite (sc : Nat) (v : Word)
  /-- `PLIM_WRITE` (R395). Sets the power limit, clamped to 1,600-3,200 W. -/
  | plimWrite (v : Word)
  /-- `TTHR_WRITE` (R395). Sets the throttle threshold, clamped to 60-100 C. -/
  | tthrWrite (v : Word)
  /-- `HLTH_CLEAR` (R395). A 1 written to a W1C HLTH bit clears it. -/
  | hlthClear (v : Word)
  /-- `TAG_STORE_WRITE` (R299). Writes a block's Millefeuille tag without changing its bytes. -/
  | tagStoreWrite (off : Nat) (v : Word)
  /-- `FRAME_MAP_WRITE` (R297). Sets a frame's compression MODE for later requests. -/
  | frameMapWrite (off : Nat) (v : Word)
  /-- `PORTCTL_LOCK` (R355). Moves the named port from CONFIG_UNLOCKED to CONFIG_LOCKED. -/
  | portctlLock (port : Nat)
  /-- `PORTCTL_RUN` (R355). Moves the named port from CONFIG_LOCKED to RUN. -/
  | portctlRun (port : Nat)
  /-- `PORTCTL_UNLOCK` (R355). Returns the named port to CONFIG_UNLOCKED, after draining in RUN. -/
  | portctlUnlock (port : Nat)
  /-- `REGISTER_WRITE` (R11). A write to a register with no row of its own acts by its access code. -/
  | registerWrite (off : Nat) (v : Word)
  /-- `BASE_DIE_READ` (R283). A read request packet reads 32 or 64 bytes from a stack. -/
  | baseDieRead (id : Nat)
  /-- `BASE_DIE_WRITE` (R285). A whole-sector write request replaces sectors. -/
  | baseDieWrite (id : Nat)
  /-- `BASE_DIE_MASKED_WRITE` (R285). A masked write request merges bytes, by read-modify-write for partial sectors. -/
  | baseDieMaskedWrite (id : Nat)
  /-- `BASE_DIE_ACCUMULATE` (R283). An accumulate request combines elements at the accumulate-on-write unit and returns old values. -/
  | baseDieAccumulate (id : Nat)
  /-- `BASE_DIE_REPLY` (R284). A reply reaches its requester, freeing the tag and delivering data. -/
  | baseDieReply (id : Nat)
  /-- `PAGE_WALK` (R273). A hub walker reads PTEs level by level and fills the TLBs or ends in a fault condition. -/
  | pageWalk (sc : Nat) (va : Word)
  /-- `NVME_COMPLETION` (R230). An NVMe Read command completes, its data written or zeroed on failure. -/
  | nvmeCompletion (job cmd : Nat) (status : Half) (data : List Byte)
  /-- `NVME_TIMEOUT` (R289). A command without completion for 1 s is aborted and counted failed. -/
  | nvmeTimeout (job cmd : Nat)
  /-- `HOST_WRITE` (R310). A host posted write performs in arrival order at PKG scope. -/
  | hostWrite (r : HostReq)
  /-- `HOST_READ` (R310). A host read returns the location's PKG-scope value. -/
  | hostRead (r : HostReq)
  /-- `HOST_ATOMIC` (R311). A host AtomicOp is performed at the AOW unit or as a split read-modify-write. -/
  | hostAtomic (r : HostReq)
  /-- `CXL_CACHE_REQUEST` (R350). A host CXL.mem caching request is tracked, evicting the oldest line if full. -/
  | cxlCacheRequest (line : Nat) (excl : Bool)
  /-- `BISNP_RESPONSE` (R350). The host answers a back-invalidation snoop and the waiting device access proceeds. -/
  | bisnpResponse (line : Nat) (dirty : Option (List Byte))
  /-- `HOST_LINK_TIMEOUT` (R351). The half 0 host link stays down for 1 s. -/
  | hostLinkTimeout
  /-- `DIE_LOSS` (R353). A core, SC or die fails and the die's tasks end LOST. -/
  | dieLoss (die : Nat) (core : Bool)
  /-- `STACK_LOSS` (R353). A stack or channel fails; requests reply STATUS 2. -/
  | stackLoss (stack : Nat)
  /-- `BRIDGE_LINK_FAILURE` (R353). One bridge link fails and traffic uses the other. -/
  | bridgeLinkFailure (link : Nat)
  /-- `HUB_LOSS` (R353). A hub fails and its half is lost as the minor half. -/
  | hubLoss (hub : Nat)
  /-- `LANE_FAILURE` (R380). An optical lane's transmitter or receiver fails, or three link-slots fail. -/
  | laneFailure (lane : Nat)
  /-- `SLOT_START` (R370). A Pinwheel slot begins; compression tables reset and ready frames are assigned paths. -/
  | slotStart
  /-- `FRAME_POSITION` (R367). At each frame position a link sends a new frame, a resend or a filler. -/
  | framePosition (lane : Nat) (rx : Option RxFrame)
  /-- `PAYLOAD_WINDOW_END` (R368). Unacknowledged frames return to transport at the end of the payload window. -/
  | payloadWindowEnd
  /-- `FILLER` (R363). A filler frame carries hop-part fields such as acknowledgements and liveness. -/
  | filler (lane : Nat) (hop : Hop)
  /-- `PUT` (R375). A PUT frame's payload is written at the target. -/
  | put (f : Frame)
  /-- `PUTH` (R375). A PUTH frame is written and then queues a handler arrival. -/
  | puth (f : Frame)
  /-- `GETREQ` (R375). A GETREQ frame has the target read and return GETDATA frames. -/
  | getreq (f : Frame)
  /-- `GETDATA` (R375). A GETDATA frame is written into the requester's destination. -/
  | getdata (f : Frame)
  /-- `ACC` (R375). An ACC frame is combined at the target's accumulate-on-write unit. -/
  | acc (f : Frame)
  /-- `SIG` (R375). A SIG frame adds its value to the target flag. -/
  | sig (f : Frame)
  /-- `ACK` (R376). An ACK frame completes the source operations it names. -/
  | ack (f : Frame)
  /-- `DESCRIPTOR_FRAME` (R377). A descriptor frame carries an operation's flag, handler and SIG value. -/
  | descriptorFrame (f : Frame)
  /-- `RELAY_FRAME` (R371). A frame with RELAY set is held in the relay store or discarded when full. -/
  | relayFrame (lane : Nat) (f : Frame)
  /-- `E2E_TIMEOUT` (R376). An operation without ACK for four cycles is sent again whole. -/
  | e2eTimeout (dst op : Nat)
  /-- `LIVENESS_TIMEOUT` (R381). Two cycles without a valid frame from a package mark it dead. -/
  | livenessTimeout (pkg : Nat)
  /-- `GET_CERTIFICATE` (R390). SPDM request for the module's certificate chain. -/
  | getCertificate (slot : Spdm Nat)
  /-- `CHALLENGE` (R390). SPDM challenge signed with the identity key. -/
  | challenge (nonce : Spdm (List Byte))
  /-- `GET_MEASUREMENTS` (R390). SPDM request for the module's measurements. -/
  | getMeasurements (index : Spdm Nat)
  /-- `KEY_UPDATE` (R373). SPDM key update replaces a pair's keys and restarts its counter. -/
  | keyUpdate (peer : Nat)
  /-- `MODULE_RESET` (R388). Power-good or reset runs the boot sequence. -/
  | moduleReset (b : BootInput)
  /-- `THERMAL_TRIP` (R394). A die sensor reaches 110 C and the hardwired trip stops the module. -/
  | thermalTrip
  /-- `POWER_SAMPLE` (R393). Every 100 us the MP measures power and temperature and steps clocks. -/
  | powerSample (p : PowerSample)
  /-- `ILLEGAL_INSTRUCTION` (R55). A fetched control-core word with an undefined op byte traps ILLEGAL precisely. -/
  | illegalInstruction (w : W32)
  /-- `FETCH_FAULT` (R198). A fetch whose address does not translate or lacks execute permission traps FETCH. -/
  | fetchFault (va : Word)
  /-- `COPY_ENGINE_TRANSFER` (R189). A copy engine moves data of its started job, including stream positions, as they become filled or free. -/
  | copyEngineTransfer (sc e : Nat)
  /-- `DCE_BLOCK_WRITE` (R288). The decompression engine writes an expanded 64-byte block into an SRF stream in an even time-slot-4 cycle. -/
  | dceBlockWrite (sc e : Nat)
  /-- `PORT_LINK_FAILURE` (R355). A link failure or integrity error on a host or storage port moves it to ERROR. -/
  | portLinkFailure (port : Nat)
  /-- `CONFIGURATION_REQUEST` (R349). A PCIe configuration request reaches a host port, which answers it in every state. -/
  | configurationRequest (port reg : Nat)
  /-- `SPDM_SESSION` (R373). Management firmware establishes or re-establishes the SPDM session of a package pair. -/
  | spdmSession (peer : Spdm Nat)
  deriving DecidableEq, Repr

end Sys2Proof
end

