-- ==== Sys2Proof/WellFormed.lean ====
section
/-!
DEFINITION. Which instructions are well formed: the field types of kernel operations (R41-R46) and the conditions
under which a control-core word with defined op and zero unused bits still traps ILLEGAL (R54-R56, R201, R210,
R227).  An instruction that the decoder accepts is well formed.
-/

namespace Sys2Proof

/-- A destination register field (R41, type vd). -/
def vdOk (x : BitVec 8) : Bool := x.toNat < 192

/-- A source operand code (R40, R41). -/
def sourceOk (x : BitVec 8) : Bool :=
  x.toNat < 206 || x.toNat == 208 || x.toNat == 209 || 224 ≤ x.toNat

/-- A uniform operand code (R41). -/
def uniformOk (x : BitVec 8) : Bool :=
  (194 ≤ x.toNat && x.toNat < 206) || x.toNat == 208 || x.toNat == 209 || 224 ≤ x.toNat

/-- A predicate destination, p1-p3 (R41, type pd). -/
def predDOk (x : BitVec 8) : Bool := 1 ≤ x.toNat && x.toNat ≤ 3

/-- A predicate number, p0-p3 (R41, types pa and pb). -/
def predNOk (x : BitVec 8) : Bool := x.toNat ≤ 3

/-- A TOM slot (R41, type m). -/
def slotMOk (x : BitVec 8) : Bool := x.toNat < 16

/-- An AM bank (R41, type bank). -/
def bankOk (x : BitVec 8) : Bool := x.toNat < 64

/-- A stream port (R41, type port). -/
def portOk (x : BitVec 8) : Bool := x.toNat < 8

/-- The format code of tfill: the immediates 1-10 (R71). -/
def fmtCodeOk (x : BitVec 8) : Bool := 241 ≤ x.toNat && x.toNat ≤ 250

/-- The count of an idle, 1 to 4,095 (R43). -/
def nonzeroOk (x : BitVec 12) : Bool := x.toNat != 0


/-- The field types of a kernel operation's syllable (R41, R43, R46, R49, R52): `true` when every field lies in its
type.  Every other instruction and event has no kernel field to check. -/
def kernelFieldsOk : Instr → Bool
  | .ctlLsetv _ u => uniformOk u
  | .ctlKret _ s => sourceOk s
  | .ctlIdle n => nonzeroOk n
  | .hkChkeq _ a b => sourceOk a && sourceOk b
  | .hkChkz _ a => sourceOk a
  | .hkChkovf _ a => bankOk a
  | .hkChkall _ a => predNOk a
  | .iAdd _ d a b => vdOk d && sourceOk a && sourceOk b
  | .iSub _ d a b => vdOk d && sourceOk a && sourceOk b
  | .iMul _ d a b => vdOk d && sourceOk a && sourceOk b
  | .iMulhs _ d a b => vdOk d && sourceOk a && sourceOk b
  | .iMulhz _ d a b => vdOk d && sourceOk a && sourceOk b
  | .iAnd _ d a b => vdOk d && sourceOk a && sourceOk b
  | .iOr _ d a b => vdOk d && sourceOk a && sourceOk b
  | .iXor _ d a b => vdOk d && sourceOk a && sourceOk b
  | .iAndn _ d a b => vdOk d && sourceOk a && sourceOk b
  | .iShl _ d a b => vdOk d && sourceOk a && sourceOk b
  | .iShrz _ d a b => vdOk d && sourceOk a && sourceOk b
  | .iShrs _ d a b => vdOk d && sourceOk a && sourceOk b
  | .iRotl _ d a b => vdOk d && sourceOk a && sourceOk b
  | .iMins _ d a b => vdOk d && sourceOk a && sourceOk b
  | .iMaxs _ d a b => vdOk d && sourceOk a && sourceOk b
  | .iMinz _ d a b => vdOk d && sourceOk a && sourceOk b
  | .iMaxz _ d a b => vdOk d && sourceOk a && sourceOk b
  | .iAbs _ d a => vdOk d && sourceOk a
  | .iAddss _ d a b => vdOk d && sourceOk a && sourceOk b
  | .iAddsz _ d a b => vdOk d && sourceOk a && sourceOk b
  | .iSubss _ d a b => vdOk d && sourceOk a && sourceOk b
  | .iSubsz _ d a b => vdOk d && sourceOk a && sourceOk b
  | .iAbsds _ d a b => vdOk d && sourceOk a && sourceOk b
  | .iAbsdz _ d a b => vdOk d && sourceOk a && sourceOk b
  | .iAvgs _ d a b => vdOk d && sourceOk a && sourceOk b
  | .iAvgz _ d a b => vdOk d && sourceOk a && sourceOk b
  | .iAddx2 _ d a b => vdOk d && sourceOk a && sourceOk b
  | .iAddx4 _ d a b => vdOk d && sourceOk a && sourceOk b
  | .iAddx8 _ d a b => vdOk d && sourceOk a && sourceOk b
  | .iHadd _ d a b => vdOk d && sourceOk a && sourceOk b
  | .iHsub _ d a b => vdOk d && sourceOk a && sourceOk b
  | .iHaddss _ d a b => vdOk d && sourceOk a && sourceOk b
  | .iHaddsz _ d a b => vdOk d && sourceOk a && sourceOk b
  | .iHsubss _ d a b => vdOk d && sourceOk a && sourceOk b
  | .iHsubsz _ d a b => vdOk d && sourceOk a && sourceOk b
  | .iHmul _ d a b => vdOk d && sourceOk a && sourceOk b
  | .iHmins _ d a b => vdOk d && sourceOk a && sourceOk b
  | .iHmaxs _ d a b => vdOk d && sourceOk a && sourceOk b
  | .iHminz _ d a b => vdOk d && sourceOk a && sourceOk b
  | .iHmaxz _ d a b => vdOk d && sourceOk a && sourceOk b
  | .iHabsds _ d a b => vdOk d && sourceOk a && sourceOk b
  | .iHabsdz _ d a b => vdOk d && sourceOk a && sourceOk b
  | .iHavgs _ d a b => vdOk d && sourceOk a && sourceOk b
  | .iHavgz _ d a b => vdOk d && sourceOk a && sourceOk b
  | .iFext _ d a b => vdOk d && sourceOk a && sourceOk b
  | .iFexts _ d a b => vdOk d && sourceOk a && sourceOk b
  | .iCeq _ d a b => predDOk d && sourceOk a && sourceOk b
  | .iCne _ d a b => predDOk d && sourceOk a && sourceOk b
  | .iClts _ d a b => predDOk d && sourceOk a && sourceOk b
  | .iCltz _ d a b => predDOk d && sourceOk a && sourceOk b
  | .iCles _ d a b => predDOk d && sourceOk a && sourceOk b
  | .iClez _ d a b => predDOk d && sourceOk a && sourceOk b
  | .iPand _ d a b => predDOk d && predNOk a && predNOk b
  | .iPor _ d a b => predDOk d && predNOk a && predNOk b
  | .iPxor _ d a b => predDOk d && predNOk a && predNOk b
  | .iSel _ d a b => vdOk d && sourceOk a && sourceOk b
  | .iPcnt _ d a => vdOk d && sourceOk a
  | .iClz _ d a => vdOk d && sourceOk a
  | .iPget _ d a => vdOk d && predNOk a
  | .iMov _ d a => vdOk d && sourceOk a
  | .fFadd _ d a b => vdOk d && sourceOk a && sourceOk b
  | .fFsub _ d a b => vdOk d && sourceOk a && sourceOk b
  | .fFmul _ d a b => vdOk d && sourceOk a && sourceOk b
  | .fFma _ d a b => vdOk d && sourceOk a && sourceOk b
  | .fFnma _ d a b => vdOk d && sourceOk a && sourceOk b
  | .fFmin _ d a b => vdOk d && sourceOk a && sourceOk b
  | .fFmax _ d a b => vdOk d && sourceOk a && sourceOk b
  | .fFabs _ d a => vdOk d && sourceOk a
  | .fFneg _ d a => vdOk d && sourceOk a
  | .fFcpsgn _ d a b => vdOk d && sourceOk a && sourceOk b
  | .fFceq _ d a b => predDOk d && sourceOk a && sourceOk b
  | .fFclt _ d a b => predDOk d && sourceOk a && sourceOk b
  | .fFcle _ d a b => predDOk d && sourceOk a && sourceOk b
  | .fFcun _ d a b => predDOk d && sourceOk a && sourceOk b
  | .fFrcp _ d a => vdOk d && sourceOk a
  | .fFrsq _ d a => vdOk d && sourceOk a
  | .fFexp2 _ d a => vdOk d && sourceOk a
  | .fFlog2 _ d a => vdOk d && sourceOk a
  | .fBadd _ d a b => vdOk d && sourceOk a && sourceOk b
  | .fBsub _ d a b => vdOk d && sourceOk a && sourceOk b
  | .fBmul _ d a b => vdOk d && sourceOk a && sourceOk b
  | .fBfma _ d a b => vdOk d && sourceOk a && sourceOk b
  | .fBmin _ d a b => vdOk d && sourceOk a && sourceOk b
  | .fBmax _ d a b => vdOk d && sourceOk a && sourceOk b
  | .fFdot2 _ d a b => vdOk d && sourceOk a && sourceOk b
  | .fFclamp _ d a b => vdOk d && sourceOk a && sourceOk b
  | .fFsat _ d a => vdOk d && sourceOk a
  | .fFrnd _ d a => vdOk d && sourceOk a
  | .fFscl _ d a b => vdOk d && sourceOk a && sourceOk b
  | .fCvtsf _ d a => vdOk d && sourceOk a
  | .fCvtzf _ d a => vdOk d && sourceOk a
  | .fCvtfs _ d a => vdOk d && sourceOk a
  | .fCvtfz _ d a => vdOk d && sourceOk a
  | .fCvtfb _ d a b => vdOk d && sourceOk a && sourceOk b
  | .fCvtbfl _ d a => vdOk d && sourceOk a
  | .fCvtbfh _ d a => vdOk d && sourceOk a
  | .fCvtlsf _ d a => vdOk d && sourceOk a
  | .fCvthsf _ d a => vdOk d && sourceOk a
  | .fCvtlzf _ d a => vdOk d && sourceOk a
  | .fCvthzf _ d a => vdOk d && sourceOk a
  | .tmTldw m => slotMOk m
  | .tmTldwt m => slotMOk m
  | .tmTmma k m n => bankOk k && slotMOk m && uniformOk n
  | .tmTmmz k m n => bankOk k && slotMOk m && uniformOk n
  | .tmTmmn k m n => bankOk k && slotMOk m && uniformOk n
  | .tmTldx m => slotMOk m
  | .tmTstat _ d => vdOk d
  | .tmTscl k m => bankOk k && slotMOk m
  | .tmTbias k m => bankOk k && slotMOk m
  | .tmTamw k s r => bankOk k && sourceOk s && uniformOk r
  | .tmTcvt d s => bankOk d && bankOk s
  | .tmTmmh k m n => bankOk k && slotMOk m && uniformOk n
  | .ptPld4 m => slotMOk m
  | .ptPld8 m => slotMOk m
  | .ptPlds m => slotMOk m
  | .ptPpass k m n => bankOk k && slotMOk m && uniformOk n
  | .ptPpassz k m n => bankOk k && slotMOk m && uniformOk n
  | .ptPpassn k m n => bankOk k && slotMOk m && uniformOk n
  | .ptPcvt d s m => bankOk d && bankOk s && slotMOk m
  | .ptPclro k => bankOk k
  | .ptPstat _ d => vdOk d
  | .ptPscan _ d s => vdOk d && sourceOk s
  | .sSpop _ d a k => vdOk d && portOk a && uniformOk k
  | .sSpopc _ d a => vdOk d && portOk a
  | .sSpush a s => portOk a && sourceOk s
  | .sSpushc _ a s => portOk a && sourceOk s
  | .sSwaitf a n => portOk a && uniformOk n
  | .sSwaite a n => portOk a && uniformOk n
  | .sSadvr a n => portOk a && uniformOk n
  | .sSadvw a n => portOk a && uniformOk n
  | .sTfill m a f => slotMOk m && portOk a && fmtCodeOk f
  | .sTfillx m a => slotMOk m && portOk a
  | .sScnt a => portOk a
  | .sSflush a => portOk a
  | .sSptrr _ d a => vdOk d && portOk a
  | .sSptrw _ d a => vdOk d && portOk a
  | .sSavail _ d a => vdOk d && portOk a
  | .sSspace _ d a => vdOk d && portOk a
  | .xsXperm _ d s i => vdOk d && sourceOk s && sourceOk i
  | .xsXpermc _ d s i => vdOk d && sourceOk s && sourceOk i
  | .xsXbc _ d s l => vdOk d && sourceOk s && uniformOk l
  | .xsXbcc _ d s n => vdOk d && sourceOk s && uniformOk n
  | .xsXrot _ d s n => vdOk d && sourceOk s && uniformOk n
  | .xsXrotc _ d s n => vdOk d && sourceOk s && uniformOk n
  | .xsXcmp _ d s => vdOk d && sourceOk s
  | .xsXcmpc _ d s => vdOk d && sourceOk s
  | .xsXexp _ d s => vdOk d && sourceOk s
  | .xsXcnt _ d => vdOk d
  | .amAalloc k => bankOk k
  | .amAallocp k => bankOk k
  | .amAfree k => bankOk k
  | .amMclaim m => slotMOk m
  | .amMrel m => slotMOk m
  | .amArd _ d k r => vdOk d && bankOk k && uniformOk r
  | .amArdh _ d k r => vdOk d && bankOk k && uniformOk r
  | .amAclr k => bankOk k
  | _ => true

/-- A register group of `n` registers from `g` does not pass g31 (R201, R210). -/
def groupOk (g : BitVec 5) (n : Nat) : Bool := g.toNat + n ≤ 32

/-- A handle field that the instruction does not use is zero (R54, R210). -/
def unused (used : Bool) (h : BitVec 4) : Bool := used || h == 0

/-- The conditions on a control-core instruction's fields beyond its format (R54, R56, R201, R210, R227).
DEDUCED (log 13): a field is used exactly when the flag that gives it a role is set. -/
def controlFieldsOk : Instr → Bool
  | .csave _ c => c.toNat < 20
  | .cload _ c => c.toNat < 20
  | .ctxkill c => c.toNat < 20
  | .ctxsig _ c => c.toNat < 20
  | .ldm d _ n => groupOk d (n.toNat + 1)
  | .stm d _ n => groupOk d (n.toNat + 1)
  | .sload _ _ k e => unused (e == 1) k
  | .sstore _ _ k e => unused (e == 1) k
  | .swait h q _ _ => unused (q == 1) h
  | .stest _ h q _ _ => unused (q == 1) h
  | .scopy a h k b t s =>
      unused (s == 1) h && unused (t == 1) k && (s == 0 || t == 1 || a == 0) && (t == 0 || b == 0)
  | .sacc a h _ _ l => unused (l == 1) h && (l == 0 || a == 0)
  | .scas a h k _ _ t l =>
      unused (l == 1) h && unused (l == 1) k && (if l == 1 then a == 0 && t == 0 else a.toNat % 2 == 0)
  | .sdecomp a _ _ _ => groupOk a 2
  | .sread a _ => groupOk a 4
  | .sreads a _ => groupOk a 4
  | .rput a h b _ s => unused (s == 1) h && (s == 0 || a == 0) && groupOk b 3
  | .rputh a h b _ _ s => unused (s == 1) h && (s == 0 || a == 0) && groupOk b 5
  | .rget a k b t => unused (t == 1) k && (t == 0 || a == 0) && groupOk b 3
  | .racc a h b _ _ l => unused (l == 1) h && (l == 0 || a == 0) && groupOk b 3
  | .rsig _ b c q => groupOk b (if q == 1 then 3 else 1) && (q == 1 || c == 0)
  | _ => true

/-- A well-formed instruction: its kernel fields lie in their types and its control fields meet R54. -/
def wellFormed (i : Instr) : Bool := kernelFieldsOk i && controlFieldsOk i

end Sys2Proof
end

