-- ==== Sys2Proof/Decode.lean ====
section
/-!
DEFINITION. The decoder of both instruction sets and, after it, an encoder written from the same tables of the
spec (R39, R43, R44, R48-R56).  Decoding a control-core word is total: a word that R55 makes trap ILLEGAL decodes
to `illegalInstruction`.  A syllable is decoded by the map of its slot.
-/

namespace Sys2Proof

/-- The slots of a bundle that hold operations (R37), in syllable order. -/
inductive Slot where
  | ctl
  | i
  | f
  | tm
  | pt
  | s
  | xs
  | am
  | hk
  deriving DecidableEq, Repr, Inhabited

/-- The slot of a syllable position (R37); none for the literals E0 and E1. -/
def slotOf : Nat → Option Slot
  | 0 => some .ctl
  | 1 => some .i
  | 2 => some .i
  | 3 => some .f
  | 4 => some .f
  | 5 => some .f
  | 6 => some .f
  | 7 => some .tm
  | 8 => some .pt
  | 9 => some .s
  | 10 => some .s
  | 11 => some .xs
  | 12 => some .am
  | 13 => some .hk
  | _ => none

/-- Why a word is no instruction. -/
inductive DecodeError where
  /-- The op byte is undefined, or a field that R54 requires to be zero is not (R55). -/
  | undefinedOrNonzero
  /-- The op is defined but a field lies outside its type (R41), or R56, R201, R210 or R227 makes it ILLEGAL. -/
  | illFormed
  deriving DecidableEq, Repr, Inhabited


/-- The CTL map (R43, R48-R52): the operation of a syllable, or none for an undefined op or a non-zero zero field. -/
def decodeCtl (w : W32) : Option Instr :=
  match (w.extractLsb' 26 6).toNat with
  | 0 => if w.extractLsb' 0 26 == 0 then some (.ctlNop) else none
  | 1 => if w.extractLsb' 0 26 == 0 then some (.ctlHalt) else none
  | 2 => if w.extractLsb' 12 14 == 0 then some (.ctlBr (w.extractLsb' 0 12)) else none
  | 3 => if w.extractLsb' 12 12 == 0 then some (.ctlBany (w.extractLsb' 24 2) (w.extractLsb' 0 12)) else none
  | 4 => if w.extractLsb' 12 12 == 0 then some (.ctlBall (w.extractLsb' 24 2) (w.extractLsb' 0 12)) else none
  | 5 => if w.extractLsb' 12 12 == 0 then some (.ctlBnone (w.extractLsb' 24 2) (w.extractLsb' 0 12)) else none
  | 6 => if w.extractLsb' 12 12 == 0 then some (.ctlBnall (w.extractLsb' 24 2) (w.extractLsb' 0 12)) else none
  | 7 => if w.extractLsb' 20 4 == 0 then some (.ctlLset (w.extractLsb' 24 2) (w.extractLsb' 0 20)) else none
  | 8 => if w.extractLsb' 3 21 == 0 then some (.ctlLsetk (w.extractLsb' 24 2) (w.extractLsb' 0 3)) else none
  | 9 => if w.extractLsb' 8 16 == 0 then some (.ctlLsetv (w.extractLsb' 24 2) (w.extractLsb' 0 8)) else none
  | 10 => if w.extractLsb' 12 12 == 0 then some (.ctlLbnz (w.extractLsb' 24 2) (w.extractLsb' 0 12)) else none
  | 11 => if w.extractLsb' 15 11 == 0 then some (.ctlBkz (w.extractLsb' 12 3) (w.extractLsb' 0 12)) else none
  | 12 => if w.extractLsb' 15 11 == 0 then some (.ctlBknz (w.extractLsb' 12 3) (w.extractLsb' 0 12)) else none
  | 13 => if w.extractLsb' 12 14 == 0 then some (.ctlKret (w.extractLsb' 8 4) (w.extractLsb' 0 8)) else none
  | 14 => if w.extractLsb' 0 24 == 0 then some (.ctlKretp (w.extractLsb' 24 2)) else none
  | 15 => if w.extractLsb' 12 14 == 0 then some (.ctlIdle (w.extractLsb' 0 12)) else none
  | _ => none

/-- The I map (R43, R48-R52): the operation of a syllable, or none for an undefined op or a non-zero zero field. -/
def decodeI (w : W32) : Option Instr :=
  match (w.extractLsb' 26 6).toNat with
  | 0 => if w == 0 then some .ctlNop else none
  | 1 => some (.iAdd (w.extractLsb' 24 2) (w.extractLsb' 16 8) (w.extractLsb' 8 8) (w.extractLsb' 0 8))
  | 2 => some (.iSub (w.extractLsb' 24 2) (w.extractLsb' 16 8) (w.extractLsb' 8 8) (w.extractLsb' 0 8))
  | 3 => some (.iMul (w.extractLsb' 24 2) (w.extractLsb' 16 8) (w.extractLsb' 8 8) (w.extractLsb' 0 8))
  | 4 => some (.iMulhs (w.extractLsb' 24 2) (w.extractLsb' 16 8) (w.extractLsb' 8 8) (w.extractLsb' 0 8))
  | 5 => some (.iMulhz (w.extractLsb' 24 2) (w.extractLsb' 16 8) (w.extractLsb' 8 8) (w.extractLsb' 0 8))
  | 6 => some (.iAnd (w.extractLsb' 24 2) (w.extractLsb' 16 8) (w.extractLsb' 8 8) (w.extractLsb' 0 8))
  | 7 => some (.iOr (w.extractLsb' 24 2) (w.extractLsb' 16 8) (w.extractLsb' 8 8) (w.extractLsb' 0 8))
  | 8 => some (.iXor (w.extractLsb' 24 2) (w.extractLsb' 16 8) (w.extractLsb' 8 8) (w.extractLsb' 0 8))
  | 9 => some (.iAndn (w.extractLsb' 24 2) (w.extractLsb' 16 8) (w.extractLsb' 8 8) (w.extractLsb' 0 8))
  | 10 => some (.iShl (w.extractLsb' 24 2) (w.extractLsb' 16 8) (w.extractLsb' 8 8) (w.extractLsb' 0 8))
  | 11 => some (.iShrz (w.extractLsb' 24 2) (w.extractLsb' 16 8) (w.extractLsb' 8 8) (w.extractLsb' 0 8))
  | 12 => some (.iShrs (w.extractLsb' 24 2) (w.extractLsb' 16 8) (w.extractLsb' 8 8) (w.extractLsb' 0 8))
  | 13 => some (.iRotl (w.extractLsb' 24 2) (w.extractLsb' 16 8) (w.extractLsb' 8 8) (w.extractLsb' 0 8))
  | 14 => some (.iMins (w.extractLsb' 24 2) (w.extractLsb' 16 8) (w.extractLsb' 8 8) (w.extractLsb' 0 8))
  | 15 => some (.iMaxs (w.extractLsb' 24 2) (w.extractLsb' 16 8) (w.extractLsb' 8 8) (w.extractLsb' 0 8))
  | 16 => some (.iMinz (w.extractLsb' 24 2) (w.extractLsb' 16 8) (w.extractLsb' 8 8) (w.extractLsb' 0 8))
  | 17 => some (.iMaxz (w.extractLsb' 24 2) (w.extractLsb' 16 8) (w.extractLsb' 8 8) (w.extractLsb' 0 8))
  | 18 => if w.extractLsb' 0 8 == 0 then some (.iAbs (w.extractLsb' 24 2) (w.extractLsb' 16 8) (w.extractLsb' 8 8)) else none
  | 19 => some (.iAddss (w.extractLsb' 24 2) (w.extractLsb' 16 8) (w.extractLsb' 8 8) (w.extractLsb' 0 8))
  | 20 => some (.iAddsz (w.extractLsb' 24 2) (w.extractLsb' 16 8) (w.extractLsb' 8 8) (w.extractLsb' 0 8))
  | 21 => some (.iSubss (w.extractLsb' 24 2) (w.extractLsb' 16 8) (w.extractLsb' 8 8) (w.extractLsb' 0 8))
  | 22 => some (.iSubsz (w.extractLsb' 24 2) (w.extractLsb' 16 8) (w.extractLsb' 8 8) (w.extractLsb' 0 8))
  | 23 => some (.iAbsds (w.extractLsb' 24 2) (w.extractLsb' 16 8) (w.extractLsb' 8 8) (w.extractLsb' 0 8))
  | 24 => some (.iAbsdz (w.extractLsb' 24 2) (w.extractLsb' 16 8) (w.extractLsb' 8 8) (w.extractLsb' 0 8))
  | 25 => some (.iAvgs (w.extractLsb' 24 2) (w.extractLsb' 16 8) (w.extractLsb' 8 8) (w.extractLsb' 0 8))
  | 26 => some (.iAvgz (w.extractLsb' 24 2) (w.extractLsb' 16 8) (w.extractLsb' 8 8) (w.extractLsb' 0 8))
  | 27 => some (.iAddx2 (w.extractLsb' 24 2) (w.extractLsb' 16 8) (w.extractLsb' 8 8) (w.extractLsb' 0 8))
  | 28 => some (.iAddx4 (w.extractLsb' 24 2) (w.extractLsb' 16 8) (w.extractLsb' 8 8) (w.extractLsb' 0 8))
  | 29 => some (.iAddx8 (w.extractLsb' 24 2) (w.extractLsb' 16 8) (w.extractLsb' 8 8) (w.extractLsb' 0 8))
  | 30 => some (.iHadd (w.extractLsb' 24 2) (w.extractLsb' 16 8) (w.extractLsb' 8 8) (w.extractLsb' 0 8))
  | 31 => some (.iHsub (w.extractLsb' 24 2) (w.extractLsb' 16 8) (w.extractLsb' 8 8) (w.extractLsb' 0 8))
  | 32 => some (.iHaddss (w.extractLsb' 24 2) (w.extractLsb' 16 8) (w.extractLsb' 8 8) (w.extractLsb' 0 8))
  | 33 => some (.iHaddsz (w.extractLsb' 24 2) (w.extractLsb' 16 8) (w.extractLsb' 8 8) (w.extractLsb' 0 8))
  | 34 => some (.iHsubss (w.extractLsb' 24 2) (w.extractLsb' 16 8) (w.extractLsb' 8 8) (w.extractLsb' 0 8))
  | 35 => some (.iHsubsz (w.extractLsb' 24 2) (w.extractLsb' 16 8) (w.extractLsb' 8 8) (w.extractLsb' 0 8))
  | 36 => some (.iHmul (w.extractLsb' 24 2) (w.extractLsb' 16 8) (w.extractLsb' 8 8) (w.extractLsb' 0 8))
  | 37 => some (.iHmins (w.extractLsb' 24 2) (w.extractLsb' 16 8) (w.extractLsb' 8 8) (w.extractLsb' 0 8))
  | 38 => some (.iHmaxs (w.extractLsb' 24 2) (w.extractLsb' 16 8) (w.extractLsb' 8 8) (w.extractLsb' 0 8))
  | 39 => some (.iHminz (w.extractLsb' 24 2) (w.extractLsb' 16 8) (w.extractLsb' 8 8) (w.extractLsb' 0 8))
  | 40 => some (.iHmaxz (w.extractLsb' 24 2) (w.extractLsb' 16 8) (w.extractLsb' 8 8) (w.extractLsb' 0 8))
  | 41 => some (.iHabsds (w.extractLsb' 24 2) (w.extractLsb' 16 8) (w.extractLsb' 8 8) (w.extractLsb' 0 8))
  | 42 => some (.iHabsdz (w.extractLsb' 24 2) (w.extractLsb' 16 8) (w.extractLsb' 8 8) (w.extractLsb' 0 8))
  | 43 => some (.iHavgs (w.extractLsb' 24 2) (w.extractLsb' 16 8) (w.extractLsb' 8 8) (w.extractLsb' 0 8))
  | 44 => some (.iHavgz (w.extractLsb' 24 2) (w.extractLsb' 16 8) (w.extractLsb' 8 8) (w.extractLsb' 0 8))
  | 45 => some (.iFext (w.extractLsb' 24 2) (w.extractLsb' 16 8) (w.extractLsb' 8 8) (w.extractLsb' 0 8))
  | 46 => some (.iFexts (w.extractLsb' 24 2) (w.extractLsb' 16 8) (w.extractLsb' 8 8) (w.extractLsb' 0 8))
  | 47 => some (.iCeq (w.extractLsb' 24 2) (w.extractLsb' 16 8) (w.extractLsb' 8 8) (w.extractLsb' 0 8))
  | 48 => some (.iCne (w.extractLsb' 24 2) (w.extractLsb' 16 8) (w.extractLsb' 8 8) (w.extractLsb' 0 8))
  | 49 => some (.iClts (w.extractLsb' 24 2) (w.extractLsb' 16 8) (w.extractLsb' 8 8) (w.extractLsb' 0 8))
  | 50 => some (.iCltz (w.extractLsb' 24 2) (w.extractLsb' 16 8) (w.extractLsb' 8 8) (w.extractLsb' 0 8))
  | 51 => some (.iCles (w.extractLsb' 24 2) (w.extractLsb' 16 8) (w.extractLsb' 8 8) (w.extractLsb' 0 8))
  | 52 => some (.iClez (w.extractLsb' 24 2) (w.extractLsb' 16 8) (w.extractLsb' 8 8) (w.extractLsb' 0 8))
  | 53 => some (.iPand (w.extractLsb' 24 2) (w.extractLsb' 16 8) (w.extractLsb' 8 8) (w.extractLsb' 0 8))
  | 54 => some (.iPor (w.extractLsb' 24 2) (w.extractLsb' 16 8) (w.extractLsb' 8 8) (w.extractLsb' 0 8))
  | 55 => some (.iPxor (w.extractLsb' 24 2) (w.extractLsb' 16 8) (w.extractLsb' 8 8) (w.extractLsb' 0 8))
  | 56 => some (.iSel (w.extractLsb' 24 2) (w.extractLsb' 16 8) (w.extractLsb' 8 8) (w.extractLsb' 0 8))
  | 57 => if w.extractLsb' 0 8 == 0 then some (.iPcnt (w.extractLsb' 24 2) (w.extractLsb' 16 8) (w.extractLsb' 8 8)) else none
  | 58 => if w.extractLsb' 0 8 == 0 then some (.iClz (w.extractLsb' 24 2) (w.extractLsb' 16 8) (w.extractLsb' 8 8)) else none
  | 59 => if w.extractLsb' 0 8 == 0 then some (.iPget (w.extractLsb' 24 2) (w.extractLsb' 16 8) (w.extractLsb' 8 8)) else none
  | 60 => if w.extractLsb' 0 8 == 0 then some (.iMov (w.extractLsb' 24 2) (w.extractLsb' 16 8) (w.extractLsb' 8 8)) else none
  | _ => none

/-- The F map (R43, R48-R52): the operation of a syllable, or none for an undefined op or a non-zero zero field. -/
def decodeF (w : W32) : Option Instr :=
  match (w.extractLsb' 26 6).toNat with
  | 0 => if w == 0 then some .ctlNop else none
  | 1 => some (.fFadd (w.extractLsb' 24 2) (w.extractLsb' 16 8) (w.extractLsb' 8 8) (w.extractLsb' 0 8))
  | 2 => some (.fFsub (w.extractLsb' 24 2) (w.extractLsb' 16 8) (w.extractLsb' 8 8) (w.extractLsb' 0 8))
  | 3 => some (.fFmul (w.extractLsb' 24 2) (w.extractLsb' 16 8) (w.extractLsb' 8 8) (w.extractLsb' 0 8))
  | 4 => some (.fFma (w.extractLsb' 24 2) (w.extractLsb' 16 8) (w.extractLsb' 8 8) (w.extractLsb' 0 8))
  | 5 => some (.fFnma (w.extractLsb' 24 2) (w.extractLsb' 16 8) (w.extractLsb' 8 8) (w.extractLsb' 0 8))
  | 6 => some (.fFmin (w.extractLsb' 24 2) (w.extractLsb' 16 8) (w.extractLsb' 8 8) (w.extractLsb' 0 8))
  | 7 => some (.fFmax (w.extractLsb' 24 2) (w.extractLsb' 16 8) (w.extractLsb' 8 8) (w.extractLsb' 0 8))
  | 8 => if w.extractLsb' 0 8 == 0 then some (.fFabs (w.extractLsb' 24 2) (w.extractLsb' 16 8) (w.extractLsb' 8 8)) else none
  | 9 => if w.extractLsb' 0 8 == 0 then some (.fFneg (w.extractLsb' 24 2) (w.extractLsb' 16 8) (w.extractLsb' 8 8)) else none
  | 10 => some (.fFcpsgn (w.extractLsb' 24 2) (w.extractLsb' 16 8) (w.extractLsb' 8 8) (w.extractLsb' 0 8))
  | 11 => some (.fFceq (w.extractLsb' 24 2) (w.extractLsb' 16 8) (w.extractLsb' 8 8) (w.extractLsb' 0 8))
  | 12 => some (.fFclt (w.extractLsb' 24 2) (w.extractLsb' 16 8) (w.extractLsb' 8 8) (w.extractLsb' 0 8))
  | 13 => some (.fFcle (w.extractLsb' 24 2) (w.extractLsb' 16 8) (w.extractLsb' 8 8) (w.extractLsb' 0 8))
  | 14 => some (.fFcun (w.extractLsb' 24 2) (w.extractLsb' 16 8) (w.extractLsb' 8 8) (w.extractLsb' 0 8))
  | 15 => if w.extractLsb' 0 8 == 0 then some (.fFrcp (w.extractLsb' 24 2) (w.extractLsb' 16 8) (w.extractLsb' 8 8)) else none
  | 16 => if w.extractLsb' 0 8 == 0 then some (.fFrsq (w.extractLsb' 24 2) (w.extractLsb' 16 8) (w.extractLsb' 8 8)) else none
  | 17 => if w.extractLsb' 0 8 == 0 then some (.fFexp2 (w.extractLsb' 24 2) (w.extractLsb' 16 8) (w.extractLsb' 8 8)) else none
  | 18 => if w.extractLsb' 0 8 == 0 then some (.fFlog2 (w.extractLsb' 24 2) (w.extractLsb' 16 8) (w.extractLsb' 8 8)) else none
  | 19 => some (.fBadd (w.extractLsb' 24 2) (w.extractLsb' 16 8) (w.extractLsb' 8 8) (w.extractLsb' 0 8))
  | 20 => some (.fBsub (w.extractLsb' 24 2) (w.extractLsb' 16 8) (w.extractLsb' 8 8) (w.extractLsb' 0 8))
  | 21 => some (.fBmul (w.extractLsb' 24 2) (w.extractLsb' 16 8) (w.extractLsb' 8 8) (w.extractLsb' 0 8))
  | 22 => some (.fBfma (w.extractLsb' 24 2) (w.extractLsb' 16 8) (w.extractLsb' 8 8) (w.extractLsb' 0 8))
  | 23 => some (.fBmin (w.extractLsb' 24 2) (w.extractLsb' 16 8) (w.extractLsb' 8 8) (w.extractLsb' 0 8))
  | 24 => some (.fBmax (w.extractLsb' 24 2) (w.extractLsb' 16 8) (w.extractLsb' 8 8) (w.extractLsb' 0 8))
  | 25 => some (.fFdot2 (w.extractLsb' 24 2) (w.extractLsb' 16 8) (w.extractLsb' 8 8) (w.extractLsb' 0 8))
  | 26 => some (.fFclamp (w.extractLsb' 24 2) (w.extractLsb' 16 8) (w.extractLsb' 8 8) (w.extractLsb' 0 8))
  | 27 => if w.extractLsb' 0 8 == 0 then some (.fFsat (w.extractLsb' 24 2) (w.extractLsb' 16 8) (w.extractLsb' 8 8)) else none
  | 28 => if w.extractLsb' 0 8 == 0 then some (.fFrnd (w.extractLsb' 24 2) (w.extractLsb' 16 8) (w.extractLsb' 8 8)) else none
  | 29 => some (.fFscl (w.extractLsb' 24 2) (w.extractLsb' 16 8) (w.extractLsb' 8 8) (w.extractLsb' 0 8))
  | 30 => if w.extractLsb' 0 8 == 0 then some (.fCvtsf (w.extractLsb' 24 2) (w.extractLsb' 16 8) (w.extractLsb' 8 8)) else none
  | 31 => if w.extractLsb' 0 8 == 0 then some (.fCvtzf (w.extractLsb' 24 2) (w.extractLsb' 16 8) (w.extractLsb' 8 8)) else none
  | 32 => if w.extractLsb' 0 8 == 0 then some (.fCvtfs (w.extractLsb' 24 2) (w.extractLsb' 16 8) (w.extractLsb' 8 8)) else none
  | 33 => if w.extractLsb' 0 8 == 0 then some (.fCvtfz (w.extractLsb' 24 2) (w.extractLsb' 16 8) (w.extractLsb' 8 8)) else none
  | 34 => some (.fCvtfb (w.extractLsb' 24 2) (w.extractLsb' 16 8) (w.extractLsb' 8 8) (w.extractLsb' 0 8))
  | 35 => if w.extractLsb' 0 8 == 0 then some (.fCvtbfl (w.extractLsb' 24 2) (w.extractLsb' 16 8) (w.extractLsb' 8 8)) else none
  | 36 => if w.extractLsb' 0 8 == 0 then some (.fCvtbfh (w.extractLsb' 24 2) (w.extractLsb' 16 8) (w.extractLsb' 8 8)) else none
  | 37 => if w.extractLsb' 0 8 == 0 then some (.fCvtlsf (w.extractLsb' 24 2) (w.extractLsb' 16 8) (w.extractLsb' 8 8)) else none
  | 38 => if w.extractLsb' 0 8 == 0 then some (.fCvthsf (w.extractLsb' 24 2) (w.extractLsb' 16 8) (w.extractLsb' 8 8)) else none
  | 39 => if w.extractLsb' 0 8 == 0 then some (.fCvtlzf (w.extractLsb' 24 2) (w.extractLsb' 16 8) (w.extractLsb' 8 8)) else none
  | 40 => if w.extractLsb' 0 8 == 0 then some (.fCvthzf (w.extractLsb' 24 2) (w.extractLsb' 16 8) (w.extractLsb' 8 8)) else none
  | _ => none

/-- The TM map (R43, R48-R52): the operation of a syllable, or none for an undefined op or a non-zero zero field. -/
def decodeTm (w : W32) : Option Instr :=
  match (w.extractLsb' 26 6).toNat with
  | 0 => if w == 0 then some .ctlNop else none
  | 1 => if w.extractLsb' 0 16 == 0 && w.extractLsb' 24 2 == 0 then some (.tmTldw (w.extractLsb' 16 8)) else none
  | 2 => if w.extractLsb' 0 16 == 0 && w.extractLsb' 24 2 == 0 then some (.tmTldwt (w.extractLsb' 16 8)) else none
  | 3 => if w.extractLsb' 24 2 == 0 then some (.tmTmma (w.extractLsb' 16 8) (w.extractLsb' 8 8) (w.extractLsb' 0 8)) else none
  | 4 => if w.extractLsb' 24 2 == 0 then some (.tmTmmz (w.extractLsb' 16 8) (w.extractLsb' 8 8) (w.extractLsb' 0 8)) else none
  | 5 => if w.extractLsb' 24 2 == 0 then some (.tmTmmn (w.extractLsb' 16 8) (w.extractLsb' 8 8) (w.extractLsb' 0 8)) else none
  | 6 => if w.extractLsb' 0 16 == 0 && w.extractLsb' 24 2 == 0 then some (.tmTldx (w.extractLsb' 16 8)) else none
  | 7 => if w.extractLsb' 0 26 == 0 then some (.tmTdrn) else none
  | 8 => if w.extractLsb' 0 26 == 0 then some (.tmTwclr) else none
  | 9 => if w.extractLsb' 0 16 == 0 then some (.tmTstat (w.extractLsb' 24 2) (w.extractLsb' 16 8)) else none
  | 10 => if w.extractLsb' 0 8 == 0 && w.extractLsb' 24 2 == 0 then some (.tmTscl (w.extractLsb' 16 8) (w.extractLsb' 8 8)) else none
  | 11 => if w.extractLsb' 0 8 == 0 && w.extractLsb' 24 2 == 0 then some (.tmTbias (w.extractLsb' 16 8) (w.extractLsb' 8 8)) else none
  | 12 => if w.extractLsb' 24 2 == 0 then some (.tmTamw (w.extractLsb' 16 8) (w.extractLsb' 8 8) (w.extractLsb' 0 8)) else none
  | 13 => if w.extractLsb' 0 8 == 0 && w.extractLsb' 24 2 == 0 then some (.tmTcvt (w.extractLsb' 16 8) (w.extractLsb' 8 8)) else none
  | 14 => if w.extractLsb' 24 2 == 0 then some (.tmTmmh (w.extractLsb' 16 8) (w.extractLsb' 8 8) (w.extractLsb' 0 8)) else none
  | _ => none

/-- The PT map (R43, R48-R52): the operation of a syllable, or none for an undefined op or a non-zero zero field. -/
def decodePt (w : W32) : Option Instr :=
  match (w.extractLsb' 26 6).toNat with
  | 0 => if w == 0 then some .ctlNop else none
  | 1 => if w.extractLsb' 0 16 == 0 && w.extractLsb' 24 2 == 0 then some (.ptPld4 (w.extractLsb' 16 8)) else none
  | 2 => if w.extractLsb' 0 16 == 0 && w.extractLsb' 24 2 == 0 then some (.ptPld8 (w.extractLsb' 16 8)) else none
  | 3 => if w.extractLsb' 0 16 == 0 && w.extractLsb' 24 2 == 0 then some (.ptPlds (w.extractLsb' 16 8)) else none
  | 4 => if w.extractLsb' 24 2 == 0 then some (.ptPpass (w.extractLsb' 16 8) (w.extractLsb' 8 8) (w.extractLsb' 0 8)) else none
  | 5 => if w.extractLsb' 24 2 == 0 then some (.ptPpassz (w.extractLsb' 16 8) (w.extractLsb' 8 8) (w.extractLsb' 0 8)) else none
  | 6 => if w.extractLsb' 24 2 == 0 then some (.ptPpassn (w.extractLsb' 16 8) (w.extractLsb' 8 8) (w.extractLsb' 0 8)) else none
  | 7 => if w.extractLsb' 24 2 == 0 then some (.ptPcvt (w.extractLsb' 16 8) (w.extractLsb' 8 8) (w.extractLsb' 0 8)) else none
  | 8 => if w.extractLsb' 0 16 == 0 && w.extractLsb' 24 2 == 0 then some (.ptPclro (w.extractLsb' 16 8)) else none
  | 9 => if w.extractLsb' 0 16 == 0 then some (.ptPstat (w.extractLsb' 24 2) (w.extractLsb' 16 8)) else none
  | 10 => if w.extractLsb' 0 26 == 0 then some (.ptPtclr) else none
  | 11 => if w.extractLsb' 0 26 == 0 then some (.ptPdrn) else none
  | 12 => if w.extractLsb' 0 8 == 0 then some (.ptPscan (w.extractLsb' 24 2) (w.extractLsb' 16 8) (w.extractLsb' 8 8)) else none
  | _ => none

/-- The S map (R43, R48-R52): the operation of a syllable, or none for an undefined op or a non-zero zero field. -/
def decodeS (w : W32) : Option Instr :=
  match (w.extractLsb' 26 6).toNat with
  | 0 => if w == 0 then some .ctlNop else none
  | 1 => some (.sSpop (w.extractLsb' 24 2) (w.extractLsb' 16 8) (w.extractLsb' 8 8) (w.extractLsb' 0 8))
  | 2 => if w.extractLsb' 0 8 == 0 then some (.sSpopc (w.extractLsb' 24 2) (w.extractLsb' 16 8) (w.extractLsb' 8 8)) else none
  | 3 => if w.extractLsb' 16 10 == 0 then some (.sSpush (w.extractLsb' 8 8) (w.extractLsb' 0 8)) else none
  | 4 => if w.extractLsb' 16 8 == 0 then some (.sSpushc (w.extractLsb' 24 2) (w.extractLsb' 8 8) (w.extractLsb' 0 8)) else none
  | 5 => if w.extractLsb' 16 10 == 0 then some (.sSwaitf (w.extractLsb' 8 8) (w.extractLsb' 0 8)) else none
  | 6 => if w.extractLsb' 16 10 == 0 then some (.sSwaite (w.extractLsb' 8 8) (w.extractLsb' 0 8)) else none
  | 7 => if w.extractLsb' 16 10 == 0 then some (.sSadvr (w.extractLsb' 8 8) (w.extractLsb' 0 8)) else none
  | 8 => if w.extractLsb' 16 10 == 0 then some (.sSadvw (w.extractLsb' 8 8) (w.extractLsb' 0 8)) else none
  | 9 => if w.extractLsb' 24 2 == 0 then some (.sTfill (w.extractLsb' 16 8) (w.extractLsb' 8 8) (w.extractLsb' 0 8)) else none
  | 10 => if w.extractLsb' 0 8 == 0 && w.extractLsb' 24 2 == 0 then some (.sTfillx (w.extractLsb' 16 8) (w.extractLsb' 8 8)) else none
  | 11 => if w.extractLsb' 0 8 == 0 && w.extractLsb' 16 10 == 0 then some (.sScnt (w.extractLsb' 8 8)) else none
  | 12 => if w.extractLsb' 0 8 == 0 && w.extractLsb' 16 10 == 0 then some (.sSflush (w.extractLsb' 8 8)) else none
  | 13 => if w.extractLsb' 0 8 == 0 then some (.sSptrr (w.extractLsb' 24 2) (w.extractLsb' 16 8) (w.extractLsb' 8 8)) else none
  | 14 => if w.extractLsb' 0 8 == 0 then some (.sSptrw (w.extractLsb' 24 2) (w.extractLsb' 16 8) (w.extractLsb' 8 8)) else none
  | 15 => if w.extractLsb' 0 8 == 0 then some (.sSavail (w.extractLsb' 24 2) (w.extractLsb' 16 8) (w.extractLsb' 8 8)) else none
  | 16 => if w.extractLsb' 0 8 == 0 then some (.sSspace (w.extractLsb' 24 2) (w.extractLsb' 16 8) (w.extractLsb' 8 8)) else none
  | _ => none

/-- The XS map (R43, R48-R52): the operation of a syllable, or none for an undefined op or a non-zero zero field. -/
def decodeXs (w : W32) : Option Instr :=
  match (w.extractLsb' 26 6).toNat with
  | 0 => if w == 0 then some .ctlNop else none
  | 1 => some (.xsXperm (w.extractLsb' 24 2) (w.extractLsb' 16 8) (w.extractLsb' 8 8) (w.extractLsb' 0 8))
  | 2 => some (.xsXpermc (w.extractLsb' 24 2) (w.extractLsb' 16 8) (w.extractLsb' 8 8) (w.extractLsb' 0 8))
  | 3 => some (.xsXbc (w.extractLsb' 24 2) (w.extractLsb' 16 8) (w.extractLsb' 8 8) (w.extractLsb' 0 8))
  | 4 => some (.xsXbcc (w.extractLsb' 24 2) (w.extractLsb' 16 8) (w.extractLsb' 8 8) (w.extractLsb' 0 8))
  | 5 => some (.xsXrot (w.extractLsb' 24 2) (w.extractLsb' 16 8) (w.extractLsb' 8 8) (w.extractLsb' 0 8))
  | 6 => some (.xsXrotc (w.extractLsb' 24 2) (w.extractLsb' 16 8) (w.extractLsb' 8 8) (w.extractLsb' 0 8))
  | 7 => if w.extractLsb' 0 8 == 0 then some (.xsXcmp (w.extractLsb' 24 2) (w.extractLsb' 16 8) (w.extractLsb' 8 8)) else none
  | 8 => if w.extractLsb' 0 8 == 0 then some (.xsXcmpc (w.extractLsb' 24 2) (w.extractLsb' 16 8) (w.extractLsb' 8 8)) else none
  | 9 => if w.extractLsb' 0 8 == 0 then some (.xsXexp (w.extractLsb' 24 2) (w.extractLsb' 16 8) (w.extractLsb' 8 8)) else none
  | 10 => if w.extractLsb' 0 16 == 0 then some (.xsXcnt (w.extractLsb' 24 2) (w.extractLsb' 16 8)) else none
  | _ => none

/-- The AM map (R43, R48-R52): the operation of a syllable, or none for an undefined op or a non-zero zero field. -/
def decodeAm (w : W32) : Option Instr :=
  match (w.extractLsb' 26 6).toNat with
  | 0 => if w == 0 then some .ctlNop else none
  | 1 => if w.extractLsb' 0 16 == 0 && w.extractLsb' 24 2 == 0 then some (.amAalloc (w.extractLsb' 16 8)) else none
  | 2 => if w.extractLsb' 0 16 == 0 && w.extractLsb' 24 2 == 0 then some (.amAallocp (w.extractLsb' 16 8)) else none
  | 3 => if w.extractLsb' 0 16 == 0 && w.extractLsb' 24 2 == 0 then some (.amAfree (w.extractLsb' 16 8)) else none
  | 4 => if w.extractLsb' 0 16 == 0 && w.extractLsb' 24 2 == 0 then some (.amMclaim (w.extractLsb' 16 8)) else none
  | 5 => if w.extractLsb' 0 16 == 0 && w.extractLsb' 24 2 == 0 then some (.amMrel (w.extractLsb' 16 8)) else none
  | 6 => some (.amArd (w.extractLsb' 24 2) (w.extractLsb' 16 8) (w.extractLsb' 8 8) (w.extractLsb' 0 8))
  | 7 => some (.amArdh (w.extractLsb' 24 2) (w.extractLsb' 16 8) (w.extractLsb' 8 8) (w.extractLsb' 0 8))
  | 8 => if w.extractLsb' 0 16 == 0 && w.extractLsb' 24 2 == 0 then some (.amAclr (w.extractLsb' 16 8)) else none
  | _ => none

/-- The check of an HK syllable (R46).  Check op 0 is no check: with fields a and b zero the syllable does nothing in
its slot, whatever its hold bits. -/
def decodeHk (w : W32) : Option Instr :=
  match (w.extractLsb' 16 4).toNat with
  | 0 => if w.extractLsb' 0 16 == 0 then some .ctlNop else none
  | 1 => some (.hkChkeq (w.extractLsb' 20 12) (w.extractLsb' 8 8) (w.extractLsb' 0 8))
  | 2 => if w.extractLsb' 0 8 == 0 then some (.hkChkz (w.extractLsb' 20 12) (w.extractLsb' 8 8)) else none
  | 3 => if w.extractLsb' 0 8 == 0 then some (.hkChkovf (w.extractLsb' 20 12) (w.extractLsb' 8 8)) else none
  | 4 => if w.extractLsb' 0 8 == 0 then some (.hkChkall (w.extractLsb' 20 12) (w.extractLsb' 8 8)) else none
  | _ => none

/-- The operation of a syllable in a slot, by the slot's map (R48). -/
def decodeSyllable (sl : Slot) (w : W32) : Option Instr :=
  match sl with
  | .ctl => decodeCtl w
  | .i => decodeI w
  | .f => decodeF w
  | .tm => decodeTm w
  | .pt => decodePt w
  | .s => decodeS w
  | .xs => decodeXs w
  | .am => decodeAm w
  | .hk => decodeHk w


/-- The control opcode map (R53-R56): the fields of a word whose op byte is defined and whose unused fields are zero. -/
noncomputable def decodeFields (w : W32) : Option Instr :=
  match (w.extractLsb' 24 8).toNat with
  | 1 => if w.extractLsb' 0 9 == 0 then some (.add (w.extractLsb' 19 5) (w.extractLsb' 14 5) (w.extractLsb' 9 5)) else none
  | 2 => if w.extractLsb' 0 9 == 0 then some (.sub (w.extractLsb' 19 5) (w.extractLsb' 14 5) (w.extractLsb' 9 5)) else none
  | 3 => if w.extractLsb' 0 9 == 0 then some (.mul (w.extractLsb' 19 5) (w.extractLsb' 14 5) (w.extractLsb' 9 5)) else none
  | 4 => if w.extractLsb' 0 9 == 0 then some (.mulhs (w.extractLsb' 19 5) (w.extractLsb' 14 5) (w.extractLsb' 9 5)) else none
  | 5 => if w.extractLsb' 0 9 == 0 then some (.mulhz (w.extractLsb' 19 5) (w.extractLsb' 14 5) (w.extractLsb' 9 5)) else none
  | 6 => if w.extractLsb' 0 9 == 0 then some (.divs (w.extractLsb' 19 5) (w.extractLsb' 14 5) (w.extractLsb' 9 5)) else none
  | 7 => if w.extractLsb' 0 9 == 0 then some (.divz (w.extractLsb' 19 5) (w.extractLsb' 14 5) (w.extractLsb' 9 5)) else none
  | 8 => if w.extractLsb' 0 9 == 0 then some (.rems (w.extractLsb' 19 5) (w.extractLsb' 14 5) (w.extractLsb' 9 5)) else none
  | 9 => if w.extractLsb' 0 9 == 0 then some (.remz (w.extractLsb' 19 5) (w.extractLsb' 14 5) (w.extractLsb' 9 5)) else none
  | 10 => if w.extractLsb' 0 9 == 0 then some (.and (w.extractLsb' 19 5) (w.extractLsb' 14 5) (w.extractLsb' 9 5)) else none
  | 11 => if w.extractLsb' 0 9 == 0 then some (.or (w.extractLsb' 19 5) (w.extractLsb' 14 5) (w.extractLsb' 9 5)) else none
  | 12 => if w.extractLsb' 0 9 == 0 then some (.xor (w.extractLsb' 19 5) (w.extractLsb' 14 5) (w.extractLsb' 9 5)) else none
  | 13 => if w.extractLsb' 0 9 == 0 then some (.andn (w.extractLsb' 19 5) (w.extractLsb' 14 5) (w.extractLsb' 9 5)) else none
  | 14 => if w.extractLsb' 0 9 == 0 then some (.shl (w.extractLsb' 19 5) (w.extractLsb' 14 5) (w.extractLsb' 9 5)) else none
  | 15 => if w.extractLsb' 0 9 == 0 then some (.shrz (w.extractLsb' 19 5) (w.extractLsb' 14 5) (w.extractLsb' 9 5)) else none
  | 16 => if w.extractLsb' 0 9 == 0 then some (.shrs (w.extractLsb' 19 5) (w.extractLsb' 14 5) (w.extractLsb' 9 5)) else none
  | 17 => if w.extractLsb' 0 9 == 0 then some (.slts (w.extractLsb' 19 5) (w.extractLsb' 14 5) (w.extractLsb' 9 5)) else none
  | 18 => if w.extractLsb' 0 9 == 0 then some (.sltz (w.extractLsb' 19 5) (w.extractLsb' 14 5) (w.extractLsb' 9 5)) else none
  | 19 => if w.extractLsb' 0 14 == 0 then some (.popc (w.extractLsb' 19 5) (w.extractLsb' 14 5)) else none
  | 20 => some (.addi (w.extractLsb' 19 5) (w.extractLsb' 14 5) (w.extractLsb' 0 14))
  | 21 => some (.andi (w.extractLsb' 19 5) (w.extractLsb' 14 5) (w.extractLsb' 0 14))
  | 22 => some (.ori (w.extractLsb' 19 5) (w.extractLsb' 14 5) (w.extractLsb' 0 14))
  | 23 => some (.xori (w.extractLsb' 19 5) (w.extractLsb' 14 5) (w.extractLsb' 0 14))
  | 24 => some (.shli (w.extractLsb' 19 5) (w.extractLsb' 14 5) (w.extractLsb' 0 14))
  | 25 => some (.shrzi (w.extractLsb' 19 5) (w.extractLsb' 14 5) (w.extractLsb' 0 14))
  | 26 => some (.shrsi (w.extractLsb' 19 5) (w.extractLsb' 14 5) (w.extractLsb' 0 14))
  | 27 => some (.sltsi (w.extractLsb' 19 5) (w.extractLsb' 14 5) (w.extractLsb' 0 14))
  | 28 => some (.sltzi (w.extractLsb' 19 5) (w.extractLsb' 14 5) (w.extractLsb' 0 14))
  | 29 => some (.ldi (w.extractLsb' 19 5) (w.extractLsb' 0 19))
  | 30 => some (.lsi (w.extractLsb' 19 5) (w.extractLsb' 0 19))
  | 32 => some (.beq (w.extractLsb' 19 5) (w.extractLsb' 14 5) (w.extractLsb' 0 14))
  | 33 => some (.bne (w.extractLsb' 19 5) (w.extractLsb' 14 5) (w.extractLsb' 0 14))
  | 34 => some (.blts (w.extractLsb' 19 5) (w.extractLsb' 14 5) (w.extractLsb' 0 14))
  | 35 => some (.bges (w.extractLsb' 19 5) (w.extractLsb' 14 5) (w.extractLsb' 0 14))
  | 36 => some (.bltz (w.extractLsb' 19 5) (w.extractLsb' 14 5) (w.extractLsb' 0 14))
  | 37 => some (.bgez (w.extractLsb' 19 5) (w.extractLsb' 14 5) (w.extractLsb' 0 14))
  | 38 => some (.j (w.extractLsb' 0 24))
  | 39 => some (.jal (w.extractLsb' 0 24))
  | 40 => if w.extractLsb' 0 14 == 0 && w.extractLsb' 19 5 == 0 then some (.jr (w.extractLsb' 14 5)) else none
  | 41 => if w.extractLsb' 0 14 == 0 then some (.jalr (w.extractLsb' 19 5) (w.extractLsb' 14 5)) else none
  | 48 => some (.lb (w.extractLsb' 19 5) (w.extractLsb' 14 5) (w.extractLsb' 0 14))
  | 49 => some (.lbz (w.extractLsb' 19 5) (w.extractLsb' 14 5) (w.extractLsb' 0 14))
  | 50 => some (.lh (w.extractLsb' 19 5) (w.extractLsb' 14 5) (w.extractLsb' 0 14))
  | 51 => some (.lhz (w.extractLsb' 19 5) (w.extractLsb' 14 5) (w.extractLsb' 0 14))
  | 52 => some (.lw (w.extractLsb' 19 5) (w.extractLsb' 14 5) (w.extractLsb' 0 14))
  | 53 => some (.lwz (w.extractLsb' 19 5) (w.extractLsb' 14 5) (w.extractLsb' 0 14))
  | 54 => some (.ld (w.extractLsb' 19 5) (w.extractLsb' 14 5) (w.extractLsb' 0 14))
  | 55 => if w.extractLsb' 0 9 == 0 then some (.ldx (w.extractLsb' 19 5) (w.extractLsb' 14 5) (w.extractLsb' 9 5)) else none
  | 56 => some (.sb (w.extractLsb' 19 5) (w.extractLsb' 14 5) (w.extractLsb' 0 14))
  | 57 => some (.sh (w.extractLsb' 19 5) (w.extractLsb' 14 5) (w.extractLsb' 0 14))
  | 58 => some (.sw (w.extractLsb' 19 5) (w.extractLsb' 14 5) (w.extractLsb' 0 14))
  | 59 => some (.sd (w.extractLsb' 19 5) (w.extractLsb' 14 5) (w.extractLsb' 0 14))
  | 60 => some (.ldAcq (w.extractLsb' 19 5) (w.extractLsb' 14 5) (w.extractLsb' 0 14))
  | 61 => some (.stRel (w.extractLsb' 19 5) (w.extractLsb' 14 5) (w.extractLsb' 0 14))
  | 62 => if w.extractLsb' 3 11 == 0 then some (.ldm (w.extractLsb' 19 5) (w.extractLsb' 14 5) (w.extractLsb' 0 3)) else none
  | 63 => if w.extractLsb' 3 11 == 0 then some (.stm (w.extractLsb' 19 5) (w.extractLsb' 14 5) (w.extractLsb' 0 3)) else none
  | 64 => if w.extractLsb' 0 24 == 0 then some (.nop) else none
  | 65 => if w.extractLsb' 14 5 == 0 then some (.mfs (w.extractLsb' 19 5) (w.extractLsb' 0 14)) else none
  | 66 => if w.extractLsb' 19 5 == 0 then some (.mts (w.extractLsb' 14 5) (w.extractLsb' 0 14)) else none
  | 67 => if w.extractLsb' 2 22 == 0 then
      (match (w.extractLsb' 0 2).toNat with
        | 0 => some .fenceSc | 1 => some .fenceDie | 2 => some .fencePkg | _ => some .fenceSys) else none
  | 68 => if w.extractLsb' 14 10 == 0 then some (.trap (w.extractLsb' 0 14)) else none
  | 69 => if w.extractLsb' 0 24 == 0 then some (.tret) else none
  | 70 => if w.extractLsb' 14 10 == 0 then some (.brk (w.extractLsb' 0 14)) else none
  | 71 => if w.extractLsb' 0 24 == 0 then some (.pause) else none
  | 72 => if w.extractLsb' 19 5 == 0 then some (.dcfl (w.extractLsb' 14 5) (w.extractLsb' 0 14)) else none
  | 73 => if w.extractLsb' 19 5 == 0 then some (.dcinv (w.extractLsb' 14 5) (w.extractLsb' 0 14)) else none
  | 74 => if w.extractLsb' 19 5 == 0 then some (.dcz (w.extractLsb' 14 5) (w.extractLsb' 0 14)) else none
  | 75 => if w.extractLsb' 0 24 == 0 then some (.idle) else none
  | 76 => if w.extractLsb' 5 9 == 0 && w.extractLsb' 19 5 == 0 then some (.csave (w.extractLsb' 14 5) (w.extractLsb' 0 5)) else none
  | 77 => if w.extractLsb' 5 9 == 0 && w.extractLsb' 19 5 == 0 then some (.cload (w.extractLsb' 14 5) (w.extractLsb' 0 5)) else none
  | 78 => if w.extractLsb' 5 19 == 0 then some (.ctxkill (w.extractLsb' 0 5)) else none
  | 79 => if w.extractLsb' 5 9 == 0 && w.extractLsb' 19 5 == 0 then some (.ctxsig (w.extractLsb' 14 5) (w.extractLsb' 0 5)) else none
  | 80 => if w.extractLsb' 2 4 == 0 && w.extractLsb' 11 4 == 0 then some (.salloc (w.extractLsb' 19 5) (w.extractLsb' 15 4) (w.extractLsb' 6 5) (w.extractLsb' 0 2)) else none
  | 81 => if w.extractLsb' 0 15 == 0 && w.extractLsb' 19 5 == 0 then some (.sfree (w.extractLsb' 15 4)) else none
  | 82 => if w.extractLsb' 1 10 == 0 then some (.sload (w.extractLsb' 19 5) (w.extractLsb' 15 4) (w.extractLsb' 11 4) (w.extractLsb' 0 1)) else none
  | 83 => if w.extractLsb' 1 10 == 0 then some (.sstore (w.extractLsb' 19 5) (w.extractLsb' 15 4) (w.extractLsb' 11 4) (w.extractLsb' 0 1)) else none
  | 84 => if w.extractLsb' 0 6 == 0 then some (.sgather (w.extractLsb' 19 5) (w.extractLsb' 15 4) (w.extractLsb' 11 4) (w.extractLsb' 6 5)) else none
  | 85 => if w.extractLsb' 0 6 == 0 then some (.sscatter (w.extractLsb' 19 5) (w.extractLsb' 15 4) (w.extractLsb' 11 4) (w.extractLsb' 6 5)) else none
  | 86 => if w.extractLsb' 0 15 == 0 && w.extractLsb' 19 5 == 0 then some (.sreset (w.extractLsb' 15 4)) else none
  | 87 => if w.extractLsb' 1 14 == 0 then some (.sptr (w.extractLsb' 19 5) (w.extractLsb' 15 4) (w.extractLsb' 0 1)) else none
  | 88 => if w.extractLsb' 0 6 == 0 && w.extractLsb' 11 4 == 0 then some (.srd (w.extractLsb' 19 5) (w.extractLsb' 15 4) (w.extractLsb' 6 5)) else none
  | 89 => if w.extractLsb' 0 6 == 0 && w.extractLsb' 11 4 == 0 then some (.swr (w.extractLsb' 19 5) (w.extractLsb' 15 4) (w.extractLsb' 6 5)) else none
  | 90 => if w.extractLsb' 1 5 == 0 && w.extractLsb' 11 4 == 0 then some (.sfill (w.extractLsb' 19 5) (w.extractLsb' 15 4) (w.extractLsb' 6 5) (w.extractLsb' 0 1)) else none
  | 91 => if w.extractLsb' 0 11 == 0 && w.extractLsb' 19 5 == 0 then some (.smovh (w.extractLsb' 15 4) (w.extractLsb' 11 4)) else none
  | 92 => if w.extractLsb' 0 15 == 0 then some (.sinfo (w.extractLsb' 19 5) (w.extractLsb' 15 4)) else none
  | 93 => if w.extractLsb' 0 6 == 0 && w.extractLsb' 11 8 == 0 then some (.kload (w.extractLsb' 19 5) (w.extractLsb' 6 5)) else none
  | 94 => if w.extractLsb' 0 19 == 0 then some (.kfree (w.extractLsb' 19 5)) else none
  | 95 => if w.extractLsb' 0 6 == 0 && w.extractLsb' 11 8 == 0 then some (.kinfo (w.extractLsb' 19 5) (w.extractLsb' 6 5)) else none
  | 96 => if w.extractLsb' 11 8 == 0 then some (.krun (w.extractLsb' 19 5) (w.extractLsb' 6 5) (w.extractLsb' 1 5) (w.extractLsb' 0 1)) else none
  | 97 => if w.extractLsb' 0 1 == 0 && w.extractLsb' 11 8 == 0 then some (.krq (w.extractLsb' 19 5) (w.extractLsb' 6 5) (w.extractLsb' 1 5)) else none
  | 98 => if w.extractLsb' 0 15 == 0 then some (.scount (w.extractLsb' 19 5) (w.extractLsb' 15 4)) else none
  | 99 => if w.extractLsb' 5 10 == 0 && w.extractLsb' 19 5 == 0 then some (.swait (w.extractLsb' 15 4) (w.extractLsb' 4 1) (w.extractLsb' 3 1) (w.extractLsb' 0 3)) else none
  | 100 => if w.extractLsb' 0 24 == 0 then some (.swaita) else none
  | 101 => if w.extractLsb' 5 10 == 0 then some (.stest (w.extractLsb' 19 5) (w.extractLsb' 15 4) (w.extractLsb' 4 1) (w.extractLsb' 3 1) (w.extractLsb' 0 3)) else none
  | 102 => if w.extractLsb' 3 21 == 0 then some (.sbar (w.extractLsb' 0 3)) else none
  | 103 => if w.extractLsb' 0 24 == 0 then some (.rfence) else none
  | 112 => if w.extractLsb' 0 9 == 0 then some (.fspawn (w.extractLsb' 19 5) (w.extractLsb' 14 5) (w.extractLsb' 9 5)) else none
  | 113 => if w.extractLsb' 4 5 == 0 then some (.fspawnh (w.extractLsb' 19 5) (w.extractLsb' 14 5) (w.extractLsb' 9 5) (w.extractLsb' 0 4)) else none
  | 114 => if w.extractLsb' 0 14 == 0 && w.extractLsb' 19 5 == 0 then some (.fref (w.extractLsb' 14 5)) else none
  | 115 => if w.extractLsb' 0 14 == 0 && w.extractLsb' 19 5 == 0 then some (.fdrop (w.extractLsb' 14 5)) else none
  | 116 => if w.extractLsb' 0 14 == 0 then some (.fget (w.extractLsb' 19 5) (w.extractLsb' 14 5)) else none
  | 117 => if w.extractLsb' 0 14 == 0 then some (.fgetd (w.extractLsb' 19 5) (w.extractLsb' 14 5)) else none
  | 118 => if w.extractLsb' 0 14 == 0 then some (.fpoll (w.extractLsb' 19 5) (w.extractLsb' 14 5)) else none
  | 119 => if w.extractLsb' 0 14 == 0 && w.extractLsb' 19 5 == 0 then some (.fret (w.extractLsb' 14 5)) else none
  | 120 => if w.extractLsb' 0 14 == 0 && w.extractLsb' 19 5 == 0 then some (.fretf (w.extractLsb' 14 5)) else none
  | 121 => if w.extractLsb' 0 24 == 0 then some (.fyield) else none
  | 122 => if w.extractLsb' 14 10 == 0 then some (.fsig (w.extractLsb' 0 14)) else none
  | 123 => if w.extractLsb' 0 9 == 0 then some (.balloc (w.extractLsb' 19 5) (w.extractLsb' 14 5) (w.extractLsb' 9 5)) else none
  | 124 => if w.extractLsb' 0 14 == 0 && w.extractLsb' 19 5 == 0 then some (.bfree (w.extractLsb' 14 5)) else none
  | 125 => if w.extractLsb' 0 14 == 0 && w.extractLsb' 19 5 == 0 then some (.barr (w.extractLsb' 14 5)) else none
  | 126 => if w.extractLsb' 0 14 == 0 && w.extractLsb' 19 5 == 0 then some (.barrd (w.extractLsb' 14 5)) else none
  | 127 => if w.extractLsb' 0 14 == 0 && w.extractLsb' 19 5 == 0 then some (.bwait (w.extractLsb' 14 5)) else none
  | 128 => if w.extractLsb' 0 14 == 0 then some (.bpoll (w.extractLsb' 19 5) (w.extractLsb' 14 5)) else none
  | 129 => if w.extractLsb' 0 9 == 0 && w.extractLsb' 19 5 == 0 then some (.waitge (w.extractLsb' 14 5) (w.extractLsb' 9 5)) else none
  | 130 => if w.extractLsb' 0 14 == 0 then some (.glaunch (w.extractLsb' 19 5) (w.extractLsb' 14 5)) else none
  | 131 => if w.extractLsb' 0 14 == 0 && w.extractLsb' 19 5 == 0 then some (.gfree (w.extractLsb' 14 5)) else none
  | 144 => if w.extractLsb' 2 4 == 0 then some (.scopy (w.extractLsb' 19 5) (w.extractLsb' 15 4) (w.extractLsb' 11 4) (w.extractLsb' 6 5) (w.extractLsb' 1 1) (w.extractLsb' 0 1)) else none
  | 145 => if w.extractLsb' 1 2 == 0 && w.extractLsb' 11 4 == 0 then some (.sacc (w.extractLsb' 19 5) (w.extractLsb' 15 4) (w.extractLsb' 6 5) (w.extractLsb' 3 3) (w.extractLsb' 0 1)) else none
  | 146 => some (.scas (w.extractLsb' 19 5) (w.extractLsb' 15 4) (w.extractLsb' 11 4) (w.extractLsb' 6 5) (w.extractLsb' 3 3) (w.extractLsb' 1 2) (w.extractLsb' 0 1))
  | 147 => if w.extractLsb' 0 3 == 0 then some (.sscadd (w.extractLsb' 19 5) (w.extractLsb' 15 4) (w.extractLsb' 11 4) (w.extractLsb' 6 5) (w.extractLsb' 3 3)) else none
  | 148 => if w.extractLsb' 0 6 == 0 && w.extractLsb' 11 8 == 0 then some (.squant (w.extractLsb' 19 5) (w.extractLsb' 6 5)) else none
  | 149 => if w.extractLsb' 0 6 == 0 && w.extractLsb' 11 8 == 0 then some (.sdqnt (w.extractLsb' 19 5) (w.extractLsb' 6 5)) else none
  | 150 => if w.extractLsb' 1 5 == 0 && w.extractLsb' 11 4 == 0 then some (.sdecomp (w.extractLsb' 19 5) (w.extractLsb' 15 4) (w.extractLsb' 6 5) (w.extractLsb' 0 1)) else none
  | 151 => if w.extractLsb' 0 6 == 0 && w.extractLsb' 11 8 == 0 then some (.sread (w.extractLsb' 19 5) (w.extractLsb' 6 5)) else none
  | 152 => if w.extractLsb' 0 15 == 0 then some (.sreads (w.extractLsb' 19 5) (w.extractLsb' 15 4)) else none
  | 153 => if w.extractLsb' 1 4 == 0 && w.extractLsb' 11 4 == 0 then some (.rput (w.extractLsb' 19 5) (w.extractLsb' 15 4) (w.extractLsb' 6 5) (w.extractLsb' 5 1) (w.extractLsb' 0 1)) else none
  | 154 => if w.extractLsb' 11 4 == 0 then some (.rputh (w.extractLsb' 19 5) (w.extractLsb' 15 4) (w.extractLsb' 6 5) (w.extractLsb' 5 1) (w.extractLsb' 1 4) (w.extractLsb' 0 1)) else none
  | 155 => if w.extractLsb' 0 1 == 0 && w.extractLsb' 2 4 == 0 && w.extractLsb' 15 4 == 0 then some (.rget (w.extractLsb' 19 5) (w.extractLsb' 11 4) (w.extractLsb' 6 5) (w.extractLsb' 1 1)) else none
  | 156 => if w.extractLsb' 11 4 == 0 then some (.racc (w.extractLsb' 19 5) (w.extractLsb' 15 4) (w.extractLsb' 6 5) (w.extractLsb' 3 3) (w.extractLsb' 1 2) (w.extractLsb' 0 1)) else none
  | 157 => if w.extractLsb' 5 1 == 0 && w.extractLsb' 11 8 == 0 then some (.rsig (w.extractLsb' 19 5) (w.extractLsb' 6 5) (w.extractLsb' 1 4) (w.extractLsb' 0 1)) else none
  | 160 => if w.extractLsb' 0 14 == 0 && w.extractLsb' 19 5 == 0 then some (.tlbinv (w.extractLsb' 14 5)) else none
  | 161 => if w.extractLsb' 0 24 == 0 then some (.tlbinva) else none
  | 162 => if w.extractLsb' 0 14 == 0 then some (.xlat (w.extractLsb' 19 5) (w.extractLsb' 14 5)) else none
  | 163 => if w.extractLsb' 2 6 == 0 && w.extractLsb' 19 5 == 0 then some (.rngset (w.extractLsb' 14 5) (w.extractLsb' 8 6) (w.extractLsb' 0 2)) else none
  | 164 => if w.extractLsb' 3 5 == 0 && w.extractLsb' 14 5 == 0 then some (.rngget (w.extractLsb' 19 5) (w.extractLsb' 8 6) (w.extractLsb' 2 1) (w.extractLsb' 0 2)) else none
  | 165 => if w.extractLsb' 0 24 == 0 then some (.rngcommit) else none
  | 166 => if w.extractLsb' 0 14 == 0 && w.extractLsb' 19 5 == 0 then some (.psplit (w.extractLsb' 14 5)) else none
  | 167 => if w.extractLsb' 0 9 == 0 && w.extractLsb' 19 5 == 0 then some (.pown (w.extractLsb' 14 5) (w.extractLsb' 9 5)) else none
  | 168 => if w.extractLsb' 0 9 == 0 && w.extractLsb' 19 5 == 0 then some (.pdup (w.extractLsb' 14 5) (w.extractLsb' 9 5)) else none
  | 169 => if w.extractLsb' 0 14 == 0 then some (.pstat (w.extractLsb' 19 5) (w.extractLsb' 14 5)) else none
  | _ => none

/-- Decoding a control-core word, rejecting by name (R55). -/
noncomputable def decodeWord (w : W32) : Except DecodeError Instr :=
  match decodeFields w with
  | none => .error .undefinedOrNonzero
  | some i => if wellFormed i then .ok i else .error .illFormed

/-- The instruction of a control-core word: total, since a word that is no instruction traps ILLEGAL (R55). -/
noncomputable def decode (w : W32) : Instr :=
  match decodeWord w with
  | .ok i => i
  | .error _ => .illegalInstruction w

/-- The word of four bytes, the first at the lowest address (R4). -/
def wordOfBytes (b0 b1 b2 b3 : Byte) : W32 :=
  BitVec.ofNat 32 (b0.toNat + 256 * b1.toNat + 65536 * b2.toNat + 16777216 * b3.toNat)

/-- Decoding a list of bytes: the first instruction and the rest, or the name of what is wrong (R53). -/
noncomputable def decodeBytes : List Byte → Except DecodeError (Instr × List Byte)
  | b0 :: b1 :: b2 :: b3 :: rest => (decodeWord (wordOfBytes b0 b1 b2 b3)).map (fun i => (i, rest))
  | _ => .error .undefinedOrNonzero

/-- A syllable of a slot that decodes and whose fields lie in their types. -/
def decodeOk (sl : Slot) (w : W32) : Option Instr :=
  match decodeSyllable sl w with
  | some i => if wellFormed i then some i else none
  | none => none

/-- The first slot, in syllable order, in which a word is a well-formed operation. -/
def firstSlot (w : W32) : Option (Nat × Instr) :=
  [(0, Slot.ctl), (1, .i), (3, .f), (7, .tm), (8, .pt), (9, .s), (11, .xs), (12, .am), (13, .hk)].findSome?
    (fun p => (decodeOk p.2 w).map (fun i => (p.1, i)))

/-- The instruction of a word of the table of operations.  The two instruction sets share their 32-bit words, and
the table does not say which slot of a bundle a word stands in.  DESIGN CHOICE (log 14): the word is read as the
control core reads it when that is an instruction, otherwise as the first slot that accepts it. -/
noncomputable def decodeTableWord (nbits w : Nat) : Option Instr :=
  let x := BitVec.ofNat 32 (w % 2 ^ nbits)
  match decodeWord x with
  | .ok i => some i
  | .error _ => (firstSlot x).map Prod.snd


/-- The word of an instruction, or the syllable of a kernel operation, from the encoding tables of R39, R43, R44 and
R53-R56; none for an event.  The word of `illegalInstruction` is the word it stands for. -/
def encode : Instr → Option W32
  | .ctlNop => some (BitVec.ofNat 32 (0))
  | .ctlHalt => some (BitVec.ofNat 32 (67108864))
  | .ctlBr t => some (BitVec.ofNat 32 (134217728 + t.toNat))
  | .ctlBany p t => some (BitVec.ofNat 32 (201326592 + p.toNat * 16777216 + t.toNat))
  | .ctlBall p t => some (BitVec.ofNat 32 (268435456 + p.toNat * 16777216 + t.toNat))
  | .ctlBnone p t => some (BitVec.ofNat 32 (335544320 + p.toNat * 16777216 + t.toNat))
  | .ctlBnall p t => some (BitVec.ofNat 32 (402653184 + p.toNat * 16777216 + t.toNat))
  | .ctlLset c n => some (BitVec.ofNat 32 (469762048 + c.toNat * 16777216 + n.toNat))
  | .ctlLsetk c k => some (BitVec.ofNat 32 (536870912 + c.toNat * 16777216 + k.toNat))
  | .ctlLsetv c u => some (BitVec.ofNat 32 (603979776 + c.toNat * 16777216 + u.toNat))
  | .ctlLbnz c t => some (BitVec.ofNat 32 (671088640 + c.toNat * 16777216 + t.toNat))
  | .ctlBkz k t => some (BitVec.ofNat 32 (738197504 + k.toNat * 4096 + t.toNat))
  | .ctlBknz k t => some (BitVec.ofNat 32 (805306368 + k.toNat * 4096 + t.toNat))
  | .ctlKret l s => some (BitVec.ofNat 32 (872415232 + l.toNat * 256 + s.toNat))
  | .ctlKretp p => some (BitVec.ofNat 32 (939524096 + p.toNat * 16777216))
  | .ctlIdle n => some (BitVec.ofNat 32 (1006632960 + n.toNat))
  | .hkChkeq h a b => some (BitVec.ofNat 32 (65536 + h.toNat * 1048576 + a.toNat * 256 + b.toNat))
  | .hkChkz h a => some (BitVec.ofNat 32 (131072 + h.toNat * 1048576 + a.toNat * 256))
  | .hkChkovf h a => some (BitVec.ofNat 32 (196608 + h.toNat * 1048576 + a.toNat * 256))
  | .hkChkall h a => some (BitVec.ofNat 32 (262144 + h.toNat * 1048576 + a.toNat * 256))
  | .iAdd p d a b => some (BitVec.ofNat 32 (67108864 + p.toNat * 16777216 + d.toNat * 65536 + a.toNat * 256 + b.toNat))
  | .iSub p d a b => some (BitVec.ofNat 32 (134217728 + p.toNat * 16777216 + d.toNat * 65536 + a.toNat * 256 + b.toNat))
  | .iMul p d a b => some (BitVec.ofNat 32 (201326592 + p.toNat * 16777216 + d.toNat * 65536 + a.toNat * 256 + b.toNat))
  | .iMulhs p d a b => some (BitVec.ofNat 32 (268435456 + p.toNat * 16777216 + d.toNat * 65536 + a.toNat * 256 + b.toNat))
  | .iMulhz p d a b => some (BitVec.ofNat 32 (335544320 + p.toNat * 16777216 + d.toNat * 65536 + a.toNat * 256 + b.toNat))
  | .iAnd p d a b => some (BitVec.ofNat 32 (402653184 + p.toNat * 16777216 + d.toNat * 65536 + a.toNat * 256 + b.toNat))
  | .iOr p d a b => some (BitVec.ofNat 32 (469762048 + p.toNat * 16777216 + d.toNat * 65536 + a.toNat * 256 + b.toNat))
  | .iXor p d a b => some (BitVec.ofNat 32 (536870912 + p.toNat * 16777216 + d.toNat * 65536 + a.toNat * 256 + b.toNat))
  | .iAndn p d a b => some (BitVec.ofNat 32 (603979776 + p.toNat * 16777216 + d.toNat * 65536 + a.toNat * 256 + b.toNat))
  | .iShl p d a b => some (BitVec.ofNat 32 (671088640 + p.toNat * 16777216 + d.toNat * 65536 + a.toNat * 256 + b.toNat))
  | .iShrz p d a b => some (BitVec.ofNat 32 (738197504 + p.toNat * 16777216 + d.toNat * 65536 + a.toNat * 256 + b.toNat))
  | .iShrs p d a b => some (BitVec.ofNat 32 (805306368 + p.toNat * 16777216 + d.toNat * 65536 + a.toNat * 256 + b.toNat))
  | .iRotl p d a b => some (BitVec.ofNat 32 (872415232 + p.toNat * 16777216 + d.toNat * 65536 + a.toNat * 256 + b.toNat))
  | .iMins p d a b => some (BitVec.ofNat 32 (939524096 + p.toNat * 16777216 + d.toNat * 65536 + a.toNat * 256 + b.toNat))
  | .iMaxs p d a b => some (BitVec.ofNat 32 (1006632960 + p.toNat * 16777216 + d.toNat * 65536 + a.toNat * 256 + b.toNat))
  | .iMinz p d a b => some (BitVec.ofNat 32 (1073741824 + p.toNat * 16777216 + d.toNat * 65536 + a.toNat * 256 + b.toNat))
  | .iMaxz p d a b => some (BitVec.ofNat 32 (1140850688 + p.toNat * 16777216 + d.toNat * 65536 + a.toNat * 256 + b.toNat))
  | .iAbs p d a => some (BitVec.ofNat 32 (1207959552 + p.toNat * 16777216 + d.toNat * 65536 + a.toNat * 256))
  | .iAddss p d a b => some (BitVec.ofNat 32 (1275068416 + p.toNat * 16777216 + d.toNat * 65536 + a.toNat * 256 + b.toNat))
  | .iAddsz p d a b => some (BitVec.ofNat 32 (1342177280 + p.toNat * 16777216 + d.toNat * 65536 + a.toNat * 256 + b.toNat))
  | .iSubss p d a b => some (BitVec.ofNat 32 (1409286144 + p.toNat * 16777216 + d.toNat * 65536 + a.toNat * 256 + b.toNat))
  | .iSubsz p d a b => some (BitVec.ofNat 32 (1476395008 + p.toNat * 16777216 + d.toNat * 65536 + a.toNat * 256 + b.toNat))
  | .iAbsds p d a b => some (BitVec.ofNat 32 (1543503872 + p.toNat * 16777216 + d.toNat * 65536 + a.toNat * 256 + b.toNat))
  | .iAbsdz p d a b => some (BitVec.ofNat 32 (1610612736 + p.toNat * 16777216 + d.toNat * 65536 + a.toNat * 256 + b.toNat))
  | .iAvgs p d a b => some (BitVec.ofNat 32 (1677721600 + p.toNat * 16777216 + d.toNat * 65536 + a.toNat * 256 + b.toNat))
  | .iAvgz p d a b => some (BitVec.ofNat 32 (1744830464 + p.toNat * 16777216 + d.toNat * 65536 + a.toNat * 256 + b.toNat))
  | .iAddx2 p d a b => some (BitVec.ofNat 32 (1811939328 + p.toNat * 16777216 + d.toNat * 65536 + a.toNat * 256 + b.toNat))
  | .iAddx4 p d a b => some (BitVec.ofNat 32 (1879048192 + p.toNat * 16777216 + d.toNat * 65536 + a.toNat * 256 + b.toNat))
  | .iAddx8 p d a b => some (BitVec.ofNat 32 (1946157056 + p.toNat * 16777216 + d.toNat * 65536 + a.toNat * 256 + b.toNat))
  | .iHadd p d a b => some (BitVec.ofNat 32 (2013265920 + p.toNat * 16777216 + d.toNat * 65536 + a.toNat * 256 + b.toNat))
  | .iHsub p d a b => some (BitVec.ofNat 32 (2080374784 + p.toNat * 16777216 + d.toNat * 65536 + a.toNat * 256 + b.toNat))
  | .iHaddss p d a b => some (BitVec.ofNat 32 (2147483648 + p.toNat * 16777216 + d.toNat * 65536 + a.toNat * 256 + b.toNat))
  | .iHaddsz p d a b => some (BitVec.ofNat 32 (2214592512 + p.toNat * 16777216 + d.toNat * 65536 + a.toNat * 256 + b.toNat))
  | .iHsubss p d a b => some (BitVec.ofNat 32 (2281701376 + p.toNat * 16777216 + d.toNat * 65536 + a.toNat * 256 + b.toNat))
  | .iHsubsz p d a b => some (BitVec.ofNat 32 (2348810240 + p.toNat * 16777216 + d.toNat * 65536 + a.toNat * 256 + b.toNat))
  | .iHmul p d a b => some (BitVec.ofNat 32 (2415919104 + p.toNat * 16777216 + d.toNat * 65536 + a.toNat * 256 + b.toNat))
  | .iHmins p d a b => some (BitVec.ofNat 32 (2483027968 + p.toNat * 16777216 + d.toNat * 65536 + a.toNat * 256 + b.toNat))
  | .iHmaxs p d a b => some (BitVec.ofNat 32 (2550136832 + p.toNat * 16777216 + d.toNat * 65536 + a.toNat * 256 + b.toNat))
  | .iHminz p d a b => some (BitVec.ofNat 32 (2617245696 + p.toNat * 16777216 + d.toNat * 65536 + a.toNat * 256 + b.toNat))
  | .iHmaxz p d a b => some (BitVec.ofNat 32 (2684354560 + p.toNat * 16777216 + d.toNat * 65536 + a.toNat * 256 + b.toNat))
  | .iHabsds p d a b => some (BitVec.ofNat 32 (2751463424 + p.toNat * 16777216 + d.toNat * 65536 + a.toNat * 256 + b.toNat))
  | .iHabsdz p d a b => some (BitVec.ofNat 32 (2818572288 + p.toNat * 16777216 + d.toNat * 65536 + a.toNat * 256 + b.toNat))
  | .iHavgs p d a b => some (BitVec.ofNat 32 (2885681152 + p.toNat * 16777216 + d.toNat * 65536 + a.toNat * 256 + b.toNat))
  | .iHavgz p d a b => some (BitVec.ofNat 32 (2952790016 + p.toNat * 16777216 + d.toNat * 65536 + a.toNat * 256 + b.toNat))
  | .iFext p d a b => some (BitVec.ofNat 32 (3019898880 + p.toNat * 16777216 + d.toNat * 65536 + a.toNat * 256 + b.toNat))
  | .iFexts p d a b => some (BitVec.ofNat 32 (3087007744 + p.toNat * 16777216 + d.toNat * 65536 + a.toNat * 256 + b.toNat))
  | .iCeq p d a b => some (BitVec.ofNat 32 (3154116608 + p.toNat * 16777216 + d.toNat * 65536 + a.toNat * 256 + b.toNat))
  | .iCne p d a b => some (BitVec.ofNat 32 (3221225472 + p.toNat * 16777216 + d.toNat * 65536 + a.toNat * 256 + b.toNat))
  | .iClts p d a b => some (BitVec.ofNat 32 (3288334336 + p.toNat * 16777216 + d.toNat * 65536 + a.toNat * 256 + b.toNat))
  | .iCltz p d a b => some (BitVec.ofNat 32 (3355443200 + p.toNat * 16777216 + d.toNat * 65536 + a.toNat * 256 + b.toNat))
  | .iCles p d a b => some (BitVec.ofNat 32 (3422552064 + p.toNat * 16777216 + d.toNat * 65536 + a.toNat * 256 + b.toNat))
  | .iClez p d a b => some (BitVec.ofNat 32 (3489660928 + p.toNat * 16777216 + d.toNat * 65536 + a.toNat * 256 + b.toNat))
  | .iPand p d a b => some (BitVec.ofNat 32 (3556769792 + p.toNat * 16777216 + d.toNat * 65536 + a.toNat * 256 + b.toNat))
  | .iPor p d a b => some (BitVec.ofNat 32 (3623878656 + p.toNat * 16777216 + d.toNat * 65536 + a.toNat * 256 + b.toNat))
  | .iPxor p d a b => some (BitVec.ofNat 32 (3690987520 + p.toNat * 16777216 + d.toNat * 65536 + a.toNat * 256 + b.toNat))
  | .iSel p d a b => some (BitVec.ofNat 32 (3758096384 + p.toNat * 16777216 + d.toNat * 65536 + a.toNat * 256 + b.toNat))
  | .iPcnt p d a => some (BitVec.ofNat 32 (3825205248 + p.toNat * 16777216 + d.toNat * 65536 + a.toNat * 256))
  | .iClz p d a => some (BitVec.ofNat 32 (3892314112 + p.toNat * 16777216 + d.toNat * 65536 + a.toNat * 256))
  | .iPget p d a => some (BitVec.ofNat 32 (3959422976 + p.toNat * 16777216 + d.toNat * 65536 + a.toNat * 256))
  | .iMov p d a => some (BitVec.ofNat 32 (4026531840 + p.toNat * 16777216 + d.toNat * 65536 + a.toNat * 256))
  | .fFadd p d a b => some (BitVec.ofNat 32 (67108864 + p.toNat * 16777216 + d.toNat * 65536 + a.toNat * 256 + b.toNat))
  | .fFsub p d a b => some (BitVec.ofNat 32 (134217728 + p.toNat * 16777216 + d.toNat * 65536 + a.toNat * 256 + b.toNat))
  | .fFmul p d a b => some (BitVec.ofNat 32 (201326592 + p.toNat * 16777216 + d.toNat * 65536 + a.toNat * 256 + b.toNat))
  | .fFma p d a b => some (BitVec.ofNat 32 (268435456 + p.toNat * 16777216 + d.toNat * 65536 + a.toNat * 256 + b.toNat))
  | .fFnma p d a b => some (BitVec.ofNat 32 (335544320 + p.toNat * 16777216 + d.toNat * 65536 + a.toNat * 256 + b.toNat))
  | .fFmin p d a b => some (BitVec.ofNat 32 (402653184 + p.toNat * 16777216 + d.toNat * 65536 + a.toNat * 256 + b.toNat))
  | .fFmax p d a b => some (BitVec.ofNat 32 (469762048 + p.toNat * 16777216 + d.toNat * 65536 + a.toNat * 256 + b.toNat))
  | .fFabs p d a => some (BitVec.ofNat 32 (536870912 + p.toNat * 16777216 + d.toNat * 65536 + a.toNat * 256))
  | .fFneg p d a => some (BitVec.ofNat 32 (603979776 + p.toNat * 16777216 + d.toNat * 65536 + a.toNat * 256))
  | .fFcpsgn p d a b => some (BitVec.ofNat 32 (671088640 + p.toNat * 16777216 + d.toNat * 65536 + a.toNat * 256 + b.toNat))
  | .fFceq p d a b => some (BitVec.ofNat 32 (738197504 + p.toNat * 16777216 + d.toNat * 65536 + a.toNat * 256 + b.toNat))
  | .fFclt p d a b => some (BitVec.ofNat 32 (805306368 + p.toNat * 16777216 + d.toNat * 65536 + a.toNat * 256 + b.toNat))
  | .fFcle p d a b => some (BitVec.ofNat 32 (872415232 + p.toNat * 16777216 + d.toNat * 65536 + a.toNat * 256 + b.toNat))
  | .fFcun p d a b => some (BitVec.ofNat 32 (939524096 + p.toNat * 16777216 + d.toNat * 65536 + a.toNat * 256 + b.toNat))
  | .fFrcp p d a => some (BitVec.ofNat 32 (1006632960 + p.toNat * 16777216 + d.toNat * 65536 + a.toNat * 256))
  | .fFrsq p d a => some (BitVec.ofNat 32 (1073741824 + p.toNat * 16777216 + d.toNat * 65536 + a.toNat * 256))
  | .fFexp2 p d a => some (BitVec.ofNat 32 (1140850688 + p.toNat * 16777216 + d.toNat * 65536 + a.toNat * 256))
  | .fFlog2 p d a => some (BitVec.ofNat 32 (1207959552 + p.toNat * 16777216 + d.toNat * 65536 + a.toNat * 256))
  | .fBadd p d a b => some (BitVec.ofNat 32 (1275068416 + p.toNat * 16777216 + d.toNat * 65536 + a.toNat * 256 + b.toNat))
  | .fBsub p d a b => some (BitVec.ofNat 32 (1342177280 + p.toNat * 16777216 + d.toNat * 65536 + a.toNat * 256 + b.toNat))
  | .fBmul p d a b => some (BitVec.ofNat 32 (1409286144 + p.toNat * 16777216 + d.toNat * 65536 + a.toNat * 256 + b.toNat))
  | .fBfma p d a b => some (BitVec.ofNat 32 (1476395008 + p.toNat * 16777216 + d.toNat * 65536 + a.toNat * 256 + b.toNat))
  | .fBmin p d a b => some (BitVec.ofNat 32 (1543503872 + p.toNat * 16777216 + d.toNat * 65536 + a.toNat * 256 + b.toNat))
  | .fBmax p d a b => some (BitVec.ofNat 32 (1610612736 + p.toNat * 16777216 + d.toNat * 65536 + a.toNat * 256 + b.toNat))
  | .fFdot2 p d a b => some (BitVec.ofNat 32 (1677721600 + p.toNat * 16777216 + d.toNat * 65536 + a.toNat * 256 + b.toNat))
  | .fFclamp p d a b => some (BitVec.ofNat 32 (1744830464 + p.toNat * 16777216 + d.toNat * 65536 + a.toNat * 256 + b.toNat))
  | .fFsat p d a => some (BitVec.ofNat 32 (1811939328 + p.toNat * 16777216 + d.toNat * 65536 + a.toNat * 256))
  | .fFrnd p d a => some (BitVec.ofNat 32 (1879048192 + p.toNat * 16777216 + d.toNat * 65536 + a.toNat * 256))
  | .fFscl p d a b => some (BitVec.ofNat 32 (1946157056 + p.toNat * 16777216 + d.toNat * 65536 + a.toNat * 256 + b.toNat))
  | .fCvtsf p d a => some (BitVec.ofNat 32 (2013265920 + p.toNat * 16777216 + d.toNat * 65536 + a.toNat * 256))
  | .fCvtzf p d a => some (BitVec.ofNat 32 (2080374784 + p.toNat * 16777216 + d.toNat * 65536 + a.toNat * 256))
  | .fCvtfs p d a => some (BitVec.ofNat 32 (2147483648 + p.toNat * 16777216 + d.toNat * 65536 + a.toNat * 256))
  | .fCvtfz p d a => some (BitVec.ofNat 32 (2214592512 + p.toNat * 16777216 + d.toNat * 65536 + a.toNat * 256))
  | .fCvtfb p d a b => some (BitVec.ofNat 32 (2281701376 + p.toNat * 16777216 + d.toNat * 65536 + a.toNat * 256 + b.toNat))
  | .fCvtbfl p d a => some (BitVec.ofNat 32 (2348810240 + p.toNat * 16777216 + d.toNat * 65536 + a.toNat * 256))
  | .fCvtbfh p d a => some (BitVec.ofNat 32 (2415919104 + p.toNat * 16777216 + d.toNat * 65536 + a.toNat * 256))
  | .fCvtlsf p d a => some (BitVec.ofNat 32 (2483027968 + p.toNat * 16777216 + d.toNat * 65536 + a.toNat * 256))
  | .fCvthsf p d a => some (BitVec.ofNat 32 (2550136832 + p.toNat * 16777216 + d.toNat * 65536 + a.toNat * 256))
  | .fCvtlzf p d a => some (BitVec.ofNat 32 (2617245696 + p.toNat * 16777216 + d.toNat * 65536 + a.toNat * 256))
  | .fCvthzf p d a => some (BitVec.ofNat 32 (2684354560 + p.toNat * 16777216 + d.toNat * 65536 + a.toNat * 256))
  | .tmTldw m => some (BitVec.ofNat 32 (67108864 + m.toNat * 65536))
  | .tmTldwt m => some (BitVec.ofNat 32 (134217728 + m.toNat * 65536))
  | .tmTmma k m n => some (BitVec.ofNat 32 (201326592 + k.toNat * 65536 + m.toNat * 256 + n.toNat))
  | .tmTmmz k m n => some (BitVec.ofNat 32 (268435456 + k.toNat * 65536 + m.toNat * 256 + n.toNat))
  | .tmTmmn k m n => some (BitVec.ofNat 32 (335544320 + k.toNat * 65536 + m.toNat * 256 + n.toNat))
  | .tmTldx m => some (BitVec.ofNat 32 (402653184 + m.toNat * 65536))
  | .tmTdrn => some (BitVec.ofNat 32 (469762048))
  | .tmTwclr => some (BitVec.ofNat 32 (536870912))
  | .tmTstat p d => some (BitVec.ofNat 32 (603979776 + p.toNat * 16777216 + d.toNat * 65536))
  | .tmTscl k m => some (BitVec.ofNat 32 (671088640 + k.toNat * 65536 + m.toNat * 256))
  | .tmTbias k m => some (BitVec.ofNat 32 (738197504 + k.toNat * 65536 + m.toNat * 256))
  | .tmTamw k s r => some (BitVec.ofNat 32 (805306368 + k.toNat * 65536 + s.toNat * 256 + r.toNat))
  | .tmTcvt d s => some (BitVec.ofNat 32 (872415232 + d.toNat * 65536 + s.toNat * 256))
  | .tmTmmh k m n => some (BitVec.ofNat 32 (939524096 + k.toNat * 65536 + m.toNat * 256 + n.toNat))
  | .ptPld4 m => some (BitVec.ofNat 32 (67108864 + m.toNat * 65536))
  | .ptPld8 m => some (BitVec.ofNat 32 (134217728 + m.toNat * 65536))
  | .ptPlds m => some (BitVec.ofNat 32 (201326592 + m.toNat * 65536))
  | .ptPpass k m n => some (BitVec.ofNat 32 (268435456 + k.toNat * 65536 + m.toNat * 256 + n.toNat))
  | .ptPpassz k m n => some (BitVec.ofNat 32 (335544320 + k.toNat * 65536 + m.toNat * 256 + n.toNat))
  | .ptPpassn k m n => some (BitVec.ofNat 32 (402653184 + k.toNat * 65536 + m.toNat * 256 + n.toNat))
  | .ptPcvt d s m => some (BitVec.ofNat 32 (469762048 + d.toNat * 65536 + s.toNat * 256 + m.toNat))
  | .ptPclro k => some (BitVec.ofNat 32 (536870912 + k.toNat * 65536))
  | .ptPstat p d => some (BitVec.ofNat 32 (603979776 + p.toNat * 16777216 + d.toNat * 65536))
  | .ptPtclr => some (BitVec.ofNat 32 (671088640))
  | .ptPdrn => some (BitVec.ofNat 32 (738197504))
  | .ptPscan p d s => some (BitVec.ofNat 32 (805306368 + p.toNat * 16777216 + d.toNat * 65536 + s.toNat * 256))
  | .sSpop p d a k => some (BitVec.ofNat 32 (67108864 + p.toNat * 16777216 + d.toNat * 65536 + a.toNat * 256 + k.toNat))
  | .sSpopc p d a => some (BitVec.ofNat 32 (134217728 + p.toNat * 16777216 + d.toNat * 65536 + a.toNat * 256))
  | .sSpush a s => some (BitVec.ofNat 32 (201326592 + a.toNat * 256 + s.toNat))
  | .sSpushc p a s => some (BitVec.ofNat 32 (268435456 + p.toNat * 16777216 + a.toNat * 256 + s.toNat))
  | .sSwaitf a n => some (BitVec.ofNat 32 (335544320 + a.toNat * 256 + n.toNat))
  | .sSwaite a n => some (BitVec.ofNat 32 (402653184 + a.toNat * 256 + n.toNat))
  | .sSadvr a n => some (BitVec.ofNat 32 (469762048 + a.toNat * 256 + n.toNat))
  | .sSadvw a n => some (BitVec.ofNat 32 (536870912 + a.toNat * 256 + n.toNat))
  | .sTfill m a f => some (BitVec.ofNat 32 (603979776 + m.toNat * 65536 + a.toNat * 256 + f.toNat))
  | .sTfillx m a => some (BitVec.ofNat 32 (671088640 + m.toNat * 65536 + a.toNat * 256))
  | .sScnt a => some (BitVec.ofNat 32 (738197504 + a.toNat * 256))
  | .sSflush a => some (BitVec.ofNat 32 (805306368 + a.toNat * 256))
  | .sSptrr p d a => some (BitVec.ofNat 32 (872415232 + p.toNat * 16777216 + d.toNat * 65536 + a.toNat * 256))
  | .sSptrw p d a => some (BitVec.ofNat 32 (939524096 + p.toNat * 16777216 + d.toNat * 65536 + a.toNat * 256))
  | .sSavail p d a => some (BitVec.ofNat 32 (1006632960 + p.toNat * 16777216 + d.toNat * 65536 + a.toNat * 256))
  | .sSspace p d a => some (BitVec.ofNat 32 (1073741824 + p.toNat * 16777216 + d.toNat * 65536 + a.toNat * 256))
  | .xsXperm p d s i => some (BitVec.ofNat 32 (67108864 + p.toNat * 16777216 + d.toNat * 65536 + s.toNat * 256 + i.toNat))
  | .xsXpermc p d s i => some (BitVec.ofNat 32 (134217728 + p.toNat * 16777216 + d.toNat * 65536 + s.toNat * 256 + i.toNat))
  | .xsXbc p d s l => some (BitVec.ofNat 32 (201326592 + p.toNat * 16777216 + d.toNat * 65536 + s.toNat * 256 + l.toNat))
  | .xsXbcc p d s n => some (BitVec.ofNat 32 (268435456 + p.toNat * 16777216 + d.toNat * 65536 + s.toNat * 256 + n.toNat))
  | .xsXrot p d s n => some (BitVec.ofNat 32 (335544320 + p.toNat * 16777216 + d.toNat * 65536 + s.toNat * 256 + n.toNat))
  | .xsXrotc p d s n => some (BitVec.ofNat 32 (402653184 + p.toNat * 16777216 + d.toNat * 65536 + s.toNat * 256 + n.toNat))
  | .xsXcmp p d s => some (BitVec.ofNat 32 (469762048 + p.toNat * 16777216 + d.toNat * 65536 + s.toNat * 256))
  | .xsXcmpc p d s => some (BitVec.ofNat 32 (536870912 + p.toNat * 16777216 + d.toNat * 65536 + s.toNat * 256))
  | .xsXexp p d s => some (BitVec.ofNat 32 (603979776 + p.toNat * 16777216 + d.toNat * 65536 + s.toNat * 256))
  | .xsXcnt p d => some (BitVec.ofNat 32 (671088640 + p.toNat * 16777216 + d.toNat * 65536))
  | .amAalloc k => some (BitVec.ofNat 32 (67108864 + k.toNat * 65536))
  | .amAallocp k => some (BitVec.ofNat 32 (134217728 + k.toNat * 65536))
  | .amAfree k => some (BitVec.ofNat 32 (201326592 + k.toNat * 65536))
  | .amMclaim m => some (BitVec.ofNat 32 (268435456 + m.toNat * 65536))
  | .amMrel m => some (BitVec.ofNat 32 (335544320 + m.toNat * 65536))
  | .amArd p d k r => some (BitVec.ofNat 32 (402653184 + p.toNat * 16777216 + d.toNat * 65536 + k.toNat * 256 + r.toNat))
  | .amArdh p d k r => some (BitVec.ofNat 32 (469762048 + p.toNat * 16777216 + d.toNat * 65536 + k.toNat * 256 + r.toNat))
  | .amAclr k => some (BitVec.ofNat 32 (536870912 + k.toNat * 65536))
  | .add d a b => some (BitVec.ofNat 32 (16777216 + d.toNat * 524288 + a.toNat * 16384 + b.toNat * 512))
  | .sub d a b => some (BitVec.ofNat 32 (33554432 + d.toNat * 524288 + a.toNat * 16384 + b.toNat * 512))
  | .mul d a b => some (BitVec.ofNat 32 (50331648 + d.toNat * 524288 + a.toNat * 16384 + b.toNat * 512))
  | .mulhs d a b => some (BitVec.ofNat 32 (67108864 + d.toNat * 524288 + a.toNat * 16384 + b.toNat * 512))
  | .mulhz d a b => some (BitVec.ofNat 32 (83886080 + d.toNat * 524288 + a.toNat * 16384 + b.toNat * 512))
  | .divs d a b => some (BitVec.ofNat 32 (100663296 + d.toNat * 524288 + a.toNat * 16384 + b.toNat * 512))
  | .divz d a b => some (BitVec.ofNat 32 (117440512 + d.toNat * 524288 + a.toNat * 16384 + b.toNat * 512))
  | .rems d a b => some (BitVec.ofNat 32 (134217728 + d.toNat * 524288 + a.toNat * 16384 + b.toNat * 512))
  | .remz d a b => some (BitVec.ofNat 32 (150994944 + d.toNat * 524288 + a.toNat * 16384 + b.toNat * 512))
  | .and d a b => some (BitVec.ofNat 32 (167772160 + d.toNat * 524288 + a.toNat * 16384 + b.toNat * 512))
  | .or d a b => some (BitVec.ofNat 32 (184549376 + d.toNat * 524288 + a.toNat * 16384 + b.toNat * 512))
  | .xor d a b => some (BitVec.ofNat 32 (201326592 + d.toNat * 524288 + a.toNat * 16384 + b.toNat * 512))
  | .andn d a b => some (BitVec.ofNat 32 (218103808 + d.toNat * 524288 + a.toNat * 16384 + b.toNat * 512))
  | .shl d a b => some (BitVec.ofNat 32 (234881024 + d.toNat * 524288 + a.toNat * 16384 + b.toNat * 512))
  | .shrz d a b => some (BitVec.ofNat 32 (251658240 + d.toNat * 524288 + a.toNat * 16384 + b.toNat * 512))
  | .shrs d a b => some (BitVec.ofNat 32 (268435456 + d.toNat * 524288 + a.toNat * 16384 + b.toNat * 512))
  | .slts d a b => some (BitVec.ofNat 32 (285212672 + d.toNat * 524288 + a.toNat * 16384 + b.toNat * 512))
  | .sltz d a b => some (BitVec.ofNat 32 (301989888 + d.toNat * 524288 + a.toNat * 16384 + b.toNat * 512))
  | .popc d a => some (BitVec.ofNat 32 (318767104 + d.toNat * 524288 + a.toNat * 16384))
  | .addi d a i => some (BitVec.ofNat 32 (335544320 + d.toNat * 524288 + a.toNat * 16384 + i.toNat))
  | .andi d a i => some (BitVec.ofNat 32 (352321536 + d.toNat * 524288 + a.toNat * 16384 + i.toNat))
  | .ori d a i => some (BitVec.ofNat 32 (369098752 + d.toNat * 524288 + a.toNat * 16384 + i.toNat))
  | .xori d a i => some (BitVec.ofNat 32 (385875968 + d.toNat * 524288 + a.toNat * 16384 + i.toNat))
  | .shli d a i => some (BitVec.ofNat 32 (402653184 + d.toNat * 524288 + a.toNat * 16384 + i.toNat))
  | .shrzi d a i => some (BitVec.ofNat 32 (419430400 + d.toNat * 524288 + a.toNat * 16384 + i.toNat))
  | .shrsi d a i => some (BitVec.ofNat 32 (436207616 + d.toNat * 524288 + a.toNat * 16384 + i.toNat))
  | .sltsi d a i => some (BitVec.ofNat 32 (452984832 + d.toNat * 524288 + a.toNat * 16384 + i.toNat))
  | .sltzi d a i => some (BitVec.ofNat 32 (469762048 + d.toNat * 524288 + a.toNat * 16384 + i.toNat))
  | .ldi d i => some (BitVec.ofNat 32 (486539264 + d.toNat * 524288 + i.toNat))
  | .lsi d i => some (BitVec.ofNat 32 (503316480 + d.toNat * 524288 + i.toNat))
  | .beq a b o => some (BitVec.ofNat 32 (536870912 + a.toNat * 524288 + b.toNat * 16384 + o.toNat))
  | .bne a b o => some (BitVec.ofNat 32 (553648128 + a.toNat * 524288 + b.toNat * 16384 + o.toNat))
  | .blts a b o => some (BitVec.ofNat 32 (570425344 + a.toNat * 524288 + b.toNat * 16384 + o.toNat))
  | .bges a b o => some (BitVec.ofNat 32 (587202560 + a.toNat * 524288 + b.toNat * 16384 + o.toNat))
  | .bltz a b o => some (BitVec.ofNat 32 (603979776 + a.toNat * 524288 + b.toNat * 16384 + o.toNat))
  | .bgez a b o => some (BitVec.ofNat 32 (620756992 + a.toNat * 524288 + b.toNat * 16384 + o.toNat))
  | .j o => some (BitVec.ofNat 32 (637534208 + o.toNat))
  | .jal o => some (BitVec.ofNat 32 (654311424 + o.toNat))
  | .jr a => some (BitVec.ofNat 32 (671088640 + a.toNat * 16384))
  | .jalr d a => some (BitVec.ofNat 32 (687865856 + d.toNat * 524288 + a.toNat * 16384))
  | .lb d a i => some (BitVec.ofNat 32 (805306368 + d.toNat * 524288 + a.toNat * 16384 + i.toNat))
  | .lbz d a i => some (BitVec.ofNat 32 (822083584 + d.toNat * 524288 + a.toNat * 16384 + i.toNat))
  | .lh d a i => some (BitVec.ofNat 32 (838860800 + d.toNat * 524288 + a.toNat * 16384 + i.toNat))
  | .lhz d a i => some (BitVec.ofNat 32 (855638016 + d.toNat * 524288 + a.toNat * 16384 + i.toNat))
  | .lw d a i => some (BitVec.ofNat 32 (872415232 + d.toNat * 524288 + a.toNat * 16384 + i.toNat))
  | .lwz d a i => some (BitVec.ofNat 32 (889192448 + d.toNat * 524288 + a.toNat * 16384 + i.toNat))
  | .ld d a i => some (BitVec.ofNat 32 (905969664 + d.toNat * 524288 + a.toNat * 16384 + i.toNat))
  | .ldx d a b => some (BitVec.ofNat 32 (922746880 + d.toNat * 524288 + a.toNat * 16384 + b.toNat * 512))
  | .sb d a i => some (BitVec.ofNat 32 (939524096 + d.toNat * 524288 + a.toNat * 16384 + i.toNat))
  | .sh d a i => some (BitVec.ofNat 32 (956301312 + d.toNat * 524288 + a.toNat * 16384 + i.toNat))
  | .sw d a i => some (BitVec.ofNat 32 (973078528 + d.toNat * 524288 + a.toNat * 16384 + i.toNat))
  | .sd d a i => some (BitVec.ofNat 32 (989855744 + d.toNat * 524288 + a.toNat * 16384 + i.toNat))
  | .ldAcq d a i => some (BitVec.ofNat 32 (1006632960 + d.toNat * 524288 + a.toNat * 16384 + i.toNat))
  | .stRel d a i => some (BitVec.ofNat 32 (1023410176 + d.toNat * 524288 + a.toNat * 16384 + i.toNat))
  | .ldm d a n => some (BitVec.ofNat 32 (1040187392 + d.toNat * 524288 + a.toNat * 16384 + n.toNat))
  | .stm d a n => some (BitVec.ofNat 32 (1056964608 + d.toNat * 524288 + a.toNat * 16384 + n.toNat))
  | .nop => some (BitVec.ofNat 32 (1073741824))
  | .mfs d s => some (BitVec.ofNat 32 (1090519040 + d.toNat * 524288 + s.toNat))
  | .mts a s => some (BitVec.ofNat 32 (1107296256 + a.toNat * 16384 + s.toNat))
  | .fenceSc => some (BitVec.ofNat 32 (1124073472))
  | .fenceDie => some (BitVec.ofNat 32 (1124073473))
  | .fencePkg => some (BitVec.ofNat 32 (1124073474))
  | .fenceSys => some (BitVec.ofNat 32 (1124073475))
  | .trap n => some (BitVec.ofNat 32 (1140850688 + n.toNat))
  | .tret => some (BitVec.ofNat 32 (1157627904))
  | .brk n => some (BitVec.ofNat 32 (1174405120 + n.toNat))
  | .pause => some (BitVec.ofNat 32 (1191182336))
  | .dcfl a i => some (BitVec.ofNat 32 (1207959552 + a.toNat * 16384 + i.toNat))
  | .dcinv a i => some (BitVec.ofNat 32 (1224736768 + a.toNat * 16384 + i.toNat))
  | .dcz a i => some (BitVec.ofNat 32 (1241513984 + a.toNat * 16384 + i.toNat))
  | .idle => some (BitVec.ofNat 32 (1258291200))
  | .csave a c => some (BitVec.ofNat 32 (1275068416 + a.toNat * 16384 + c.toNat))
  | .cload a c => some (BitVec.ofNat 32 (1291845632 + a.toNat * 16384 + c.toNat))
  | .ctxkill c => some (BitVec.ofNat 32 (1308622848 + c.toNat))
  | .ctxsig a c => some (BitVec.ofNat 32 (1325400064 + a.toNat * 16384 + c.toNat))
  | .salloc a h b g => some (BitVec.ofNat 32 (1342177280 + a.toNat * 524288 + h.toNat * 32768 + b.toNat * 64 + g.toNat))
  | .sfree h => some (BitVec.ofNat 32 (1358954496 + h.toNat * 32768))
  | .sload a h k e => some (BitVec.ofNat 32 (1375731712 + a.toNat * 524288 + h.toNat * 32768 + k.toNat * 2048 + e.toNat))
  | .sstore a h k e => some (BitVec.ofNat 32 (1392508928 + a.toNat * 524288 + h.toNat * 32768 + k.toNat * 2048 + e.toNat))
  | .sgather a h k b => some (BitVec.ofNat 32 (1409286144 + a.toNat * 524288 + h.toNat * 32768 + k.toNat * 2048 + b.toNat * 64))
  | .sscatter a h k b => some (BitVec.ofNat 32 (1426063360 + a.toNat * 524288 + h.toNat * 32768 + k.toNat * 2048 + b.toNat * 64))
  | .sreset h => some (BitVec.ofNat 32 (1442840576 + h.toNat * 32768))
  | .sptr a h w => some (BitVec.ofNat 32 (1459617792 + a.toNat * 524288 + h.toNat * 32768 + w.toNat))
  | .srd a h b => some (BitVec.ofNat 32 (1476395008 + a.toNat * 524288 + h.toNat * 32768 + b.toNat * 64))
  | .swr a h b => some (BitVec.ofNat 32 (1493172224 + a.toNat * 524288 + h.toNat * 32768 + b.toNat * 64))
  | .sfill a h b p => some (BitVec.ofNat 32 (1509949440 + a.toNat * 524288 + h.toNat * 32768 + b.toNat * 64 + p.toNat))
  | .smovh h k => some (BitVec.ofNat 32 (1526726656 + h.toNat * 32768 + k.toNat * 2048))
  | .sinfo a h => some (BitVec.ofNat 32 (1543503872 + a.toNat * 524288 + h.toNat * 32768))
  | .kload a b => some (BitVec.ofNat 32 (1560281088 + a.toNat * 524288 + b.toNat * 64))
  | .kfree a => some (BitVec.ofNat 32 (1577058304 + a.toNat * 524288))
  | .kinfo a b => some (BitVec.ofNat 32 (1593835520 + a.toNat * 524288 + b.toNat * 64))
  | .krun a b t d => some (BitVec.ofNat 32 (1610612736 + a.toNat * 524288 + b.toNat * 64 + t.toNat * 2 + d.toNat))
  | .krq a b t => some (BitVec.ofNat 32 (1627389952 + a.toNat * 524288 + b.toNat * 64 + t.toNat * 2))
  | .scount a h => some (BitVec.ofNat 32 (1644167168 + a.toNat * 524288 + h.toNat * 32768))
  | .swait h q c m => some (BitVec.ofNat 32 (1660944384 + h.toNat * 32768 + q.toNat * 16 + c.toNat * 8 + m.toNat))
  | .swaita => some (BitVec.ofNat 32 (1677721600))
  | .stest a h q c m => some (BitVec.ofNat 32 (1694498816 + a.toNat * 524288 + h.toNat * 32768 + q.toNat * 16 + c.toNat * 8 + m.toNat))
  | .sbar m => some (BitVec.ofNat 32 (1711276032 + m.toNat))
  | .rfence => some (BitVec.ofNat 32 (1728053248))
  | .fspawn d a b => some (BitVec.ofNat 32 (1879048192 + d.toNat * 524288 + a.toNat * 16384 + b.toNat * 512))
  | .fspawnh d a b s => some (BitVec.ofNat 32 (1895825408 + d.toNat * 524288 + a.toNat * 16384 + b.toNat * 512 + s.toNat))
  | .fref a => some (BitVec.ofNat 32 (1912602624 + a.toNat * 16384))
  | .fdrop a => some (BitVec.ofNat 32 (1929379840 + a.toNat * 16384))
  | .fget d a => some (BitVec.ofNat 32 (1946157056 + d.toNat * 524288 + a.toNat * 16384))
  | .fgetd d a => some (BitVec.ofNat 32 (1962934272 + d.toNat * 524288 + a.toNat * 16384))
  | .fpoll d a => some (BitVec.ofNat 32 (1979711488 + d.toNat * 524288 + a.toNat * 16384))
  | .fret a => some (BitVec.ofNat 32 (1996488704 + a.toNat * 16384))
  | .fretf a => some (BitVec.ofNat 32 (2013265920 + a.toNat * 16384))
  | .fyield => some (BitVec.ofNat 32 (2030043136))
  | .fsig n => some (BitVec.ofNat 32 (2046820352 + n.toNat))
  | .balloc d a b => some (BitVec.ofNat 32 (2063597568 + d.toNat * 524288 + a.toNat * 16384 + b.toNat * 512))
  | .bfree a => some (BitVec.ofNat 32 (2080374784 + a.toNat * 16384))
  | .barr a => some (BitVec.ofNat 32 (2097152000 + a.toNat * 16384))
  | .barrd a => some (BitVec.ofNat 32 (2113929216 + a.toNat * 16384))
  | .bwait a => some (BitVec.ofNat 32 (2130706432 + a.toNat * 16384))
  | .bpoll d a => some (BitVec.ofNat 32 (2147483648 + d.toNat * 524288 + a.toNat * 16384))
  | .waitge a b => some (BitVec.ofNat 32 (2164260864 + a.toNat * 16384 + b.toNat * 512))
  | .glaunch d a => some (BitVec.ofNat 32 (2181038080 + d.toNat * 524288 + a.toNat * 16384))
  | .gfree a => some (BitVec.ofNat 32 (2197815296 + a.toNat * 16384))
  | .scopy a h k b t s => some (BitVec.ofNat 32 (2415919104 + a.toNat * 524288 + h.toNat * 32768 + k.toNat * 2048 + b.toNat * 64 + t.toNat * 2 + s.toNat))
  | .sacc a h b o l => some (BitVec.ofNat 32 (2432696320 + a.toNat * 524288 + h.toNat * 32768 + b.toNat * 64 + o.toNat * 8 + l.toNat))
  | .scas a h k b o t l => some (BitVec.ofNat 32 (2449473536 + a.toNat * 524288 + h.toNat * 32768 + k.toNat * 2048 + b.toNat * 64 + o.toNat * 8 + t.toNat * 2 + l.toNat))
  | .sscadd a h k b o => some (BitVec.ofNat 32 (2466250752 + a.toNat * 524288 + h.toNat * 32768 + k.toNat * 2048 + b.toNat * 64 + o.toNat * 8))
  | .squant a b => some (BitVec.ofNat 32 (2483027968 + a.toNat * 524288 + b.toNat * 64))
  | .sdqnt a b => some (BitVec.ofNat 32 (2499805184 + a.toNat * 524288 + b.toNat * 64))
  | .sdecomp a h b m => some (BitVec.ofNat 32 (2516582400 + a.toNat * 524288 + h.toNat * 32768 + b.toNat * 64 + m.toNat))
  | .sread a b => some (BitVec.ofNat 32 (2533359616 + a.toNat * 524288 + b.toNat * 64))
  | .sreads a h => some (BitVec.ofNat 32 (2550136832 + a.toNat * 524288 + h.toNat * 32768))
  | .rput a h b o s => some (BitVec.ofNat 32 (2566914048 + a.toNat * 524288 + h.toNat * 32768 + b.toNat * 64 + o.toNat * 32 + s.toNat))
  | .rputh a h b o c s => some (BitVec.ofNat 32 (2583691264 + a.toNat * 524288 + h.toNat * 32768 + b.toNat * 64 + o.toNat * 32 + c.toNat * 2 + s.toNat))
  | .rget a k b t => some (BitVec.ofNat 32 (2600468480 + a.toNat * 524288 + k.toNat * 2048 + b.toNat * 64 + t.toNat * 2))
  | .racc a h b o t l => some (BitVec.ofNat 32 (2617245696 + a.toNat * 524288 + h.toNat * 32768 + b.toNat * 64 + o.toNat * 8 + t.toNat * 2 + l.toNat))
  | .rsig a b c q => some (BitVec.ofNat 32 (2634022912 + a.toNat * 524288 + b.toNat * 64 + c.toNat * 2 + q.toNat))
  | .tlbinv a => some (BitVec.ofNat 32 (2684354560 + a.toNat * 16384))
  | .tlbinva => some (BitVec.ofNat 32 (2701131776))
  | .xlat d a => some (BitVec.ofNat 32 (2717908992 + d.toNat * 524288 + a.toNat * 16384))
  | .rngset a r w => some (BitVec.ofNat 32 (2734686208 + a.toNat * 16384 + r.toNat * 256 + w.toNat))
  | .rngget d r l w => some (BitVec.ofNat 32 (2751463424 + d.toNat * 524288 + r.toNat * 256 + l.toNat * 4 + w.toNat))
  | .rngcommit => some (BitVec.ofNat 32 (2768240640))
  | .psplit a => some (BitVec.ofNat 32 (2785017856 + a.toNat * 16384))
  | .pown a b => some (BitVec.ofNat 32 (2801795072 + a.toNat * 16384 + b.toNat * 512))
  | .pdup a b => some (BitVec.ofNat 32 (2818572288 + a.toNat * 16384 + b.toNat * 512))
  | .pstat d a => some (BitVec.ofNat 32 (2835349504 + d.toNat * 524288 + a.toNat * 16384))
  | .illegalInstruction w => some w
  | _ => none

end Sys2Proof
end

