-- ==== Sys2Proof/Config.lean ====
section
/-!
DEFINITION. What the spec leaves to the implementation or leaves open: the turns of the module's agents, free
values, and the cryptographic functions it names without defining them.  Nothing here has a body.
-/

namespace Sys2Proof

/-- Who acts in a turn: a control-core issue cycle of an SC (R165), a cycle of a kernel run (R15), an event of the
table, the removal of a line of a data cache, which the spec lets happen at any time (R396), or an operation on a read-duplicate page
that another holder's instruction makes here: PSPLIT of the frame at a local address, POWN of the block at one to an owner, and PDUP
of it with a copy or without; what such an operation brings here of a block, the owner's leaf and bytes; that the home of the page of a
frame has taken the operation this package asked of it first; or that a holder has done its part of one (R338-R346). -/
inductive Agent where
  | context (sc : Nat)
  | run (sc k : Nat)
  | event (i : Instr)
  | evictLine (sc line : Nat)
  | peerSplit (a : Nat)
  | peerOwn (a o : Nat)
  | peerDup (a : Nat) (copy : Bool)
  | peerBlock (a leaf : Nat) (data : List Byte)
  | peerTurn (a : Nat)
  | peerDone (a pkg : Nat)
  deriving DecidableEq, Repr, Inhabited

/-- One turn of one agent: the time-base nanoseconds and the wall cycles that pass before it, and who acts. -/
structure Turn where
  ns : Nat
  cyc : Nat
  who : Agent
  deriving DecidableEq, Repr, Inhabited

namespace Config

/-- The agent that acts next when the agenda is empty: the spec fixes no order of agents (log 1). -/
opaque turn : Nat → Turn

/-- A value the spec leaves open, by a counter that every use advances (log 10). -/
opaque freeNat : Nat → Nat

/-- AES-256-GCM of R373: key, nonce, authenticated bytes and plain text to cipher text and tag. -/
opaque aesSeal : List Byte → BitVec 96 → List Byte → List Byte → List Byte × BitVec 128

/-- AES-256-GCM opening: key, nonce, authenticated bytes, cipher text and tag to the plain text, or none. -/
opaque aesOpen : List Byte → BitVec 96 → List Byte → List Byte → BitVec 128 → Option (List Byte)

/-- SHA-512 of a byte string (R389, R390). -/
opaque sha512 : List Byte → List Byte

/-- Ed25519 verification (R389): public key, message, signature. -/
opaque edVerify : List Byte → List Byte → List Byte → Bool

/-- Ed25519 signing with the module's identity key (R390), whose seed no rule makes readable. -/
opaque edSign : List Byte → List Byte

/-- The device certificate chain in a slot (R390). -/
opaque certificate : Nat → List Byte

/-- The four root keys fused at manufacture (R389), the boot ROM and the firmware image that the machine came up with
(R388, R390). -/
opaque rootKey : Nat → List Byte
opaque bootRom : List Byte
opaque bootImage : List Byte

/-- Has system software enabled a namespace of a storage port for a region (R230)?  By port, namespace and RCB. -/
opaque nvmeEnabled : Nat → Nat → Nat → Bool

/-- The LBA size of a namespace of a storage port, in bytes, less one (R230): the device's own. -/
opaque lbaBytesPred : Nat → Nat → Nat

/-- A controller's maximum transfer in blocks, less one (R289): the device's own. -/
opaque maxBlocksPred : Nat → Nat

/-- How many commands the I/O queues that firmware created on a storage port hold, before it is brought below 64 pairs of depth 1,024
(R289). -/
opaque nvmeRoom : Nat → Nat

/-- Is there no package with an id of the domain (R381)?  What bring-up finds. -/
opaque absent : Nat → Bool

/-- The CRC and FEC of the 2,128 bytes before them in a frame (R363): the spec names no code. -/
opaque fec : List Byte → List Byte

end Config

end Sys2Proof
end

