-- ==== Sys2Proof/Machine/Tab.lean ====
section
/-!
DEFINITION. Keyed tables as plain data: a list of (key, value) pairs, kept in rising order of key.
-/

namespace Sys2Proof.Machine

/-- A table keyed by a number. -/
abbrev Tab (α : Type) := List (Nat × α)

/-- The value at a key. -/
def tget {α : Type} : List (Nat × α) → Nat → Option α
  | [], _ => none
  | (k, v) :: t, x => if x = k then some v else tget t x

/-- The value at a key, or a default. -/
def tgetD {α : Type} (t : List (Nat × α)) (x : Nat) (d : α) : α := (tget t x).getD d

/-- The table with a value put at a key. -/
def tput {α : Type} : List (Nat × α) → Nat → α → List (Nat × α)
  | [], x, v => [(x, v)]
  | (k, w) :: t, x, v =>
    if x < k then (x, v) :: (k, w) :: t
    else if x = k then (x, v) :: t
    else (k, w) :: tput t x v

/-- The table without a key. -/
def tdel {α : Type} (t : List (Nat × α)) (x : Nat) : List (Nat × α) := t.filter (fun p => p.1 != x)

/-- The value at a key changed, where there is one. -/
def tmod {α : Type} (t : List (Nat × α)) (x : Nat) (f : α → α) : List (Nat × α) :=
  t.map (fun p => if p.1 = x then (p.1, f p.2) else p)

/-- Does the table hold a key? -/
def thas {α : Type} (t : List (Nat × α)) (x : Nat) : Bool := (tget t x).isSome

/-- The lowest number below a bound that is no key of the table. -/
def tfree {α : Type} (t : List (Nat × α)) (bound : Nat) : Option Nat :=
  (List.range bound).find? (fun k => !thas t k)

/-- Values at consecutive keys from k on, as a table. -/
def bytesAt {α : Type} (k : Nat) (l : List α) : List (Nat × α) := l.zipIdx.map (fun p => (k + p.2, p.1))

/-- The table with values put at consecutive keys from k on, without those at n such keys, and whether it holds n such keys. -/
def tputs {α : Type} (t : List (Nat × α)) (k : Nat) (l : List α) : List (Nat × α) :=
  t.filter (fun p => p.1 < k) ++ bytesAt k l ++ t.filter (fun p => k + l.length ≤ p.1)
def tdels {α : Type} (t : List (Nat × α)) (k n : Nat) : List (Nat × α) := t.filter (fun p => p.1 < k || k + n ≤ p.1)
def thasAll {α : Type} (t : List (Nat × α)) (k n : Nat) : Bool := (List.range n).all (fun i => thas t (k + i))

/-- The values at n consecutive keys. -/
def tgets {α : Type} (t : List (Nat × α)) (k n : Nat) (d : α) : List α := (List.range n).map (fun i => tgetD t (k + i) d)

/-- The element of a list at an index, or a default. -/
def at' {α : Type} (l : List α) (i : Nat) (d : α) : α := (l[i]?).getD d

end Sys2Proof.Machine
end

