-- ==== Sys2Proof/Machine/State.lean ====
section
/-!
DEFINITION. The state of one VGK4-M1 module: everything the spec names, as plain data, and its value after reset.
-/

namespace Sys2Proof.Machine

/-! ## Level 1 and 2: a kernel run and its cores -/

/-- One register of every core of a group: the 16G group lanes in order, word L of core c at 16c + L (R66, R150). -/
abbrev Row := List W32

/-- One predicate, or one write mask, of every core of a group (R68). -/
abbrev Mask := List Bool

/-- Who issued a scoreboard entry (R166): a task, by its future, or a message or system context of the SC. -/
inductive Owner where
  | task (fut : Nat)
  | ctx (c : Nat)
  deriving DecidableEq, Repr, Inhabited

/-- Where a kernel run stands (R14, R28, R174). -/
inductive RunPhase where
  | waiting
  | running
  | saved
  | retired
  deriving DecidableEq, Repr, Inhabited

/-- A claimed TOM slot (R70): its tag and its lines; a line not listed is zero. -/
structure TomSlot where
  tag : Nat := 0
  lines : Tab Row := []
  deriving DecidableEq, Repr, Inhabited

/-- An allocated AM bank (R73): its mode, FP32 rows or part-sum container rows (not listed: zero), and OVF per core. -/
structure Bank where
  part : Bool := false
  rows : Tab Row := []
  cells : Tab (List Word) := []
  ovf : List Nat := []
  deriving DecidableEq, Repr, Inhabited

/-- A set of weights or of permutation tables (R76, R120, R135): the format code of R71 and the slots it was read from,
as they stood. -/
structure Weights where
  fmt : Nat := 0
  rowMajor : Bool := false
  area : List (Tab Row) := []
  deriving DecidableEq, Repr, Inhabited

/-- The passes of R124 and R140. -/
inductive PassOp where
  | acc
  | zero
  | neg
  | half
  deriving DecidableEq, Repr, Inhabited

/-- A pass in the queue: the next row, the rows still to enter and the next output row (R124, R140). -/
structure Pass where
  parts : Bool := false
  op : PassOp := .acc
  bank : Nat := 0
  m : Nat := 0
  row : Nat := 0
  left : Nat := 0
  q : Nat := 0
  deriving DecidableEq, Repr, Inhabited

/-- A row that has entered and is not yet visible: its column sums in every core (R130, R149) and the cycles left. -/
structure FlyRow where
  n : Nat := 0
  parts : Bool := false
  op : PassOp := .acc
  bank : Nat := 0
  q : Nat := 0
  cap : Nat := 4
  sums : List (List Int) := []
  deriving DecidableEq, Repr, Inhabited

/-- What a result in flight does when it lands (R17, R29, R75). -/
inductive Effect where
  | reg (d : Nat) (v : Row) (mask : Mask)
  | pred (d : Nat) (v mask : Mask)
  | line (m i : Nat) (v : Row) (tag : Option Nat)
  | claim (m : Nat)
  | release (m : Nat)
  | alloc (k : Nat) (part : Bool)
  | free (k : Nat)
  | clear (k : Nat)
  | clearOvf (k : Nat)
  | bankRows (k : Nat) (v : Tab Row)
  | amRow (k r : Nat) (v : Row)
  deriving DecidableEq, Repr, Inhabited

/-- A result in flight with its remaining count (R29). -/
structure Pend where
  n : Nat := 0
  eff : Effect := .free 0
  deriving DecidableEq, Repr, Inhabited

/-- The directions of a stream port (R23). -/
inductive Dir where
  | unused
  | inp
  | out
  deriving DecidableEq, Repr, Inhabited

/-- A stream port of a run (R23, R152).  The stream holds the pointers.  `written` lists the positions a plain push has
written and not published (R155). -/
structure Port where
  dir : Dir := .unused
  stream : Nat := 0
  gran : Nat := 1
  occ : Nat := 0
  u : Nat := 0
  staging : List W32 := []
  n : Nat := 0
  cr : Nat := 0
  r : Nat := 0
  f : Nat := 0
  written : List Nat := []
  deriving DecidableEq, Repr, Inhabited

/-- A kernel run (R14), waiting, running, saved or retired.  Its group state is discarded at retirement; its return
queues stay (R26).  The last block is the model's own: the bundle being issued. -/
structure Run where
  phase : RunPhase := .retired
  owner : Owner := .ctx 0
  tag : Nat := 0
  dbg : Bool := false
  cls : Nat := 0
  pthr : Nat := 0
  kernel : Nat := 0
  gen : Nat := 0
  placed : Bool := false
  first : Nat := 0
  g : Nat := 4
  seq : Nat := 0
  args : List W32 := []
  tomN : Nat := 0
  amMax : Nat := 0
  pc : Nat := 0
  idle : Nat := 0
  halted : Bool := false
  lc : Tab W32 := []
  regs : Tab Row := []
  preds : Tab Mask := []
  latches : Tab Row := []
  slots : Tab TomSlot := []
  banks : Tab Bank := []
  active : Weights := {}
  shadow : Weights := {}
  passes : List Pass := []
  fly : List FlyRow := []
  drain : Bool := false
  tovr : Bool := false
  tmis : Bool := false
  /-- Wall cycles that a background weight read has left, and those of the one the bundle being issued starts (R123). -/
  tldx : Nat := 0
  newTldx : Option Nat := none
  pend : List Pend := []
  rq : Tab (List W32) := []
  ports : Tab Port := []
  dbgBits : Tab Mask := []
  /-- The run it was pre-empted by, while saved; whether it has itself pre-empted one (R334). -/
  by' : Option Nat := none
  preemptor : Bool := false
  /-- Marked for pre-emption at its next bundle boundary (R334), or to stop there under reclamation (R33). -/
  preempt : Bool := false
  stop : Bool := false
  /-- The TB at which a waiting run began to meet R334, and the runs it pre-empts. -/
  since : Option Nat := none
  /-- Wall cycles spent; whether the next bundle has paid its fixed stalls (R20). -/
  wall : Nat := 0
  paid : Bool := false
  bundle : List W32 := []
  next : Nat := 0
  stall : Bool := false
  faults : List (Nat × Nat) := []
  marks : List (Nat × Mask) := []
  newActive : Option Weights := none
  newDrain : Bool := false
  newClr : Bool := false
  /-- The row of this cycle has entered the array. -/
  entered : Bool := false
  snapQ : Nat := 0
  snapOvr : Bool := false
  snapMis : Bool := false
  deriving DecidableEq, Repr, Inhabited

/-! ## Level 3: a stream cluster -/

/-- An SRF stream (R150, R151, R178): the pointers of both ends, its length, and its blocks by ring index (not listed:
zero). -/
structure Stream where
  first : Nat := 0
  g : Nat := 4
  units : Nat := 1
  off : Nat := 0
  rp : Nat := 0
  wp : Nat := 0
  len : Nat := 0
  derr : Nat := 0
  data : Tab Row := []
  owner : Owner := .ctx 0
  /-- Charge to the region budget it was taken from (R178). -/
  region : Nat := 0
  /-- Its task has ended or been reclaimed: free it once its last entry retires (R179). -/
  dying : Bool := false
  deriving DecidableEq, Repr, Inhabited

/-- A kernel image in the kernel store (R65, R177, R219). -/
structure Image where
  count : Nat := 0
  gen : Nat := 0
  header : List Byte := []
  bundles : List (List W32) := []
  freed : Bool := false
  deriving DecidableEq, Repr, Inhabited

/-- A tensor record as read at issue (R180). -/
structure Rec where
  addr : Nat := 0
  base : Nat := 0
  fmt : Nat := 0
  rank : Nat := 0
  flags : Nat := 0
  eb : Nat := 0
  dims : List Nat := []
  strides : List Int := []
  start : List Int := []
  count : List Nat := []
  seed : Nat := 0
  exp : Nat := 0
  flag : Nat := 0
  deriving DecidableEq, Repr, Inhabited

/-- One side of a job's data: a record's window, a stream, or a byte range (R211, R229). -/
inductive Side where
  | win (r : Rec)
  | str (d : Nat)
  | range (lo n : Nat)
  deriving DecidableEq, Repr, Inhabited

/-- A handler arrival a remote operation carries (R167, R232). -/
structure Handler where
  sc : Nat := 0
  pc : Nat := 0
  arg : Nat := 0
  deriving DecidableEq, Repr, Inhabited

/-- The remote half of a remote operation (R231-R233). -/
structure Remote where
  addr : Nat := 0
  flag : Nat := 0
  ord : Bool := false
  op : Nat := 0
  ty : Nat := 0
  value : Nat := 0
  handler : Option Handler := none
  deriving DecidableEq, Repr, Inhabited

/-- What a scoreboard entry does once started. -/
inductive Work where
  | run
  | sfree (d : Nat)
  | sreset (d : Nat)
  | fill (d : Nat) (v : W32) (keep : Bool) (n : Nat)
  | load (r : Rec) (d : Nat) (e : Option Nat)
  | store (r : Rec) (d : Nat) (e : Option Nat)
  | gather (r : Rec) (d i n : Nat)
  | scatter (r : Rec) (d i n : Nat)
  | copy (src dst : Side) (bytes : Nat)
  | acc (src : Side) (dst : Rec) (op : Nat)
  | casStream (src : Nat) (dst : Rec) (out op : Nat)
  | casReg (reg va tc op : Nat) (x y : Word)
  | scadd (r : Rec) (d i n op : Nat)
  | quant (src dst : Rec)
  | dequant (src dst : Rec)
  | decomp (va n d tags : Nat) (w32 : Bool)
  | nvme (port ns lba count status lbaBytes : Nat) (dst : Side)
  | rput (src : Side) (bytes : Nat) (r : Remote)
  | rget (dst : Side) (bytes : Nat) (r : Remote)
  | racc (src : Side) (bytes : Nat) (r : Remote)
  | rsig (r : Remote)
  deriving DecidableEq, Repr, Inhabited

/-- Where an entry stands (R169, R174): retired ones hold a job until they complete. -/
inductive EState where
  | waiting
  | started
  | retired
  deriving DecidableEq, Repr, Inhabited

/-- A footprint: a byte range of virtual addresses and whether it is written (R173). -/
structure Foot where
  lo : Nat := 0
  hi : Nat := 0
  write : Bool := false
  deriving DecidableEq, Repr, Inhabited

/-- A pin record: the ASID and byte hull a job's translation may not change under (R281). -/
structure Pin where
  asid : Nat := 0
  lo : Nat := 0
  hi : Nat := 0
  deriving DecidableEq, Repr, Inhabited

/-- A stream end: the descriptor and whether it is the producer's (R168). -/
structure End' where
  d : Nat := 0
  prod : Bool := false
  deriving DecidableEq, Repr, Inhabited

/-- A scoreboard entry and its job (R168-R174).  `retire` and `start` are the entries that must have retired or started
before it starts (R170, R172).  `done` and `idone` count what has been read and written, `remote` holds the operations not
acknowledged, `fails` the failed storage commands. -/
structure Entry where
  id : Nat := 0
  slot : Nat := 0
  owner : Owner := .ctx 0
  st : EState := .waiting
  work : Work := .run
  ends : List End' := []
  foots : List Foot := []
  classes : Nat := 0
  retire : List Nat := []
  start : List Nat := []
  pins : List Pin := []
  /-- The PTB its accesses translate under, once written (R271). -/
  ptb : Option Word := none
  flag : Option Nat := none
  done : Nat := 0
  idone : Nat := 0
  /-- The parts of its windows, which move in no stated order (R309): those that have been read and written, each by its first byte,
  and the bytes between, by their place. -/
  seen : List Nat := []
  wrote : List Nat := []
  mid : Tab Byte := []
  /-- The index words it has read (R217). -/
  idx : List Nat := []
  /-- The same for a second side of the job: exponents (R216), old values (R227), or what a transform has made (R228). -/
  xdone : Nat := 0
  xput : Nat := 0
  xseen : List Nat := []
  xwrote : List Nat := []
  xmid : Tab Byte := []
  /-- The storage commands that have completed (R230), by number. -/
  parts : Tab Unit := []
  sent : Bool := false
  remote : List Nat := []
  fails : List (Nat × Nat) := []
  /-- Its place in the order of issue of the package (R233). -/
  seq : Nat := 0
  /-- The TB at which each of its storage commands was sent (R289). -/
  since : Tab Nat := []
  /-- Bytes that have come from other packages for its next step, by address (R276). -/
  far : Tab Byte := []
  deriving DecidableEq, Repr, Inhabited

/-- Context states (R165, R205).  A TRAPPED context is in the SC's trap queue or handed to a system context. -/
inductive CtxSt where
  | free
  | ready
  | blocked
  | trapped
  deriving DecidableEq, Repr, Inhabited

/-- A barrier membership (R253): the handle, the PHASE before the last arrival, and DROPPED. -/
structure Member where
  h : Nat := 0
  phase : Nat := 0
  dropped : Bool := false
  deriving DecidableEq, Repr, Inhabited

/-- A translation (R272, R277): the page's first VA, its size code, physical address and permissions. -/
structure Xlat where
  va : Nat := 0
  size : Nat := 0
  pa : Nat := 0
  dup : Bool := false
  sysatom : Bool := false
  comp : Bool := false
  uc : Bool := false
  x : Bool := false
  w : Bool := false
  r : Bool := false
  deriving DecidableEq, Repr, Inhabited

/-- What a BLOCKED context waits for (R165). -/
inductive Wait where
  /-- Scoreboard room (R169). -/
  | room
  /-- An entry in the return queue of core `c` of a run, or the run's retirement (R221). -/
  | krq (run c : Nat)
  /-- Entries retired (R222, R223), or completed (R223). -/
  | retired (ids : List Nat)
  | complete (ids : List Nat)
  /-- The context's own loads and stores performed, for a release, or entries completed as well (R206, R304). -/
  | settled (ids : List Nat)
  /-- The same in a FENCE (R202), in FRET or FRETF with the status and result it ends with (R246), and in an FSIG (R261). -/
  | fence (ids : List Nat)
  | ending (ids : List Nat) (status : Nat) (result : Word)
  | early (ids : List Nat) (n : Nat)
  /-- A register an SCAS or an uncached load has yet to fill (R188, R315). -/
  | filled (reg : Nat)
  /-- The end of a future (R244). -/
  | future (h : Nat)
  /-- A barrier's PHASE to differ from `p` (R252). -/
  | phase (h p : Nat)
  /-- A flag word at a local address to reach a threshold; `met` once a comparison has held (R255, R256). -/
  | flag (pa thr : Nat) (met : Bool)
  /-- No pin of an ASID over a virtual address, or any (R277). -/
  | pins (asid : Nat) (va : Option Nat)
  /-- Its operation on the page of a DUP record is the first of the page's, and no pin is left over the block it unmaps (R340, R343). -/
  | page (i : Nat)
  /-- A tag of a base-die port (R315). -/
  | tag (port stack : Nat)
  /-- The same in an LDM or STM that has begun: its registers and translations left to move, and the instruction's word, which is
  not fetched again (R201, R315). -/
  | parts (port stack : Nat) (rest : List (Nat × Xlat)) (w : W32)
  /-- The commit of range registers that it has issued itself (R279). -/
  | commit
  /-- In a stream instruction, the commits that change the translation of a 64 KiB chunk it touches (R279). -/
  | touched (chunks : List Nat)
  /-- The registers of another context of its SC that have yet to be filled (R188, R207, R315). -/
  | filledOf (c : Nat)
  deriving DecidableEq, Repr, Inhabited

/-- One hardware context of a control core (R164, R190-R194). -/
structure Ctx where
  st : CtxSt := .free
  g : Tab Word := []
  unfilled : List Nat := []
  h : Tab Nat := []
  pc : Word := 0
  tix : Word := 0
  tcnt : Word := 0
  fut : Word := 0
  rcb : Word := 0
  dln : Word := 0
  bud : Word := 0
  lodc : Word := 0
  tcause : Word := 0
  tpc : Word := 0
  tval : Word := 0
  /-- STATUS.OWNER (R193). -/
  owner : Nat := 31
  scr0 : Word := 0
  scr1 : Word := 0
  /-- Asynchronous traps not yet taken: cause and TVAL (R34, R203). -/
  apend : List (Nat × Word) := []
  members : List Member := []
  /-- Spawns held by a message or system context (R241). -/
  kids : List Nat := []
  wait : Option Wait := none
  /-- A PAUSE: 0 none, 1 elapsed, n + 1 with n wall cycles left (R202). -/
  pause : Nat := 0
  /-- SBAR orders: the mask, and the entry number that the next entry had (R172). -/
  sbars : List (Nat × Nat) := []
  /-- PORTCTL.PORT of a system context (R355). -/
  portSel : Nat := 0
  deriving DecidableEq, Repr, Inhabited

/-- An arrival that names a handler (R167). -/
structure Arrival where
  pc : Word := 0
  arg : Word := 0
  src : Nat := 0
  deriving DecidableEq, Repr, Inhabited

/-- A barrier entry (R250, R252). -/
structure Barrier where
  used : Bool := false
  gen : Nat := 0
  exp : Nat := 0
  arr : Nat := 0
  phase : Nat := 0
  drops : Nat := 0
  deriving DecidableEq, Repr, Inhabited

/-- A line of an SC data cache: its bytes and which of its two sectors are dirty (R396). -/
structure Line where
  data : List Byte := []
  d0 : Bool := false
  d1 : Bool := false
  deriving DecidableEq, Repr, Inhabited

/-- A stream cluster (R163). -/
structure Sc where
  ctxs : Tab Ctx := []
  /-- The context that issued last (R165). -/
  last : Nat := 19
  ptb : Word := 0
  ptbSet : Bool := false
  tvec : Word := 0
  tvecSet : Bool := false
  ksp : Word := 0
  trapQ : List Nat := []
  /-- Contexts that wait for a base-die tag, in the order they blocked, with the stack (R315). -/
  tagQ : List (Nat × Nat) := []
  /-- The control core has stopped issuing (R205). -/
  stopped : Bool := false
  arrivals : List Arrival := []
  entries : List Entry := []
  nextEntry : Nat := 0
  streams : Tab Stream := []
  images : Tab Image := []
  kgen : Nat := 0
  /-- The tensor-record cache, most recently used first (R186). -/
  recs : List (Nat × List Byte) := []
  runs : Tab Run := []
  bars : Tab Barrier := []
  lines : Tab Line := []
  /-- TLB entries with their ASID, most recently used first (R280). -/
  tlb : List (Nat × Xlat) := []
  deriving DecidableEq, Repr, Inhabited

/-! ## Futures, graphs, queues and regions (12, 18) -/

/-- Future states (R237). -/
inductive FutSt where
  | free
  | ready
  | running
  | done
  | faulted
  | reclaimed
  deriving DecidableEq, Repr, Inhabited

/-- Who holds the reference made at a spawn (R237, R241): a task by its handle, or a message or system context. -/
inductive Holder where
  | nobody
  | task (h : Nat)
  | ctx (sc c : Nat)
  deriving DecidableEq, Repr, Inhabited

/-- A future table entry (R237) and what a task of it starts with (R241, R327). -/
structure Fut where
  st : FutSt := .free
  gen : Nat := 0
  count : Nat := 0
  parent : Holder := .nobody
  kids : List Nat := []
  held : Bool := false
  result : Word := 0
  status : Nat := 0
  entry : Word := 0
  arg : Word := 0
  args : List Word := []
  rcb : Nat := 0
  tix : Nat := 0
  tcnt : Nat := 1
  hint : Option Nat := none
  launch : Option Nat := none
  node : Option (Nat × Nat) := none
  graph : Bool := false
  /-- SRF units reserved at dispatch and not drawn (R325), and whether a context is charged. -/
  psrf : Nat := 0
  charged : Bool := false
  unlimited : Bool := false
  seq : Nat := 0
  /-- Where it runs or is bound to: its SC once dispatched (R166). -/
  sc : Option Nat := none
  deriving DecidableEq, Repr, Inhabited

/-- A descheduled task: its SC and its context (R166). -/
structure Sleeper where
  sc : Nat := 0
  ctx : Ctx := {}
  deriving DecidableEq, Repr, Inhabited

/-- A ready slice of an existing future (R330). -/
structure Slice where
  fut : Nat := 0
  deadline : Nat := 0
  budget : Nat := 0
  deriving DecidableEq, Repr, Inhabited

/-- A resident region (R323-R325): its own fields, its parent, and what its pools have given out. -/
structure Region where
  parent : Nat := 0
  ovr : Nat := 0
  prio : Nat := 0
  regid : Nat := 0
  srfb : Nat := 0
  ctxb : Nat := 0
  mask : Nat := 0
  slice : Nat := 0
  window : Nat := 0
  pthr : Nat := 0
  hpc : Nat := 0
  harg : Nat := 0
  fdom : Nat := 0
  srfUsed : Nat := 0
  ctxUsed : Nat := 0
  /-- The hubs whose region tables hold it (R324). -/
  hubs : List Nat := []
  deriving DecidableEq, Repr, Inhabited

/-- Effects in motion of a task that ended without waiting for them (R206, R247, R248): its entries on an SC and its uncached
accesses. -/
structure Motion where
  sc : Nat := 0
  ids : List Nat := []
  pkts : List Nat := []
  deriving DecidableEq, Repr, Inhabited

/-- An accepted launch (R320, R327, R335). -/
structure Launch where
  queue : Nat := 0
  graph : Bool := false
  count : Nat := 0
  next : Nat := 0
  entry : Word := 0
  arg : Word := 0
  rcb : Nat := 0
  deadline : Nat := 0
  slice : Nat := 0
  psrf : Nat := 0
  pctx : Nat := 0
  hint : Option Nat := none
  flag : Nat := 0
  value : Nat := 0
  seq : Nat := 0
  t0 : Nat := 0
  /-- Tasks that hold a context; tasks that have ended, and how. -/
  running : Nat := 0
  ended : Nat := 0
  done : Nat := 0
  lost : Nat := 0
  faulted : Nat := 0
  firstLost : Option Nat := none
  firstFault : Option Nat := none
  gfut : Option Nat := none
  /-- What its completion block still waits for (R335). -/
  motion : List Motion := []
  deriving DecidableEq, Repr, Inhabited

/-- A work queue (R318). -/
structure Queue where
  base : Word := 0
  en : Bool := false
  log2 : Nat := 0
  tail : Nat := 0
  head : Nat := 0
  infl : Nat := 0
  ref : Bool := false
  last : Nat := 0
  /-- REF was set in this wall cycle (R13; the model's own). -/
  fresh : Bool := false
  deriving DecidableEq, Repr, Inhabited

/-- Node states. -/
inductive NodeSt where
  | idle
  | running
  | ended
  deriving DecidableEq, Repr, Inhabited

/-- A resident graph node (R258-R260). -/
structure Node where
  kind : Nat := 5
  xop : Nat := 0
  ndep : Nat := 0
  e0 : List Nat := []
  e1 : List Nat := []
  cap : Nat := 0
  p0 : Nat := 0
  p1 : Nat := 0
  st : NodeSt := .idle
  ctr : Nat := 0
  /-- The wall cycle in which its counter reached zero (R328). -/
  zeroAt : Nat := 0
  poisoned : Bool := false
  normal : Bool := false
  sent : List Nat := []
  iters : Nat := 0
  fut : Option Nat := none
  /-- The STATUS it ended with: R242's codes, or the cause of an issue trap or of a word that does not translate (R259). -/
  status : Nat := 0
  /-- The SC and number of each entry a TRANSFORM node issued (R259). -/
  jobs : List (Nat × Nat) := []
  deriving DecidableEq, Repr, Inhabited

/-- A resident graph (R257). -/
structure Graph where
  nodes : List Node := []
  flag : Nat := 0
  fut : Nat := 0
  rcb : Nat := 0
  sc : Nat := 0
  faulted : Nat := 0
  launch : Option Nat := none
  /-- What its completion flag still waits for (R259). -/
  motion : List Motion := []
  deriving DecidableEq, Repr, Inhabited

/-! ## Memory base dies (14, 15) -/

/-- Who waits for a reply of a base die (R284, R311, R315): a register of an owner's context, or a host through a port. -/
inductive Requester where
  | none
  | host (port bytes : Nat)
  | reg (sc : Nat) (o : Owner) (reg bytes : Nat) (signed : Bool)
  deriving DecidableEq, Repr, Inhabited

/-- The request types of R283. -/
inductive PktType where
  | read
  | write
  | masked
  | acc
  deriving DecidableEq, Repr, Inhabited

/-- A request packet and, once performed, its reply (R283, R284).  `off` is the byte offset of the 64-byte unit within
the stack. -/
structure Packet where
  stack : Nat := 0
  port : Nat := 0
  tag : Nat := 0
  ty : PktType := .read
  off : Nat := 0
  big : Bool := false
  sec : Nat := 0
  mask : List Bool := []
  fmt : Nat := 0
  op : Nat := 0
  data : List Byte := []
  comp : List Byte := []
  who : Requester := .none
  /-- Who sent it; context 31 stands for an owner that is no more, and for another agent. -/
  owner : Owner := .ctx 31
  /-- An LD.acq's (R200). -/
  acq : Bool := false
  done : Bool := false
  status : Nat := 0
  reply : List Byte := []
  deriving DecidableEq, Repr, Inhabited

/-! ## The fabric (20) -/

/-- The session of a package with a peer (R373, R374, R383): keys and IV counter of each direction. -/
structure Session where
  txKey : List Byte := []
  rxKey : List Byte := []
  oldKey : List Byte := []
  /-- The FTB until which frames under the old key are accepted. -/
  oldUntil : Nat := 0
  iv : Nat := 0
  high : Nat := 0
  seen : List Nat := []
  /-- The same window for the old key. -/
  oldHigh : Nat := 0
  oldSeen : List Nat := []
  fails : List Nat := []
  failed : Bool := false
  txFlow : Nat := 0
  rxFlow : Nat := 0
  nextOp : Nat := 0
  deriving DecidableEq, Repr, Inhabited

/-- A frame in a gateway's transport queue (R368, R370): where it goes this slot, if anywhere. -/
structure QFrame where
  frame : Frame := default
  /-- The TB at which it was ready (R370). -/
  ready : Nat := 0
  /-- It goes to a relay (RELAY = 1); the half in whose relay store this package held it. -/
  relayed : Bool := false
  held : Option Nat := none
  slot : Nat := 0
  lane : Nat := 0
  assigned : Bool := false
  deriving DecidableEq, Repr, Inhabited

/-- One matched lane in the current slot (R367, R369). -/
structure Link where
  partner : Nat := 0
  pos : Nat := 0
  lseq : Nat := 0
  sent : List (Nat × Hop × QFrame) := []
  acked : Nat := 0
  resend : List Nat := []
  /-- The position each LSEQ was last sent at. -/
  sentAt : Tab Nat := []
  txTab : Tab Frame := []
  rxTab : Tab Frame := []
  expect : Nat := 0
  nack : Bool := false
  liveidx : Nat := 0
  valid : Bool := false
  deriving DecidableEq, Repr, Inhabited

/-- What a link has delivered: a frame for this package, or one to relay (R371). -/
inductive RxItem where
  | frame (f : Frame)
  | relay (lane : Nat) (f : Frame)
  deriving DecidableEq, Repr, Inhabited

/-- An operation sent and not yet acknowledged (R376): who issued it, its stored frames and how often it was sent. -/
structure RemoteOp where
  sc : Nat := 0
  entry : Nat := 0
  frames : List Frame := []
  sends : Nat := 0
  since : Nat := 0
  get : Bool := false
  /-- Bytes of an RGET that have arrived, by offset. -/
  got : Tab Byte := []
  acked : Bool := false
  /-- The address that a get for a stream agent or copy engine reads (R276). -/
  far : Option Nat := none
  deriving DecidableEq, Repr, Inhabited

/-- An operation arriving here (R375, R378).  `expect`: it has a descriptor frame.  `parts` are the frames that came before it. -/
structure InOp where
  bytes : Nat := 0
  expect : Bool := false
  desc : Option (List Byte) := none
  parts : List (Frame × List Byte) := []
  rejected : Bool := false
  finished : Bool := false
  first : Frame := default
  deriving DecidableEq, Repr, Inhabited

/-- A handler arrival that the hub holds while its SC's queue is full, and the operation to acknowledge once it has entered
(R167, R375). -/
structure HeldArrival where
  sc : Nat := 0
  arrival : Arrival := {}
  ack : Option (Nat × Nat) := none
  deriving DecidableEq, Repr, Inhabited

/-- An access by an agent of bytes on another package (R276): a put or an accumulation of an op and a type. -/
structure FarOp where
  pa : Nat := 0
  acc : Option (Nat × Nat) := none
  data : List Byte := []
  deriving DecidableEq, Repr, Inhabited

/-- What leaves the module: replies to the host, frames on a lane, SPDM answers. -/
inductive Out where
  | host (port : Nat) (status : Nat) (data : List Byte)
  | snoop (line : Nat) (inv : Bool)
  /-- The 2,176 bytes of a frame on a lane (R363). -/
  | frame (lane : Nat) (bytes : List Byte)
  | spdm (body : List Byte)
  | config (port reg : Nat)
  /-- A block of a read-duplicate page on its way to another holder's copy (R345, R346). -/
  | block (pkg lo : Nat) (data : List Byte)
  /-- This package's part of the operation in progress on the read-duplicate page of a frame is done (R340, R342). -/
  | partDone (frame : Nat)
  deriving DecidableEq, Repr, Inhabited

/-- The topology registers (R352), with the stacks the address map was built over at boot (R268, R353). -/
structure Topo where
  split : Bool := false
  acthost : Bool := false
  /-- Live halves; the memory a half that is not live offers is 0 (R354). -/
  halves : BitVec 2 := 3
  stks : BitVec 8 := 255
  dies : BitVec 8 := 255
  brg : BitVec 2 := 3
  lanes : BitVec 48 := 0xFFFFFFFFFFFF
  cores : List (BitVec 16) := List.replicate 16 0xFFFF
  bootStacks : BitVec 8 := 255
  deriving DecidableEq, Repr, Inhabited

/-- An early signal that a reclaimed task had under way (R248): what it still waits for, and the edges of a node. -/
structure Late where
  sc : Nat := 0
  ids : List Nat := []
  pkts : List Nat := []
  graph : Nat := 0
  node : Nat := 0
  es : List Nat := []
  deriving DecidableEq, Repr, Inhabited

/-- The flag of a graph that is DONE, or the completion of its launch, once every effect of its nodes is visible (R259, R335):
the graph's flag and SC, and the launch with the graph's future and RESULT. -/
structure Owed where
  motion : List Motion := []
  flag : Nat := 0
  sc : Nat := 0
  launch : Option Nat := none
  fut : Nat := 0
  result : Nat := 0
  deriving DecidableEq, Repr, Inhabited

/-- Port lock states (R355). -/
inductive LockSt where
  | unlocked
  | locked
  | run
  | error
  deriving DecidableEq, Repr, Inhabited

/-- Management state (R388-R395). -/
structure Mgmt where
  hlth : Word := 0
  /-- The bits of HLTH set in this wall cycle (R13; the model's own). -/
  fresh : Word := 0
  mw : Nat := 0
  plim : Nat := 3200
  temp : Nat := 0
  tthr : Nat := 95
  steps : List Nat := List.replicate 8 0
  /-- Why each of a die's steps was taken, the last first: for power, for temperature (R395). -/
  why : List (List (Bool × Bool)) := List.replicate 8 []
  /-- The TB since which every sample has been far enough below its limits (R393). -/
  calm : Option Nat := none
  /-- Dies on which no kernel run starts until the power, and until the temperature, is within its limit (R393). -/
  heldPower : List Nat := []
  heldTemp : List Nat := []
  /-- The thermal trip has acted (R394), or the boot has stopped (R388). -/
  tripped : Bool := false
  dead : Bool := false
  minSvn : Nat := 0
  revoked : List Nat := []
  /-- What measurements 2, 3 and 4 cover (R390): an image accepted since, the calendar at the last lane lock, and the topology
  registers as boot set them. -/
  image : Option (List Byte) := none
  calendar : Option (List Byte) := none
  topo0 : Topo := {}
  /-- The harvest in the module's identity (R353). -/
  harvest : Topo := {}
  /-- The HLTH of a minor half after a split (R354). -/
  minorHlth : Word := 0
  /-- The TB at which the half 0 host link went down (R351). -/
  hostDown : Option Nat := none
  /-- The TB of the last power sample (R393). -/
  sampled : Option Nat := none
  deriving DecidableEq, Repr, Inhabited

/-- The fabric gateway (R357-R384). -/
structure Fabric where
  /-- One more than the slot whose links are set up; 0 between payload windows.  `begun`: one more than the last slot that began. -/
  slot : Nat := 0
  begun : Nat := 0
  /-- The cycle from which on nothing valid has come from a package (R381). -/
  silent : Tab Nat := []
  fcfg : Word := 0
  fid : Word := 0
  fabctl : Word := 0
  keytab : Tab Nat := []
  fwin : Tab Word := []
  ctr : Tab Word := []
  dead : List Nat := []
  /-- The domain has been brought up, so ids with no package are dead (R381). -/
  up : Bool := false
  sessions : Tab Session := []
  queue : List QFrame := []
  links : Tab Link := []
  /-- The relay stores: the half that holds it and the frame, oldest first (R371). -/
  relay : List (Nat × Frame) := []
  /-- Received, in order, and not yet acted on. -/
  rx : List RxItem := []
  ops : Tab RemoteOp := []
  inops : Tab InOp := []
  early : List Frame := []
  farLanes : Tab (BitVec 48) := []
  farSpace : Tab Nat := []
  /-- The partners of a lane's last consecutive failed link-slots (R380). -/
  badSlots : Tab (List Nat) := []
  arrivals : List HeldArrival := []
  /-- The model's own, for the step of a job in progress (R276): bytes that have come for it, bytes it lacks, and its accesses of
  other packages. -/
  farGot : Tab Byte := []
  farMiss : List Nat := []
  farOps : List FarOp := []
  deriving DecidableEq, Repr, Inhabited

/-- What PSPLIT, POWN and PDUP do: the block, its new owner, whether the bytes are copied (R344-R346). -/
inductive DupAct where
  | split
  | own (b o : Nat)
  | dup (b : Nat) (copy : Bool)
  deriving DecidableEq, Repr, Inhabited

/-- An operation on a read-duplicate page (R342): by a context of an SC, or another holder's. -/
structure DupOp where
  who : Option (Nat × Nat) := none
  act : DupAct := .split
  deriving DecidableEq, Repr, Inhabited

/-- A read-duplicate page's directory state (R340): SPLIT, and the owner of each OWNED block; the operations on it in the order they
reached the home, and this package's that have yet to reach a home that is another; while the first waits for pins, its block and that
block's leaf as it was (R343); what has come for it from the owner of its block, a leaf and the bytes (R345, R346); whether this
package's part of the first is done; and the other holders that have said so of theirs, one entry for each operation (R340, R342). -/
structure DupPage where
  split : Bool := false
  owned : Tab Nat := []
  ops : List DupOp := []
  asked : List DupOp := []
  begun : Option (Nat × Nat) := none
  block : Option (Nat × List Byte) := none
  mine : Bool := false
  acks : List Nat := []
  deriving DecidableEq, Repr, Inhabited

/-- Who executes now: the cluster, the context or the run, and the syllable (the model's own cursor). -/
structure Cur where
  sc : Nat := 0
  ctx : Nat := 0
  run : Nat := 0
  syl : Nat := 0
  deriving DecidableEq, Repr, Inhabited

/-- The state of the module. -/
structure State where
  scs : Tab Sc := []
  /-- Memory by local address, in canonical form; an unlisted byte reads 0 (log 2). -/
  mem : List Host.Cell := []
  /-- Frame-map modes by stack * 2^20 + frame; tags by stack * 2^28 + block (R297). -/
  fmap : Tab Nat := []
  tags : Tab Nat := []
  /-- Sectors with an uncorrectable, or a correctable, error, by stack * 2^31 + sector (R285). -/
  ueSectors : List Nat := []
  ceSectors : List Nat := []
  /-- Stack counters by 8 * stack + k (R286), HOSTRMW by hub (R311), HOSTLOST (R351). -/
  ctr : Tab Word := []
  hostrmw : Tab Word := []
  hostlost : Word := 0
  /-- Request packets not yet replied to, by number (R283). -/
  pkts : Tab Packet := []
  nextPkt : Nat := 0
  /-- Range registers: staging of die d by 256 d + 4 r + w, live by 4 r + w (R274). -/
  rngStage : Tab Word := []
  rngLive : Tab Word := []
  /-- A RNGCOMMIT that waits: the SC and context that issued it (R279). -/
  committing : List (Nat × Nat) := []
  /-- The last-level TLB of each die, as an SC's (R280). -/
  dieTlb : Tab (List (Nat × Xlat)) := []
  futs : Tab Fut := []
  sleepers : Tab Sleeper := []
  slices : List Slice := []
  pbars : Tab Barrier := []
  graphs : Tab Graph := []
  nextGraph : Nat := 0
  late : List Late := []
  owed : List Owed := []
  queues : Tab Queue := []
  launches : Tab Launch := []
  nextLaunch : Nat := 0
  regions : Tab Region := []
  seq : Nat := 0
  /-- Fault-domain handlers that wait for a future: the victim's handle and TIX, and the handler's region (R333). -/
  handlers : List (Nat × Nat × Nat) := []
  drec : Tab Word := []
  /-- The SC that each die's DCE served last (R288). -/
  dceLast : Tab Nat := []
  dup : Tab DupPage := []
  topo : Topo := {}
  ports : Tab LockSt := []
  /-- Ports told to UNLOCK whose traffic in flight has yet to drain (R355). -/
  unlocking : List Nat := []
  mgmt : Mgmt := {}
  fab : Fabric := {}
  /-- Lines the host may hold: true when exclusive or modified, oldest grant first (R350). -/
  hostLines : List (Nat × Bool) := []
  /-- Back-invalidation snoops that await the host's answer (R350): the line, and whether it must give the line up. -/
  snoops : List (Nat × Bool) := []
  /-- Lines the turn in progress has met that the host holds (the model's own; empty between turns). -/
  hits : List (Nat × Bool) := []
  /-- Host atomics between their read and their write, with the value read (R311). -/
  hostRmw : List (HostReq × Nat) := []
  /-- TB = FTB in nanoseconds (R192, R358). -/
  tb : Nat := 0
  /-- Wall cycles passed, and the ranges of memory written at their homes in the present one (R255; the model's own). -/
  cycle : Nat := 0
  homeWrites : List (Nat × Nat) := []
  cur : Cur := {}
  agenda : List Turn := []
  turnNo : Nat := 0
  /-- The next free value (log 10). -/
  free : Nat := 0
  out : List Out := []
  deriving DecidableEq, Repr, Inhabited

/-- A fault: the machine stops with a reason.  The spec gives every failing access, operand and check a trap, a stream
fault, a status or a counted loss, all of which are next states, so there is none. -/
inductive Fault where
  deriving DecidableEq, Repr

/-- A refusal: the model has no meaning for the instruction. -/
inductive Refusal where
  /-- An arm of `exec` without a meaning, by its mnemonic.  Safe: nothing is claimed of it. -/
  | notModelled (mnemonic : String)
  deriving DecidableEq, Repr, Inhabited

/-- What every meaning answers. -/
abbrev Result := Host.Outcome State Fault Refusal

/-- The control core's context 18 as firmware's SC entry starts it (R388 step 7).  DESIGN CHOICE (log 4): the entry
address, which the spec does not give, is 0. -/
def bootCtx : Ctx := { st := .ready, pc := 0 }

/-- A cluster after reset (R388): context 18 READY, the others FREE. -/
def bootSc : Sc := { ctxs := [(18, bootCtx)] }

/-- The ports after a boot in which every host and storage port trained (R355, R388): lanes are unlocked. -/
def bootPorts : Tab LockSt := [(0, .run), (1, .run), (2, .run), (3, .run), (4, .run), (5, .run)]

/-- The machine right after reset: the boot sequence of R388 has run on a module with every part live (log 8). -/
def State.reset : State :=
  { scs := (List.range 16).map (fun n => (n, bootSc)), ports := bootPorts }

end Sys2Proof.Machine
end

