-- ==== Sys2Proof/Machine/Ops.lean ====
section
/-!
DEFINITION. The named operations over contexts, registers, clusters and runs; and taking a trap, handing it over and
resuming from it (R203-R206).
-/

namespace Sys2Proof.Machine

/-! ## Clusters, contexts, runs -/

/-- Stream cluster n. -/
def State.sc (s : State) (n : Nat) : Sc := tgetD s.scs n {}

/-- The state with cluster n replaced. -/
def State.setSc (s : State) (n : Nat) (x : Sc) : State := { s with scs := tput s.scs n x }

/-- The state with cluster n changed. -/
def State.modSc (s : State) (n : Nat) (f : Sc → Sc) : State := s.setSc n (f (s.sc n))

/-- Context c of cluster n. -/
def State.ctx (s : State) (n c : Nat) : Ctx := tgetD (s.sc n).ctxs c {}

/-- The state with a context replaced. -/
def State.setCtx (s : State) (n c : Nat) (x : Ctx) : State :=
  s.modSc n (fun t => { t with ctxs := tput t.ctxs c x })

/-- The state with a context changed. -/
def State.modCtx (s : State) (n c : Nat) (f : Ctx → Ctx) : State := s.setCtx n c (f (s.ctx n c))

/-- Run k of cluster n. -/
def State.run (s : State) (n k : Nat) : Run := tgetD (s.sc n).runs k {}

/-- The state with a run replaced. -/
def State.setRun (s : State) (n k : Nat) (x : Run) : State := s.modSc n (fun t => { t with runs := tput t.runs k x })

/-- The state with a run changed. -/
def State.modRun (s : State) (n k : Nat) (f : Run → Run) : State := s.setRun n k (f (s.run n k))

/-- A stream of cluster n. -/
def State.stream (s : State) (n d : Nat) : Stream := tgetD (s.sc n).streams d {}

/-- The state with a stream replaced. -/
def State.setStream (s : State) (n d : Nat) (x : Stream) : State :=
  s.modSc n (fun t => { t with streams := tput t.streams d x })

/-- The executing context, its cluster, and the run being issued. -/
def State.me (s : State) : Ctx := s.ctx s.cur.sc s.cur.ctx
def State.mySc (s : State) : Sc := s.sc s.cur.sc
def State.myRun (s : State) : Run := s.run s.cur.sc s.cur.run

/-- The executing context, cluster or run changed. -/
def State.modMe (s : State) (f : Ctx → Ctx) : State := s.modCtx s.cur.sc s.cur.ctx f
def State.modMySc (s : State) (f : Sc → Sc) : State := s.modSc s.cur.sc f
def State.modMyRun (s : State) (f : Run → Run) : State := s.modRun s.cur.sc s.cur.run f

/-- Kinds of context (R164, R193): 0 task, 1 message, 2 system. -/
def ctxKind (c : Nat) : Nat := if c < 16 then 0 else if c < 18 then 1 else 2

/-- Is the context privileged (R164)?  Numbers from 20 on are hub agents, which are not. -/
def isSystem (c : Nat) : Bool := c == 18 || c == 19

/-! ## General registers -/

/-- A general register of a context; g0 reads as zero (R190). -/
def Ctx.reg (x : Ctx) (r : Nat) : Word := if r = 0 then 0 else tgetD x.g r 0

/-- The context with a general register written; a write to g0 is discarded (R190). -/
def Ctx.setReg (x : Ctx) (r : Nat) (v : Word) : Ctx := if r = 0 then x else { x with g := tput x.g r v }

/-- A general register of the executing context. -/
def State.g (s : State) (r : BitVec 5) : Word := s.me.reg r.toNat

/-- The state with a general register of the executing context written. -/
def State.setG (s : State) (r : BitVec 5) (v : Word) : State := s.modMe (fun x => x.setReg r.toNat v)

/-- The address of the executing instruction. -/
def State.pc (s : State) : Word := s.me.pc

/-- The instruction is done and the next one follows it (R191); a wait of it is over. -/
def Ctx.next (x : Ctx) : Ctx := { x with pc := x.pc + 4, wait := none }
def State.fin (s : State) : State := s.modMe Ctx.next

/-- The instruction is done and execution continues at an address (R198). -/
def Ctx.goto (x : Ctx) (a : Word) : Ctx := { x with pc := a, wait := none }
def State.jump (s : State) (a : Word) : State := s.modMe (fun x => x.goto a)

/-- A result written and the instruction done. -/
def State.ret (s : State) (r : BitVec 5) (v : Word) : State := (s.setG r v).fin

/-- The executing context BLOCKS on a wait and the instruction is not done; `lod` counts one loss of decoupling, once for
the wait (R165, R188). -/
def Ctx.block (x : Ctx) (w : Wait) (lod : Bool) : Ctx :=
  { x with st := .blocked, wait := some w,
           lodc := if lod && x.wait.isNone then (x.lodc + 1) &&& 0xFFFFFFFF else x.lodc }
def State.block (s : State) (w : Wait) (lod : Bool := false) : State := s.modMe (fun x => x.block w lod)

/-! ## Words of instructions, for traps whose TVAL is the instruction (R204) -/

/-- The word of an SX instruction (R53). -/
def wSX (op : Nat) (a : BitVec 5) (h k : BitVec 4) (b : BitVec 5) (fl : Nat) : Word :=
  BitVec.ofNat 64 (op * 2 ^ 24 + a.toNat * 2 ^ 19 + h.toNat * 2 ^ 15 + k.toNat * 2 ^ 11 + b.toNat * 2 ^ 6 + fl)

/-- The word of an RR instruction (R53). -/
def wRR (op : Nat) (d a b : BitVec 5) (fn : Nat) : Word :=
  BitVec.ofNat 64 (op * 2 ^ 24 + d.toNat * 2 ^ 19 + a.toNat * 2 ^ 14 + b.toNat * 2 ^ 9 + fn)

/-- The word of an RI or SY instruction (R53). -/
def wRI (op : Nat) (d a : BitVec 5) (i : Nat) : Word :=
  BitVec.ofNat 64 (op * 2 ^ 24 + d.toNat * 2 ^ 19 + a.toNat * 2 ^ 14 + i)

/-! ## Traps (R203-R206) -/

/-- Cause codes (R204). -/
def causeIllegal : Nat := 0x01
def causePriv : Nat := 0x02
def causeAlign : Nat := 0x03
def causeFetch : Nat := 0x04
def causePageFault : Nat := 0x05
def causeProt : Nat := 0x06
def causeWprotDup : Nat := 0x07
def causeSoft : Nat := 0x08
def causeBreak : Nat := 0x09
def causeStreamFault : Nat := 0x10
def causeKrunRefused : Nat := 0x11
def causeKloadReject : Nat := 0x12
def causeKstoreFull : Nat := 0x13
def causeKernelHandle : Nat := 0x14
def causeStreamArg : Nat := 0x15
def causeSrfBudget : Nat := 0x16
def causeSrfSpace : Nat := 0x17
def causeStreamHandle : Nat := 0x18
def causeRecordInvalid : Nat := 0x19
def causeStreamBounds : Nat := 0x1A
def causeFutureStale : Nat := 0x20
def causeBarrierStale : Nat := 0x21
def causeBudget : Nat := 0x22
def causeCtxState : Nat := 0x23
def causeFutureCount : Nat := 0x24
def causeTableFull : Nat := 0x25

/-- HLTH bits (R395). -/
def hlthReplace : Nat := 63
def hlthTrip : Nat := 62
def hlthBootAlt : Nat := 61
def hlthBootFail : Nat := 60
def hlthSysCtx : Nat := 15
def hlthSplitMinor : Nat := 14
def hlthAuth : Nat := 13
def hlthUe : Nat := 12
def hlthHostFo : Nat := 11
def lossHub : Nat := 7
def lossBridge : Nat := 6
def lossLane : Nat := 5
def lossStack : Nat := 4
def lossDie : Nat := 3
def lossCore : Nat := 2
def hlthTherm : Nat := 1
def hlthPcap : Nat := 0

/-- HLTH bits added to a word. -/
def withBits (bits : List Nat) (w : Word) : Word := bits.foldl (fun h b => h ||| (1 <<< b)) w

/-- The state with HLTH bits set by hardware, as is noted until the end of the wall cycle (R13). -/
def State.setHlth (s : State) (bits : List Nat) : State :=
  { s with mgmt := { s.mgmt with hlth := withBits bits s.mgmt.hlth, fresh := withBits bits s.mgmt.fresh } }

/-- A context takes a trap: TCAUSE, TPC and TVAL are recorded and it is TRAPPED (R203, R205). -/
def Ctx.trap (x : Ctx) (cause : Nat) (async : Bool) (tval tpc : Word) : Ctx :=
  { x with st := .trapped, tcause := BitVec.ofNat 64 (cause + (if async then 256 else 0)), tval := tval, tpc := tpc,
           wait := none, pause := 0 }

/-- The control core stops when both system contexts are TRAPPED, or when one traps while TVEC is unwritten (R205). -/
def stopsCore (t : Sc) (c : Nat) : Bool :=
  isSystem c && (!t.tvecSet
    || (decide ((tgetD t.ctxs 18 {}).st = .trapped) && decide ((tgetD t.ctxs 19 {}).st = .trapped)))

/-- Taking a trap in context c of an SC: the one operation every precise and asynchronous trap goes through (R205). -/
def State.takeTrap (s : State) (n c cause : Nat) (async : Bool) (tval tpc : Word) : State :=
  let s := s.modCtx n c (fun x => x.trap cause async tval tpc)
  let s := s.modSc n (fun t => { t with trapQ := t.trapQ ++ [c] })
  if stopsCore (s.sc n) c then
    (s.modSc n (fun t => { t with stopped := true })).setHlth [hlthSysCtx]
  else s

/-- A precise trap of the executing instruction: TPC is its own address (R203). -/
def State.trap (s : State) (cause : Nat) (tval : Word) : State :=
  s.takeTrap s.cur.sc s.cur.ctx cause false tval s.pc

/-- A trap whose TPC is the next instruction (TRAP and BRK, R203). -/
def State.trapNext (s : State) (cause : Nat) (tval : Word) : State :=
  s.takeTrap s.cur.sc s.cur.ctx cause false tval (s.pc + 4)

/-- The system context a trap of context c is handed to: the lower-numbered FREE one other than c (R205). -/
def handler? (t : Sc) (c : Nat) : Option Nat :=
  if 18 ≠ c ∧ (tgetD t.ctxs 18 {}).st = .free then some 18
  else if 19 ≠ c ∧ (tgetD t.ctxs 19 {}).st = .free then some 19
  else none

/-- A system context as a hand-over starts it: at TVEC, with OWNER and the trap's values in g1-g4 and every other register
zero (R205).  Its scratch registers stay (R192). -/
def startHandler (x : Ctx) (tvec : Word) (c : Nat) (o : Ctx) : Ctx :=
  { st := .ready, pc := tvec, owner := c, scr0 := x.scr0, scr1 := x.scr1, portSel := x.portSel, lodc := x.lodc,
    g := [(1, BitVec.ofNat 64 c), (2, o.tcause), (3, o.tval), (4, o.tpc)].filter (fun p => p.2 != 0) }

/-- The head of the trap queue is handed over, where a system context is FREE and TVEC has been written (R205). -/
def State.handOver (s : State) (n : Nat) : State :=
  let t := s.sc n
  match t.trapQ with
  | [] => s
  | c :: rest =>
    match handler? t c with
    | none => s
    | some k =>
      if t.tvecSet && !t.stopped then
        let o := s.ctx n c
        (s.modCtx n k (fun x => startHandler x t.tvec c o)).modSc n (fun t => { t with trapQ := rest })
      else s

/-- A TRAPPED context resumes at an address (R206). -/
def Ctx.resume (x : Ctx) (a : Word) : Ctx := { x with st := .ready, pc := a }
def State.resumeAt (s : State) (n c : Nat) (a : Word) : State :=
  (s.modCtx n c (fun x => x.resume a)).modSc n (fun t => { t with trapQ := t.trapQ.filter (· != c) })

/-- STATUS.OWNER of either system context that named c becomes 31 (R206). -/
def State.disown (s : State) (n c : Nat) : State :=
  let f := fun (x : Ctx) => if x.owner = c then { x with owner := 31 } else x
  (s.modCtx n 18 f).modCtx n 19 f

/-- A context becomes FREE, keeping nothing of its activity but a system context's own registers (R192, R246). -/
def freeCtx (x : Ctx) : Ctx := { scr0 := x.scr0, scr1 := x.scr1, portSel := x.portSel }

/-- The end of a system context's activity by TRET: FREE, and the owner resumes at its TPC (R206). -/
def State.tretOwner (s : State) (n k : Nat) : State :=
  let o := (s.ctx n k).owner
  let a := (s.ctx n o).tpc
  (s.modCtx n k freeCtx).resumeAt n o a

/-! ## The shapes of control-core instructions -/

/-- Does a register in the list wait for a value (R188, R315)?  An SCAS result is listed as r, an uncached load's as
r + 32. -/
def Ctx.unfilledReg (x : Ctx) (rs : List Nat) : Option Nat :=
  rs.find? (fun r => r != 0 && (x.unfilled.contains r || x.unfilled.contains (r + 32)))

/-- An instruction that reads or writes the registers `rs`: it blocks while one of them is unfilled, which is a loss of
decoupling when an SCAS owes it (R188, R191, R315); otherwise it does `f`. -/
def ctl (rs : List (BitVec 5)) (s : State) (f : State → State) : Result :=
  match s.me.unfilledReg (rs.map BitVec.toNat) with
  | some r => .next (s.block (.filled r) (s.me.unfilled.contains r))
  | none => .next (f s)

/-- The same for registers an instruction reads before it knows which others it does. -/
def ctlFirst (rs : List (BitVec 5)) (s : State) (f : State → Result) : Result :=
  match s.me.unfilledReg (rs.map BitVec.toNat) with
  | some r => .next (s.block (.filled r) (s.me.unfilled.contains r))
  | none => f s

/-- A privileged instruction: PRIV in a task or message context, before any effect (R55). -/
def priv (w : Word) (rs : List (BitVec 5)) (s : State) (f : State → State) : Result :=
  if isSystem s.cur.ctx then ctl rs s f else .next (s.trap causePriv w)

/-! ## Free values -/

/-- The next free value, as a natural number (log 10). -/
def State.freeVal (s : State) : Nat := Config.freeNat s.free

/-- The state after a free value has been used. -/
def State.useFree (s : State) (n : Nat) : State := { s with free := s.free + n }

/-- The free entry of a table of `n` that is taken, which the spec does not specify (R241, R251): any that `ok` holds of, by
the next free value, where `i` is the lowest. -/
def State.anyFree (s : State) (n : Nat) (ok : Nat → Bool) (i : Nat) : Nat := if ok (s.freeVal % n) then s.freeVal % n else i

/-- The state with something sent out of the module. -/
def State.emit (s : State) (o : Out) : State := { s with out := s.out ++ [o] }

/-! ## Futures by handle (R236) -/

/-- The key of a future entry: hub * 131,072 + index. -/
def futKey (h : Nat) : Nat := bitsNat h 31 1 * 131072 + bitsNat h 14 17

/-- The handle of the entry at a key. -/
def futHandle (k gen : Nat) : Nat := k / 131072 * 2 ^ 31 + k % 131072 * 2 ^ 14 + gen

/-- A future table entry. -/
def State.fut (s : State) (k : Nat) : Fut := tgetD s.futs k {}

/-- The state with a future changed. -/
def State.modFut (s : State) (k : Nat) (f : Fut → Fut) : State := { s with futs := tput s.futs k (f (s.fut k)) }

/-- Who issues for a context: its task, by its future handle, or the context itself (R166). -/
def State.ownerOf (s : State) (n c : Nat) : Owner := if c < 16 then .task (s.ctx n c).fut.toNat else .ctx c

/-- The executing context's owner. -/
def State.myOwner (s : State) : Owner := s.ownerOf s.cur.sc s.cur.ctx

/-- Entries an owner issued and that still stand. -/
def ownEntries (t : Sc) (o : Owner) : List Entry := t.entries.filter (fun e => e.owner == o)

/-- Entries of an owner that have not completed. -/
def entryIds (l : List Entry) : List Nat := l.map Entry.id

/-- Is an entry still on the list and not retired? -/
def notRetired (t : Sc) (id : Nat) : Bool := t.entries.any (fun e => e.id == id && e.st != .retired)

/-- Has an entry neither completed nor been cancelled? -/
def notComplete (t : Sc) (id : Nat) : Bool := t.entries.any (fun e => e.id == id)

/-- Where the task of a future is: its SC and context. -/
def State.whereIs (s : State) (k : Nat) : Option (Nat × Nat) :=
  (List.range 16).findSome? (fun n =>
    ((List.range 16).find? (fun c => (s.ctx n c).st != .free && futKey (s.ctx n c).fut.toNat == k)).map (fun c => (n, c)))

end Sys2Proof.Machine
end

