-- ==== Sys2Proof/Machine/Mem.lean ====
section
/-!
DEFINITION. The memory base dies (R267-R269, R282-R287, R297-R299) and coherent memory above them (R302, R396).  Memory is
a list of cells in one canonical form: addresses strictly rising and no cell equal to what an unlisted address reads
as, which is 0 (log 2).
-/

namespace Sys2Proof.Machine

/-! ## Cells -/

/-- A byte of memory by local address. -/
def cellGet : List Host.Cell → Nat → Byte
  | [], _ => 0
  | (k, v) :: t, a => if a = k then v else cellGet t a

/-- Memory with a byte written; writing 0 removes the cell. -/
def cellPut : List Host.Cell → Nat → Byte → List Host.Cell
  | [], a, b => if b = 0 then [] else [(a, b)]
  | (k, v) :: t, a, b =>
    if a < k then (if b = 0 then (k, v) :: t else (a, b) :: (k, v) :: t)
    else if a = k then (if b = 0 then t else (a, b) :: t)
    else (k, v) :: cellPut t a b

/-- Memory with consecutive bytes written. -/
def cellPuts (m : List Host.Cell) : Nat → List Byte → List Host.Cell
  | _, [] => m
  | a, b :: bs => cellPuts (cellPut m a b) (a + 1) bs

/-- The canonical form of a memory whose first address is at least `lo`. -/
def cellsOk : Nat → List Host.Cell → Bool
  | _, [] => true
  | lo, (k, v) :: t => lo ≤ k && v != 0 && cellsOk (k + 1) t

/-- The canonical form: addresses strictly rising, no cell equal to what an unlisted address reads as. -/
def Memory.wf (m : List Host.Cell) : Bool := cellsOk 0 m

/-- The state's memory is in canonical form. -/
def State.memOk (s : State) : Bool := Memory.wf s.mem

/-! ## The address map (R267, R268) -/

/-- 256 GiB: the size of a half. -/
def halfSize : Nat := 2 ^ 38

/-- The interleave pair lost at boot in a half: none, one, or both (R268). -/
def pairLost (t : Topo) (h j : Nat) : Bool :=
  !(bitNat t.bootStacks.toNat (4 * h + 2 * j) && bitNat t.bootStacks.toNat (4 * h + 2 * j + 1))

/-- Is a half not live (R352-R354)? -/
def halfLost (t : Topo) (h : Nat) : Bool := !(h < 2 && bitNat t.halves.toNat h)

/-- The memory a half offers, in bytes (R268, R354). -/
def offered (t : Topo) (h : Nat) : Nat :=
  if halfLost t h then 0
  else match pairLost t h 0, pairLost t h 1 with
    | false, false => halfSize
    | true, true => 0
    | _, _ => halfSize / 2

/-- Is a local address in offered memory? -/
def inMemory (t : Topo) (a : Nat) : Bool := a % halfSize < offered t (a / halfSize)

/-- Is a local address in package register space (R267)? -/
def inRegs (a : Nat) : Bool := 2 ^ 40 ≤ a && a < 2 ^ 41

/-- The stack and stack offset of a local address, by the interleave built at boot (R268). -/
def stackOf (t : Topo) (a : Nat) : Nat × Nat :=
  let h := a / halfSize
  match pairLost t h 0, pairLost t h 1 with
  | true, false => (4 * h + 2 + bitsNat a 10 1, bitsNat a 11 26 * 1024 + a % 1024)
  | false, true => (4 * h + bitsNat a 10 1, bitsNat a 11 26 * 1024 + a % 1024)
  | _, _ => (4 * h + bitsNat a 10 2, bitsNat a 12 26 * 1024 + a % 1024)

/-- The local address of a stack offset, where there is one. -/
def addrOf (t : Topo) (st off : Nat) : Nat :=
  let h := st / 4
  match pairLost t h 0, pairLost t h 1 with
  | true, false => h * halfSize + off / 1024 * 2048 + (st % 2) * 1024 + off % 1024
  | false, true => h * halfSize + off / 1024 * 2048 + (st % 2) * 1024 + off % 1024
  | _, _ => h * halfSize + off / 1024 * 4096 + (st % 4) * 1024 + off % 1024

/-! ## Frames, tags, errors and counters -/

/-- MODE of the frame of a stack offset (R297); 3 acts as 0. -/
def State.mode (s : State) (st off : Nat) : Nat :=
  let m := tgetD s.fmap (st * 2 ^ 20 + off / 65536) 0
  if m = 3 then 0 else m

/-- The tag of a block (R297). -/
def State.tag (s : State) (st off : Nat) : Nat := tgetD s.tags (st * 2 ^ 28 + off / 256) 15

/-- The state with a tag set; the reset value 0xF is not listed. -/
def State.setTag (s : State) (st off v : Nat) : State :=
  let k := st * 2 ^ 28 + off / 256
  { s with tags := if v = 15 then tdel s.tags k else tput s.tags k v }

/-- Does the sector of a local address hold an uncorrectable, or a correctable, error (R285), or lie in a lost stack
(R353)? -/
def State.ueAt (s : State) (a : Nat) : Bool :=
  let p := stackOf s.topo a
  s.ueSectors.contains (p.1 * 2 ^ 31 + p.2 / 32) || !bitNat s.topo.stks.toNat p.1
def State.ceAt (s : State) (a : Nat) : Bool :=
  let p := stackOf s.topo a
  s.ceSectors.contains (p.1 * 2 ^ 31 + p.2 / 32)

/-- Stack counter numbers (R286). -/
def ctrRdb : Nat := 0
def ctrWrb : Nat := 1
def ctrRmw : Nat := 2
def ctrAcc : Nat := 3
def ctrCe : Nat := 4
def ctrUe : Nat := 5
def ctrXlate : Nat := 6
def ctrRemlost : Nat := 7

/-- A stack counter raised, modulo 2^64 (R286). -/
def State.count (s : State) (st k n : Nat) : State :=
  { s with ctr := tput s.ctr (8 * st + k) (tgetD s.ctr (8 * st + k) 0 + BitVec.ofNat 64 n) }

/-! ## One base die (R283, R285, R287, R298) -/

/-- The bytes of a 256-byte block as stored. -/
def State.stored (s : State) (blk : Nat) : List Byte := (List.range 256).map (fun i => cellGet s.mem (blk + i))

/-- Is the block of an address held compressed (R298)? -/
def State.packed (s : State) (a : Nat) : Bool :=
  let p := stackOf s.topo a
  s.mode p.1 p.2 != 0 && s.tag p.1 p.2 != 15

/-- The sectors that the tag of a compressed block names (R295). -/
def tagSectors (tag : Nat) : Nat := tag % 8 + 1

/-- The stored bytes that a request of n bytes reads: the stored sectors of a compressed block, or its own (R287).  Of a block whose tag
is malformed they are the SEC + 1 that the tag names; DESIGN CHOICE (log 92): no rule says what is read of it. -/
def State.readSpan (s : State) (a n : Nat) : Nat × Nat :=
  let p := stackOf s.topo a
  if s.packed a then (a - a % 256, 32 * tagSectors (s.tag p.1 p.2)) else (a, n)

/-- Has any of n bytes an uncorrectable error? -/
def State.ueIn (s : State) (a n : Nat) : Bool := (List.range n).any (fun i => s.ueAt (a + i))

/-- The 256 bytes of a block as requests see them, or none where it is malformed or a stored sector of it cannot be
corrected (R298).  `blk` is its local address. -/
def State.block256 (s : State) (blk : Nat) : Option (List Byte) :=
  let p := stackOf s.topo blk
  let m := s.mode p.1 p.2
  let x := s.readSpan blk 256
  if s.ueIn x.1 x.2 then none
  else if m = 0 then some (s.stored blk) else milleDecode (m == 2) (s.tag p.1 p.2) (s.stored blk)

/-- A byte of one base die as requests see it; 0xFF where it cannot be read (R283, R285, R298). -/
def State.dieByte (s : State) (a : Nat) : Byte :=
  if !inMemory s.topo a then 0xFF
  else if s.packed a then
    match s.block256 (a - a % 256) with
    | some bs => bs.getD (a % 256) 0
    | none => 0xFF
  else if s.ueAt a then 0xFF
  else cellGet s.mem a

/-- Bytes of the base dies. -/
def State.dieBytes (s : State) (a n : Nat) : List Byte := (List.range n).map (fun i => s.dieByte (a + i))

/-- Sectors that a byte range touches. -/
def sectorsOf (a n : Nat) : Nat := if n = 0 then 0 else (a + n - 1) / 32 - a / 32 + 1

/-- The sectors a request moves: the stored sectors of a compressed block, the sectors it names of any other
(R287, R298). -/
def State.moved (s : State) (a n : Nat) : Nat := sectorsOf (s.readSpan a n).1 (s.readSpan a n).2

/-- The STATUS of a request within one block (R283, R298). -/
def State.dieStatus (s : State) (a n : Nat) : Nat :=
  if !inMemory s.topo a then 3
  else if (if s.packed a then (s.block256 (a - a % 256)).isNone else s.ueIn a n) then 2
  else
    let x := s.readSpan a n
    if (List.range x.2).any (fun i => s.ceAt (x.1 + i)) then 1 else 0

/-- The local addresses of the sectors a byte range touches. -/
def sectorAddrs (a n : Nat) : List Nat := (List.range (sectorsOf a n)).map (fun i => (a / 32 + i) * 32)

/-- Lines the host may hold, met by an access that must have its answer first: held exclusive or modified by a read, in any
state by a write (R350). -/
def State.meetHost (s : State) (a n : Nat) (inv : Bool) : State :=
  if s.hostLines.isEmpty then s
  else
    let met := s.hostLines.filter (fun p => (inv || p.2) && decide (64 * p.1 < a + n) && decide (a < 64 * p.1 + 64))
    { s with hits := s.hits ++ met.map (fun p => (p.1, inv)) }

/-- Is the sector of an address one whose error a read corrects (R285)? -/
def State.fixable (s : State) (a : Nat) : Bool := s.ceAt a && !s.ueAt a

/-- A sector of a stack by its number among all stacks' sectors. -/
def sectorKey (t : Topo) (a : Nat) : Nat := (stackOf t a).1 * 2 ^ 31 + (stackOf t a).2 / 32

/-- Sectors that were read and corrected: counted, and rewritten corrected (R283, R286). -/
def State.correct (s : State) (st : Nat) (bs : List Nat) : State :=
  { s.count st ctrCe bs.length with ceSectors := s.ceSectors.filter (fun x => !(bs.map (sectorKey s.topo)).contains x) }

/-- Sectors that were read and could not be corrected: counted, and reported to the management processor (R286, R395). -/
def State.spoiled (s : State) (st n : Nat) : State := if n = 0 then s else (s.count st ctrUe n).setHlth [hlthUe]

/-- How many sectors of a read cannot be corrected: those of its own sectors, or all that it requests of a compressed block that
has no value (R286, R298). -/
def State.badCount (s : State) (a n : Nat) : Nat :=
  if s.packed a then (if (s.block256 (a - a % 256)).isNone then sectorsOf a n else 0)
  else ((sectorAddrs a n).filter s.ueAt).length

/-- A read's effect on the counters and on corrected sectors, reported to the management processor where it returns
STATUS 2 or 3 (R285, R286, R395). -/
def State.readEffect (s : State) (a n : Nat) : State :=
  let p := stackOf s.topo a
  let s := s.meetHost a n false
  if !inMemory s.topo a then s.setHlth [hlthUe]
  else
    let x := s.readSpan a n
    ((s.count p.1 ctrRdb (32 * s.moved a n)).correct p.1 ((sectorAddrs x.1 x.2).filter s.fixable)).spoiled p.1
      (s.badCount a n)

/-- The bytes of a block with some replaced, from offset `o`. -/
def patch (bs : List Byte) (o : Nat) (v : List (Option Byte)) : List Byte :=
  (bs.zipIdx).map (fun p => if o ≤ p.2 then ((v.getD (p.2 - o) none).getD p.1) else p.1)

/-- Masked bytes written to the cells. -/
def putMasked (m : List Host.Cell) : Nat → List (Option Byte) → List Host.Cell
  | _, [] => m
  | a, none :: bs => putMasked m (a + 1) bs
  | a, some b :: bs => putMasked (cellPut m a b) (a + 1) bs

/-- Which bytes of a sector a masked write has. -/
def sectorMask (a : Nat) (v : List (Option Byte)) (b : Nat) : List Bool :=
  (List.range 32).map (fun i => decide (a ≤ b + i) && (v.getD (b + i - a) none).isSome)

/-- The sectors a masked write has a byte for, and of these the ones it covers only in part (R285). -/
def maskedSectors (a : Nat) (v : List (Option Byte)) : List Nat :=
  (sectorAddrs a v.length).filter (fun b => (sectorMask a v b).any id)
def partSectors (a : Nat) (v : List (Option Byte)) : List Nat :=
  (maskedSectors a v).filter (fun b => !(sectorMask a v b).all id)

/-- The sectors a masked write reads first: those it covers in part, and all of an accumulation (R285). -/
def readSectors (a : Nat) (v : List (Option Byte)) (acc : Bool) : List Nat := if acc then maskedSectors a v else partSectors a v

/-- Sectors written: their code is computed afresh, so an earlier error there is gone (R285). -/
def State.cleared (s : State) (bs : List Nat) : State :=
  let keep := fun x => !(bs.map (sectorKey s.topo)).contains x
  { s with ueSectors := s.ueSectors.filter keep, ceSectors := s.ceSectors.filter keep }

/-- The bytes of a masked write, within one block, that its base die writes: none beyond the offered memory or in a lost
stack, none of a compressed block that has no value, and none of a sector that it reads first and that cannot be
corrected (R283, R285, R298, R353).  The other sectors of such a write stand (DEDUCED, log 78). -/
def State.takes (s : State) (a : Nat) (v : List (Option Byte)) (acc : Bool) : List (Option Byte) :=
  let p := stackOf s.topo a
  if !inMemory s.topo a || !bitNat s.topo.stks.toNat p.1 then v.map (fun _ => none)
  else if s.mode p.1 p.2 != 0 then (if (s.block256 (a - a % 256)).isNone then v.map (fun _ => none) else v)
  else
    let bad := (readSectors a v acc).filter s.ueAt
    if bad.isEmpty then v
    else v.zipIdx.map (fun x => if bad.contains ((a + x.2) / 32 * 32) then none else x.1)

/-- The read of a block for a whole-block read-modify-write: an accumulation's counts in RDB, that of any other write is one RMW and
counts in no RDB (R286; DEDUCED, log 92), and sectors that it corrects count in CE. -/
def State.compRead (s : State) (blk : Nat) (acc : Bool) : State :=
  let p := stackOf s.topo blk
  let x := s.readSpan blk 256
  (if acc then s.count p.1 ctrRdb (32 * s.moved blk 256) else s.count p.1 ctrRmw 1).correct p.1
    ((sectorAddrs x.1 x.2).filter s.fixable)

/-- By how much UE rises where a write of n bytes finds its block without a value: by the bad sectors of a raw block, as in a plain
frame, and by the sectors requested of any other; DESIGN CHOICE (log 92): R298 says so of a read, and nothing of a write. -/
def State.badBlock (s : State) (a n : Nat) : Nat :=
  if s.packed a then sectorsOf a n else ((sectorAddrs (a - a % 256) 256).filter s.ueAt).length

/-- The whole-block read-modify-write of a compressed frame (R287, R298). -/
def State.compWrite (s : State) (a : Nat) (v : List (Option Byte)) (acc : Bool) : State :=
  let blk := a - a % 256
  let p := stackOf s.topo blk
  let m := s.mode p.1 p.2
  match s.block256 blk with
  | none => (s.compRead blk acc).spoiled p.1 (s.badBlock a v.length)
  | some bs =>
    let e := milleEncode (m == 2) (patch bs (a % 256) v)
    let s := (s.compRead blk acc).count p.1 ctrWrb e.1.length
    ({ s with mem := cellPuts s.mem blk e.1, homeWrites := s.homeWrites ++ [(a, v.length)] } : State).cleared
      (sectorAddrs blk e.1.length) |>.setTag p.1 p.2 e.2

/-- A write to a plain frame (R285): what it reads first counts one RMW for the write unless an accumulation makes it
(R286). -/
def State.plainWrite (s : State) (a : Nat) (v : List (Option Byte)) (acc : Bool) : State :=
  let p := stackOf s.topo a
  let part := readSectors a v acc
  let w := s.takes a v acc
  let put := maskedSectors a w
  let s := if !acc && !part.isEmpty then s.count p.1 ctrRmw 1 else s
  let s := (s.correct p.1 (part.filter s.fixable)).spoiled p.1 (part.filter s.ueAt).length
  let s := s.count p.1 ctrWrb (32 * put.length)
  let s := ({ s with mem := putMasked s.mem a w, homeWrites := s.homeWrites ++ [(a, v.length)] } : State).cleared put
  if put.isEmpty then s else s.setTag p.1 p.2 15

/-- A write within one 256-byte block of one stack: masked bytes (`none`: not written), plain or compressed
(R285, R298).  `acc` says that an accumulation writes. -/
def State.dieWriteIn (s : State) (a : Nat) (v : List (Option Byte)) (acc : Bool) : State :=
  if !inMemory s.topo a then s.setHlth [hlthUe]
  else
    let p := stackOf s.topo a
    let s := s.meetHost a v.length true
    if !bitNat s.topo.stks.toNat p.1 then s.spoiled p.1 (sectorsOf a v.length)
    else if s.mode p.1 p.2 != 0 then s.compWrite a v acc
    else s.plainWrite a v acc

/-- The STATUS of a write or an accumulation within one block (R283, R285, R298). -/
def State.writeStatus (s : State) (a : Nat) (v : List (Option Byte)) (acc : Bool) : Nat :=
  let p := stackOf s.topo a
  let x := s.readSpan (a - a % 256) 256
  if !inMemory s.topo a then 3
  else if s.takes a v acc != v then 2
  else if (if s.mode p.1 p.2 != 0 then sectorAddrs x.1 x.2 else readSectors a v acc).any s.fixable then 1
  else 0

/-! ## Coherent memory (R302, R396) -/

/-- The SCs whose data cache holds the line of an address. -/
def State.holders (s : State) (a : Nat) : List Nat := (List.range 16).filter (fun n => thas (s.sc n).lines (a / 64))

/-- A byte as every coherent agent sees it: the data caches hold equal copies, and memory holds the rest. -/
def State.byte (s : State) (a : Nat) : Byte :=
  match (List.range 16).findSome? (fun n => tget (s.sc n).lines (a / 64)) with
  | some l => l.data.getD (a % 64) 0
  | none => s.dieByte a

/-- Bytes as every coherent agent sees them. -/
def State.bytes (s : State) (a n : Nat) : List Byte := (List.range n).map (fun i => s.byte (a + i))

/-- The number little-endian bytes hold. -/
def State.readNat (s : State) (a n : Nat) : Nat := bytesNat (s.bytes a n)

/-- A line with one byte replaced. -/
def Line.put (l : Line) (i : Nat) (b : Byte) : Line := { l with data := l.data.set i b }

/-- Every cached copy of a byte follows a write to it. -/
def State.copyByte (s : State) (a : Nat) (b : Byte) : State :=
  { s with scs := s.scs.map (fun p => (p.1, { p.2 with lines := tmod p.2.lines (a / 64) (fun l => l.put (a % 64) b) })) }

/-- Every cached copy of masked bytes follows a write to them. -/
def State.copyBytes (s : State) : Nat → List (Option Byte) → State
  | _, [] => s
  | a, none :: bs => s.copyBytes (a + 1) bs
  | a, some b :: bs => (s.copyByte a b).copyBytes (a + 1) bs

/-- A write of bytes that may cross blocks, one block at a time; every cached copy follows what is written.  `fuel` bounds the
blocks. -/
def State.dieWrite : Nat → State → Nat → List (Option Byte) → Bool → State
  | 0, s, _, _, _ => s
  | _ + 1, s, _, [], _ => s
  | fuel + 1, s, a, b :: bs, acc =>
    let n := 256 - a % 256
    let v := (b :: bs).take n
    State.dieWrite fuel ((s.dieWriteIn a v acc).copyBytes a (s.takes a v acc)) (a + n) ((b :: bs).drop n) acc

/-- A write by an agent at the base dies, seen by every cached copy. -/
def State.write (s : State) (a : Nat) (v : List Byte) (acc : Bool := false) : State :=
  State.dieWrite (v.length / 256 + 2) s a (v.map some) acc

/-- A write of a number of n bytes. -/
def State.writeNat (s : State) (a n x : Nat) : State := s.write a (natBytes n x)

/-- Reads counted at the stacks, one block at a time (R286). -/
def State.countReads : Nat → State → Nat → Nat → State
  | 0, s, _, _ => s
  | fuel + 1, s, a, n =>
    if n = 0 then s
    else
      let k := min n (256 - a % 256)
      State.countReads fuel (s.readEffect a k) (a + k) (n - k)

/-- The state after an agent's read, which its stacks count. -/
def State.noteRead (s : State) (a n : Nat) : State := s.countReads (n / 256 + 2) a n

/-! ## The accumulate-on-write unit (R225) -/

/-- Element bytes of an accumulate format (R181, R225). -/
def accBytes (fmt : Nat) : Nat :=
  if fmt = 2 || fmt = 6 || fmt = 13 then 2 else if fmt = 15 || fmt = 16 || fmt = 0 then 8 else 4

/-- The formats an accumulation allows (R225). -/
def accFmtOk (fmt : Nat) : Bool := [1, 2, 6, 10, 11, 13, 14, 15, 16].contains fmt

/-- Is the integer format signed (R225)? -/
def accSigned (fmt : Nat) : Bool := fmt == 6 || fmt == 11 || fmt == 15

/-- The signed value of an n-byte number. -/
def signedOf (n x : Nat) : Int := if x < 2 ^ (8 * n - 1) then x else (x : Int) - 2 ^ (8 * n)

/-- The minimum or maximum of two elements under a format. -/
def accMinMax (mx : Bool) (fmt old src : Nat) : Nat :=
  let n := accBytes fmt
  let lt := if accSigned fmt then decide (signedOf n old < signedOf n src) else decide (old < src)
  if lt != mx then old else src

/-- One accumulation: Op(old, source) (R225).  Op 7 and unknown ops keep the old value; CAS is the caller's. -/
def accOp (op fmt old src : Nat) : Nat :=
  if op = 6 then src
  else if op = 3 then Nat.land old src
  else if op = 4 then Nat.lor old src
  else if op = 5 then Nat.xor old src
  else if fmt = 1 || fmt = 2 then
    let p := if fmt = 1 then 24 else 8
    let x := decodeF p old
    let y := decodeF p src
    if op = 0 then encodeF p (x.add y)
    else if op = 1 then encodeF p (x.minNum y)
    else if op = 2 then encodeF p (x.maxNum y)
    else old
  else if op = 0 then (old + src) % 2 ^ (8 * accBytes fmt)
  else if op = 1 then accMinMax false fmt old src
  else if op = 2 then accMinMax true fmt old src
  else old

/-- The counters of one accumulation packet; that of a compressed block counts its reads with the block (R286). -/
def State.accCount (s : State) (a n : Nat) : State :=
  let p := stackOf s.topo a
  let s := s.count p.1 ctrAcc 1
  if s.mode p.1 p.2 = 0 then s.count p.1 ctrRdb (32 * sectorsOf a n) else s

/-- One element combined at its home, and its old value (R225). -/
def State.accumulate (s : State) (a op fmt src : Nat) : State :=
  let n := accBytes fmt
  (s.accCount a n).write a (natBytes n (accOp op fmt (s.readNat a n) src)) true

/-- Compare-and-swap of one element (R227).  One whose compare fails is still a read-modify-write (R285): its base die writes back
what it read (DEDUCED, log 78). -/
def State.compareSwap (s : State) (a n cmp new : Nat) : State :=
  let t := s.accCount a n
  if s.readNat a n = cmp then t.write a (natBytes n new) true else t.dieWriteIn a ((s.dieBytes a n).map some) true

end Sys2Proof.Machine
end

