-- ==== Sys2Proof/Machine/Port.lean ====
section
/-!
DEFINITION. The requester ports of a base die (R282-R285, R298, R314, R315): request packets and their replies as they stand on
the wires, tags, and what a request does when it performs.
-/

namespace Sys2Proof.Machine

/-! ## Ports (R282) -/

/-- The port of the control core of an SC, of its stream agents and of its copy engines, and of a die's DCE (R282). -/
def corePort (n : Nat) : Nat := n
def streamPort (n : Nat) : Nat := 16 + n
def copyPort (n : Nat) : Nat := 32 + n
def dcePort (d : Nat) : Nat := 48 + d

/-- The ports of a hub: its walkers', its host port's, its storage ports' and its command processor's.  R282 gives a hub four ports for
these and its relay store, and does not say which is whose; DESIGN CHOICE (log 79): in this order. -/
def walkPort (h : Nat) : Nat := 56 + 4 * h
def hostPort (h : Nat) : Nat := 57 + 4 * h
def storePort (h : Nat) : Nat := 58 + 4 * h
def cpPort (h : Nat) : Nat := 59 + 4 * h

/-! ## Packets on the wires (R283) -/

/-- The TYPE code of a request. -/
def PktType.code : PktType → Nat
  | .read => 0
  | .write => 1
  | .masked => 2
  | .acc => 3

/-- The number a list of bits holds, the first bit lowest. -/
def bitsVal : List Bool → Nat
  | [] => 0
  | b :: bs => (if b then 1 else 0) + 2 * bitsVal bs

/-- The low dword of a request header (R283). -/
def Packet.low (p : Packet) : Nat :=
  p.off / 64 * 2 ^ 24 + p.fmt % 16 * 2 ^ 16 + p.op * 2 ^ 13 + p.sec * 2 ^ 12 + (if p.big then 2 ^ 11 else 0) + p.port * 2 ^ 5
    + p.tag * 4 + p.ty.code

/-- The 128-bit header of a request (R283). -/
def Packet.header (p : Packet) : BitVec 128 := BitVec.ofNat 128 (bitsVal p.mask * 2 ^ 64 + p.low)

/-- The request that a header names: TYPE, TAG, PORT, SIZE, SEC, OP, FMT, ADDR and MASK (R283). -/
def parseHeader (h : BitVec 128) : Packet :=
  let w := h.toNat
  { ty := if bitsNat w 0 2 = 0 then .read else if bitsNat w 0 2 = 1 then .write else if bitsNat w 0 2 = 2 then .masked else .acc,
    tag := bitsNat w 2 3, port := bitsNat w 5 6, big := bitNat w 11, sec := bitsNat w 12 1, op := bitsNat w 13 3,
    fmt := bitsNat w 16 4, off := bitsNat w 24 35 * 64, mask := (List.range 64).map (fun i => bitNat w (64 + i)) }

/-- The 64-bit header of a reply: the request's TYPE, TAG, PORT, SIZE and SEC, and STATUS (R283). -/
def Packet.replyHeader (p : Packet) : Word :=
  BitVec.ofNat 64 (p.status * 2 ^ 13 + p.sec * 2 ^ 12 + (if p.big then 2 ^ 11 else 0) + p.port * 2 ^ 5 + p.tag * 4 + p.ty.code)

/-- The first stack offset and the length of a request. -/
def Packet.lo (p : Packet) : Nat := p.off + (if p.big then 0 else 32 * p.sec)
def Packet.len (p : Packet) : Nat := if p.big then 64 else 32

/-- The local address of a request's first byte. -/
def State.pktAddr (s : State) (p : Packet) : Nat := addrOf s.topo p.stack p.lo

/-- The bytes of a write request, masked: the mask and the data of the 64-byte unit from the request's first byte on. -/
def Packet.bytes (p : Packet) : List (Option Byte) :=
  (List.range p.len).map (fun i =>
    let j := p.lo - p.off + i
    if p.mask.getD j false then some (p.data.getD j 0) else none)

/-! ## Tags (R284, R315) -/

/-- The tags in use of a port of a stack. -/
def State.tagsUsed (s : State) (stack port : Nat) : List Nat :=
  (s.pkts.filter (fun p => p.2.stack == stack && p.2.port == port)).map (fun p => p.2.tag)

/-- The lowest free tag of a port (R284). -/
def State.freeTag (s : State) (stack port : Nat) : Option Nat :=
  (List.range 8).find? (fun t => !(s.tagsUsed stack port).contains t)

/-- Does a context wait for a tag of a stack, with one access or with the rest of an LDM or STM? -/
def Ctx.waitsTag (x : Ctx) (stack : Nat) : Bool :=
  match x.wait with
  | some (.tag _ k) => k == stack
  | some (.parts _ k _ _) => k == stack
  | _ => false

/-- May context c of an SC send a packet to a stack now: a tag is free, and no context that blocked earlier still waits for
that stack (R315)? -/
def State.maySend (s : State) (n c stack : Nat) : Bool :=
  (s.freeTag stack (corePort n)).isSome
    && match (s.sc n).tagQ.find? (fun e => e.2 == stack && (s.ctx n e.1).waitsTag stack) with
       | some e => e.1 == c
       | none => true

/-- A packet sent, with the lowest free tag of its port. -/
def State.send (s : State) (p : Packet) : State :=
  { s with pkts := tput s.pkts s.nextPkt { p with tag := (s.freeTag p.stack p.port).getD 0 }, nextPkt := s.nextPkt + 1 }

/-- The read packet of an access at a local address (R314). -/
def readPacket (t : Topo) (port : Nat) (o : Owner) (a : Nat) (who : Requester) : Packet :=
  let p := stackOf t a
  { stack := p.1, port := port, ty := .read, off := p.2 / 64 * 64, sec := p.2 / 32 % 2, mask := List.replicate 64 true,
    who := who, owner := o, comp := natBytes 8 (p.2 % 32) }

/-- The masked write packet of bytes at a local address (R314). -/
def maskedPacket (t : Topo) (port : Nat) (o : Owner) (a : Nat) (v : List Byte) : Packet :=
  let p := stackOf t a
  { stack := p.1, port := port, owner := o, ty := .masked, off := p.2 / 64 * 64, sec := p.2 / 32 % 2,
    mask := (List.range 64).map (fun i => p.2 % 64 ≤ i && i < p.2 % 64 + v.length),
    data := (List.range 64).map (fun i => if p.2 % 64 ≤ i then v.getD (i - p.2 % 64) 0 else 0) }

/-- The DCZ packet of the 64-byte unit at a local address (R314). -/
def zeroPacket (t : Topo) (port : Nat) (o : Owner) (a : Nat) : Packet :=
  let p := stackOf t a
  { stack := p.1, port := port, owner := o, ty := .write, off := p.2 / 64 * 64, big := true, mask := List.replicate 64 true,
    data := List.replicate 64 0 }

/-- The accumulation packet of one element of a format at a local address (R283, R311): the first 32 data bytes hold the source or,
for a CAS, the compare value, and the last 32 a CAS's new value, each at the element's offset. -/
def accPacket (t : Topo) (port : Nat) (a op fmt x y : Nat) (who : Requester) : Packet :=
  let p := stackOf t a
  let n := accBytes fmt
  let o := p.2 % 32
  let half := fun (v : Nat) => (List.range 32).map (fun i => if o ≤ i && i < o + n then (natBytes n v).getD (i - o) 0 else 0)
  { stack := p.1, port := port, ty := .acc, off := p.2 / 64 * 64, sec := p.2 / 32 % 2, fmt := fmt % 16, op := op, who := who,
    comp := natBytes 8 (p.2 % 32),
    mask := (List.range 64).map (fun i => p.2 % 64 ≤ i && i < p.2 % 64 + n),
    data := if op = 7 then half x ++ half y else (List.range 64).map (fun i => (half x).getD (i % 32) 0) }

/-! ## A request performs (R283-R285, R298) -/

/-- Do two requests of one port touch a common sector (R284)? -/
def Packet.meets (p q : Packet) : Bool :=
  p.port == q.port && p.stack == q.stack && decide (p.lo < q.lo + q.len) && decide (q.lo < p.lo + p.len)

/-- May a request perform: none that its port sent earlier to a common sector has yet to (R284)? -/
def State.pktDue (s : State) (id : Nat) (p : Packet) : Bool :=
  !p.done && !s.pkts.any (fun q => decide (q.1 < id) && !q.2.done && q.2.meets p)

/-- A request has been performed, with a STATUS and the data of its reply. -/
def State.replied (s : State) (id status : Nat) (bs : List Byte) : State :=
  { s with pkts := tmod s.pkts id (fun p => { p with done := true, status := status, reply := bs }) }

/-- Can a byte not be read: in no offered memory, in a sector that cannot be corrected, or in a compressed block without a value
(R283, R285, R298)? -/
def State.spoiledByte (s : State) (a : Nat) : Bool :=
  !inMemory s.topo a || (if s.packed a then (s.block256 (a - a % 256)).isNone else s.ueAt a)

/-- The data of a reply: the coherent bytes, and 0xFF where they cannot be read (R283, R302). -/
def State.replyBytes (s : State) (a n : Nat) : List Byte :=
  (List.range n).map (fun i => if s.spoiledByte (a + i) then 0xFF else s.byte (a + i))

/-- A read (R283). -/
def State.pktRead (s : State) (id : Nat) (p : Packet) : State :=
  let a := s.pktAddr p
  (s.readEffect a p.len).replied id (s.dieStatus a p.len) (s.replyBytes a p.len)

/-- A write or a masked write; every cached copy follows the bytes that are written (R285). -/
def State.pktWrite (s : State) (id : Nat) (p : Packet) : State :=
  let a := s.pktAddr p
  ((s.dieWriteIn a p.bytes false).copyBytes a (s.takes a p.bytes false)).replied id (s.writeStatus a p.bytes false) []

/-- The accumulate type of a packet: 16 is coded as 0 (R283). -/
def Packet.accFmt (p : Packet) : Nat := if p.fmt = 0 then 16 else p.fmt

/-- The new bytes of element k of an accumulation: none where its bytes are not all in the mask (R225, R283). -/
def Packet.accElem (p : Packet) (old : List Byte) (k : Nat) : List (Option Byte) :=
  let n := accBytes p.accFmt
  let j := p.lo - p.off + n * k
  if (List.range n).all (fun i => p.mask.getD (j + i) false) then
    let x := bytesNat ((old.drop (n * k)).take n)
    let y := if p.op = 7 then
        let at' := fun (o : Nat) => bytesNat (((p.data.drop o).take 32).drop (n * k) |>.take n)
        if x = at' 0 then at' 32 else x
      else accOp p.op p.accFmt x (bytesNat ((p.data.drop j).take n))
    (natBytes n y).map some
  else List.replicate n none

/-- The new bytes of an accumulation, from the old ones. -/
def Packet.accNew (p : Packet) (old : List Byte) : List (Option Byte) :=
  (List.range (p.len / accBytes p.accFmt)).flatMap (p.accElem old)

/-- An accumulation: one read-modify-write, whose reply holds the old values (R283, R285, R286). -/
def State.pktAcc (s : State) (id : Nat) (p : Packet) : State :=
  let a := s.pktAddr p
  let old := s.replyBytes a p.len
  let v := p.accNew (s.bytes a p.len)
  (((s.accCount a p.len).dieWriteIn a v true).copyBytes a (s.takes a v true)).replied id (s.writeStatus a v true) old

/-- A request of any type performs. -/
def State.perform (s : State) (id : Nat) (p : Packet) : State :=
  match p.ty with
  | .read => s.pktRead id p
  | .write => s.pktWrite id p
  | .masked => s.pktWrite id p
  | .acc => s.pktAcc id p

/-- The requests that a port has sent to the 64-byte units of n bytes and that have yet to perform, oldest first. -/
def State.earlier (s : State) (port a n : Nat) : Tab Packet :=
  s.pkts.filter (fun q =>
    let u := addrOf s.topo q.2.stack q.2.off
    q.2.port == port && !q.2.done && decide (u < a + n) && decide (a < u + 64))

/-- The requests that a port sent earlier to the same units perform before one it makes now (R284, R302). -/
def State.performEarlier (s : State) (port a n : Nat) : State :=
  (s.earlier port a n).foldl (fun t q => t.perform q.1 q.2) s

/-- A request sent, performed after the earlier ones of its port to its unit, and replied to within one event; and the reply. -/
def State.atOnce (s : State) (p : Packet) : List Byte × State :=
  let t := s.performEarlier p.port (addrOf s.topo p.stack p.off) 64
  let id := t.nextPkt
  let t := (t.send p).perform id p
  ((tgetD t.pkts id {}).reply, { t with pkts := tdel t.pkts id })

end Sys2Proof.Machine
end

