-- ==== Sys2Proof/Machine/Cache.lean ====
section
/-!
DEFINITION. The data cache of a stream cluster (R163, R202, R302, R396).  Its fills and write-backs are requests of the control
core's port that are answered within the event that makes them (log 79).
-/

namespace Sys2Proof.Machine

/-- A line's sectors marked dirty by a store of n bytes. -/
def Line.dirty (l : Line) (o n : Nat) : Line :=
  { l with d0 := l.d0 || decide (o < 32), d1 := l.d1 || decide (32 < o + n) }

/-- A dirty line written back, each dirty sector as a whole-sector write; the line stays valid (R202, R396). -/
def State.writeBack (s : State) (n k : Nat) : State :=
  match tget (s.sc n).lines k with
  | none => s
  | some l =>
    let s := if l.d0 || l.d1 then s.performEarlier (corePort n) (64 * k) 64 else s
    let s := if l.d0 then s.dieWriteIn (64 * k) ((l.data.take 32).map some) false else s
    let s := if l.d1 then s.dieWriteIn (64 * k + 32) ((l.data.drop 32).map some) false else s
    s.modSc n (fun t => { t with lines := tmod t.lines k (fun l => { l with d0 := false, d1 := false }) })

/-- A line discarded: stores held only in it are lost, so clean copies elsewhere go with a dirty one (R202, R396). -/
def State.dropLine (s : State) (n k : Nat) : State :=
  match tget (s.sc n).lines k with
  | none => s
  | some l =>
    let s := s.modSc n (fun t => { t with lines := tdel t.lines k })
    if l.d0 || l.d1 then
      { s with scs := s.scs.map (fun p =>
          (p.1, match tget p.2.lines k with
                | some m => if m.d0 || m.d1 then p.2 else { p.2 with lines := tdel p.2.lines k }
                | none => p.2)) }
    else s

/-- A line written back and dropped: a replacement (R396). -/
def State.evict (s : State) (n k : Nat) : State :=
  (s.writeBack n k).modSc n (fun t => { t with lines := tdel t.lines k })

/-- The lines of an SC's 64 KiB data cache (R163). -/
def cacheLines : Nat := 1024

/-- Room for one more line in an SC's data cache: a full one replaces a line, and which is not specified (R396): any, by the next
free value (log 10). -/
def State.cacheRoom (s : State) (n : Nat) : State :=
  let l := (s.sc n).lines
  if l.length < cacheLines then s else (s.evict n (l.getD (s.freeVal % l.length) default).1).useFree 1

/-- The line of a cached access: what the core's port sent earlier to it has performed (R284, R302), a line the host may have
modified is asked for (R350), and one that is absent is filled (R396). -/
def State.fillLine (s : State) (n a : Nat) : State :=
  let k := a / 64
  let s := s.performEarlier (corePort n) (64 * k) 64
  if thas (s.sc n).lines k then s.meetHost (64 * k) 64 false
  else
    let s := s.cacheRoom n
    let d := s.bytes (64 * k) 64
    let s := s.noteRead (64 * k) 64
    s.modSc n (fun t => { t with lines := tput t.lines k { data := d } })

/-- A cached store by an SC: its line is allocated and dirty, and every copy follows (R302, R396). -/
def State.cachedStore (s : State) (n a : Nat) (v : List Byte) : State :=
  let s := ((s.fillLine n a).meetHost a v.length true).copyBytes a (v.map some)
  s.modSc n (fun t => { t with lines := tmod t.lines (a / 64) (fun l => l.dirty (a % 64) v.length) })

/-- DCZ on a cached page: the line is allocated without a fill, all zero and dirty (R202, R396). -/
def State.zeroLine (s : State) (n a : Nat) : State :=
  let k := a / 64
  let s := s.performEarlier (corePort n) (64 * k) 64
  let s := if thas (s.sc n).lines k then s else s.cacheRoom n
  let s := (s.meetHost (64 * k) 64 true).copyBytes (64 * k) (List.replicate 64 (some 0))
  s.modSc n (fun t => { t with lines := tput t.lines k { data := List.replicate 64 0, d0 := true, d1 := true } })

end Sys2Proof.Machine
end

