-- ==== Sys2Proof/Machine/Xlat.lean ====
section
/-!
DEFINITION. Translation (R269-R281): page-table walks, range registers, TLBs, the checks of an access (R199), and what a
context's uncached accesses wait for (R200, R304, R315).
-/

namespace Sys2Proof.Machine

/-! ## Addresses -/

/-- This package's id (R362). -/
def State.pkgid (s : State) : Nat := s.fab.fid.toNat % 4096

/-- Is a virtual address canonical (R270)? -/
def canonical (va : Nat) : Bool := va < 2 ^ 56 || 2 ^ 64 - 2 ^ 56 ≤ va

/-- The half an SC's die lies in (R3). -/
def halfOf (n : Nat) : Nat := n / 8

/-- Local bits of a global physical address, and its package (R267). -/
def localOf (pa : Nat) : Nat := pa % 2 ^ 41
def pkgOf (pa : Nat) : Nat := pa / 2 ^ 41 % 4096

/-- A local address on this package obeys R269: offered memory, or register space through a UC mapping. -/
def State.placeOk (s : State) (a : Nat) (uc : Bool) : Bool := inMemory s.topo a || (inRegs a && uc)

/-- The same on another package, whose harvest is not known here: the holes of R267 only. -/
def farOk (a : Nat) (uc : Bool) : Bool := a < 2 ^ 39 || (inRegs a && uc)

/-! ## Walks (R271-R273) -/

/-- Page sizes by size code: 64 KiB, 2 MiB, 1 GiB. -/
def pageBytes (size : Nat) : Nat := if size = 0 then 2 ^ 16 else if size = 1 then 2 ^ 21 else 2 ^ 30

/-- The 16 MiB areas named by the KSPs that are valid, as local addresses (R208). -/
def State.saveAreas (s : State) : List Nat :=
  s.scs.filterMap (fun p => if bitNat p.2.ksp.toNat 0 then some (bitsNat p.2.ksp.toNat 24 17 * 2 ^ 24) else none)

/-- Does a physical range meet a live kernel save area (R208, R273)? -/
def State.meetsSave (s : State) (a n : Nat) : Bool := s.saveAreas.any (fun k => a < k + 2 ^ 24 && k < a + n)

/-- The index of a level within a virtual address (R270). -/
def levelIndex (va level : Nat) : Nat :=
  if level = 0 then bitsNat va 16 5 else bitsNat va (12 + 9 * level) 9

/-- The leaf a PTE holds at a level, or none (R272, R273). -/
def State.leaf (s : State) (level va p : Nat) : Option Xlat :=
  let size := pageBytes level
  let addr := bitsNat p 8 33 * 256
  let uc := bitNat p 5
  if 2 < level then none
  else if !(bitsNat p 41 12 == s.pkgid || bitNat p 63) then none
  else if addr % size ≠ 0 then none
  else if !s.placeOk addr uc || s.meetsSave addr size then none
  else
    some { va := va / size * size, size := level,
           pa := (if bitNat p 63 then s.pkgid else bitsNat p 41 12) * 2 ^ 41 + addr,
           dup := bitNat p 63, sysatom := bitNat p 7, comp := bitNat p 6, uc := uc,
           x := bitNat p 4, w := bitNat p 3, r := bitNat p 2 }

/-- Is a PTE a well-formed pointer to a table of the next level (R272)? -/
def pointerOk (next p : Nat) : Bool :=
  !bitNat p 63 && bitsNat p 41 12 == 0 && bitsNat p 2 6 == 0 && (next == 0 || bitsNat p 8 4 == 0)

/-- A walk from a level, reading memory base dies only (R273, R278). -/
def State.walk (s : State) : Nat → Nat → Nat → Option Xlat
  | level, table, va =>
    let p := bytesNat (s.dieBytes (table + 8 * levelIndex va level) 8)
    if !bitNat p 0 || bitsNat p 53 10 ≠ 0 then none
    else if bitNat p 1 then s.leaf level va p
    else match level with
      | 0 => none
      | k + 1 => if pointerOk k p then State.walk s k (bitsNat p 8 33 * 256) va else none

/-- The addresses of the PTEs a walk reads (R273). -/
def State.walkReads (s : State) : Nat → Nat → Nat → List Nat
  | level, table, va =>
    let a := table + 8 * levelIndex va level
    let p := bytesNat (s.dieBytes a 8)
    if !bitNat p 0 || bitsNat p 53 10 ≠ 0 || bitNat p 1 then [a]
    else match level with
      | 0 => [a]
      | k + 1 => if pointerOk k p then a :: State.walkReads s k (bitsNat p 8 33 * 256) va else [a]

/-- The fields of PTB (R271). -/
def ptbAsid (p : Word) : Nat := bitsNat p.toNat 48 16
def ptbTable (p : Word) : Nat := bitsNat p.toNat 12 29 * 4096

/-- The PTB of an SC, once it has been written (R271). -/
def Sc.root (t : Sc) : Option Word := if t.ptbSet then some t.ptb else none

/-- The translation of a page, walked. -/
def State.walkPage (s : State) (root : Option Word) (va : Nat) : Option Xlat :=
  match root with
  | none => none
  | some p => s.walk 4 (ptbTable p) (va % 2 ^ 57)

/-! ## TLBs (R280) -/

/-- Does an entry map a VA? -/
def Xlat.maps (x : Xlat) (va : Nat) : Bool :=
  let v := va % 2 ^ 57
  x.va ≤ v && v < x.va + pageBytes x.size

/-- The entry of a TLB that maps a VA under an ASID. -/
def tlbFind (l : List (Nat × Xlat)) (asid va : Nat) : Option Xlat :=
  (l.find? (fun e => e.1 == asid && e.2.maps va)).map Prod.snd

/-- A TLB of a capacity in which a translation is the most recently used, and the least recently used one makes room (R280). -/
def tlbUse (cap : Nat) (l : List (Nat × Xlat)) (asid : Nat) (x : Xlat) : List (Nat × Xlat) :=
  ((asid, x) :: l.filter (fun e => !(e.1 == asid && e.2.va == x.va && e.2.size == x.size))).take cap

/-- The TLB entry of an ASID that maps a VA, in an SC's TLB and in its die's last-level TLB. -/
def Sc.tlbHit (t : Sc) (asid va : Nat) : Option Xlat := tlbFind t.tlb asid va
def State.dieHit (s : State) (n asid va : Nat) : Option Xlat := tlbFind (tgetD s.dieTlb (n / 2) []) asid va

/-- The page translation of a VA under a root: from the SC's TLB, from its die's, else walked. -/
def State.page (s : State) (n : Nat) (root : Option Word) (va : Nat) : Option Xlat :=
  match root with
  | none => none
  | some p =>
    match (s.sc n).tlbHit (ptbAsid p) va with
    | some x => some x
    | none =>
      match s.dieHit n (ptbAsid p) va with
      | some x => some x
      | none => s.walkPage root va

/-- A translation used by an SC, and by its die (R280). -/
def State.useScTlb (s : State) (n asid : Nat) (x : Xlat) : State := s.modSc n (fun t => { t with tlb := tlbUse 64 t.tlb asid x })
def State.useDieTlb (s : State) (n asid : Nat) (x : Xlat) : State :=
  { s with dieTlb := tput s.dieTlb (n / 2) (tlbUse 8192 (tgetD s.dieTlb (n / 2) []) asid x) }

/-- The requests of a walk for an SC at the base dies, on the port of its hub's walkers, counted as reads; a line the host may have
modified is asked for, as by any device read (R278, R282, R350). -/
def State.countWalk (s : State) (n : Nat) (l : List Nat) : State :=
  l.foldl (fun t a => (t.performEarlier (walkPort (halfOf n)) a 8).readEffect a 8) s

/-! ## Range registers (R274, R275) -/

/-- Word w of live range register r. -/
def State.rng (s : State) (r w : Nat) : Nat := (tgetD s.rngLive (4 * r + w) 0).toNat

/-- Is the register live, and does it hold a VA? -/
def State.rngHas (s : State) (r va : Nat) : Bool :=
  bitNat (s.rng r 1) 0 && s.rng r 0 / 2 ^ 16 * 2 ^ 16 ≤ va && va < s.rng r 1 / 2 ^ 16 * 2 ^ 16

/-- The lowest-numbered live range register that holds a VA. -/
def State.rngFor (s : State) (va : Nat) : Option Nat := (List.range 64).find? (fun r => s.rngHas r va)

/-- The translation by a range register (R275), as the page of 64 KiB that holds the VA: invalid under R269. -/
def State.rngXlat (s : State) (r va : Nat) : Option Xlat :=
  let base := s.rng r 0 / 2 ^ 16 * 2 ^ 16
  let lim := s.rng r 1
  let i := (va - base) / 2 ^ 16
  let loc := bitsNat (s.rng r 2) 16 25 * 2 ^ 16
  let n := bitsNat (s.rng r 3) 12 12
  let pkg := if n = 0 then bitsNat (s.rng r 2) 41 12 else (bitsNat (s.rng r 3) 0 12 + i % n) % 4096
  let a := loc + (if n = 0 then i else i / n) * 2 ^ 16
  let uc := bitNat lim 1
  if 2 ^ 41 ≤ a then none
  else if pkg = s.pkgid && !s.placeOk a uc then none
  else if pkg ≠ s.pkgid && !farOk a uc then none
  else some { va := va / 2 ^ 16 * 2 ^ 16, size := 3, pa := pkg * 2 ^ 41 + a, sysatom := bitNat lim 5,
              comp := bitNat lim 4, uc := uc, x := false, w := bitNat lim 3, r := bitNat lim 2 }

/-! ## Translation of a byte -/

/-- The translation of a byte: `pa` is the byte's global physical address. -/
def State.translate (s : State) (n : Nat) (root : Option Word) (va : Nat) : Option Xlat :=
  if !canonical va then none
  else match s.rngFor va with
    | some r => (s.rngXlat r va).map (fun x => { x with pa := x.pa + va % 2 ^ 16 })
    | none => (s.page n root va).map (fun x => { x with pa := x.pa + va % pageBytes x.size })

/-- The translation under the SC's own PTB. -/
def State.xlat (s : State) (n : Nat) (va : Nat) : Option Xlat := s.translate n (s.sc n).root va

/-- Is the byte on another package (R276)? -/
def State.far (s : State) (x : Xlat) : Bool := x.size == 3 && pkgOf x.pa != s.pkgid

/-- What a translation of a VA leaves in the TLBs (R278, R280): a hit is the most recently used; what an SC's TLB does not hold
comes from its die's, and what neither holds is walked and held where it is valid.  Without `sc` it is the DCE's, which only the
die's TLB serves. -/
def State.touch (s : State) (n : Nat) (sc : Bool) (root : Option Word) (va : Nat) : State :=
  match root with
  | none => s
  | some p =>
    let asid := ptbAsid p
    if !canonical va || (s.rngFor va).isSome then s
    else match (if sc then (s.sc n).tlbHit asid va else none) with
      | some x => s.useScTlb n asid x
      | none =>
        let hold := fun (t : State) (x : Xlat) => let t := t.useDieTlb n asid x; if sc then t.useScTlb n asid x else t
        match s.dieHit n asid va with
        | some x => hold s x
        | none =>
          let t := s.countWalk n (s.walkReads 4 (ptbTable p) (va % 2 ^ 57))
          match s.walkPage root va with
          | none => t
          | some x => hold t x

/-- The executing context translates a VA. -/
def State.touchMe (s : State) (va : Nat) : State := s.touch s.cur.sc true s.mySc.root va

/-- The translation that a check of n bytes makes, where the address is aligned (R199, R280). -/
def State.walked (s : State) (a : Word) (n : Nat) (align : Bool := true) : State :=
  if align && a.toNat % n ≠ 0 then s else s.touchMe a.toNat

/-- The word XLAT writes (R277). -/
def xlatWord : Option Xlat → Word
  | none => 0
  | some x =>
    let b := fun (v : Bool) (i : Nat) => if v then 2 ^ i else 0
    BitVec.ofNat 64 (2 ^ 63 + x.size * 2 ^ 60 + b x.dup 59 + b x.sysatom 58 + b x.comp 57 + b x.uc 56 + b x.x 55
      + b x.w 54 + b x.r 53 + x.pa % 2 ^ 53)

/-! ## Register space: which registers are privileged (R11, R317) -/

/-- Does the register at an offset hold a field with a PRIV- access code? -/
def privReg (off : Nat) : Bool :=
  let o := off / 8 * 8
  if o < 0x080000 then o % 0x40 == 0 || o % 0x40 == 8
  else if o < 0x300000 then
    o == 0x200100 || (decide (0x208000 ≤ o) && decide (o < 0x20C000))
  else if o < 0x400000 then o == 0x300000 || o == 0x300010 || o == 0x300020
  else if o < 0x1000000 then
    o == 0x400000 || o == 0x400008 || o == 0x400010 || o == 0x400018
      || (decide (0x400100 ≤ o) && decide (o < 0x400150))
      || (decide (0x410000 ≤ o) && decide (o < 0x41C000))
      || (decide (0x420000 ≤ o) && decide (o < 0x420200))
      || (decide (0x430000 ≤ o) && decide (o < 0x430400))
  else if o < 0x2000000 then
    (decide (o < 0x1000800) && decide (o % 0x100 < 0x40)) || o == 0x1001000 || o == 0x1001100
  else if o < 0x2200000 then true
  else
    decide (0x100000000 ≤ o) && decide (o < 0x180000000) && decide (o % 0x10000000 < 0x8000000)

/-- Does an access of n bytes at an offset touch such a register? -/
def touchesPriv (off n : Nat) : Bool := (List.range ((n + 7) / 8)).any (fun i => privReg (off + 8 * i))

/-! ## The checks of an access (R199) -/

/-- The failing check of an access of n bytes by context c, as a cause, or the translation. -/
def State.checkAccess (s : State) (n c : Nat) (store align : Bool) (a bytes : Nat) : Except Nat Xlat :=
  if align && a % bytes ≠ 0 then .error causeAlign
  else match s.xlat n a with
    | none => .error causePageFault
    | some x =>
      if store && x.dup then .error causeWprotDup
      else if (if store then !x.w else !x.r) || s.far x then .error causeProt
      else if inRegs (localOf x.pa) && touchesPriv ((localOf x.pa - 2 ^ 40) / bytes * bytes) bytes && !isSystem c then
        .error causePriv
      else .ok x

/-- The executing context's check. -/
def State.check (s : State) (store : Bool) (a : Word) (bytes : Nat) (align : Bool := true) : Except Nat Xlat :=
  s.checkAccess s.cur.sc s.cur.ctx store align a.toNat bytes

/-! ## Uncached accesses (R282-R284, R314, R315) -/

/-- The context waits for a tag of a stack, in the order in which contexts blocked; one that has waited for it since it blocked keeps
its place (R315). -/
def State.waitTag (s : State) (stack : Nat) (w : Wait) : State :=
  let c := s.cur.ctx
  let stay := s.me.waitsTag stack && s.mySc.tagQ.contains (c, stack)
  (s.modMySc (fun t => { t with tagQ := if stay then t.tagQ else t.tagQ.filter (fun e => e.1 != c) ++ [(c, stack)] })).block w

/-- The context no longer waits for a tag. -/
def State.leaveTagQ (s : State) : State := s.modMySc (fun t => { t with tagQ := t.tagQ.filter (fun e => e.1 != s.cur.ctx) })

/-- A register marked unfilled until a reply arrives (R315); g0 never is. -/
def Ctx.markUc (x : Ctx) (r : Nat) : Ctx := if r = 0 then x else { x with unfilled := x.unfilled ++ [r + 32] }

/-- Have a context's uncached accesses all performed? -/
def State.performed (s : State) (n c : Nat) : Bool :=
  !s.pkts.any (fun p => p.2.port == n && p.2.owner == s.ownerOf n c && !p.2.done)

/-- Has an LD.acq of the executing context yet to perform (R200)? -/
def State.acquiring (s : State) : Bool := s.pkts.any (fun p => p.2.acq && !p.2.done && p.2.port == corePort s.cur.sc && p.2.owner == s.myOwner)

/-- The executing context's earlier loads and stores have performed, then it goes on (R304): an instruction that releases
or fences. -/
def State.afterAccesses (s : State) (f : State → State) : State :=
  if s.performed s.cur.sc s.cur.ctx then f s else s.block (.settled [])

/-! ## Invalidation (R277, R343) -/

/-- The state without the TLB entries a test holds of, in every SC and die of the package. -/
def State.dropTlb (s : State) (f : Nat → Xlat → Bool) : State :=
  let keep := fun (e : Nat × Xlat) => !f e.1 e.2
  { s with scs := s.scs.map (fun p => (p.1, { p.2 with tlb := p.2.tlb.filter keep })),
           dieTlb := s.dieTlb.map (fun p => (p.1, p.2.filter keep)) }

/-- Every pin record of the package (R281). -/
def State.pins (s : State) : List Pin := s.scs.flatMap (fun p => p.2.entries.flatMap Entry.pins)

/-- Is a VA under a pin of an ASID (R277)?  `none`: any VA. -/
def State.pinned (s : State) (asid : Nat) (va : Option Nat) : Bool :=
  s.pins.any (fun p => p.asid == asid && (match va with | some a => p.lo ≤ a && a < p.hi | none => true))

end Sys2Proof.Machine
end

