-- ==== Sys2Proof/Machine/Regs.lean ====
section
/-!
DEFINITION. Package register space (R317): what every register reads, and what a write of each does (R208, R271, R286,
R297, R299, R311, R318, R319, R339, R351, R352, R355, R361, R362, R372, R378, R381, R384, R395).
-/

namespace Sys2Proof.Machine

/-! ## Ports (R355) -/

/-- The ports that exist: 0-5 and 8-55. -/
def portOk (p : Nat) : Bool := p < 6 || (8 ≤ p && p < 56)

/-- The lock state of a port. -/
def State.port (s : State) (p : Nat) : LockSt := tgetD s.ports p .unlocked

/-- The state with a port's lock state set. -/
def State.setPort (s : State) (p : Nat) (x : LockSt) : State := { s with ports := tput s.ports p x }

/-- STATE codes (R355). -/
def LockSt.code : LockSt → Nat
  | .unlocked => 0
  | .locked => 1
  | .run => 2
  | .error => 3

/-- Is every optical lane in CONFIG_UNLOCKED (R356, R361)? -/
def State.lanesUnlocked (s : State) : Bool := (List.range 48).all (fun l => s.port (8 + l) == .unlocked)

/-- Is a package dead: marked so, or an id with no package since the domain was brought up (R381)? -/
def State.isDead (s : State) (q : Nat) : Bool :=
  s.fab.dead.contains q || (s.fab.up && q != s.pkgid && (decide (2 ^ bitsNat s.fab.fcfg.toNat 4 4 ≤ q) || Config.absent q))

/-- Commands of an entry that a storage port has been sent and has not answered (R289). -/
def Entry.onPort (e : Entry) (port : Nat) : Nat :=
  match e.work with
  | .nvme p _ _ _ _ _ _ => if p = port ∧ e.st = .started then (e.since.filter (fun x => !thas e.parts x.1)).length else 0
  | _ => 0

/-- The same of every entry of the package. -/
def State.nvmeOut (s : State) (port : Nat) : Nat :=
  (s.scs.map (fun x => (x.2.entries.map (fun e => e.onPort port)).sum)).sum

/-- Does a packet carry a request of the host through a port (R311)? -/
def Packet.fromHost (p : Packet) (port : Nat) : Bool := match p.who with | .host q _ => q == port | _ => false

/-- Has a port traffic in flight: a host's atomic between its read and its write or on its way as a packet, snoops the host has yet to
answer, NVMe commands not completed, or frames of a lane not acknowledged? -/
def State.portBusy (s : State) (p : Nat) : Bool :=
  if 8 ≤ p then (((tget s.fab.links (p - 8)).map (fun l => !l.sent.isEmpty)).getD false)
  else s.hostRmw.any (fun x => x.1.port == p) || s.pkts.any (fun x => x.2.fromHost p) || (p == 0 && !s.snoops.isEmpty) || (2 ≤ p && s.nvmeOut (p - 2) != 0)

/-- The bytes measurement 3 covers: FCFG and every KEYTAB entry (R390). -/
def State.measured3 (s : State) : List Byte :=
  natBytes 8 s.fab.fcfg.toNat ++ (List.range 6144).flatMap (fun k => natBytes 8 (tgetD s.fab.keytab k 0))

/-- Measurement 3 taken anew (R390). -/
def State.measure3 (s : State) : State :=
  { s with mgmt := { s.mgmt with calendar := some s.measured3 } }

/-- The domain is brought up anew, as the first of its lanes locks: what was known of other packages is forgotten, and ids with
no package are dead (R370, R381, R391).  DEDUCED (log 81): no rule names another moment. -/
def State.bringUp (s : State) : State :=
  { s with fab := { s.fab with up := true, dead := [], silent := [], farLanes := [], farSpace := [], badSlots := [] } }

/-- A lane locks: the calendar is measured, and a partner that reports another fabric version than 1 brings it to ERROR (R390,
R391).  What the partner reports is a free value. -/
def State.lockLane (s : State) (p : Nat) : State :=
  let t := if s.lanesUnlocked then s.bringUp else s
  (t.measure3.setPort p (if s.freeVal = 1 then .locked else .error)).useFree 1

/-- CMD 1 of PORTCTL: CONFIG_UNLOCKED to CONFIG_LOCKED (R355). -/
def State.lockPort (s : State) (p : Nat) : State :=
  if portOk p && s.port p == .unlocked then (if 8 ≤ p then s.lockLane p else s.setPort p .locked)
  else s

/-- CMD 2: CONFIG_LOCKED to RUN. -/
def State.runPort (s : State) (p : Nat) : State :=
  if portOk p && s.port p == .locked then
    let t := s.setPort p .run
    if p = 0 then { t with mgmt := { t.mgmt with hostDown := none } } else t
  else s

/-- CMD 3: to CONFIG_UNLOCKED; from RUN once traffic in flight has drained. -/
def State.unlockPort (s : State) (p : Nat) : State :=
  if !portOk p || s.port p == .unlocked then s
  else if s.port p == .run && s.portBusy p then { s with unlocking := s.unlocking ++ [p] }
  else { s.setPort p .unlocked with unlocking := s.unlocking.filter (· != p) }

/-- A link failure or integrity error of a port: ERROR from every state (R355).  The half 0 host link is down from then on (R351). -/
def State.failPort (s : State) (p : Nat) : State :=
  if portOk p then
    { s.setPort p .error with
      unlocking := s.unlocking.filter (· != p), hostRmw := s.hostRmw.filter (·.1.port != p),
      mgmt := if p = 0 ∧ s.mgmt.hostDown = none then { s.mgmt with hostDown := some s.tb } else s.mgmt }
  else s

/-- The ports that wait to unlock and have drained take the transition. -/
def State.settlePorts (s : State) : State :=
  s.unlocking.foldl (fun t p => if t.portBusy p then t else t.unlockPort p) s

/-! ## Work-queue registers (R318, R319) -/

/-- A queue. -/
def State.queue (s : State) (q : Nat) : Queue := tgetD s.queues q {}

/-- The state with a queue changed. -/
def State.modQueue (s : State) (q : Nat) (f : Queue → Queue) : State := { s with queues := tput s.queues q (f (s.queue q)) }

/-- Can the ring of a queue be enabled with a size: it lies within its hub's own half (R318)? -/
def State.ringOk (s : State) (q : Nat) (base : Word) (log2 : Nat) : Bool :=
  let b := base.toNat
  let h := q / 4096
  b / halfSize == h && b % halfSize + 64 * 2 ^ log2 ≤ offered s.topo h

/-- QBASE. -/
def State.writeQbase (s : State) (q : Nat) (v : Word) : State :=
  if (s.queue q).en then s else s.modQueue q (fun x => { x with base := BitVec.ofNat 64 (bitsNat v.toNat 6 35 * 64) })

/-- QCFG (R318): while EN is 1 only a write that clears EN acts. -/
def State.writeQcfg (s : State) (q : Nat) (v : Word) : State :=
  let x := s.queue q
  let l := bitsNat v.toNat 0 5
  if !bitNat v.toNat 8 then s.modQueue q (fun x => { x with en := false, log2 := l })
  else if x.en then s
  else if 1 ≤ l && l ≤ 16 && s.ringOk q x.base l && !s.mgmt.dead then
    s.modQueue q (fun x => { x with en := true, log2 := l, head := x.tail % 2 ^ l })
  else s.modQueue q (fun x => { x with log2 := l })

/-- QTAIL (R319). -/
def State.writeQtail (s : State) (q : Nat) (v : Word) : State :=
  s.modQueue q (fun x => { x with tail := bitsNat v.toNat 0 16 })

/-- QSTAT: REF is W1C, and stays where it was set in the same wall cycle; the rest is RO (R13, R318). -/
def State.writeQstat (s : State) (q : Nat) (v : Word) : State :=
  if bitNat v.toNat 8 then s.modQueue q (fun x => { x with ref := x.fresh }) else s

/-- A register of a queue block (R318). -/
def State.readQueue (s : State) (q k : Nat) : Word :=
  let x := s.queue q
  if k = 0 then x.base
  else if k = 0x08 then BitVec.ofNat 64 ((if x.en then 256 else 0) + x.log2)
  else if k = 0x10 then BitVec.ofNat 64 x.tail
  else if k = 0x18 then BitVec.ofNat 64 x.head
  else if k = 0x20 then BitVec.ofNat 64 (x.infl % 65536 * 65536 + (if x.ref then 256 else 0) + x.last)
  else 0

/-! ## DUP records (R339) -/

/-- Register k of DUP record i as written. -/
def State.drecRaw (s : State) (i k : Nat) : Nat := (tgetD s.drec (8 * i + k) 0).toNat

/-- The bits a DUP register has (R339). -/
def drecMask (k : Nat) : Nat :=
  if k = 0 then 2 ^ 63 + (2 ^ 41 - 2 ^ 21)
  else if k = 1 then 2 ^ 41 - 2 ^ 8
  else if k = 2 then 2 ^ 41 - 2 ^ 3
  else if k = 3 then 31
  else 0x0FFF0FFF0FFF0FFF

/-- V, FRAME, TBL, L1PTE, NHOLD and the holders of record i. -/
def State.drecV (s : State) (i : Nat) : Bool := bitNat (s.drecRaw i 0) 63
def State.drecFrame (s : State) (i : Nat) : Nat := bitsNat (s.drecRaw i 0) 21 20 * 2 ^ 21
def State.drecTbl (s : State) (i : Nat) : Nat := bitsNat (s.drecRaw i 1) 8 33 * 2 ^ 8
def State.drecL1 (s : State) (i : Nat) : Nat := bitsNat (s.drecRaw i 2) 3 38 * 8
def State.drecN (s : State) (i : Nat) : Nat := bitsNat (s.drecRaw i 3) 0 5
def State.drecHold (s : State) (i j : Nat) : Nat := bitsNat (s.drecRaw i (4 + j / 4)) (16 * (j % 4)) 12
def State.holds (s : State) (i : Nat) : List Nat := (List.range (s.drecN i)).map (s.drecHold i)

/-- Is the record valid to set V with a DREC0 value (R339)? -/
def State.drecOk (s : State) (i : Nat) (v : Word) : Bool :=
  let frame := bitsNat v.toNat 21 20 * 2 ^ 21
  let n := s.drecN i
  inMemory s.topo frame
    && (List.range 8).all (fun k =>
      let x := if k = 0 then v.toNat else s.drecRaw i k
      Nat.land x (drecMask k) == x)
    && 2 ≤ n && n ≤ 16
    && (List.range 16).all (fun j => j < n || s.drecHold i j == 0)
    && (s.holds i).dedup.length == n && (s.holds i).contains s.pkgid
    && !(List.range 256).any (fun j => j != i && s.drecV j && s.drecFrame j == frame)

/-- The directory state of a page (R340). -/
def State.dupPage (s : State) (i : Nat) : DupPage := tgetD s.dup i {}

/-- A write to DREC0: V set validates, V cleared only while the page is whole (R339). -/
def State.writeDrec0 (s : State) (i : Nat) (v : Word) : State :=
  let put := fun (x : Word) => { s with drec := tput s.drec (8 * i) x }
  if s.drecV i then
    if bitNat v.toNat 63 || (s.dupPage i).split || !(s.dupPage i).owned.isEmpty then s
    else put v
  else if bitNat v.toNat 63 then
    if s.drecOk i v then { put v with dup := tput s.dup i {} } else put (v &&& 0x7FFFFFFFFFFFFFFF)
  else put v

/-- A write to a DUP register: only while V is 0 (R339). -/
def State.writeDrec (s : State) (i k : Nat) (v : Word) : State :=
  if k = 0 then s.writeDrec0 i v
  else if s.drecV i then s
  else { s with drec := tput s.drec (8 * i + k) v }

/-! ## Registers of the topology, the management processor and the fabric -/

/-- TOPO (R352), as the majority's agents read it or as the minor half's management processor does after a split: SPLIT is the
minor half's own bit (R354). -/
def State.topoWordOf (s : State) (minor : Bool) : Word :=
  let t := s.topo
  BitVec.ofNat 64 ((if minor && t.split then 2 ^ 31 else 0) + (if t.acthost then 2 ^ 30 else 0) + t.halves.toNat * 2 ^ 24
    + t.stks.toNat * 2 ^ 16 + t.dies.toNat * 2 ^ 8 + t.brg.toNat)

def State.topoWord (s : State) : Word := s.topoWordOf false

/-- CLKSTEP (R395). -/
def State.clkWord (s : State) : Word :=
  BitVec.ofNat 64 ((List.range 8).foldl (fun a d => a + s.mgmt.steps.getD d 0 * 16 ^ d) 0)

/-- A value clamped to a range. -/
def clampNat (x lo hi : Nat) : Nat := max lo (min x hi)

/-- PLIM and TTHR (R395). -/
def State.writePlim (s : State) (v : Word) : State :=
  { s with mgmt := { s.mgmt with plim := clampNat (bitsNat v.toNat 0 12) 1600 3200 } }
def State.writeTthr (s : State) (v : Word) : State :=
  { s with mgmt := { s.mgmt with tthr := clampNat (bitsNat v.toNat 0 8) 60 100 } }

/-- HLTH: SYSCTX, AUTH and UE are W1C, the rest RO (R395). -/
def State.clearHlth (s : State) (v : Word) : State :=
  { s with mgmt := { s.mgmt with hlth := s.mgmt.hlth &&& ~~~(v &&& 0xB000 &&& ~~~s.mgmt.fresh) } }

/-- C of FCFG.CCODE, and 2^DLOG (R359, R361). -/
def State.calC (s : State) : Nat := 32 * (bitsNat s.fab.fcfg.toNat 0 2 + 1)
def State.domain (s : State) : Nat := 2 ^ bitsNat s.fab.fcfg.toNat 4 4

/-- The number of the current slot (R358). -/
def State.slotNo (s : State) : Nat := s.tb / 2000

/-- FSLOT (R361). -/
def State.fslotWord (s : State) : Word :=
  BitVec.ofNat 64 (s.slotNo / s.calC % 2 ^ 32 * 2 ^ 32 + s.slotNo % s.calC)

/-- FCFG, FID and KEYTAB, written only while every lane is in CONFIG_UNLOCKED (R361). -/
def State.writeFcfg (s : State) (v : Word) : State :=
  if s.lanesUnlocked then { s with fab := { s.fab with fcfg := v &&& 0xF3 } } else s
def State.writeFid (s : State) (v : Word) : State :=
  if s.lanesUnlocked then { s with fab := { s.fab with fid := v &&& 0xFFF } } else s
def State.writeKey (s : State) (k : Nat) (v : Word) : State :=
  if s.lanesUnlocked then { s with fab := { s.fab with keytab := tput s.fab.keytab k (bitsNat v.toNat 0 12) } } else s

/-- FWINA and FWINB (R378). -/
def State.writeFwin (s : State) (k : Nat) (v : Word) : State :=
  { s with fab := { s.fab with fwin := tput s.fab.fwin k (v &&& (if k % 2 = 0 then 0x800001FFFFFF0000 else 0x1FFFFFF000F)) } }

/-- Dword i of the liveness map (R381). -/
def State.liveWord (s : State) (i : Nat) : Word :=
  BitVec.ofNat 64 ((List.range 64).foldl (fun a j => if s.isDead (64 * i + j) then a + 2 ^ j else a) 0)

/-! ## Frame maps and tag stores (R297, R299) -/

/-- The dword of a frame map at an offset within its stack's map. -/
def State.readFrames (s : State) (st o : Nat) : Word :=
  BitVec.ofNat 64 ((List.range 32).foldl (fun a i => a + tgetD s.fmap (st * 2 ^ 20 + o * 4 + i) 0 * 4 ^ i) 0)

/-- The frame map with a dword written. -/
def State.writeFrames (s : State) (st o : Nat) (v : Word) : State :=
  { s with fmap := (List.range 32).foldl (fun t i =>
      let k := st * 2 ^ 20 + o * 4 + i
      let m := bitsNat v.toNat (2 * i) 2
      if m = 0 then tdel t k else tput t k m) s.fmap }

/-- The dword of a tag store at an offset within its stack's store. -/
def State.readTags (s : State) (st o : Nat) : Word :=
  BitVec.ofNat 64 ((List.range 16).foldl (fun a i => a + tgetD s.tags (st * 2 ^ 28 + o * 2 + i) 15 * 16 ^ i) 0)

/-- The tag store with a dword written: the stored bytes of the blocks stay (R299). -/
def State.writeTags (s : State) (st o : Nat) (v : Word) : State :=
  { s with tags := (List.range 16).foldl (fun t i =>
      let k := st * 2 ^ 28 + o * 2 + i
      let m := bitsNat v.toNat (4 * i) 4
      if m = 15 then tdel t k else tput t k m) s.tags }

/-! ## KSP and PTB (R208, R271) -/

/-- May an SC's KSP become valid with a value (R208)? -/
def State.kspOk (s : State) (n : Nat) (v : Word) : Bool :=
  let area := bitsNat v.toNat 24 17 * 2 ^ 24
  bitsNat v.toNat 53 11 == 0 && bitsNat v.toNat 1 23 == 0
    && bitsNat v.toNat 41 12 == s.pkgid
    && area / halfSize == halfOf n && area % halfSize + 2 ^ 24 ≤ offered s.topo (halfOf n)
    && !(s.scs.any (fun p => p.1 != n && bitNat p.2.ksp.toNat 0 && bitsNat p.2.ksp.toNat 24 17 * 2 ^ 24 == area))

/-- A write of KSP (R208).  No TLB keeps a translation of a page that the area makes invalid (R278). -/
def State.writeKsp (s : State) (n : Nat) (v : Word) : State :=
  let a := v &&& 0x1FFFFFFF000000
  let t := s.modSc n (fun t => { t with ksp := if bitNat v.toNat 0 && s.kspOk n v then a ||| 1 else a })
  t.dropTlb (fun _ x => pkgOf x.pa == s.pkgid && t.meetsSave (localOf x.pa) (pageBytes x.size))

/-- A write of PTB (R271): it invalidates nothing. -/
def State.writePtb (s : State) (n : Nat) (v : Word) : State :=
  s.modSc n (fun t => { t with ptb := v &&& 0xFFFF01FFFFFFF000, ptbSet := true })

/-! ## The whole of register space (R317) -/

/-- A register at an 8-byte-aligned offset; an offset with none reads zero. -/
def State.regRead (s : State) (o : Nat) : Word :=
  if o % 8 ≠ 0 then 0
  else if o < 0x80000 then s.readQueue (o / 0x40) (o % 0x40)
  else if o = 0x200000 then s.topoWord
  else if o = 0x200008 then s.topo.lanes.setWidth 64
  else if 0x200010 ≤ o && o < 0x200090 then (s.topo.cores.getD ((o - 0x200010) / 8) 0).setWidth 64
  else if o = 0x200100 then s.hostlost
  else if 0x208000 ≤ o && o < 0x20C000 then
    let i := (o - 0x208000) / 8
    BitVec.ofNat 64 (Nat.land (s.drecRaw (i / 8) (i % 8)) (drecMask (i % 8)))
  else if o = 0x300000 then s.mgmt.hlth
  else if o = 0x300008 then BitVec.ofNat 64 s.mgmt.mw
  else if o = 0x300010 then BitVec.ofNat 64 s.mgmt.plim
  else if o = 0x300018 then BitVec.ofNat 64 s.mgmt.temp
  else if o = 0x300020 then BitVec.ofNat 64 s.mgmt.tthr
  else if o = 0x300028 then s.clkWord
  else if o = 0x400000 then s.fab.fcfg
  else if o = 0x400008 then BitVec.ofNat 64 s.tb
  else if o = 0x400010 then s.fslotWord
  else if o = 0x400018 then s.fab.fid
  else if 0x400100 ≤ o && o < 0x400150 then tgetD s.fab.ctr ((o - 0x400100) / 8) 0
  else if 0x410000 ≤ o && o < 0x41C000 then BitVec.ofNat 64 (tgetD s.fab.keytab ((o - 0x410000) / 8) 0)
  else if 0x420000 ≤ o && o < 0x420200 then s.liveWord ((o - 0x420000) / 8)
  else if 0x430000 ≤ o && o < 0x430400 then tgetD s.fab.fwin ((o - 0x430000) / 8) 0
  else if 0x1000000 ≤ o && o < 0x1000800 && o % 0x100 < 0x40 then
    tgetD s.ctr (8 * ((o - 0x1000000) / 0x100) + o % 0x100 / 8) 0
  else if o = 0x1001000 then tgetD s.hostrmw 0 0
  else if o = 0x1001100 then tgetD s.hostrmw 1 0
  else if 0x2000000 ≤ o && o < 0x2200000 then s.readFrames ((o - 0x2000000) / 0x40000) (o % 0x40000)
  else if 0x100000000 ≤ o && o < 0x180000000 && o % 0x10000000 < 0x8000000 then
    s.readTags ((o - 0x100000000) / 0x10000000) (o % 0x10000000)
  else 0

/-- A write to a register at an 8-byte-aligned offset; RO registers and unassigned offsets ignore it (R11, R317). -/
def State.regWrite (s : State) (o : Nat) (v : Word) : State :=
  if o % 8 ≠ 0 then s
  else if o < 0x80000 then
    let k := o % 0x40
    let q := o / 0x40
    if k = 0 then s.writeQbase q v
    else if k = 0x08 then s.writeQcfg q v
    else if k = 0x10 then s.writeQtail q v
    else if k = 0x20 then s.writeQstat q v
    else s
  else if o = 0x200100 then { s with hostlost := v }
  else if 0x208000 ≤ o && o < 0x20C000 then s.writeDrec ((o - 0x208000) / 0x40) (o % 0x40 / 8) v
  else if o = 0x300000 then s.clearHlth v
  else if o = 0x300010 then s.writePlim v
  else if o = 0x300020 then s.writeTthr v
  else if o = 0x400000 then s.writeFcfg v
  else if o = 0x400018 then s.writeFid v
  else if 0x400100 ≤ o && o < 0x400150 then
    { s with fab := { s.fab with ctr := tput s.fab.ctr ((o - 0x400100) / 8) v } }
  else if 0x410000 ≤ o && o < 0x41C000 then s.writeKey ((o - 0x410000) / 8) v
  else if 0x430000 ≤ o && o < 0x430400 then s.writeFwin ((o - 0x430000) / 8) v
  else if 0x1000000 ≤ o && o < 0x1000800 && o % 0x100 < 0x40 then
    { s with ctr := tput s.ctr (8 * ((o - 0x1000000) / 0x100) + o % 0x100 / 8) v }
  else if o = 0x1001000 then { s with hostrmw := tput s.hostrmw 0 v }
  else if o = 0x1001100 then { s with hostrmw := tput s.hostrmw 1 v }
  else if 0x2000000 ≤ o && o < 0x2200000 then s.writeFrames ((o - 0x2000000) / 0x40000) (o % 0x40000) v
  else if 0x100000000 ≤ o && o < 0x180000000 && o % 0x10000000 < 0x8000000 then
    s.writeTags ((o - 0x100000000) / 0x10000000) (o % 0x10000000) v
  else s

end Sys2Proof.Machine
end

