-- ==== Sys2Proof/Machine/Access.lean ====
section
/-!
DEFINITION. Loads and stores of the control core (R199-R201), cached, uncached and of register space, and the data-cache
instructions (R202).
-/

namespace Sys2Proof.Machine

/-- The value of n little-endian bytes, extended to 64 bits (R199). -/
def extend (signed : Bool) (n : Nat) (x : Nat) : Word := if signed then BitVec.ofInt 64 (signedOf n x) else BitVec.ofNat 64 x

/-- A read of register space: a dword at an 8-byte-aligned offset, and zero for any other access (R317). -/
def State.readReg (s : State) (a n : Nat) : Word := if n = 8 then s.regRead (a - 2 ^ 40) else 0

/-- A write of register space; any other access is ignored (R317). -/
def State.storeReg (s : State) (a n : Nat) (v : Word) : State := if n = 8 then s.regWrite (a - 2 ^ 40) v else s

/-- A load of n bytes at a translated address into gd: from a register, as an uncached packet, or through the data
cache.  The tag of a request must be free (`needsTag`). -/
def State.loadAt (s : State) (d n : Nat) (signed : Bool) (x : Xlat) (acq : Bool := false) : State :=
  let a := localOf x.pa
  if inRegs a then s.modMe (fun c => c.setReg d (s.readReg a n))
  else if x.uc then
    (s.send { readPacket s.topo (corePort s.cur.sc) s.myOwner a (.reg s.cur.sc s.myOwner d n signed) with acq := acq }).modMe
      (fun c => c.markUc d)
  else
    let t := s.fillLine s.cur.sc a
    t.modMe (fun c => c.setReg d (extend signed n (t.readNat a n)))

/-- A store of n bytes at a translated address. -/
def State.storeAt (s : State) (n : Nat) (x : Xlat) (v : Word) : State :=
  let a := localOf x.pa
  if inRegs a then s.storeReg a n v
  else if x.uc then s.send (maskedPacket s.topo (corePort s.cur.sc) s.myOwner a (natBytes n v.toNat))
  else s.cachedStore s.cur.sc a (natBytes n v.toNat)

/-- The stack whose tag an access of memory needs: for its packet, or for the fill of a line that is absent (R282, R314). -/
def State.tagStack (s : State) (x : Xlat) (fill : Bool := true) : Option Nat :=
  let a := localOf x.pa
  if inRegs a || (!x.uc && (!fill || thas s.mySc.lines (a / 64))) then none else some (stackOf s.topo a).1

/-- The stack an access must wait for, where it has no tag (R315). -/
def State.needsTag (s : State) (x : Xlat) (fill : Bool := true) : Option Nat :=
  match s.tagStack x fill with
  | some k => if s.maySend s.cur.sc s.cur.ctx k then none else some k
  | none => none

/-- Accesses after every LD.acq of the context (R200), and once the tag that they need is free, where one is wanted (R315). -/
def State.withTagOf (s : State) (k : Option Nat) (f : State → State) : State :=
  if s.acquiring then s.block (.settled [])
  else match k with
    | some k => s.waitTag k (.tag s.cur.sc k)
    | none => f s.leaveTagQ

/-- An access at a translated address. -/
def State.withTag (s : State) (x : Xlat) (f : State → State) : State := s.withTagOf (s.needsTag x) f

/-- One access of n bytes by the executing context: translated and checked (R199), then made. -/
def State.access (s : State) (w : Bool) (a : Word) (n : Nat) (f : Xlat → State → State) : State :=
  let s := s.walked a n
  match s.check w a n with
  | .error c => s.trap c a
  | .ok x => s.withTag x (f x)

/-- A load (R199). -/
def load (d a : BitVec 5) (addr : State → Word) (n : Nat) (signed : Bool) (rs : List (BitVec 5)) (s : State) : Result :=
  ctl (d :: a :: rs) s (fun s => s.access false (addr s) n (fun x s => (s.loadAt d.toNat n signed x).fin))

/-- A store of gd (R199). -/
def store (d a : BitVec 5) (i : BitVec 14) (n : Nat) (s : State) : Result :=
  ctl [d, a] s (fun s => s.access true (s.g a + i.signExtend 64) n (fun x s => (s.storeAt n x (s.g d)).fin))

/-- ga + imm14 (R199). -/
def eaddr (a : BitVec 5) (i : BitVec 14) (s : State) : Word := s.g a + i.signExtend 64

/-- LB (R199). -/
def execLb (d a : BitVec 5) (i : BitVec 14) (s : State) : Result := load d a (eaddr a i) 1 true [] s
/-- LBZ. -/
def execLbz (d a : BitVec 5) (i : BitVec 14) (s : State) : Result := load d a (eaddr a i) 1 false [] s
/-- LH. -/
def execLh (d a : BitVec 5) (i : BitVec 14) (s : State) : Result := load d a (eaddr a i) 2 true [] s
/-- LHZ. -/
def execLhz (d a : BitVec 5) (i : BitVec 14) (s : State) : Result := load d a (eaddr a i) 2 false [] s
/-- LW. -/
def execLw (d a : BitVec 5) (i : BitVec 14) (s : State) : Result := load d a (eaddr a i) 4 true [] s
/-- LWZ. -/
def execLwz (d a : BitVec 5) (i : BitVec 14) (s : State) : Result := load d a (eaddr a i) 4 false [] s
/-- LD. -/
def execLd (d a : BitVec 5) (i : BitVec 14) (s : State) : Result := load d a (eaddr a i) 8 false [] s
/-- LDX: the address is ga + gb. -/
def execLdx (d a b : BitVec 5) (s : State) : Result := load d a (fun s => s.g a + s.g b) 8 false [b] s
/-- SB. -/
def execSb (d a : BitVec 5) (i : BitVec 14) (s : State) : Result := store d a i 1 s
/-- SH. -/
def execSh (d a : BitVec 5) (i : BitVec 14) (s : State) : Result := store d a i 2 s
/-- SW. -/
def execSw (d a : BitVec 5) (i : BitVec 14) (s : State) : Result := store d a i 4 s
/-- SD. -/
def execSd (d a : BitVec 5) (i : BitVec 14) (s : State) : Result := store d a i 8 s

/-- LD.acq: an LD that performs before any later load, store or stream instruction of the context performs (R200). -/
def execLdAcq (d a : BitVec 5) (i : BitVec 14) (s : State) : Result :=
  ctl [d, a] s (fun s => s.access false (eaddr a i s) 8 (fun x s => (s.loadAt d.toNat 8 false x true).fin))

/-- ST.rel: an SD that performs after every earlier access of the context (R200). -/
def execStRel (d a : BitVec 5) (i : BitVec 14) (s : State) : Result :=
  ctl [d, a] s (fun s =>
    let v := eaddr a i s
    let s := s.walked v 8
    match s.check true v 8 with
    | .error c => s.trap c v
    | .ok x => s.afterAccesses (fun s => s.withTag x (fun s => (s.storeAt 8 x (s.g d)).fin)))

/-- The registers gd, gd + 1, ... of LDM and STM. -/
def regRange (d : BitVec 5) (n : BitVec 3) : List Nat := (List.range (n.toNat + 1)).map (d.toNat + ·)

/-- The checks of LDM and STM: the translations in order, or the lowest failing address with its cause (R201). -/
def State.checkRange (s : State) (store : Bool) (base : Word) : List Nat → Except (Nat × Word) (List Xlat)
  | [] => .ok []
  | k :: ks =>
    let a := base + BitVec.ofNat 64 (8 * k)
    match s.check store a 8 with
    | .error c => .error (c, a)
    | .ok x => match s.checkRange store base ks with
      | .error e => .error e
      | .ok xs => .ok (x :: xs)

/-- The accesses of an LDM or STM of word `i`, by register, in ascending address order: one for which no tag is free waits with the rest, and
the instruction is done after the last (R201, R314, R315). -/
def State.eachPart (i : W32) (f : Nat → Xlat → State → State) : List (Nat × Xlat) → State → State
  | [], s => s.fin
  | p :: ps, s =>
    match s.needsTag p.2 with
    | some k => s.waitTag k (.parts s.cur.sc k (p :: ps) i)
    | none => State.eachPart i f ps (f p.1 p.2 s.leaveTagQ)

/-- The translations that the checks of an LDM or STM make (R201, R280). -/
def State.walkedAll (s : State) (base : Word) (ks : List Nat) : State :=
  ks.foldl (fun t k => t.walked (base + BitVec.ofNat 64 (8 * k)) 8) s

/-- LDM and STM: every dword is checked before the first moves, and one that has begun goes on where it waited (R201). -/
def multiple (i : W32) (w : Bool) (d a : BitVec 5) (n : BitVec 3) (f : Nat → Xlat → State → State) (s : State) : Result :=
  match s.me.wait with
  | some (.parts _ _ rest _) => .next (s.eachPart i f rest)
  | _ =>
    ctl (a :: (regRange d n).map (BitVec.ofNat 5)) s (fun s =>
      let base := s.g a
      let ks := List.range (n.toNat + 1)
      let s := s.walkedAll base ks
      match s.checkRange w base ks with
      | .error e => s.trap e.1 e.2
      | .ok xs => if s.acquiring then s.block (.settled []) else s.eachPart i f (List.zip (regRange d n) xs))

/-- LDM: all or nothing (R201). -/
def execLdm (d a : BitVec 5) (n : BitVec 3) (s : State) : Result :=
  multiple ((wRI 0x3E d a n.toNat).setWidth 32) false d a n (fun r x s => s.loadAt r 8 false x) s

/-- STM: all or nothing (R201). -/
def execStm (d a : BitVec 5) (n : BitVec 3) (s : State) : Result :=
  multiple ((wRI 0x3F d a n.toNat).setWidth 32) true d a n (fun r x s => s.storeAt 8 x (s.me.reg r)) s

/-- DCFL: the line is written back if it is dirty; an address that does not translate does nothing (R202). -/
def execDcfl (a : BitVec 5) (i : BitVec 14) (s : State) : Result :=
  ctl [a] s (fun s =>
    let s := s.touchMe (eaddr a i s).toNat
    match s.xlat s.cur.sc (eaddr a i s).toNat with
    | some x => (if s.far x then s else s.writeBack s.cur.sc (localOf x.pa / 64)).fin
    | none => s.fin)

/-- DCINV: the line is discarded (R202). -/
def execDcinv (a : BitVec 5) (i : BitVec 14) (s : State) : Result :=
  priv (wRI 0x49 0 a i.toNat) [a] s (fun s =>
    let s := s.touchMe (eaddr a i s).toNat
    match s.xlat s.cur.sc (eaddr a i s).toNat with
    | some x => (if s.far x then s else s.dropLine s.cur.sc (localOf x.pa / 64)).fin
    | none => s.fin)

/-- DCZ: a store of 64 zero bytes to the line, checked without ALIGN (R202). -/
def execDcz (a : BitVec 5) (i : BitVec 14) (s : State) : Result :=
  ctl [a] s (fun s =>
    let v := eaddr a i s
    let s := s.walked v 64 false
    match s.check true v 64 false with
    | .error c => s.trap c v
    | .ok x => s.withTagOf (s.needsTag x false) (fun s =>
        let l := localOf x.pa
        (if inRegs l then s
         else if x.uc then s.send (zeroPacket s.topo (corePort s.cur.sc) s.myOwner l)
         else s.zeroLine s.cur.sc l).fin))

end Sys2Proof.Machine
end

