-- ==== Sys2Proof/Machine/Operands.lean ====
section
/-!
DEFINITION. The operand forms of kernel operations: operand codes (R40), immediates by reading, latches and hold bits
(R44, R45), predicates (R68), and which fields of an operation name what (R41).
-/

namespace Sys2Proof.Machine

/-- How an operation reads an operand, which types its immediates (R40). -/
inductive Reading where
  | int
  | f32
  | bf16
  | half
  deriving DecidableEq, Repr, Inhabited

/-- The immediate `i` under a reading (R40). -/
def immediate (rd : Reading) (i : Int) : W32 :=
  match rd with
  | .int => BitVec.ofInt 32 i
  | .f32 => roundFP32 (FVal.ofInt i)
  | .bf16 => let h := roundBF16 (FVal.ofInt i); h ++ h
  | .half => let h := BitVec.ofInt 16 i; h ++ h

/-- The number of group lanes. -/
def Run.lanes (r : Run) : Nat := 16 * r.g

/-- A row with one value in every lane. -/
def Run.splat (r : Run) (x : W32) : Row := List.replicate r.lanes x

/-- A row from a function of the group lane. -/
def Run.tabulate (r : Run) (f : Nat → W32) : Row := (List.range r.lanes).map f

/-- A register of every core (R66, R69). -/
def Run.reg (r : Run) (n : Nat) : Row := tgetD r.regs n (r.splat 0)

/-- A predicate of every core; p0 reads all ones (R68). -/
def Run.predicate (r : Run) (p : Nat) : Mask :=
  if p = 0 then List.replicate r.lanes true else tgetD r.preds p (List.replicate r.lanes false)

/-- Kernel argument k (R220). -/
def Run.arg (r : Run) (k : Nat) : W32 := r.args.getD k 0

/-- A uniform value: operand codes 194-255 (R40). -/
def Run.uniform (r : Run) (rd : Reading) (c : Nat) : W32 :=
  if c = 194 then BitVec.ofNat 32 r.g
  else if c = 195 then 0
  else if c = 196 then 1
  else if c = 197 then 0x3F800000
  else if c < 206 then r.arg (c - 198)
  else if c = 208 then r.bundle.getD 14 0
  else if c = 209 then r.bundle.getD 15 0
  else immediate rd ((c : Int) - 240)

/-- The value an operand code supplies in every group lane (R40). -/
def Run.source (r : Run) (rd : Reading) (c : Nat) : Row :=
  if c < 192 then r.reg c
  else if c = 192 then r.tabulate (fun g => BitVec.ofNat 32 (g % 16))
  else if c = 193 then r.tabulate (fun g => BitVec.ofNat 32 (g / 16))
  else r.splat (r.uniform rd c)

/-- The place of a slot's first latch in hold-mask order (R44): F0A 0 to F3B 7, I0A 8 to I1B 11. -/
def latchBase (syl : Nat) : Nat := if 3 ≤ syl then 2 * (syl - 3) else 8 + 2 * (syl - 1)

/-- The latch of an input of the slot at a syllable. -/
def latchIx (syl : Nat) (b : Bool) : Nat := latchBase syl + (if b then 1 else 0)

/-- Is the hold bit of a latch set in the bundle being issued (R44)? -/
def Run.held (r : Run) (ix : Nat) : Bool := bitNat (r.bundle.getD 13 0).toNat (31 - ix)

/-- The value of a latch (R45). -/
def Run.latch (r : Run) (ix : Nat) : Row := tgetD r.latches ix (r.splat 0)

/-- The value a latched input supplies (R45). -/
def Run.input (r : Run) (syl : Nat) (b : Bool) (rd : Reading) (c : Nat) : Row :=
  if r.held (latchIx syl b) then r.latch (latchIx syl b) else r.source rd c

/-- The run after an operation has read a latched input: the latch takes the value read (R45). -/
def Run.takeLatch (r : Run) (syl : Nat) (b : Bool) (rd : Reading) (c : Nat) : Run :=
  { r with latches := tput r.latches (latchIx syl b) (r.input syl b rd c) }

/-- What a field of a kernel operation names. -/
inductive Ref where
  /-- A latched source, input A or B (R45). -/
  | lat (b : Bool) (c : Nat)
  /-- A source that is never latched. -/
  | src (c : Nat)
  /-- A destination that is also read (R49, form VD). -/
  | rd (d : Nat)
  /-- A destination register. -/
  | wr (d : Nat)
  /-- A uniform operand. -/
  | uni (c : Nat)
  /-- A kernel argument index. -/
  | arg (k : Nat)
  /-- An input port, an output port. -/
  | pin (p : Nat)
  | pout (p : Nat)
  /-- A branch or loop target. -/
  | target (t : Nat)
  deriving DecidableEq, Repr, Inhabited

/-- The fields of a kernel operation that name registers, values, ports or targets, in the order it reads them
(R39-R43, R49, R52). -/
def refs : Instr → List Ref
  | .ctlBr t => [.target t.toNat]
  | .ctlBany _ t => [.target t.toNat]
  | .ctlBall _ t => [.target t.toNat]
  | .ctlBnone _ t => [.target t.toNat]
  | .ctlBnall _ t => [.target t.toNat]
  | .ctlLsetk _ k => [.arg k.toNat]
  | .ctlLsetv _ u => [.uni u.toNat]
  | .ctlLbnz _ t => [.target t.toNat]
  | .ctlBkz k t => [.target t.toNat, .arg k.toNat]
  | .ctlBknz k t => [.target t.toNat, .arg k.toNat]
  | .ctlKret _ s => [.src s.toNat]
  | .hkChkeq _ a b => [.src a.toNat, .src b.toNat]
  | .hkChkz _ a => [.src a.toNat]
  | .iAdd _ d a b => [.lat false a.toNat, .lat true b.toNat, .wr d.toNat]
  | .iSub _ d a b => [.lat false a.toNat, .lat true b.toNat, .wr d.toNat]
  | .iMul _ d a b => [.lat false a.toNat, .lat true b.toNat, .wr d.toNat]
  | .iMulhs _ d a b => [.lat false a.toNat, .lat true b.toNat, .wr d.toNat]
  | .iMulhz _ d a b => [.lat false a.toNat, .lat true b.toNat, .wr d.toNat]
  | .iAnd _ d a b => [.lat false a.toNat, .lat true b.toNat, .wr d.toNat]
  | .iOr _ d a b => [.lat false a.toNat, .lat true b.toNat, .wr d.toNat]
  | .iXor _ d a b => [.lat false a.toNat, .lat true b.toNat, .wr d.toNat]
  | .iAndn _ d a b => [.lat false a.toNat, .lat true b.toNat, .wr d.toNat]
  | .iShl _ d a b => [.lat false a.toNat, .lat true b.toNat, .wr d.toNat]
  | .iShrz _ d a b => [.lat false a.toNat, .lat true b.toNat, .wr d.toNat]
  | .iShrs _ d a b => [.lat false a.toNat, .lat true b.toNat, .wr d.toNat]
  | .iRotl _ d a b => [.lat false a.toNat, .lat true b.toNat, .wr d.toNat]
  | .iMins _ d a b => [.lat false a.toNat, .lat true b.toNat, .wr d.toNat]
  | .iMaxs _ d a b => [.lat false a.toNat, .lat true b.toNat, .wr d.toNat]
  | .iMinz _ d a b => [.lat false a.toNat, .lat true b.toNat, .wr d.toNat]
  | .iMaxz _ d a b => [.lat false a.toNat, .lat true b.toNat, .wr d.toNat]
  | .iAbs _ d a => [.lat false a.toNat, .wr d.toNat]
  | .iAddss _ d a b => [.lat false a.toNat, .lat true b.toNat, .wr d.toNat]
  | .iAddsz _ d a b => [.lat false a.toNat, .lat true b.toNat, .wr d.toNat]
  | .iSubss _ d a b => [.lat false a.toNat, .lat true b.toNat, .wr d.toNat]
  | .iSubsz _ d a b => [.lat false a.toNat, .lat true b.toNat, .wr d.toNat]
  | .iAbsds _ d a b => [.lat false a.toNat, .lat true b.toNat, .wr d.toNat]
  | .iAbsdz _ d a b => [.lat false a.toNat, .lat true b.toNat, .wr d.toNat]
  | .iAvgs _ d a b => [.lat false a.toNat, .lat true b.toNat, .wr d.toNat]
  | .iAvgz _ d a b => [.lat false a.toNat, .lat true b.toNat, .wr d.toNat]
  | .iAddx2 _ d a b => [.lat false a.toNat, .lat true b.toNat, .wr d.toNat]
  | .iAddx4 _ d a b => [.lat false a.toNat, .lat true b.toNat, .wr d.toNat]
  | .iAddx8 _ d a b => [.lat false a.toNat, .lat true b.toNat, .wr d.toNat]
  | .iHadd _ d a b => [.lat false a.toNat, .lat true b.toNat, .wr d.toNat]
  | .iHsub _ d a b => [.lat false a.toNat, .lat true b.toNat, .wr d.toNat]
  | .iHaddss _ d a b => [.lat false a.toNat, .lat true b.toNat, .wr d.toNat]
  | .iHaddsz _ d a b => [.lat false a.toNat, .lat true b.toNat, .wr d.toNat]
  | .iHsubss _ d a b => [.lat false a.toNat, .lat true b.toNat, .wr d.toNat]
  | .iHsubsz _ d a b => [.lat false a.toNat, .lat true b.toNat, .wr d.toNat]
  | .iHmul _ d a b => [.lat false a.toNat, .lat true b.toNat, .wr d.toNat]
  | .iHmins _ d a b => [.lat false a.toNat, .lat true b.toNat, .wr d.toNat]
  | .iHmaxs _ d a b => [.lat false a.toNat, .lat true b.toNat, .wr d.toNat]
  | .iHminz _ d a b => [.lat false a.toNat, .lat true b.toNat, .wr d.toNat]
  | .iHmaxz _ d a b => [.lat false a.toNat, .lat true b.toNat, .wr d.toNat]
  | .iHabsds _ d a b => [.lat false a.toNat, .lat true b.toNat, .wr d.toNat]
  | .iHabsdz _ d a b => [.lat false a.toNat, .lat true b.toNat, .wr d.toNat]
  | .iHavgs _ d a b => [.lat false a.toNat, .lat true b.toNat, .wr d.toNat]
  | .iHavgz _ d a b => [.lat false a.toNat, .lat true b.toNat, .wr d.toNat]
  | .iFext _ d a b => [.lat false a.toNat, .lat true b.toNat, .rd d.toNat, .wr d.toNat]
  | .iFexts _ d a b => [.lat false a.toNat, .lat true b.toNat, .rd d.toNat, .wr d.toNat]
  | .iCeq _ _ a b => [.lat false a.toNat, .lat true b.toNat]
  | .iCne _ _ a b => [.lat false a.toNat, .lat true b.toNat]
  | .iClts _ _ a b => [.lat false a.toNat, .lat true b.toNat]
  | .iCltz _ _ a b => [.lat false a.toNat, .lat true b.toNat]
  | .iCles _ _ a b => [.lat false a.toNat, .lat true b.toNat]
  | .iClez _ _ a b => [.lat false a.toNat, .lat true b.toNat]
  | .iSel _ d a b => [.lat false a.toNat, .lat true b.toNat, .wr d.toNat]
  | .iPcnt _ d a => [.lat false a.toNat, .wr d.toNat]
  | .iClz _ d a => [.lat false a.toNat, .wr d.toNat]
  | .iPget _ d _ => [.wr d.toNat]
  | .iMov _ d a => [.lat false a.toNat, .wr d.toNat]
  | .fFadd _ d a b => [.lat false a.toNat, .lat true b.toNat, .wr d.toNat]
  | .fFsub _ d a b => [.lat false a.toNat, .lat true b.toNat, .wr d.toNat]
  | .fFmul _ d a b => [.lat false a.toNat, .lat true b.toNat, .wr d.toNat]
  | .fFma _ d a b => [.lat false a.toNat, .lat true b.toNat, .rd d.toNat, .wr d.toNat]
  | .fFnma _ d a b => [.lat false a.toNat, .lat true b.toNat, .rd d.toNat, .wr d.toNat]
  | .fFmin _ d a b => [.lat false a.toNat, .lat true b.toNat, .wr d.toNat]
  | .fFmax _ d a b => [.lat false a.toNat, .lat true b.toNat, .wr d.toNat]
  | .fFabs _ d a => [.lat false a.toNat, .wr d.toNat]
  | .fFneg _ d a => [.lat false a.toNat, .wr d.toNat]
  | .fFcpsgn _ d a b => [.lat false a.toNat, .lat true b.toNat, .wr d.toNat]
  | .fFceq _ _ a b => [.lat false a.toNat, .lat true b.toNat]
  | .fFclt _ _ a b => [.lat false a.toNat, .lat true b.toNat]
  | .fFcle _ _ a b => [.lat false a.toNat, .lat true b.toNat]
  | .fFcun _ _ a b => [.lat false a.toNat, .lat true b.toNat]
  | .fFrcp _ d a => [.lat false a.toNat, .wr d.toNat]
  | .fFrsq _ d a => [.lat false a.toNat, .wr d.toNat]
  | .fFexp2 _ d a => [.lat false a.toNat, .wr d.toNat]
  | .fFlog2 _ d a => [.lat false a.toNat, .wr d.toNat]
  | .fBadd _ d a b => [.lat false a.toNat, .lat true b.toNat, .wr d.toNat]
  | .fBsub _ d a b => [.lat false a.toNat, .lat true b.toNat, .wr d.toNat]
  | .fBmul _ d a b => [.lat false a.toNat, .lat true b.toNat, .wr d.toNat]
  | .fBfma _ d a b => [.lat false a.toNat, .lat true b.toNat, .rd d.toNat, .wr d.toNat]
  | .fBmin _ d a b => [.lat false a.toNat, .lat true b.toNat, .wr d.toNat]
  | .fBmax _ d a b => [.lat false a.toNat, .lat true b.toNat, .wr d.toNat]
  | .fFdot2 _ d a b => [.lat false a.toNat, .lat true b.toNat, .rd d.toNat, .wr d.toNat]
  | .fFclamp _ d a b => [.lat false a.toNat, .lat true b.toNat, .rd d.toNat, .wr d.toNat]
  | .fFsat _ d a => [.lat false a.toNat, .wr d.toNat]
  | .fFrnd _ d a => [.lat false a.toNat, .wr d.toNat]
  | .fFscl _ d a b => [.lat false a.toNat, .lat true b.toNat, .wr d.toNat]
  | .fCvtsf _ d a => [.lat false a.toNat, .wr d.toNat]
  | .fCvtzf _ d a => [.lat false a.toNat, .wr d.toNat]
  | .fCvtfs _ d a => [.lat false a.toNat, .wr d.toNat]
  | .fCvtfz _ d a => [.lat false a.toNat, .wr d.toNat]
  | .fCvtfb _ d a b => [.lat false a.toNat, .lat true b.toNat, .wr d.toNat]
  | .fCvtbfl _ d a => [.lat false a.toNat, .wr d.toNat]
  | .fCvtbfh _ d a => [.lat false a.toNat, .wr d.toNat]
  | .fCvtlsf _ d a => [.lat false a.toNat, .wr d.toNat]
  | .fCvthsf _ d a => [.lat false a.toNat, .wr d.toNat]
  | .fCvtlzf _ d a => [.lat false a.toNat, .wr d.toNat]
  | .fCvthzf _ d a => [.lat false a.toNat, .wr d.toNat]
  | .tmTmma _ _ n => [.uni n.toNat]
  | .tmTmmz _ _ n => [.uni n.toNat]
  | .tmTmmn _ _ n => [.uni n.toNat]
  | .tmTstat _ d => [.wr d.toNat]
  | .tmTamw _ s r => [.src s.toNat, .uni r.toNat]
  | .tmTmmh _ _ n => [.uni n.toNat]
  | .ptPpass _ _ n => [.uni n.toNat]
  | .ptPpassz _ _ n => [.uni n.toNat]
  | .ptPpassn _ _ n => [.uni n.toNat]
  | .ptPstat _ d => [.wr d.toNat]
  | .ptPscan _ d s => [.wr d.toNat, .src s.toNat]
  | .sSpop _ d a k => [.pin a.toNat, .wr d.toNat, .uni k.toNat]
  | .sSpopc _ d a => [.pin a.toNat, .wr d.toNat]
  | .sSpush a s => [.pout a.toNat, .src s.toNat]
  | .sSpushc _ a s => [.pout a.toNat, .src s.toNat]
  | .sSwaitf a n => [.pin a.toNat, .uni n.toNat]
  | .sSwaite a n => [.pout a.toNat, .uni n.toNat]
  | .sSadvr a n => [.pin a.toNat, .uni n.toNat]
  | .sSadvw a n => [.pout a.toNat, .uni n.toNat]
  | .sTfill _ a _ => [.pin a.toNat]
  | .sTfillx _ a => [.pin a.toNat]
  | .sScnt a => [.pout a.toNat]
  | .sSflush a => [.pout a.toNat]
  | .sSptrr _ d a => [.pin a.toNat, .wr d.toNat]
  | .sSptrw _ d a => [.pout a.toNat, .wr d.toNat]
  | .sSavail _ d a => [.pin a.toNat, .wr d.toNat]
  | .sSspace _ d a => [.pout a.toNat, .wr d.toNat]
  | .xsXperm _ d s i => [.wr d.toNat, .src s.toNat, .src i.toNat]
  | .xsXpermc _ d s i => [.wr d.toNat, .src s.toNat, .src i.toNat]
  | .xsXbc _ d s l => [.wr d.toNat, .src s.toNat, .uni l.toNat]
  | .xsXbcc _ d s n => [.wr d.toNat, .src s.toNat, .uni n.toNat]
  | .xsXrot _ d s n => [.wr d.toNat, .src s.toNat, .uni n.toNat]
  | .xsXrotc _ d s n => [.wr d.toNat, .src s.toNat, .uni n.toNat]
  | .xsXcmp _ d s => [.wr d.toNat, .src s.toNat]
  | .xsXcmpc _ d s => [.wr d.toNat, .src s.toNat]
  | .xsXexp _ d s => [.wr d.toNat, .src s.toNat]
  | .xsXcnt _ d => [.wr d.toNat]
  | .amArd _ d _ r => [.wr d.toNat, .uni r.toNat]
  | .amArdh _ d _ r => [.wr d.toNat, .uni r.toNat]
  | _ => []

/-- The operation in a syllable of the bundle being issued; an undefined one cannot have passed KLOAD (R24). -/
def Run.opAt (r : Run) (syl : Nat) : Option Instr :=
  match slotOf syl with
  | some sl => decodeSyllable sl (r.bundle.getD syl 0)
  | none => none

/-- The LRF registers a reference reads when its operation issues in a syllable (R20, R45). -/
def Run.readsOf (r : Run) (syl : Nat) : Ref → Option Nat
  | .lat b c => if c < 192 && !r.held (latchIx syl b) then some c else none
  | .src c => if c < 192 then some c else none
  | .rd d => some d
  | _ => none

/-- The LRF registers an operation reads. -/
def Run.regsRead (r : Run) (syl : Nat) (i : Instr) : List Nat := (refs i).filterMap (r.readsOf syl)

/-- The LRF registers the bundle reads, each once (R20). -/
def Run.bundleReads (r : Run) : List Nat :=
  ((List.range 14).flatMap (fun k => match r.opAt k with | some i => r.regsRead k i | none => [])).dedup

/-- The greatest count of a bank's accesses, less one (R20, R67). -/
def portExcess (regs : List Nat) : Nat :=
  ((List.range 6).map (fun b => (regs.filter (fun x => x % 6 == b)).length - 1)).foldl max 0

/-- Operations that use the switch port (R162). -/
def usesSwitch : Instr → Bool
  | .xsXpermc _ _ _ _ => true
  | .xsXbcc _ _ _ _ => true
  | .xsXrotc _ _ _ _ => true
  | .xsXcmpc _ _ _ => true
  | .xsXexp _ _ _ => true
  | .xsXcnt _ _ => true
  | .sSpushc _ _ _ => true
  | .sSpopc _ _ _ => true
  | _ => false

/-- The wall cycles of a weight or table load (R123, R137): 32 per slot it reads. -/
def loadCycles (r : Run) (m n : Nat) : Nat :=
  match tget r.slots m with
  | some s => if s.tag = 3 || s.tag = 4 then 32 * n else 32
  | none => 32

/-- The fixed stall of an operation's own in wall cycles (R20, R123, R137). -/
def Run.loadStall (r : Run) : Instr → Nat
  | .tmTldw m => loadCycles r m.toNat 3
  | .tmTldwt m => loadCycles r m.toNat 3
  | .ptPld4 _ => 128
  | .ptPld8 _ => 256
  | .ptPlds _ => 192
  | _ => 0

/-- The operations of the bundle being issued. -/
def Run.ops (r : Run) : List Instr := (List.range 14).filterMap r.opAt

/-- The wall cycles the bundle pays before it issues, before any waiting stall: write ports, read ports, slow partition and
switch ports, which add up (R20).  `due` are the registers whose results land in this cycle. -/
def Run.stallCycles (r : Run) (due : List Nat) : Nat :=
  let reads := r.bundleReads
  portExcess due + portExcess reads
    + (if reads.any (fun x => 144 ≤ x) then 2 else 0)
    + ((r.ops.filter usesSwitch).length - 1)

/-- The wall cycles of the bundle's weight and table loads, which add up (R123, R137, R138). -/
def Run.loadsStall (r : Run) : Nat := (r.ops.map r.loadStall).foldl (· + ·) 0

/-- Debug mode: the faults of an operation's reads (R36).  DEDUCED (log 16): a read of a register reads every lane of it. -/
def Run.pendingReads (r : Run) (syl : Nat) (i : Instr) : List (Nat × Nat) :=
  if r.dbg then
    (r.regsRead syl i).flatMap (fun d =>
      ((List.range r.g).filter (fun c =>
        (((tgetD r.dbgBits d []).drop (16 * c)).take 16).any id)).map (fun c => (c, 5)))
  else []

end Sys2Proof.Machine
end

