-- ==== Sys2Proof/Machine/Flags.lean ====
section
/-!
DEFINITION. What the device computes as flags: predicates and group conditions (R68, R99, R107, R116), the OVF bit of
part-sum banks (R97) and the status words of the tile multiplier (R128, R146).
-/

namespace Sys2Proof.Machine

/-- any, all, none, nall over every bit of a predicate in every core (R99). -/
def condAny (m : Mask) : Bool := m.any id
def condAll (m : Mask) : Bool := m.all id
def condNone (m : Mask) : Bool := !m.any id
def condNall (m : Mask) : Bool := !m.all id

/-- The 16 bits of a predicate in one core, as a number. -/
def maskBits (m : Mask) (c : Nat) : Nat :=
  (List.range 16).foldl (fun a l => if m.getD (16 * c + l) false then a + 2 ^ l else a) 0

/-- The selected group lanes in order (R156, R161). -/
def chosen (m : Mask) : List Nat := (List.range m.length).filter (fun g => m.getD g false)

/-- Values written where the mask allows, the old values elsewhere (R15). -/
def merge {α : Type} : List α → List α → List Bool → List α
  | o :: os, v :: vs, m :: ms => (if m then v else o) :: merge os vs ms
  | os, _, _ => os

/-- Does an exact part sum leave the 48-bit range (R97)? -/
def ovf48 (x : Int) : Bool := x < -(2 ^ 47) || 2 ^ 47 - 1 < x

/-- A container holding `x` modulo 2^48, sign-extended from bit 47 (R97). -/
def wrap48 (x : Int) : Word := (BitVec.ofInt 48 x).signExtend 64

/-- The tstat word (R128). -/
def Run.tstat (r : Run) : W32 :=
  BitVec.ofNat 32 ((if r.tmis then 2 ^ 17 else 0) + (if r.tovr then 2 ^ 16 else 0) + r.passes.length * 2 ^ 9
    + r.shadow.fmt * 16 + r.active.fmt)

/-- Is the weight format a parts form (R135)? -/
def isParts (fmt : Nat) : Bool := fmt == 7 || fmt == 8 || fmt == 9

/-- The pstat word of core c (R146), on the status as it stood when the bundle began. -/
def Run.pstat (r : Run) (c : Nat) : W32 :=
  BitVec.ofNat 32 ((r.banks.filter (fun b => b.2.part && b.2.ovf.contains c)).length * 2 ^ 24
    + (if r.snapMis then 2 ^ 17 else 0) + (if r.snapOvr then 2 ^ 16 else 0) + r.snapQ * 2 ^ 9
    + (if isParts r.active.fmt then 2 ^ 8 else 0) + r.active.fmt)

end Sys2Proof.Machine
end

