-- ==== Sys2Proof/Machine/KOps.lean ====
section
/-!
DEFINITION. The shapes of kernel operations: reading operands, posting results with their latency (R17, R29) and the
forms of R49.
-/

namespace Sys2Proof.Machine

/-- A result put in flight: it lands `lat` advancing cycles after the bundle being issued (R17). -/
def Run.post (r : Run) (lat : Nat) (e : Effect) : Run := { r with pend := r.pend ++ [⟨lat, e⟩] }

/-- A register result under a write mask; debug mode marks its lanes pending (R36). -/
def Run.writeReg (r : Run) (d : BitVec 8) (lat : Nat) (v : Row) (m : Mask) : Run :=
  { r.post lat (.reg d.toNat v m) with marks := r.marks ++ [(d.toNat, m)] }

/-- A predicate result under a write mask (R68). -/
def Run.writePred (r : Run) (d : BitVec 8) (lat : Nat) (v m : Mask) : Run := r.post lat (.pred d.toNat v m)

/-- Both inputs read and latched (R45). -/
def Run.takeAB (r : Run) (syl : Nat) (rd : Reading) (a b : BitVec 8) : Run :=
  (r.takeLatch syl false rd a.toNat).takeLatch syl true rd b.toNat

/-- Form V3: lane by lane on A and B, under the predicate (R49, R103, R114). -/
def opV3 (rd : Reading) (lat : Nat) (f : W32 → W32 → W32) (p : BitVec 2) (d a b : BitVec 8) (syl : Nat) (r : Run) : Run :=
  (r.takeAB syl rd a b).writeReg d lat
    (List.zipWith f (r.input syl false rd a.toNat) (r.input syl true rd b.toNat)) (r.predicate p.toNat)

/-- Form V3 with readings of A and B that differ (fscl, R115). -/
def opV3' (ra rb : Reading) (lat : Nat) (f : W32 → W32 → W32) (p : BitVec 2) (d a b : BitVec 8) (syl : Nat) (r : Run) : Run :=
  ((r.takeLatch syl false ra a.toNat).takeLatch syl true rb b.toNat).writeReg d lat
    (List.zipWith f (r.input syl false ra a.toNat) (r.input syl true rb b.toNat)) (r.predicate p.toNat)

/-- Form V2: lane by lane on A. -/
def opV2 (rd : Reading) (lat : Nat) (f : W32 → W32) (p : BitVec 2) (d a : BitVec 8) (syl : Nat) (r : Run) : Run :=
  (r.takeLatch syl false rd a.toNat).writeReg d lat ((r.input syl false rd a.toNat).map f) (r.predicate p.toNat)

/-- Form VD: lane by lane on D, A and B; the read of D is never latched (R45, R49). -/
def opVD (rd : Reading) (lat : Nat) (f : W32 → W32 → W32 → W32) (p : BitVec 2) (d a b : BitVec 8) (syl : Nat) (r : Run) : Run :=
  (r.takeAB syl rd a b).writeReg d lat
    (List.zipWith (fun x g => g x) (r.reg d.toNat)
      (List.zipWith (fun x y z => f z x y) (r.input syl false rd a.toNat) (r.input syl true rd b.toNat)))
    (r.predicate p.toNat)

/-- Form PC: a compare of A and B to a predicate (R107, R116). -/
def opPC (rd : Reading) (lat : Nat) (f : W32 → W32 → Bool) (p : BitVec 2) (d a b : BitVec 8) (syl : Nat) (r : Run) : Run :=
  (r.takeAB syl rd a b).writePred d lat
    (List.zipWith f (r.input syl false rd a.toNat) (r.input syl true rd b.toNat)) (r.predicate p.toNat)

/-- Form PL: predicate logic (R108). -/
def opPL (f : Bool → Bool → Bool) (p : BitVec 2) (d a b : BitVec 8) (_syl : Nat) (r : Run) : Run :=
  r.writePred d 1 (List.zipWith f (r.predicate a.toNat) (r.predicate b.toNat)) (r.predicate p.toNat)

/-- Form SL: `pred` selects A or B, and every lane is written (R109). -/
def opSel (p : BitVec 2) (d a b : BitVec 8) (syl : Nat) (r : Run) : Run :=
  (r.takeAB syl .int a b).writeReg d 1
    (merge (r.input syl true .int b.toNat) (r.input syl false .int a.toNat) (r.predicate p.toNat))
    (List.replicate r.lanes true)

/-- Form PG: a predicate's bits, zero-extended, in every enabled lane (R110). -/
def opPget (p : BitVec 2) (d a : BitVec 8) (_syl : Nat) (r : Run) : Run :=
  r.writeReg d 1 (r.tabulate (fun g => BitVec.ofNat 32 (maskBits (r.predicate a.toNat) (g / 16)))) (r.predicate p.toNat)

/-! Lane functions. -/

/-- `S(x)` and `Z(x)` of R103. -/
def sInt (x : W32) : Int := x.toInt
def zInt (x : W32) : Int := (x.toNat : Int)

/-- The low 32 bits of an exact integer (R9). -/
def w32 (x : Int) : W32 := BitVec.ofInt 32 x

/-- A lane function on exact integers read one way. -/
def onInt (rd : W32 → Int) (f : Int → Int → Int) (a b : W32) : W32 := w32 (f (rd a) (rd b))

/-- The two halfword elements of a lane, element 0 first (R84). -/
def elem0 (x : W32) : Half := x.extractLsb' 0 16
def elem1 (x : W32) : Half := x.extractLsb' 16 16

/-- A lane function element by element (R106). -/
def onHalf (f : Half → Half → Half) (a b : W32) : W32 := f (elem1 a) (elem1 b) ++ f (elem0 a) (elem0 b)

/-- `S16` and `Z16` of R106. -/
def s16 (x : Half) : Int := x.toInt
def z16 (x : Half) : Int := (x.toNat : Int)

/-- A halfword function on exact integers. -/
def onHInt (rd : Half → Int) (f : Int → Int → Int) : W32 → W32 → W32 :=
  onHalf (fun x y => BitVec.ofInt 16 (f (rd x) (rd y)))

/-- Floor((x + y + 1) / 2) (R104, R106). -/
def avgUp (x y : Int) : Int := (x + y + 1) / 2

/-- |x - y|. -/
def absDiff (x y : Int) : Int := ((x - y).natAbs : Int)

/-- shl, shrz and shrs of R105, by the full 32-bit count. -/
def shl32 (a n : W32) : W32 := if 32 ≤ n.toNat then 0 else a <<< n.toNat
def shrz32 (a n : W32) : W32 := if 32 ≤ n.toNat then 0 else a >>> n.toNat
def shrs32 (a n : W32) : W32 := a.sshiftRight (min n.toNat 31)
def rotl32 (a n : W32) : W32 := a.rotateLeft (n.toNat % 32)

/-- The number of leading zero bits (R105). -/
def clz32 (a : W32) : W32 := if a = 0 then 32 else BitVec.ofNat 32 (31 - Nat.log2 a.toNat)

/-- pcnt (R105). -/
def pcnt32 (a : W32) : W32 := BitVec.ofNat 32 (popNat 32 a.toNat)

/-- The field a funnel extract cuts from D:A under control B (R111), with its width. -/
def funnel (d a b : W32) : Nat × Nat :=
  let pos := b.toNat % 64
  let w := b.toNat / 256 % 32 + 1
  ((d.toNat * 2 ^ 32 + a.toNat) / 2 ^ pos % 2 ^ w, w)

/-- fext and fexts (R111). -/
def fext32 (d a b : W32) : W32 := BitVec.ofNat 32 (funnel d a b).1
def fexts32 (d a b : W32) : W32 :=
  let x := funnel d a b
  if x.1 / 2 ^ (x.2 - 1) % 2 = 1 then w32 (x.1 - 2 ^ x.2) else BitVec.ofNat 32 x.1

/-- A lane function on FP32 values, rounded once (R114). -/
def onF (f : FVal → FVal → FVal) (a b : W32) : W32 := roundFP32 (f (f32 a) (f32 b))
def onF1 (f : FVal → FVal) (a : W32) : W32 := roundFP32 (f (f32 a))
def onF3 (f : FVal → FVal → FVal → FVal) (d a b : W32) : W32 := roundFP32 (f (f32 d) (f32 a) (f32 b))

/-- A lane function on BF16 pairs, each element rounded once (R83, R118). -/
def onB (f : FVal → FVal → FVal) : W32 → W32 → W32 := onHalf (fun x y => roundBF16 (f (bf16 x) (bf16 y)))
def onB3 (f : FVal → FVal → FVal → FVal) (d a b : W32) : W32 :=
  roundBF16 (f (bf16 (elem1 d)) (bf16 (elem1 a)) (bf16 (elem1 b)))
    ++ roundBF16 (f (bf16 (elem0 d)) (bf16 (elem0 a)) (bf16 (elem0 b)))

/-- A sign operation: NaN becomes the canonical NaN (R79, R115). -/
def signOp (f : W32 → W32) (a : W32) : W32 := if (f32 a).isNan then 0x7FC00000 else f a

/-- fdot2 (R115): one rounding of D + A0 B0 + A1 B1. -/
def fdot2 (d a b : W32) : W32 :=
  roundFP32 (((f32 d).add ((bf16 (elem0 a)).mul (bf16 (elem0 b)))).add ((bf16 (elem1 a)).mul (bf16 (elem1 b))))

/-- frnd (R115): to an integral value, keeping the sign on a zero result. -/
def frndVal : FVal → FVal
  | .fin n m e => if 0 ≤ e then .fin n m e else .fin n (roundIntMag m e) 0
  | x => x

end Sys2Proof.Machine
end

