-- ==== Sys2Proof/Machine/Tile.lean ====
section
/-!
DEFINITION. The tile operand memory, the accumulator memory and the tile multiplier in its dense and parts modes
(R70-R76, R91-R97, R120-R149): layouts, records, the pass queue, the drain, and what a landing result does.
-/

namespace Sys2Proof.Machine

/-- Word k (0-4,095) of a TOM slot in one core: line k / 16, word k mod 16 (R70). -/
def linesWord (lines : Tab Row) (core k : Nat) : W32 := (tgetD lines (k / 16) []).getD (16 * core + k % 16) 0

/-- Word k of consecutive slots read as one area (R121, R136). -/
def areaWord (area : List (Tab Row)) (core k : Nat) : W32 := linesWord (area.getD (k / 4096) []) core (k % 4096)

/-- Byte b of an area. -/
def areaByte (area : List (Tab Row)) (core b : Nat) : Nat := (areaWord area core (b / 4)).toNat / 256 ^ (b % 4) % 256

/-- Nibble x of an area: the low half of byte x / 2 when x is even (R121). -/
def areaNib (area : List (Tab Row)) (core x : Nat) : Nat := areaByte area core (x / 2) / 16 ^ (x % 2) % 16

/-- The halfword at an even byte of an area. -/
def areaHalf (area : List (Tab Row)) (core b : Nat) : Nat := areaByte area core b + 256 * areaByte area core (b + 1)

/-- The lines of a slot the run has claimed, or none (R72). -/
def Run.slotLines (r : Run) (m : Nat) : Tab Row := ((tget r.slots m).map TomSlot.lines).getD []

/-- A slot's tag; NONE for a slot not claimed (R72). -/
def Run.slotTag (r : Run) (m : Nat) : Nat := ((tget r.slots m).map TomSlot.tag).getD 0

/-- The slots from m as they stand. -/
def Run.slotArea (r : Run) (m n : Nat) : List (Tab Row) := (List.range n).map (fun i => r.slotLines (m + i))

/-- K, the rows of weights a dense pass covers, and N, its columns (R121). -/
def denseK (fmt : Nat) : Nat := if fmt = 2 then 128 else if fmt = 3 then 256 else 512
def denseN (fmt : Nat) : Nat := if fmt = 2 then 64 else 128

/-- The AM rows of one output row, CAP' of R126. -/
def denseCap (fmt : Nat) : Nat := if fmt = 2 then 4 else 8

/-- Is the format a dense one? -/
def isDense (fmt : Nat) : Bool := fmt == 2 || fmt == 3 || fmt == 4

/-- Weight element (k, j) of a set (R121). -/
def Weights.elem (w : Weights) (core k j : Nat) : FVal :=
  if w.fmt = 2 then
    bf16 (BitVec.ofNat 16 (areaHalf w.area core (if w.rowMajor then 128 * k + 2 * j else 256 * j + 2 * k)))
  else if w.fmt = 3 then
    let e := 32768 + 16 * j + 2 * (k / 32)
    bx8Val (areaByte w.area core (if w.rowMajor then 128 * k + j else 256 * j + k))
      (areaByte w.area core e) (areaByte w.area core (e + 1))
  else
    let e := 32768 + 32 * j + 2 * (k / 32)
    bx4Val (areaNib w.area core (if w.rowMajor then 128 * k + j else 512 * j + k))
      (areaByte w.area core e) (areaByte w.area core (e + 1))

/-- Activation element k of row x of a slot tagged `fmt`; beyond the slot's rows it is zero (R124). -/
def actElem (fmt : Nat) (sl : List (Tab Row)) (core x k : Nat) : FVal :=
  if fmt = 2 then
    if x < 64 then bf16 (BitVec.ofNat 16 (areaHalf sl core (256 * x + 2 * k))) else .fin false 0 0
  else if fmt = 3 then
    let e := 15360 + 16 * x + 2 * (k / 32)
    if x < 60 then bx8Val (areaByte sl core (256 * x + k)) (areaByte sl core e) (areaByte sl core (e + 1))
    else .fin false 0 0
  else
    let e := 14336 + 32 * x + 2 * (k / 32)
    if x < 56 then bx4Val (areaNib sl core (512 * x + k)) (areaByte sl core e) (areaByte sl core (e + 1))
    else .fin false 0 0

/-- The column sums of one activation row in one core (R91, R124); tmmh takes the first half of K. -/
def denseSums (w : Weights) (op : PassOp) (sl : List (Tab Row)) (core x : Nat) : List Int :=
  let kk := denseK w.fmt
  let xs := (List.range kk).map (fun k => actElem w.fmt sl core x k)
  (List.range (denseN w.fmt)).map (fun j =>
    let ps := (xs.zipIdx).map (fun p =>
      if op == .half && kk / 2 ≤ p.2 then .fin false 0 0 else (w.elem core p.2 j).mul p.1)
    ((sumPass ps).toNat : Int))

/-! Parts records (R92-R97). -/

/-- A record's bytes as a number: `n` words from word k of an area. -/
def areaNat (area : List (Tab Row)) (core k : Nat) : Nat → Nat
  | 0 => 0
  | n + 1 => (areaWord area core k).toNat + 2 ^ 32 * areaNat area core (k + 1) n

/-- A record: its indices, base and differences. -/
structure PartsRec where
  idx : List Nat := []
  base : Int := 0
  ds : List Nat := []
  valid : Bool := false
  deriving DecidableEq, Repr, Inhabited

/-- An s8 field. -/
def s8Field (x lo : Nat) : Int := (BitVec.ofNat 8 (bitsNat x lo 8)).toInt

/-- The differences of a DP4 record from its nibbles, the escapes taken in order (R92). -/
def dp4Diffs (x : Nat) : List Nat → Nat → List Nat
  | [], _ => []
  | k :: ks, j =>
    let nb := bitsNat x (128 + 4 * (k - 1)) 4
    if nb = 15 then (15 + bitsNat x (224 + 8 * j) 8) :: dp4Diffs x ks (j + 1) else nb :: dp4Diffs x ks j

/-- Indices in range and pairwise different (R95). -/
def idxOk (l : List Nat) : Bool := l.all (fun i => i ≤ 23) && l.dedup.length == l.length

/-- A DP4 record (R92, R95). -/
def dp4Rec (x : Nat) : PartsRec :=
  let idx := (List.range 24).map (fun k => bitsNat x (5 * k) 5)
  let ks := (List.range 23).map (· + 1)
  let esc := (ks.filter (fun k => bitsNat x (128 + 4 * (k - 1)) 4 == 15)).length
  { idx := idx, base := s8Field x 120, ds := dp4Diffs x ks 0,
    valid := idxOk idx && esc ≤ 4 && bitsNat x 220 4 == 0
      && (List.range 4).all (fun j => j < esc || bitsNat x (224 + 8 * j) 8 == 0) }

/-- A DP8 record (R93, R95). -/
def dp8Rec (x : Nat) : PartsRec :=
  let idx := (List.range 24).map (fun k => bitsNat x (5 * k) 5)
  { idx := idx, base := s8Field x 120, ds := (List.range 23).map (fun k => bitsNat x (128 + 8 * k) 8),
    valid := idxOk idx && bitsNat x 312 200 == 0 }

/-- A DPS record (R94, R95). -/
def dpsRec (x : Nat) : PartsRec :=
  let idx := (List.range 8).map (fun k => bitsNat x (5 * k) 5)
  { idx := idx, base := s8Field x 40, ds := (List.range 7).map (fun k => bitsNat x (48 + 8 * k) 8),
    valid := idxOk idx && bitsNat x 104 24 == 0 }

/-- Words of a record, groups per column, slots of a tile, and row length K of a parts form (R136, R139). -/
def recWords (fmt : Nat) : Nat := if fmt = 7 then 8 else if fmt = 8 then 16 else 4
def partsGroups (fmt : Nat) : Nat := if fmt = 9 then 48 else 16
def partsSlots (fmt : Nat) : Nat := if fmt = 7 then 4 else if fmt = 8 then 8 else 6
def partsK (fmt : Nat) : Nat := 24 * partsGroups fmt

/-- The record of group g of column j (R136). -/
def partsRec (w : Weights) (core j g : Nat) : PartsRec :=
  let x := areaNat w.area core (recWords w.fmt * (partsGroups w.fmt * j + g)) (recWords w.fmt)
  if w.fmt = 7 then dp4Rec x else if w.fmt = 8 then dp8Rec x else dpsRec x

/-- The sorted weights: base, then each plus its difference (R96). -/
def sortedWeights (base : Int) : List Nat → List Int
  | [] => [base]
  | d :: ds => base :: sortedWeights (base + d) ds

/-- GroupResult: the sum of w(k) b[k] (R96). -/
def groupResult (rc : PartsRec) (a : List Int) : Int :=
  (List.zipWith (fun w i => w * a.getD i 0) (sortedWeights rc.base rc.ds) rc.idx).foldl (· + ·) 0

/-- Activation element k of row x of a parts row (R139): s8 (tag 5) or s16 (tag 6). -/
def partsAct (tag fmt : Nat) (sl : List (Tab Row)) (core x k : Nat) : Int :=
  let kk := partsK fmt
  if tag = 5 then
    if x < 16384 / kk then (BitVec.ofNat 8 (areaByte sl core (kk * x + k))).toInt else 0
  else if x < 8192 / kk then (BitVec.ofNat 16 (areaHalf sl core (2 * (kk * x + k)))).toInt else 0

/-- The 128 exact column sums of one parts row in one core (R140). -/
def partsSums (w : Weights) (tag : Nat) (sl : List (Tab Row)) (core x : Nat) : List Int :=
  let acts := (List.range (partsK w.fmt)).map (fun k => partsAct tag w.fmt sl core x k)
  (List.range 128).map (fun j =>
    ((List.range (partsGroups w.fmt)).map (fun g =>
      groupResult (partsRec w core j g) ((acts.drop (24 * g)).take 24))).foldl (· + ·) 0)

/-- Cores in which some record of the slots is invalid (R95). -/
def badRecordCores (w : Weights) (g : Nat) : List Nat :=
  (List.range g).filter (fun c =>
    (List.range 128).any (fun j => (List.range (partsGroups w.fmt)).any (fun k => !(partsRec w c j k).valid)))

/-! The pass queue and the array (R122, R125, R141). -/

/-- The row at the head of the queue meets the array: skipped, or summed and in flight (R124, R127, R140, R143). -/
def Run.rowOf (r : Run) (p : Pass) : Run :=
  let tag := r.slotTag p.m
  let sl := [r.slotLines p.m]
  let skip : Run := { r with tmis := r.tmis || !r.newClr }
  if p.parts then
    if isParts r.active.fmt && (tag == 5 || tag == 6) then
      { r with fly := r.fly ++ [{ n := 24, parts := true, op := p.op, bank := p.bank, q := p.q % 2,
                                  sums := (List.range r.g).map (fun c => partsSums r.active tag sl c p.row) }] }
    else skip
  else if isDense r.active.fmt && tag == r.active.fmt then
    { r with fly := r.fly ++ [{ n := 16, op := p.op, bank := p.bank, cap := denseCap tag,
                                q := p.q % (32 / denseCap tag),
                                sums := (List.range r.g).map (fun c => denseSums r.active p.op sl c p.row) }] }
  else skip

/-- The next row enters in this cycle, unless a drain takes the cycle (R122, R125). -/
def Run.enterRow (r : Run) : Run :=
  if r.drain then { r with drain := false }
  else match r.passes with
    | [] => r
    | p :: ps =>
      let r' := r.rowOf p
      { r' with passes := if p.left ≤ 1 then ps
                          else { p with row := p.row + 1, left := p.left - 1, q := p.q + 1 } :: ps }

/-- A row of a bank, zero where nothing is written (R74). -/
def Bank.row (b : Bank) (lanes k : Nat) : Row := tgetD b.rows k (List.replicate lanes 0)

/-- A row of containers of a part-sum bank. -/
def Bank.cellRow (b : Bank) (lanes k : Nat) : List Word := tgetD b.cells k (List.replicate lanes 0)

/-- One element of a dense update (R124). -/
def denseUpd (op : PassOp) (e s : W32) : W32 :=
  match op with
  | .zero => s
  | .neg => roundFP32 ((f32 e).add (f32 s).negate)
  | _ => addFP32 e s

/-- A dense row's sums applied to its bank (R124, R126). -/
def applyDense (g : Nat) (f : FlyRow) (b : Bank) : Bank :=
  let ncol := (f.sums.headD []).length
  { b with rows := (List.range (ncol / 16)).foldl (fun t jb =>
      let k := f.cap * f.q + jb
      let old := tgetD t k (List.replicate (16 * g) 0)
      tput t k ((List.range (16 * g)).map (fun x =>
        denseUpd f.op (old.getD x 0) (BitVec.ofInt 32 ((f.sums.getD (x / 16) []).getD (16 * jb + x % 16) 0))))) b.rows }

/-- The exact value a parts update gives a container (R97, R140). -/
def partsVal (op : PassOp) (v p : Int) : Int :=
  match op with
  | .zero => p
  | .neg => v - p
  | _ => v + p

/-- The exact values a parts row gives the containers of block jb of its output row. -/
def partsExact (g : Nat) (f : FlyRow) (b : Bank) (jb : Nat) : List Int :=
  let old := b.cellRow (16 * g) (8 * f.q + jb)
  (List.range (16 * g)).map (fun x =>
    partsVal f.op (old.getD x 0).toInt ((f.sums.getD (x / 16) []).getD (16 * jb + x % 16) 0))

/-- A parts row's sums applied to its bank, wrapping to 48 bits and setting OVF core by core (R97, R140). -/
def applyParts (g : Nat) (f : FlyRow) (b : Bank) : Bank :=
  let xs := (List.range 8).map (partsExact g f b)
  { b with
    cells := (List.range 8).foldl (fun t jb => tput t (8 * f.q + jb) ((xs.getD jb []).map wrap48)) b.cells,
    ovf := (List.range g).filter (fun c =>
      b.ovf.contains c || xs.any (fun l => ((l.drop (16 * c)).take 16).any ovf48)) }

/-- A row in flight becomes visible: its bank is updated, or the update is discarded and sets TMIS (R127, R143). -/
def Run.applyFly (r : Run) (f : FlyRow) : Run :=
  match tget r.banks f.bank with
  | some b =>
    if b.part == f.parts then
      { r with banks := tput r.banks f.bank (if f.parts then applyParts r.g f b else applyDense r.g f b) }
    else { r with tmis := true }
  | none => { r with tmis := true }

/-- The rows of one mode whose results become visible in this cycle (R125, R141). -/
def Run.flyDue (r : Run) (parts : Bool) : List FlyRow := r.fly.filter (fun f => f.n == 0 && f.parts == parts)

/-- The updates of one mode that become visible in this cycle, applied in issue order. -/
def Run.landRows (r : Run) (parts : Bool) : Run :=
  let due := r.flyDue parts
  due.foldl Run.applyFly { r with fly := r.fly.filter (fun f => !(f.n == 0 && f.parts == parts)) }

/-! Landing results (R17, R19, R75). -/

/-- Debug mode: the lanes a landing result clears (R36). -/
def Run.clearMarks (r : Run) (d : Nat) (m : Mask) : Run :=
  if r.dbg then
    let old := tgetD r.dbgBits d (List.replicate r.lanes false)
    { r with dbgBits := tput r.dbgBits d (merge old (List.replicate r.lanes false) m) }
  else r

/-- Rows written to an allocated FP32 bank.  DEDUCED (log 70): the bank's mode is tested as the write lands, as for every other
write of the AM (R75), and not at the issue of the pcvt, tscl, tbias or tcvt that makes it. -/
def Run.putRows (r : Run) (k : Nat) (v : Tab Row) : Run :=
  match tget r.banks k with
  | some b =>
    if b.part then r
    else { r with banks := tput r.banks k { b with rows := v.foldl (fun t p => tput t p.1 p.2) b.rows } }
  | none => r

/-- tamw's row written in the bank's own mode (R129). -/
def Run.putAmRow (r : Run) (k x : Nat) (v : Row) : Run :=
  match tget r.banks k with
  | some b =>
    if b.part then
      { r with banks := tput r.banks k { b with cells := tput b.cells (x % 16) (v.map (fun w => w.signExtend 64)) } }
    else { r with banks := tput r.banks k { b with rows := tput b.rows (x % 32) v } }
  | none => r

/-- What one result does when it lands.  DEDUCED (log 71): a tfill's line is judged by the claim as it stands where the line lands
(R72, R75, R132), not as it stood at the tfill's issue. -/
def Run.land (r : Run) : Effect → Run
  | .reg d v m => { r with regs := tput r.regs d (merge (r.reg d) v m) }.clearMarks d m
  | .pred d v m => { r with preds := tput r.preds d (merge (r.predicate d) v m) }
  | .line m i v tag =>
    match tget r.slots m with
    | some sl => { r with slots := tput r.slots m { tag := tag.getD sl.tag, lines := tput sl.lines i v } }
    | none => r
  | .claim m => { r with slots := tput r.slots m {} }
  | .release m =>
    if thas r.slots m then
      { r with slots := tdel r.slots m,
               pend := r.pend.filter (fun p => match p.eff with | .line m' _ _ _ => m' != m | _ => true) }
    else r
  | .alloc k part =>
    if thas r.banks k || r.banks.length < r.amMax then { r with banks := tput r.banks k { part := part } } else r
  | .free k => { r with banks := tdel r.banks k }
  | .clear k =>
    match tget r.banks k with
    | some b => { r with banks := tput r.banks k { part := b.part } }
    | none => r
  | .clearOvf k =>
    match tget r.banks k with
    | some b => { r with banks := tput r.banks k { b with ovf := [] } }
    | none => r
  | .bankRows k v => r.putRows k v
  | .amRow k x v => r.putAmRow k x v

/-- The results due in this cycle, in issue order. -/
def Run.due (r : Run) : List Effect := (r.pend.filter (fun p => p.n == 0)).map Pend.eff

/-- Every result due in this cycle lands, in issue order (R17, R19). -/
def Run.landDue (r : Run) : Run :=
  r.due.foldl Run.land { r with pend := r.pend.filter (fun p => p.n != 0) }

/-- The LRF registers whose results land in this cycle (R20). -/
def Run.regsDue (r : Run) : List Nat :=
  r.due.filterMap (fun e => match e with | .reg d _ _ => some d | _ => none)

/-- Everything still to happen moves one advancing cycle nearer (R7, R29). -/
def Run.advance (r : Run) : Run :=
  { r with pend := r.pend.map (fun p => { p with n := p.n - 1 }), fly := r.fly.map (fun f => { f with n := f.n - 1 }) }

/-- Is the group in a cycle that issues no bundle: after a halt, or in one that an idle occupies (R27, R101)?  Else it stands at
the boundary before its next bundle, with which everything due in that bundle's cycle lands (R29). -/
def Run.between (r : Run) : Bool := r.halted || r.idle != 0

/-- Has every operation issued performed (R27)? -/
def Run.drained (r : Run) : Bool := r.pend.isEmpty && r.passes.isEmpty && r.fly.isEmpty

/-- Everything that becomes visible at the start of a cycle: rows, then results (R75; a row's pass was issued first). -/
def Run.landAll (r : Run) : Run := ((r.landRows false).landRows true).landDue

/-- The beginning of a bundle's issue: the syllables and a fresh record of what the bundle does. -/
def Run.beginBundle (r : Run) (b : List W32) : Run :=
  { r with bundle := b, next := r.pc + 1, stall := false, faults := [], marks := [], newActive := none,
           newDrain := false, newTldx := none, newClr := false, snapQ := r.passes.length, snapOvr := r.tovr, snapMis := r.tmis }

/-- The end of an advancing cycle (R122, R125): the next row enters against the old weights, then the new weights and
the drain take hold and every count falls by one. -/
def Run.endCycle (r : Run) : Run :=
  let e := if r.entered then { r with entered := false } else r.enterRow
  { e.advance with
    active := r.newActive.getD r.active, drain := r.newDrain || e.drain, tldx := r.newTldx.getD r.tldx, newActive := none,
    newDrain := false, newTldx := none, newClr := false }

/-- The end of a bundle's issue: the program counter moves and debug marks take hold (R15, R36). -/
def Run.endBundle (r : Run) : Run :=
  { r with pc := r.next, marks := [],
           dbgBits := if r.dbg then r.marks.foldl (fun t m =>
             tput t m.1 (merge (tgetD t m.1 (List.replicate r.lanes false)) (List.replicate r.lanes true) m.2)) r.dbgBits
             else r.dbgBits }

/-- A pass joins the queue, or is dropped when four are in it (R125). -/
def Run.queuePass (r : Run) (p : Pass) : Run :=
  if 4 ≤ r.passes.length then { r with tovr := true } else { r with passes := r.passes ++ [p] }

/-- The pass a uniform operand describes (R124, R140). -/
def passOf (parts : Bool) (op : PassOp) (bank m : Nat) (n : W32) : Pass :=
  { parts := parts, op := op, bank := bank, m := m, row := n.toNat % 256, left := n.toNat / 256 % 8 + 1,
    q := n.toNat / 4096 % 8 }

end Sys2Proof.Machine
end

