-- ==== Sys2Proof/Machine/Srf.lean ====
section
/-!
DEFINITION. SRF streams (R150, R151) and what a run's stream ports do to them (R152-R160).
-/

namespace Sys2Proof.Machine

/-- Position counters wrap modulo 2^32 (R151). -/
def wrap32 (x : Nat) : Nat := x % 2 ^ 32

/-- x - y modulo 2^32. -/
def diff32 (x y : Nat) : Nat := (x + 2 ^ 32 - y % 2 ^ 32) % 2 ^ 32

/-- The capacity C in positions (R150, R178). -/
def Stream.cap (st : Stream) : Nat := 64 * st.units

/-- Words of one position: 16G (R150). -/
def Stream.rowLen (st : Stream) : Nat := 16 * st.g

/-- Filled positions from rp (R151). -/
def Stream.filled (st : Stream) : Nat := diff32 st.wp st.rp

/-- Free positions from wp (R151). -/
def Stream.space (st : Stream) : Nat := st.cap - st.filled

/-- The row at an absolute position: 16G words, zero until written (R150, R178). -/
def Stream.row (st : Stream) (x : Nat) : Row := tgetD st.data (wrap32 x % st.cap) (List.replicate st.rowLen 0)

/-- The stream with a row written at an absolute position. -/
def Stream.putRow (st : Stream) (x : Nat) (v : Row) : Stream := { st with data := tput st.data (wrap32 x % st.cap) v }

/-- n positions consumed: rp moves. -/
def Stream.consume (st : Stream) (n : Nat) : Stream := { st with rp := wrap32 (st.rp + n) }

/-- n positions published: wp moves. -/
def Stream.publish (st : Stream) (n : Nat) : Stream := { st with wp := wrap32 (st.wp + n) }

/-- A run and the stream a port of it is bound to. -/
structure PortView where
  run : Run
  port : Port
  st : Stream

/-- The group stalls: the bundle performs nothing (R20). -/
def PortView.wait (v : PortView) : PortView := { v with run := { v.run with stall := true } }

/-- The granules-to-positions count n'g of R152. -/
def Port.count (p : Port) (n : W32) : Nat := min n.toNat (p.occ / p.gran) * p.gran

/-- The port without marks on published positions. -/
def Port.unmark (p : Port) (lo n : Nat) : Port := { p with written := p.written.filter (fun x => n ≤ diff32 x lo) }

/-- spop: position rp + (k mod O), landing 3 cycles later (R155). -/
def doSpop (pr : BitVec 2) (d : BitVec 8) (k : W32) (v : PortView) : PortView :=
  let i := k.toNat % v.port.occ
  if v.st.filled ≤ i then v.wait
  else { v with run := v.run.writeReg d 3 (v.st.row (v.st.rp + i)) (v.run.predicate pr.toNat),
                port := { v.port with cr := max v.port.cr (i + 1) } }

/-- The lanes of a spopc from word `w`: the next stream words for selected lanes, 0 for the others (R157). -/
def popLanes (st : Stream) : Mask → Nat → Row
  | [], _ => []
  | true :: ms, w => (st.row (st.rp + w / st.rowLen)).getD (w % st.rowLen) 0 :: popLanes st ms (w + 1)
  | false :: ms, w => 0 :: popLanes st ms w

/-- spopc (R157): it waits for every row that the selected lanes reach.  With no selected lane there is none, so it waits for no row
(DESIGN CHOICE, log 87), although the rule goes on to name row rp. -/
def doSpopc (pr : BitVec 2) (d : BitVec 8) (v : PortView) : PortView :=
  let sel := v.run.predicate pr.toNat
  let n := (chosen sel).length
  let stop := v.port.r + n
  let need := if n = 0 then 0 else (stop - 1) / v.st.rowLen + 1
  if v.st.filled < need then v.wait
  else
    let used := stop / v.st.rowLen
    { v with run := v.run.writeReg d 4 (popLanes v.st sel v.port.r) (List.replicate v.run.lanes true),
             port := { v.port with r := stop % v.st.rowLen, cr := v.port.cr - used },
             st := v.st.consume used }

/-- spush (R155). -/
def doSpush (x : Row) (v : PortView) : PortView :=
  if v.st.space ≤ v.port.u then v.wait
  else
    let pos := wrap32 (v.st.wp + v.port.u)
    { v with port := { v.port with u := (v.port.u + 1) % v.port.occ, n := wrap32 (v.port.n + v.st.rowLen),
                                   written := pos :: v.port.written },
             st := v.st.putRow pos x }

/-- The row at wp + u written and everything up to it published (R156). -/
def publishRow (x : Row) (v : PortView) : PortView :=
  let k := v.port.u + 1
  { v with port := { v.port.unmark v.st.wp k with cr := v.port.cr - k, u := 0 },
           st := (v.st.putRow (v.st.wp + v.port.u) x).publish k }

/-- spushc (R156): the selected lanes appended; a completed row is published at once. -/
def doSpushc (pr : BitVec 2) (x : Row) (v : PortView) : PortView :=
  let sel := (chosen (v.run.predicate pr.toNat)).map (fun g => x.getD g 0)
  let all := v.port.staging ++ sel
  if all.length < v.st.rowLen then
    { v with port := { v.port with staging := all, n := wrap32 (v.port.n + sel.length) } }
  else if v.st.space ≤ v.port.u then v.wait
  else
    let w := publishRow (all.take v.st.rowLen) v
    { w with port := { w.port with staging := all.drop v.st.rowLen, n := wrap32 (v.port.n + sel.length) } }

/-- swaitf and swaite (R155): wait until n'g positions are filled, or free. -/
def doWait (out : Bool) (n : W32) (v : PortView) : PortView :=
  let k := v.port.count n
  if (if out then v.st.space else v.st.filled) < k then v.wait
  else { v with port := { v.port with cr := max v.port.cr k } }

/-- sadvr (R155). -/
def doSadvr (n : W32) (v : PortView) : PortView :=
  let k := v.port.count n
  if v.st.filled < k then v.wait
  else { v with port := { v.port with r := 0, cr := v.port.cr - k }, st := v.st.consume k }

/-- The positions from wp that no push has written become zero blocks (R155). -/
def zeroUnwritten (p : Port) (st : Stream) (k : Nat) : Stream :=
  (List.range k).foldl (fun t i =>
    let x := wrap32 (st.wp + i)
    if p.written.contains x then t else t.putRow x (List.replicate st.rowLen 0)) st

/-- sadvw (R155). -/
def doSadvw (n : W32) (v : PortView) : PortView :=
  let k := v.port.count n
  if v.st.space < k then v.wait
  else { v with port := { v.port.unmark v.st.wp k with u := v.port.u - k, cr := v.port.cr - k },
                st := (zeroUnwritten v.port v.st k).publish k }

/-- sflush (R156): the staging row padded and published, or else the pending pushes. -/
def doSflush (v : PortView) : PortView :=
  if v.port.staging.isEmpty then
    { v with port := { v.port.unmark v.st.wp v.port.u with cr := v.port.cr - v.port.u, u := 0 },
             st := v.st.publish v.port.u }
  else if v.st.space ≤ v.port.u then v.wait
  else
    let w := publishRow (v.port.staging ++ List.replicate (v.st.rowLen - v.port.staging.length) 0) v
    { w with port := { w.port with staging := [] } }

/-- tfill and tfillx (R159): one position into a line of a slot, landing 3 cycles later. -/
def doTfill (m : Nat) (fmt : Option Nat) (v : PortView) : PortView :=
  if v.st.filled = 0 then v.wait
  else
    let line := if fmt.isSome then 0 else v.port.f
    { v with run := v.run.post 3 (.line m line (v.st.row v.st.rp) fmt),
             port := { v.port with f := (line + 1) % 256, r := 0, cr := v.port.cr - 1 },
             st := v.st.consume 1 }

/-- Is there room for one more entry in the return queue of every core (R26)? -/
def Run.rqRoom (r : Run) : Bool := (List.range r.g).all (fun c => (tgetD r.rq c []).length < 8)

/-- One entry enqueued in the return queue of every core, core c's from `f c`; the group stalls while one is full
(R26, R102). -/
def Run.enqueue (r : Run) (f : Nat → W32) : Run :=
  if r.rqRoom then
    { r with rq := (List.range r.g).foldl (fun t c => tput t c (tgetD t c [] ++ [f c])) r.rq }
  else { r with stall := true }

/-- scnt (R158). -/
def doScnt (v : PortView) : PortView := { v with run := v.run.enqueue (fun _ => BitVec.ofNat 32 v.port.n) }

/-- A query: one value in every enabled lane, one cycle later (R160). -/
def doQuery (f : Port → Stream → Nat) (pr : BitVec 2) (d : BitVec 8) (v : PortView) : PortView :=
  { v with run := v.run.writeReg d 1 (v.run.splat (BitVec.ofNat 32 (f v.port v.st))) (v.run.predicate pr.toNat) }

/-! The switch (R161). -/

/-- Selected lanes of one core. -/
def coreChosen (m : Mask) (c : Nat) : List Nat := (chosen m).filter (fun g => g / 16 == c)

/-- A within-group permutation: group lane g receives lane `f g` of the source, or 0. -/
def permute (r : Run) (x : Row) (f : Nat → Option Nat) : Row :=
  r.tabulate (fun g => match f g with | some i => x.getD i 0 | none => 0)

/-- A switch operation under a write mask: latency 4, no latch (R161). -/
def opXs (f : Row → Nat → Option Nat) (p : BitVec 2) (d s : BitVec 8) (_syl : Nat) (r : Run) : Run :=
  let x := r.source .int s.toNat
  r.writeReg d 4 (permute r x (f x)) (r.predicate p.toNat)

/-- A switch operation whose `pred` selects lanes: it writes every lane (R161). -/
def opXsSel (f : Mask → Nat → Option Nat) (p : BitVec 2) (d s : BitVec 8) (_syl : Nat) (r : Run) : Run :=
  r.writeReg d 4 (permute r (r.source .int s.toNat) (f (r.predicate p.toNat))) (List.replicate r.lanes true)

/-- xcnt's word (R161). -/
def xcntWord (m : Mask) (g : Nat) : W32 :=
  BitVec.ofNat 32 ((chosen m).length * 2 ^ 16 + ((chosen m).filter (fun x => x < g)).length)

end Sys2Proof.Machine
end

