-- ==== Sys2Proof/Machine/KIssue.lean ====
section
/-!
DEFINITION. The issue of one operation of a bundle: what it does to the run being issued and, for a stream operation,
to the stream its port is bound to.
-/

namespace Sys2Proof.Machine

/-- A stream fault noted for the bundle being issued, in the cores given (R34, R35). -/
def Run.fault (r : Run) (code : Nat) (cores : List Nat) : Run := { r with faults := r.faults ++ cores.map (fun c => (c, code)) }

/-- The run with the debug-mode faults of an operation's reads noted (R36). -/
def Run.noteReads (r : Run) (syl : Nat) (i : Instr) : Run := { r with faults := r.faults ++ r.pendingReads syl i }

/-- An operation of the run being issued. -/
def kop (i : Instr) (f : Nat → Run → Run) (s : State) : Result :=
  .next (s.modMyRun (fun r => f s.cur.syl (r.noteReads s.cur.syl i)))

/-- The run, its port and the port's stream, put back into the state. -/
def State.putView (s : State) (a : Nat) (v : PortView) : State :=
  (s.setStream s.cur.sc v.port.stream v.st).setRun s.cur.sc s.cur.run
    { v.run with ports := tput v.run.ports a v.port }

/-- A stream operation on a port of the run being issued (R154). -/
def kport (i : Instr) (a : Nat) (f : Nat → PortView → PortView) (s : State) : Result :=
  let r := s.myRun.noteReads s.cur.syl i
  let p := tgetD r.ports a {}
  .next (s.putView a (f s.cur.syl { run := r, port := p, st := s.stream s.cur.sc p.stream }))

end Sys2Proof.Machine
end

