-- ==== Sys2Proof/Machine/Region.lean ====
section
/-!
DEFINITION. Regions (R323-R326): the control block, inheritance, residency, and the SRF and context pools; and the futures,
barriers and memberships of R236-R254.
-/

namespace Sys2Proof.Machine

/-! ## Reading a region control block (R323, R324) -/

/-- Is an address range in this package's memory? -/
def inMemRange (t : Topo) (a n : Nat) : Bool := inMemory t a && inMemory t (a + n - 1)

/-- Field groups of OVR by bit. -/
def ovrPrio : Nat := 0
def ovrSrf : Nat := 1
def ovrCtx : Nat := 2
def ovrMask : Nat := 3
def ovrSlice : Nat := 4
def ovrWindow : Nat := 5
def ovrFault : Nat := 6
def ovrPthr : Nat := 7

/-- A number at an offset of the 128 bytes of an RCB. -/
def fieldAt (bs : List Byte) (o n : Nat) : Nat := bytesNat ((bs.drop o).take n)

/-- A region from the bytes of its RCB. -/
def parseRcb (bs : List Byte) : Region :=
  { parent := fieldAt bs 0 8, ovr := fieldAt bs 8 1, prio := fieldAt bs 0x0A 1, regid := fieldAt bs 0x0C 4,
    srfb := fieldAt bs 0x10 4, ctxb := fieldAt bs 0x14 4, mask := fieldAt bs 0x18 2, slice := fieldAt bs 0x1C 4,
    window := fieldAt bs 0x20 4, pthr := fieldAt bs 0x24 4, hpc := fieldAt bs 0x28 8, harg := fieldAt bs 0x30 8,
    fdom := fieldAt bs 0x38 4 }

/-- Does a region define a field group? -/
def Region.has (r : Region) (bit : Nat) : Bool := bitNat r.ovr bit

/-- Every field whose OVR bit is clear is zero (R324). -/
def Region.clearOk (r : Region) : Bool :=
  (r.has ovrPrio || r.prio == 0) && (r.has ovrSrf || r.srfb == 0) && (r.has ovrCtx || r.ctxb == 0)
    && (r.has ovrMask || r.mask == 0) && (r.has ovrSlice || r.slice == 0) && (r.has ovrWindow || r.window == 0)
    && (r.has ovrPthr || r.pthr == 0) && (r.has ovrFault || (r.hpc == 0 && r.harg == 0 && r.fdom == 0))

/-- The bytes an RCB requires to be zero (R323). -/
def rcbZeros (bs : List Byte) : Bool :=
  fieldAt bs 0x09 1 == 0 && fieldAt bs 0x0B 1 == 0 && fieldAt bs 0x1A 2 == 0 && fieldAt bs 0x3C 68 == 0

/-- An RCB's own validity (R324). -/
def rcbOk (bs : List Byte) : Bool :=
  let r := parseRcb bs
  rcbZeros bs && r.clearOk && (r.parent != 0 || r.ovr == 255) && r.prio ≤ 7 && r.srfb ≤ 131072 && r.ctxb ≤ 256
    && (!r.has ovrWindow || r.window != 0) && r.hpc % 4 == 0

/-- The region a chain of RCBs makes resident: the regions read, nearest first, or none when one is invalid.  `fuel` is
the number of RCBs the chain may still hold (R324). -/
def State.readChain (s : State) : Nat → Nat → Option (List (Nat × Region))
  | 0, _ => none
  | fuel + 1, a =>
    if a % 128 ≠ 0 || !inMemRange s.topo a 128 then none
    else
      let r := match tget s.regions a with
        | some r => some r
        | none => let bs := s.bytes a 128; if rcbOk bs then some (parseRcb bs) else none
      match r with
      | none => none
      | some r =>
        if r.parent = 0 then some [(a, r)]
        else (State.readChain s fuel r.parent).map (fun l => (a, r) :: l)

/-- The RCBs that a chain reads from memory, those that are not resident, up to the first that is invalid (R324). -/
def State.chainReads (s : State) : Nat → Nat → List Nat
  | 0, _ => []
  | fuel + 1, a =>
    if a % 128 ≠ 0 || !inMemRange s.topo a 128 then []
    else
      let bs := s.bytes a 128
      let held := thas s.regions a
      let up := ((tget s.regions a).getD (parseRcb bs)).parent
      (if held then [] else [a]) ++ (if (held || rcbOk bs) && up != 0 then State.chainReads s fuel up else [])

/-- A region in the table of a hub. -/
def Region.inHub (r : Region) (hub : Nat) : Region := if r.hubs.contains hub then r else { r with hubs := hub :: r.hubs }

/-- Regions put into the table of a hub. -/
def State.putRegions (s : State) (hub : Nat) (l : List (Nat × Region)) : State :=
  { s with regions := l.foldl (fun t p => tput t p.1 ((tgetD t p.1 p.2).inHub hub)) s.regions }

/-- Resident regions in a hub's table (R324). -/
def State.regionCount (s : State) (hub : Nat) : Nat := (s.regions.filter (fun p => p.2.hubs.contains hub)).length

/-! ## Inheritance and pools (R323, R325, R326) -/

/-- A resident region and its ancestors, nearest first; none for no region (address 0). -/
def State.chain (s : State) : Nat → Nat → List Region
  | 0, _ => []
  | fuel + 1, a =>
    if a = 0 then []
    else match tget s.regions a with
      | none => []
      | some r => r :: State.chain s fuel r.parent
def State.ancestors (s : State) (rcb : Nat) : List Region := s.chain 8 rcb

/-- The addresses of a region and its ancestors. -/
def State.chainAddrs (s : State) : Nat → Nat → List Nat
  | 0, _ => []
  | fuel + 1, a =>
    if a = 0 then []
    else match tget s.regions a with
      | none => []
      | some r => a :: State.chainAddrs s fuel r.parent

/-- The nearest region of a chain that defines a field group. -/
def definer (l : List Region) (bit : Nat) : Region := (l.find? (fun r => r.has bit)).getD {}

/-- PRIO, PTHR, SLICE and WINDOW of a region; a task under no region has class 0 (R241). -/
def State.classOf (s : State) (rcb : Nat) : Nat := (definer (s.ancestors rcb) ovrPrio).prio
def State.pthrOf (s : State) (rcb : Nat) : Nat := (definer (s.ancestors rcb) ovrPthr).pthr
def State.sliceOf (s : State) (rcb : Nat) : Nat := (definer (s.ancestors rcb) ovrSlice).slice
def State.windowOf (s : State) (rcb : Nat) : Nat := (definer (s.ancestors rcb) ovrWindow).window
def State.faultOf (s : State) (rcb : Nat) : Region := definer (s.ancestors rcb) ovrFault
def State.regidOf (s : State) (rcb : Nat) : Nat := ((tget s.regions rcb).map Region.regid).getD 0

/-- Is an SC live: has it a live core (R352)? -/
def State.liveSc (s : State) (n : Nat) : Bool := s.topo.cores.getD n 0 != 0

/-- Is every core of a group live (R352)? -/
def State.coresLive (s : State) (n first g : Nat) : Bool :=
  (List.range g).all (fun c => (s.topo.cores.getD n 0).toNat.testBit (first + c))

/-- The SCs of a region's mask that are live (R326); every live SC under no region (R241). -/
def State.scsOf (s : State) (rcb : Nat) : List Nat :=
  let m := if rcb = 0 then 65535 else (definer (s.ancestors rcb) ovrMask).mask
  (List.range 16).filter (fun n => bitNat m n && s.liveSc n)

/-- The pools a charge to a region is made to, by address. -/
def State.pools (s : State) (bit rcb : Nat) : List Nat :=
  (s.chainAddrs 8 rcb).filter (fun a => ((tget s.regions a).map (fun r => r.has bit)).getD false)

/-- Have the SRF pools, or the context pools, of a region room for a charge (R325)? -/
def State.srfRoom (s : State) (rcb k : Nat) : Bool :=
  (s.pools ovrSrf rcb).all (fun a => let r := tgetD s.regions a {}; r.srfUsed + k ≤ r.srfb)
def State.ctxRoom (s : State) (rcb : Nat) : Bool :=
  (s.pools ovrCtx rcb).all (fun a => let r := tgetD s.regions a {}; r.ctxUsed + 1 ≤ r.ctxb)

/-- A charge to the SRF pools of a region made, and returned. -/
def State.chargeSrf (s : State) (rcb k : Nat) : State :=
  { s with regions := (s.pools ovrSrf rcb).foldl (fun t a => tmod t a (fun r => { r with srfUsed := r.srfUsed + k })) s.regions }
def State.refundSrf (s : State) (rcb k : Nat) : State :=
  { s with regions := (s.pools ovrSrf rcb).foldl (fun t a => tmod t a (fun r => { r with srfUsed := r.srfUsed - k })) s.regions }

/-- A charge of one context made, and returned. -/
def State.chargeCtx (s : State) (rcb : Nat) : State :=
  { s with regions := (s.pools ovrCtx rcb).foldl (fun t a => tmod t a (fun r => { r with ctxUsed := r.ctxUsed + 1 })) s.regions }
def State.refundCtx (s : State) (rcb : Nat) : State :=
  { s with regions := (s.pools ovrCtx rcb).foldl (fun t a => tmod t a (fun r => { r with ctxUsed := r.ctxUsed - 1 })) s.regions }

/-- Does a future stand for a task or graph that has not ended? -/
def Fut.stands (f : Fut) : Bool := f.st == .ready || f.st == .running || f.st == .reclaimed

/-- The regions something is charged to (R324): launches, tasks, graphs, handlers that wait, and streams. -/
def State.regionsInUse (s : State) : List Nat :=
  (s.launches.map (fun p => p.2.rcb)) ++ (s.futs.filterMap (fun p => if p.2.stands then some p.2.rcb else none))
    ++ (s.graphs.map (fun p => p.2.rcb)) ++ (s.handlers.map (fun h => h.2.2)) ++ (s.scs.flatMap (fun p => p.2.streams.map (fun x => x.2.region)))

/-- Regions nothing is charged to, directly or through a descendant, cease to be resident (R324). -/
def State.gcRegions (s : State) : State :=
  if s.regions.isEmpty then s
  else
    let keep := s.regionsInUse.flatMap (s.chainAddrs 8)
    { s with regions := s.regions.filter (fun p => keep.contains p.1) }

/-! ## Which region a context works under (R241, R326) -/

/-- The RCB of a context: a task's own; a system context's owner's; otherwise none. -/
def State.rcbOf (s : State) (n c : Nat) : Nat :=
  let x := s.ctx n c
  if c < 16 then x.rcb.toNat
  else if 18 ≤ c && x.owner < 31 then (s.ctx n x.owner).rcb.toNat
  else 0

/-- The executing context's RCB. -/
def State.myRcb (s : State) : Nat := s.rcbOf s.cur.sc s.cur.ctx

/-! ## Streams (R178, R179) -/

/-- Units a stream is charged for. -/
def Stream.charge (st : Stream) : Nat := st.g * st.units

/-- A stream freed: its units, its descriptor and its charge; handles bound to it were unbound already. -/
def State.freeStream (s : State) (n d : Nat) : State :=
  let st := s.stream n d
  (s.refundSrf st.region st.charge).modSc n (fun t => { t with streams := tdel t.streams d })

/-- Does an entry use a stream? -/
def Entry.uses (e : Entry) (d : Nat) : Bool := e.ends.any (fun x => x.d == d)

/-- A stream of an ended activity: freed at once, or once its last entry retires (R179). -/
def State.releaseStream (s : State) (n d : Nat) : State :=
  if (s.sc n).entries.any (fun e => e.uses d && e.st != .retired) then
    s.modSc n (fun t => { t with streams := tmod t.streams d (fun x => { x with dying := true }) })
  else s.freeStream n d

/-- The streams an owner holds in an SC. -/
def ownStreams (t : Sc) (o : Owner) : List Nat := (t.streams.filter (fun p => p.2.owner == o && !p.2.dying)).map Prod.fst

/-- Every stream of an owner is freed (R179). -/
def State.releaseStreams (s : State) (n : Nat) (o : Owner) : State :=
  (ownStreams (s.sc n) o).foldl (fun t d => t.releaseStream n d) s

/-- The WAITING entries of an owner are cancelled without effect (R175), with the runs that wait. -/
def State.cancelWaiting (s : State) (n : Nat) (o : Owner) : State :=
  s.modSc n (fun t =>
    let gone := (t.entries.filter (fun e => e.owner == o && e.st == .waiting)).map Entry.id
    { t with entries := t.entries.filter (fun e => !gone.contains e.id),
             runs := t.runs.filter (fun p => !gone.contains p.1) })

/-! ## Barriers (R250-R254) -/

/-- The barrier a handle names, as its table's index: an SC's own table for scope 0, the package's for 1 and 2. -/
def barIndex (h : Nat) : Nat := bitsNat h 20 10
def barScope (h : Nat) : Nat := bitsNat h 30 2

/-- A barrier entry by handle, as SC n sees it. -/
def State.barrier (s : State) (n h : Nat) : Barrier :=
  if barScope h = 0 then tgetD (s.sc n).bars (barIndex h) {}
  else tgetD s.pbars ((barScope h - 1) * 1024 + barIndex h) {}

/-- The state with a barrier entry changed. -/
def State.setBarrier (s : State) (n h : Nat) (b : Barrier) : State :=
  if barScope h = 0 then s.modSc n (fun t => { t with bars := tput t.bars (barIndex h) b })
  else { s with pbars := tput s.pbars ((barScope h - 1) * 1024 + barIndex h) b }

/-- Is the handle a live one (R250)?  A lost half's barriers are stale (R354). -/
def State.barOk (s : State) (n h : Nat) : Bool :=
  let b := s.barrier n h
  h < 2 ^ 32 && barScope h != 3 && (barScope h != 0 || barIndex h < 256) && b.used && b.gen == bitsNat h 0 20
    && !(barScope h != 0 && halfLost s.topo (barScope h - 1))

/-- One arrival (R252); EXP 0 is the caller's trap. -/
def Barrier.arrive (b : Barrier) (drop : Bool) : Barrier :=
  let drops := b.drops + (if drop then 1 else 0)
  if b.exp ≤ b.arr + 1 then
    { b with phase := (b.phase + 1) % 2 ^ 32, arr := 0, exp := b.exp - drops, drops := 0 }
  else { b with arr := b.arr + 1, drops := drops }

/-- The end of one membership (R253): an arrive-and-drop, or a drop where the task has arrived in this phase. -/
def State.endMember (s : State) (n : Nat) (m : Member) : State :=
  if m.dropped || !s.barOk n m.h then s
  else
    let b := s.barrier n m.h
    if b.exp = 0 then s
    else if m.phase = b.phase then s.setBarrier n m.h { b with drops := b.drops + 1 }
    else s.setBarrier n m.h (b.arrive true)

/-- Every membership of a context ends (R253). -/
def State.endMembers (s : State) (n : Nat) (ms : List Member) : State := ms.foldl (fun t m => t.endMember n m) s

end Sys2Proof.Machine
end

