-- ==== Sys2Proof/Machine/Agent.lean ====
section
/-!
DEFINITION. Accesses of stream agents, copy engines and hub agents: translated for the life of a job (R276, R281), and
combined at the accumulate-on-write unit (R212, R225).
-/

namespace Sys2Proof.Machine

/-- The stack that XLATE and REMLOST of an SC's accesses are counted at (R286). -/
def homeStack (n : Nat) : Nat := if halfOf n = 0 then 0 else 4

/-- What an agent's access of one byte meets. -/
inductive Place where
  | here (a : Nat)
  | far (pa : Nat)
  | lost
  | none
  deriving DecidableEq, Repr, Inhabited

/-- A VA's translation through the leaf of a block of a read-duplicate page that a mapping change is taking away, as the leaf was
(R343). -/
def State.leavingXlat (s : State) (root : Option Word) (va : Nat) : Option Xlat :=
  if !canonical va || (s.rngFor va).isSome then none
  else s.dup.findSome? (fun p =>
    match p.2.begun with
    | none => none
    | some (b, old) =>
      let lo := s.drecFrame p.1 + 65536 * b
      match (s.writeNat (s.drecTbl p.1 + 8 * b) 8 old).walkPage root va with
      | none => none
      | some x =>
        let y := { x with pa := x.pa + va % pageBytes x.size }
        if pkgOf y.pa = s.pkgid ∧ lo ≤ localOf y.pa ∧ localOf y.pa < lo + 65536 then some y else none)

/-- The translation an agent's access uses: the one that a mapping change is taking away while a pin keeps it (R281, R343),
else the one that stands. -/
def State.agentXlat (s : State) (n : Nat) (root : Option Word) (va : Nat) : Option Xlat :=
  match s.leavingXlat root va with
  | some x => some x
  | none => s.translate n root va

/-- Where a byte is for an agent of SC n under a root, for a read or a write (R276, R281). -/
def State.place (s : State) (n : Nat) (root : Option Word) (write : Bool) (va : Nat) : Place :=
  match s.agentXlat n root va with
  | .none => .none
  | .some x =>
    if (if write then !x.w || x.dup else !x.r) then .none
    else if s.far x then (if s.isDead (pkgOf x.pa) then .lost else .far x.pa)
    else .here (localOf x.pa)

/-- Groups of consecutive addresses. -/
def runsOf : List (Nat × Byte) → List (Nat × List Byte)
  | [] => []
  | (a, b) :: t =>
    match runsOf t with
    | (k, bs) :: r => if k = a + 1 then (a, b :: bs) :: r else (a, [b]) :: (k, bs) :: r
    | [] => [(a, [b])]

/-- Sectors of local addresses, adjacent repeats once. -/
def sectorRuns : List Nat → List Nat
  | [] => []
  | a :: t => match sectorRuns t with
    | k :: r => if k = a / 32 then k :: r else a / 32 :: k :: r
    | [] => [a / 32]

/-- The XLATE and REMLOST counts of an access of several bytes, one each (R276, R281). -/
def State.countMiss (s : State) (n : Nat) (ps : List Place) : State :=
  let s := if ps.contains .none then s.count (homeStack n) ctrXlate 1 else s
  if ps.contains .lost then s.count (homeStack n) ctrRemlost 1 else s

/-- The local addresses of an access's bytes. -/
def localsOf (ps : List Place) : List Nat := ps.filterMap (fun p => match p with | .here a => some a | _ => Option.none)

/-- The addresses of an access's bytes on other packages. -/
def farsOf (ps : List Place) : List Nat := ps.filterMap (fun p => match p with | .far a => some a | _ => Option.none)

/-- One byte of an agent's read: one on another package has come before, or the step in progress lacks it; a byte that is reached
nowhere is zero (R276, R281), and so is one of register space, of which an agent's accesses are no aligned dwords (R309, R317). -/
def State.placeByte (s : State) : Place → Byte
  | .here a => if inRegs a then 0 else s.byte a
  | .far a => tgetD s.fab.farGot a 0
  | _ => 0

/-- What the translations of an agent's access leave in the TLBs (R280), once for each 64 KiB. -/
def State.touchAll (s : State) (n : Nat) (sc : Bool) (root : Option Word) (vas : List Nat) : State :=
  ((vas.map (fun a => a / 65536)).dedup).foldl (fun t k => t.touch n sc root (65536 * k)) s

/-- How an agent reaches memory: the SC it works for, its port (R282), the root its job translates under (R271), and whether it is the
DCE, whose translations its SC's TLB does not serve (R288). -/
structure Via where
  sc : Nat := 0
  port : Nat := 0
  root : Option Word := none
  dce : Bool := false
  deriving DecidableEq, Repr, Inhabited

/-- The requests that a port sent earlier to the sectors of local bytes perform before those it sends now (R284). -/
def State.askAll (s : State) (port : Nat) (as : List Nat) : State :=
  (sectorRuns as).foldl (fun t k => if inRegs (32 * k) then t else t.performEarlier port (32 * k) 32) s

/-- An agent's read of virtual bytes (`none`: a byte that is not inside a window reads zero): the bytes and the state
after it. -/
def State.agentRead (s : State) (v : Via) (vas : List (Option Nat)) : List Byte × State :=
  let ps := vas.map (fun a => a.map (s.place v.sc v.root false))
  let qs := ps.filterMap id
  let s := s.askAll v.port (localsOf qs)
  let bs := ps.map (fun p => match p with | some q => s.placeByte q | none => 0)
  let t := s.touchAll v.sc (!v.dce) v.root (vas.filterMap id)
  let t := ((sectorRuns (localsOf qs)).foldl (fun t k => if inRegs (32 * k) then t else t.readEffect (32 * k) 32) t).countMiss v.sc qs
  let lack := (farsOf qs).filter (fun a => !thas s.fab.farGot a)
  (bs, { t with fab := { t.fab with farMiss := t.fab.farMiss ++ lack } })

/-- An access of another package added to those of the step in progress (R276). -/
def State.addFar (s : State) (o : FarOp) : State := { s with fab := { s.fab with farOps := s.fab.farOps ++ [o] } }

/-- An agent's write of virtual bytes; the bytes that are reached nowhere are discarded. -/
def State.agentWrite (s : State) (v : Via) (vs : List (Nat × Byte)) : State :=
  let ps := vs.map (fun x => (s.place v.sc v.root true x.1, x.2))
  let here := ps.filterMap (fun p => match p.1 with | .here a => if inRegs a then none else some (a, p.2) | _ => none)
  let far := ps.filterMap (fun p => match p.1 with | .far a => some (a, p.2) | _ => none)
  let t := (s.askAll v.port (here.map Prod.fst)).touchAll v.sc (!v.dce) v.root (vs.map Prod.fst)
  let t := ((runsOf here).foldl (fun t r => t.write r.1 r.2) t).countMiss v.sc (ps.map Prod.fst)
  (runsOf far).foldl (fun t r => t.addFar { pa := r.1, data := r.2 }) t

/-- One element combined at the home of a virtual address, and its old value (R225, R281); the old value of one on another package,
which no frame brings back, is a free value (DESIGN CHOICE, log 82). -/
def State.agentAcc (s : State) (v : Via) (va op fmt src : Nat) : Nat × State :=
  let t := s.touchAll v.sc (!v.dce) v.root [va]
  match s.place v.sc v.root true va with
  | .here a =>
    if inRegs a then (0, t)
    else
      let t := t.performEarlier v.port a (accBytes fmt)
      (t.readNat a (accBytes fmt), t.accumulate a op fmt src)
  | .far pa => (s.freeVal, (t.useFree 1).addFar { pa := pa, acc := some (op, fmt), data := natBytes (accBytes fmt) src })
  | .lost => (0, t.count (homeStack v.sc) ctrRemlost 1)
  | .none => (0, t.count (homeStack v.sc) ctrXlate 1)

/-- A completion flag incremented by 1, through the port of an SC's copy engines (R212, R282). -/
def State.incFlag (s : State) (n : Nat) (root : Option Word) (va : Nat) : State :=
  (s.agentAcc { sc := n, port := copyPort n, root := root } va 0 16 1).2

end Sys2Proof.Machine
end

