-- ==== Sys2Proof/Machine/Task.lean ====
section
/-!
DEFINITION. The life of futures, tasks, graphs and launches (R236-R249, R253, R257-R262, R327-R330, R335, R336): creation,
drops, ends and reclamation.
-/

namespace Sys2Proof.Machine

/-! ## Handles and creation (R236, R241) -/

/-- Does a handle name the table of a lost half (R354)? -/
def State.futLost (s : State) (h : Nat) : Bool := halfLost s.topo (bitsNat h 31 1)

/-- Does a handle name a live entry (R236)? -/
def State.futLive (s : State) (h : Nat) : Bool :=
  decide (h < 2 ^ 32) && (s.fut (futKey h)).gen == bitsNat h 0 14 && (s.fut (futKey h)).st != .free

/-- The handle of the entry at a key as it stands. -/
def State.handleOf (s : State) (k : Nat) : Nat := futHandle k (s.fut k).gen

/-- Is the entry at an index of a hub's future table FREE? -/
def State.futFree (s : State) (hub i : Nat) : Bool := decide (i < 131072) && (s.fut (hub * 131072 + i)).st == .free

/-- A FREE entry of a hub's future table: which one is not specified (R241, log 31). -/
def State.freeFutIn (s : State) (hub : Nat) : Option Nat :=
  if halfLost s.topo hub then none
  else ((List.range (s.futs.length + 1)).find? (s.futFree hub)).map (fun i => hub * 131072 + s.anyFree 131072 (s.futFree hub) i)

/-- A FREE entry of a hub's table, or of the other's (R241, R327). -/
def State.allocFut (s : State) (hub : Nat) : Option Nat :=
  match s.freeFutIn hub with
  | some k => some k
  | none => s.freeFutIn (1 - hub)

/-- A future made at a FREE entry: READY with COUNT 1 and HELD set (R245), stamped with the next sequence number (R238, R329).  The free value
that chose the entry is used up. -/
def State.newFut (s : State) (k : Nat) (f : Fut) : State :=
  { s.modFut k (fun x => { f with st := .ready, gen := x.gen, count := 1, held := true, seq := s.seq }) with seq := s.seq + 1, free := s.free + 1 }

/-! ## Slices (R330) -/

/-- The launch of a future. -/
def State.launchOf (s : State) (f : Fut) : Launch := ((f.launch.bind (tget s.launches ·))).getD {}

/-- Deadline and budget of a slice of a future made ready at T; a budget of 0 is unlimited (R330). -/
def State.sliceFor (s : State) (k t : Nat) : Slice :=
  let f := s.fut k
  let l := s.launchOf f
  { fut := k
    deadline := if f.launch.isSome && l.deadline != 0 then t + l.deadline else t + s.windowOf f.rcb
    budget := if f.unlimited then 0 else if f.launch.isSome && l.slice != 0 then l.slice else s.sliceOf f.rcb }

/-- The future's next slice made ready now. -/
def State.makeReady (s : State) (k : Nat) : State := { s with slices := s.slices ++ [s.sliceFor k s.tb] }

/-- A task spawned: its future at a FREE entry and its first slice (R241, R330). -/
def State.spawnAt (s : State) (k : Nat) (f : Fut) : State := (s.newFut k f).makeReady k

/-! ## Holding and dropping (R237, R238, R243, R247) -/

/-- A child linked at the head of its holder's list. -/
def State.linkKid (s : State) (h : Nat) : Holder → State
  | .nobody => s
  | .task p => s.modFut (futKey p) (fun x => { x with kids := h :: x.kids })
  | .ctx n c => s.modCtx n c (fun x => { x with kids := h :: x.kids })

/-- A child no longer on its holder's list. -/
def State.unlinkKid (s : State) (h : Nat) : Holder → State
  | .nobody => s
  | .task p =>
    if s.futLive p then s.modFut (futKey p) (fun x => { x with kids := x.kids.filter (· != h) }) else s
  | .ctx n c => s.modCtx n c (fun x => { x with kids := x.kids.filter (· != h) })

/-- HELD cleared. -/
def State.unhold (s : State) (k : Nat) : State :=
  let f := s.fut k
  (s.unlinkKid (futHandle k f.gen) f.parent).modFut k (fun x => { x with held := false, parent := .nobody })

/-- An entry becomes FREE: its generation rises (R236), and a graph leaves the walker (R257). -/
def State.freeFut (s : State) (k : Nat) : State :=
  let t := s.unhold k
  { t.modFut k (fun x => { gen := (x.gen + 1) % 16384 }) with
      graphs := if (s.fut k).graph then t.graphs.filter (fun p => p.2.fut != k) else t.graphs }

/-- COUNT lowered by 1 (R243): a terminal entry at 0 is freed, a READY task too, and a RUNNING entry is RECLAIMED until
its reclamation point (R247). -/
def State.dropCount (s : State) (k : Nat) : State :=
  let f := s.fut k
  let t := s.modFut k (fun x => { x with count := x.count - 1 })
  if f.count ≠ 1 then t
  else if f.st = .done ∨ f.st = .faulted then t.freeFut k
  else if f.st = .ready then { t.freeFut k with slices := t.slices.filter (fun x => x.fut != k) }
  else if f.st = .running then t.modFut k (fun x => { x with st := .reclaimed })
  else t

/-- Each child still held is dropped once (R246, R247). -/
def State.dropKids (s : State) (kids : List Nat) : State :=
  kids.foldl (fun t h =>
    if t.futLive h && (t.fut (futKey h)).held then (t.unhold (futKey h)).dropCount (futKey h) else t) s

/-! ## Completion of a launch (R335, R336) -/

/-- The completion block written, record first and flag word last (R335). -/
def State.writeBlock (s : State) (flag : Nat) (value status done lost faulted firstLost firstFault : Nat) : State :=
  if flag = 0 then s
  else
    let t := s.write (flag + 8) (natBytes 8 (done * 2 ^ 32 + status) ++ natBytes 8 (firstLost * 2 ^ 32 + lost)
      ++ natBytes 8 (firstFault * 2 ^ 32 + faulted))
    t.write flag (natBytes 8 value)

/-- No TIX. -/
def noTix : Nat := 0xFFFFFFFF

/-- STATUS of a completed launch (R336). -/
def launchStatus (lost faulted : Nat) : Nat := if lost ≠ 0 then 2 else if faulted ≠ 0 then 3 else 0

/-- The effects in motion that an owner of an SC leaves behind, once its WAITING entries have been cancelled (R248). -/
def State.motionOf (s : State) (n : Nat) (o : Owner) : Motion :=
  { sc := n, ids := entryIds (ownEntries (s.sc n) o),
    pkts := (s.pkts.filter (fun p => p.2.port == n && p.2.owner == o && !p.2.done)).map Prod.fst }

/-- Have effects in motion all been made: entries completed and accesses performed? -/
def State.settledMotion (s : State) (n : Nat) (ids pkts : List Nat) : Bool :=
  ids.all (fun i => !notComplete (s.sc n) i) && pkts.all (fun i => match tget s.pkts i with | some p => p.done | none => true)
def State.motionOver (s : State) (m : Motion) : Bool := s.settledMotion m.sc m.ids m.pkts

/-- The launch and the graph of a task wait for what it leaves in motion (R259, R335). -/
def State.leaveMotion (s : State) (n : Nat) (o : Owner) (f : Fut) : State :=
  let m := s.motionOf n o
  if s.motionOver m then s
  else
    { s with launches := match f.launch with
               | some l => tmod s.launches l (fun x => { x with motion := x.motion ++ [m] })
               | none => s.launches
             graphs := match f.node with
               | some p => tmod s.graphs p.1 (fun x => { x with motion := x.motion ++ [m] })
               | none => s.graphs }

/-- A TASK launch completes once all of its tasks have ended and their effects have been made (R335). -/
def State.tryLaunch (s : State) (l : Nat) : State :=
  match tget s.launches l with
  | none => s
  | some x =>
    if x.graph || x.ended < x.count || !x.motion.all s.motionOver then s
    else
      let t := s.writeBlock x.flag x.value (launchStatus x.lost x.faulted) x.done x.lost x.faulted
        (x.firstLost.getD noTix) (x.firstFault.getD noTix)
      { t.modQueue x.queue (fun q => { q with infl := q.infl - 1 }) with launches := tdel t.launches l }

/-- Launches whose last effects in motion have been made complete (R335). -/
def State.tryLaunches (s : State) : State := s.launches.foldl (fun t p => if p.2.motion.isEmpty then t else t.tryLaunch p.1) s

/-- A GRAPH launch whose graph future is DONE completes with the graph's RESULT (R335), and drops its reference. -/
def State.graphLaunchDone (s : State) (l k result : Nat) : State :=
  match tget s.launches l with
  | none => s
  | some x =>
    let t := s.writeBlock x.flag x.value (launchStatus 0 result) 1 0 result noTix noTix
    ({ t.modQueue x.queue (fun q => { q with infl := q.infl - 1 }) with launches := tdel t.launches l }).dropCount k

/-- How a task ended, for its launch (R335): DONE, FAULTED, LOST, or reclaimed, which is neither. -/
inductive Ended where
  | done
  | faulted
  | lost
  | reclaimed
  deriving DecidableEq, Repr, Inhabited

/-- The lower of a TIX and what was first. -/
def minTix (a : Option Nat) (x : Nat) : Option Nat := some (min x (a.getD x))

/-- One task counted in its launch. -/
def Launch.tally (l : Launch) (how : Ended) (tix : Nat) : Launch :=
  let l := { l with ended := l.ended + 1 }
  match how with
  | .done => { l with done := l.done + 1 }
  | .faulted => { l with faulted := l.faulted + 1, firstFault := minTix l.firstFault tix }
  | .lost => { l with lost := l.lost + 1, firstLost := minTix l.firstLost tix }
  | .reclaimed => l

/-- A task of a launch has ended. -/
def State.launchEnd (s : State) (f : Fut) (how : Ended) : State :=
  match f.launch with
  | none => s
  | some l => ({ s with launches := tmod s.launches l (fun x => x.tally how f.tix) }).tryLaunch l

/-! ## Graphs (R258-R262) -/

/-- Kinds of edge (R259). -/
inductive EdgeKind where
  | normal
  | skip
  | poison
  deriving DecidableEq, Repr, Inhabited

/-- A node receives an edge in a wall cycle. -/
def Node.receive (x : Node) (now : Nat) (k : EdgeKind) : Node :=
  { x with ctr := x.ctr - 1, zeroAt := if x.ctr = 1 then now else x.zeroAt, poisoned := x.poisoned || k == .poison, normal := x.normal || k == .normal }

/-- The state with a node of a graph changed. -/
def State.modNode (s : State) (g i : Nat) (f : Node → Node) : State :=
  { s with graphs := tmod s.graphs g (fun x => { x with nodes := x.nodes.modify i f }) }

/-- Edges sent to nodes. -/
def State.sendEdges (s : State) (g : Nat) (ns : List Nat) (k : EdgeKind) : State :=
  ns.foldl (fun t i => t.modNode g i (fun x => x.receive s.cycle k)) s

/-- A node of a graph. -/
def State.node (s : State) (g i : Nat) : Node := (tgetD s.graphs g {}).nodes.getD i {}

/-- The entries of set 0 not yet signalled. -/
def Node.unsent (x : Node) : List Nat :=
  (x.e0.zipIdx).filterMap (fun p => if x.sent.contains p.2 then none else some p.1)

/-- The body of a WHILE node: its first node, P1[15:0], and its number of nodes, P1[15:0] + P1[31:16] (R260, log 72). -/
def Node.body (x : Node) : Nat × Nat := (bitsNat x.p1 0 16, bitsNat x.p1 0 16 + bitsNat x.p1 16 16)

/-- Is a node in the body of a WHILE? -/
def Node.inBody (w : Node) (i : Nat) : Bool := w.kind == 4 && w.body.1 ≤ i && i < w.body.1 + w.body.2

/-- Has every node ended?  Body nodes that no edge will reach once their WHILE has ended count as ended. -/
def Graph.over (g : Graph) : Bool :=
  g.nodes.zipIdx.all (fun p =>
    decide (p.1.st = .ended)
      || (decide (p.1.st = .idle) && p.1.ctr != 0 && g.nodes.any (fun w => decide (w.st = .ended) && w.inBody p.2)))

/-- The flag of a graph that is DONE is incremented, and its launch completes (R257, R259, R335). -/
def State.payGraph (s : State) (o : Owed) : State :=
  let t := if o.flag = 0 then s else s.incFlag o.sc (s.sc o.sc).root o.flag
  match o.launch with
  | some l => t.graphLaunchDone l o.fut o.result
  | none => t

/-- What is owed of graphs is paid, once every effect of their nodes has been made (R259, R335). -/
def State.payOwed (s : State) : State :=
  s.owed.foldl (fun t o => if (o.motion.all s.motionOver) then t.payGraph o else t)
    { s with owed := s.owed.filter (fun o => !(o.motion.all s.motionOver)) }

/-- A graph all of whose nodes have ended is DONE (R257); its flag and its launch follow its nodes' effects (R259). -/
def State.finishGraph (s : State) (g : Nat) : State :=
  match tget s.graphs g with
  | none => s
  | some x =>
    if x.over && decide ((s.fut x.fut).st = .running) then
      let t := s.modFut x.fut (fun f => { f with st := .done, result := BitVec.ofNat 64 x.faulted, status := 0 })
      let o : Owed := { motion := x.motion, flag := x.flag, sc := x.sc, launch := x.launch, fut := x.fut, result := x.faulted }
      if (o.motion.all s.motionOver) then t.payGraph o else { t with owed := t.owed ++ [o] }
    else s

/-- A node ends, with a STATUS where it is FAULTED, sending edges on what is left of set 0 and on set 1 (R259). -/
def State.endNode (s : State) (g i : Nat) (k0 : EdgeKind) (k1 : Option EdgeKind) (fault : Option Nat) : State :=
  let x := s.node g i
  let t := s.modNode g i (fun x => { x with st := .ended, fut := none, jobs := [], status := fault.getD 0 })
  let t := { t with graphs := tmod t.graphs g (fun x => { x with faulted := x.faulted + (if fault.isSome then 1 else 0) }) }
  let t := t.sendEdges g x.unsent k0
  let t := match k1 with
    | some k => t.sendEdges g x.e1 k
    | none => t
  t.finishGraph g

/-- The node a task runs ends with it: normal edges after DONE, otherwise poisoned (R259, R262). -/
def State.nodeEnd (s : State) (f : Fut) (fault : Option Nat) : State :=
  match f.node with
  | none => s
  | some (g, i) =>
    if thas s.graphs g then s.endNode g i (if fault.isNone then .normal else .poison) none fault else s

/-! ## Early signals (R248, R261) -/

/-- The entries of set 0 of the TASK node in context c that an FSIG n still has to signal (R261). -/
def State.toSignal (s : State) (k n : Nat) : Option (Nat × Nat × List Nat) :=
  match (s.fut k).node with
  | none => none
  | some (g, i) =>
    let x := s.node g i
    let open' := (List.range x.e0.length).filter (fun j => !x.sent.contains j && (n == 16383 || j == n))
    if open'.isEmpty then none else some (g, i, open')

/-- Edges of entries sent early, as normal ones. -/
def State.signal (s : State) (g i : Nat) (es : List Nat) : State :=
  let x := s.node g i
  let t := s.modNode g i (fun x => { x with sent := x.sent ++ es })
  t.sendEdges g (es.filterMap (fun j => x.e0[j]?)) .normal

/-- A reclaimed task's FSIG that waits goes on by itself: its entries count as signalled (R248). -/
def State.keepSignal (s : State) (k n c : Nat) (x : Ctx) : State :=
  match x.wait with
  | some (.early ids m) => match s.toSignal k m with
    | none => s
    | some (g, i, es) =>
      let ps := (s.motionOf n (s.ownerOf n c)).pkts
      let t := s.modNode g i (fun y => { y with sent := y.sent ++ es })
      { t with late := t.late ++ [{ sc := n, ids := ids, pkts := ps, graph := g, node := i, es := es }] }
  | _ => s

/-- The signal under way of a reclaimed task, once everything it waits for is done. -/
def State.lateReady (s : State) (l : Late) : Bool :=
  s.settledMotion l.sc l.ids l.pkts

/-- Late signals that are ready are delivered. -/
def State.deliverLate (s : State) : State :=
  s.late.foldl (fun t l =>
    if s.lateReady l then
      t.sendEdges l.graph (l.es.filterMap (fun j => (t.node l.graph l.node).e0[j]?)) .normal
    else t) { s with late := s.late.filter (fun l => !s.lateReady l) }

/-! ## Leaving a context -/

/-- Replies owed to an owner are discarded. -/
def State.dropReplies (s : State) (n : Nat) (o : Owner) : State :=
  { s with pkts := s.pkts.map (fun p =>
      (p.1, match p.2.who with
            | .reg m o' _ _ _ => if m = n ∧ o' = o then { p.2 with who := .none } else p.2
            | _ => p.2)) }

/-- The owner of what the ended activity of an owner leaves behind: nobody, but for a task, whose future stands for it. -/
def Owner.gone (o x : Owner) : Owner := if x = o then .ctx 31 else x

/-- What a context's activity leaves behind on its SC belongs to nobody: the entries and runs that go on and the accesses still
to perform; the return queues of runs that have ended are discarded (R26). -/
def State.orphan (s : State) (n c : Nat) : State :=
  let o := Owner.ctx c
  { s.modSc n (fun t =>
      { t with entries := t.entries.map (fun e => { e with owner := o.gone e.owner }),
               runs := (t.runs.filter (fun p => !(p.2.owner == o && p.2.phase == .retired))).map (fun p =>
                 (p.1, { p.2 with owner := o.gone p.2.owner })) }) with
    pkts := s.pkts.map (fun p => (p.1, if p.2.port = n then { p.2 with owner := o.gone p.2.owner } else p.2)) }

/-- A context leaves every queue of its SC and becomes FREE. -/
def State.vacate (s : State) (n c : Nat) : State :=
  ((s.modCtx n c freeCtx).modSc n (fun t =>
    { t with trapQ := t.trapQ.filter (· != c), tagQ := t.tagQ.filter (fun e => e.1 != c) })).disown n c

/-- The end of a message or system context's activity: R246 steps 3-5, without the wait (R206). -/
def State.endActivity (s : State) (n c : Nat) : State :=
  let x := s.ctx n c
  let o := Owner.ctx c
  let t := (s.cancelWaiting n o).endMembers n x.members
  let t := (t.dropKids x.kids).releaseStreams n o
  ((t.dropReplies n o).orphan n c).vacate n c

/-! ## Charges of a task (R325, R330) -/

/-- A task gives up its context: the charge of it returns. -/
def State.uncharge (s : State) (k : Nat) : State :=
  let f := s.fut k
  if f.charged then
    let t := (s.refundCtx f.rcb).modFut k (fun x => { x with charged := false })
    match f.launch with
    | some l => { t with launches := tmod t.launches l (fun x => { x with running := x.running - 1 }) }
    | none => t
  else s

/-- A task's reservation and context return to the pools. -/
def State.refundTask (s : State) (k : Nat) : State :=
  let f := s.fut k
  ((s.refundSrf f.rcb f.psrf).modFut k (fun x => { x with psrf := 0 })).uncharge k

/-- A wait that has ended stays ended: a waiter that a comparison has released (R256). -/
def Wait.outlasts : Wait → Option Wait
  | .flag pa thr true => some (.flag pa thr true)
  | _ => none

/-- A task descheduled: it leaves its context for the sleepers, to restart the instruction at its pc (R166, R330). -/
def State.deschedule (s : State) (n c : Nat) : State :=
  let x := s.ctx n c
  let k := futKey x.fut.toNat
  let t := s.uncharge k
  { t.vacate n c with sleepers := tput t.sleepers k { sc := n, ctx := { x with st := .ready, wait := x.wait.bind Wait.outlasts, pause := 0 } } }

/-! ## Runs of an owner -/

/-- The runs of an owner stop at their next boundary (R33). -/
def State.stopRuns (s : State) (n : Nat) (o : Owner) : State :=
  s.modSc n (fun t => { t with runs := t.runs.map (fun p =>
    (p.1, if p.2.owner = o ∧ (p.2.phase = .running ∨ p.2.phase = .saved) then { p.2 with stop := true } else p.2)) })

/-- Return queues of an owner's ended runs are discarded (R26). -/
def State.dropQueues (s : State) (n : Nat) (o : Owner) : State :=
  s.modSc n (fun t => { t with runs := t.runs.filter (fun p => !(p.2.owner == o && p.2.phase == .retired)) })

/-! ## The end of a task (R246) -/

/-- Steps 2-5 of R246 for the task of future k with context x on SC n, but for its context becoming FREE; WAITING entries
are cancelled (R206). -/
def State.endTask (s : State) (k n : Nat) (x : Ctx) (st : FutSt) (status : Nat) (result : Word) (how : Ended) : State :=
  let f := s.fut k
  let o := Owner.task (s.handleOf k)
  let t := s.modFut k (fun y => { y with st := st, status := status, result := result })
  let t := (t.cancelWaiting n o).leaveMotion n o f
  let t := t.nodeEnd f (if st = .done then none else some status)
  let t := t.endMembers n x.members
  let t := (t.dropKids f.kids).releaseStreams n o
  let t := ((t.dropQueues n o).dropReplies n o).refundTask k
  let t := if f.launch.isSome || f.node.isSome || f.unlimited then (t.unhold k).dropCount k else t
  t.launchEnd f how

/-- The task in context c of SC n ends. -/
def State.endTaskAt (s : State) (n c : Nat) (st : FutSt) (status : Nat) (result : Word) (how : Ended) : State :=
  let x := s.ctx n c
  (s.endTask (futKey x.fut.toNat) n x st status result how).vacate n c

/-! ## Reclamation (R247) -/

/-- The steps of R247 for the task of future k, with its context x on SC n.  DESIGN CHOICE (log 93): the node of such a task ends
FAULTED with STATUS 0, since no rule gives a code. -/
def State.reclaimTask (s : State) (k n : Nat) (x : Ctx) : State :=
  let f := s.fut k
  let o := Owner.task (s.handleOf k)
  let t := ((s.cancelWaiting n o).stopRuns n o).leaveMotion n o f
  let t := (t.dropQueues n o).releaseStreams n o
  let t := t.endMembers n x.members
  let t := t.nodeEnd f (some 0)
  let t := t.dropKids f.kids
  let t := ((t.dropReplies n o).refundTask k).freeFut k
  ({ t with sleepers := tdel t.sleepers k, slices := t.slices.filter (fun z => z.fut != k) }).launchEnd f .reclaimed

/-- The reference that a graph holds to the task of one of its nodes dropped, once: the task belongs to no node any more, so its end
drops nothing (R247). -/
def State.dropNode (s : State) (j : Nat) : State := ((s.modFut j (fun f => { f with node := none })).unhold j).dropCount j

/-- A graph reclaimed: its node tasks are dropped once, and it leaves the walker. -/
def State.reclaimGraph (s : State) (k : Nat) : State :=
  match s.graphs.find? (fun p => p.2.fut == k) with
  | none => s.freeFut k
  | some (_, g) =>
    (g.nodes.foldl (fun t x => match x.fut with | some j => t.dropNode j | none => t) s).freeFut k

/-- Where a task is: in a context, or descheduled on an SC. -/
inductive Where where
  | nowhere
  | inCtx (n c : Nat)
  | asleep (n : Nat)
  deriving DecidableEq, Repr, Inhabited

/-- Where the task of a future is. -/
def State.locate (s : State) (k : Nat) : Where :=
  match s.whereIs k with
  | some (n, c) => .inCtx n c
  | none => match tget s.sleepers k with
    | some x => .asleep x.sc
    | none => .nowhere

/-- Reclamation of a task in a context, which becomes FREE. -/
def State.reclaimAt (s : State) (n c : Nat) : State :=
  let x := s.ctx n c
  let k := futKey x.fut.toNat
  ((s.keepSignal k n c x).reclaimTask k n x).vacate n c

/-- Is future k RECLAIMED? -/
def State.isReclaimed (s : State) (k : Nat) : Bool := decide ((s.fut k).st = .reclaimed)

/-- Is the task in context c RECLAIMED? -/
def State.ctxReclaimed (s : State) (n c : Nat) : Bool :=
  decide (c < 16) && decide ((s.ctx n c).st ≠ .free) && s.isReclaimed (futKey (s.ctx n c).fut.toNat)

/-- Is the reclamation of future k due without waiting for an instruction boundary (R247): a graph, a descheduled task,
one BLOCKED, or one TRAPPED and still in the trap queue? -/
def State.reclaimDue (s : State) (k : Nat) : Bool :=
  s.isReclaimed k && ((s.fut k).graph || match s.locate k with
    | .inCtx n c =>
      let x := s.ctx n c
      decide (x.st = .blocked) || (decide (x.st = .trapped) && (s.sc n).trapQ.contains c)
    | _ => true)

/-- The reclamation of future k. -/
def State.reclaimNow (s : State) (k : Nat) : State :=
  if (s.fut k).graph then s.reclaimGraph k
  else match s.locate k with
    | .asleep n => s.reclaimTask k n ((tgetD s.sleepers k {}).ctx)
    | .inCtx n c => s.reclaimAt n c
    | .nowhere => s.reclaimTask k 0 {}

/-- Every reclamation that is due at once, and those it causes in turn. -/
def State.reclaimAll : Nat → State → State
  | 0, s => s
  | fuel + 1, s =>
    match s.futs.find? (fun p => s.reclaimDue p.1) with
    | none => s
    | some p => State.reclaimAll fuel (s.reclaimNow p.1)

/-! ## Waits of an ending (R246 step 1, R261, R202) -/

/-- The entries an owner has in an SC that have not completed. -/
def State.ownIds (s : State) (n : Nat) (o : Owner) : List Nat := entryIds (ownEntries (s.sc n) o)

/-- Have entries completed and the context's accesses performed? -/
def State.settledFor (s : State) (n c : Nat) (ids : List Nat) : Bool :=
  s.performed n c && ids.all (fun i => !notComplete (s.sc n) i)

end Sys2Proof.Machine
end

