-- ==== Sys2Proof/Machine/Stc.lean ====
section
/-!
DEFINITION. The stream controller's issue of stream instructions: tensor records and their windows (R180-R186), the checks
and pins of R187 and R211, and the scoreboard entry with its edges (R168-R173).
-/

namespace Sys2Proof.Machine

/-! ## Formats (R181) -/

/-- Element bytes of a format, or none for an invalid code; a bx4 element is a nibble. -/
def fmtEb : Nat → Option Nat
  | 1 => some 4 | 2 => some 2 | 3 => some 1 | 4 => some 0 | 5 => some 1 | 6 => some 2 | 7 => some 32 | 8 => some 64
  | 9 => some 16 | 10 => some 4 | 11 => some 4 | 12 => some 1 | 13 => some 2 | 14 => some 4 | 15 => some 8
  | 16 => some 8 | 17 => some 4 | 18 => some 12 | 19 => some 16
  | _ => none

/-- The alignment of a format. -/
def fmtAlign (f : Nat) : Nat := if f = 18 then 4 else max 1 ((fmtEb f).getD 1)

/-- Is the format bx8 or bx4? -/
def isBx (f : Nat) : Bool := f == 3 || f == 4

/-! ## Records (R180, R182, R183) -/

/-- The record its 192 bytes hold (R180). -/
def recOf (addr : Nat) (bs : List Byte) : Rec :=
  let six := fun (o w : Nat) => (List.range 6).map (fun d => fieldAt bs (o + w * d) w)
  { addr := addr, base := fieldAt bs 0 8, fmt := fieldAt bs 8 1, rank := fieldAt bs 9 1, flags := fieldAt bs 0x0A 2,
    eb := fieldAt bs 0x0C 4, dims := six 0x10 4, strides := (six 0x28 8).map (signedOf 8),
    start := (six 0x58 4).map (signedOf 4), count := six 0x70 4, seed := fieldAt bs 0x88 8, exp := fieldAt bs 0x90 8,
    flag := fieldAt bs 0x98 8 }

/-- FLAGV and ZPAD (R182). -/
def Rec.flagV (r : Rec) : Bool := bitNat r.flags 0
def Rec.zpad (r : Rec) : Bool := bitNat r.flags 1

/-- The fields of dimension d. -/
def Rec.dim (r : Rec) (d : Nat) : Nat := r.dims.getD d 0
def Rec.stride (r : Rec) (d : Nat) : Int := r.strides.getD d 0
def Rec.first (r : Rec) (d : Nat) : Int := r.start.getD d 0

/-- COUNT[d], read as 1 at and above RANK (R184). -/
def Rec.cnt (r : Rec) (d : Nat) : Nat := if d < r.rank then r.count.getD d 0 else 1

/-- Is the record valid, beside its own alignment (R183)? -/
def recOk (bs : List Byte) : Bool :=
  let r := recOf 0 bs
  fmtEb r.fmt == some r.eb && 1 ≤ r.rank && r.rank ≤ 6
    && (List.range 6).all (fun d =>
      if d < r.rank then r.dim d != 0
      else r.dim d == 0 && r.stride d == 0 && r.first d == 0 && r.count.getD d 0 == 0)
    && r.flags / 4 == 0 && fieldAt bs 0xA0 32 == 0
    && r.base % fmtAlign r.fmt == 0
    && (List.range 6).all (fun d => r.stride d % (fmtAlign r.fmt : Int) == 0)
    && (r.fmt != 3 || r.stride 0 == 1) && (r.fmt != 4 || r.stride 0 == 0)
    && (!isBx r.fmt || (r.dim 0 % 32 == 0 && r.first 0 % 32 == 0 && r.count.getD 0 0 % 32 == 0 && r.exp % 2 == 0))
    && (!r.flagV || r.flag % 8 == 0)

/-! ## Windows (R184, R185) -/

/-- Elements of the window. -/
def Rec.total (r : Rec) : Nat := ((List.range 6).map r.cnt).foldl (· * ·) 1

/-- Elements that one step of dimension d spans in the walk. -/
def Rec.span (r : Rec) (d : Nat) : Nat := ((List.range d).map r.cnt).foldl (· * ·) 1

/-- The coordinate x[d] of walk element n. -/
def Rec.x (r : Rec) (n d : Nat) : Int := r.first d + ((n / r.span d % r.cnt d : Nat) : Int)

/-- Is walk element n inside DIMS? -/
def Rec.inside (r : Rec) (n : Nat) : Bool :=
  (List.range r.rank).all (fun d => decide (0 ≤ r.x n d) && decide (r.x n d < (r.dim d : Int)))

/-- The byte address of walk element n, modulo 2^64; the nibble rule for bx4. -/
def Rec.elemAddr (r : Rec) (n : Nat) : Nat :=
  let a := (List.range r.rank).foldl (fun (a : Int) d => a + r.x n d * r.stride d) (r.base : Int)
  ((a + (if r.fmt = 4 then Int.fdiv (r.x n 0) 2 else 0)) % 2 ^ 64).toNat

/-- The linear index of walk element n, a signed sum (R90, R184). -/
def Rec.lin (r : Rec) (n : Nat) : Int :=
  ((List.range r.rank).foldl (fun (a : Int × Int) d => (a.1 + r.x n d * a.2, a.2 * (r.dim d : Int))) (0, 1)).1

/-- Bytes the window has in a stream. -/
def Rec.size (r : Rec) : Nat := if r.fmt = 4 then r.total / 2 else r.total * r.eb

/-- The walk element that holds stream byte k. -/
def Rec.elemOf (r : Rec) (k : Nat) : Nat := if r.fmt = 4 then 2 * k else k / r.eb

/-- The memory address of stream byte k, or none for a virtual zero. -/
def Rec.byteAddr (r : Rec) (k : Nat) : Option Nat :=
  let n := r.elemOf k
  if r.inside n then some (if r.fmt = 4 then r.elemAddr n else (r.elemAddr n + k % r.eb) % 2 ^ 64) else none

/-- Blocks of 32 walk elements of a BX window. -/
def Rec.blocks (r : Rec) : Nat := r.total / 32

/-- The memory address of byte k of the exponent pairs of the window, two bytes a block (R184, R216). -/
def Rec.expAddr (r : Rec) (k : Nat) : Option Nat :=
  let n := 32 * (k / 2)
  if r.inside n then some ((r.exp + 2 * (r.lin n / 32).toNat + k % 2) % 2 ^ 64) else none

/-- The least address and one past the greatest of a list. -/
def hullOf : List Nat → Option (Nat × Nat)
  | [] => none
  | a :: t => match hullOf t with
    | none => some (a, a + 1)
    | some (lo, hi) => some (min a lo, max (a + 1) hi)

/-- The hull of a window, and of its exponent pairs (R185); none when nothing is inside. -/
def Rec.hull (r : Rec) : Option (Nat × Nat) := hullOf ((List.range r.size).filterMap r.byteAddr)
def Rec.expHull (r : Rec) : Option (Nat × Nat) := hullOf ((List.range (2 * r.blocks)).filterMap r.expAddr)

/-- Does the window leave DIMS without ZPAD (R187)?  An empty window does not. -/
def Rec.outside (r : Rec) : Bool :=
  !r.zpad && r.total != 0
    && (List.range r.rank).any (fun d => decide (r.first d < 0) || decide ((r.dim d : Int) < r.first d + (r.cnt d : Int)))

/-! ## The record cache (R186) -/

/-- The 192 bytes of a record at issue: from the cache, or read as twelve parts.  DESIGN CHOICE (log 77): of what R186 allows after
an unfenced change the model takes the whole cached copy, or the whole record as memory holds it, never a mixture of parts. -/
def State.recBytes (s : State) (n c a : Nat) : Except (Nat × Word) (List Byte) :=
  if a % 64 ≠ 0 then .error (causeRecordInvalid, BitVec.ofNat 64 a)
  else match tget (s.sc n).recs a with
    | some bs => .ok bs
    | none =>
      let parts := (List.range 12).map (fun i => (a + 16 * i, s.checkAccess n c false false (a + 16 * i) 16))
      match parts.findSome? (fun p => match p.2 with | .error e => some (e, p.1) | .ok _ => none) with
      | some (e, v) => .error (e, BitVec.ofNat 64 v)
      | none => .ok (parts.flatMap (fun p => match p.2 with
          | .ok x => if inRegs (localOf x.pa) then List.replicate 16 0
              else (s.performEarlier (corePort n) (localOf x.pa) 16).bytes (localOf x.pa) 16
          | .error _ => []))

/-- A record operand: read and checked (R186, R183). -/
def State.record (s : State) (n c : Nat) (a : Word) : Except (Nat × Word) Rec :=
  match s.recBytes n c a.toNat with
  | .error e => .error e
  | .ok bs => if recOk bs then .ok (recOf a.toNat bs) else .error (causeRecordInvalid, a)

/-- Parts of m bytes read by a context of an SC, up to the first that fails its check: each is translated, counted as a read, and has the
host's answer where the host holds its line (R186, R280, R286, R350). -/
def State.readParts (n c m : Nat) : List Nat → State → State
  | [], s => s
  | a :: as, s =>
    let t := s.touch n true (s.sc n).root a
    match s.checkAccess n c false false a m with
    | .error _ => t
    | .ok x =>
      let l := localOf x.pa
      State.readParts n c m as (if inRegs l then t else (t.performEarlier (corePort n) l m).noteRead l m)

/-- A record operand read at issue: from the cache, or part by part, and cached where every part was read, valid or not; it is the most
recently used of at most 32 (R186). -/
def State.readRec (s : State) (n c a : Nat) : State :=
  if a % 64 ≠ 0 then s
  else
    let t := if thas (s.sc n).recs a then s else s.readParts n c 16 ((List.range 12).map (fun i => a + 16 * i))
    match s.recBytes n c a with
    | .error _ => t
    | .ok bs => t.modSc n (fun t => { t with recs := ((a, bs) :: t.recs.filter (fun p => p.1 != a)).take 32 })

/-- The record operands of an instruction read one after the other, up to the first that fails (R187, R211). -/
def State.readRecs (n c : Nat) : List Nat → State → State
  | [], s => s
  | a :: as, s =>
    let t := s.readRec n c a
    match s.record n c (BitVec.ofNat 64 a) with
    | .ok _ => State.readRecs n c as t
    | .error _ => t

/-! ## What an instruction issues -/

/-- A stream instruction that has passed R211 steps 1-4: its work, the stream ends it uses, the record windows and byte ranges
it checks (each with whether it writes), the ranges outside every footprint, and its flag. -/
structure Issue where
  work : Work := .run
  ends : List End' := []
  wins : List (Rec × Bool) := []
  ranges : List (Nat × Nat × Bool) := []
  extra : List (Nat × Nat × Bool) := []
  flag : Option Nat := none
  mem : Bool := true

/-- SBAR classes (R168): SRF-read, SRF-write, memory. -/
def Issue.classes (i : Issue) : Nat :=
  (if i.ends.any (fun e => !e.prod) then 1 else 0) + (if i.ends.any End'.prod then 2 else 0) + (if i.mem then 4 else 0)

/-- Bytes of a range. -/
def rangeBytes (lo n : Nat) : List Nat := (List.range n).map (lo + ·)

/-- The BX records, whose exponent ranges the check covers in the role their windows have (R187). -/
def Issue.exps (i : Issue) : List (Rec × Bool) := i.wins.filter (fun p => isBx p.1.fmt)

/-- Every byte the instruction's check covers but those of its flag, and whether it is written (R187). -/
def Issue.touches (i : Issue) : List (Nat × Bool) :=
  i.wins.flatMap (fun p => ((List.range p.1.size).filterMap p.1.byteAddr).map (·, p.2))
    ++ i.exps.flatMap (fun p => ((List.range (2 * p.1.blocks)).filterMap p.1.expAddr).map (·, p.2))
    ++ (i.ranges ++ i.extra).flatMap (fun p => (rangeBytes p.1 p.2.1).map (·, p.2.2))

/-- The least of a list. -/
def leastOf (l : List Nat) : Option Nat := (hullOf l).map Prod.fst

/-- The flag word's bytes. -/
def Issue.flagBytes (i : Issue) : List Nat := match i.flag with | some a => rangeBytes a 8 | none => []

/-- Every address the check covers. -/
def Issue.addresses (i : Issue) : List Nat := i.touches.map Prod.fst ++ i.flagBytes

/-- Addresses that raise STREAM_BOUNDS (R187 order 2). -/
def Issue.outOfBounds (i : Issue) : List Nat :=
  i.wins.flatMap (fun p =>
      if p.1.outside then ((List.range p.1.total).filter (fun n => !p.1.inside n)).map p.1.elemAddr else [])
    ++ i.addresses.filter (fun a => !(decide (a < 2 ^ 64) && canonical a))

/-- The translations that the window checks make (R187, R280): none where an address is out of bounds. -/
def State.windowWalk (s : State) (n : Nat) (i : Issue) : State :=
  if i.outOfBounds.isEmpty then s.touchAll n true (s.sc n).root i.addresses else s

/-- The 64 KiB chunks of the addresses the check covers. -/
def Issue.chunks (i : Issue) : List Nat := ((i.addresses.map (· / 65536)).dedup).map (65536 * ·)

/-- The window checks of R187, orders 2-5: the trap and its TVAL. -/
def State.windowTrap (s : State) (n : Nat) (i : Issue) : Option (Nat × Nat) :=
  let ts := i.touches ++ i.flagBytes.map (·, true)
  let bad := fun (f : Xlat → Bool → Bool) =>
    leastOf ((ts.filter (fun t => match s.xlat n t.1 with | some x => f x t.2 | none => false)).map Prod.fst)
  let farFlag := i.flagBytes.filter (fun a => match s.xlat n a with | some x => s.far x | none => false)
  match leastOf i.outOfBounds with
  | some a => some (causeStreamBounds, a)
  | none => match leastOf ((ts.filter (fun t => (s.xlat n t.1).isNone)).map Prod.fst) with
    | some a => some (causePageFault, a)
    | none => match bad (fun x w => w && x.dup) with
      | some a => some (causeWprotDup, a)
      | none => match leastOf (((bad (fun x w => if w then !x.w else !x.r)).toList) ++ farFlag) with
        | some a => some (causeProt, a)
        | none => none

/-! ## Range registers about to change (R279) -/

/-- The translation of a VA by range registers, whichever holds it. -/
def State.rngMap (s : State) (va : Nat) : Option (Nat × Option Xlat) := (s.rngFor va).map (fun r => (r, s.rngXlat r va))

/-- The state as it would translate with the staging registers of a die live. -/
def State.staged (s : State) (die : Nat) : State :=
  { s with rngLive := (List.range 256).map (fun k => (k, tgetD s.rngStage (256 * die + k) 0)) }

/-- Will the live translation of a VA change with the commit of a die? -/
def State.rngChanges (s : State) (die va : Nat) : Bool :=
  ((s.rngMap va).map Prod.snd) != (((s.staged die).rngMap va).map Prod.snd)

/-- Does a waiting commit change a VA? -/
def State.commitHits (s : State) (va : Nat) : Bool := s.committing.any (fun p => s.rngChanges (p.1 / 2) va)

/-! ## The scoreboard (R168-R173) -/

/-- Is there room for one more entry of an owner (R169, R281)? -/
def Sc.room (t : Sc) (o : Owner) : Bool :=
  let live := t.entries.filter (fun e => e.st != .retired)
  live.length < 64 && (live.filter (fun e => e.owner == o)).length < 32

/-- The lowest free scoreboard slot. -/
def Sc.freeSlot (t : Sc) : Nat :=
  ((List.range 64).find? (fun k => !t.entries.any (fun e => e.slot == k && e.st != .retired))).getD 0

/-- Do footprints share a byte, one of them a write? -/
def footsMeet (a b : List Foot) : Bool :=
  a.any (fun x => b.any (fun y => x.lo < y.hi && y.lo < x.hi && (x.write || y.write)))

/-- The edge from an earlier entry: 2 until it has retired, 1 until it has started, 0 none (R170). -/
def edgeFrom (ends : List End') (foots : List Foot) (y : Entry) : Nat :=
  if ends.any (fun e => y.ends.contains e) then 2
  else if ends.any (fun e => y.ends.any (fun z => z.d == e.d)) then 1
  else if footsMeet foots y.foots then 2
  else 0

/-- The earlier entries of an owner that an SBAR makes a later one wait for (R172). -/
def barred (t : Sc) (o : Owner) (bars : List (Nat × Nat)) (classes : Nat) : List Nat :=
  bars.flatMap (fun b =>
    if Nat.land b.1 classes = 0 then []
    else (t.entries.filter (fun y => y.owner == o && y.st != .retired && y.id < b.2 && Nat.land y.classes b.1 != 0)).map
      Entry.id)

/-- The footprints of an issue (R173). -/
def Issue.foots (i : Issue) : List Foot :=
  (i.wins.filterMap (fun p => p.1.hull.map (fun h => ({ lo := h.1, hi := h.2, write := p.2 } : Foot))))
    ++ i.ranges.map (fun p => { lo := p.1, hi := p.1 + p.2.1, write := p.2.2 })

/-- The pins of an issue: one per footprint and per further range checked (R281). -/
def Issue.pins (i : Issue) (asid : Nat) : List Pin :=
  let pin := fun (h : Nat × Nat) => ({ asid := asid, lo := h.1, hi := h.2 } : Pin)
  i.wins.filterMap (fun p => p.1.hull.map pin) ++ i.exps.filterMap (fun p => p.1.expHull.map pin)
    ++ (i.ranges ++ i.extra).map (fun p => pin (p.1, p.1 + p.2.1))
    ++ (match i.flag with | some a => [pin (a, a + 8)] | none => [])

/-- The entry of an issue by an owner whose SBARs are `bars`. -/
def Sc.entryOf (t : Sc) (o : Owner) (bars : List (Nat × Nat)) (i : Issue) : Entry :=
  let own := t.entries.filter (fun y => y.owner == o)
  let need := fun (k : Nat) => (own.filter (fun y => edgeFrom i.ends i.foots y == k)).map Entry.id
  { id := t.nextEntry, slot := t.freeSlot, owner := o, work := i.work, ends := i.ends, foots := i.foots,
    classes := i.classes, retire := need 2 ++ barred t o bars i.classes, start := need 1,
    pins := i.pins (ptbAsid t.ptb), ptb := t.root, flag := i.flag }

/-- The entry taken (R168). -/
def State.enter (s : State) (n : Nat) (o : Owner) (bars : List (Nat × Nat)) (i : Issue) : State :=
  { s.modSc n (fun t =>
      { t with entries := t.entries ++ [{ t.entryOf o bars i with seq := s.seq }], nextEntry := t.nextEntry + 1 })
    with seq := s.seq + 1 }

/-- The issue of a stream instruction after R211 step 4: a wait for the commits that change a range it touches, after which it is
checked (R279), the window checks, a wait for room, then the entry and what follows it. -/
def State.issue (s : State) (i : Issue) (f : State → State) : State :=
  let n := s.cur.sc
  if i.addresses.any s.commitHits then s.block (.touched i.chunks)
  else
    let t := s.windowWalk n i
    match s.windowTrap n i with
    | some (c, a) => t.trap c (BitVec.ofNat 64 a)
    | none => if s.mySc.room s.myOwner then f (t.enter n s.myOwner s.me.sbars i) else t.block .room

/-- A stream instruction (R211): its registers are read, every earlier access of the context has performed (R306), steps
2-4 give the issue or a trap, and `f` is what else it does once it has its entry.  `reads` is what step 3 and the checks of step 4 read
of memory; a handle that is not bound traps before that. -/
def streamOp (rs : List (BitVec 5)) (reads : State → State) (prep : State → Except (Nat × Word) Issue) (f : State → State) (s : State) :
    Result :=
  ctl rs s (fun s => s.afterAccesses (fun s =>
    match prep s with
    | .error e => (if e.1 = causeStreamHandle then s else reads s).trap e.1 e.2
    | .ok i => (reads s).issue i f))

/-- The record operands of the executing context's instruction read (R186, R211 step 3). -/
def recRead (as : List (BitVec 5)) (s : State) : State := State.readRecs s.cur.sc s.cur.ctx (as.map (fun a => (s.g a).toNat)) s

/-! ## Operands of stream instructions (R211 steps 2-4) -/

/-- The descriptor a handle field names, or STREAM_HANDLE. -/
def State.handle (s : State) (w : Word) (h : BitVec 4) : Except (Nat × Word) Nat :=
  match tget s.me.h h.toNat with
  | some d => .ok d
  | none => .error (causeStreamHandle, w)

/-- A handle field used only under a condition. -/
def State.handleIf (s : State) (w : Word) (used : Bool) (h : BitVec 4) : Except (Nat × Word) Nat :=
  if used then s.handle w h else .ok 0

/-- A record operand of the executing context. -/
def State.myRecord (s : State) (a : BitVec 5) : Except (Nat × Word) Rec := s.record s.cur.sc s.cur.ctx (s.g a)

/-- An argument check: STREAM_ARG with the instruction word. -/
def argOk (w : Word) (b : Bool) : Except (Nat × Word) Unit := if b then .ok () else .error (causeStreamArg, w)

/-- A register i places after another. -/
def regAfter (a : BitVec 5) (i : Nat) : BitVec 5 := BitVec.ofNat 5 (a.toNat + i)

/-- The flag of a record with FLAGV (R212). -/
def Rec.flagOf (r : Rec) : Option Nat := if r.flagV then some r.flag else none

/-- The producer and the consumer end of a stream (R168). -/
def producer (d : Nat) : End' := { d := d, prod := true }
def consumer (d : Nat) : End' := { d := d, prod := false }

end Sys2Proof.Machine
end

