-- ==== Sys2Proof/Machine/Kernels.lean ====
section
/-!
DEFINITION. Kernels: loading, naming and freeing images (R23, R24, R65, R177, R218, R219), issuing runs (R25, R176, R220) and
reading their return queues (R26, R221).
-/

namespace Sys2Proof.Machine

/-! ## Headers (R23, R65) -/

/-- The fields of a header. -/
def hdrCount (h : List Byte) : Nat := fieldAt h 0x08 2
def hdrGroup (h : List Byte) : Nat := fieldAt h 0x0A 1
def hdrReg (h : List Byte) : Nat := fieldAt h 0x0B 1
def hdrTom (h : List Byte) : Nat := fieldAt h 0x0C 1
def hdrAm (h : List Byte) : Nat := fieldAt h 0x0D 1
def hdrArgs (h : List Byte) : Nat := fieldAt h 0x0E 1

/-- The descriptor of port i, and its direction, granule and occupancy. -/
def hdrPort (h : List Byte) (i : Nat) : Nat := fieldAt h (0x10 + 4 * i) 4
def hdrDir (h : List Byte) (i : Nat) : Dir :=
  if bitsNat (hdrPort h i) 0 2 = 1 then .inp else if bitsNat (hdrPort h i) 0 2 = 2 then .out else .unused
def hdrGran (h : List Byte) (i : Nat) : Nat := 2 ^ bitsNat (hdrPort h i) 2 2
def hdrOcc (h : List Byte) (i : Nat) : Nat := bitsNat (hdrPort h i) 16 16

/-- Is a port descriptor valid? -/
def portDescOk (h : List Byte) (i : Nat) : Bool :=
  let p := hdrPort h i
  let g := hdrGran h i
  let o := hdrOcc h i
  if bitsNat p 0 2 = 0 then p == 0
  else bitsNat p 0 2 ≠ 3 && bitsNat p 2 2 ≠ 3 && bitsNat p 4 12 == 0 && g ≤ o && o ≤ 32768 && o % g == 0

/-- Is a header valid (R23, R65)? -/
def headerOk (h : List Byte) : Bool :=
  fieldAt h 0 4 == 0x4B345647 && fieldAt h 4 2 == 1 && fieldAt h 6 2 == 0
    && 1 ≤ hdrCount h && hdrCount h ≤ 4096
    && [4, 8, 16].contains (hdrGroup h) && hdrReg h ≤ 191 && hdrTom h ≤ 16 && hdrAm h ≤ 64 && hdrArgs h ≤ 8
    && fieldAt h 0x0F 1 == 0 && fieldAt h 0x30 16 == 0
    && (List.range 8).all (portDescOk h)

/-! ## Bundles (R24, R218) -/

/-- Does a field name a register or an argument beyond the declaration (reason 4)? -/
def beyond (h : List Byte) : Ref → Bool
  | .lat _ c => (c < 192 && hdrReg h < c) || (198 ≤ c && c < 206 && hdrArgs h ≤ c - 198)
  | .src c => (c < 192 && hdrReg h < c) || (198 ≤ c && c < 206 && hdrArgs h ≤ c - 198)
  | .rd d => hdrReg h < d
  | .wr d => hdrReg h < d
  | .uni c => 198 ≤ c && c < 206 && hdrArgs h ≤ c - 198
  | .arg k => hdrArgs h ≤ k
  | _ => false

/-- Does a field name a port that is unused or of the wrong direction (reason 5)? -/
def wrongPort (h : List Byte) : Ref → Bool
  | .pin p => hdrDir h p != .inp
  | .pout p => hdrDir h p != .out
  | _ => false

/-- Does a field name a target beyond the image (reason 6)? -/
def farTarget (h : List Byte) : Ref → Bool
  | .target t => hdrCount h ≤ t
  | _ => false

/-- Does a CTL operation end execution there: a halt or an unconditional branch (R24)? -/
def endsFlow : Instr → Bool
  | .ctlHalt => true
  | .ctlBr _ => true
  | _ => false

/-- The lowest reason for which a syllable is rejected (R218). -/
def sylFault (h : List Byte) (last : Bool) (j : Nat) (w : W32) : Option Nat :=
  match slotOf j with
  | none => none
  | some sl =>
    match decodeSyllable sl w with
    | none => some 2
    | some i =>
      if !kernelFieldsOk i then some 3
      else if (refs i).any (beyond h) then some 4
      else if (refs i).any (wrongPort h) then some 5
      else if (refs i).any (farTarget h) then some 6
      else if last && j == 0 && !endsFlow i then some 7
      else none

/-- The first fault of a bundle: its syllable and reason. -/
def bundleFault (h : List Byte) (last : Bool) (ws : List W32) : Option (Nat × Nat) :=
  (List.range 14).findSome? (fun j => (sylFault h last j (ws.getD j 0)).map (fun r => (j, r)))

/-- The TVAL of KLOAD_REJECT for an image's bundles, or none. -/
def imageFault (h : List Byte) (bs : List (List W32)) : Option Nat :=
  bs.zipIdx.findSome? (fun p =>
    (bundleFault h (p.2 + 1 == bs.length) p.1).map (fun f => f.1 * 65536 + p.2 * 16 + f.2))

/-- The bundles that bytes hold. -/
def bundlesOf (n : Nat) (bs : List Byte) : List (List W32) :=
  (List.range n).map (fun i => (List.range 16).map (fun j => BitVec.ofNat 32 (fieldAt bs (64 * i + 4 * j) 4)))

/-! ## KLOAD (R177, R218, R219) -/

/-- The first of k 64-byte pieces that a load may not read, with its cause. -/
def State.pieceFault (s : State) (va k : Nat) : Option (Nat × Nat) :=
  (List.range k).findSome? (fun i =>
    match s.checkAccess s.cur.sc s.cur.ctx false false (va + 64 * i) 64 with
    | .error c => some (c, va + 64 * i)
    | .ok _ => none)

/-- The bytes of a 64-byte piece. -/
def State.piece (s : State) (va : Nat) : List Byte :=
  match s.xlat s.cur.sc va with
  | some x => if inRegs (localOf x.pa) then List.replicate 64 0
      else (s.performEarlier (corePort s.cur.sc) (localOf x.pa) 64).bytes (localOf x.pa) 64
  | none => []

/-- The state after k pieces have been read, up to the first that fails. -/
def State.readPieces (s : State) (va k : Nat) : State :=
  s.readParts s.cur.sc s.cur.ctx 64 ((List.range k).map (fun i => va + 64 * i))

/-- The lowest-addressed range of n free bundles (R177). -/
def Sc.freeBundles (t : Sc) (n : Nat) : Option Nat :=
  (List.range (4097 - n)).find? (fun a => !t.images.any (fun p => p.1 < a + n && a < p.1 + p.2.count))

/-- The image placed and its handle (R219). -/
def State.placeImage (s : State) (a : Nat) (h : List Byte) (bs : List (List W32)) : State :=
  s.modMySc (fun t => { t with images := tput t.images a { count := hdrCount h, gen := t.kgen, header := h, bundles := bs },
                               kgen := (t.kgen + 1) % 65536 })

/-- KLOAD (R218), whose loads come after every LD.acq of the context (R200). -/
def execKload (a b : BitVec 5) (s : State) : Result :=
  ctl [a, b] s (fun s =>
    let va := (s.g b).toNat
    if s.acquiring then s.block (.settled [])
    else if va % 64 ≠ 0 then s.trap causeAlign (s.g b)
    else match s.pieceFault va 1 with
      | some e => (s.readPieces va 1).trap e.1 (BitVec.ofNat 64 e.2)
      | none =>
        let h := s.piece va
        if !headerOk h then (s.readPieces va 1).trap causeKloadReject 1
        else match s.pieceFault (va + 64) (hdrCount h) with
          | some e => (s.readPieces va (1 + hdrCount h)).trap e.1 (BitVec.ofNat 64 e.2)
          | none =>
            let bs := bundlesOf (hdrCount h) ((List.range (hdrCount h)).flatMap (fun i => s.piece (va + 64 + 64 * i)))
            let s := s.readPieces va (1 + hdrCount h)
            match imageFault h bs with
            | some v => s.trap causeKloadReject (BitVec.ofNat 64 v)
            | none => match s.mySc.freeBundles (hdrCount h) with
              | none => s.trap causeKstoreFull 0
              | some k => (s.placeImage k h bs).ret a (BitVec.ofNat 64 (s.mySc.kgen * 4096 + k)))

/-- The loaded image a handle names (R219). -/
def Sc.image (t : Sc) (h : Nat) : Option Image :=
  match tget t.images (h % 4096) with
  | some i => if h < 2 ^ 28 ∧ i.gen = h / 4096 ∧ i.freed = false then some i else none
  | none => none

/-- Has a kernel a run that has not retired (R177)? -/
def Sc.kernelBusy (t : Sc) (k gen : Nat) : Bool :=
  t.runs.any (fun p => p.2.kernel == k && p.2.gen == gen && p.2.phase != .retired)

/-- KFREE (R177). -/
def execKfree (a : BitVec 5) (s : State) : Result :=
  ctl [a] s (fun s =>
    let h := (s.g a).toNat
    match s.mySc.image h with
    | none => s.trap causeKernelHandle (s.g a)
    | some i =>
      if s.mySc.kernelBusy (h % 4096) i.gen then
        (s.modMySc (fun t => { t with images := tput t.images (h % 4096) { i with freed := true } })).fin
      else (s.modMySc (fun t => { t with images := tdel t.images (h % 4096) })).fin)

/-- KINFO: header bytes 0x08-0x0E (R219). -/
def execKinfo (a b : BitVec 5) (s : State) : Result :=
  ctl [a, b] s (fun s =>
    match s.mySc.image (s.g b).toNat with
    | none => s.trap causeKernelHandle (s.g b)
    | some i => s.ret a (BitVec.ofNat 64 (fieldAt i.header 0x08 7)))

/-! ## KRUN (R25, R176, R220) -/

/-- The registers beyond g[gb] that KRUN reads: those its kernel's arguments need. -/
def State.krunRegs (s : State) (a b : BitVec 5) : List Nat :=
  match s.mySc.image (s.g a).toNat with
  | some i => (List.range ((hdrArgs i.header + 1) / 2)).map (b.toNat + 1 + ·)
  | none => []

/-- The handle g[gb] gives port i. -/
def nibble (v : Word) (i : Nat) : Nat := bitsNat v.toNat (4 * i) 4

/-- The used ports of a header. -/
def usedPorts (h : List Byte) : List Nat := (List.range 8).filter (fun i => hdrDir h i != .unused)

/-- The STREAM_ARG check of R220. -/
def bindingsOk (h : List Byte) (v : Word) : Bool :=
  let used := usedPorts h
  let hs := (used.map (nibble v)).filter (· != 0)
  v.toNat / 2 ^ 32 == 0 && (List.range 8).all (fun i => used.contains i || nibble v i == 0) && hs.dedup.length == hs.length

/-- What unretired runs hold of a stream (R25). -/
def Sc.reservedOn (t : Sc) (d : Nat) : Nat :=
  (t.runs.map (fun p =>
    if p.2.phase = .retired then 0
    else (p.2.ports.map (fun q => if q.2.dir ≠ .unused ∧ q.2.stream = d then q.2.occ else 0)).foldl (· + ·) 0)).foldl
      (· + ·) 0

/-- The stream a port is bound to. -/
def State.portStream (s : State) (v : Word) (i : Nat) : Option Nat := tget s.me.h (nibble v i)

/-- The reason port i is refused for, in a group of `g` cores (R25); the group's first core is that of the lowest used
port's stream. -/
def State.portRefused (s : State) (h : List Byte) (v : Word) (first i : Nat) : Option Nat :=
  match s.portStream v i with
  | none => some 3
  | some d =>
    let st := s.stream s.cur.sc d
    if st.g ≠ hdrGroup h ∨ st.first ≠ first then some 2
    else if st.cap < s.mySc.reservedOn d + hdrOcc h i then some 1
    else none

/-- The first core of the group: that of the lowest used port's stripe (R176). -/
def State.groupFirst (s : State) (h : List Byte) (v : Word) : Nat :=
  match (usedPorts h).head? with
  | some i => match s.portStream v i with
    | some d => (s.stream s.cur.sc d).first
    | none => 0
  | none => 0

/-- The refusal of KRUN: TVAL with the reason and the lowest failing port (R25). -/
def State.krunRefused (s : State) (h : List Byte) (v : Word) : Option Nat :=
  (usedPorts h).findSome? (fun i => (s.portRefused h v (s.groupFirst h v) i).map (fun r => 16 * i + r))

/-- The arguments (R220). -/
def State.krunArgs (s : State) (b : BitVec 5) (h : List Byte) : List W32 :=
  (List.range (hdrArgs h)).map (fun k =>
    let x := (s.me.reg (b.toNat + 1 + k / 2)).toNat
    BitVec.ofNat 32 (if k % 2 = 0 then x else x / 2 ^ 32))

/-- The ports of a run as KRUN binds them. -/
def State.krunPorts (s : State) (h : List Byte) (v : Word) : Tab Port :=
  (usedPorts h).map (fun i =>
    (i, { dir := hdrDir h i, stream := (s.portStream v i).getD 0, gran := hdrGran h i, occ := hdrOcc h i }))

/-- The run KRUN makes. -/
def State.newRun (s : State) (a b : BitVec 5) (i : Image) (tag : Nat) (dbg : Bool) : Run :=
  let v := s.g b
  { phase := .waiting, owner := s.myOwner, tag := tag, dbg := dbg, cls := s.classOf s.myRcb, pthr := s.pthrOf s.myRcb,
    kernel := (s.g a).toNat % 4096, gen := i.gen, placed := !(usedPorts i.header).isEmpty,
    first := s.groupFirst i.header v, g := hdrGroup i.header, args := s.krunArgs b i.header, tomN := hdrTom i.header,
    amMax := hdrAm i.header, ports := s.krunPorts i.header v }

/-- The stream ends of a run (R168). -/
def runEnds (ps : Tab Port) : List End' := ps.map (fun p => { d := p.2.stream, prod := p.2.dir == .out })

/-- KRUN (R220). -/
def execKrun (a b t : BitVec 5) (d : BitVec 1) (s : State) : Result :=
  let w := wSX 0x60 a 0 0 b (t.toNat * 2 + d.toNat)
  let rs := s.krunRegs a b
  ctlFirst [a, b] s (fun s => if rs.any (fun r => 31 < r) then .next (s.trap causeIllegal w) else ctl (rs.map (BitVec.ofNat 5)) s (fun s =>
    match s.mySc.image (s.g a).toNat with
      | none => s.trap causeKernelHandle (s.g a)
      | some i =>
        if !bindingsOk i.header (s.g b) then s.trap causeStreamArg w
        else match s.krunRefused i.header (s.g b) with
          | some v => s.trap causeKrunRefused (BitVec.ofNat 64 v)
          | none =>
            let r := s.newRun a b i t.toNat (d == 1)
            let id := s.mySc.nextEntry
            s.afterAccesses (fun s =>
              s.issue { work := .run, ends := runEnds r.ports, mem := false }
                (fun s => (s.setRun s.cur.sc id r).fin))))

/-! ## KRQ (R221) -/

/-- The oldest run of the executing context with a tag, leaving out retired runs whose queue of core c is empty. -/
def State.krqRun (s : State) (tag c : Nat) : Option (Nat × Run) :=
  s.mySc.runs.find? (fun p =>
    p.2.owner == s.myOwner && p.2.tag == tag && (p.2.phase != .retired || !(tgetD p.2.rq c []).isEmpty))

/-- KRQ (R221). -/
def execKrq (a b t : BitVec 5) (s : State) : Result :=
  let w := wSX 0x61 a 0 0 b (t.toNat * 2)
  ctl [a, b] s (fun s =>
    let c := (s.g b).toNat
    if 16 ≤ c then s.trap causeStreamArg w
    else match s.krqRun t.toNat c with
      | none => s.trap causeStreamArg w
      | some (k, r) =>
        if r.g ≤ c then s.trap causeStreamArg w
        else match tgetD r.rq c [] with
          | [] => s.block (.krq k c) true
          | x :: q => (s.setRun s.cur.sc k { r with rq := tput r.rq c q }).ret a (x.setWidth 64))

end Sys2Proof.Machine
end

