-- ==== Sys2Proof/Machine/KCycle.lean ====
section
/-!
DEFINITION. The life of a kernel run: a cycle of its group (R15, R17, R20), faults (R34, R35), start, completion and discard
(R27, R33, R176), pre-emption and restore (R28-R32, R208, R265, R334), and the kernel events.
-/

namespace Sys2Proof.Machine

/-! ## Owners and entries -/

/-- Does an owner still stand: a task held in a context or descheduled, or a context in use? -/
def State.ownerStands (s : State) (n : Nat) : Owner → Bool
  | .task h => s.futLive h && (s.locate (futKey h) != .nowhere)
  | .ctx c => decide ((s.ctx n c).st ≠ .free)

/-- An asynchronous trap set pending for an owner (R34, R203). -/
def State.pendTrap (s : State) (n : Nat) (o : Owner) (cause : Nat) (tval : Word) : State :=
  let put := fun (x : Ctx) => { x with apend := x.apend ++ [(cause, tval)] }
  match o with
  | .ctx c => if (s.ctx n c).st = .free then s else s.modCtx n c put
  | .task h =>
    if s.futLive h then
      match s.locate (futKey h) with
      | .inCtx m c => s.modCtx m c put
      | .asleep _ => { s with sleepers := tmod s.sleepers (futKey h) (fun x => { x with ctx := put x.ctx }) }
      | .nowhere => s
    else s

/-- An entry leaves the scoreboard and its job is freed (R174, R175). -/
def Sc.dropEntry (t : Sc) (id : Nat) : Sc := { t with entries := t.entries.filter (fun e => e.id != id) }

/-- An entry. -/
def Sc.entry? (t : Sc) (id : Nat) : Option Entry := t.entries.find? (fun e => e.id == id)

/-- A run whose group state is discarded: its return queues and what names it stay (R26, R27, R34). -/
def Run.retire (r : Run) : Run :=
  { phase := .retired, owner := r.owner, tag := r.tag, kernel := r.kernel, gen := r.gen, first := r.first, g := r.g,
    seq := r.seq, rq := r.rq, wall := r.wall, halted := r.halted }

/-- The length of each stream bound to an out port set (R158). -/
def State.setLengths (s : State) (n : Nat) (r : Run) (f : Port → Stream → Nat) : State :=
  r.ports.foldl (fun t p =>
    if p.2.dir = .out then
      let st := t.stream n p.2.stream
      t.setStream n p.2.stream { st with len := f p.2 st }
    else t) s

/-- A run retires: its entry leaves the scoreboard; its queues stay while its owner stands (R26, R27). -/
def State.retireRun (s : State) (n k : Nat) (r : Run) : State :=
  let t := s.modSc n (fun t => t.dropEntry k)
  if t.ownerStands n r.owner then t.setRun n k r.retire
  else t.modSc n (fun t => { t with runs := tdel t.runs k })

/-- A run discarded under reclamation (R33). -/
def State.discardRun (s : State) (n k : Nat) : State :=
  s.modSc n (fun t => { t.dropEntry k with runs := tdel t.runs k })

/-! ## Faults (R34, R35) -/

/-- The fault TVAL reports: the lowest core, and that core's lowest code. -/
def leastFault (fs : List (Nat × Nat)) : Nat × Nat :=
  let c := (fs.map Prod.fst).foldl min 15
  (c, ((fs.filter (fun f => f.1 == c)).map Prod.snd).foldl min 15)

/-- TVAL of STREAM_FAULT. -/
def faultTval (core code slot seq bundle : Nat) : Word :=
  BitVec.ofNat 64 (core * 2 ^ 28 + code * 2 ^ 24 + slot * 2 ^ 18 + seq * 2 ^ 16 + bundle)

/-- A run ends in a stream fault: `r` is the run before the faulting bundle (R34, R158). -/
def State.faultRun (s : State) (n k : Nat) (r : Run) (fs : List (Nat × Nat)) : State :=
  let f := leastFault fs
  let slot := (((s.sc n).entry? k).map Entry.slot).getD 0
  let t := s.setLengths n r (fun p st => wrap32 (p.n + 2 ^ 32 - (p.staging.length + st.rowLen * p.u) % 2 ^ 32))
  (t.retireRun n k r).pendTrap n r.owner causeStreamFault (faultTval f.1 f.2 slot r.seq r.pc)

/-! ## A cycle of a group (R15, R17, R20) -/

/-- Wall cycles that a background weight read takes off its count. -/
def Run.spend (r : Run) (w : Nat) : Run := { r with wall := r.wall + w, tldx := r.tldx - w }

/-- The bundle a run is about to issue. -/
def State.bundleAt (s : State) (n : Nat) (r : Run) : List W32 :=
  ((((tget (s.sc n).images r.kernel).map Image.bundles).getD []).getD r.pc [])

/-- The syllables of the bundle issued one after the other, `ex` being what an operation does.  DESIGN CHOICE (log 90): that order, by
syllable number, is also the order in which a kret or kretp and an scnt of one bundle enter the return queue. -/
def issueSyls (ex : Instr → State → Result) : List Nat → State → Result
  | [], s => .next s
  | j :: js, s =>
    let t : State := { s with cur := { s.cur with syl := j } }
    match t.myRun.opAt j with
    | none => issueSyls ex js t
    | some i => match ex i t with
      | .next u => issueSyls ex js u
      | .fault f => .fault f
      | .refused r => .refused r

/-- A run about to issue a bundle: its fixed stalls are paid first, once (R20). -/
def Run.payStalls (r : Run) (b : List W32) : Run :=
  if r.paid then r else { r.spend ((r.beginBundle b).stallCycles r.regsDue) with paid := true }

/-- The end of the cycle that issues a bundle: one wall cycle and those of its loads, whose reads no earlier tldx overlaps
(R20, R123). -/
def Run.endIssue (r : Run) : Run :=
  let x := (r.endBundle.endCycle).spend 1
  { x with wall := x.wall + r.loadsStall, paid := false }

/-- What a cycle does after the bundle's operations: a waiting stall keeps the state before them, a fault ends the run,
otherwise the bundle has issued. -/
def State.closeBundle (s : State) (n k : Nat) (t : State) : State :=
  let r := t.run n k
  if r.stall then s.modRun n k (fun x => x.spend 1)
  else if !r.faults.isEmpty then s.faultRun n k (s.run n k).landAll r.faults
  else t.setRun n k r.endIssue

/-- An advancing cycle in which nothing is issued: an idle cycle, or one after a halt (R27, R101). -/
def Run.quiet (r : Run) : Run := ({ r.landAll with idle := r.idle - 1 }.endCycle).spend 1

/-- The issue of the next bundle of run k of SC n, whose fixed stalls have been paid. -/
def State.issueBundle (ex : Instr → State → Result) (s : State) (n k : Nat) : Result :=
  let r := s.run n k
  let t : State := { s.setRun n k (r.landAll.beginBundle (s.bundleAt n r)) with cur := { s.cur with sc := n, run := k } }
  match issueSyls ex (List.range 14) t with
  | .next u => .next (s.closeBundle n k u)
  | .fault f => .fault f
  | .refused x => .refused x

/-- A cycle of run k of SC n: nothing for a run that does not run, has nothing left to do, or stands marked at its boundary, a
discard at the boundary for a reclaimed one. -/
def State.runCycle (ex : Instr → State → Result) (s : State) (n k : Nat) : Result :=
  let r := s.run n k
  if r.phase ≠ .running ∨ (r.preempt ∧ r.between = false) then .next s
  else if r.stop then .next (s.discardRun n k)
  else if r.halted then .next (if r.drained then s else s.modRun n k Run.quiet)
  else if r.idle ≠ 0 then .next (s.modRun n k Run.quiet)
  else (s.modRun n k (fun r => r.payStalls (s.bundleAt n r))).issueBundle ex n k

/-! ## Starting (R171, R176) -/

/-- The cores of a group. -/
def coresOf (first g : Nat) : List Nat := (List.range g).map (first + ·)

/-- Does a run hold a core? -/
def Run.onCore (r : Run) (c : Nat) : Bool := r.first ≤ c && c < r.first + r.g

/-- The running, and the saved, runs that hold a core of a group. -/
def Sc.holding (t : Sc) (ph : RunPhase) (first g : Nat) : List (Nat × Run) :=
  t.runs.filter (fun p => p.2.phase == ph && (coresOf first g).any p.2.onCore)

/-- The lowest free sequencer.  DESIGN CHOICE (log 89): a restored run takes it too, where R31 allows any. -/
def Sc.freeSeq (t : Sc) : Option Nat :=
  (List.range 4).find? (fun q => !t.runs.any (fun p => p.2.phase == .running && p.2.seq == q))

/-- Is a job free (R174)? -/
def Sc.jobFree (t : Sc) : Bool := (t.entries.filter (fun e => e.st != .waiting)).length < 128

/-- Are the edges and barriers of an entry satisfied (R170, R172)? -/
def Sc.edgesMet (t : Sc) (e : Entry) : Bool :=
  e.retire.all (fun y => !t.entries.any (fun x => x.id == y && x.st != .retired))
    && e.start.all (fun y => !t.entries.any (fun x => x.id == y && x.st == .waiting))

/-- May run k take a group now: no running run there, and no saved one but those it pre-empted (R14, R176)? -/
def Sc.groupFree (t : Sc) (k first g : Nat) : Bool :=
  (t.holding .running first g).isEmpty && (t.holding .saved first g).all (fun p => p.2.by' == some k)

/-- The aligned groups of a size whose cores are all live. -/
def State.groups (s : State) (n g : Nat) : List Nat :=
  ((List.range (16 / g)).map (· * g)).filter (fun f => s.coresLive n f g)

/-- The group run k would start on, if it may (R176). -/
def State.startGroup (s : State) (n k : Nat) : Option Nat :=
  let r := s.run n k
  let t := s.sc n
  if r.placed then (if t.groupFree k r.first r.g then some r.first else none)
  else (s.groups n r.g).find? (fun f => (t.holding .running f r.g).isEmpty && (t.holding .saved f r.g).isEmpty)

/-- Does power management hold a die (R393)? -/
def Mgmt.holds (m : Mgmt) (d : Nat) : Bool := m.heldPower.contains d || m.heldTemp.contains d

/-- A waiting run that may start: its group and sequencer (R171, R176); no new run is issued on a die that power management
holds (R393). -/
def State.canStart (s : State) (n k : Nat) : Option (Nat × Nat) :=
  let t := s.sc n
  match t.entry? k with
  | none => none
  | some e =>
    if e.st = .waiting ∧ e.work = .run ∧ t.edgesMet e = true ∧ t.jobFree = true ∧ s.mgmt.holds (n / 2) = false then
      match s.startGroup n k, t.freeSeq with
      | some f, some q => some (f, q)
      | _, _ => none
    else none

/-- An entry started. -/
def Sc.start (t : Sc) (id : Nat) : Sc :=
  { t with entries := t.entries.map (fun e => if e.id = id then { e with st := .started } else e) }

/-- The run starts. -/
def State.startRun (s : State) (n k f q : Nat) : State :=
  (s.modRun n k (fun r => { r with phase := .running, first := f, seq := q, placed := true, since := none })).modSc n
    (fun t => t.start k)

/-- KERNEL_RUN_START: the run issued first among those that could start (R171, R176). -/
def execKernelRunStart (n e : Nat) (s : State) : Result :=
  .next (match s.canStart n e with
    | none => s
    | some (f, q) =>
      if (s.sc n).entries.any (fun x => x.id < e && (s.canStart n x.id).isSome) then s else s.startRun n e f q)

/-! ## Events of a running group -/

/-- RESULT_LANDING: the results due in this cycle land (R17); rows that become visible in it land first (R75).  At a bundle boundary
they land with the bundle: a save before it still holds them as records with n = 0 (R29). -/
def execResultLanding (n k : Nat) (s : State) : Result :=
  let r := s.run n k
  .next (if r.phase = .running ∧ r.between ∧ (r.flyDue false).isEmpty ∧ (r.flyDue true).isEmpty then
    s.modRun n k Run.landDue else s)

/-- TILE_ROW_ENTRY: the next row enters; in a cycle that issues a bundle it enters with it (R125). -/
def execTileRowEntry (n k : Nat) (s : State) : Result :=
  let r := s.run n k
  .next (if r.phase = .running ∧ r.between ∧ r.entered = false ∧ r.due.isEmpty ∧ (r.flyDue false).isEmpty
      ∧ (r.flyDue true).isEmpty then s.modRun n k (fun r => { r.enterRow with entered := true })
    else s)

/-- TILE_UPDATE_VISIBLE: the dense rows of 16 cycles ago are applied (R125); at a bundle boundary with the bundle (R29, R130). -/
def execTileUpdateVisible (n k : Nat) (s : State) : Result :=
  let r := s.run n k
  .next (if r.phase = .running ∧ r.between then s.modRun n k (fun r => r.landRows false) else s)

/-- PARTS_UPDATE_VISIBLE: the parts rows of 24 cycles ago are applied (R141); at a bundle boundary with the bundle (R29, R149). -/
def execPartsUpdateVisible (n k : Nat) (s : State) : Result :=
  let r := s.run n k
  .next (if r.phase = .running ∧ r.between ∧ (r.flyDue false).isEmpty then s.modRun n k (fun r => r.landRows true) else s)

/-- TLDX_READ_END: the last wall cycle of the background read (R123). -/
def execTldxReadEnd (n k : Nat) (s : State) : Result :=
  .next (if (s.run n k).tldx = 1 then s.modRun n k (fun r => { r with tldx := 0 }) else s)

/-- RUN_COMPLETION (R27, R158). -/
def execRunCompletion (n k : Nat) (s : State) : Result :=
  let r := s.run n k
  .next (if r.phase = .running ∧ r.halted ∧ r.drained ∧ r.stop = false then
    (s.setLengths n r (fun p _ => p.n)).retireRun n k r else s)

/-- RUN_RECLAIM_STOP (R33): reclamation wins over a pre-emption and over a save (R32). -/
def execRunReclaimStop (n k : Nat) (s : State) : Result :=
  let r := s.run n k
  .next (if r.stop ∧ (r.phase = .running ∨ r.phase = .saved) then s.discardRun n k else s)

/-! ## Pre-emption (R28-R31, R208, R334) -/

/-- The bytes of words. -/
def wordsBytes (l : List W32) : List Byte := l.flatMap (fun w => natBytes 4 w.toNat)

/-- A core's 16 lanes of a row. -/
def coreRow (v : Row) (c : Nat) : List W32 := (v.drop (16 * c)).take 16

/-- A core's bits of a predicate, as two bytes. -/
def maskBytes (m : Mask) (c : Nat) : List Byte := natBytes 2 (maskBits m c)

/-- The byte that describes a bank in one core (R208). -/
def bankByte (r : Run) (a c : Nat) : Byte :=
  match tget r.banks a with
  | none => 0
  | some b => BitVec.ofNat 8 (1 + (if b.part then 2 else 0) + (if b.ovf.contains c then 4 else 0))

/-- A bank's 2 KiB in one core. -/
def bankBytes (r : Run) (b : Bank) (c : Nat) : List Byte :=
  if b.part then
    (List.range 16).flatMap (fun i => ((b.cellRow r.lanes i).drop (16 * c)).take 16 |>.flatMap (fun w => natBytes 8 w.toNat))
  else (List.range 32).flatMap (fun i => wordsBytes (coreRow (b.row r.lanes i) c))

/-- The lines of a TOM slot or area in one core. -/
def linesBytes (t : Tab Row) (c : Nat) : List Byte :=
  (List.range 256).flatMap (fun i => wordsBytes (coreRow (tgetD t i (List.replicate (16 * (c + 1)) 0)) c))

/-- The sections of a core's save that R208 lays out, by offset. -/
def Run.saveOf (r : Run) (regs c : Nat) : List (Nat × List Byte) :=
  [(0, (List.range (regs + 1)).flatMap (fun v => wordsBytes (coreRow (r.reg v) c))),
   (0x3000, (List.range 192).flatMap (fun v => maskBytes (tgetD r.dbgBits v []) c)),
   (0x3200, [1, 2, 3].flatMap (fun p => maskBytes (r.predicate p) c)),
   (0x3400, (List.range 12).flatMap (fun i => wordsBytes (coreRow (r.latch i) c))),
   (0x3800, wordsBytes ((List.range 8).map (fun i => (tgetD r.rq c []).getD i 0)
      ++ [BitVec.ofNat 32 (tgetD r.rq c []).length, 0])),
   (0x3840, (List.range 16).map (fun m => match tget r.slots m with
      | some x => BitVec.ofNat 8 x.tag
      | none => 0xFF)),
   (0x3880, (List.range 64).map (fun a => bankByte r a c))]
    ++ r.slots.map (fun p => (0x10000 + 0x4000 * p.1, linesBytes p.2.lines c))
    ++ r.banks.map (fun p => (0x50000 + 0x800 * p.1, bankBytes r p.2 c))
    ++ (if isParts r.active.fmt then [(0x70000, r.active.area.flatMap (fun t => linesBytes t c))] else [])

/-- The highest register a run's kernel declares. -/
def State.runRegs (s : State) (n : Nat) (r : Run) : Nat := (((tget (s.sc n).images r.kernel).map (fun i => hdrReg i.header)).getD 191)

/-- The local address of the save area of core c of SC n. -/
def State.saveBase (s : State) (n c : Nat) : Nat := bitsNat (s.sc n).ksp.toNat 24 17 * 2 ^ 24 + c * 2 ^ 20

/-- The internal sections of the c-th core of a group, by offset, with their sizes (R208). -/
def internals (c : Nat) : List (Nat × Nat) := [(0x4000, 0xC000), (0x90000, 0x30000)] ++ (if c = 0 then [(0xC0000, 0x10000)] else [])

/-- An internal section written: how many of its bytes, and with what, is not specified, so both are free values (R208,
log 19). -/
def State.writeInternal (s : State) (a size : Nat) : State :=
  let n := s.freeVal % (size + 1)
  (s.write a ((List.range n).map (fun i => BitVec.ofNat 8 (Config.freeNat (s.free + 1 + i))))).useFree (n + 1)

/-- The save written (R208). -/
def State.writeSave (s : State) (n : Nat) (r : Run) : State :=
  (List.range r.g).foldl (fun t c =>
    (internals c).foldl (fun t p => t.writeInternal (s.saveBase n (r.first + c) + p.1) p.2)
      ((r.saveOf (s.runRegs n r) c).foldl (fun t p => t.write (s.saveBase n (r.first + c) + p.1) p.2) t)) s

/-- How many bytes of its internal sections a restore reads: a free value for each, as for the save (R208, log 19). -/
def State.readInternal (s : State) (a size : Nat) : State := (s.noteRead a (s.freeVal % (size + 1))).useFree 1

/-- The reads of a save by its restore, as its stacks count them (R208, R264). -/
def State.readSave (s : State) (n : Nat) (r : Run) : State :=
  (List.range r.g).foldl (fun t c =>
    (internals c).foldl (fun t p => t.readInternal (s.saveBase n (r.first + c) + p.1) p.2)
      ((r.saveOf (s.runRegs n r) c).foldl (fun t p => t.noteRead (s.saveBase n (r.first + c) + p.1) p.2.length) t)) s

/-- Is the run that marked this one still waiting? -/
def State.stillWaits (s : State) (n : Nat) (k : Option Nat) : Bool :=
  match k with
  | some x => decide ((s.run n x).phase = .waiting) && thas (s.sc n).runs x
  | none => false

/-- The run that marked this one has pre-empted a run (R334). -/
def State.hasPreempted (s : State) (n : Nat) : Option Nat → State
  | some x => s.modRun n x (fun r => { r with preemptor := true })
  | none => s

/-- A mark dropped: the run that made it, where it binds no stream, again has no group until it starts (R334). -/
def State.dropMark (s : State) (n k : Nat) : State :=
  let t := match (s.run n k).by' with
    | some x => if thas (s.sc n).runs x && (s.run n x).ports.isEmpty && !(s.sc n).runs.any (fun p =>
        p.1 != k && p.2.by' == some x) then s.modRun n x (fun r => { r with placed := decide (r.phase ≠ RunPhase.waiting) }) else s
    | none => s
  t.modRun n k (fun r => { r with preempt := false, by' := none })

/-- PREEMPTION: a marked run is saved at its boundary, once no background weight read is under way (R28, R29, R130); the mark
is dropped where the run that made it no longer waits, this one has halted, or KSP is no longer valid (R28). -/
def execPreemption (n k : Nat) (s : State) : Result :=
  let r := s.run n k
  .next (if r.phase ≠ .running ∨ r.preempt = false ∨ r.stop then s
    else if !s.stillWaits n r.by' || r.halted || !bitNat (s.sc n).ksp.toNat 0 then s.dropMark n k
    else if r.idle ≠ 0 then s
    else if r.tldx ≠ 0 then s.setRun n k (r.spend 1)
    else ((s.writeSave n r).setRun n k { r with phase := .saved, preempt := false, paid := false }).hasPreempted n r.by')

/-- RUN_RESTORE: on the same cores, under any free sequencer, once the run that pre-empted it is gone (R31, R265). -/
def execRunRestore (n k : Nat) (s : State) : Result :=
  let r := s.run n k
  let t := s.sc n
  let gone := match r.by' with
    | some x => decide ((s.run n x).phase = .retired)
    | none => true
  .next (if r.phase ≠ .saved ∨ r.stop ∨ !gone ∨ !(t.holding .running r.first r.g).isEmpty then s
    else match t.freeSeq with
      | none => s
      | some q => (s.readSave n r).setRun n k { r with phase := .running, seq := q, by' := none })

/-- May run X take a group from the runs that hold it (R334)?  One of them that has halted has no bundle boundary left (R27, R28): it
is waited for, and not marked. -/
def Sc.mayPreempt (t : Sc) (x : Run) (first : Nat) : Bool :=
  (t.holding .saved first x.g).isEmpty
    && (t.holding .running first x.g).all (fun p => p.2.cls < x.cls && !p.2.preemptor && !p.2.preempt)
    && !(t.holding .running first x.g).isEmpty

/-- The group that waiting run k could pre-empt, if R334's condition holds: cores are its only unmet start condition. -/
def State.preemptGroup (s : State) (n k : Nat) : Option Nat :=
  let t := s.sc n
  let r := s.run n k
  match t.entry? k with
  | none => none
  | some e =>
    if e.st = .waiting ∧ e.work = .run ∧ t.edgesMet e = true ∧ t.jobFree = true ∧ t.freeSeq.isSome
        ∧ (s.startGroup n k).isNone ∧ bitNat t.ksp.toNat 0 = true ∧ s.mgmt.holds (n / 2) = false then
      (if r.placed then [r.first] else s.groups n r.g).find? (fun f => t.mayPreempt r f)
    else none

/-- The runs of a group that still issue bundles: those that a pre-emption marks (R28, R334). -/
def Sc.markable (t : Sc) (first g : Nat) : List (Nat × Run) := (t.holding .running first g).filter (fun p => !p.2.halted)

/-- Has the condition held for longer than PTHR, and does some run of the group still issue bundles (R334)? -/
def State.pthrOver (s : State) (n k : Nat) : Bool :=
  let r := s.run n k
  ((s.preemptGroup n k).map (fun f => !((s.sc n).markable f r.g).isEmpty)).getD false && (match r.since with
    | some t => decide (r.pthr < s.tb - t) || r.pthr == 0
    | none => r.pthr == 0)

/-- When run k began to meet the condition, as the state stands. -/
def State.noteSince (s : State) (n k : Nat) : State :=
  let r := s.run n k
  let v := if (s.preemptGroup n k).isSome then some (r.since.getD s.tb) else none
  if r.since = v then s else s.setRun n k { r with since := v }

/-- The same for every waiting run. -/
def State.noteWaits (s : State) : State :=
  s.scs.foldl (fun t p => (p.2.runs.filter (fun r => r.2.phase == .waiting)).foldl (fun t r => t.noteSince p.1 r.1) t) s

/-- The waiting run of an SC that pre-empts now: of those whose threshold has passed the one of highest class, then the one
issued earliest (R334). -/
def State.ripeRun (s : State) (n : Nat) : Option Nat :=
  let l := (s.sc n).runs.filter (fun p => s.pthrOver n p.1)
  (l.find? (fun p => !l.any (fun q => p.2.cls < q.2.cls || (p.2.cls == q.2.cls && q.1 < p.1)))).map Prod.fst

/-- The runs that hold a core of the group of run e, and still issue bundles, marked, at their next bundle boundaries (R334). -/
def State.markGroup (s : State) (n e : Nat) : State :=
  match s.preemptGroup n e with
  | none => s
  | some f =>
    let x := s.run n e
    ((s.sc n).markable f x.g).foldl (fun t p =>
      t.modRun n p.1 (fun r => { r with preempt := true, by' := some e }))
      (s.setRun n e { x with placed := true, first := f, since := none })

/-- PTHR_EXPIRY: the runs of the group are marked (R334). -/
def execPthrExpiry (n e : Nat) (s : State) : Result :=
  .next (if s.ripeRun n = some e then s.markGroup n e else s)

/-- Every expiry that is due in an SC: it comes before the next bundle of a run it marks (R28, R334). -/
def State.markRipe (s : State) (n : Nat) : State :=
  (s.sc n).runs.foldl (fun t _ => match t.ripeRun n with | some e => t.markGroup n e | none => t) s

end Sys2Proof.Machine
end

