-- ==== Sys2Proof/Machine/Frames.lean ====
section
/-!
DEFINITION. The fabric as a gateway sees it: the calendar and paths (R357-R361, R370), sessions and sealed frames (R363-R365,
R373), remote operations as their source holds them (R376, R382), and dead packages (R381).
-/

namespace Sys2Proof.Machine

/-- A fabric counter raised (R384). -/
def State.fcount (s : State) (k n : Nat) : State :=
  { s with fab := { s.fab with ctr := tput s.fab.ctr k (tgetD s.fab.ctr k 0 + BitVec.ofNat 64 n) } }

/-- The gateway changed. -/
def State.modFab (s : State) (f : Fabric → Fabric) : State := { s with fab := f s.fab }

/-! ## The calendar (R357-R361) -/

/-- Does a lane of this package carry traffic (R357)? -/
def State.laneLive (s : State) (l : Nat) : Bool := bitNat s.topo.lanes.toNat l && s.port (8 + l) == .run

/-- Is a lane live at a package, as far as this one knows (R370)? -/
def State.laneAt (s : State) (p l : Nat) : Bool :=
  if p = s.pkgid then s.laneLive l else bitNat (tgetD s.fab.farLanes p (BitVec.allOnes 48)).toNat l

/-- The key of a lane in a slot (R359). -/
def State.keyAt (s : State) (n l : Nat) : Nat := tgetD s.fab.keytab (48 * (n % s.calC) + l) 0

/-- Are packages a and b joined on a lane in a slot (R359)? -/
def State.meets (s : State) (a b n l : Nat) : Bool :=
  s.keyAt n l != 0 && Nat.xor a (s.keyAt n l) == b && decide (a < s.domain) && decide (b < s.domain)
    && !s.isDead a && !s.isDead b && s.laneAt a l && s.laneAt b l

/-- This package's partner on a lane in a slot. -/
def State.partnerOn (s : State) (n l : Nat) : Option Nat :=
  let q := Nat.xor s.pkgid (s.keyAt n l)
  if s.meets s.pkgid q n l then some q else none

/-- The lowest lane on which two packages meet in a slot. -/
def State.meetLane (s : State) (a b n : Nat) : Option Nat := (List.range 48).find? (s.meets a b n)

/-- The first slot from n onward in which two packages meet. -/
def State.meetFrom (s : State) (a b n : Nat) : Option Nat :=
  ((List.range s.calC).map (n + ·)).find? (fun m => (s.meetLane a b m).isSome)

/-! ## Paths (R370) -/

/-- RLYEN and RTHR (R372). -/
def State.rlyEn (s : State) : Bool := bitNat s.fab.fabctl.toNat 0
def State.rthr (s : State) : Nat := bitsNat s.fab.fabctl.toNat 24 8

/-- The better of two relays: the lower arrival, then the lower lane. -/
def betterRelay (a b : Nat × Nat × Nat) : Nat × Nat × Nat := if b.1 < a.1 then b else a

/-- The relay of slot n with the least arrival at q: its arrival, its lane and the relay (R370). -/
def State.bestRelay (s : State) (q n : Nat) : Option (Nat × Nat × Nat) :=
  ((List.range 48).filterMap (fun l => match s.partnerOn n l with
    | some m => if m = q then none else (s.meetFrom m q (n + 1)).map (fun r => (r, l, m))
    | none => none)).foldl (fun a x => match a with | none => some x | some y => some (betterRelay y x)) none

/-- Where a frame goes: in a slot on a lane, through a relay or not; nowhere yet; or nowhere at all (R382). -/
inductive Path where
  | go (slot lane : Nat) (relay : Bool)
  | later
  | never
  deriving DecidableEq, Repr, Inhabited

/-- The direct path. -/
def State.directPath (s : State) (ord : Bool) (q n : Nat) : Path :=
  match s.meetFrom s.pkgid q n with
  | some d => .go d ((s.meetLane s.pkgid q d).getD 0) false
  | none => if ord || !s.rlyEn then .never else .later

/-- Does the threshold allow a relay arriving at r? -/
def State.relayPays (s : State) (q n r : Nat) : Bool :=
  match s.meetFrom s.pkgid q n with
  | some d => decide (r + s.rthr ≤ d)
  | none => true

/-- The path of a frame at the start of slot n (R370). -/
def State.pathOf (s : State) (ord : Bool) (q n : Nat) : Path :=
  match s.bestRelay q n with
  | some (r, l, m) =>
    if !ord && s.rlyEn && s.relayPays q n r && 1 ≤ tgetD s.fab.farSpace m 0 then .go n l true else s.directPath ord q n
  | none => s.directPath ord q n

/-! ## Sealed frames (R363, R365, R373) -/

/-- The 40 bytes of the full end-to-end part, which are the additional data (R365). -/
def frameE2e (f : Frame) : List Byte :=
  natBytes 40 (f.src.toNat + f.dst.toNat * 2 ^ 12 + (if f.ord then 2 ^ 24 else 0) + f.op.toNat * 2 ^ 25 + f.aop.toNat * 2 ^ 28
    + (if f.desc then 2 ^ 31 else 0) + f.afmt.toNat * 2 ^ 32 + f.hsc.toNat * 2 ^ 36 + f.opid.toNat * 2 ^ 40
    + f.flowseq.toNat * 2 ^ 48 + f.opaddr.toNat * 2 ^ 64 + f.oplen.toNat * 2 ^ 128 + f.off.toNat * 2 ^ 160
    + f.len.toNat * 2 ^ 192 + f.iv.toNat * 2 ^ 224)

/-- The 16 bytes of the compressed end-to-end part (R366). -/
def frameShort (f : Frame) : List Byte :=
  natBytes 16 (f.off.toNat + f.len.toNat * 2 ^ 32 + f.flowseq.toNat * 2 ^ 48 + f.iv.toNat % 2 ^ 32 * 2 ^ 64)

/-- The 24 bytes of the hop part (R364). -/
def hopBytes (h : Hop) : List Byte :=
  natBytes 24 (h.kind.toNat + (if h.relay then 2 ^ 2 else 0) + (if h.install then 2 ^ 3 else 0) + h.cte.toNat * 2 ^ 4
    + h.lseq.toNat * 2 ^ 8 + h.lack.toNat * 2 ^ 15 + (if h.nack then 2 ^ 22 else 0) + h.fspace.toNat * 2 ^ 24
    + h.lanes.toNat * 2 ^ 40 + h.liveidx.toNat * 2 ^ 88 + h.livemap.toNat * 2 ^ 96)

/-- Bytes cut or padded with zeros to a length. -/
def padTo (n : Nat) (bs : List Byte) : List Byte := (bs ++ List.replicate n 0).take n

/-- The end-to-end part, the padded payload and the tag of a frame under a hop part; a filler has none of them (R363). -/
def frameBody (h : Hop) (f : Option Frame) : List Byte :=
  match f with
  | none => []
  | some f =>
    (if h.kind = 2 then frameShort f ++ padTo 2072 f.payload else frameE2e f ++ padTo 2048 f.payload) ++ natBytes 16 f.tag.toNat

/-- The 2,176 bytes of a frame on the wire (R363). -/
def wireFrame (h : Hop) (f : Option Frame) : List Byte :=
  let b := hopBytes h ++ padTo 2104 (frameBody h f)
  b ++ padTo 48 (Config.fec b)

/-- The session with a package, if there is one that has not failed (R373, R383). -/
def State.session (s : State) (q : Nat) : Option Session :=
  match tget s.fab.sessions q with
  | some x => if x.failed then none else some x
  | none => none

/-- The state with a session changed. -/
def State.modSession (s : State) (q : Nat) (f : Session → Session) : State :=
  s.modFab (fun b => { b with sessions := tmod b.sessions q f })

/-- A plain frame sealed under the pair's key with the next IV, and in the ordered flow numbered next (R373, R379). -/
def sealFrame (x : Session) (f : Frame) : Session × Frame :=
  let g := { f with iv := BitVec.ofNat 96 x.iv, len := BitVec.ofNat 12 f.payload.length,
                    flowseq := if f.ord then BitVec.ofNat 16 x.txFlow else 0 }
  let c := Config.aesSeal x.txKey g.iv (frameE2e g) g.payload
  ({ x with iv := x.iv + 1, txFlow := if f.ord then (x.txFlow + 1) % 65536 else x.txFlow },
   { g with payload := c.1, tag := c.2 })

/-- Frames sealed in order. -/
def sealFrames : Session → List Frame → Session × List Frame
  | x, [] => (x, [])
  | x, f :: fs =>
    let a := sealFrame x f
    let b := sealFrames a.1 fs
    (b.1, a.2 :: b.2)

/-- Frames, ready now, put at the end of the transport queue. -/
def State.enqueue (s : State) (fs : List Frame) : State :=
  s.modFab (fun b => { b with queue := b.queue ++ fs.map (fun f => { frame := f, ready := s.tb }) })

/-- Pieces of k bytes with their offsets; `n` pieces. -/
def pieces (k : Nat) : Nat → Nat → List Byte → List (Nat × List Byte)
  | 0, _, _ => []
  | n + 1, o, bs => (o, bs.take k) :: pieces k n (o + k) (bs.drop k)

/-- The data of an operation in frames of at most 2,048 bytes. -/
def dataFrames (f : Frame) (bs : List Byte) : List Frame :=
  (pieces 2048 ((bs.length + 2047) / 2048) 0 bs).map (fun p => { f with off := BitVec.ofNat 27 p.1, payload := p.2 })

/-- The payload of a descriptor frame (R377). -/
def descBytes (flag : Nat) (h : Option Handler) (value : Nat) : List Byte :=
  let x := h.getD {}
  natBytes 8 flag ++ natBytes 8 x.pc ++ natBytes 8 x.arg ++ natBytes 8 value

/-! ## What a remote operation does at a target (R231-R233, R375) -/

/-- A remote flag raised by a value. -/
def State.addFlag (s : State) (a v : Nat) : State :=
  if inMemory s.topo a then s.accumulate a 0 16 v else s.setHlth [hlthUe]

/-- Elements combined at consecutive addresses (R225). -/
def State.accRange (s : State) (op fmt : Nat) : Nat → List Byte → Nat → State
  | _, _, 0 => s
  | a, bs, k + 1 =>
    let n := accBytes fmt
    State.accRange (s.accumulate a op fmt (bytesNat (bs.take n))) op fmt (a + n) (bs.drop n) k

/-- Bytes combined as elements of a type; a remainder shorter than an element, which a stream of an odd word count leaves, is combined
nowhere (DESIGN CHOICE, log 86). -/
def State.accBytesAt (s : State) (op fmt a : Nat) (bs : List Byte) : State :=
  s.accRange op fmt a bs (bs.length / accBytes fmt)

/-- Frames that answer another package's operation: plain ones, sealed and queued, or none without a session. -/
def State.answer (s : State) (q : Nat) (fs : List Frame) : State :=
  match s.session q with
  | none => s
  | some x =>
    let y := sealFrames x fs
    (s.modFab (fun b => { b with sessions := tput b.sessions q y.1 })).enqueue y.2

/-- An ACK record for an operation of another package (R376). -/
def State.sendAck (s : State) (q op status : Nat) : State :=
  let f : Frame := { (default : Frame) with
    opid := BitVec.ofNat 8 op, op := 6, dst := BitVec.ofNat 12 q, src := BitVec.ofNat 12 s.pkgid,
    oplen := 4, payload := natBytes 4 (op + 256 * status) }
  s.answer q [f]

/-- The entries of an SC's arrival queue (R167). -/
def arrivalRoom : Nat := 64

/-- An arrival enters the queue of its SC, or is discarded and counted where the SC is dead; its operation is then acknowledged
(R167, R375). -/
def State.enterArrival (s : State) (a : HeldArrival) : State :=
  let t := if s.liveSc a.sc then s.modSc a.sc (fun t => { t with arrivals := t.arrivals ++ [a.arrival] }) else s.fcount 8 1
  match a.ack with
  | some (q, op) => t.sendAck q op 0
  | none => t

/-- May an arrival for an SC enter: its queue has room, or the SC is dead (R167)? -/
def State.arrivalFits (s : State) (n : Nat) : Bool := !s.liveSc n || decide ((s.sc n).arrivals.length < arrivalRoom)

/-- An arrival for an SC: it enters behind those that the hub holds for the same SC (R167). -/
def State.arrive (s : State) (a : HeldArrival) : State :=
  if s.arrivalFits a.sc && !s.fab.arrivals.any (fun b => b.sc == a.sc) then s.enterArrival a
  else s.modFab (fun b => { b with arrivals := b.arrivals ++ [a] })

/-- The arrivals that the hub holds, each entering where its SC's queue has room, in their order. -/
def State.admitArrivals (s : State) : State :=
  if s.fab.arrivals.isEmpty then s
  else s.fab.arrivals.foldl State.arrive (s.modFab (fun b => { b with arrivals := [] }))

/-- An arrival of a handler. -/
def Handler.arrival (h : Handler) (src : Nat) (ack : Option (Nat × Nat)) : HeldArrival :=
  { sc := h.sc, arrival := { pc := BitVec.ofNat 64 h.pc, arg := BitVec.ofNat 64 h.arg, src := src }, ack := ack }

/-- The handler of an operation, if it names one. -/
def State.callHandler (s : State) (h : Option Handler) (src : Nat) : State :=
  match h with
  | some x => s.arrive (x.arrival src none)
  | none => s

/-! ## Admission (R378) -/

/-- Does a fabric window grant a permission, by its bit, to a range? -/
def State.grants (s : State) (a n perm : Nat) : Bool :=
  (List.range 64).any (fun w =>
    let x := (tgetD s.fab.fwin (2 * w) 0).toNat
    let y := (tgetD s.fab.fwin (2 * w + 1) 0).toNat
    bitNat x 63 && bitNat y perm && decide (bitsNat x 16 25 * 2 ^ 16 ≤ a) && decide (a + n ≤ bitsNat y 16 25 * 2 ^ 16))

/-- Does a range of local addresses, shorter than a half, lie in offered memory? -/
def spanOffered (t : Topo) (a n : Nat) : Bool :=
  inMemory t a && inMemory t (a + n - 1)
    && (a / halfSize == (a + n - 1) / halfSize || offered t (a / halfSize) == halfSize)

/-- Does a range of global addresses lie in this package's offered memory and in one window with a permission? -/
def State.admits (s : State) (pa n perm : Nat) : Bool :=
  let a := localOf pa
  pkgOf pa == s.pkgid && 0 < n && spanOffered s.topo a n && s.grants a n perm

/-- The permission bit an operation needs: R for GETREQ, A for ACC, W for PUT and PUTH. -/
def opPerm (op : Nat) : Nat := if op = 2 then 0 else if op = 4 then 2 else 1

/-- Is an operation of this package on itself admitted, as an arriving one would be (R378, R387)? -/
def State.hereOk (s : State) (op : Nat) (r : Remote) (len : Nat) : Bool :=
  (op == 5 || len == 0 || s.admits r.addr len (opPerm op)) && ((op != 5 && r.flag == 0) || s.admits r.flag 8 3)

/-- An operation on this package performs without the fabric (R231, R387). -/
def State.performHere (s : State) (op : Nat) (r : Remote) (bs : List Byte) : State :=
  let a := localOf r.addr
  let t := if op = 4 then s.accBytesAt r.op r.ty a bs else if op = 0 || op = 1 then s.write a bs else s
  let t := if op = 5 then t.addFlag a r.value else if r.flag = 0 then t else t.addFlag (localOf r.flag) 1
  t.callHandler r.handler s.pkgid

/-! ## Operations at their source (R376, R382) -/

/-- The number of an operation among those of the package. -/
def opKey (dst op : Nat) : Nat := dst * 256 + op

/-- The entry of an operation changed. -/
def State.modEntry (s : State) (n e : Nat) (f : Entry → Entry) : State :=
  s.modSc n (fun t => { t with entries := t.entries.map (fun x => if x.id = e then f x else x) })

/-- What the bytes that an operation brought are for: an RGET's data, or bytes that a step of the job lacks (R276). -/
def Entry.receive (e : Entry) (o : RemoteOp) (bs : List Byte) : Entry :=
  match o.far with
  | some pa => { e with far := bs.zipIdx.foldl (fun t p => tput t (pa + p.2) p.1) e.far }
  | none => { e with mid := bytesAt 0 bs, done := bs.length }

/-- The source job's part of an operation is done; `bs` are the bytes a get brought. -/
def State.opDone (s : State) (k : Nat) (o : RemoteOp) (bs : List Byte) : State :=
  let t := s.modEntry o.sc o.entry (fun e =>
    let e := { e with remote := e.remote.filter (· != k) }
    if o.get then e.receive o bs else e)
  t.modFab (fun b => { b with ops := tdel b.ops k })

/-- OPLEN of an operation. -/
def RemoteOp.len (o : RemoteOp) : Nat := ((o.frames.head?).map (fun f => f.oplen.toNat)).getD 0

/-- The bytes of a get: those that arrived, and `f` for the others. -/
def RemoteOp.bytes (o : RemoteOp) (f : Nat → Byte) : List Byte := (List.range o.len).map (fun i => (tget o.got i).getD (f i))

/-- An operation is abandoned: those of its frames that still wait here are not sent (R382). -/
def State.abandon (s : State) (k : Nat) : State :=
  match tget s.fab.ops k with
  | none => s
  | some o =>
    let t := (s.opDone k o (o.bytes (fun _ => 0))).count (homeStack o.sc) ctrRemlost 1
    t.modFab (fun b => { b with queue := b.queue.filter (fun q => !o.frames.contains q.frame) })

/-- Operations abandoned. -/
def State.abandonAll (s : State) (f : Nat → Bool) : State :=
  ((s.fab.ops.map Prod.fst).filter f).foldl State.abandon s

/-- A package is dead from now on (R381): its operations are abandoned, and frames for it are discarded. -/
def State.markDead (s : State) (q : Nat) : State :=
  if s.isDead q then s
  else
    let t := (s.modFab (fun b => { b with dead := b.dead ++ [q] })).abandonAll (fun k => k / 256 == q)
    t.modFab (fun b => { b with queue := b.queue.filter (fun x => x.frame.dst.toNat != q),
                                relay := b.relay.filter (fun x => x.2.dst.toNat != q) })

/-- Frames to a package that are not acknowledged end to end. -/
def State.unacked (s : State) (q : Nat) : Nat :=
  ((s.fab.ops.filter (fun p => p.1 / 256 == q)).map (fun p => p.2.frames.length)).foldl (· + ·) 0

/-- The frames of an operation, plain, its descriptor frame last. -/
def opFrames (me : Nat) (op : Nat) (r : Remote) (bs : List Byte) (len opid : Nat) : List Frame :=
  let d := op == 5 || r.flag != 0 || r.handler.isSome
  let f : Frame := { (default : Frame) with
    oplen := BitVec.ofNat 27 len, opaddr := BitVec.ofNat 53 r.addr, opid := BitVec.ofNat 8 opid,
    hsc := BitVec.ofNat 4 ((r.handler.map Handler.sc).getD 0), afmt := BitVec.ofNat 4 (if op = 4 then r.ty else 0),
    aop := BitVec.ofNat 3 (if op = 4 then r.op else 0), op := BitVec.ofNat 3 op, ord := r.ord, described := d,
    dst := BitVec.ofNat 12 (pkgOf r.addr), src := BitVec.ofNat 12 me }
  (if op = 2 then [f] else dataFrames f bs) ++ (if d then [{ f with desc := true, payload := descBytes r.flag r.handler r.value }] else [])

/-- May an operation of k frames be sent to a package now (R374, R376)?  One that exceeds the window by itself goes when
nothing else is outstanding. -/
def State.opRoom (s : State) (q k : Nat) : Bool :=
  match s.session q with
  | some x => !thas s.fab.ops (opKey q (x.nextOp % 256)) && (s.unacked q + k ≤ 32768 || s.unacked q == 0)
  | none => true

/-- A remote operation of entry e of SC n sent: on this package it performs at once where it is admitted (R387; the bytes a
rejected get brings, which no rule gives, are free values); without a session, or to a dead
package, it is abandoned (R231, R382). `len` is its count of data bytes. -/
def State.sendOp (s : State) (n e op : Nat) (r : Remote) (bs : List Byte) (len : Nat) (far : Option Nat := none) : State :=
  let q := pkgOf r.addr
  if q = s.pkgid then
    if s.hereOk op r len then
      let t := s.performHere op r bs
      if op = 2 then
        (t.noteRead (localOf r.addr) len).modEntry n e (fun x => { x with mid := bytesAt 0 (s.bytes (localOf r.addr) len), done := len })
      else t
    else
      let t := s.fcount 6 1
      if op = 2 then
        (t.modEntry n e (fun x => { x with
          mid := bytesAt 0 ((List.range len).map (fun i => BitVec.ofNat 8 (Config.freeNat (s.free + i)))), done := len })).useFree len
      else t
  else match (if s.isDead q then none else s.session q) with
    | none =>
      (s.count (homeStack n) ctrRemlost 1).modEntry n e (fun x =>
        if op = 2 then x.receive { far := far } (List.replicate len 0) else x)
    | some x =>
      let id := x.nextOp % 256
      let fs := opFrames s.pkgid op r bs len id
      let y := sealFrames { x with nextOp := (x.nextOp + 1) % 256 } fs
      if fs.isEmpty then s
      else
      let t := s.modFab (fun b => { b with
        sessions := tput b.sessions q y.1,
        ops := tput b.ops (opKey q id) { sc := n, entry := e, frames := y.2, get := op == 2, far := far } })
      (t.enqueue y.2).modEntry n e (fun z => { z with remote := z.remote ++ [opKey q id] })

end Sys2Proof.Machine
end

