-- ==== Sys2Proof/Machine/Links.lean ====
section
/-!
DEFINITION. The links of a slot (R363, R364, R366-R371, R380, R381): the start of a slot, its frame positions, the end of its
payload window, and the failure of a lane.
-/

namespace Sys2Proof.Machine

/-! ## The start of a slot (R367, R369, R370) -/

/-- The links of a slot: one for each matched lane, with empty compression tables. -/
def State.slotLinks (s : State) (n : Nat) : Tab Link :=
  (List.range 48).filterMap (fun l => (s.partnerOn n l).map (fun q => (l, { partner := q })))

/-- The operation of a queued frame, if this package sources it. -/
def State.opOf (s : State) (f : Frame) : Option Nat :=
  let k := opKey f.dst.toNat f.opid.toNat
  match tget s.fab.ops k with
  | some o => if o.frames.contains f then some k else none
  | none => none

/-- The clock of an operation starts at the slot its first frame is first assigned to (R376). -/
def State.startClock (s : State) (f : Frame) (slot : Nat) : State :=
  match s.opOf f with
  | some k => s.modFab (fun b => { b with ops := tmod b.ops k (fun o => if o.since = 0 then { o with since := slot + 1 } else o) })
  | none => s

/-- A frame that only goes direct: of the ordered class, or an ACK, which the printed counters of P8 show unrelayed (R370, R385). -/
def goesDirect (f : Frame) : Bool := f.ord || f.op == 6

/-- Is a queued frame assigned when slot n begins: ready before it, and not assigned yet (R370)? -/
def QFrame.due (q : QFrame) (n : Nat) : Bool := !q.assigned && decide (q.ready < 2000 * n)

/-- Queued frames assigned one after the other at the start of slot n; the frames that stay queued (R370, R382). -/
def State.assign (n : Nat) : List QFrame → State → List QFrame × State
  | [], s => ([], s)
  | q :: qs, s =>
    if !q.due n then
      let r := State.assign n qs s
      (q :: r.1, r.2)
    else match s.pathOf (goesDirect q.frame) q.frame.dst.toNat n with
      | .go d l relay =>
        let r := State.assign n qs (s.startClock q.frame d)
        ({ q with slot := d, lane := l, relayed := relay, assigned := true } :: r.1, r.2)
      | .later =>
        let r := State.assign n qs (s.startClock q.frame n)
        (q :: r.1, r.2)
      | .never => State.assign n qs s

/-- The operations of queued frames that no path will ever carry (R382). -/
def State.hopeless (s : State) (n : Nat) : List Nat :=
  (s.fab.queue.filterMap (fun q =>
    if q.due n && s.pathOf (goesDirect q.frame) q.frame.dst.toNat n == .never then s.opOf q.frame else none)).dedup

/-- Packages met for the first time are listened to from this cycle on (R381). -/
def noteMet (cycle : Nat) (t : Tab Nat) (ls : Tab Link) : Tab Nat :=
  ls.foldl (fun t l => if thas t l.2.partner then t else tput t l.2.partner cycle) t

/-- A slot begins. -/
def State.beginSlot (s : State) (n : Nat) : State :=
  let t := (s.hopeless n).foldl State.abandon s
  let ls := t.slotLinks n
  let r := State.assign n t.fab.queue t
  r.2.modFab (fun b => { b with queue := r.1, slot := n + 1, begun := n + 1, links := ls,
                                silent := noteMet (n / s.calC) b.silent ls })

/-! ## The end of the payload window (R368, R380) -/

/-- Frames of this package that a link returns, and the relay frames that it forwarded, with the half that holds each. -/
def Link.returns (l : Link) : List QFrame := (l.sent.filter (fun x => x.2.2.held.isNone)).map (fun x => { frame := x.2.2.frame })
def Link.heldBack (l : Link) : List (Nat × Frame) := l.sent.filterMap (fun x => x.2.2.held.map (fun h => (h, x.2.2.frame)))

/-- The failed link-slots of a lane in a row after this one; only one that both ends report live fails (R380). -/
def nextBad (both : Bool) (l : Link) (bad : List Nat) : List Nat :=
  if l.valid then [] else if !both || bad.contains l.partner then bad else bad ++ [l.partner]

/-- Do both ends of a link report its lane live? -/
def State.bothLive (s : State) (lane : Nat) (l : Link) : Bool := s.laneLive lane && s.laneAt l.partner lane

/-- A lane whose transmitter or receiver has failed: its bit clears, its port goes to ERROR, and HLTH.REPLACE is set with
its reason (R353, R380). -/
def State.failLane (s : State) (l : Nat) : State :=
  let t := ({ s with topo := { s.topo with lanes := s.topo.lanes &&& ~~~((1 : BitVec 48) <<< l) } } : State)
  (t.failPort (8 + l)).setHlth [hlthReplace, lossLane]

/-- The payload window of the slot set up ends: every frame not seen acknowledged returns, but one for a package dead meanwhile
(R368, R381). -/
def State.endSlot (s : State) : State :=
  let ls := s.fab.links
  let back := (ls.flatMap (fun l => l.2.returns)).filter (fun q => !s.isDead q.frame.dst.toNat)
  let held := (ls.flatMap (fun l => l.2.heldBack)).filter (fun x => !s.isDead x.2.dst.toNat)
  let bad := ls.map (fun l => (l.1, nextBad (s.bothLive l.1 l.2) l.2 (tgetD s.fab.badSlots l.1 [])))
  let t := (s.fcount 2 (ls.map (fun l => l.2.sent.length)).sum).modFab (fun b => { b with
    queue := back ++ b.queue.map (fun q => if q.assigned && q.slot + 1 ≤ b.slot then { q with assigned := false } else q),
    relay := held ++ b.relay, slot := 0, links := [],
    badSlots := bad.foldl (fun t p => tput t p.1 p.2) b.badSlots })
  (bad.filter (fun p => 3 ≤ p.2.length)).foldl (fun t p => t.failLane p.1) t

/-- Is the payload window of the slot set up over? -/
def State.windowOver (s : State) : Bool := s.fab.slot != 0 && (s.slotNo + 1 != s.fab.slot || 1999 ≤ s.tb % 2000)

/-- PAYLOAD_WINDOW_END (R368). -/
def execPayloadWindowEnd (s : State) : Result := .next (if s.windowOver then s.endSlot else s)

/-- SLOT_START (R370): once a slot, ending the window of the one before. -/
def execSlotStart (s : State) : Result :=
  .next (if s.fab.begun = s.slotNo + 1 then s
    else (if s.fab.slot = 0 then s else s.endSlot).beginSlot s.slotNo)

/-! ## Sending at a frame position (R366, R367, R369) -/

/-- Free relay space of a lane's half, in 64 KiB units (R364, R371). -/
def State.relaySpace (s : State) (half : Nat) : Nat :=
  min 65535 ((2 ^ 31 - 2176 * (s.fab.relay.filter (fun x => x.1 == half)).length) / 65536)

/-- Frames a relay store holds at most (R363, R371). -/
def relayCap : Nat := 2 ^ 31 / 2176

/-- The hop part of a frame on a link, but for what names the frame. -/
def State.hopOf (s : State) (lane : Nat) (l : Link) : Hop :=
  { livemap := BitVec.ofNat 64 (s.liveWord l.liveidx).toNat, liveidx := BitVec.ofNat 6 l.liveidx,
    lanes := BitVec.ofNat 48 (((List.range 48).filter s.laneLive).foldl (fun a i => a + 2 ^ i) 0),
    fspace := BitVec.ofNat 16 (s.relaySpace (lane / 24)), nack := l.nack, lack := BitVec.ofNat 7 l.expect,
    lseq := 0, cte := 0, install := false, relay := false, kind := 0 }

/-- Do two frames agree in everything a compressed header leaves out (R366)? -/
def sameHeader (f g : Frame) : Bool :=
  { f with off := 0, len := 0, flowseq := 0, payload := [], tag := 0, described := false, iv := f.iv >>> 32 }
    == { g with off := 0, len := 0, flowseq := 0, payload := [], tag := 0, described := false, iv := g.iv >>> 32 }

/-- A frame sent on a link. -/
def State.emitFrame (s : State) (lane : Nat) (l : Link) (h : Hop) (f : Option Frame) : State :=
  (s.modFab (fun b => { b with links := tput b.links lane { l with pos := l.pos + 1, liveidx := (l.liveidx + 1) % 64 } })).emit
    (.frame lane (wireFrame h f))

/-- A new frame on a link: compressed where its table entry allows, otherwise full and installed (R366, R369). -/
def State.sendNew (s : State) (lane : Nat) (l : Link) (q : QFrame) : State :=
  let c := q.frame.dst.toNat % 16
  let same := match tget l.txTab c with
    | some g => sameHeader q.frame g
    | none => false
  let h := { s.hopOf lane l with lseq := BitVec.ofNat 7 l.lseq, cte := BitVec.ofNat 4 c, install := !same,
                                 relay := q.relayed, kind := if same then 2 else 1 }
  s.emitFrame lane { l with lseq := l.lseq + 1, sent := l.sent ++ [(l.lseq, h, q)], sentAt := tput l.sentAt l.lseq l.pos,
                            txTab := if same then l.txTab else tput l.txTab c q.frame } h (some q.frame)

/-- The frame a link would start next: one held for its partner first, then its own (R371). -/
def State.nextNew (s : State) (lane : Nat) (l : Link) : Option QFrame :=
  match s.fab.relay.find? (fun x => x.2.dst.toNat == l.partner) with
  | some x => some { frame := x.2, held := some x.1 }
  | none => s.fab.queue.find? (fun q => q.assigned && q.slot + 1 == s.fab.slot && q.lane == lane)

/-- The frame leaves where it was held. -/
def State.unqueue (s : State) (q : QFrame) : State :=
  match q.held with
  | some h => s.modFab (fun b => { b with relay := b.relay.erase (h, q.frame) })
  | none => s.modFab (fun b => { b with queue := b.queue.erase q })

/-- What a lane sends at its next position: a resend, a new frame at positions 0-102, or a filler (R367). -/
def State.transmit (s : State) (lane : Nat) (l : Link) : State :=
  match l.resend with
  | i :: rest =>
    match l.sent.find? (fun x => x.1 == i) with
    | some (_, h, q) =>
      (s.fcount 1 1).emitFrame lane { l with resend := rest, sentAt := tput l.sentAt i l.pos } h (some q.frame)
    | none => s.emitFrame lane { l with resend := rest } (s.hopOf lane l) none
  | [] =>
    match (if l.pos ≤ 102 then s.nextNew lane l else none) with
    | some q => (s.unqueue q).sendNew lane l q
    | none => s.emitFrame lane l (s.hopOf lane l) none

/-! ## Receiving (R364, R367, R369, R381) -/

/-- Acknowledgements of a hop part: frames before LACK are acknowledged; a NACK makes the sender resend from LACK on, once
the frame it names has been under way for the turnaround (R367). -/
def Link.acks (l : Link) (h : Hop) : Link :=
  let k := h.lack.toNat
  let m := { l with sent := l.sent.filter (fun x => k ≤ x.1), resend := l.resend.filter (fun i => k ≤ i) }
  if h.nack && m.sent.any (fun x => x.1 == k) && tgetD l.sentAt k 0 + 8 ≤ l.pos then
    { m with resend := m.sent.map Prod.fst }
  else m

/-- What any valid frame's hop part brings (R364, R370, R381). -/
def State.hopIn (s : State) (lane : Nat) (h : Hop) : State :=
  match tget s.fab.links lane with
  | none => s
  | some l =>
    let t := s.modFab (fun b => { b with
      links := tput b.links lane { l.acks h with valid := true }, silent := tput b.silent l.partner ((b.slot - 1) / s.calC + 1),
      farLanes := tput b.farLanes l.partner h.lanes, farSpace := tput b.farSpace l.partner h.fspace.toNat })
    ((List.range 64).filter (fun i => bitNat h.livemap.toNat i)).foldl (fun t i => t.markDead (64 * h.liveidx.toNat + i)) t

/-- A frame expanded from a link's table, or none when its entry is not installed (R366). -/
def expandFrame (l : Link) (h : Hop) (f : Frame) : Option Frame :=
  if h.kind = 1 then some f
  else (tget l.rxTab h.cte.toNat).map (fun g =>
    { g with off := f.off, len := f.len, flowseq := f.flowseq, payload := f.payload, tag := f.tag, described := f.described,
             iv := (g.iv >>> 32) <<< 32 ||| (f.iv &&& 0xFFFFFFFF) })

/-- A delivered frame kept for what it does. -/
def State.deliver (s : State) (x : RxItem) : State := s.modFab (fun b => { b with rx := b.rx ++ [x] })

/-- A frame of KIND 1 or 2 received in order: delivered, or counted in FBAD (R365, R366). -/
def State.inOrder (s : State) (lane : Nat) (l : Link) (h : Hop) (f : Frame) : State :=
  match expandFrame l h f with
  | none => (s.modFab (fun b => { b with links := tput b.links lane { l with expect := l.expect + 1, nack := false } })).fcount 9 1
  | some g =>
    let m : Link := { l with expect := l.expect + 1, nack := false,
                             rxTab := if h.kind = 1 && h.install then tput l.rxTab h.cte.toNat g else l.rxTab }
    let t := s.modFab (fun b => { b with links := tput b.links lane m })
    if g.op = 7 then t.fcount 9 1
    else if h.relay then t.deliver (.relay lane g)
    else t.deliver (.frame g)

/-- A frame received at a position of a link. -/
def State.receiveAt (s : State) (lane : Nat) (x : RxFrame) : State :=
  match tget s.fab.links lane with
  | none => s
  | some l =>
    if !x.crcOk then (s.modFab (fun b => { b with links := tput b.links lane { l with nack := true } })).fcount 0 1
    else
      let t := s.hopIn lane x.hop
      if x.hop.kind = 0 then t
      else if x.hop.kind = 3 then t.fcount 9 1
      else match tget t.fab.links lane with
        | none => t
        | some m => if x.hop.lseq.toNat = m.expect then t.inOrder lane m x.hop x.frame else t

/-- The frame position that starts at this nanosecond of the slot set up, if one does (R358). -/
def State.positionNow (s : State) : Option Nat :=
  let o := s.tb % 2000
  if s.fab.slot == s.slotNo + 1 && 112 ≤ o && (o - 112) % 17 == 0 && (o - 112) / 17 ≤ 110 then some ((o - 112) / 17) else none

/-- A position of a lane: the lane sends, and receives what its partner sent at the same position (R358, R367).  One that it has
taken already it does not take again. -/
def State.framePosition (s : State) (lane : Nat) (rx : Option RxFrame) : State :=
  match tget s.fab.links lane, s.positionNow with
  | some l, some k =>
    if l.pos ≤ k && s.laneLive lane && !s.isDead l.partner then
      let t := s.transmit lane { l with pos := k }
      match rx with
      | some x => t.receiveAt lane x
      | none => t
    else s
  | _, _ => s

/-- FRAME_POSITION (R367). -/
def execFramePosition (lane : Nat) (rx : Option RxFrame) (s : State) : Result := .next (s.framePosition lane rx)

/-- The head of what was received, if it is an item, is taken. -/
def State.takeRx (s : State) (x : RxItem) (f : State → State) : State :=
  if s.fab.rx.head? = some x then f (s.modFab (fun b => { b with rx := b.rx.drop 1 })) else s

/-- FILLER (R363): the position at which a lane receives one, whose hop part acts there. -/
def execFiller (lane : Nat) (h : Hop) (s : State) : Result :=
  .next (s.framePosition lane (some { crcOk := true, hop := { h with kind := 0 }, frame := default }))

/-- RELAY_FRAME (R371): held in the store of the lane's half, or discarded when that is full or its destination dead. -/
def execRelayFrame (lane : Nat) (f : Frame) (s : State) : Result :=
  .next (s.takeRx (.relay lane f) (fun t =>
    let half := lane / 24
    if t.isDead f.dst.toNat then t
    else if relayCap ≤ (t.fab.relay.filter (fun x => x.1 == half)).length then t.fcount 4 1
    else (t.modFab (fun b => { b with relay := b.relay ++ [(half, f)] })).fcount 3 1))

/-- LANE_FAILURE (R380). -/
def execLaneFailure (l : Nat) (s : State) : Result := .next (if l < 48 then s.failLane l else s)

/-- LIVENESS_TIMEOUT (R381): nothing valid has come in two whole cycles, one after the other.  DEDUCED (log 91): a cycle is one of the
calendar's (R361). -/
def execLivenessTimeout (q : Nat) (s : State) : Result :=
  .next (match tget s.fab.silent q with
    | some k => if k + 2 ≤ s.slotNo / s.calC then s.markDead q else s
    | none => s)

end Sys2Proof.Machine
end

