-- ==== Sys2Proof/Machine/Arrivals.lean ====
section
/-!
DEFINITION. What a frame does at its destination (R373-R379, R383): acceptance, order, admission, the seven kinds of frame and
the descriptor frame; the timeout of an operation (R376) and the sessions of package pairs (R373, R383).
-/

namespace Sys2Proof.Machine

/-! ## Acceptance (R373, R374, R383) -/

/-- The 65,536 IVs a receiver tells apart (R374). -/
def ivWindow : Nat := 65535

/-- What a receiver makes of an IV: stale, a duplicate, or new. -/
inductive IvSort where
  | stale
  | again
  | fresh
  deriving DecidableEq, Repr, Inhabited

/-- The sort of an IV against the highest accepted and the record of accepted ones (R374). -/
def ivSort (high : Nat) (seen : List Nat) (iv : Nat) : IvSort :=
  if iv + ivWindow < high then .stale else if seen.contains iv then .again else .fresh

/-- The record with an IV accepted. -/
def ivSeen (high : Nat) (seen : List Nat) (iv : Nat) : List Nat := (iv :: seen).filter (fun x => max high iv ≤ x + ivWindow)

/-- A frame opened under a session's key, or under its old one while that is accepted: the plain text, and whether the old
key opened it (R373). -/
def openFrame (x : Session) (now : Nat) (f : Frame) : Option (List Byte × Bool) :=
  match Config.aesOpen x.rxKey f.iv (frameE2e f) f.payload f.tag with
  | some p => some (p, false)
  | none =>
    if now < x.oldUntil then (Config.aesOpen x.oldKey f.iv (frameE2e f) f.payload f.tag).map (fun p => (p, true)) else none

/-- The number of the current cycle (R361). -/
def State.cycleNo (s : State) : Nat := s.slotNo / s.calC

/-- A frame whose tag fails: counted, and with the sixteenth of a cycle the pair's session fails (R374, R383). -/
def State.authFail (s : State) (q : Nat) (x : Session) : State :=
  let l := s.cycleNo :: x.fails.filter (· == s.cycleNo)
  let bad := 16 ≤ l.length
  let t := (s.modSession q (fun x => { x with fails := l, failed := bad })).fcount 5 1
  if bad then (t.abandonAll (fun k => k / 256 == q)).setHlth [hlthAuth] else t

/-- An accepted IV recorded. -/
def Session.note (x : Session) (old : Bool) (iv : Nat) : Session :=
  if old then { x with oldHigh := max x.oldHigh iv, oldSeen := ivSeen x.oldHigh x.oldSeen iv }
  else { x with high := max x.high iv, seen := ivSeen x.high x.seen iv }

/-! ## Admission (R378) -/

/-- Is the range of a frame's operation admitted?  SIG has none beside its flag, and an empty range is admitted. -/
def State.rangeOk (s : State) (f : Frame) : Bool :=
  f.op == 5 || f.oplen == 0 || s.admits f.opaddr.toNat f.oplen.toNat (opPerm f.op.toNat)

/-! ## Operations arriving (R375) -/

/-- The key of an arriving operation. -/
def inKey (f : Frame) : Nat := opKey f.src.toNat f.opid.toNat

/-- Do two frames belong to one operation? -/
def sameOp (f g : Frame) : Bool := f.op == g.op && f.opaddr == g.opaddr && f.oplen == g.oplen && f.ord == g.ord

/-- Has every frame of an arriving operation come? -/
def InOp.whole (o : InOp) (f : Frame) : Bool := decide (f.oplen.toNat ≤ o.bytes) && (!o.expect || o.desc.isSome)

/-- The operation a frame belongs to, as far as it has arrived: numbers come round again, so one of which every frame has come is
past.  A PUTH and a SIG have a descriptor frame; of another operation its target knows whether one is to come (DEDUCED, log 52). -/
def State.inOp (s : State) (f : Frame) : InOp :=
  let o : InOp := { first := f, expect := f.desc || f.described || f.op == 1 || f.op == 5 }
  match tget s.fab.inops (inKey f) with
  | some x => if sameOp x.first f && !x.finished then x else o
  | none => o

/-- The arriving operation put back. -/
def State.putInOp (s : State) (f : Frame) (o : InOp) : State := s.modFab (fun b => { b with inops := tput b.inops (inKey f) o })

/-- A dword of a descriptor payload (R377). -/
def descWord (d : List Byte) (i : Nat) : Nat := fieldAt d (8 * i) 8

/-- Is the flag word a descriptor names admitted?  0 is none, but for SIG (R378). -/
def State.flagOk (s : State) (f : Frame) (d : List Byte) : Bool :=
  (descWord d 0 == 0 && f.op != 5) || s.admits (descWord d 0) 8 3

/-- What follows an operation's data: the flag, then the handler, whose arrival the ACK follows where there is one (R375). -/
def State.afterData (s : State) (f : Frame) (d : List Byte) (ack : Option (Nat × Nat)) : State :=
  let a := localOf (descWord d 0)
  let t := if f.op = 5 then s.addFlag a (descWord d 3) else if descWord d 0 = 0 then s else s.addFlag a 1
  if f.op = 1 || (f.op == 5 && (descWord d 1 != 0 || descWord d 2 != 0)) then
    t.arrive ({ sc := f.hsc.toNat, pc := descWord d 1, arg := descWord d 2 : Handler }.arrival f.src.toNat ack)
  else match ack with
    | some (q, op) => t.sendAck q op 0
    | none => t

/-- The bytes a GETREQ reads, and the GETDATA frames that return them (R375). -/
def State.getBytes (s : State) (f : Frame) : List Byte := s.bytes (localOf f.opaddr.toNat) f.oplen.toNat
def State.getData (s : State) (f : Frame) (bs : List Byte) : State :=
  let g : Frame := { f with op := 3, ord := false, desc := false, described := false, src := f.dst, dst := f.src }
  s.answer f.src.toNat (dataFrames g bs)

/-- An operation of which every frame has come and been performed: its flag and its handler, and the ACK; a get reads every byte of its
range first, and its data go between the flag and the ACK (R233, R375). -/
def State.finishOp (s : State) (f : Frame) (o : InOp) : State :=
  let ack := some (f.src.toNat, f.opid.toNat)
  if f.op = 2 then
    let r := s.noteRead (localOf f.opaddr.toNat) f.oplen.toNat
    let t := match o.desc with
      | some d => r.afterData f d none
      | none => r
    (t.getData f (s.getBytes f)).sendAck f.src.toNat f.opid.toNat 0
  else match o.desc with
    | some d => s.afterData f d ack
    | none => s.sendAck f.src.toNat f.opid.toNat 0

/-- An operation put back, and finished once every frame of it has come (R375). -/
def State.tryOp (s : State) (f : Frame) (o : InOp) : State :=
  if o.whole f then (s.putInOp f { o with finished := true }).finishOp f o else s.putInOp f o

/-- An operation rejected: none of its frames is performed from here on, it sends ACK status 1, and REMREJ counts it once; it is past
when every frame has come (R378). -/
def State.rejectOp (s : State) (f : Frame) (o : InOp) : State :=
  let t := s.putInOp f { o with rejected := true, parts := [], finished := o.whole f }
  if o.rejected then t else (t.fcount 6 1).sendAck f.src.toNat f.opid.toNat 1

/-- The bytes of one frame performed (R375); its 16-byte parts are performed in one step (log 80). -/
def State.performBytes (s : State) (f : Frame) (bs : List Byte) : State :=
  let a := localOf f.opaddr.toNat + f.off.toNat
  if f.op = 4 then s.accBytesAt f.aop.toNat (if f.afmt = 0 then 16 else f.afmt.toNat) a bs
  else if f.op = 2 then s
  else s.write a bs

/-- A data frame of PUT, PUTH, ACC or GETREQ: performed where the operation is known to be admitted, held where its descriptor frame,
and with it the flag word's address, is yet to come (R378). -/
def State.dataIn (s : State) (f : Frame) (bs : List Byte) : State :=
  let x := s.inOp f
  let o := { x with bytes := if f.op = 2 then f.oplen.toNat else x.bytes + bs.length }
  if o.rejected || !s.rangeOk f then s.rejectOp f o
  else if o.expect && o.desc.isNone then s.putInOp f { o with parts := o.parts ++ [(f, bs)] }
  else (s.performBytes f bs).tryOp f o

/-- A descriptor frame, SIG's among them: the frames that came before it are performed where the operation is admitted (R378). -/
def State.descIn (s : State) (f : Frame) (bs : List Byte) : State :=
  let o := { s.inOp f with desc := some bs, expect := true }
  if o.rejected || !s.rangeOk f || !s.flagOk f bs then s.rejectOp f o
  else (o.parts.foldl (fun t p => t.performBytes p.1 p.2) s).tryOp f { o with parts := [] }

/-- Bytes of a get put into its operation; the last completes it (R375, R376). -/
def State.getIn (s : State) (f : Frame) (bs : List Byte) : State :=
  let k := inKey f
  match tget s.fab.ops k with
  | none => s
  | some o =>
    if !o.get then s
    else
      let o := { o with got := (bs.zipIdx).foldl (fun t p => tput t (f.off.toNat + p.2) p.1) o.got }
      if o.len ≤ o.got.length then s.opDone k o (o.bytes (fun _ => 0))
      else s.modFab (fun b => { b with ops := tput b.ops k o })

/-- One ACK record: an operation performed, or rejected.  The bytes a rejected get brings, which no rule gives, are free
values (R231, R376). -/
def State.ackOne (s : State) (q : Nat) (x : List Byte) : State :=
  let k := opKey q (fieldAt x 0 1)
  match tget s.fab.ops k with
  | none => s
  | some o =>
    if !o.get then s.opDone k o []
    else if fieldAt x 1 1 = 0 && o.len ≤ o.got.length then s.opDone k o (o.bytes (fun _ => 0))
    else if fieldAt x 1 1 = 0 then s.modFab (fun b => { b with ops := tput b.ops k { o with acked := true } })
    else (s.opDone k o (o.bytes (fun i => BitVec.ofNat 8 (Config.freeNat (s.free + i))))).useFree o.len

/-- The records of an ACK frame. -/
def State.ackIn (s : State) (f : Frame) (bs : List Byte) : State :=
  (pieces 4 (bs.length / 4) 0 bs).foldl (fun t p => t.ackOne f.src.toNat p.2) s

/-- What an accepted frame does. -/
def State.performFrame (s : State) (f : Frame) (bs : List Byte) : State :=
  if f.op = 3 then s.getIn f bs
  else if f.op = 6 then s.ackIn f bs
  else if f.desc || f.op = 5 then s.descIn f bs
  else s.dataIn f bs

/-- The ordered flow of a source goes on with the frames held early (R379). -/
def State.drainFlow : Nat → State → Nat → State
  | 0, s, _ => s
  | fuel + 1, s, q =>
    match s.session q with
    | none => s
    | some x =>
      match s.fab.early.find? (fun g => g.src.toNat == q && g.flowseq.toNat == x.rxFlow) with
      | none => s
      | some g =>
        let t := (s.modFab (fun b => { b with early := b.early.erase g })).modSession q (fun x =>
          { x with rxFlow := (x.rxFlow + 1) % 65536 })
        State.drainFlow fuel (t.performFrame g g.payload) q

/-- A new frame: performed, or held until the flow reaches it (R379).  A held frame keeps its plain text. -/
def State.inFlow (s : State) (q : Nat) (x : Session) (f : Frame) (bs : List Byte) : State :=
  if !f.ord then s.performFrame f bs
  else if f.flowseq.toNat = x.rxFlow then
    let t := (s.modSession q (fun x => { x with rxFlow := (x.rxFlow + 1) % 65536 })).performFrame f bs
    t.drainFlow t.fab.early.length q
  else s.modFab (fun b => { b with early := b.early ++ [{ f with payload := bs }] })

/-- Is the acknowledgement of an operation still owed, since the hub holds its arrival (R167)? -/
def State.ackHeld (s : State) (f : Frame) : Bool := s.fab.arrivals.any (fun a => a.ack == some (f.src.toNat, f.opid.toNat))

/-- A duplicate: the acknowledgement of an operation that has had one is sent again (R374). -/
def State.seenAgain (s : State) (f : Frame) : State :=
  match tget s.fab.inops (inKey f) with
  | some o =>
    if (o.finished || o.rejected) && !s.ackHeld f && sameOp o.first f && f.op != 3 && f.op != 6 then
      s.sendAck f.src.toNat f.opid.toNat (if o.rejected then 1 else 0)
    else s
  | none => s

/-- The LEN bytes of an opened payload (R365, R375). -/
def frameData (f : Frame) (bs : List Byte) : List Byte := bs.take f.len.toNat

/-- A frame for this package accepted or discarded (R374). -/
def State.accept (s : State) (f : Frame) : State :=
  let q := f.src.toNat
  if f.dst.toNat ≠ s.pkgid then s
  else match s.session q with
    | none => s
    | some x =>
      match openFrame x s.tb f with
      | none => s.authFail q x
      | some (bs, old) =>
        let iv := f.iv.toNat
        match (if old then ivSort x.oldHigh x.oldSeen iv else ivSort x.high x.seen iv) with
        | .stale => s
        | .again => s.seenAgain f
        | .fresh => (s.modSession q (fun y => y.note old iv)).inFlow q x f (frameData f bs)

/-! ## The events of a frame (R375-R377) -/

/-- A received frame of one kind acts. -/
def frameEvent (ok : Frame → Bool) (f : Frame) (s : State) : Result :=
  .next (if ok f then s.takeRx (.frame f) (fun t => t.accept f) else s)

/-- PUT. -/
def execPut (f : Frame) (s : State) : Result := frameEvent (fun f => f.op == 0 && !f.desc) f s
/-- PUTH. -/
def execPuth (f : Frame) (s : State) : Result := frameEvent (fun f => f.op == 1 && !f.desc) f s
/-- GETREQ. -/
def execGetreq (f : Frame) (s : State) : Result := frameEvent (fun f => f.op == 2 && !f.desc) f s
/-- GETDATA. -/
def execGetdata (f : Frame) (s : State) : Result := frameEvent (fun f => f.op == 3) f s
/-- ACC. -/
def execAcc (f : Frame) (s : State) : Result := frameEvent (fun f => f.op == 4 && !f.desc) f s
/-- SIG: its one frame is a descriptor. -/
def execSig (f : Frame) (s : State) : Result := frameEvent (fun f => f.op == 5) f s
/-- ACK. -/
def execAck (f : Frame) (s : State) : Result := frameEvent (fun f => f.op == 6) f s
/-- DESCRIPTOR_FRAME: of an operation other than SIG. -/
def execDescriptorFrame (f : Frame) (s : State) : Result :=
  frameEvent (fun f => f.desc && (f.op == 0 || f.op == 1 || f.op == 2 || f.op == 4)) f s

/-! ## Timeouts and sessions (R373, R376, R382, R383) -/

/-- An operation sent again whole, as its stored frames; those that still wait stay where they are (R376). -/
def State.resendOp (s : State) (k : Nat) (o : RemoteOp) : State :=
  let queued := s.fab.queue.map QFrame.frame
  let fs := o.frames.filter (fun f => !queued.contains f)
  ((s.modFab (fun b => { b with ops := tput b.ops k { o with sends := o.sends + 1, since := s.slotNo + 1 } })).fcount 7 1).enqueue fs

/-- E2E_TIMEOUT (R376): four cycles without the ACK, after which alone it is sent again; after eight such sends the operation is
abandoned. -/
def execE2eTimeout (dst op : Nat) (s : State) : Result :=
  let k := opKey dst op
  .next (match tget s.fab.ops k with
    | none => s
    | some o =>
      if o.acked ∨ o.since = 0 ∨ s.slotNo + 1 < o.since + 4 * s.calC then s
      else if 8 ≤ o.sends then s.abandon k
      else s.resendOp k o)

/-- 32 bytes of a new key, which no rule gives: free values from the k-th on (log 10). -/
def State.freshKey (s : State) (k : Nat) : List Byte :=
  (List.range 32).map (fun i => BitVec.ofNat 8 (Config.freeNat (s.free + k + i)))

/-- The one SPDM version that is accepted, 1.3, as its messages code it (R391). -/
def spdmVersion : Nat := 0x13

/-- SPDM_SESSION (R373, R383): a session established, or established again; one of another SPDM version is not accepted (R391). -/
def execSpdmSession (peer : Spdm Nat) (s : State) : Result :=
  .next (if peer.ver = spdmVersion then
      (s.modFab (fun b => { b with sessions := tput b.sessions peer.ask { txKey := s.freshKey 0, rxKey := s.freshKey 32 } })).useFree 64
    else s)

/-- KEY_UPDATE (R373): new keys, counters from 0, and the old key good for two further cycles. -/
def execKeyUpdate (q : Nat) (s : State) : Result :=
  .next (match s.session q with
    | none => s
    | some _ =>
      (s.modSession q (fun x => { x with
        txKey := s.freshKey 0, rxKey := s.freshKey 32, oldKey := x.rxKey, oldUntil := s.tb + 2 * s.calC * 2000,
        oldHigh := x.high, oldSeen := x.seen, iv := 0, high := 0, seen := [] })).useFree 64)

end Sys2Proof.Machine
end

