-- ==== Sys2Proof/Machine/Copies.lean ====
section
/-!
DEFINITION. Copies, accumulations, transforms, storage reads and remote operations 0x90-0x9D: what each issues (R224-R232).
-/

namespace Sys2Proof.Machine

/-- The accumulate type of a TC code (R225). -/
def tcFmt (t : BitVec 2) : Nat := if t = 0 then 1 else if t = 1 then 2 else if t = 2 then 11 else 15

/-- A stream of the executing SC as one side. -/
def sideStr (d : Nat) : Side := .str d

/-- SCOPY (R224). -/
def execScopy (a : BitVec 5) (h k : BitVec 4) (b : BitVec 5) (t l : BitVec 1) (s : State) : Result :=
  let w := wSX 0x90 a h k b (t.toNat * 2 + l.toNat)
  streamOp [a, b] (recRead ((if l = 1 then [] else [a]) ++ (if t = 1 then [] else [b]))) (fun s => do
    let x ← s.handleIf w (l == 1) h
    let y ← s.handleIf w (t == 1) k
    if l = 1 then
      if t = 1 then
        let n := (s.g a).toNat
        argOk w (1 ≤ n && n ≤ 2 ^ 24 && h != k)
        pure { work := .copy (.str x) (.str y) (4 * n), ends := [consumer x, producer y] }
      else
        let r ← s.myRecord b
        pure { work := .copy (.str x) (.win r) r.size, ends := [consumer x], wins := [(r, true)], flag := r.flagOf }
    else
      let q ← s.myRecord a
      if t = 1 then
        pure { work := .copy (.win q) (.str y) q.size, ends := [producer y], wins := [(q, false)], flag := q.flagOf }
      else
        let r ← s.myRecord b
        argOk w (q.fmt == r.fmt && q.total == r.total)
        pure { work := .copy (.win q) (.win r) r.size, wins := [(q, false), (r, true)], flag := r.flagOf }) State.fin s

/-- SACC (R226). -/
def execSacc (a : BitVec 5) (h : BitVec 4) (b : BitVec 5) (o : BitVec 3) (l : BitVec 1) (s : State) : Result :=
  let w := wSX 0x91 a h 0 b (o.toNat * 8 + l.toNat)
  streamOp [a, b] (recRead ((if l = 1 then [] else [a]) ++ [b])) (fun s => do
    let x ← s.handleIf w (l == 1) h
    if l = 1 then
      let r ← s.myRecord b
      argOk w (accFmtOk r.fmt && o != 7)
      pure { work := .acc (.str x) r o.toNat, ends := [consumer x], wins := [(r, true)], flag := r.flagOf }
    else
      let q ← s.myRecord a
      let r ← s.myRecord b
      argOk w (accFmtOk r.fmt && o != 7 && q.fmt == r.fmt && q.total == r.total)
      pure { work := .acc (.win q) r o.toNat, wins := [(q, false), (r, true)], flag := r.flagOf }) State.fin s

/-- The checks of a register-form SCAS's address, as a store under R199 (R227). -/
def State.casCheck (s : State) (va : Word) (n : Nat) : Except (Nat × Word) Unit :=
  match s.check true va n with
  | .error c => .error (c, va)
  | .ok _ => .ok ()

/-- SCAS, both forms (R227): the register form leaves g[ga] unfilled. -/
def execScas (a : BitVec 5) (h k : BitVec 4) (b : BitVec 5) (o : BitVec 3) (t : BitVec 2) (l : BitVec 1) (s : State) :
    Result :=
  let w := wSX 0x92 a h k b (o.toNat * 8 + t.toNat * 2 + l.toNat)
  if l = 1 then
    streamOp [b] (recRead [b]) (fun s => do
      let x ← s.handle w h
      let y ← s.handle w k
      let r ← s.myRecord b
      argOk w (accFmtOk r.fmt && o != 7)
      pure { work := .casStream x r y o.toNat, ends := [consumer x, producer y], wins := [(r, true)], flag := r.flagOf })
      State.fin s
  else
    streamOp [a, regAfter a 1, b] (fun s => s.walked (s.g b) (accBytes (tcFmt t))) (fun s => do
      let n := accBytes (tcFmt t)
      let va := s.g b
      s.casCheck va n
      pure { work := .casReg a.toNat va.toNat t.toNat o.toNat (s.g a) (s.g (regAfter a 1)),
             ranges := [(va.toNat, n, true)] })
      (fun s => (s.modMe (fun x => { x with unfilled := x.unfilled ++ [a.toNat] })).fin) s

/-- SSCADD (R226). -/
def execSscadd (a : BitVec 5) (h k : BitVec 4) (b : BitVec 5) (o : BitVec 3) (s : State) : Result :=
  let w := wSX 0x93 a h k b (o.toNat * 8)
  streamOp [a, b] (recRead [a]) (fun s => do
    let d ← s.handle w h
    let i ← s.handle w k
    let r ← s.myRecord a
    argOk w ((s.g b).toNat ≤ 2 ^ 24 && accFmtOk r.fmt && o != 7)
    pure { work := .scadd r d i (s.g b).toNat o.toNat, ends := [consumer d, consumer i], wins := [(r, true)],
           flag := r.flagOf }) State.fin s

/-- Do two records have equal RANK, DIMS and COUNT (R228)? -/
def sameShape (q r : Rec) : Bool := q.rank == r.rank && q.dims == r.dims && q.count == r.count

/-- SQUANT (R228). -/
def execSquant (a b : BitVec 5) (s : State) : Result :=
  let w := wSX 0x94 a 0 0 b 0
  streamOp [a, b] (recRead [a, b]) (fun s => do
    let q ← s.myRecord a
    let r ← s.myRecord b
    argOk w (q.fmt == 1 && isBx r.fmt && sameShape q r)
    pure { work := .quant q r, wins := [(q, false), (r, true)], flag := r.flagOf }) State.fin s

/-- SDQNT (R228). -/
def execSdqnt (a b : BitVec 5) (s : State) : Result :=
  let w := wSX 0x95 a 0 0 b 0
  streamOp [a, b] (recRead [a, b]) (fun s => do
    let q ← s.myRecord a
    let r ← s.myRecord b
    argOk w (isBx q.fmt && r.fmt == 1 && sameShape q r)
    pure { work := .dequant q r, wins := [(q, false), (r, true)], flag := r.flagOf }) State.fin s

/-- SDECOMP (R229). -/
def execSdecomp (a : BitVec 5) (h : BitVec 4) (b : BitVec 5) (m : BitVec 1) (s : State) : Result :=
  let w := wSX 0x96 a h 0 b m.toNat
  streamOp [a, regAfter a 1, b] id (fun s => do
    let d ← s.handle w h
    let va := (s.g a).toNat
    let n := (s.g (regAfter a 1)).toNat
    let tags := (s.g b).toNat
    argOk w (1 ≤ n && n ≤ 2 ^ 20)
    pure { work := .decomp va n d tags (m == 1), ends := [producer d],
           ranges := [(va, 256 * n, false), (tags, n, false)] }) State.fin s

/-- LBA bytes of a namespace, at least 1. -/
def lbaBytes (port ns : Nat) : Nat := Config.lbaBytesPred port ns + 1

/-- The register group of a storage read (R230): its argument check but for the destination, and its fields. -/
def State.storageGroup (s : State) (w : Word) (a : BitVec 5) : Except (Nat × Word) (Nat × Nat × Nat × Nat × Nat) := do
  let x := (s.g a).toNat
  let ns := bitsNat x 0 32
  let port := bitsNat x 32 2
  let count := (s.g (regAfter a 2)).toNat
  let status := (s.g (regAfter a 3)).toNat
  argOk w (x / 2 ^ 34 == 0 && decide (s.port (2 + port) = .run) && Config.nvmeEnabled port ns s.myRcb
    && 1 ≤ count && count ≤ 65536 && status % 16 == 0)
  pure (port, ns, (s.g (regAfter a 1)).toNat, count, status)

/-- The status area as a range outside every footprint (R230, R281). -/
def statusArea (status : Nat) : List (Nat × Nat × Bool) := if status = 0 then [] else [(status, 16, true)]

/-- The registers of a group of n. -/
def groupRegs (a : BitVec 5) (n : Nat) : List (BitVec 5) := (List.range n).map (regAfter a)

/-- SREAD (R230). -/
def execSread (a b : BitVec 5) (s : State) : Result :=
  let w := wSX 0x97 a 0 0 b 0
  streamOp (b :: groupRegs a 4) (recRead [b]) (fun s => do
    let r ← s.myRecord b
    let g ← s.storageGroup w a
    let lb := lbaBytes g.1 g.2.1
    argOk w (r.size == g.2.2.2.1 * lb)
    pure { work := .nvme g.1 g.2.1 g.2.2.1 g.2.2.2.1 g.2.2.2.2 lb (.win r), wins := [(r, true)],
           extra := statusArea g.2.2.2.2, flag := r.flagOf }) State.fin s

/-- SREADS (R230). -/
def execSreads (a : BitVec 5) (h : BitVec 4) (s : State) : Result :=
  let w := wSX 0x98 a h 0 0 0
  streamOp (groupRegs a 4) id (fun s => do
    let d ← s.handle w h
    let g ← s.storageGroup w a
    pure { work := .nvme g.1 g.2.1 g.2.2.1 g.2.2.2.1 g.2.2.2.2 (lbaBytes g.1 g.2.1) (.str d), ends := [producer d],
           extra := statusArea g.2.2.2.2 }) State.fin s

/-! ## Remote operations (R231, R232) -/

/-- The last argument checks: every address lies in no dead package and is canonical as a global physical address, and
each is aligned (R231). -/
def State.remoteOk (s : State) (as : List (Word × Nat)) : Except (Nat × Word) Unit :=
  match as.find? (fun p => p.1.toNat / 2 ^ 53 != 0 || s.isDead (pkgOf p.1.toNat)) with
  | some p => .error (causeStreamBounds, p.1)
  | none => match as.find? (fun p => p.1.toNat % p.2 != 0) with
    | some p => .error (causeAlign, p.1)
    | none => .ok ()

/-- The remote address and flag of a group, with their alignments; a flag of 0 is none.  Both are held to every check of R231 (DEDUCED,
log 85). -/
def State.remoteAddrs (s : State) (b : BitVec 5) (n : Nat) : List (Word × Nat) :=
  (s.g b, n) :: (if s.g (regAfter b 1) = 0 then [] else [(s.g (regAfter b 1), 8)])

/-- The word count of a stream form, in bytes (R231). -/
def State.remoteCount (s : State) (w : Word) (b : BitVec 5) : Except (Nat × Word) Nat := do
  let n := (s.g (regAfter b 2)).toNat
  argOk w (1 ≤ n && n ≤ 2 ^ 24)
  pure (4 * n)

/-- The local source of a put: record ga or stream h0, its byte count and what it issues (R232). -/
def State.putSource (s : State) (w : Word) (a : BitVec 5) (h : BitVec 4) (b : BitVec 5) (str : Bool) :
    Except (Nat × Word) (Side × Nat × Issue) := do
  let x ← s.handleIf w str h
  if str then
    let n ← s.remoteCount w b
    pure (.str x, n, { ends := [consumer x] })
  else
    let r ← s.myRecord a
    pure (.win r, r.size, { wins := [(r, false)], flag := r.flagOf })

/-- RPUT (R232). -/
def execRput (a : BitVec 5) (h : BitVec 4) (b : BitVec 5) (o l : BitVec 1) (s : State) : Result :=
  let w := wSX 0x99 a h 0 b (o.toNat * 32 + l.toNat)
  streamOp (a :: groupRegs b 3) (recRead (if l = 1 then [] else [a])) (fun s => do
    let p ← s.putSource w a h b (l == 1)
    s.remoteOk (s.remoteAddrs b 4)
    let r : Remote := { addr := (s.g b).toNat, flag := (s.g (regAfter b 1)).toNat, ord := o == 1 }
    pure { p.2.2 with work := .rput p.1 p.2.1 r }) State.fin s

/-- RPUTH (R232). -/
def execRputh (a : BitVec 5) (h : BitVec 4) (b : BitVec 5) (o : BitVec 1) (c : BitVec 4) (l : BitVec 1) (s : State) :
    Result :=
  let w := wSX 0x9A a h 0 b (o.toNat * 32 + c.toNat * 2 + l.toNat)
  streamOp (a :: groupRegs b 5) (recRead (if l = 1 then [] else [a])) (fun s => do
    let p ← s.putSource w a h b (l == 1)
    s.remoteOk (s.remoteAddrs b 4)
    let hd : Handler := { sc := c.toNat, pc := (s.g (regAfter b 3)).toNat, arg := (s.g (regAfter b 4)).toNat }
    let r : Remote := { addr := (s.g b).toNat, flag := (s.g (regAfter b 1)).toNat, ord := o == 1, handler := some hd }
    pure { p.2.2 with work := .rput p.1 p.2.1 r }) State.fin s

/-- RGET (R232). -/
def execRget (a : BitVec 5) (k : BitVec 4) (b : BitVec 5) (t : BitVec 1) (s : State) : Result :=
  let w := wSX 0x9B a 0 k b (t.toNat * 2)
  streamOp (a :: groupRegs b 3) (recRead (if t = 1 then [] else [a])) (fun s => do
    let x ← s.handleIf w (t == 1) k
    if t = 1 then
      let n ← s.remoteCount w b
      s.remoteOk (s.remoteAddrs b 4)
      pure { work := .rget (.str x) n { addr := (s.g b).toNat, flag := (s.g (regAfter b 1)).toNat }, ends := [producer x] }
    else
      let r ← s.myRecord a
      s.remoteOk (s.remoteAddrs b 4)
      pure { work := .rget (.win r) r.size { addr := (s.g b).toNat, flag := (s.g (regAfter b 1)).toNat },
             wins := [(r, true)], flag := r.flagOf }) State.fin s

/-- The accumulate type of RACC's source. -/
def racFmt (t : BitVec 2) : Side → Nat
  | .win r => r.fmt
  | _ => tcFmt t

/-- RACC (R232). -/
def execRacc (a : BitVec 5) (h : BitVec 4) (b : BitVec 5) (o : BitVec 3) (t : BitVec 2) (l : BitVec 1) (s : State) :
    Result :=
  let w := wSX 0x9C a h 0 b (o.toNat * 8 + t.toNat * 2 + l.toNat)
  streamOp (a :: groupRegs b 3) (recRead (if l = 1 then [] else [a])) (fun s => do
    let p ← s.putSource w a h b (l == 1)
    let f := racFmt t p.1
    argOk w ((l == 1 || t == 0) && accFmtOk f && o != 7)
    s.remoteOk (s.remoteAddrs b (accBytes f))
    let r : Remote := { addr := (s.g b).toNat, flag := (s.g (regAfter b 1)).toNat, op := o.toNat, ty := f }
    pure { p.2.2 with work := .racc p.1 p.2.1 r }) State.fin s

/-- RSIG (R232). -/
def execRsig (a b : BitVec 5) (c : BitVec 4) (q : BitVec 1) (s : State) : Result :=
  streamOp (a :: groupRegs b (if q = 1 then 3 else 1)) id (fun s => do
    s.remoteOk [(s.g b, 8)]
    pure { work := .rsig
             { addr := (s.g b).toNat, flag := (s.g b).toNat, ord := true, value := (s.g a).toNat,
               handler := if q = 1 then
                 some { sc := c.toNat, pc := (s.g (regAfter b 1)).toNat, arg := (s.g (regAfter b 2)).toNat }
                 else none } }) State.fin s

end Sys2Proof.Machine
end

