-- ==== Sys2Proof/Machine/Streams.lean ====
section
/-!
DEFINITION. The stream instructions 0x50-0x5C and 0x62-0x67: streams, their words and fills, memory streams, lengths, waits
and barriers (R178, R179, R213-R217, R222, R223, R172, R186).
-/

namespace Sys2Proof.Machine

/-! ## Allocation (R178, R325) -/

/-- G of a G code; 0 for none. -/
def groupOfCode (g : BitVec 2) : Nat := if g = 0 then 4 else if g = 1 then 8 else if g = 2 then 16 else 0

/-- Do u units at an offset in banks first .. first + g - 1 meet a stream? -/
def Stream.meets (st : Stream) (first g off u : Nat) : Bool :=
  st.first < first + g && first < st.first + st.g && st.off < off + u && off < st.off + st.units

/-- The lowest unit offset at which u units are free in every bank of a stripe. -/
def Sc.freeUnits (t : Sc) (first g u : Nat) : Option Nat :=
  (List.range (513 - u)).find? (fun off => !t.streams.any (fun p => p.2.meets first g off u))

/-- The SRF charge of a stream split into what the task's reservation covers and the rest (R325). -/
def State.reserved (s : State) (k : Nat) : Nat :=
  if s.cur.ctx < 16 then min k (s.fut (futKey s.me.fut.toNat)).psrf else 0

/-- Can the region's budget cover a charge (R178)? -/
def State.canCharge (s : State) (k : Nat) : Bool := s.srfRoom s.myRcb (k - s.reserved k)

/-- The charge made: the reservation first, then the pools (R325). -/
def State.takeSrf (s : State) (k : Nat) : State :=
  let r := s.reserved k
  let t := s.chargeSrf s.myRcb (k - r)
  if s.cur.ctx < 16 then t.modFut (futKey s.me.fut.toNat) (fun f => { f with psrf := f.psrf - r }) else t

/-- A handle bound, and unbound. -/
def State.bind (s : State) (h : BitVec 4) (d : Nat) : State := s.modMe (fun x => { x with h := tput x.h h.toNat d })
def State.unbind (s : State) (h : BitVec 4) : State := s.modMe (fun x => { x with h := tdel x.h h.toNat })

/-- A new handle may be bound: not h0, and not bound (R213). -/
def State.newHandle (s : State) (h : BitVec 4) : Bool := h != 0 && !thas s.me.h h.toNat

/-- A free stream descriptor of the executing SC: which one is not specified (R178, log 31). -/
def State.freeDesc (s : State) : Option Nat :=
  (tfree s.mySc.streams 128).map (s.anyFree 128 (fun d => !thas s.mySc.streams d))

/-- SALLOC (R178). -/
def execSalloc (a : BitVec 5) (h : BitVec 4) (b : BitVec 5) (g : BitVec 2) (s : State) : Result :=
  ctl [a, b] s (fun s =>
    let w := wSX 0x50 a h 0 b g.toNat
    let n := s.cur.sc
    let first := (s.g a).toNat
    let u := (s.g b).toNat
    let gg := groupOfCode g
    if gg = 0 ∨ 16 ≤ first ∨ first % gg ≠ 0 ∨ u = 0 ∨ 512 < u ∨ s.newHandle h = false then s.trap causeStreamArg w
    else if s.canCharge (gg * u) = false then s.trap causeSrfBudget w
    else
      match s.freeDesc, s.mySc.freeUnits first gg u with
      | some d, some off =>
        if s.coresLive n first gg then
          let st : Stream := { first := first, g := gg, units := u, off := off, owner := s.myOwner, region := s.myRcb }
          ((((s.takeSrf (gg * u)).setStream n d st).bind h d).useFree 1).fin
        else s.trap causeSrfSpace w
      | _, _ => s.trap causeSrfSpace w)

/-! ## Streams and handles (R213-R215) -/

/-- SFREE: the handle is unbound at issue (R179). -/
def execSfree (h : BitVec 4) (s : State) : Result :=
  streamOp [] id (fun s => do
    let d ← s.handle (wSX 0x51 0 h 0 0 0) h
    pure { work := .sfree d, ends := [producer d, consumer d], mem := false }) (fun s => (s.unbind h).fin) s

/-- SRESET. -/
def execSreset (h : BitVec 4) (s : State) : Result :=
  streamOp [] id (fun s => do
    let d ← s.handle (wSX 0x56 0 h 0 0 0) h
    pure { work := .sreset d, ends := [producer d, consumer d], mem := false }) State.fin s

/-- The executing SC's stream d. -/
def State.str (s : State) (d : Nat) : Stream := s.stream s.cur.sc d

/-- An instruction on a bound stream that completes in its own context. -/
def onStream (w : Word) (h : BitVec 4) (rs : List (BitVec 5)) (s : State) (f : Nat → State → State) : Result :=
  ctl rs s (fun s => match tget s.me.h h.toNat with
    | some d => f d s
    | none => s.trap causeStreamHandle w)

/-- SPTR (R213). -/
def execSptr (a : BitVec 5) (h : BitVec 4) (w : BitVec 1) (s : State) : Result :=
  onStream (wSX 0x57 a h 0 0 w.toNat) h [a] s (fun d s =>
    s.ret a (BitVec.ofNat 64 (if w = 1 then (s.str d).wp else (s.str d).rp)))

/-- SRD (R215). -/
def execSrd (a : BitVec 5) (h : BitVec 4) (b : BitVec 5) (s : State) : Result :=
  let w := wSX 0x58 a h 0 b 0
  onStream w h [a, b] s (fun d s =>
    let st := s.str d
    let i := (s.g b).toNat
    if st.rowLen * st.cap ≤ i then s.trap causeStreamArg w
    else s.ret a (((st.row (st.rp + i / st.rowLen)).getD (i % st.rowLen) 0).setWidth 64))

/-- SWR (R215). -/
def execSwr (a : BitVec 5) (h : BitVec 4) (b : BitVec 5) (s : State) : Result :=
  let w := wSX 0x59 a h 0 b 0
  onStream w h [a, b] s (fun d s =>
    let st := s.str d
    let i := (s.g b).toNat
    let x := st.wp + i / st.rowLen
    if st.rowLen * st.cap ≤ i then s.trap causeStreamArg w
    else (s.setStream s.cur.sc d (st.putRow x ((st.row x).set (i % st.rowLen) ((s.g a).setWidth 32)))).fin)

/-- SFILL (R213). -/
def execSfill (a : BitVec 5) (h : BitVec 4) (b : BitVec 5) (p : BitVec 1) (s : State) : Result :=
  let w := wSX 0x5A a h 0 b p.toNat
  streamOp [a, b] id (fun s => do
    let d ← s.handle w h
    let n := (s.g b).toNat
    argOk w (1 ≤ n && n ≤ (s.str d).cap)
    pure { work := .fill d ((s.g a).setWidth 32) (p == 1) n, ends := [producer d], mem := false }) State.fin s

/-- SMOVH (R213). -/
def execSmovh (h k : BitVec 4) (s : State) : Result :=
  let w := wSX 0x5B 0 h k 0 0
  onStream w k [] s (fun d s =>
    if h = k then s.fin
    else if s.newHandle h then ((s.unbind k).bind h d).fin
    else s.trap causeStreamArg w)

/-- Is a stream's length final for the executing context (R222)? -/
def State.lengthOpen (s : State) (d : Nat) : List Nat :=
  entryIds ((ownEntries s.mySc s.myOwner).filter (fun e => e.st != .retired && e.ends.contains (producer d)))

/-- The word of SINFO (R214). -/
def State.infoWord (s : State) (d : Nat) : Word :=
  let st := s.str d
  BitVec.ofNat 64 (st.derr * 2 ^ 49 + st.len % 2 ^ 32 * 2 ^ 17 + (if (s.lengthOpen d).isEmpty then 2 ^ 16 else 0)
    + st.first * 2 ^ 12 + (if st.g = 4 then 0 else if st.g = 8 then 1 else 2) * 2 ^ 10 + st.units)

/-- SINFO: an unbound handle gives 0 (R213). -/
def execSinfo (a : BitVec 5) (h : BitVec 4) (s : State) : Result :=
  ctl [a] s (fun s => s.ret a (match tget s.me.h h.toNat with | some d => s.infoWord d | none => 0))

/-! ## Memory streams (R216, R217) -/

/-- SLOAD (R216). -/
def execSload (a : BitVec 5) (h k : BitVec 4) (e : BitVec 1) (s : State) : Result :=
  let w := wSX 0x52 a h k 0 e.toNat
  streamOp [a] (recRead [a]) (fun s => do
    let d ← s.handle w h
    let x ← s.handleIf w (e == 1) k
    let r ← s.myRecord a
    argOk w (e == 0 || (isBx r.fmt && h != k))
    pure { work := .load r d (if e = 1 then some x else none), flag := r.flagOf, wins := [(r, false)],
           ends := producer d :: (if e = 1 then [producer x] else []) }) State.fin s

/-- SSTORE (R216). -/
def execSstore (a : BitVec 5) (h k : BitVec 4) (e : BitVec 1) (s : State) : Result :=
  let w := wSX 0x53 a h k 0 e.toNat
  streamOp [a] (recRead [a]) (fun s => do
    let d ← s.handle w h
    let x ← s.handleIf w (e == 1) k
    let r ← s.myRecord a
    argOk w (e == 0 || (isBx r.fmt && h != k))
    pure { work := .store r d (if e = 1 then some x else none), flag := r.flagOf, wins := [(r, true)],
           ends := consumer d :: (if e = 1 then [consumer x] else []) }) State.fin s

/-- SGATHER (R217). -/
def execSgather (a : BitVec 5) (h k : BitVec 4) (b : BitVec 5) (s : State) : Result :=
  let w := wSX 0x54 a h k b 0
  streamOp [a, b] (recRead [a]) (fun s => do
    let d ← s.handle w h
    let i ← s.handle w k
    let r ← s.myRecord a
    argOk w ((s.g b).toNat ≤ 2 ^ 24 && !isBx r.fmt)
    pure { work := .gather r d i (s.g b).toNat, flag := r.flagOf, wins := [(r, false)],
           ends := [consumer i, producer d] }) State.fin s

/-- SSCATTER (R217). -/
def execSscatter (a : BitVec 5) (h k : BitVec 4) (b : BitVec 5) (s : State) : Result :=
  let w := wSX 0x55 a h k b 0
  streamOp [a, b] (recRead [a]) (fun s => do
    let d ← s.handle w h
    let i ← s.handle w k
    let r ← s.myRecord a
    argOk w ((s.g b).toNat ≤ 2 ^ 24 && !isBx r.fmt)
    pure { work := .scatter r d i (s.g b).toNat, flag := r.flagOf, wins := [(r, true)],
           ends := [consumer d, consumer i] }) State.fin s

/-! ## Lengths, waits and barriers (R222, R223) -/

/-- SCOUNT (R222). -/
def execScount (a : BitVec 5) (h : BitVec 4) (s : State) : Result :=
  onStream (wSX 0x62 a h 0 0 0) h [a] s (fun d s =>
    match s.lengthOpen d with
    | [] => s.ret a (BitVec.ofNat 64 ((s.str d).len % 2 ^ 32))
    | ids => s.block (.retired ids) true)

/-- The entries an SWAIT with these fields waits for: of a class of the mask, on stream d where one is named, not retired
or not completed (R223). -/
def State.waitedFor (s : State) (d : Option Nat) (complete : Bool) (mask : Nat) : List Nat :=
  entryIds ((ownEntries s.mySc s.myOwner).filter (fun e =>
    Nat.land e.classes mask != 0 && (complete || e.st != .retired)
      && (match d with | some x => e.uses x | none => true)))

/-- The wait for entries: retired, or completed. -/
def waitOn (complete : Bool) (ids : List Nat) : Wait := if complete then .complete ids else .retired ids

/-- SWAIT (R223). -/
def execSwait (h : BitVec 4) (q c : BitVec 1) (m : BitVec 3) (s : State) : Result :=
  ctl [] s (fun s =>
    match s.handleIf (wSX 0x63 0 h 0 0 (q.toNat * 16 + c.toNat * 8 + m.toNat)) (q == 1) h with
    | .error e => s.trap e.1 e.2
    | .ok d =>
      match s.waitedFor (if q = 1 then some d else none) (c == 1) m.toNat with
      | [] => s.fin
      | ids => s.block (waitOn (c == 1) ids))

/-- SWAITA: every earlier entry has completed, also one of no SBAR class, which a KRUN without ports is (R223; DEDUCED, log 84). -/
def execSwaita (s : State) : Result :=
  ctl [] s (fun s =>
    match s.ownIds s.cur.sc s.myOwner with
    | [] => s.fin
    | ids => s.block (.complete ids))

/-- STEST (R223). -/
def execStest (a : BitVec 5) (h : BitVec 4) (q c : BitVec 1) (m : BitVec 3) (s : State) : Result :=
  ctl [a] s (fun s =>
    match s.handleIf (wSX 0x65 a h 0 0 (q.toNat * 16 + c.toNat * 8 + m.toNat)) (q == 1) h with
    | .error e => s.trap e.1 e.2
    | .ok d => s.ret a (if (s.waitedFor (if q = 1 then some d else none) (c == 1) m.toNat).isEmpty then 1 else 0))

/-- SBAR (R172): the order is kept while an earlier entry of a class of the mask stands. -/
def execSbar (m : BitVec 3) (s : State) : Result :=
  ctl [] s (fun s =>
    if (s.waitedFor none false m.toNat).isEmpty then s.fin
    else (s.modMe (fun x => { x with sbars := x.sbars ++ [(m.toNat, s.mySc.nextEntry)] })).fin)

/-- RFENCE: every cached record is dropped (R186). -/
def execRfence (s : State) : Result := ctl [] s (fun s => (s.modMySc (fun t => { t with recs := [] })).fin)

end Sys2Proof.Machine
end

