-- ==== Sys2Proof/Machine/Jobs.lean ====
section
/-!
DEFINITION. The data engines (R171, R174, R189, R288, R397): how a started entry moves its data part by part, starts, retires and
completes; and what SFREE, KFREE and the end of a task leave to be freed later (R177, R179).
-/

namespace Sys2Proof.Machine

/-! ## Engines -/

/-- The engine of an entry's work (R189, R288, R397). -/
inductive Engine where
  | none
  | agent
  | copier
  | dce
  deriving DecidableEq, Repr, Inhabited

/-- The engine. -/
def Work.engine : Work → Engine
  | .run => .none
  | .sfree _ => .agent
  | .sreset _ => .agent
  | .fill .. => .agent
  | .load .. => .agent
  | .store .. => .agent
  | .gather .. => .agent
  | .scatter .. => .agent
  | .decomp .. => .dce
  | _ => .copier

/-- The base-die port through which an entry of SC n reaches memory: its engine's, or a storage port's (R282). -/
def Work.port (w : Work) (n : Nat) : Nat :=
  match w with
  | .nvme port _ _ _ _ _ _ => storePort (port / 2)
  | w => match w.engine with
    | .agent => streamPort n
    | .dce => dcePort (n / 2)
    | _ => copyPort n

/-- How an entry of SC n reaches memory. -/
def Entry.via (n : Nat) (e : Entry) : Via :=
  { sc := n, port := e.work.port n, root := e.ptb, dce := e.work.engine == .dce }

/-! ## Parts (R309) -/

/-- How many bytes from byte k on, of at most `fuel`, lie in one part, which is aligned to 16 bytes in the address space, or are all
virtual zeros (R309). -/
def partFrom (addr : Nat → Option Nat) (n : Nat) : Nat → Nat → Nat
  | 0, _ => 0
  | fuel + 1, k =>
    if n ≤ k then 0
    else if n ≤ k + 1 then 1
    else match addr k, addr (k + 1) with
      | some a, some b => if b = a + 1 && b % 16 != 0 then partFrom addr n fuel (k + 1) + 1 else 1
      | none, none => partFrom addr n fuel (k + 1) + 1
      | _, _ => 1

/-- The length of the part at byte k. -/
def partLen (addr : Nat → Option Nat) (n k : Nat) : Nat := partFrom addr n 16 k

/-- The parts of n bytes from byte k on, each with its first byte and its length. -/
def partsFrom (addr : Nat → Option Nat) (n : Nat) : Nat → Nat → List (Nat × Nat)
  | 0, _ => []
  | fuel + 1, k =>
    if n ≤ k then []
    else
      let m := max 1 (partLen addr n k)
      (k, m) :: partsFrom addr n fuel (k + m)
def partsOf (addr : Nat → Option Nat) (n : Nat) : List (Nat × Nat) := partsFrom addr n n 0

/-- The parts of elements of k bytes each, one element after the other. -/
def elemParts (addr : Nat → Nat → Option Nat) (k : Nat) (is : List Nat) : List (Nat × Nat) :=
  is.flatMap (fun i => (partsOf (addr i) k).map (fun p => (k * i + p.1, p.2)))

/-- Are two parts the halves of one sector, next to each other? -/
def mates (addr : Nat → Option Nat) (u w : Nat × Nat) : Bool :=
  w.1 == u.1 + u.2 && match addr (w.1 - 1), addr w.1 with
    | some a, some b => b == a + 1 && b % 32 != 0
    | _, _ => false

/-- The accesses that may move some of the parts left, each with the parts it moves, its first byte and its length: one part, or the two
of one sector in one request (R283). -/
def requests (addr : Nat → Option Nat) : List (Nat × Nat) → List (List Nat × Nat × Nat)
  | [] => []
  | [u] => [([u.1], u.1, u.2)]
  | u :: w :: t =>
    (if mates addr u w then [([u.1, w.1], u.1, u.2 + w.2)] else []) ++ ([u.1], u.1, u.2) :: requests addr (w :: t)

/-- Addresses of m bytes from byte k on. -/
def addrsFrom (addr : Nat → Option Nat) (k m : Nat) : List (Option Nat) := (List.range m).map (fun i => addr (k + i))

/-- The words of a row as bytes, and bytes as the words of a row, zero-padded. -/
def rowBytes (v : Row) : List Byte := v.flatMap (fun w => natBytes 4 w.toNat)
def bytesRow (len : Nat) (bs : List Byte) : Row :=
  (List.range len).map (fun i => BitVec.ofNat 32 (fieldAt bs (4 * i) 4))

/-- Bytes of one row of a stream. -/
def Stream.rowSize (st : Stream) : Nat := 4 * st.rowLen

/-- Bytes put at the addresses they have; the others are discarded. -/
def placed (as : List (Option Nat)) (bs : List Byte) : List (Nat × Byte) :=
  (as.zip bs).filterMap (fun p => p.1.map (fun a => (a, p.2)))

/-! ## The flows of a job -/

/-- One flow of a job's data, `total` bytes: the stream it comes from or goes to, or the addresses and the parts of a side that is in
memory, and the elements that it combines at their homes, by their first bytes. -/
structure Flow where
  total : Nat := 0
  src : Option Nat := none
  dst : Option Nat := none
  ax : Nat → Option Nat := fun _ => none
  ay : Nat → Option Nat := fun _ => none
  rd : List (Nat × Nat) := []
  wr : List (Nat × Nat) := []
  el : List Nat := []

/-- How far a flow is: bytes read and written, parts read and written, and the bytes between by their place. -/
structure Move where
  got : Nat := 0
  put : Nat := 0
  seen : List Nat := []
  wrote : List Nat := []
  mid : Tab Byte := []
  deriving DecidableEq, Repr, Inhabited

/-- The two flows of an entry as they stand. -/
def Entry.at' (e : Entry) : Bool → Move
  | false => { got := e.done, put := e.idone, seen := e.seen, wrote := e.wrote, mid := e.mid }
  | true => { got := e.xdone, put := e.xput, seen := e.xseen, wrote := e.xwrote, mid := e.xmid }
def Entry.setAt (e : Entry) (x : Bool) (m : Move) : Entry :=
  if x then { e with xdone := m.got, xput := m.put, xseen := m.seen, xwrote := m.wrote, xmid := m.mid }
  else { e with done := m.got, idone := m.put, seen := m.seen, wrote := m.wrote, mid := m.mid }

/-- The address of byte k of a memory side; a stream has none. -/
def Side.addr : Side → Nat → Option Nat
  | .win r, k => r.byteAddr k
  | .range lo _, k => some (lo + k)
  | .str _, _ => none

/-- The stream a side is. -/
def Side.stream : Side → Option Nat
  | .str d => some d
  | _ => none

/-- The parts of a side of n bytes that is in memory. -/
def Side.parts (x : Side) (n : Nat) : List (Nat × Nat) :=
  match x with
  | .str _ => []
  | x => partsOf x.addr n

/-- The flow from one side to another (R216, R224). -/
def pairFlow (x y : Side) (n : Nat) : Flow :=
  { total := n, src := x.stream, dst := y.stream, ax := x.addr, ay := y.addr, rd := x.parts n, wr := y.parts n }

/-- The flow from a side to elements of k bytes that are combined one by one (R226, R227). -/
def accFlow (x : Side) (n k : Nat) : Flow :=
  { total := n, src := x.stream, ax := x.addr, rd := x.parts n, el := (List.range (n / k)).map (k * ·) }

/-- Byte addresses of element j of a window; none where it is not inside, or j is beyond the window. -/
def Rec.elemAddrs (r : Rec) (j : Nat) : List (Option Nat) :=
  (List.range r.eb).map (fun b => if j < r.total then r.byteAddr (j * r.eb + b) else none)

/-- The address of byte b of the element that index word i of a job names (R217). -/
def Entry.idxAddr (e : Entry) (r : Rec) (i b : Nat) : Option Nat :=
  match e.idx[i]? with
  | some j => if j < r.total then r.byteAddr (j * r.eb + b) else none
  | none => none

/-- The address of byte k of the elements that a job's index words name. -/
def Entry.idxByte (e : Entry) (r : Rec) (k : Nat) : Option Nat := e.idxAddr r (k / r.eb) (k % r.eb)

/-- May element i of a scatter be written: every earlier one of the same index has been, so that the highest stands (R217)? -/
def Entry.scatterDue (e : Entry) (r : Rec) (i : Nat) : Bool :=
  (List.range i).all (fun k => e.idx[k]? != e.idx[i]?
    || ((partsOf (e.idxAddr r k) r.eb).all (fun p => e.wrote.contains (r.eb * k + p.1))))

/-- The bytes of the block that a transform makes from one (R228): its elements, then its exponent pair. -/
def Rec.bxAddr (r : Rec) (k : Nat) : Option Nat := if k < r.size then r.byteAddr k else r.expAddr (k - r.size)

/-- Stream bytes of one block of a BX window. -/
def Rec.blockSize (r : Rec) : Nat := if r.fmt = 3 then 32 else 16

/-- The parts of a BX window and of its exponent pairs, block by block. -/
def Rec.bxParts (r : Rec) : List (Nat × Nat) :=
  (List.range r.blocks).flatMap (fun b =>
    ((partsOf (fun k => r.byteAddr (r.blockSize * b + k)) r.blockSize).map (fun p => (r.blockSize * b + p.1, p.2)))
      ++ ((partsOf (fun k => r.expAddr (2 * b + k)) 2).map (fun p => (r.size + 2 * b + p.1, p.2))))

/-- The data of an entry. -/
def Entry.flow (e : Entry) : Flow :=
  match e.work with
  | .load r d _ => pairFlow (.win r) (.str d) r.size
  | .store r d _ => pairFlow (.str d) (.win r) r.size
  | .copy x y k => pairFlow x y k
  | .gather r d _ k =>
    { total := k * r.eb, dst := some d, ax := e.idxByte r, rd := elemParts (e.idxAddr r) r.eb (List.range e.idx.length) }
  | .scatter r d _ k =>
    { total := k * r.eb, src := some d, ay := e.idxByte r,
      wr := elemParts (e.idxAddr r) r.eb ((List.range e.idx.length).filter (e.scatterDue r)) }
  | .scadd r d _ k _ => { total := k * r.eb, src := some d, el := (List.range e.idx.length).map (r.eb * ·) }
  | .acc x r _ => accFlow x r.size r.eb
  | .casStream d r _ _ => accFlow (.str d) r.size r.eb
  | .quant q _ => { total := q.size, ax := q.byteAddr, rd := partsOf q.byteAddr q.size }
  | .dequant q _ => { total := q.size + 2 * q.blocks, ax := q.bxAddr, rd := q.bxParts }
  | .decomp _ k d _ _ => { total := 256 * k, dst := some d }
  | .nvme _ _ _ k _ lb dst => { total := k * lb, dst := dst.stream, ay := dst.addr, wr := dst.parts (k * lb) }
  | .rput x k _ => { total := k, src := x.stream, ax := x.addr, rd := x.parts k }
  | .racc x k _ => { total := k, src := x.stream, ax := x.addr, rd := x.parts k }
  | .rget y k _ => { total := k, dst := y.stream, ay := y.addr, wr := y.parts k }
  | _ => {}

/-- Its second flow: exponent pairs (R216), old values (R227), or what a transform has made (R228). -/
def Entry.flow2 (e : Entry) : Flow :=
  match e.work with
  | .load r _ (some y) =>
    { total := 2 * r.blocks, dst := some y, ax := r.expAddr, rd := partsOf r.expAddr (2 * r.blocks) }
  | .store r _ (some y) =>
    { total := 2 * r.blocks, src := some y, ay := r.expAddr, wr := partsOf r.expAddr (2 * r.blocks) }
  | .casStream _ r out _ => { total := r.size, dst := some out }
  | .quant _ r => { total := r.size + 2 * r.blocks, ay := r.bxAddr, wr := r.bxParts }
  | .dequant _ r => { total := r.size, ay := r.byteAddr, wr := partsOf r.byteAddr r.size }
  | _ => {}

/-- The index stream of an entry, and how many words of it are used (R217). -/
def Entry.index (e : Entry) : Option (Nat × Nat) :=
  match e.work with
  | .gather _ _ i k => some (i, k)
  | .scatter _ _ i k => some (i, k)
  | .scadd _ _ i k _ => some (i, k)
  | _ => none

/-! ## What a job may do next -/

/-- One action of a job, in its first flow or (`x`) its second: a row of w bytes published in a stream, an access of memory, by the parts
it moves, its first byte and its length, an element combined, a row of a stream consumed, or an index word used. -/
inductive Mv where
  | push (x : Bool) (d w : Nat)
  | write (x : Bool) (ps : List Nat) (k m : Nat)
  | elem (k : Nat)
  | read (x : Bool) (ps : List Nat) (k m : Nat)
  | row (x : Bool) (d : Nat)
  | index (i : Nat)
  deriving DecidableEq, Repr, Inhabited

/-- The parts of a flow still to be read, and those that can be written now: not yet written, all of their bytes there. -/
def Flow.unread (f : Flow) (m : Move) : List (Nat × Nat) := f.rd.filter (fun u => !m.seen.contains u.1)
def Flow.unsent (f : Flow) (m : Move) : List (Nat × Nat) := f.wr.filter (fun u => !m.wrote.contains u.1 && thasAll m.mid u.1 u.2)

/-- The elements of k bytes that can be combined now. -/
def Flow.uncombined (f : Flow) (m : Move) (k : Nat) : List Nat := f.el.filter (fun j => !m.wrote.contains j && thasAll m.mid j k)

/-- The bytes of the next row that a flow publishes: a whole row, or what is left. -/
def Flow.rowLen (f : Flow) (m : Move) (st : Stream) : Nat := min st.rowSize (f.total - m.put)

/-- Element bytes of the elements an entry combines. -/
def Entry.elemBytes (e : Entry) : Nat :=
  match e.work with
  | .acc _ r _ => r.eb
  | .casStream _ r _ _ => r.eb
  | .scadd r _ _ _ _ => r.eb
  | _ => 1

/-- Is byte k of what a flow gives a stream in a position that is free now?  An agent waits for it before it reads (R151, R216). -/
def State.hasPlace (s : State) (n : Nat) (f : Flow) (m : Move) (k : Nat) : Bool :=
  match f.dst with
  | some d => decide (k < m.put + (s.stream n d).space * (s.stream n d).rowSize)
  | none => true

/-- What a flow of an entry may do now: a row published in order, where its bytes are there and a position is free (R151), parts written
and elements combined, parts read, and a row of its source stream consumed. -/
def State.flowMoves (s : State) (n : Nat) (e : Entry) (x : Bool) (f : Flow) : List Mv :=
  let m := e.at' x
  (match f.dst with
    | some d =>
      let w := f.rowLen m (s.stream n d)
      if 0 < w && thasAll m.mid m.put w && (s.stream n d).space != 0 then [.push x d w] else []
    | none => [])
  ++ (requests f.ay (f.unsent m)).map (fun q => .write x q.1 q.2.1 q.2.2)
  ++ (f.uncombined m e.elemBytes).map .elem
  ++ (requests f.ax ((f.unread m).filter (fun u => s.hasPlace n f m u.1))).map (fun q => .read x q.1 q.2.1 q.2.2)
  ++ (match f.src with
    | some d => if m.got < f.total && (s.stream n d).filled != 0 then [.row x d] else []
    | none => [])

/-- Everything an entry may do now with its data.  The rules give these no order (R309): any may be next. -/
def State.moves (s : State) (n : Nat) (e : Entry) : List Mv :=
  s.flowMoves n e false e.flow ++ s.flowMoves n e true e.flow2
    ++ (match e.index with
      | some (i, k) => if e.idx.length < k && (s.stream n i).filled != 0 then [.index i] else []
      | none => [])

/-- One of several, by the next free value (log 10), and how many free values that took. -/
def State.pickOne {α : Type} (s : State) : List α → Option (α × Nat)
  | [] => none
  | [x] => some (x, 0)
  | x :: y :: l => ((x :: y :: l)[s.freeVal % (l.length + 2)]?).map (fun z => (z, 1))

/-! ## Doing it -/

/-- A row consumed, and the bytes of it; a row published. -/
def Stream.frontBytes (st : Stream) : List Byte := rowBytes (st.row st.rp)
def Stream.pushBytes (st : Stream) (bs : List Byte) : Stream := (st.putRow st.wp (bytesRow st.rowLen bs)).publish 1

/-- Bytes that have come for a flow, from its byte k on. -/
def Move.take (m : Move) (ps : List Nat) (k : Nat) (bs : List Byte) : Move :=
  { m with got := m.got + bs.length, seen := ps ++ m.seen, mid := tputs m.mid k bs }

/-- Bytes k to k + n - 1 of a flow have left it. -/
def Move.give (m : Move) (ps : List Nat) (k n : Nat) : Move :=
  { m with put := m.put + n, wrote := ps ++ m.wrote, mid := tdels m.mid k n }

/-- The key bits of block b of a BX window (R90). -/
def Rec.signs (r : Rec) (b : Nat) : List Bool :=
  (List.range 32).map (fun i => signKey (BitVec.ofNat 64 r.seed) (BitVec.ofInt 64 (r.lin (32 * b) + (i : Int))))

/-- The bytes of a block's elements (R86). -/
def packBx (eight : Bool) (els : List Nat) : List Byte :=
  if eight then els.map (BitVec.ofNat 8)
  else (List.range 16).map (fun i => BitVec.ofNat 8 (els.getD (2 * i) 0 + 16 * els.getD (2 * i + 1) 0))

/-- The elements of a block's bytes. -/
def unpackBx (eight : Bool) (bs : List Byte) : List Nat :=
  if eight then bs.map BitVec.toNat else bs.flatMap (fun b => [b.toNat % 16, b.toNat / 16])

/-- The elements and the exponent pair of block b of a BX window, from the 128 bytes of its f32 elements (R88-R90, R228). -/
def Rec.quantized (r : Rec) (b : Nat) (bs : List Byte) : List Byte × List Byte :=
  let z := bxBlock (r.fmt == 3) (bxForward (r.signs b) ((List.range 32).map (fun i => BitVec.ofNat 32 (fieldAt bs (4 * i) 4))))
  (packBx (r.fmt == 3) z.2.2, [BitVec.ofNat 8 z.1, BitVec.ofNat 8 z.2.1])

/-- The 128 bytes of the f32 elements of block b of a BX window, from the block's elements and exponent pair (R87, R90, R228). -/
def Rec.dequantized (q : Rec) (b : Nat) (bs ex : List Byte) : List Byte :=
  let e0 := fieldAt ex 0 1
  let e1 := fieldAt ex 1 1
  let ys := (unpackBx (q.fmt == 3) bs).map (fun el => if q.fmt = 3 then bx8Val el e0 e1 else bx4Val el e0 e1)
  (bxInverse (q.signs b) ys).flatMap (fun w => natBytes 4 w.toNat)

/-- Block b of a transform made, once all of its source has been read (R228). -/
def Entry.makeBlock (e : Entry) (b : Nat) : Entry :=
  match e.work with
  | .quant _ r =>
    if thasAll e.mid (128 * b) 128 then
      let z := r.quantized b (tgets e.mid (128 * b) 128 0)
      { e with mid := tdels e.mid (128 * b) 128,
               xmid := tputs (tputs e.xmid (r.blockSize * b) z.1) (r.size + 2 * b) z.2 }
    else e
  | .dequant q _ =>
    if thasAll e.mid (q.blockSize * b) q.blockSize && thasAll e.mid (q.size + 2 * b) 2 then
      { e with mid := tdels (tdels e.mid (q.blockSize * b) q.blockSize) (q.size + 2 * b) 2,
               xmid := tputs e.xmid (128 * b)
                 (q.dequantized b (tgets e.mid (q.blockSize * b) q.blockSize 0) (tgets e.mid (q.size + 2 * b) 2 0)) }
    else e
  | _ => e

/-- The block of a transform that byte k of its source belongs to. -/
def Work.blockOf (w : Work) (k : Nat) : Nat :=
  match w with
  | .dequant q _ => if k < q.size then k / q.blockSize else (k - q.size) / 2
  | _ => k / 128

/-- The blocks made that an access of m bytes from byte k on has completed the source of. -/
def Entry.transformed (e : Entry) (k m : Nat) : Entry :=
  (e.makeBlock (e.work.blockOf k)).makeBlock (e.work.blockOf (k + m - 1))

/-- Element j of a window combined, and its old value; one that is not inside has none (R226). -/
def State.accElem (s : State) (v : Via) (r : Rec) (op j : Nat) (bs : List Byte) : Nat × State :=
  if j < r.total && r.inside j then s.agentAcc v (r.elemAddr j) op r.fmt (bytesNat bs) else (0, s)

/-- The element at byte k of an entry's data combined (R226, R227). -/
def State.combine (s : State) (v : Via) (e : Entry) (k : Nat) : Nat × State :=
  let bs := tgets e.mid k e.elemBytes 0
  match e.work with
  | .acc _ r op => s.accElem v r op (k / r.eb) bs
  | .casStream _ r _ op => s.accElem v r op (k / r.eb) bs
  | .scadd r _ _ _ op => s.accElem v r op ((e.idx[k / r.eb]?).getD 0) bs
  | _ => (0, s)

/-- The old value of an element kept for the output stream of a SCAS (R227). -/
def Entry.keepOld (e : Entry) (k old : Nat) : Entry :=
  match e.work with
  | .casStream _ r _ _ => { e with xmid := tputs e.xmid k (natBytes r.eb old) }
  | _ => e

/-- The first and the second flow of an entry. -/
def Entry.flowAt (e : Entry) (x : Bool) : Flow := if x then e.flow2 else e.flow

/-- The index word that stream i gives an entry next. -/
def State.indexWord (s : State) (n i : Nat) (e : Entry) : Nat :=
  let st := s.stream n i
  ((st.row st.rp).getD (e.idx.length % st.rowLen) 0).toNat

/-- One action of entry e of SC n. -/
def State.doMove (s : State) (n : Nat) (e : Entry) (mv : Mv) : State :=
  let v := e.via n
  let put := fun (t : State) (g : Entry → Entry) => t.modEntry n e.id g
  match mv with
  | .push x d w =>
    let m := e.at' x
    put (s.setStream n d ((s.stream n d).pushBytes (tgets m.mid m.put w 0))) (fun e => e.setAt x ((e.at' x).give [] m.put w))
  | .write x ps k m =>
    put (s.agentWrite v (placed (addrsFrom (e.flowAt x).ay k m) (tgets (e.at' x).mid k m 0)))
      (fun e => e.setAt x ((e.at' x).give ps k m))
  | .elem k =>
    let r := s.combine v e k
    put r.2 (fun y => (y.setAt false ((y.at' false).give [k] k e.elemBytes)).keepOld k r.1)
  | .read x ps k m =>
    let r := s.agentRead v (addrsFrom (e.flowAt x).ax k m)
    put r.2 (fun e => (e.setAt x ((e.at' x).take ps k r.1)).transformed k m)
  | .row x d =>
    let st := s.stream n d
    let m := e.at' x
    put (s.setStream n d (st.consume 1)) (fun e => e.setAt x (m.take [] m.got (st.frontBytes.take ((e.flowAt x).total - m.got))))
  | .index i =>
    let st := s.stream n i
    let k := e.idx.length + 1
    let last := match e.index with | some p => p.2 | none => 0
    put (if k % st.rowLen = 0 || k == last then s.setStream n i (st.consume 1) else s)
      (fun y => { y with idx := y.idx ++ [s.indexWord n i e] })

/-- An entry's data moved once, where it can be. -/
def State.moveData (s : State) (n : Nat) (e : Entry) : Option State :=
  (s.pickOne (s.moves n e)).map (fun p => (s.useFree p.2).doMove n e p.1)

/-- The first of two that can go on. -/
def orElse' (a : Option State) (b : Option State) : Option State := match a with | some t => some t | none => b

/-! ## Fills, register-form SCAS and SDECOMP (R213, R227, R229) -/

/-- One position of SFILL (R213). -/
def State.fillOnce (s : State) (n : Nat) (e : Entry) (d : Nat) (v : W32) (keep : Bool) (cnt : Nat) : Option State :=
  let st := s.stream n d
  if cnt ≤ e.idone || st.space = 0 then none
  else
    let st := if keep then st else st.putRow st.wp (List.replicate st.rowLen v)
    some ((s.setStream n d (st.publish 1)).modEntry n e.id (fun e => { e with idone := e.idone + 1 }))

/-- A value given to a register of an owner's context that waits for it under a mark (R188, R315): in a context, or in a
descheduled task. -/
def Ctx.fill (x : Ctx) (reg mark : Nat) (v : Word) : Ctx :=
  if x.unfilled.contains mark then { x.setReg reg v with unfilled := x.unfilled.filter (· != mark) } else x

/-- The same, wherever the owner is. -/
def State.fillReg (s : State) (n : Nat) (o : Owner) (reg mark : Nat) (v : Word) : State :=
  match o with
  | .ctx c => if c < 20 then s.modCtx n c (fun x => x.fill reg mark v) else s
  | .task h =>
    if s.futLive h then
      match s.locate (futKey h) with
      | .inCtx m c => s.modCtx m c (fun x => x.fill reg mark v)
      | .asleep _ => { s with sleepers := tmod s.sleepers (futKey h) (fun z => { z with ctx := z.ctx.fill reg mark v }) }
      | .nowhere => s
    else s

/-- A compare-and-swap of an element on another package, for which there is no operation: whether it puts its new value there, and the
old value, are free values (DESIGN CHOICE, log 82). -/
def State.farCas (s : State) (pa : Nat) (bs : List Byte) : Nat × State :=
  let t := s.useFree 2
  (s.freeVal, if Config.freeNat (s.free + 1) % 2 = 1 then t.addFar { pa := pa, data := bs } else t)

/-- A compare-and-swap of one element at a virtual address, and its old value. -/
def State.agentCas (s : State) (v : Via) (va k cmp new : Nat) : Nat × State :=
  match s.place v.sc v.root true va with
  | .here a =>
    if inRegs a then (0, s)
    else
      let t := (s.touchAll v.sc (!v.dce) v.root [va]).performEarlier v.port a k
      (t.readNat a k, t.compareSwap a k cmp new)
  | .far pa => s.farCas pa (natBytes k new)
  | q => (0, s.countMiss v.sc [q])

/-- Register-form SCAS: one atomic access, and the old value delivered (R227). -/
def State.casRegOnce (s : State) (n : Nat) (e : Entry) (reg va tc op : Nat) (x y : Word) : Option State :=
  if e.idone ≠ 0 then none
  else
    let fmt := tcFmt (BitVec.ofNat 2 tc)
    let k := accBytes fmt
    let p := if op = 7 then s.agentCas (e.via n) va k (x.toNat % 2 ^ (8 * k)) (y.toNat % 2 ^ (8 * k))
      else s.agentAcc (e.via n) va op fmt (x.toNat % 2 ^ (8 * k))
    some ((p.2.fillReg n e.owner reg reg (extend (tc == 2) k (p.1 % 2 ^ (8 * k)))).modEntry n e.id (fun e => { e with idone := 1 }))

/-- The sectors that SDECOMP reads of a block by its tag byte: none of a malformed one (R229, R295). -/
def blockSectors (tag : Nat) : Nat := if tag = 15 then 8 else if tag ≤ 6 then tag + 1 else 0

/-- The next block of SDECOMP expanded; the DCE translates through its die's TLB (R229, R288). -/
def State.decompOnce (s : State) (n : Nat) (e : Entry) (va cnt d tags : Nat) (wide : Bool) : Option State :=
  if cnt ≤ e.done || !s.hasPlace n e.flow (e.at' false) (256 * e.done) then none
  else
    let p := s.agentRead (e.via n) [some (tags + e.done)]
    let tag := fieldAt p.1 0 1
    let q := p.2.agentRead (e.via n) (addrsFrom (fun k => some (va + 256 * e.done + k)) 0 (32 * blockSectors tag))
    let out := if tag < 16 then milleDecode wide tag q.1 else none
    let t := match out with
      | some _ => q.2
      | none =>
        let st := q.2.stream n d
        q.2.setStream n d { st with derr := min 0x7FFF (st.derr + 1) }
    some (t.modEntry n e.id (fun e =>
      { e with done := e.done + 1, mid := tputs e.mid (256 * e.done) (out.getD (List.replicate 256 0)) }))

/-! ## Remote jobs (R189, R232) -/

/-- The ordered operation of a work. -/
def Work.ordTo : Work → Option Nat
  | .rput _ _ r => if r.ord then some (pkgOf r.addr) else none
  | .rsig r => some (pkgOf r.addr)
  | _ => none

/-- Is there an ordered operation to a package, issued earlier, that has yet to be sent (R233)? -/
def State.ordBefore (s : State) (k q : Nat) : Bool :=
  s.scs.any (fun p => p.2.entries.any (fun e => decide (e.seq < k) && e.work.ordTo == some q && !e.sent))

/-- The operation of a remote job sent, with the bytes it has read, once its source has been read, its pair has room (R374, R376), and
the ordered ones issued before it have been sent (R233). -/
def State.sendWhen (s : State) (n : Nat) (e : Entry) (op : Nat) (r : Remote) (len : Nat) : Option State :=
  if e.sent || (r.ord && s.ordBefore e.seq (pkgOf r.addr)) then none
  else if s.opRoom (pkgOf r.addr) ((len + 2047) / 2048 + 1) then
    some ((s.modEntry n e.id (fun e => { e with sent := true, mid := [], done := 0 })).sendOp n e.id op r
      (if op = 2 then [] else tgets e.mid 0 e.done 0) len)
  else none

/-- RPUT, RPUTH and RACC: once the source has been read, the operation is sent. -/
def State.putOnce (s : State) (n : Nat) (e : Entry) (len op : Nat) (r : Remote) : Option State :=
  if e.done < len then none else s.sendWhen n e op r len

/-! ## Storage jobs (R230, R289) -/

/-- The 128 KiB granules that n destination bytes from byte `o` on touch (R289). -/
def granules (va : Nat → Option Nat) (o n : Nat) : List Nat :=
  ((List.range n).filterMap (fun i => (va (o + i)).map (· / 131072))).dedup

/-- k blocks from destination byte `o` on, and up to `fuel` more, as long as they lie in one granule. -/
def cmdGrow (va : Nat → Option Nat) (lb o : Nat) : Nat → Nat → Nat
  | 0, k => k
  | fuel + 1, k => if (granules va o ((k + 1) * lb)).length ≤ 1 then cmdGrow va lb o fuel (k + 1) else k

/-- The largest count of blocks in one command from destination byte `o` on (R289): within the controller's limit, and
not past a 128 KiB boundary of the destination. -/
def cmdBlocks (port lb o left : Nat) (va : Nat → Option Nat) : Nat :=
  cmdGrow va lb o (min left (Config.maxBlocksPred port + 1) - 1) 1

/-- The commands of a storage read: first block and count of each, in order. -/
def cmdsFrom (port lb : Nat) (va : Nat → Option Nat) (count : Nat) : Nat → Nat → List (Nat × Nat)
  | 0, _ => []
  | fuel + 1, b =>
    if count ≤ b then []
    else
      let k := cmdBlocks port lb (b * lb) (count - b) va
      (b, k) :: cmdsFrom port lb va count fuel (b + k)

/-- The byte addresses a storage read's destination has in the 128 KiB grid; those of a stream are its bytes' places (DEDUCED,
log 25). -/
def sideAt (x : Side) (k : Nat) : Option Nat :=
  match x with
  | .str _ => some k
  | _ => x.addr k

/-- The commands of an entry that is a storage read. -/
def nvmeCmds (port lb count : Nat) (dst : Side) : List (Nat × Nat) := cmdsFrom port lb (sideAt dst) count count 0

/-- Has every command of a storage read answered? -/
def Entry.answered (e : Entry) (cmds : List (Nat × Nat)) : Bool := (List.range cmds.length).all (fun i => thas e.parts i)

/-- How many commands a storage port takes at a time: its queues hold what firmware made of them, at most 64 pairs of depth 1,024
(R289). -/
def nvmeRoom (port : Nat) : Nat := Config.nvmeRoom port % 65536 + 1

/-- The next command of a storage read sent, where the port is in RUN and its queues have room: full queues delay the job (R289). -/
def State.nvmeSend (s : State) (n : Nat) (e : Entry) (port k : Nat) : Option State :=
  let i := e.since.length
  if e.sent || s.port (2 + port) ≠ .run || nvmeRoom port ≤ s.nvmeOut port then none
  else some (s.modEntry n e.id (fun e => { e with since := tput e.since i s.tb, sent := decide (k ≤ i + 1) }))

/-! ## The next action of an entry -/

/-- What a started entry does once no data of it can move, if it can do anything: most only move data. -/
def State.moveElse (s : State) (n : Nat) (e : Entry) : Option State :=
  match e.work with
  | .sfree d => if e.idone = 0 then some ((s.freeStream n d).modEntry n e.id (fun e => { e with idone := 1 })) else none
  | .sreset d =>
    if e.idone = 0 then
      some ((s.setStream n d { s.stream n d with rp := 0, wp := 0, len := 0, data := [] }).modEntry n e.id
        (fun e => { e with idone := 1 }))
    else none
  | .fill d v keep k => s.fillOnce n e d v keep k
  | .casReg reg va tc op x y => s.casRegOnce n e reg va tc op x y
  | .decomp va k d tags wide => s.decompOnce n e va k d tags wide
  | .nvme port _ _ k _ lb dst => s.nvmeSend n e port (nvmeCmds port lb k dst).length
  | .rput _ k r => s.putOnce n e k (if r.handler.isSome then 1 else 0) r
  | .rget _ k r => s.sendWhen n e 2 r k
  | .racc _ k r => s.putOnce n e k 4 r
  | .rsig r => s.sendWhen n e 5 r 0
  | _ => none

/-- Is there data of an entry that may move?  A remote operation's until it has been sent, and an RGET's once all has come. -/
def Entry.movable (e : Entry) : Bool :=
  match e.work with
  | .rput .. => !e.sent
  | .racc .. => !e.sent
  | .rget .. => e.sent && e.remote.isEmpty
  | _ => true

/-- The next action of a started entry, if it has one now. -/
def State.moveJob (s : State) (n : Nat) (e : Entry) : Option State :=
  orElse' (if e.movable then s.moveData n e else none) (s.moveElse n e)

/-- Bytes a side's exponents have, where they move. -/
def expBytes (r : Rec) (x : Option Nat) : Nat := if x.isSome then 2 * r.blocks else 0

/-- Has a started entry done everything that retirement needs (R174)? -/
def Entry.finished (e : Entry) : Bool :=
  match e.work with
  | .run => false
  | .sfree _ => e.idone == 1
  | .sreset _ => e.idone == 1
  | .fill _ _ _ k => decide (k ≤ e.idone)
  | .load r _ x => decide (r.size ≤ e.idone) && decide (expBytes r x ≤ e.xput)
  | .store r _ x => decide (r.size ≤ e.idone) && decide (expBytes r x ≤ e.xput)
  | .gather r _ _ k => decide (k * r.eb ≤ e.idone) && decide (k ≤ e.idx.length)
  | .scatter r _ _ k => decide (k * r.eb ≤ e.idone) && decide (k ≤ e.idx.length)
  | .copy _ _ k => decide (k ≤ e.idone)
  | .acc _ r _ => decide (r.size ≤ e.idone)
  | .casStream _ r _ _ => decide (r.size ≤ e.xput)
  | .casReg .. => e.idone == 1
  | .scadd r _ _ k _ => decide (k * r.eb ≤ e.idone) && decide (k ≤ e.idx.length)
  | .quant _ r => decide (r.size + 2 * r.blocks ≤ e.xput)
  | .dequant _ r => decide (r.size ≤ e.xput)
  | .decomp _ k _ _ _ => decide (256 * k ≤ e.idone)
  | .nvme port _ _ k _ lb dst => e.sent && e.answered (nvmeCmds port lb k dst) && decide (k * lb ≤ e.idone)
  | .rput _ k _ => e.sent || decide (k ≤ e.done)
  | .racc _ k _ => e.sent || decide (k ≤ e.done)
  | .rsig _ => true
  | .rget _ k _ => e.sent && e.remote.isEmpty && decide (k ≤ e.idone)

/-- Does a started entry hold its copy engine: its data phase is not over (R189)? -/
def Entry.onEngine (e : Entry) : Bool :=
  e.st == .started && e.work.engine == .copier
    && (match e.work with
        | .nvme .. => !e.sent
        | .rget .. => !e.sent
        | .rput _ k _ => !e.sent && decide (e.done < k)
        | .racc _ k _ => !e.sent && decide (e.done < k)
        | .rsig _ => false
        | _ => !e.finished)

/-! ## Starting (R171, R189) -/

/-- Is an engine free for an entry? -/
def Sc.engineFree (t : Sc) (e : Entry) : Bool :=
  e.work.engine != .copier || decide ((t.entries.filter Entry.onEngine).length < 4)

/-- Could an entry, not a kernel run, start now?  DEDUCED (log 93): also one of a descheduled task, whose WAITING entries R166 lets stay:
R171 names no condition but its own. -/
def Sc.couldStart (t : Sc) (e : Entry) : Bool :=
  e.st == .waiting && e.work.engine != .none && t.edgesMet e && t.jobFree && t.engineFree e

/-- ENTRY_START (R171): the entry issued first among those that could start on its engine. -/
def execEntryStart (n e : Nat) (s : State) : Result :=
  let t := s.sc n
  .next (match t.entry? e with
    | none => s
    | some x =>
      if t.couldStart x && !t.entries.any (fun y => y.id < e && y.work.engine == x.work.engine && t.couldStart y) then
        s.modSc n (fun t => t.start e)
      else s)

/-! ## Accesses of other packages (R276) -/

/-- Puts and accumulations of a step sent as class UNO operations of its job, if all of them have room. -/
def State.sendFars (n e : Nat) : List FarOp → State → Option State
  | [], s => some s
  | o :: os, s =>
    if s.opRoom (pkgOf o.pa) (o.data.length / 2048 + 1) then
      let r : Remote := { addr := o.pa, op := ((o.acc.map Prod.fst).getD 0), ty := ((o.acc.map Prod.snd).getD 0) }
      State.sendFars n e os (s.sendOp n e (if o.acc.isSome then 4 else 0) r o.data o.data.length)
    else none

/-- The bytes that a step lacks asked for, the first run of them, unless the job has operations under way. -/
def State.fetchFar (s : State) (n : Nat) (e : Entry) (miss : List Nat) : Option State :=
  match e.remote, runsOf (miss.map (fun a => (a, 0))) with
  | [], (a, bs) :: _ =>
    if s.opRoom (pkgOf a) 1 then some (s.sendOp n e.id 2 { addr := a } [] bs.length (some a)) else none
  | _, _ => none

/-- The state as a step of a job sees it: the bytes of other packages that the job has, and no access of them made yet (R276). -/
def State.jobView (s : State) (e : Entry) : State := s.modFab (fun b => { b with farGot := e.far, farMiss := [], farOps := [] })

/-- The step of a job whose accesses may be of other packages (R276): one that lacks bytes of them has no effect but to ask for these,
and is made when they have come; what it writes or accumulates there is sent as operations of the job, for which its retirement
waits. -/
def State.farStep (s : State) (n : Nat) (e : Entry) (f : State → Option State) : Option State :=
  let clear := fun (b : Fabric) => { b with farGot := [], farMiss := [], farOps := [] }
  match f (s.jobView e) with
  | none => none
  | some t =>
    let r := if t.fab.farMiss.isEmpty then State.sendFars n e.id t.fab.farOps (t.modEntry n e.id (fun e => { e with far := [] }))
      else s.fetchFar n e t.fab.farMiss
    r.map (fun t => t.modFab clear)

/-! ## Moving data -/

/-- The step of a job. -/
def State.jobStep (s : State) (n : Nat) (e : Entry) : Option State := s.farStep n e (fun t => t.moveJob n e)

/-- A started entry of an engine acts; a remote operation that has retired, having read its source, may have yet to be sent (R174). -/
def State.engineTurn (s : State) (g : Engine) (n e : Nat) : State :=
  match (s.sc n).entry? e with
  | none => s
  | some x => if x.st ≠ .waiting ∧ x.work.engine = g then (s.jobStep n x).getD s else s

/-- STREAM_AGENT_TRANSFER (R397). -/
def execStreamAgentTransfer (n e : Nat) (s : State) : Result := .next (s.engineTurn .agent n e)

/-- COPY_ENGINE_TRANSFER (R189). -/
def execCopyEngineTransfer (n e : Nat) (s : State) : Result := .next (s.engineTurn .copier n e)

/-- The DCE's oldest job of an SC. -/
def Sc.dceJob (t : Sc) : Option Entry := t.entries.find? (fun x => x.st == .started && x.work.engine == .dce && !x.finished)
def Sc.dceFirst (t : Sc) : Option Nat := t.dceJob.map Entry.id

/-- Has an SC DCE work that can go on: can the oldest of its jobs? -/
def State.dceWork (s : State) (n : Nat) : Bool :=
  match (s.sc n).dceJob with
  | some x => (s.jobStep n x).isSome
  | none => false

/-- The other SC of a die. -/
def twin (n : Nat) : Nat := if n % 2 = 0 then n + 1 else n - 1

/-- DCE_BLOCK_WRITE (R288): the two SCs of a die alternate when both have work; an SC's jobs go oldest first. -/
def execDceBlockWrite (n e : Nat) (s : State) : Result :=
  .next (if s.dceWork (twin n) && tgetD s.dceLast (n / 2) (twin n) == n || (s.sc n).dceFirst != some e then s
    else
      let t := s.engineTurn .dce n e
      if t == s then s else { t with dceLast := tput t.dceLast (n / 2) n })

/-! ## Retiring and completing (R174, R212, R222) -/

/-- The length of a stream set. -/
def State.setLen (s : State) (n d k : Nat) : State :=
  let st := s.stream n d
  s.setStream n d { st with len := wrap32 k }

/-- Words that bytes fill. -/
def wordsOf (k : Nat) : Nat := (k + 3) / 4

/-- The length a side gets when it is a stream. -/
def State.sideLen (s : State) (n : Nat) (x : Side) (bytes : Nat) : State :=
  match x with
  | .str d => s.setLen n d (wordsOf bytes)
  | _ => s

/-- Lengths set at an entry's retirement (R222).  DESIGN CHOICE (log 93): the stream of an RGET, which the list of R222 does not name,
gets the words received. -/
def State.retireLens (s : State) (n : Nat) (w : Work) : State :=
  match w with
  | .fill d _ _ k => s.setLen n d ((s.stream n d).rowLen * k)
  | .load r d x =>
    let t := s.setLen n d (wordsOf r.size)
    match x with
    | some y => t.setLen n y (wordsOf (2 * r.blocks))
    | none => t
  | .gather r d _ k => s.setLen n d (wordsOf (k * r.eb))
  | .copy _ y k => s.sideLen n y k
  | .casStream _ r out _ => s.setLen n out (wordsOf r.size)
  | .decomp _ k d _ _ => s.setLen n d (64 * k)
  | .nvme _ _ _ k _ lb dst => s.sideLen n dst (k * lb)
  | .rget y k _ => s.sideLen n y k
  | _ => s

/-- The status area of a storage read written (R230): the failed commands, and the status of the lowest block's. -/
def State.storageStatus (s : State) (n : Nat) (x : Entry) : State :=
  match x.work with
  | .nvme _ _ _ _ status _ _ =>
    if status = 0 then s
    else
      let least := x.fails.foldl (fun (a : Option (Nat × Nat)) f => match a with
        | some b => if f.1 < b.1 then some f else some b
        | none => some f) none
      let bs := natBytes 8 x.fails.length ++ natBytes 8 ((least.map Prod.snd).getD 0)
      (s.agentWrite (x.via n) (placed (addrsFrom (fun k => some (status + k)) 0 16) bs)).modEntry n x.id (fun e =>
        { e with work := match e.work with
          | .nvme p ns lba count _ lb dst => .nvme p ns lba count 0 lb dst
          | w => w })
  | _ => s

/-- Does the work retire before it completes (R174)? -/
def Work.early : Work → Bool
  | .rput .. => true
  | .racc .. => true
  | .rsig _ => true
  | _ => false

/-- An entry completes: the flag is the last act; the job and its pins are freed (R174, R212). -/
def State.completeEntry (s : State) (n : Nat) (x : Entry) : State :=
  let t := match x.flag with
    | some a => s.incFlag n x.ptb a
    | none => s
  t.modSc n (fun t => t.dropEntry x.id)

/-- What an entry that is finished does: a remote operation that reads its source retires, and any other retires and completes at
once, when its status has been written and what it wrote on other packages is acknowledged there (R174, R230, R276). -/
def State.retireEntry (s : State) (n : Nat) (x : Entry) : State :=
  if x.work.early then s.modEntry n x.id (fun x => { x with st := .retired })
  else if !x.remote.isEmpty then s
  else
    match s.farStep n x (fun t => some (t.storageStatus n x)) with
    | none => s
    | some t => match (t.sc n).entry? x.id with
      | some y => if y.remote.isEmpty then (t.retireLens n x.work).completeEntry n x else t
      | none => t

/-- ENTRY_RETIRE (R174). -/
def execEntryRetire (n e : Nat) (s : State) : Result :=
  .next (match (s.sc n).entry? e with
    | none => s
    | some x => if x.st = .started ∧ x.finished = true then s.retireEntry n x else s)

/-- ENTRY_COMPLETE (R174): of an entry that has retired before, its operation sent and acknowledged. -/
def execEntryComplete (n e : Nat) (s : State) : Result :=
  .next (match (s.sc n).entry? e with
    | none => s
    | some x => if x.st = .retired ∧ x.sent = true ∧ x.remote = [] then s.completeEntry n x else s)

/-! ## What is freed later (R177, R179) -/

/-- KERNEL_STORE_RELEASE (R177): a freed image whose last run has retired. -/
def execKernelStoreRelease (n k : Nat) (s : State) : Result :=
  .next (match tget (s.sc n).images k with
    | some i =>
      if i.freed && !(s.sc n).runs.any (fun r => r.2.kernel == k && r.2.gen == i.gen && r.2.phase != .retired) then
        s.modSc n (fun t => { t with images := tdel t.images k })
      else s
    | none => s)

/-- STREAM_DEFERRED_FREE (R179): a stream of an ended or reclaimed task, once no entry that uses it is left. -/
def execStreamDeferredFree (n d : Nat) (s : State) : Result :=
  .next (match tget (s.sc n).streams d with
    | some st =>
      if st.dying && !(s.sc n).entries.any (fun e => e.uses d && e.st != .retired) then s.freeStream n d else s
    | none => s)

end Sys2Proof.Machine
end

