-- ==== Sys2Proof/Machine/BaseDie.lean ====
section
/-!
DEFINITION. The events of a base die: a request performs (R283-R287, R298), a reply arrives (R284, R311, R315), and a hub walker walks
(R273, R278, R280).
-/

namespace Sys2Proof.Machine

/-! ## Packets (R283) -/

/-- A request of a type, where it may perform. -/
def State.atPacket (s : State) (id : Nat) (ty : PktType) (f : Packet → State → State) : State :=
  match tget s.pkts id with
  | none => s
  | some p => if p.ty = ty ∧ s.pktDue id p = true then f p s else s

/-- BASE_DIE_READ (R283). -/
def execBaseDieRead (id : Nat) (s : State) : Result := .next (s.atPacket id .read (fun p t => t.pktRead id p))
/-- BASE_DIE_WRITE (R285). -/
def execBaseDieWrite (id : Nat) (s : State) : Result := .next (s.atPacket id .write (fun p t => t.pktWrite id p))
/-- BASE_DIE_MASKED_WRITE (R285). -/
def execBaseDieMaskedWrite (id : Nat) (s : State) : Result := .next (s.atPacket id .masked (fun p t => t.pktWrite id p))
/-- BASE_DIE_ACCUMULATE (R283). -/
def execBaseDieAccumulate (id : Nat) (s : State) : Result := .next (s.atPacket id .acc (fun p t => t.pktAcc id p))

/-- The value a reply gives a load: the requested bytes of its sector (R314). -/
def Packet.value (p : Packet) (n : Nat) (signed : Bool) : Word :=
  extend signed n (bytesNat ((p.reply.drop (bytesNat p.comp)).take n))

/-- What a reply gives its requester: a load's register its value, the host its completion with the old value (R311, R315). -/
def State.replyTo (s : State) (p : Packet) : State :=
  match p.who with
  | .reg n o r k signed => s.fillReg n o r (r + 32) (p.value k signed)
  | .host port k => if s.port port = .run then s.emit (.host port 0 ((p.reply.drop (bytesNat p.comp)).take k)) else s
  | .none => s

/-- BASE_DIE_REPLY (R284, R315): the tag is free, and the requester has the reply. -/
def execBaseDieReply (id : Nat) (s : State) : Result :=
  .next (match tget s.pkts id with
    | none => s
    | some p => if p.done then State.replyTo { s with pkts := tdel s.pkts id } p else s)

/-! ## Walks (R273, R278, R280) -/

/-- PAGE_WALK (R273): a translation that the SC's TLB does not hold comes from its die's or is walked, and is held where it is valid
(R278). -/
def execPageWalk (n : Nat) (va : Word) (s : State) : Result :=
  .next (match (s.sc n).root with
    | none => s
    | some p => if ((s.sc n).tlbHit (ptbAsid p) va.toNat).isSome then s else s.touch n true (some p) va.toNat)

end Sys2Proof.Machine
end

