-- ==== Sys2Proof/Machine/System.lean ====
section
/-!
DEFINITION. Special registers (R192-R195), fences (R202), the ends and redirections of trap handling (R206) and the context
save area (R207).
-/

namespace Sys2Proof.Machine

/-! ## Special registers (R192-R195) -/

/-- Special register numbers (R192). -/
def sprTix : Nat := 0x000
def sprTcnt : Nat := 0x001
def sprFut : Nat := 0x002
def sprRcb : Nat := 0x003
def sprDie : Nat := 0x004
def sprSc : Nat := 0x005
def sprPkg : Nat := 0x006
def sprHalf : Nat := 0x007
def sprCtx : Nat := 0x008
def sprTb : Nat := 0x010
def sprDln : Nat := 0x011
def sprBud : Nat := 0x012
def sprLodc : Nat := 0x013
def sprStatus : Nat := 0x018
def sprTcause : Nat := 0x019
def sprTpc : Nat := 0x01A
def sprTval : Nat := 0x01B
def sprPtb : Nat := 0x100
def sprTvec : Nat := 0x101
def sprKsp : Nat := 0x102
def sprScr0 : Nat := 0x104
def sprScr1 : Nat := 0x105
def sprHlth : Nat := 0x110
def sprFabctl : Nat := 0x111
def sprPortctl : Nat := 0x112

/-- The registers of R192, and those that only system contexts may use. -/
def sprSystem : List Nat := [sprPtb, sprTvec, sprKsp, sprScr0, sprScr1, sprHlth, sprFabctl, sprPortctl]
def sprAll : List Nat :=
  [sprTix, sprTcnt, sprFut, sprRcb, sprDie, sprSc, sprPkg, sprHalf, sprCtx, sprTb, sprDln, sprBud, sprLodc, sprStatus,
   sprTcause, sprTpc, sprTval] ++ sprSystem

/-- Entries a context holds in the scoreboard (R169, R193). -/
def State.held (s : State) (n c : Nat) : Nat :=
  ((ownEntries (s.sc n) (s.ownerOf n c)).filter (fun e => e.st != .retired)).length

/-- STATUS (R193). -/
def State.statusWord (s : State) (n c : Nat) : Word :=
  let x := s.ctx n c
  BitVec.ofNat 64 (s.held n c * 2 ^ 24 + (if isSystem c then x.owner else 31) * 2 ^ 16
    + (if isSystem c then (s.sc n).trapQ.length else 0) * 2 ^ 8 + (if x.apend.isEmpty then 0 else 4) + ctxKind c)

/-- The registers of R192 that a system context sees through STATUS.OWNER. -/
def ctxSpr (x : Ctx) (r : Nat) : Word :=
  if r = sprTix then x.tix
  else if r = sprTcnt then x.tcnt
  else if r = sprFut then x.fut
  else if r = sprRcb then x.rcb
  else if r = sprDln then x.dln
  else if r = sprBud then x.bud
  else if r = sprLodc then x.lodc
  else if r = sprTcause then x.tcause
  else if r = sprTpc then x.tpc
  else if r = sprTval then x.tval
  else 0

/-- PORTCTL as a system context reads it (R355). -/
def State.portctlWord (s : State) (p : Nat) : Word :=
  BitVec.ofNat 64 ((if portOk p then (s.port p).code else 3) * 256 + p)

/-- The value MFS gives context c of SC n for a register it may read (R192). -/
def State.mfsValue (s : State) (n c r : Nat) : Word :=
  let x := s.ctx n c
  if r = sprDie then BitVec.ofNat 64 (n / 2)
  else if r = sprSc then BitVec.ofNat 64 n
  else if r = sprPkg then BitVec.ofNat 64 s.pkgid
  else if r = sprHalf then BitVec.ofNat 64 (halfOf n)
  else if r = sprCtx then BitVec.ofNat 64 c
  else if r = sprTb then BitVec.ofNat 64 s.tb
  else if r = sprStatus then s.statusWord n c
  else if r = sprPtb then (s.sc n).ptb
  else if r = sprTvec then (s.sc n).tvec
  else if r = sprKsp then (s.sc n).ksp
  else if r = sprScr0 then x.scr0
  else if r = sprScr1 then x.scr1
  else if r = sprHlth then s.mgmt.hlth
  else if r = sprFabctl then s.fab.fabctl
  else if r = sprPortctl then s.portctlWord x.portSel
  else if !isSystem c then ctxSpr x r
  else if x.owner = 31 then 0
  else ctxSpr (s.ctx n x.owner) r

/-- The executing context may use special register r; otherwise the trap (R195). -/
def State.sprTrap (s : State) (r : Nat) : Option Nat :=
  if !sprAll.contains r then some causeIllegal
  else if sprSystem.contains r && !isSystem s.cur.ctx then some causePriv
  else none

/-- MFS (R195). -/
def execMfs (d : BitVec 5) (r : BitVec 14) (s : State) : Result :=
  ctl [d] s (fun s =>
    match s.sprTrap r.toNat with
    | some c => s.trap c (wRI 0x41 d 0 r.toNat)
    | none => s.ret d (s.mfsValue s.cur.sc s.cur.ctx r.toNat))

/-- A command of PORTCTL (R355). -/
def State.portCmd (s : State) (p cmd : Nat) : State :=
  if cmd = 1 then s.lockPort p
  else if cmd = 2 then s.runPort p
  else if cmd = 3 then s.unlockPort p
  else s

/-- The writable registers of a context (R192). -/
def setCtxSpr (r : Nat) (v : Word) (x : Ctx) : Ctx :=
  if r = sprLodc then { x with lodc := v &&& 0xFFFFFFFF }
  else if r = sprTcause then { x with tcause := v &&& 0x1FF }
  else if r = sprTpc then { x with tpc := v }
  else if r = sprTval then { x with tval := v }
  else x

/-- The effect of an MTS of a register the context may use (R192, R194, R195); RO registers ignore it.  DESIGN CHOICE (log 83): the
spec says of TVEC only that it is 4-byte aligned; bits [1:0] are not kept, and read as zero. -/
def State.mtsEffect (s : State) (r : Nat) (v : Word) : State :=
  let n := s.cur.sc
  if r = sprPtb then s.writePtb n v
  else if r = sprTvec then s.modMySc (fun t => { t with tvec := v &&& 0xFFFFFFFFFFFFFFFC, tvecSet := true })
  else if r = sprKsp then s.writeKsp n v
  else if r = sprScr0 then s.modMe (fun x => { x with scr0 := v })
  else if r = sprScr1 then s.modMe (fun x => { x with scr1 := v })
  else if r = sprFabctl then { s with fab := { s.fab with fabctl := v &&& 0xFF000001 } }
  else if r = sprPortctl then
    (s.modMe (fun x => { x with portSel := bitsNat v.toNat 0 8 })).portCmd (bitsNat v.toNat 0 8) (bitsNat v.toNat 12 4)
  else if !isSystem s.cur.ctx then
    (if r = sprLodc then s.modMe (setCtxSpr r v) else s)
  else if s.me.owner = 31 then s
  else s.modCtx n s.me.owner (setCtxSpr r v)

/-- Is a kernel run of an SC saved (R195)? -/
def Sc.saved (t : Sc) : Bool := t.runs.any (fun p => p.2.phase == .saved)

/-- MTS (R195). -/
def execMts (a : BitVec 5) (r : BitVec 14) (s : State) : Result :=
  ctl [a] s (fun s =>
    match s.sprTrap r.toNat with
    | some c => s.trap c (wRI 0x42 0 a r.toNat)
    | none =>
      if r.toNat = sprKsp ∧ s.mySc.saved then s.trap causeCtxState (BitVec.ofNat 64 s.cur.ctx)
      else (s.mtsEffect r.toNat (s.g a)).fin)

/-! ## Fences (R202) -/

/-- Is the work a remote operation, for which FENCE.sys waits (R202, R233)? -/
def Work.remote : Work → Bool
  | .rput .. => true
  | .rget .. => true
  | .racc .. => true
  | .rsig .. => true
  | _ => false

/-- The executing context's remote operations that have not completed. -/
def State.myRemotes (s : State) : List Nat :=
  entryIds ((ownEntries s.mySc s.myOwner).filter (fun e => e.work.remote))

/-- A fence: every earlier access has performed, and entries have completed (R202). -/
def fence (ids : State → List Nat) (s : State) : Result :=
  .next (if s.settledFor s.cur.sc s.cur.ctx (ids s) then s.fin else s.block (.fence (ids s)))

/-- FENCE.sc. -/
def execFenceSc (s : State) : Result := fence (fun _ => []) s
/-- FENCE.die. -/
def execFenceDie (s : State) : Result := fence (fun _ => []) s
/-- FENCE.pkg. -/
def execFencePkg (s : State) : Result := fence (fun _ => []) s
/-- FENCE.sys: it also waits for every earlier remote operation (R202, R233). -/
def execFenceSys (s : State) : Result := fence State.myRemotes s

/-! ## Ending and redirecting trap handling (R206) -/

/-- A system context's own activity has settled: then it ends and `f` follows; otherwise it waits (R206). -/
def State.endSystem (s : State) (f : State → State) : State :=
  let ids := s.ownIds s.cur.sc s.myOwner
  if s.settledFor s.cur.sc s.cur.ctx ids then f (s.endActivity s.cur.sc s.cur.ctx) else s.block (.settled ids)

/-- The handled context resumes at an address, unless its task was reclaimed meanwhile (R206, R247). -/
def State.resumeOwner (s : State) (n o : Nat) (a : Word) : State :=
  if s.ctxReclaimed n o then s.reclaimAt n o else (s.resumeAt n o a).disown n o

/-- TRET (R206). -/
def execTret (s : State) : Result :=
  priv (wRI 0x45 0 0 0) [] s (fun s =>
    let o := s.me.owner
    if o = 31 then s.trap causeCtxState (BitVec.ofNat 64 s.cur.ctx)
    else s.endSystem (fun t => t.resumeOwner s.cur.sc o (t.ctx s.cur.sc o).tpc))

/-- IDLE (R206). -/
def execIdle (s : State) : Result :=
  priv (wRI 0x4B 0 0 0) [] s (fun s =>
    let o := s.me.owner
    s.endSystem (fun t => if o < 31 ∧ t.ctxReclaimed s.cur.sc o then t.reclaimAt s.cur.sc o else t))

/-- Is context c of the executing SC TRAPPED, or FREE? -/
def State.isTrapped (s : State) (c : Nat) : Bool := decide ((s.ctx s.cur.sc c).st = .trapped)
def State.isFree (s : State) (c : Nat) : Bool := decide ((s.ctx s.cur.sc c).st = .free)

/-- CTXSIG (R206). -/
def execCtxsig (a c : BitVec 5) (s : State) : Result :=
  priv (wRI 0x4F 0 a c.toNat) [a] s (fun s =>
    let k := c.toNat
    let n := s.cur.sc
    if s.isTrapped k then s.fin.resumeOwner n k (s.g a)
    else if isSystem k && s.isFree k then
      (s.fin.modCtx n k (fun x => { freeCtx x with st := .ready, pc := s.g a })).disown n k
    else s.trap causeCtxState (BitVec.ofNat 64 k))

/-- CTXKILL (R206). -/
def execCtxkill (c : BitVec 5) (s : State) : Result :=
  priv (wRI 0x4E 0 0 c.toNat) [] s (fun s =>
    let k := c.toNat
    let n := s.cur.sc
    let x := s.ctx n k
    if !s.isTrapped k || isSystem k then s.trap causeCtxState (BitVec.ofNat 64 k)
    else if s.ctxReclaimed n k then s.fin.reclaimAt n k
    else if k < 16 then s.fin.endTaskAt n k .faulted (bitsNat x.tcause.toNat 0 8) x.tval .faulted
    else s.fin.endActivity n k)

/-! ## The context save area (R207) -/

/-- The dwords CSAVE writes, by offset (R207). -/
def State.saveWords (s : State) (n c : Nat) : List (Nat × Word) :=
  let x := s.ctx n c
  let h := fun (i : Nat) => match tget x.h i with
    | some d => BitVec.ofNat 64 (2 ^ 63 + d)
    | none => 0
  (List.range 32).map (fun i => (8 * i, x.reg i))
    ++ [(0x100, s.statusWord n c), (0x108, x.tcause), (0x110, x.tpc), (0x118, x.tval), (0x120, x.lodc),
        (0x128, (s.sc n).ksp), (0x130, x.fut), (0x138, x.tix), (0x140, x.tcnt), (0x148, x.rcb), (0x150, x.dln),
        (0x158, x.bud), (0x160, BitVec.ofNat 64 c)]
    ++ (List.range 16).map (fun i => (0x180 + 8 * i, h i))
    ++ (List.range 64).map (fun i => (0x200 + 8 * i, 0))

/-- The dwords CLOAD loads. -/
def loadOffsets : List Nat := (List.range 31).map (fun i => 8 * (i + 1)) ++ [0x110, 0x120]

/-- The checks of the dwords of an area: translations in order, or the first failing dword and its cause. -/
def State.checkArea (s : State) (store : Bool) (base : Nat) : List Nat → Except (Nat × Nat) (List (Nat × Xlat))
  | [] => .ok []
  | o :: os =>
    match s.checkAccess s.cur.sc s.cur.ctx store true (base + o) 8 with
    | .error c => .error (c, base + o)
    | .ok x => match s.checkArea store base os with
      | .error e => .error e
      | .ok xs => .ok ((o, x) :: xs)

/-- A dword of the area stored; on an uncached page by a packet that is answered before the next is sent (DEDUCED, log 17). -/
def State.areaStore (s : State) (x : Xlat) (v : Word) : State :=
  let a := localOf x.pa
  if inRegs a then s.storeReg a 8 v
  else if x.uc then (s.atOnce (maskedPacket s.topo (corePort s.cur.sc) s.myOwner a (natBytes 8 v.toNat))).2
  else s.cachedStore s.cur.sc a (natBytes 8 v.toNat)

/-- A dword of the area loaded, and the state after it; on an uncached page likewise. -/
def State.areaLoad (s : State) (x : Xlat) : Word × State :=
  let a := localOf x.pa
  if inRegs a then (s.readReg a 8, s)
  else if x.uc then
    let r := s.atOnce (readPacket s.topo (corePort s.cur.sc) s.myOwner a .none)
    (BitVec.ofNat 64 (bytesNat ((r.1.drop (a % 32)).take 8)), r.2)
  else
    let t := s.fillLine s.cur.sc a
    (BitVec.ofNat 64 (t.readNat a 8), t)

/-- The dwords of an area loaded, by offset. -/
def State.areaLoads (s : State) : List (Nat × Xlat) → List (Nat × Word) × State
  | [] => ([], s)
  | p :: ps =>
    let r := s.areaLoad p.2
    let q := State.areaLoads r.2 ps
    ((p.1, r.1) :: q.1, q.2)

/-- The dwords of an area that has been checked move, once the tags they need are free: the area lies in one stack (R268, R315). -/
def State.withArea (s : State) (xs : List (Nat × Xlat)) (f : State → State) : State :=
  s.withTagOf (xs.findSome? (fun p => s.needsTag p.2)) f

/-- The checks CSAVE and CLOAD share: ctx TRAPPED and not the executing one, then the alignment of the area (R207). -/
def State.areaTrap (s : State) (a : Word) (c : Nat) : Option (Nat × Word) :=
  if !s.isTrapped c || c == s.cur.ctx then some (causeCtxState, BitVec.ofNat 64 c)
  else if a.toNat % 1024 ≠ 0 then some (causeAlign, a)
  else none

/-- An instruction that reads or writes the registers of another context waits until an uncached load or an SCAS has filled them (R188,
R207, R315; DEDUCED, log 94). -/
def State.withFilled (s : State) (c : Nat) (f : State → State) : State :=
  let l := (s.ctx s.cur.sc c).unfilled
  if l.isEmpty then f s else s.block (.filledOf c) (l.any (· < 32))

/-- CSAVE (R207). -/
def execCsave (a c : BitVec 5) (s : State) : Result :=
  priv (wRI 0x4C 0 a c.toNat) [a] s (fun s =>
    match s.areaTrap (s.g a) c.toNat with
    | some e => s.trap e.1 e.2
    | none => s.withFilled c.toNat (fun s =>
      let ws := s.saveWords s.cur.sc c.toNat
      let s := s.touchMe (s.g a).toNat
      match s.checkArea true (s.g a).toNat (ws.map Prod.fst) with
      | .error e => s.trap e.1 (BitVec.ofNat 64 e.2)
      | .ok xs => s.withArea xs (fun s => ((List.zip xs ws).foldl (fun t p => t.areaStore p.1.2 p.2.2) s).fin)))

/-- A dword of the area put into a context. -/
def Ctx.putArea (x : Ctx) (o : Nat) (v : Word) : Ctx :=
  if o < 0x100 then x.setReg (o / 8) v
  else if o = 0x110 then { x with tpc := v }
  else { x with lodc := v &&& 0xFFFFFFFF }

/-- CLOAD (R207). -/
def execCload (a c : BitVec 5) (s : State) : Result :=
  priv (wRI 0x4D 0 a c.toNat) [a] s (fun s =>
    match s.areaTrap (s.g a) c.toNat with
    | some e => s.trap e.1 e.2
    | none => s.withFilled c.toNat (fun s =>
      let s := s.touchMe (s.g a).toNat
      match s.checkArea false (s.g a).toNat loadOffsets with
      | .error e => s.trap e.1 (BitVec.ofNat 64 e.2)
      | .ok xs => s.withArea xs (fun s =>
          let r := s.areaLoads xs
          (r.2.modCtx s.cur.sc c.toNat (fun x => r.1.foldl (fun x p => x.putArea p.1 p.2) x)).fin)))

end Sys2Proof.Machine
end

