-- ==== Sys2Proof/Machine/Futures.lean ====
section
/-!
DEFINITION. Futures, barriers, flags and graphs: the instructions 0x70-0x83 (R236-R262).
-/

namespace Sys2Proof.Machine

/-! ## Spawning (R241) -/

/-- The hub of an SC's half. -/
def hubOf (n : Nat) : Nat := n / 8

/-- The executing context as a holder of what it spawns (R241). -/
def State.meHolder (s : State) : Holder :=
  if s.cur.ctx < 16 then .task s.me.fut.toNat else .ctx s.cur.sc s.cur.ctx

/-- A spawn with an SC hint, once its checks are passed: the task's future, READY, held by the spawner, and its handle in
gd. -/
def State.spawn (s : State) (d a b : BitVec 5) (hint : Option Nat) (k : Nat) : State :=
  let t := s.spawnAt k { held := true, parent := s.meHolder, entry := s.g a, arg := s.g b, rcb := s.myRcb, hint := hint }
  let h := t.handleOf k
  (t.linkKid h s.meHolder).ret d (BitVec.ofNat 64 h)

/-- FSPAWN and FSPAWNH: a release of every earlier access (R241). -/
def spawnOp (d a b : BitVec 5) (hint : Option Nat) (s : State) : Result :=
  ctl [d, a, b] s (fun s =>
    if (s.g a).toNat % 4 ≠ 0 then s.trap causeAlign (s.g a)
    else match s.allocFut (hubOf s.cur.sc) with
      | none => s.trap causeTableFull 0
      | some k => s.afterAccesses (fun s => s.spawn d a b hint k))

/-- FSPAWN (R241). -/
def execFspawn (d a b : BitVec 5) (s : State) : Result := spawnOp d a b none s
/-- FSPAWNH: with an affinity hint (R241). -/
def execFspawnh (d a b : BitVec 5) (h : BitVec 4) (s : State) : Result := spawnOp d a b (some h.toNat) s

/-! ## Counting and dropping (R236, R243) -/

/-- An instruction on a future's entry: FUTURE_STALE for a handle that is not live; `lost` for one of a lost half's table
(R236, R354). -/
def onFuture (r : BitVec 5) (rs : List (BitVec 5)) (s : State) (lost : State → State) (f : Nat → State → State) : Result :=
  ctl (r :: rs) s (fun s =>
    let h := (s.g r).toNat
    if h < 2 ^ 32 && s.futLost h then lost s
    else if s.futLive h then f (futKey h) s
    else s.trap causeFutureStale (s.g r))

/-- FREF (R243). -/
def execFref (a : BitVec 5) (s : State) : Result :=
  onFuture a [] s State.fin (fun k s =>
    if (s.fut k).count = 65535 then s.trap causeFutureCount (s.g a)
    else (s.modFut k (fun f => { f with count := f.count + 1 })).fin)

/-- A drop by the executing context: the spawn reference when it holds it (R243). -/
def State.drop (s : State) (k : Nat) : State :=
  let f := s.fut k
  (if f.held && f.parent == s.meHolder then s.unhold k else s).dropCount k

/-- FDROP (R243). -/
def execFdrop (a : BitVec 5) (s : State) : Result := onFuture a [] s State.fin (fun k s => s.fin.drop k)

/-- Is a future terminal? -/
def Fut.terminal (f : Fut) : Bool := f.st == .done || f.st == .faulted

/-- FGET and FGETD (R244). -/
def getOp (d a : BitVec 5) (after : Nat → State → State) (s : State) : Result :=
  onFuture a [d] s (fun s => s.ret d 0) (fun k s =>
    if s.cur.ctx < 16 && s.g a == s.me.fut then s.trap causeCtxState (BitVec.ofNat 64 s.cur.ctx)
    else if (s.fut k).terminal then after k (s.ret d (s.fut k).result)
    else s.block (.future (s.g a).toNat))

/-- FGET (R244). -/
def execFget (d a : BitVec 5) (s : State) : Result := getOp d a (fun _ s => s) s
/-- FGETD: the handle is dropped after the result is read (R244). -/
def execFgetd (d a : BitVec 5) (s : State) : Result := getOp d a (fun k s => s.drop k) s

/-- STATE codes of FPOLL; RECLAIMED, which R245 gives no code, is a free value. -/
def State.futCode (s : State) (f : Fut) : Nat :=
  match f.st with
  | .free => 0
  | .ready => 1
  | .running => 2
  | .done => 3
  | .faulted => 4
  | .reclaimed => s.freeVal % 8

/-- The word of FPOLL (R245). -/
def State.pollWord (s : State) (k : Nat) : Word :=
  let f := s.fut k
  BitVec.ofNat 64 (f.count % 65536 * 2 ^ 32 + (if f.terminal then f.status % 256 * 2 ^ 16 else 0)
    + (if f.held then 8 else 0) + s.futCode f)

/-- The word of a future whose table is lost: FAULTED with LOST; its COUNT and HELD, which no rule gives, are free
(R354). -/
def State.lostWord (s : State) : Word := BitVec.ofNat 64 (s.freeVal % 65536 * 2 ^ 32 + 0x420000 + Config.freeNat (s.free + 1) % 2 * 8 + 4)

/-- FPOLL (R245). -/
def execFpoll (d a : BitVec 5) (s : State) : Result :=
  onFuture a [d] s (fun s => (s.ret d s.lostWord).useFree 2) (fun k s =>
    (s.ret d (s.pollWord k)).useFree (if (s.fut k).st = .reclaimed then 1 else 0))

/-! ## Ending and yielding (R246, R261) -/

/-- The executing context ends: a task with a state, status and result; any other context its activity (R246, R167). -/
def State.endMe (s : State) (n c status : Nat) (result : Word) : State :=
  if c < 16 then
    s.endTaskAt n c (if status = 0 then .done else .faulted) status result (if status = 0 then .done else .faulted)
  else s.endActivity n c

/-- FRET and FRETF: step 1 is the wait for every entry and access (R246). -/
def endOp (a : BitVec 5) (status : Nat) (s : State) : Result :=
  ctl [a] s (fun s =>
    let ids := s.ownIds s.cur.sc s.myOwner
    if s.settledFor s.cur.sc s.cur.ctx ids then s.endMe s.cur.sc s.cur.ctx status (s.g a)
    else s.block (.ending ids status (s.g a)))

/-- FRET (R246). -/
def execFret (a : BitVec 5) (s : State) : Result := endOp a 0 s
/-- FRETF (R246). -/
def execFretf (a : BitVec 5) (s : State) : Result := endOp a 0x40 s

/-- FYIELD: the slice ends; nothing in a message or system context (R246). -/
def execFyield (s : State) : Result :=
  ctl [] s (fun s =>
    let k := futKey s.me.fut.toNat
    if s.cur.ctx < 16 then (s.fin.deschedule s.cur.sc s.cur.ctx).makeReady k else s.fin)

/-- FSIG (R261). -/
def execFsig (n : BitVec 14) (s : State) : Result :=
  ctl [] s (fun s =>
    match (if s.cur.ctx < 16 then s.toSignal (futKey s.me.fut.toNat) n.toNat else none) with
    | none => s.fin
    | some (g, i, es) =>
      let ids := s.ownIds s.cur.sc s.myOwner
      if s.settledFor s.cur.sc s.cur.ctx ids then s.fin.signal g i es else s.block (.early ids n.toNat))

/-! ## Barriers (R250-R254) -/

/-- An instruction on a barrier: BARRIER_STALE for a handle that is not live (R250). -/
def onBarrier (a : BitVec 5) (rs : List (BitVec 5)) (s : State) (f : Nat → Barrier → State → State) : Result :=
  ctl (a :: rs) s (fun s =>
    let h := (s.g a).toNat
    if s.barOk s.cur.sc h then f h (s.barrier s.cur.sc h) s else s.trap causeBarrierStale (s.g a))

/-- A barrier handle. -/
def barHandle (scope index gen : Nat) : Nat := scope * 2 ^ 30 + index * 2 ^ 20 + gen

/-- Is a barrier of a scope free? -/
def State.barFree (s : State) (n scope i : Nat) : Bool := !(s.barrier n (barHandle scope i 0)).used

/-- Entries of a barrier table (R250). -/
def barCount (scope : Nat) : Nat := if scope = 0 then 256 else 1024

/-- A free barrier of a scope, as a handle of the generation it has: which one is not specified (R251, log 31). -/
def State.freeBar (s : State) (n scope : Nat) : Option Nat :=
  if scope != 0 && halfLost s.topo (scope - 1) then none
  else ((List.range (barCount scope)).find? (s.barFree n scope)).map (fun i =>
    let j := s.anyFree (barCount scope) (s.barFree n scope) i
    barHandle scope j (s.barrier n (barHandle scope j 0)).gen)

/-- The free barrier BALLOC takes: the SC's, or the issuer's hub's before the other's (R251). -/
def State.pickBar (s : State) (n scope : Nat) : Option Nat :=
  if scope = 0 then s.freeBar n 0
  else match s.freeBar n (hubOf n + 1) with
    | some h => some h
    | none => s.freeBar n (2 - hubOf n)

/-- BALLOC (R251). -/
def execBalloc (d a b : BitVec 5) (s : State) : Result :=
  ctl [d, a, b] s (fun s =>
    let scope := (s.g a).toNat
    let e := (s.g b).toNat
    if 1 < scope ∨ e = 0 ∨ 65535 < e then s.trap causeStreamArg (wRR 0x7B d a b 0)
    else match s.pickBar s.cur.sc scope with
      | none => s.trap causeTableFull (BitVec.ofNat 64 (scope + 1))
      | some h => ((s.setBarrier s.cur.sc h { used := true, gen := h % 2 ^ 20, exp := e }).ret d (BitVec.ofNat 64 h)).useFree 1)

/-- A context without a membership of a handle. -/
def Ctx.leave (x : Ctx) (h : Nat) : Ctx := { x with members := x.members.filter (fun m => m.h != h) }

/-- Every membership of a barrier deleted: in its own SC for scope 0, else everywhere (R253). -/
def State.leaveAll (s : State) (n h : Nat) : State :=
  let here := fun (m : Nat) => barScope h != 0 || m == n
  { s with scs := s.scs.map (fun p =>
             if here p.1 then (p.1, { p.2 with ctxs := p.2.ctxs.map (fun c => (c.1, c.2.leave h)) }) else p),
           sleepers := s.sleepers.map (fun p => if here p.2.sc then (p.1, { p.2 with ctx := p.2.ctx.leave h }) else p) }

/-- BFREE (R250, R251, R253). -/
def execBfree (a : BitVec 5) (s : State) : Result :=
  onBarrier a [] s (fun h b s =>
    ((s.setBarrier s.cur.sc h { gen := (b.gen + 1) % 2 ^ 20 }).leaveAll s.cur.sc h).fin)

/-- The membership of a context in a barrier. -/
def Ctx.member (x : Ctx) (h : Nat) : Option Member := x.members.find? (fun m => m.h == h)

/-- The membership recorded by an arrival in phase p (R253). -/
def Ctx.arrived (x : Ctx) (h p : Nat) (drop : Bool) : Ctx :=
  match x.member h with
  | some _ => { x with members := x.members.map (fun m =>
      if m.h = h then { m with phase := p, dropped := m.dropped || drop } else m) }
  | none => { x with members := x.members ++ [{ h := h, phase := p, dropped := drop }] }

/-- BARR and BARRD: a release of every earlier access; a fifth membership does not arrive (R251-R253).  DESIGN CHOICE (log 73): of
a fifth membership on a barrier whose EXP is 0, BARRIER_STALE is tested first. -/
def arriveOp (a : BitVec 5) (drop : Bool) (s : State) : Result :=
  onBarrier a [] s (fun h b s =>
    if b.exp = 0 then s.trap causeBarrierStale (s.g a)
    else if (s.me.member h).isNone ∧ 4 ≤ s.me.members.length then s.trap causeTableFull 4
    else s.afterAccesses (fun s =>
      ((s.setBarrier s.cur.sc h (b.arrive drop)).modMe (fun x => x.arrived h b.phase drop)).fin))

/-- BARR (R252). -/
def execBarr (a : BitVec 5) (s : State) : Result := arriveOp a false s
/-- BARRD (R252). -/
def execBarrd (a : BitVec 5) (s : State) : Result := arriveOp a true s

/-- The phase a BWAIT waits to leave: of the membership, of the wait it has begun, or the one in progress (R252). -/
def Ctx.waitsFor (x : Ctx) (h : Nat) (b : Barrier) : Nat :=
  match x.member h with
  | some m => m.phase
  | none => match x.wait with
    | some (.phase h' p) => if h' = h then p else b.phase
    | _ => b.phase

/-- A membership marked DROPPED is deleted by a BWAIT (R253). -/
def Ctx.afterWait (x : Ctx) (h : Nat) : Ctx := { x with members := x.members.filter (fun m => !(m.h == h && m.dropped)) }

/-- BWAIT (R252, R253). -/
def execBwait (a : BitVec 5) (s : State) : Result :=
  onBarrier a [] s (fun h b s =>
    let p := s.me.waitsFor h b
    if b.exp = 0 ∨ b.phase ≠ p then (s.modMe (fun x => x.afterWait h)).fin else s.block (.phase h p))

/-- BPOLL (R254). -/
def execBpoll (d a : BitVec 5) (s : State) : Result :=
  onBarrier a [d] s (fun _ b s => s.ret d (BitVec.ofNat 64 (b.phase * 2 ^ 32 + b.arr % 65536 * 65536 + b.exp % 65536)))

/-! ## Flags (R255, R256) -/

/-- The value a flag word holds as a read at PKG scope sees it. -/
def State.flagValue (s : State) (pa : Nat) : Nat := if inRegs pa then (s.readReg pa 8).toNat else s.readNat pa 8

/-- The value a flag word holds at its home (R255). -/
def State.homeValue (s : State) (pa : Nat) : Nat := if inRegs pa then (s.readReg pa 8).toNat else bytesNat (s.dieBytes pa 8)

/-- Has a flag word been written at its home in this wall cycle (R255)?  A register's comparison is made in every cycle. -/
def State.flagWritten (s : State) (pa : Nat) : Bool :=
  inRegs pa || s.homeWrites.any (fun w => w.1 < pa + 8 && pa < w.1 + w.2)

/-- What a hub's read of a flag word does to counters and to lines the host holds (R286, R350). -/
def State.readFlag (s : State) (pa : Nat) : State := if inRegs pa then s else s.noteRead pa 8

/-- Watches in the table of a hub. -/
def State.watches (s : State) (hub : Nat) : Nat :=
  (s.scs.map (fun p => (p.2.ctxs.filter (fun c => match c.2.wait with
    | some (.flag pa _ _) => c.2.st == .blocked && pa / halfSize % 2 == hub
    | _ => false)).length)).foldl (· + ·) 0

/-- Has a comparison of the executing context's watch held? -/
def Ctx.flagMet (x : Ctx) : Bool := match x.wait with | some (.flag _ _ m) => m | _ => false

/-- WAITGE (R255).  DESIGN CHOICE (log 74): it needs a free entry of the watch table though its threshold is already met. -/
def execWaitge (a b : BitVec 5) (s : State) : Result :=
  ctl [a, b] s (fun s =>
    if s.me.flagMet then s.fin
    else
      let begun := s.me.wait.isSome
      let v := s.g a
      let s := s.walked v 8
      match s.check false v 8 with
      | .error c => s.trap c v
      | .ok x =>
        let pa := localOf x.pa
        let thr := (s.g b).toNat
        if !begun && 4096 ≤ s.watches (pa / halfSize % 2) then s.trap causeTableFull 3
        else if thr ≤ s.flagValue pa then (s.readFlag pa).fin
        else (s.readFlag pa).block (.flag pa thr false))

/-! ## Graphs (R257, R258) -/

/-- The unprivileged context number that hub accesses check as (R259, R321). -/
def hubCtx : Nat := 20

/-- Why a read of pieces stops: a check fails, with the cause and the address, or no tag of a stack is free. -/
inductive Halt where
  | trap (cause a : Nat)
  | tag (stack : Nat)
  deriving DecidableEq, Repr, Inhabited

/-- One piece of k bytes at a translated address: a register's; what the command processor of a hub reads (R282); a packet, or a line of
the data cache, for a context (R199, R314). -/
def State.loadPiece (s : State) (n c k : Nat) (x : Xlat) : List Byte × State :=
  let a := localOf x.pa
  if inRegs a then (natBytes k (s.readReg a k).toNat, s)
  else if c = hubCtx then
    let t := s.performEarlier (cpPort (hubOf n)) a k
    (t.bytes a k, t.noteRead a k)
  else if x.uc then
    let r := s.atOnce (readPacket s.topo (corePort n) s.myOwner a .none)
    ((r.1.drop (a % 32)).take k, r.2)
  else
    let t := s.fillLine n a
    (t.bytes a k, t)

/-- The stack whose tag a piece must wait for: a hub waits for none. -/
def State.pieceTag (s : State) (c : Nat) (x : Xlat) : Option Nat := if c = hubCtx then none else s.needsTag x

/-- n pieces of k bytes each at a virtual address, read one after the other as loads by a context (R257): their bytes, or why the read
stops, and what it has done by then to TLBs, caches, counters and lines the host holds (R280, R286, R350). -/
def State.loadPieces (n c k : Nat) : Nat → Nat → State → Except Halt (List Byte) × State
  | 0, _, s => (.ok [], s)
  | m + 1, va, s =>
    let s := if va % k ≠ 0 then s else s.touch n true (s.sc n).root va
    match s.checkAccess n c false true va k with
    | .error e => (.error (.trap e va), s)
    | .ok x => match s.pieceTag c x with
      | some st => (.error (.tag st), s)
      | none =>
        let r := s.loadPiece n c k x
        let q := State.loadPieces n c k m (va + k) r.2
        (q.1.map (fun bs => r.1 ++ bs), q.2)

/-- The fields of a graph descriptor: node array, successor array, node count, successor count, flag. -/
structure GraphDesc where
  nodes : Nat := 0
  succ : Nat := 0
  n : Nat := 0
  m : Nat := 0
  flag : Nat := 0
  ok : Bool := false

/-- A descriptor from its 64 bytes (R257). -/
def graphDesc (bs : List Byte) : GraphDesc :=
  let d : GraphDesc := { nodes := fieldAt bs 0 8, succ := fieldAt bs 8 8, n := fieldAt bs 0x10 4, m := fieldAt bs 0x14 4,
                         flag := fieldAt bs 0x18 8 }
  { d with ok := d.nodes % 32 == 0 && d.succ % 2 == 0 && decide (1 ≤ d.n) && decide (d.n ≤ 65536) && decide (d.m ≤ 65536)
                   && fieldAt bs 0x20 32 == 0 }

/-- A set of edges: its first entry and its count. -/
def edgeSet (x : Nat) : Nat × Nat := (bitsNat x 0 16, bitsNat x 16 16)

/-- The node of 32 bytes, with its edges resolved (R258). -/
def nodeOf (succ : List Nat) (bs : List Byte) : Node :=
  let e := fun (o : Nat) => let p := edgeSet (fieldAt bs o 4); (succ.drop p.1).take p.2
  { kind := fieldAt bs 0 1, xop := fieldAt bs 1 1, ndep := fieldAt bs 2 2, e0 := e 4, e1 := e 8, cap := fieldAt bs 0x0C 4,
    p0 := fieldAt bs 0x10 8, p1 := fieldAt bs 0x18 8, ctr := fieldAt bs 2 2 }

/-- Is a node valid by itself (R258)?  DESIGN CHOICE (log 93): an empty edge set is in range only where its FIRST is no more than the count
of entries. -/
def nodeOk (n m : Nat) (bs : List Byte) (x : Node) : Bool :=
  let inRange := fun (o : Nat) => let p := edgeSet (fieldAt bs o 4); decide (p.1 + p.2 ≤ m)
  decide (1 ≤ x.kind) && decide (x.kind ≤ 5)
    && (if x.kind = 2 then [0x90, 0x94, 0x96].contains x.xop else x.xop == 0)
    && inRange 4 && inRange 8 && (x.e0 ++ x.e1).all (fun j => decide (j < n))
    && (x.kind == 3 || x.kind == 4 || (edgeSet (fieldAt bs 8 4)).2 == 0)
    && (x.kind == 4 || x.cap == 0)

/-- NBACK of a WHILE node (R260). -/
def Node.nback (x : Node) : Nat := bitsNat x.p1 32 16

/-- Edges that arrive at node i from the nodes a test holds of. -/
def edgesInto (ns : List Node) (i : Nat) (f : Nat → Bool) : Nat :=
  ((ns.zipIdx).map (fun p => if f p.2 then ((p.1.e0 ++ p.1.e1).filter (· == i)).length else 0)).foldl (· + ·) 0

/-- Do the in-edges of node i agree with NDEP and NBACK (R258, R260)? -/
def countsOk (ns : List Node) (i : Nat) (x : Node) : Bool :=
  edgesInto ns i (fun j => !x.inBody j) == x.ndep && (x.kind != 4 || edgesInto ns i x.inBody == x.nback)

/-- The nodes of a descriptor by the bytes of its arrays, or the trap of the first that is not valid (R257, R258). -/
def graphNodes (d : GraphDesc) (nb sb : List Byte) : Except Halt (List Node) :=
  let succ := (List.range d.m).map (fun i => fieldAt sb (2 * i) 2)
  let piece := fun (i : Nat) => (nb.drop (32 * i)).take 32
  let ns := (List.range d.n).map (fun i => nodeOf succ (piece i))
  match ns.zipIdx.find? (fun p => !(nodeOk d.n d.m (piece p.2) p.1 && countsOk ns p.2 p.1)) with
  | some p => .error (.trap causeRecordInvalid (d.nodes + 32 * p.2))
  | none => .ok ns

/-- A graph read at a virtual address, its descriptor and then both arrays: the descriptor and the nodes, or why the read stops, and the
state after what has been read (R257). -/
def State.readGraph (s : State) (n c va : Nat) : Except Halt (GraphDesc × List Node) × State :=
  let p := State.loadPieces n c 8 8 va s
  match p.1 with
  | .error e => (.error e, p.2)
  | .ok bs =>
    let d := graphDesc bs
    if !d.ok then (.error (.trap causeRecordInvalid va), p.2)
    else
      let q := State.loadPieces n c 8 (4 * d.n) d.nodes p.2
      match q.1 with
      | .error e => (.error e, q.2)
      | .ok nb =>
        let r := State.loadPieces n c 2 d.m d.succ q.2
        match r.1 with
        | .error e => (.error e, r.2)
        | .ok sb => ((graphNodes d nb sb).map (fun ns => (d, ns)), r.2)

/-- Nodes resident in a hub's walker. -/
def State.residentNodes (s : State) (hub : Nat) : Nat :=
  ((s.graphs.filter (fun p => hubOf p.2.sc == hub)).map (fun p => p.2.nodes.length)).foldl (· + ·) 0

/-- A graph made resident, its future at a FREE entry RUNNING (R238, R257). -/
def State.placeGraph (s : State) (k : Nat) (f : Fut) (g : Graph) : State :=
  let t := (s.newFut k { f with graph := true }).modFut k (fun f => { f with st := .running })
  { t with graphs := tput t.graphs t.nextGraph { g with fut := k, nodes := g.nodes.map (fun x => { x with zeroAt := s.cycle }) }
           nextGraph := t.nextGraph + 1 }

/-- GLAUNCH (R257): a release of every earlier access, which its own reads come after (R302, R304); while a tag that they need is taken it
waits, and then reads the graph whole (R315).  DESIGN CHOICE (log 75): a full walker is tested before a full future table. -/
def execGlaunch (d a : BitVec 5) (s : State) : Result :=
  ctl [d, a] s (fun s => s.afterAccesses (fun s =>
    let p := s.readGraph s.cur.sc s.cur.ctx (s.g a).toNat
    match p.1 with
    | .error (.tag k) => s.waitTag k (.tag s.cur.sc k)
    | .error (.trap c v) => p.2.leaveTagQ.trap c (BitVec.ofNat 64 v)
    | .ok (x, ns) =>
      let s := p.2.leaveTagQ
      if 65536 < s.residentNodes (hubOf s.cur.sc) + x.n then s.trap causeTableFull 5
      else match s.allocFut (hubOf s.cur.sc) with
        | none => s.trap causeTableFull 0
        | some k =>
          let t := s.placeGraph k { held := true, parent := s.meHolder, rcb := s.myRcb }
            { nodes := ns, flag := x.flag, rcb := s.myRcb, sc := s.cur.sc }
          let h := t.handleOf k
          (t.linkKid h s.meHolder).ret d (BitVec.ofNat 64 h)))

/-- GFREE: a handle that names a task is stale (R257). -/
def execGfree (a : BitVec 5) (s : State) : Result :=
  onFuture a [] s State.fin (fun k s =>
    if (s.fut k).graph then s.fin.drop k else s.trap causeFutureStale (s.g a))

end Sys2Proof.Machine
end

