-- ==== Sys2Proof/Machine/Sched.lean ====
section
/-!
DEFINITION. The command processor (R318-R337) and the graph walker (R257-R262, R328): launches, dispatch of slices, budgets, the
ends of tasks, and the nodes of graphs.
-/

namespace Sys2Proof.Machine

/-! ## Dispatch (R331, R332) -/

/-- A slice that awaits dispatch: of an existing future, or the next task of a launch. -/
structure Cand where
  fut : Option Nat := none
  launch : Option Nat := none
  rcb : Nat := 0
  deadline : Nat := 0
  budget : Nat := 0
  seq : Nat := 0
  tix : Nat := 0
  psrf : Nat := 0
  hint : Option Nat := none
  /-- The SC it is bound to, once it has run (R166). -/
  bound : Option Nat := none
  deriving DecidableEq, Repr, Inhabited

/-- A slice of an existing future as a candidate. -/
def State.sliceCand (s : State) (x : Slice) : Cand :=
  let f := s.fut x.fut
  { fut := some x.fut, launch := f.launch, rcb := f.rcb, deadline := x.deadline, budget := x.budget,
    seq := match f.launch with | some l => (tgetD s.launches l {}).seq | none => f.seq,
    tix := f.tix, hint := f.hint, bound := f.sc }

/-- The next task of a TASK launch as a candidate (R327, R330). -/
def State.launchCand (s : State) (l : Nat) (x : Launch) : Cand :=
  { launch := some l, rcb := x.rcb, deadline := if x.deadline = 0 then x.t0 + s.windowOf x.rcb else x.t0 + x.deadline,
    budget := if x.slice = 0 then s.sliceOf x.rcb else x.slice, seq := x.seq, tix := x.next, psrf := x.psrf, hint := x.hint }

/-- Every candidate.  DEDUCED (log 93): a victim whose handler waits for a FREE future is one of them, since R333 leaves its new slice
ready and R331 takes every ready slice. -/
def State.cands (s : State) : List Cand :=
  s.slices.map s.sliceCand
    ++ s.launches.filterMap (fun p => if !p.2.graph && p.2.next < p.2.count then some (s.launchCand p.1 p.2) else none)

/-- Is one candidate before another (R331)? -/
def State.before (s : State) (a b : Cand) : Bool :=
  let ca := s.classOf a.rcb
  let cb := s.classOf b.rcb
  if ca ≠ cb then cb < ca
  else if a.deadline ≠ b.deadline then a.deadline < b.deadline
  else if s.regidOf a.rcb ≠ s.regidOf b.rcb then s.regidOf a.rcb < s.regidOf b.rcb
  else if a.seq ≠ b.seq then a.seq < b.seq
  else a.tix < b.tix

/-- Free task contexts of an SC, and the number that are occupied. -/
def State.freeTask (s : State) (n : Nat) : Option Nat := (List.range 16).find? (fun c => (s.ctx n c).st == .free)
def State.occupied (s : State) (n : Nat) : Nat := ((List.range 16).filter (fun c => (s.ctx n c).st != .free)).length

/-- Has the launch of a candidate room for one more running task (R320)? -/
def State.launchRoom (s : State) (l : Option Nat) : Bool :=
  match l.bind (tget s.launches ·) with
  | some x => x.pctx == 0 || decide (x.running < x.pctx)
  | none => true

/-- The hub whose table a launch's tasks are created in first (R327). -/
def Launch.hub (x : Launch) : Nat := x.queue / 4096

/-- The FREE entry the next task of a candidate's launch takes; an existing future needs none. -/
def State.candFut (s : State) (x : Cand) : Option Nat :=
  match x.fut with
  | some k => some k
  | none => s.allocFut ((x.launch.map (fun l => (tgetD s.launches l {}).hub)).getD 0)

/-- The SCs with an eligible context for a candidate (R331). -/
def State.eligible (s : State) (x : Cand) : List Nat :=
  if s.ctxRoom x.rcb && s.launchRoom x.launch && s.srfRoom x.rcb x.psrf && (s.candFut x).isSome then
    (s.scsOf x.rcb).filter (fun n => (s.freeTask n).isSome && (x.bound == none || x.bound == some n))
  else []

/-- The SC with the fewest occupied task contexts, the lowest of several. -/
def State.emptiest (s : State) : List Nat → Option Nat
  | [] => none
  | n :: ns => match s.emptiest ns with
    | some m => some (if s.occupied n ≤ s.occupied m then n else m)
    | none => some n

/-- Where a candidate is placed (R332). -/
def State.placeOf (s : State) (x : Cand) : Option Nat :=
  let l := s.eligible x
  match x.hint with
  | some h => if l.contains h then some h else s.emptiest l
  | none => s.emptiest l

/-- The first candidate that has an eligible context. -/
def State.pick (s : State) (l : List Cand) : Option Cand :=
  (l.filter (fun x => !(s.eligible x).isEmpty)).foldl (fun a x => match a with
    | some y => if s.before x y then some x else some y
    | none => some x) none

/-- BUD of a budget; 0 is unlimited (R330). -/
def budWord (b : Nat) : Word := if b = 0 then BitVec.allOnes 64 else BitVec.ofNat 64 b

/-- The registers a new task starts with: g1 is the argument, and a handler's g2-g5 (R241, R327, R333). -/
def startRegs (f : Fut) : Tab Word :=
  (((f.arg :: f.args).zipIdx).map (fun p => (p.2 + 1, p.1))).filter (fun p => p.2 != 0)

/-- A context as the first slice of a future starts it. -/
def startCtx (f : Fut) (handle : Nat) : Ctx :=
  { st := .ready, pc := f.entry, g := startRegs f, tix := BitVec.ofNat 64 f.tix, tcnt := BitVec.ofNat 64 f.tcnt,
    fut := BitVec.ofNat 64 handle, rcb := BitVec.ofNat 64 f.rcb }

/-- The future of a launch's next task, at a FREE entry (R327). -/
def State.createTask (s : State) (k : Nat) (x : Cand) : State :=
  match x.fut, x.launch with
  | none, some l =>
    let y := tgetD s.launches l {}
    let t := s.newFut k { entry := y.entry, arg := y.arg, rcb := y.rcb, tix := y.next, tcnt := y.count, hint := y.hint,
                          launch := some l, psrf := y.psrf }
    { t.chargeSrf y.rcb y.psrf with launches := tmod t.launches l (fun z => { z with next := z.next + 1 }) }
  | _, _ => s

/-- A slice of future k dispatched on context c of SC n (R330-R332). -/
def State.runSlice (s : State) (k n c deadline budget : Nat) : State :=
  let f := s.fut k
  let x := match tget s.sleepers k with
    | some z => { z.ctx with st := .ready }
    | none => startCtx f (s.handleOf k)
  let t := (s.setCtx n c { x with dln := BitVec.ofNat 64 deadline, bud := budWord budget }).chargeCtx f.rcb
  let t := t.modFut k (fun f => { f with st := .running, sc := some n, charged := true })
  { t with sleepers := tdel t.sleepers k, slices := t.slices.filter (fun z => z.fut != k),
           launches := match f.launch with
             | some l => tmod t.launches l (fun z => { z with running := z.running + 1 })
             | none => t.launches }

/-- TASK_DISPATCH (R331). -/
def execTaskDispatch (s : State) : Result :=
  .next (match s.pick s.cands with
    | none => s
    | some x =>
      match s.placeOf x, s.candFut x with
      | some n, some k => match s.freeTask n with
        | some c => (s.createTask k x).runSlice k n c x.deadline x.budget
        | none => s
      | _, _ => s)

/-! ## Budgets (R333) -/

/-- The region that defines the fault domain of a region. -/
def State.faultRegion (s : State) (rcb : Nat) : Nat :=
  ((s.chainAddrs 8 rcb).find? (fun a => (tgetD s.regions a {}).has ovrFault)).getD 0

/-- A handler task created for a victim (R333). -/
def State.spawnHandler (s : State) (h tix rcb k : Nat) : State :=
  let r := tgetD s.regions rcb {}
  s.spawnAt k { entry := BitVec.ofNat 64 r.hpc, arg := BitVec.ofNat 64 r.harg, rcb := rcb, unlimited := true,
                args := [BitVec.ofNat 64 h, 0x22, BitVec.ofNat 64 tix, BitVec.ofNat 64 r.fdom] }

/-- Handlers that wait for a future are created, oldest first, while the table of a hub has a FREE entry. -/
def State.spawnHandlers (s : State) : State :=
  s.handlers.foldl (fun t h =>
    match t.allocFut (bitsNat h.1 31 1) with
    | some k => { t.spawnHandler h.1 h.2.1 h.2.2 k with handlers := t.handlers.drop 1 }
    | none => t) s

/-- A spent budget: the task is descheduled and ready again; its handler is owed, or it owes itself a trap (R333). -/
def State.spend (s : State) (n c : Nat) : State :=
  let x := s.ctx n c
  let k := futKey x.fut.toNat
  let f := s.fut k
  let t := (s.deschedule n c).makeReady k
  let r := s.faultRegion f.rcb
  if (tgetD s.regions r {}).hpc = 0 then
    { t with sleepers := tmod t.sleepers k (fun z =>
        { z with ctx := { z.ctx with apend := z.ctx.apend ++ [(causeBudget, 0)] } }) }
  else { t with handlers := t.handlers ++ [(x.fut.toNat, x.tix.toNat, r)] }

/-- Is a context amid an LDM or STM, some of whose registers have moved?  Its instruction boundary is yet to come (R201, R333). -/
def Ctx.midway (x : Ctx) : Bool := match x.wait with | some (.parts ..) => true | _ => false

/-- Tasks whose budget is spent while they are BLOCKED are descheduled at once (R333). -/
def State.expireBlocked (s : State) : State :=
  if s.mgmt.tripped then s
  else s.scs.foldl (fun t p => (p.2.ctxs.filter (fun c =>
      decide (c.1 < 16) && c.2.st == .blocked && c.2.bud == 0 && !c.2.midway)).foldl
    (fun t c => if t.ctxReclaimed p.1 c.1 then t else t.spend p.1 c.1) t) s

/-- BUDGET_EXPIRY (R333): at an instruction boundary, or at once when BLOCKED; not while TRAPPED. -/
def execBudgetExpiry (n c : Nat) (s : State) : Result :=
  let x := s.ctx n c
  .next (if c < 16 ∧ (x.st = .ready ∨ x.st = .blocked) ∧ x.bud = 0 ∧ x.midway = false ∧ s.ctxReclaimed n c = false then s.spend n c else s)

/-! ## The ends of tasks (R246, R247, R261) -/

/-- TASK_END (R246): the wait of FRET or FRETF is over. -/
def execTaskEnd (n c : Nat) (s : State) : Result :=
  .next (match (s.ctx n c).st, (s.ctx n c).wait with
    | .blocked, some (.ending ids status result) =>
      if s.settledFor n c ids && !s.ctxReclaimed n c then s.endMe n c status result else s
    | _, _ => s)

/-- FSIG_DELIVERY (R261): the wait of FSIG is over; its entries that are still unsignalled are delivered. -/
def execFsigDelivery (n c : Nat) (s : State) : Result :=
  .next (match (s.ctx n c).st, (s.ctx n c).wait with
    | .blocked, some (.early ids m) =>
      if s.settledFor n c ids then
        let t := s.modCtx n c (fun x => { x.next with st := .ready })
        match s.toSignal (futKey (s.ctx n c).fut.toNat) m with
        | some (g, i, es) => t.signal g i es
        | none => t
      else s
    | _, _ => s)

/-- RECLAMATION_POINT (R247). -/
def execReclamationPoint (k : Nat) (s : State) : Result :=
  .next (if s.isReclaimed k && (s.reclaimDue k || (match s.locate k with
      | .inCtx n c => (s.ctx n c).st == .ready
      | _ => false)) then s.reclaimNow k
    else s)

/-! ## Launches (R318-R322, R328, R329) -/

/-- A launch descriptor (R320). -/
structure Desc where
  kind : Nat := 0
  flags : Nat := 0
  hint : Nat := 0
  zero : Bool := true
  count : Nat := 0
  entry : Nat := 0
  arg : Nat := 0
  rcb : Nat := 0
  deadline : Nat := 0
  slice : Nat := 0
  psrf : Nat := 0
  pctx : Nat := 0
  flag : Nat := 0
  value : Nat := 0

/-- A descriptor from its 64 bytes. -/
def descOf (bs : List Byte) : Desc :=
  { kind := fieldAt bs 0 1, flags := fieldAt bs 1 1, hint := fieldAt bs 2 1,
    zero := fieldAt bs 1 1 / 2 == 0 && bitsNat (fieldAt bs 2 1) 4 3 == 0 && fieldAt bs 3 1 == 0 && fieldAt bs 0x2E 2 == 0,
    count := fieldAt bs 4 4, entry := fieldAt bs 8 8, arg := fieldAt bs 0x10 8, rcb := fieldAt bs 0x18 8,
    deadline := fieldAt bs 0x20 4, slice := fieldAt bs 0x24 4, psrf := fieldAt bs 0x28 4, pctx := fieldAt bs 0x2C 2,
    flag := fieldAt bs 0x30 8, value := fieldAt bs 0x38 8 }

/-- Check 1: FLAG (R321). -/
def flagOk' (t : Topo) (d : Desc) : Bool := d.flag == 0 || (d.flag % 32 == 0 && inMemRange t d.flag 32)

/-- Check 4 (R321). -/
def Desc.shapeOk (d : Desc) : Bool :=
  (d.kind == 1 || d.kind == 2) && d.zero && d.entry % 4 == 0 && (d.kind == 1 || (d.count == 1 && d.entry == 0))

/-- Check 6, once the region is in the table (R321). -/
def State.admitOk (s : State) (d : Desc) : Bool :=
  (s.pools ovrSrf d.rcb).all (fun a => d.psrf ≤ (tgetD s.regions a {}).srfb)
    && (s.pools ovrCtx d.rcb).all (fun a => d.pctx ≤ (tgetD s.regions a {}).ctxb)
    && !(s.scsOf d.rcb).isEmpty

/-- The SC whose PTB a region's hub work translates under: the lowest-numbered live one of its mask (R321, R328). -/
def State.hubSc (s : State) (rcb : Nat) : Nat := ((s.scsOf rcb).head?).getD 0

/-- HEAD of a queue moved past an entry. -/
def State.pass (s : State) (q : Nat) : State := s.modQueue q (fun x => { x with head := (x.head + 1) % 2 ^ x.log2 })

/-- A launch refused with a status (R321). -/
def State.refuse (s : State) (q : Nat) (d : Desc) (status : Nat) : State :=
  let t := s.writeBlock (if flagOk' s.topo d then d.flag else 0) d.value status 0 0 0 noTix noTix
  (t.modQueue q (fun x => { x with ref := true, fresh := true, last := status })).pass q

/-- A TASK launch accepted. -/
def State.acceptLaunch (s : State) (q : Nat) (d : Desc) (graph : Bool) : State :=
  let l : Launch :=
    { queue := q, graph := graph, count := d.count, entry := BitVec.ofNat 64 d.entry, arg := BitVec.ofNat 64 d.arg, rcb := d.rcb,
      deadline := d.deadline, slice := d.slice, psrf := d.psrf, pctx := d.pctx,
      hint := if bitNat d.hint 7 then some (d.hint % 16) else none, flag := d.flag, value := d.value, seq := s.seq, t0 := s.tb }
  let t := (s.modQueue q (fun x => { x with infl := x.infl + 1 })).pass q
  { t with launches := tput t.launches t.nextLaunch l, nextLaunch := t.nextLaunch + 1, seq := t.seq + 1 }

/-- A GRAPH launch past check 6: refused, waiting for a future, or accepted (R321, R328). -/
def State.launchGraph (s : State) (q : Nat) (d : Desc) : State :=
  let n := s.hubSc d.rcb
  let p := s.readGraph n hubCtx d.arg
  match p.1 with
  | .error _ => p.2.refuse q d 0x14
  | .ok (x, ns) =>
    if 65536 < s.residentNodes (hubOf n) + x.n then p.2.refuse q d 0x14
    else match s.allocFut (q / 4096) with
      | none => s
      | some k =>
        let l := s.nextLaunch
        (p.2.acceptLaunch q d true).placeGraph k { rcb := d.rcb, launch := some l }
          { nodes := ns, flag := x.flag, rcb := d.rcb, sc := n, launch := some l }

/-- A read by the command processor of a hub, through its port (R282). -/
def State.cpRead (s : State) (h a n : Nat) : State := (s.performEarlier (cpPort h) a n).noteRead a n

/-- The RCBs of a chain read that are not resident (R324). -/
def State.readRcbs (s : State) (h rcb : Nat) : State := (s.chainReads 8 rcb).foldl (fun t a => t.cpRead h a 128) s

/-- Checks 4-7 and acceptance (R321).  An RCB address of 0, which names no region, is an invalid RCB. -/
def State.launchChecks (s : State) (q : Nat) (d : Desc) : State :=
  if !d.shapeOk then s.refuse q d 0x11
  else if d.rcb = 0 then s.refuse q d 0x12
  else
    let r := s.readRcbs (q / 4096) d.rcb
    match s.readChain 8 d.rcb with
    | none => r.refuse q d 0x12
    | some l =>
      let t := r.putRegions (q / 4096) l
      if !t.admitOk d then r.refuse q d 0x13
      else if 2048 < t.regionCount (q / 4096) then s
      else if d.kind = 2 then t.launchGraph q d
      else t.acceptLaunch q d false

/-- The address and the bytes of the next entry of a queue. -/
def State.nextAddr (s : State) (q : Nat) : Nat := (s.queue q).base.toNat + 64 * ((s.queue q).head % 2 ^ (s.queue q).log2)
def State.nextDesc (s : State) (q : Nat) : List Byte := (s.performEarlier (cpPort (q / 4096)) (s.nextAddr q) 64).bytes (s.nextAddr q) 64

/-- Has a queue a published entry (R319)? -/
def Queue.ready (x : Queue) : Bool := x.en && x.head % 2 ^ x.log2 != x.tail % 2 ^ x.log2

/-- The next entry of a queue read and acted on (R321, R322, R329).  DEDUCED (log 93): one with ORDER that fails check 1 or 2 is refused
at once, and any other, with COUNT 0 too, waits for the launches before it. -/
def State.readEntry (s : State) (q : Nat) : State :=
  let d := descOf (s.nextDesc q)
  let s := s.cpRead (q / 4096) (s.nextAddr q) 64
  if !flagOk' s.topo d then s.refuse q d 0x11
  else if 2 ^ 24 < d.count then s.refuse q d 0x10
  else if bitNat d.flags 0 && (s.queue q).infl != 0 then s
  else if d.count = 0 then (s.writeBlock d.flag d.value 1 0 0 0 noTix noTix).pass q
  else s.launchChecks q d

/-- LAUNCH_READ (R321): nothing has been read while the queue does not go past the entry. -/
def execLaunchRead (q : Nat) (s : State) : Result :=
  .next (if !(s.queue q).ready then s
    else
      let t := s.readEntry q
      if (t.queue q).head = (s.queue q).head then s else t)

/-! ## Graph nodes (R259, R260, R328) -/

/-- Is a body node of a WHILE running? -/
def Graph.bodyBusy (g : Graph) (w : Node) : Bool := g.nodes.zipIdx.any (fun p => w.inBody p.2 && p.1.st == .running)

/-- Edges the node's counter counted down from, as it stands. -/
def Node.awaited (x : Node) : Nat := if x.st = .running then x.nback else x.ndep

/-- A word read by the hub as an acquire, or the cause of its access's failure (R259). -/
def State.hubWord (s : State) (n a : Nat) : Except Nat Nat :=
  (s.checkAccess n hubCtx false true a 8).map (fun x => s.flagValue (localOf x.pa))

/-- The state after that read. -/
def State.hubRead (s : State) (n a : Nat) : State := (State.loadPieces n hubCtx 8 1 a s).2

/-- A body node before an iteration, in a wall cycle (R260). -/
def Node.fresh (x : Node) (now : Nat) : Node :=
  { x with st := .idle, ctr := x.ndep, zeroAt := now, status := 0, poisoned := false, normal := false, sent := [], iters := 0, fut := none, jobs := [] }

/-- One iteration of WHILE node i begins. -/
def State.iterate (s : State) (g i : Nat) (w : Node) : State :=
  let t : State := { s with graphs := tmod s.graphs g (fun x =>
    { x with nodes := (x.nodes.zipIdx).map (fun p => if w.inBody p.2 then p.1.fresh s.cycle else p.1) }) }
  let t := t.modNode g i (fun x =>
    { x with st := .running, ctr := x.nback, poisoned := false, normal := false, iters := x.iters + 1 })
  t.sendEdges g w.e1 .normal

/-- A TASK node spawns its task (R259); without a FREE future it waits.  DESIGN CHOICE (log 93): an entry that is no multiple of 4, for
which no rule names a check here, is taken as it is: the task then takes a FETCH trap (R198). -/
def State.taskNode (s : State) (gi i : Nat) (g : Graph) (x : Node) : State :=
  match s.allocFut (hubOf g.sc) with
  | none => s
  | some k =>
    (s.spawnAt k { entry := BitVec.ofNat 64 x.p0, arg := BitVec.ofNat 64 x.p1, rcb := g.rcb, node := some (gi, i) }).modNode gi i
      (fun x => { x with st := .running, fut := some k })

/-- The hub's issue slot as an owner of entries (R328). -/
def slotOwner (hub : Nat) : Owner := .ctx (20 + hub)

/-- A node that has an issue trap, or another fault of its own, with its cause as STATUS (R259). -/
def State.faultNode (s : State) (g i : Nat) (both : Bool) (cause : Nat) : State :=
  s.endNode g i .poison (if both then some .poison else none) (some cause)

/-- What SCOPY or SQUANT issues between two memory records, or STREAM_ARG (R224, R228). -/
def pairIssue (xop : Nat) (q r : Rec) : Except Nat Issue :=
  if xop = 0x90 then
    if q.fmt == r.fmt && q.total == r.total then
      .ok { work := .copy (.win q) (.win r) r.size, wins := [(q, false), (r, true)], flag := r.flagOf }
    else .error causeStreamArg
  else if q.fmt == 1 && isBx r.fmt && q.rank == r.rank && q.dims == r.dims && q.count == r.count then
    .ok { work := .quant q r, wins := [(q, false), (r, true)], flag := r.flagOf }
  else .error causeStreamArg

/-- The record of a TRANSFORM node, or the cause of its trap. -/
def State.nodeRecord (s : State) (n a : Nat) : Except Nat Rec :=
  match s.record n hubCtx (BitVec.ofNat 64 a) with
  | .ok r => .ok r
  | .error e => .error e.1

/-- What a TRANSFORM node issues on SC n, in order, with stream d for SDECOMP, or the cause of its issue trap (R259). -/
def State.nodeIssues (s : State) (n d : Nat) (x : Node) : Except Nat (List Issue) := do
  if x.xop = 0x96 then
    let va ← s.hubWord n x.p0
    let k ← s.hubWord n (x.p0 + 8)
    let mode ← s.hubWord n (x.p0 + 16)
    let tags ← s.hubWord n (x.p0 + 24)
    let r ← s.nodeRecord n x.p1
    if 1 ≤ k ∧ k ≤ 2 ^ 20 ∧ mode < 2 ∧ r.size = 256 * k then
      .ok [{ work := .decomp va k d tags (mode == 1), ends := [producer d], ranges := [(va, 256 * k, false), (tags, k, false)] },
           { work := .store r d none, flag := r.flagOf, wins := [(r, true)], ends := [consumer d] }]
    else .error causeStreamArg
  else
    let q ← s.nodeRecord n x.p0
    let r ← s.nodeRecord n x.p1
    (pairIssue x.xop q r).map (fun i => [i])

/-- The stripe a TRANSFORM node allocates for SDECOMP: a free descriptor and 16 units on the lowest aligned group of four
live cores, where the region's pools have room (R259). -/
def State.nodeStream (s : State) (n rcb : Nat) : Option (Nat × Stream) :=
  match s.groups n 4 with
  | [] => none
  | f :: _ =>
    match tfree (s.sc n).streams 128, (List.range 497).find? (fun off =>
        !(s.sc n).streams.any (fun p => p.2.meets f 4 off 16)) with
    | some d, some off =>
      if s.srfRoom rcb 64 then
        some (d, { first := f, g := 4, units := 16, off := off, owner := slotOwner (hubOf n), region := rcb, dying := true })
      else none
    | _, _ => none

/-- Words read by the hub one after the other, up to the first that fails: whether none does, and the state. -/
def State.readWords (n : Nat) : List Nat → State → Bool × State
  | [], s => (true, s)
  | a :: as, s =>
    let t := s.hubRead n a
    match s.hubWord n a with
    | .ok _ => State.readWords n as t
    | .error _ => (false, t)

/-- The state after what a TRANSFORM node reads when it is dispatched: the four words of SDECOMP, and its records (R259). -/
def State.nodeReads (s : State) (n : Nat) (x : Node) : State :=
  if x.xop = 0x96 then
    let p := State.readWords n [x.p0, x.p0 + 8, x.p0 + 16, x.p0 + 24] s
    if p.1 then State.readRecs n hubCtx [x.p1] p.2 else p.2
  else State.readRecs n hubCtx [x.p0, x.p1] s

/-- The entries of a TRANSFORM node taken one after the other; their numbers. -/
def State.enterAll (s : State) (n : Nat) (o : Owner) : List Issue → State × List (Nat × Nat)
  | [] => (s, [])
  | i :: is =>
    let id := (s.sc n).nextEntry
    let r := State.enterAll (s.enter n o [] i) n o is
    (r.1, (n, id) :: r.2)

/-- Has the slot room for k more entries (R169, R328)? -/
def Sc.roomFor (t : Sc) (o : Owner) (k : Nat) : Bool :=
  let live := t.entries.filter (fun e => e.st != .retired)
  live.length + k ≤ 64 && (live.filter (fun e => e.owner == o)).length + k ≤ 32

/-- The translations that the window checks of issues make, up to the first that traps (R187). -/
def State.windowWalks (s : State) (n : Nat) : List Issue → State
  | [] => s
  | i :: is => if (s.windowTrap n i).isSome then s.windowWalk n i else State.windowWalks (s.windowWalk n i) n is

/-- Issues of a TRANSFORM node, `r` the state after its reads, in which `g` allocates what it needs: a trap ends the node, a commit or a
full scoreboard keeps it waiting, with nothing read (R259, R279, R328). -/
def State.issueNode (s r : State) (g : State → State) (gi i n : Nat) (l : List Issue) : State :=
  let o := slotOwner (hubOf n)
  if l.any (fun x => x.addresses.any s.commitHits) then s
  else match l.findSome? (s.windowTrap n) with
    | some (c, _) => (r.windowWalks n l).faultNode gi i false c
    | none =>
      if !(s.sc n).roomFor o l.length then s
      else
        let p := (g (r.windowWalks n l)).enterAll n o l
        p.1.modNode gi i (fun x => { x with st := .running, jobs := p.2 })

/-- A TRANSFORM node dispatched (R259, R328). -/
def State.transformNode (s : State) (gi i : Nat) (g : Graph) (x : Node) : State :=
  let n := s.hubSc g.rcb
  let r := s.nodeReads n x
  match s.nodeIssues n 0 x with
  | .error c => r.faultNode gi i false c
  | .ok l =>
    if x.xop = 0x96 then
      match s.nodeStream n g.rcb with
      | none => s
      | some (d, st) => match s.nodeIssues n d x with
        | .error _ => s
        | .ok l => s.issueNode r (fun t => (t.chargeSrf g.rcb 64).setStream n d st) gi i n l
    else s.issueNode r id gi i n l

/-- STATUS of a node that a poisoned edge ends (R242, R259). -/
def statusPoisoned : Nat := 0x41

/-- A node whose counter has reached zero acts on the edges it received (R259, R260). -/
def State.actNode (s : State) (gi i : Nat) (g : Graph) (x : Node) : State :=
  if x.poisoned then s.endNode gi i .poison (some .poison) (some statusPoisoned)
  else if x.awaited ≠ 0 && !x.normal then s.endNode gi i .skip (some .skip) none
  else if x.kind = 1 then s.taskNode gi i g x
  else if x.kind = 2 then s.transformNode gi i g x
  else if x.kind = 3 then
    let t := s.hubRead (s.hubSc g.rcb) x.p0
    match s.hubWord (s.hubSc g.rcb) x.p0 with
    | .error c => t.faultNode gi i true c
    | .ok 0 => t.endNode gi i .normal (some .skip) none
    | .ok _ => t.endNode gi i .skip (some .normal) none
  else if x.kind = 4 then
    let t := s.hubRead (s.hubSc g.rcb) x.p0
    match s.hubWord (s.hubSc g.rcb) x.p0 with
    | .error c => t.faultNode gi i true c
    | .ok v => if v ≠ 0 ∧ x.iters < x.cap then t.iterate gi i x else t.endNode gi i .normal none none
  else s.endNode gi i .normal none none

/-- Have the jobs a TRANSFORM node issued all completed? -/
def State.jobsOver (s : State) (x : Node) : Bool := x.jobs.all (fun j => !notComplete (s.sc j.1) j.2)

/-- Is a node to be dispatched: its counter is zero and it has not acted on it? -/
def Graph.ripe (g : Graph) (x : Node) : Bool :=
  x.ctr == 0 && (x.st == .idle || (x.st == .running && x.kind == 4 && !g.bodyBusy x))

/-- Is a node of lower index to be dispatched whose counter reached zero in the same wall cycle (R328)? -/
def Graph.behind (g : Graph) (i : Nat) (x : Node) : Bool := (g.nodes.take i).any (fun y => g.ripe y && y.zeroAt == x.zeroAt)

/-- GRAPH_NODE_DISPATCH (R259, R328): a node whose counter has reached zero acts, after those of lower index that reached it in
the same cycle; a TRANSFORM node whose jobs have completed ends. -/
def execGraphNodeDispatch (gi i : Nat) (s : State) : Result :=
  .next (match tget s.graphs gi with
    | none => s
    | some g =>
      match g.nodes[i]? with
      | none => s
      | some x =>
        if g.ripe x then (if g.behind i x then s else s.actNode gi i g x)
        else if x.st = .running ∧ x.kind = 2 ∧ s.jobsOver x then s.endNode gi i .normal none none
        else s)

end Sys2Proof.Machine
end

