-- ==== Sys2Proof/Machine/Translation.lean ====
section
/-!
DEFINITION. The translation instructions 0xA0-0xA5 (R274-R279): TLB invalidation, XLAT and the range registers.
-/

namespace Sys2Proof.Machine

/-- The ASID of the executing SC. -/
def State.myAsid (s : State) : Nat := ptbAsid s.mySc.ptb

/-- TLB entries dropped in the package, then the wait for pins (R277). -/
def State.tlbWait (s : State) (f : Nat → Xlat → Bool) (va : Option Nat) : State :=
  let t := s.dropTlb f
  if t.pinned t.myAsid va then t.block (.pins t.myAsid va) else t.fin

/-- TLBINV (R277). -/
def execTlbinv (a : BitVec 5) (s : State) : Result :=
  priv (wRR 0xA0 0 a 0 0) [a] s (fun s =>
    let va := (s.g a).toNat
    if canonical va then s.tlbWait (fun i x => i == s.myAsid && x.maps va) (some va) else s.fin)

/-- TLBINVA (R277). -/
def execTlbinva (s : State) : Result :=
  priv (wRI 0xA1 0 0 0) [] s (fun s => s.tlbWait (fun i _ => i == s.myAsid) none)

/-- XLAT (R277). -/
def execXlat (d a : BitVec 5) (s : State) : Result :=
  ctl [d, a] s (fun s => (s.touchMe (s.g a).toNat).ret d (xlatWord (s.xlat s.cur.sc (s.g a).toNat)))

/-- The staging word of a range register of the executing SC's die. -/
def State.stageKey (s : State) (r : BitVec 6) (w : BitVec 2) : Nat := 256 * (s.cur.sc / 2) + 4 * r.toNat + w.toNat

/-- RNGSET (R277). -/
def execRngset (a : BitVec 5) (r : BitVec 6) (w : BitVec 2) (s : State) : Result :=
  priv (wRI 0xA3 0 a (r.toNat * 256 + w.toNat)) [a] s (fun s =>
    State.fin { s with rngStage := tput s.rngStage (s.stageKey r w) (s.g a) })

/-- The bits of each word of a range register that are fields; the others read as zero (R12, R274), though the check of a commit still
finds what was written there (R279). -/
def rngMask (w : Nat) : Word :=
  if w = 0 then 0xFFFFFFFFFFFF0000 else if w = 1 then 0xFFFFFFFFFFFF003F else if w = 2 then 0x1FFFFFFFFF0000 else 0xFFFFFF

/-- RNGGET: staging, or live (R277). -/
def execRngget (d : BitVec 5) (r : BitVec 6) (l : BitVec 1) (w : BitVec 2) (s : State) : Result :=
  priv (wRI 0xA4 d 0 (r.toNat * 256 + l.toNat * 4 + w.toNat)) [d] s (fun s =>
    s.ret d ((if l = 1 then tgetD s.rngLive (4 * r.toNat + w.toNat) 0 else tgetD s.rngStage (s.stageKey r w) 0) &&& rngMask w.toNat))

/-- Has the package a fabric (R279)?  It has while some optical lane is live (R352; log 18). -/
def State.hasFabric (s : State) : Bool := s.topo.lanes != 0

/-- Word w of staging register r of a die. -/
def State.stage (s : State) (die r w : Nat) : Nat := (tgetD s.rngStage (256 * die + 4 * r + w) 0).toNat

/-- The check of one staging register (R279 step 1). -/
def State.stageOk (s : State) (die r : Nat) : Bool :=
  let w := s.stage die r
  !bitNat (w 1) 0
    || (w 0 % 2 ^ 16 == 0 && canonical (w 0) && bitsNat (w 1) 6 10 == 0 && decide (w 0 / 2 ^ 16 < w 1 / 2 ^ 16)
        && w 2 / 2 ^ 53 == 0 && w 2 % 2 ^ 16 == 0 && w 3 / 2 ^ 24 == 0
        && !(bitsNat (w 3) 12 12 == 0 && bitsNat (w 2) 41 12 != s.pkgid && !s.hasFabric))

/-- The 64 KiB chunks of a pin. -/
def Pin.chunks (p : Pin) : List Nat :=
  if p.hi ≤ p.lo then [] else (List.range ((p.hi - 1) / 65536 - p.lo / 65536 + 1)).map (fun i => (p.lo / 65536 + i) * 65536)

/-- Does a pin cover a VA whose live translation a commit of a die changes (R279 step 2)? -/
def State.commitHeld (s : State) (die : Nat) : Bool := s.pins.any (fun p => p.chunks.any (s.rngChanges die))

/-- The commit waits: its place among the commits is kept. -/
def State.queueCommit (s : State) : State :=
  let me := (s.cur.sc, s.cur.ctx)
  { s with committing := if s.committing.contains me then s.committing else s.committing ++ [me] }

/-- May the commit of context c of SC n take place: it is the first, and no pin holds it? -/
def State.commitReady (s : State) (n c : Nat) : Bool := s.committing.head? == some (n, c) && !s.commitHeld (n / 2)

/-- RNGCOMMIT (R279). -/
def execRngcommit (s : State) : Result :=
  priv (wRI 0xA5 0 0 0) [] s (fun s =>
    let die := s.cur.sc / 2
    if (List.range 64).all (s.stageOk die) then
      let t := s.queueCommit
      if t.commitReady s.cur.sc s.cur.ctx then
        State.fin { t.staged die with committing := t.committing.filter (· != (s.cur.sc, s.cur.ctx)) }
      else t.block .commit
    else State.trap { s with committing := s.committing.filter (· != (s.cur.sc, s.cur.ctx)) } causeStreamArg (wRI 0xA5 0 0 0))

end Sys2Proof.Machine
end

