-- ==== Sys2Proof/Machine/Shared.lean ====
section
/-!
DEFINITION. Read-duplicate pages: PSPLIT, POWN, PDUP and PSTAT (R338-R348), with this package's part of each as a holder, and of
those that another holder makes (log 33).
-/

namespace Sys2Proof.Machine

/-- The valid record of the frame that holds a local address, if bits [63:41] of it are zero (R342). -/
def State.dupRec (s : State) (a : Nat) : Option Nat :=
  if a < 2 ^ 41 then (List.range 256).find? (fun i => s.drecV i && s.drecFrame i == a / 2 ^ 21 * 2 ^ 21) else none

/-- The home of a record. -/
def State.dupHome (s : State) (i : Nat) : Nat := s.drecHold i 0

/-- The owner of a block, while it is OWNED (R340). -/
def State.dupOwner (s : State) (i b : Nat) : Option Nat := tget (s.dupPage i).owned b

/-- The page's directory state changed. -/
def State.modDup (s : State) (i : Nat) (f : DupPage → DupPage) : State := { s with dup := tput s.dup i (f (s.dupPage i)) }

/-! ## PTEs of a holder (R343) -/

/-- Where the level-0 leaf of block b of record i is. -/
def State.dupLeaf (s : State) (i b : Nat) : Nat := s.drecTbl i + 8 * b

/-- A PTE as the holder's agent reads it. -/
def State.pte (s : State) (a : Nat) : Nat := s.readNat a 8

/-- A PTE written so that the write performs at PKG scope (R343 step 1). -/
def State.putPte (s : State) (a p : Nat) : State := s.writeNat a 8 p

/-- Fields of a PTE replaced: V, DUP, OWN, ADDR. -/
def pteV (p : Nat) (v : Bool) : Nat := p / 2 * 2 + (if v then 1 else 0)
def pteDup (p : Nat) (d : Bool) (own : Nat) : Nat := (if d then 2 ^ 63 else 0) + bitsNat p 53 10 * 2 ^ 53 + own * 2 ^ 41 + p % 2 ^ 41
def pteAddr (p a : Nat) : Nat := p / 2 ^ 41 * 2 ^ 41 + a / 256 % 2 ^ 33 * 256 + p % 256

/-- TLB entries whose translation meets a range of this package's memory dropped (R343 step 2). -/
def State.dropRange (s : State) (lo n : Nat) : State :=
  s.dropTlb (fun _ x => pkgOf x.pa == s.pkgid && decide (localOf x.pa < lo + n)
    && decide (lo < localOf x.pa + pageBytes x.size))

/-- Where a 64 KiB chunk of virtual addresses is, by a range register or the page tables. -/
def State.chunkAt (s : State) (root : Option Word) (va : Nat) : Option Nat :=
  match s.rngFor va with
  | some r => (s.rngXlat r va).map Xlat.pa
  | none => (s.walkPage root va).map (fun x => x.pa + va % pageBytes x.size)

/-- Is there a pin over a VA that translates into a range of this package's memory (R343 step 3)? -/
def State.rangePinned (s : State) (lo n : Nat) : Bool :=
  s.scs.any (fun p => p.2.entries.any (fun e => e.pins.any (fun q => q.chunks.any (fun va =>
    match s.chunkAt e.ptb va with
    | some pa => pkgOf pa == s.pkgid && decide (localOf pa < lo + n) && decide (lo < localOf pa + 65536)
    | none => false))))

/-- The lines of a range written back and invalidated in every data cache (R343 step 4). -/
def State.flushRange (s : State) (lo n : Nat) : State :=
  (List.range 16).foldl (fun t m =>
    (((t.sc m).lines.map Prod.fst).filter (fun k => decide (lo ≤ 64 * k) && decide (64 * k < lo + n))).foldl
      (fun t k => t.evict m k) t) s

/-- The local address of block b of record i. -/
def State.dupAddr (s : State) (i b : Nat) : Nat := s.drecFrame i + 65536 * b

/-- Is block b of record i under a pin, its leaf as it was before a change (R343 step 3)? -/
def State.blockPinned (s : State) (i b old : Nat) : Bool :=
  (s.putPte (s.dupLeaf i b) old).rangePinned (s.dupAddr i b) 65536

/-- A leaf of this package rewritten: steps 1 and 2 of R343. -/
def State.regrow (s : State) (i b p : Nat) : State := (s.putPte (s.dupLeaf i b) p).dropRange (s.dupAddr i b) 65536

/-- A leaf of this package rewritten, its mapping removed or made read-only: steps 1 and 2 of R343 once, then, when no pin is left,
step 4 and `f`; and whether that is done. -/
def State.shrink (s : State) (i b p : Nat) (f : State → State) : State × Bool :=
  let old := match (s.dupPage i).begun with
    | some x => x.2
    | none => s.pte (s.dupLeaf i b)
  let t := match (s.dupPage i).begun with
    | some _ => s
    | none => (s.regrow i b p).modDup i (fun d => { d with begun := some (b, old) })
  if t.blockPinned i b old then (t, false)
  else (f ((t.flushRange (t.dupAddr i b) 65536).modDup i (fun d => { d with begun := none })), true)

/-- A block's bytes put into this package's copy. -/
def State.receive (s : State) (i b : Nat) (data : List Byte) : State := s.write (s.dupAddr i b) (padTo 65536 data)

/-- A block's bytes sent to another holder. -/
def State.sendBlock (s : State) (i b p : Nat) : State :=
  let lo := s.dupAddr i b
  (s.noteRead lo 65536).emit (.block p lo (s.bytes lo 65536))

/-- What came for an operation is used up. -/
def State.tookBlock (s : State) (i : Nat) : State := s.modDup i (fun d => { d with block := none })

/-! ## This package's part of an operation (R344-R346) -/

/-- Has every other live holder completed the operation under way? A holder marked dead is skipped (R342). -/
def State.othersDone (s : State) (i : Nat) : Bool :=
  (s.holds i).all (fun h => h == s.pkgid || s.isDead h || (s.dupPage i).acks.contains h)

/-- PSPLIT: it has no effect on a page that is SPLIT (R344). -/
def State.splitPage (s : State) (i : Nat) : State :=
  if (s.dupPage i).split then s
  else
    let fr := s.drecFrame i
    let p := s.pte (s.drecL1 i)
    let t := (List.range 32).foldl (fun t k => t.putPte (s.dupLeaf i k) (pteAddr p (fr + 65536 * k))) s
    ((t.putPte (s.drecL1 i) (s.drecTbl i / 256 % 2 ^ 33 * 256 + 1)).dropRange fr (2 ^ 21)).modDup i (fun d => { d with split := true })

/-- Block b is OWNED by o from now on. -/
def State.setOwner (s : State) (i b o : Nat) : State := s.modDup i (fun d => { d with owned := tput d.owned b o })

/-- The owner's leaf of POWN (R345). -/
def State.gain (s : State) (i b o : Nat) : State :=
  (s.regrow i b (pteV (pteDup (s.pte (s.dupLeaf i b)) false o) true)).setOwner i b o

/-- POWN: the state, and whether this package's part is done; the bytes of a block that another holder owns must have come (R345),
and a block that was DUP is its new owner's once every other mapping is removed (R348). -/
def State.own (s : State) (i b o : Nat) : State × Bool :=
  let me := s.pkgid
  let gone := pteV (s.pte (s.dupLeaf i b)) false
  if (s.dupPage i).split = false then (s, true)
  else match s.dupOwner i b with
  | some p =>
    if p = o then (s, true)
    else if me = p then s.shrink i b gone (fun t => (if t.isDead o then t else t.sendBlock i b o).setOwner i b o)
    else if me = o then
      if s.isDead p then (s.gain i b o, true)
      else match (s.dupPage i).block with
        | some x => (((s.receive i b x.2).tookBlock i).gain i b o, true)
        | none => (s, false)
    else (s.setOwner i b o, true)
  | none =>
    if me = o then (if s.othersDone i then (s.gain i b o, true) else (s, false))
    else s.shrink i b gone (fun t => t.setOwner i b o)

/-- The block is DUP, and a page whose 32 blocks all are becomes WHOLE (R346 step 4). -/
def State.rejoin (s : State) (i b : Nat) : State :=
  let t := s.modDup i (fun d => { d with owned := tdel d.owned b })
  if (t.dupPage i).owned.isEmpty then
    let p := pteDup (pteAddr (pteV (t.pte (t.dupLeaf i 0)) true) (t.drecFrame i)) true (t.dupHome i)
    (((t.noteRead (t.dupLeaf i 0) 8).putPte (t.drecL1 i) p).dropRange (t.drecFrame i) (2 ^ 21)).modDup i
      (fun d => { d with split := false })
  else t

/-- A leaf rebuilt from an owner's on another package (R346 step 3). -/
def State.rebuild (s : State) (i b leaf : Nat) : State :=
  s.regrow i b (2 ^ 63 + s.dupHome i * 2 ^ 41 + s.dupAddr i b / 256 % 2 ^ 33 * 256 + bitsNat leaf 2 6 * 4 + 3)

/-- The block sent to every other live holder. -/
def State.sendCopies (s : State) (i b : Nat) : State :=
  ((s.holds i).filter (fun h => h != s.pkgid && !s.isDead h)).foldl (fun t h => t.sendBlock i b h) s

/-- PDUP: likewise; the leaf of an owner that is another live holder must have come, with the bytes where they are copied (R346). -/
def State.share (s : State) (i b : Nat) (copy : Bool) : State × Bool :=
  let mine := s.pte (s.dupLeaf i b)
  match s.dupOwner i b with
  | none => (s, true)
  | some p =>
    if s.pkgid = p then
      s.shrink i b (pteDup mine true (s.dupHome i)) (fun t => (if copy then t.sendCopies i b else t).rejoin i b)
    else if s.isDead p then ((s.regrow i b (pteV (pteDup mine true (s.dupHome i)) true)).rejoin i b, true)
    else match (s.dupPage i).block with
      | some x => ((((if copy then s.receive i b x.2 else s).tookBlock i).rebuild i b x.1).rejoin i b, true)
      | none => (s, false)

/-- This package's part of an operation: the state, and whether it is done. -/
def State.dupAct (s : State) (i : Nat) : DupAct → State × Bool
  | .split => (s.splitPage i, true)
  | .own b o => s.own i b o
  | .dup b copy => s.share i b copy

/-! ## One operation at a time (R340) -/

/-- The first operation on a page is over at every live holder: what each has reported for it is used up. -/
def State.popDup (s : State) (i : Nat) : State :=
  s.modDup i (fun d => { d with ops := d.ops.drop 1, block := none, mine := false, acks := (s.holds i).foldl List.erase d.acks })

/-- This package's part of the operation under way, done once; its end is told to the other holders (R340, R342). -/
def State.partDup (s : State) (i : Nat) (a : DupAct) : State × Bool :=
  if (s.dupPage i).mine then (s, true)
  else
    let r := s.dupAct i a
    if r.2 then ((r.1.modDup i (fun d => { d with mine := true })).emit (.partDone (s.drecFrame i)), true) else r

/-- An operation joins those on a page, in the order they reach the home (R340). -/
def State.enqueueDup (s : State) (i : Nat) (who : Option (Nat × Nat)) (a : DupAct) : State :=
  s.modDup i (fun d => { d with ops := d.ops ++ [{ who := who, act := a }] })

/-- An operation of the executing context: it reaches a home that is this package at once, and another when that one says so (R340). -/
def State.askDup (s : State) (i : Nat) (a : DupAct) : State :=
  let who := some (s.cur.sc, s.cur.ctx)
  if s.dupHome i = s.pkgid then s.enqueueDup i who a
  else s.modDup i (fun d => { d with asked := d.asked ++ [{ who := who, act := a }] })

/-- An operation gone on with: the state, and whether it has completed at every live holder. -/
def State.tryDup (s : State) (i : Nat) (a : DupAct) : State × Bool :=
  let r := s.partDup i a
  (r.1, r.2 && r.1.othersDone i)

/-- Could the operation of context c of SC n on a page, the first there, complete now? -/
def State.dupReady (s : State) (i n c : Nat) : Bool :=
  match (s.dupPage i).ops.head? with
  | some o => o.who == some (n, c) && (s.tryDup i o.act).2
  | none => false

/-- The executing context's operation on a page, if it is the first there: gone on with; the instruction is over when every live
holder has completed it, and the context waits until then (R340, R342). -/
def State.goDup (s : State) (i : Nat) : State :=
  match (s.dupPage i).ops.head? with
  | some o =>
    if o.who = some (s.cur.sc, s.cur.ctx) then
      let r := s.tryDup i o.act
      if r.2 then (r.1.popDup i).fin else r.1.block (.page i)
    else s.block (.page i)
  | none => s.block (.page i)

/-- The first operation on a page goes on: that of a context here is over when the context wakes, another holder's when every live
holder has completed it. -/
def State.runDup (s : State) (i : Nat) : State :=
  match (s.dupPage i).ops.head? with
  | none => s
  | some o =>
    let r := s.tryDup i o.act
    if o.who.isNone && r.2 then r.1.popDup i else r.1

/-- The operations of this package that a home marked dead has not taken: it is skipped (R342). -/
def State.skipHome (s : State) (i : Nat) : State :=
  if s.isDead (s.dupHome i) then s.modDup i (fun d => { d with ops := d.ops ++ d.asked, asked := [] }) else s

/-- Every page's first operation goes on. -/
def State.runDups (s : State) : State := s.dup.foldl (fun t p => (t.skipHome p.1).runDup p.1) s

/-- Another holder's operation on the page of a frame (R340, R342): one on no record here, or of an owner that is no holder, is no
operation on the page. -/
def State.peerAct (s : State) (a : Nat) (f : Nat → DupAct) : State :=
  match s.dupRec a with
  | none => s
  | some i =>
    match f (bitsNat a 16 5) with
    | .own b o => if (s.holds i).contains o then s.enqueueDup i none (.own b o) else s
    | x => s.enqueueDup i none x

/-- What comes for the first operation on a page from the owner of its block. -/
def State.peerBlock (s : State) (a leaf : Nat) (data : List Byte) : State :=
  match s.dupRec a with
  | none => s
  | some i => if (s.dupPage i).ops.isEmpty then s else s.modDup i (fun d => { d with block := some (leaf, data) })

/-- The home has taken the oldest operation that this package asked of it for the page of a frame: those that other holders made and
that reached it before have come (R340). -/
def State.peerTurn (s : State) (a : Nat) : State :=
  match s.dupRec a with
  | none => s
  | some i => s.modDup i (fun d => { d with ops := d.ops ++ d.asked.take 1, asked := d.asked.drop 1 })

/-- Another holder has completed an operation on the page of a frame (R342): the one under way here, or one that has yet to come. -/
def State.peerDone (s : State) (a p : Nat) : State :=
  match s.dupRec a with
  | none => s
  | some i => if (s.holds i).contains p then s.modDup i (fun d => { d with acks := d.acks ++ [p] }) else s

/-! ## The instructions (R342) -/

/-- An instruction on a record: check 1, with `ok` the test of g[gb], then check 2 and, with `f`, the rest, each made once: an
operation that waits is not checked again. -/
def onPage (w a : Word) (s : State) (ok : Nat → Bool) (f : Nat → Nat → Except (Nat × Word) DupAct) : State :=
  match s.me.wait with
  | some (.page i) => s.goDup i
  | _ =>
    match s.dupRec a.toNat with
    | none => s.trap causeStreamArg w
    | some i =>
      if !ok i then s.trap causeStreamArg w
      else if s.isDead (s.dupHome i) then s.trap causeStreamBounds a
      else match f i (bitsNat a.toNat 16 5) with
        | .error e => s.trap e.1 e.2
        | .ok x => (s.askDup i x).goDup i

/-- PSPLIT (R344). -/
def execPsplit (a : BitVec 5) (s : State) : Result :=
  let w := wRR 0xA6 0 a 0 0
  priv w [a] s (fun s => onPage w (s.g a) s (fun _ => true) (fun _ _ => .ok .split))

/-- POWN (R345). -/
def execPown (a b : BitVec 5) (s : State) : Result :=
  let w := wRR 0xA7 0 a b 0
  priv w [a, b] s (fun s => onPage w (s.g a) s (fun i => (s.holds i).contains (s.g b).toNat) (fun i k =>
    if (s.dupPage i).split then .ok (.own k (s.g b).toNat) else .error (causeStreamArg, w)))

/-- PDUP (R346). -/
def execPdup (a b : BitVec 5) (s : State) : Result :=
  let w := wRR 0xA8 0 a b 0
  priv w [a, b] s (fun s =>
    let v := (s.g b).toNat
    onPage w (s.g a) s (fun _ => decide (v ≤ 1)) (fun i k =>
      if v = 0 ∧ ((s.dupOwner i k).map s.isDead).getD false = true then .error (causeStreamBounds, s.g a)
      else .ok (.dup k (v == 0))))

/-- The word of PSTAT (R347). -/
def State.pageWord (s : State) (a : Nat) : Word :=
  match s.dupRec a with
  | none => 0
  | some i =>
    let b := bitsNat a 16 5
    let o := s.dupOwner i b
    BitVec.ofNat 64 (2 ^ 63 + (if (s.dupPage i).split then 2 ^ 62 else 0) + (if o.isSome then 2 ^ 61 else 0)
      + (o.getD (s.dupHome i)) * 2 ^ 41 + s.drecFrame i + b * 65536 + s.drecN i)

/-- PSTAT (R347). -/
def execPstat (d a : BitVec 5) (s : State) : Result :=
  priv (wRR 0xA9 d a 0 0) [d, a] s (fun s => s.ret d (s.pageWord (s.g a).toNat))

end Sys2Proof.Machine
end

