-- ==== Sys2Proof/Machine/Contexts.lean ====
section
/-!
DEFINITION. The life of a control-core context: fetch (R198), asynchronous traps and their hand-over (R203, R205), waits and
PAUSE (R165, R202), handlers (R167), and what follows every turn.
-/

namespace Sys2Proof.Machine

/-! ## Fetch (R198) -/

/-- The word at a translated address: package register space gives zero for a 4-byte read (R317). -/
def State.fetchWord (s : State) (a : Nat) : W32 := if inRegs a then 0 else BitVec.ofNat 32 (s.readNat a 4)

/-- What context c of SC n would issue: the instruction at its pc, or the trap its fetch takes. -/
noncomputable def State.fetched (s : State) (n c : Nat) : Instr :=
  let pc := (s.ctx n c).pc
  match s.xlat n pc.toNat with
  | none => .fetchFault pc
  | some x => if x.x && pc.toNat % 4 == 0 then decode (s.fetchWord (localOf x.pa)) else .fetchFault pc

/-! ## Issue (R165) -/

/-- Can a context issue: READY, with no PAUSE running, on a control core that has not stopped? -/
def State.canIssue (s : State) (n c : Nat) : Bool :=
  decide ((s.ctx n c).st = .ready) && (s.ctx n c).pause == 0 && !(s.sc n).stopped

/-- The first context that can issue after the one that issued last, in rising number and wrapping from 19 to 0. -/
def State.nextCtx (s : State) (n : Nat) : Option Nat :=
  (((List.range 20).map (fun i => ((s.sc n).last + 1 + i) % 20)).find? (s.canIssue n))

/-! ## Asynchronous traps (R203, R205) -/

/-- A wait in which an asynchronous trap is taken at once (R203, R277), or before an instruction that waits for a register
has issued (R227). -/
def Wait.trapsIn : Wait → Bool
  | .future _ => true
  | .phase _ _ => true
  | .flag _ _ met => !met
  | .retired _ => true
  | .complete _ => true
  | .krq _ _ => true
  | .fence _ => true
  | .pins _ _ => true
  | .filled _ => true
  | .filledOf _ => true
  | _ => false

/-- May context c take a pending asynchronous trap now: at an instruction boundary, or in such a wait (R203)? -/
def Ctx.trapDue (x : Ctx) : Bool :=
  !x.apend.isEmpty && match x.wait with
    | none => x.st == .ready
    | some w => w.trapsIn && (x.st == .ready || x.st == .blocked)

/-- The oldest pending asynchronous trap taken (R203, R205). -/
def State.takeAsync (s : State) (n c : Nat) : State :=
  let x := s.ctx n c
  match x.apend with
  | [] => s
  | (cause, tval) :: rest => (s.takeTrap n c cause true tval x.pc).modCtx n c (fun x => { x with apend := rest })

/-- ASYNC_TRAP (R203). -/
def execAsyncTrap (n c : Nat) (s : State) : Result :=
  .next (if (s.ctx n c).trapDue then s.takeAsync n c else s)

/-- TRAP_HANDOVER (R205). -/
def execTrapHandover (n : Nat) (s : State) : Result := .next (s.handOver n)

/-! ## Waits (R165, R202) -/

/-- PAUSE_EXPIRY: the wall cycles of a PAUSE have passed (R202). -/
def execPauseExpiry (n c : Nat) (s : State) : Result :=
  .next (if (s.ctx n c).pause = 1 then s.modCtx n c (fun x => { x with pause := 0 }) else s)

/-- Has the run whose return queue is waited on an entry for core c, or has it retired (R221)? -/
def State.krqReady (s : State) (n k c : Nat) : Bool :=
  match tget (s.sc n).runs k with
  | none => true
  | some r => !(tgetD r.rq c []).isEmpty || r.phase == .retired

/-- Is the wait of context c of SC n over (R165)? -/
def State.waitOver (s : State) (n c : Nat) : Wait → Bool
  | .room => (s.sc n).room (s.ownerOf n c)
  | .krq k i => s.krqReady n k i
  | .retired ids => ids.all (fun i => !notRetired (s.sc n) i)
  | .complete ids => ids.all (fun i => !notComplete (s.sc n) i)
  | .settled ids => s.settledFor n c ids
  | .fence ids => s.settledFor n c ids
  | .ending _ _ _ => false
  | .early _ _ => false
  | .filled r => !((s.ctx n c).unfilled.contains r || (s.ctx n c).unfilled.contains (r + 32))
  | .future h => !s.futLive h || (s.fut (futKey h)).terminal || s.futLost h
  | .phase h p => !s.barOk n h || (s.barrier n h).exp == 0 || (s.barrier n h).phase != p
  | .flag pa _ met => met || !s.placeOk pa true
  | .pins a va => !s.pinned a va
  | .page i => s.dupReady i n c
  | .tag _ stack => s.maySend n c stack
  | .parts _ stack _ _ => s.maySend n c stack
  | .commit => s.commitReady n c
  | .touched vas => !vas.any s.commitHits
  | .filledOf k => (s.ctx n k).unfilled.isEmpty

/-- A wait that its instruction, once issued again, still has to know. -/
def Wait.kept : Wait → Option Wait
  | .filled _ => none
  | .filledOf _ => none
  | .settled _ => none
  | w => some w

/-- CONTEXT_WAKE: the context issues its instruction again (R165). -/
def execContextWake (n c : Nat) (s : State) : Result :=
  .next (match (s.ctx n c).wait with
    | some w =>
      if (s.ctx n c).st = .blocked ∧ s.waitOver n c w then s.modCtx n c (fun x => { x with st := .ready, wait := w.kept })
      else s
    | none => s)

/-! ## Handlers (R167) -/

/-- The lowest-numbered FREE message context. -/
def State.freeMessage (s : State) (n : Nat) : Option Nat := [16, 17].find? (fun c => (s.ctx n c).st == .free)

/-- A message context as an arrival starts it. -/
def handlerCtx (a : Arrival) : Ctx :=
  { st := .ready, pc := a.pc, g := [(1, a.arg), (2, BitVec.ofNat 64 a.src)].filter (fun p => p.2 != 0) }

/-- MESSAGE_CONTEXT_START (R167). -/
def execMessageContextStart (n : Nat) (s : State) : Result :=
  .next (match (s.sc n).arrivals, s.freeMessage n with
    | a :: rest, some c => (s.setCtx n c (handlerCtx a)).modSc n (fun t => { t with arrivals := rest })
    | _, _ => s)

/-! ## Watched flags (R255, R256) -/

/-- The wait of a context with the comparison of a watched flag made, where the flag has been written. -/
def State.watched (s : State) : Wait → Wait
  | .flag pa thr met => .flag pa thr (met || (s.flagWritten pa && decide (thr ≤ s.homeValue pa)))
  | w => w

/-- Does a context watch a flag whose comparison has not held? -/
def Ctx.watching (x : Ctx) : Bool := match x.wait with | some (.flag _ _ false) => true | _ => false

/-- Every watch compared, at the end of a wall cycle, with the value its flag holds at its home (R255, R256). -/
def State.compareFlags (s : State) : State :=
  s.scs.foldl (fun t p => (p.2.ctxs.filter (fun c => c.2.watching)).foldl (fun t c =>
    t.modCtx p.1 c.1 (fun x => { x with wait := x.wait.map s.watched })) t) s

/-! ## Effects in motion that can never be made (R248, R259, R335) -/

/-- Does an entry wait for another package, for a storage device or for its own retirement, and not for a stream? -/
def Entry.outward (e : Entry) : Bool :=
  e.st != .started || e.finished || !e.remote.isEmpty
    || (match e.work with
        | .run => true
        | .rput _ k _ => decide (k ≤ e.done)
        | .racc _ k _ => decide (k ≤ e.done)
        | .rsig _ => true
        | .rget .. => !e.sent
        | .nvme port _ _ k _ lb dst => !(e.sent && e.answered (nvmeCmds port lb k dst))
        | _ => false)

/-- Do two entries use one stream? -/
def Entry.shares (e f : Entry) : Bool := e.ends.any (fun x => f.ends.any (fun y => x.d == y.d))

/-- The entries of an SC that can go on: those that can now or wait for no stream, and those that share a stream with one that can. -/
def goersFrom (es : List Entry) : Nat → List Entry → List Entry
  | 0, l => l
  | k + 1, l => goersFrom es k (es.filter (fun e => l.any (fun f => f.id == e.id || e.shares f)))

/-- The entries of an SC that can go on. -/
def State.goers (s : State) (n : Nat) : List Nat :=
  let es := (s.sc n).entries
  entryIds (goersFrom es es.length (es.filter (fun e => e.outward || ((s.jobView e).moveJob n e).isSome)))

/-- What is left of effects in motion without the entries that no data will ever reach: a STARTED entry of a task that has ended,
whose streams nothing that can go on uses (DEDUCED, log 88). -/
def State.unstarved (s : State) (l : List Motion) : List Motion :=
  l.map (fun m => { m with ids := m.ids.filter (s.goers m.sc).contains })

/-- Launches and graphs wait no longer for such entries (R259, R335). -/
def State.dropStarved (s : State) : State :=
  if s.launches.all (fun p => p.2.motion.isEmpty) && s.graphs.all (fun p => p.2.motion.isEmpty) && s.owed.isEmpty then s
  else
    { s with launches := s.launches.map (fun p => (p.1, { p.2 with motion := s.unstarved p.2.motion })),
             graphs := s.graphs.map (fun p => (p.1, { p.2 with motion := s.unstarved p.2.motion })),
             owed := s.owed.map (fun o => { o with motion := s.unstarved o.motion }) }

/-! ## What follows every turn at once -/

/-- The consequences a turn has without any further event: arrivals that the hub holds enter a queue with room (R167), operations on
read-duplicate pages go on (R340), ports that have drained unlock (R355), reclamations that are due
happen (R247), signals of reclaimed tasks go on (R248), launches and graphs whose last effects have been made complete (R259,
R335), handlers of spent budgets are created (R333), waiting runs note since when they wait (R334), and regions nothing is
charged to leave (R324).  After a thermal trip nothing goes on (R394). -/
def State.settle (s : State) : State :=
  if s.mgmt.tripped then s
  else
    let t := s.admitArrivals.runDups.settlePorts
    (t.reclaimAll t.futs.length).deliverLate.dropStarved.payOwed.tryLaunches.spawnHandlers.noteWaits.gcRegions

/-- Snoops sent for lines a turn met, through port 0 in RUN (R350, R355); one already sent is not sent again. -/
def State.snooped (s : State) (hits : List (Nat × Bool)) : State :=
  if s.port 0 != .run then s
  else hits.foldl (fun t h => if t.snoops.contains h then t else { t.emit (.snoop h.1 h.2) with snoops := t.snoops ++ [h] }) s

/-- The end of a turn that took `s` to `t`: an access of a line the host holds waits for the host's answer, so the turn takes
nothing and is taken again later; otherwise what follows at once happens, or waits in the same way (R350). -/
def State.afterTurn (s t : State) : State :=
  if t.hits.isEmpty then
    let u := t.settle
    if u.hits.isEmpty then u else t.snooped u.hits
  else s.snooped t.hits

/-! ## What still acts (R388, R394) -/

/-- Management registers and the host port's configuration space: what answers after a thermal trip (R394). -/
def mgmtRegs (o : Nat) : Bool := 0x300000 ≤ o && o < 0x300030

/-- May an agent act?  After a thermal trip only the management registers, with the readings that TEMP and PWRNOW show, configuration
requests and a module reset; after
a boot that stopped only configuration requests of the half 0 port, a module reset and the thermal trip, which is hardwired
(R388, R394). -/
def State.mayAct (s : State) : Agent → Bool
  | .event (.moduleReset _) => true
  | .event .thermalTrip => true
  | .event (.configurationRequest p _) => !s.mgmt.dead || p == 0
  | a =>
    if s.mgmt.dead then false
    else if s.mgmt.tripped then
      match a with
      | .event (.powerSample _) => true
      | .event (.plimWrite _) => true
      | .event (.tthrWrite _) => true
      | .event (.hlthClear _) => true
      | .event (.registerWrite o _) => mgmtRegs o
      | .event (.hostRead r) => decide (r.space = .bar0) && mgmtRegs r.addr
      | .event (.hostWrite r) => decide (r.space = .bar0) && mgmtRegs r.addr
      | _ => false
    else true

/-! ## Time (R192, R330, R358) -/

/-- A PAUSE with wall cycles passed (R202). -/
def pauseAfter (p cyc : Nat) : Nat := if p = 0 then 0 else max 1 (p - cyc)

/-- A task's slice budget after some wall cycles; all ones is unlimited (R330). -/
def budAfter (b : Word) (cyc : Nat) : Word :=
  if b = BitVec.allOnes 64 then b else BitVec.ofNat 64 (b.toNat - cyc)

/-- A context after some wall cycles. -/
def Ctx.after (x : Ctx) (task : Bool) (cyc : Nat) : Ctx :=
  { x with pause := pauseAfter x.pause cyc,
           bud := if task && x.st != .free && x.st != .trapped then budAfter x.bud cyc else x.bud }

/-- What hardware has set before may be cleared from now on (R13). -/
def State.aged (s : State) : State :=
  { s with mgmt := { s.mgmt with fresh := 0 }, queues := s.queues.map (fun p => (p.1, { p.2 with fresh := false })) }

/-- The end of a wall cycle: watches compare (R255, R256), and what hardware set in it may be cleared again (R13). -/
def State.endCycle (s : State) : State := { s.compareFlags.aged with homeWrites := [] }

/-- Time passes: the time base, the wall cycles, PAUSEs and budgets; no wall cycle after a thermal trip, which stops the clocks that
count them (R22, R394): from then on any time that passes ends the cycle in which hardware set a bit (R13). -/
def State.advance (s : State) (ns cyc : Nat) : State :=
  let s := if s.mgmt.tripped && (ns != 0 || cyc != 0) then s.aged else s
  let cyc := if s.mgmt.tripped then 0 else cyc
  let s := if cyc = 0 then s else s.endCycle
  { s with tb := s.tb + ns, cycle := s.cycle + cyc,
           scs := s.scs.map (fun p => (p.1, { p.2 with ctxs := p.2.ctxs.map (fun c => (c.1, c.2.after (c.1 < 16) cyc)) })) }

/-! ## Turns -/

/-- The next turn: the head of the agenda, else one the configuration leaves open (log 1). -/
def State.takeTurn (s : State) : Turn × State :=
  match s.agenda with
  | t :: rest => (t, { s with agenda := rest })
  | [] => (Config.turn s.turnNo, { s with turnNo := s.turnNo + 1 })

/-- Is it an event of the device: neither an operation of a bundle, nor an instruction of a control core, nor a failing
fetch of one? -/
def isEvent : Instr → Bool
  | .fetchFault _ => false
  | i => (encode i).isNone

/-- Context c of SC n is the one that issues. -/
def State.atCtx (s : State) (n c : Nat) : State :=
  { s.modSc n (fun t => { t with last := c }) with cur := { s.cur with sc := n, ctx := c } }

/-- The state in which context c of SC n issues what it has fetched: its fetch was translated (R280), and a line the host holds is
met first (R350). -/
def State.afterFetch (s : State) (n c : Nat) : State :=
  let t := (s.atCtx n c).touch n true (s.sc n).root (s.ctx n c).pc.toNat
  match s.xlat n (s.ctx n c).pc.toNat with
  | none => t
  | some x => t.meetHost (localOf x.pa) 4 false

/-- An issue cycle of the control core of SC n (R165): at the boundary of the context's instruction a reclamation point, a
spent budget or a pending asynchronous trap comes first (R203, R247, R333).  DESIGN CHOICE (log 76): in that order.  An LDM or STM that
has begun is at no boundary: it goes on, and is not fetched again (R201). -/
noncomputable def State.issueContext (ex : Instr → State → Result) (s : State) (n : Nat) : Result :=
  match s.nextCtx n with
  | none => .next s
  | some c =>
    match (s.ctx n c).wait with
    | some (.parts _ _ _ w) => ex (decode w) (s.atCtx n c)
    | _ =>
    if s.ctxReclaimed n c then ex (.reclamationPoint (futKey (s.ctx n c).fut.toNat)) s
    else if c < 16 ∧ (s.ctx n c).bud = 0 ∧ (s.ctx n c).midway = false then ex (.budgetExpiry n c) s
    else if (s.ctx n c).trapDue then ex (.asyncTrap n c) s
    else ex (s.fetched n c) (s.afterFetch n c)

/-! ## Placing one instruction -/

/-- A number of 8 bytes put into memory. -/
def putDword (m : List Host.Cell) (a x : Nat) : List Host.Cell := cellPuts m a (natBytes 8 x)

/-- A page table for the address space of SC 0: a 1 GiB page that allows everything, over physical addresses from 0, for
the page that holds a VA (R270-R272). -/
def placeTables (m : List Host.Cell) (pkg va : Nat) : List Host.Cell :=
  putDword (putDword (putDword m (0x1000 + 8 * levelIndex va 4) 0x2001) (0x2000 + 8 * levelIndex va 3) 0x3001)
    (0x3000 + 8 * levelIndex va 2) (pkg * 2 ^ 41 + 0x1F)

/-- A control-core word at the pc of context 18 of SC 0. -/
def State.placeControl (s : State) (x : W32) : State :=
  let pc := (s.ctx 0 18).pc.toNat
  let t := (s.modSc 0 (fun t => { t with last := 17, ptb := 0x1000, ptbSet := true, tlb := [], stopped := false })).modCtx 0 18
    (fun c => { c with st := .ready, pause := 0, apend := [], wait := none })
  { t with mem := cellPuts (placeTables t.mem s.pkgid (pc % 2 ^ 57)) (pc % 2 ^ 30) (natBytes 4 x.toNat), dieTlb := [],
           agenda := [{ ns := 0, cyc := 1, who := .context 0 }] }

/-- The 14 syllables of a bundle that holds one operation, the others no-operations. -/
def oneBundle (j : Nat) (x : W32) : List W32 := (List.replicate 14 0).set j x

/-- A kernel operation in syllable j of the one bundle of a run of SC 0. -/
def State.placeSyllable (s : State) (j : Nat) (x : W32) : State :=
  let r : Run := { phase := .running, owner := .ctx 18, placed := true, g := 4, amMax := 63 }
  let t := (s.setRun 0 0 r).modSc 0 (fun t => { t with images := tput t.images 0 { count := 1, bundles := [oneBundle j x] } })
  { t with agenda := [{ ns := 0, cyc := 1, who := .run 0 0 }] }

/-- A word of the table of operations placed for the next step: as the control core reads it where that is an
instruction, otherwise in the first slot that accepts it (log 14). -/
noncomputable def State.placeTableWord (s : State) (x : W32) : State :=
  match decodeWord x with
  | .ok _ => s.placeControl x
  | .error _ => match firstSlot x with
    | some p => s.placeSyllable p.1 x
    | none => s.placeControl x

end Sys2Proof.Machine
end

