-- ==== Sys2Proof/Machine/HostLink.lean ====
section
/-!
DEFINITION. The host (R310, R311, R349-R351, R355): reads, writes and atomics through a host port, the lines it caches through
CXL.mem, failover, and what a port's link does.
-/

namespace Sys2Proof.Machine

/-! ## The ports (R349, R355) -/

/-- The active host port (R352). -/
def State.activePort (s : State) : Nat := if s.topo.acthost then 1 else 0

/-- Does a host port serve requests: the active one, in RUN (R349, R355)? -/
def State.serves (s : State) (p : Nat) : Bool := p == s.activePort && s.port p == .run

/-- Does the port of a request serve its space?  CXL.mem is the half 0 port's (R349, R351). -/
def State.servesReq (s : State) (r : HostReq) : Bool := s.serves r.port && (r.space != .cxl || r.port == 0)

/-- A completion sent to the host: status 0 is success, 1 Unsupported Request. -/
def State.complete (s : State) (p status : Nat) (bs : List Byte) : State := s.emit (.host p status bs)

/-- An access of the host through its caches asks itself for nothing: CXL.mem requests of the host come after what its caches
hold. -/
def State.throughCxl (s : State) (r : HostReq) (f : State → State) : State :=
  if r.space = .cxl then { f { s with hostLines := [] } with hostLines := s.hostLines } else f s

/-! ## Reads and writes (R310, R317) -/

/-- The dword of a request of register space: 8 bytes at an 8-byte-aligned offset. -/
def isRegReq (r : HostReq) : Bool := r.size == 8 && r.addr % 8 == 0

/-- Bytes the host reads of register space: zero for an access that is no dword (R317). -/
def State.hostReg (s : State) (r : HostReq) : List Byte :=
  if isRegReq r then natBytes 8 (s.regRead r.addr).toNat else List.replicate r.size 0

/-- Has the hub's port that a request goes through a free tag of every stack the request touches?  A request waits for one, and
stays the host's until then (R284, log 79). -/
def State.hostTags (s : State) (r : HostReq) : Bool :=
  (List.range ((r.addr % 32 + r.size + 31) / 32)).all (fun j =>
    (s.freeTag (stackOf s.topo (r.addr / 32 * 32 + 32 * j)).1 (hostPort r.port)).isSome)

/-- HOST_READ (R310). -/
def execHostRead (r : HostReq) (s : State) : Result :=
  .next (if !s.servesReq r then s.complete r.port 1 []
    else if r.space = .bar0 then s.complete r.port 0 (s.hostReg r)
    else if !s.hostTags r then s
    else s.throughCxl r (fun t =>
      let t := t.performEarlier (hostPort r.port) r.addr r.size
      (t.noteRead r.addr r.size).complete r.port 0 (t.bytes r.addr r.size)))

/-- HOST_WRITE (R310): a posted write has no completion; a port that does not serve it drops it. -/
def execHostWrite (r : HostReq) (s : State) : Result :=
  .next (if !s.servesReq r then s
    else if r.space = .bar0 then (if isRegReq r then s.regWrite r.addr (BitVec.ofNat 64 (bytesNat r.data)) else s)
    else if !s.hostTags r then s
    else s.throughCxl r (fun t => (t.performEarlier (hostPort r.port) r.addr r.size).write r.addr r.data))

/-! ## Atomics (R311) -/

/-- Does a live range register map some address to a local one of this package as SYSATOM (R274, R275)? -/
def State.rangeAtom (s : State) (a r : Nat) : Bool :=
  let lo := bitsNat (s.rng r 2) 16 25 * 2 ^ 16
  let k := s.rng r 1 / 2 ^ 16 - s.rng r 0 / 2 ^ 16
  let n := bitsNat (s.rng r 3) 12 12
  let q := (a - lo) / 2 ^ 16
  bitNat (s.rng r 1) 0 && bitNat (s.rng r 1) 5 && decide (lo ≤ a)
    && (if n = 0 then bitsNat (s.rng r 2) 41 12 == s.pkgid && decide (q < k)
        else (List.range n).any (fun j => (bitsNat (s.rng r 3) 0 12 + j) % 4096 == s.pkgid && decide (q * n + j < k)))

/-- Does a leaf of the tables below a table of a level map some address to a local one as SYSATOM (R272)? -/
def State.leafAtom (s : State) (a : Nat) : Nat → Nat → Bool
  | level, table => (List.range (if level = 0 then 32 else 512)).any (fun i =>
    let p := bytesNat (s.dieBytes (table + 8 * i) 8)
    if !bitNat p 0 || bitsNat p 53 10 ≠ 0 then false
    else if bitNat p 1 then
      match s.leaf level 0 p with
      | some x => x.sysatom && pkgOf x.pa == s.pkgid && decide (localOf x.pa ≤ a) && decide (a < localOf x.pa + pageBytes level)
      | none => false
    else match level with
      | 0 => false
      | k + 1 => pointerOk k p && State.leafAtom s a k (bitsNat p 8 33 * 256))

/-- Is the page of a local address a SYSATOM page: does a live range register, or a leaf under the PTB of an SC, say so (R272, R274)? -/
def State.sysatomAt (s : State) (a : Nat) : Bool :=
  (List.range 64).any (s.rangeAtom a)
    || s.scs.any (fun p => match p.2.root with
      | some w => s.leafAtom a 4 (ptbTable w)
      | none => false)

/-- The new value of an atomic. -/
def atomicResult (r : HostReq) (old : Nat) : Nat :=
  match r.aop with
  | .fetchAdd => (old + r.operand) % 256 ^ r.size
  | .swap => r.operand % 256 ^ r.size
  | .cas => if old = r.compare % 256 ^ r.size then r.operand % 256 ^ r.size else old

/-- Its accumulate type. -/
def atomicFmt (r : HostReq) : Nat := if r.size = 4 then 14 else 16

/-- Its accumulation packet (R311), from the hub of the host's port. -/
def State.atomicPacket (s : State) (r : HostReq) : Packet :=
  let x := r.operand % 256 ^ r.size
  let p := fun (op y z : Nat) => accPacket s.topo (hostPort r.port) r.addr op (atomicFmt r) y z (.host r.port r.size)
  match r.aop with
  | .fetchAdd => p 0 x 0
  | .swap => p 6 x 0
  | .cas => p 7 (r.compare % 256 ^ r.size) x

/-- The second half of a split atomic: the result written, and the host answered (R311). -/
def State.splitWrite (s : State) (p : HostReq × Nat) : State :=
  let r := p.1
  let t := { s with hostRmw := s.hostRmw.erase p, hostrmw := tput s.hostrmw r.port (tgetD s.hostrmw r.port 0 + 1) }
  (t.write r.addr (natBytes r.size (atomicResult r p.2))).complete r.port 0 (natBytes r.size p.2)

/-- The first half: the word read. -/
def State.splitRead (s : State) (r : HostReq) : State :=
  let t := s.performEarlier (hostPort r.port) r.addr r.size
  { t.noteRead r.addr r.size with hostRmw := t.hostRmw ++ [(r, t.readNat r.addr r.size)] }

/-- An atomic of the host on memory, once the hub's port has a free tag: on a SYSATOM page one accumulation packet; on another
page a split read-modify-write.  While an equal request is between its halves, a free bit says whether this is its second half or one
more request (log 60). -/
def State.hostAtomic (s : State) (r : HostReq) : State :=
  if !s.hostTags r then s
  else match s.hostRmw.find? (fun p => p.1 == r) with
    | some p => if s.freeVal % 2 = 0 then (s.useFree 1).splitWrite p else (s.useFree 1).splitRead r
    | none => if s.sysatomAt r.addr then s.send (s.atomicPacket r) else s.splitRead r

/-- HOST_ATOMIC (R311). -/
def execHostAtomic (r : HostReq) (s : State) : Result :=
  .next (if !s.servesReq r || r.space == .bar0 || !(r.size == 4 || r.size == 8) || r.addr % r.size != 0 then s.complete r.port 1 []
    else s.throughCxl r (fun s => s.hostAtomic r))

/-! ## CXL.mem caching (R350) -/

/-- Lines a hub's directory tracks. -/
def dirLines : Nat := 2097152

/-- The half a line lies in. -/
def lineHalf (k : Nat) : Nat := 64 * k / halfSize

/-- The host is granted a line, the newest of its grants: the bytes as every coherent agent sees them; the data caches keep their
copies, dirty ones too (R302, R396). -/
def State.grantLine (s : State) (k : Nat) (excl : Bool) : State :=
  let old := s.hostLines.filter (fun p => p.1 != k)
  let t := State.noteRead { s with hostLines := [] } (64 * k) 64
  { t.complete 0 0 (t.bytes (64 * k) 64) with hostLines := old ++ [(k, excl)] }

/-- CXL_CACHE_REQUEST (R350): with the directory of its half full, the line granted longest ago is asked back first. -/
def execCxlCacheRequest (k : Nat) (excl : Bool) (s : State) : Result :=
  .next (if !s.serves 0 || !inMemory s.topo (64 * k) then s.complete 0 1 []
    else
      let mine := s.hostLines.filter (fun p => lineHalf p.1 == lineHalf k && p.1 != k)
      match (if mine.length < dirLines then none else mine.head?) with
      | some old => { s with hits := s.hits ++ [(old.1, true)] }
      | none => s.grantLine k excl)

/-- The host's copy of a line, written to memory when it was modified. -/
def State.returned (s : State) (k : Nat) : Option (List Byte) → State
  | none => s
  | some bs => s.write (64 * k) ((bs ++ List.replicate (64 - bs.length) 0).take 64)

/-- BISNP_RESPONSE (R350): the host has answered, through port 0 in RUN (R355), a snoop of a line: it gives the line up, or keeps it shared. -/
def execBisnpResponse (k : Nat) (dirty : Option (List Byte)) (s : State) : Result :=
  .next (if s.port 0 != .run || !s.snoops.any (fun p => p.1 == k) then s
    else
      let inv := s.snoops.any (fun p => p.1 == k && p.2)
      let others := s.hostLines.filter (fun p => p.1 != k)
      let mine := s.hostLines.filter (fun p => p.1 == k && !inv)
      let t := { s with hostLines := [], snoops := s.snoops.filter (fun p => p.1 != k) }.returned k dirty
      { t with hostLines := others ++ mine.map (fun p => (p.1, false)) })

/-! ## Failover and links (R351, R355) -/

/-- The host role goes to the half 1 port (R351).  How many of the lines that the host may have modified it had modified is a
free value. -/
def State.failOver (s : State) : State :=
  let k := (s.hostLines.filter (fun p => p.2)).length
  let t := { s with topo := { s.topo with acthost := true }, hostLines := [], snoops := [],
                    hostRmw := s.hostRmw.filter (fun p => p.1.port != 0),
                    hostlost := s.hostlost + BitVec.ofNat 64 (s.freeVal % (k + 1)) }
  (t.useFree 1).setHlth [hlthHostFo]

/-- Has the half 0 host link stayed down for 1 s (R351)? -/
def State.hostGone (s : State) : Bool :=
  s.port 0 != .run && (match s.mgmt.hostDown with | some t => decide (t + 10 ^ 9 ≤ s.tb) | none => false)

/-- HOST_LINK_TIMEOUT (R351); failover needs a live half 1. -/
def execHostLinkTimeout (s : State) : Result :=
  .next (if s.topo.acthost || halfLost s.topo 1 || !s.hostGone then s else s.failOver)

/-- CONFIGURATION_REQUEST (R349, R355): a host port answers it in every state. -/
def execConfigurationRequest (port reg : Nat) (s : State) : Result := .next (if port < 2 then s.emit (.config port reg) else s)

/-- PORT_LINK_FAILURE (R355). -/
def execPortLinkFailure (p : Nat) (s : State) : Result := .next (s.failPort p)

end Sys2Proof.Machine
end

