-- ==== Sys2Proof/Machine/KCtl.lean ====
section
/-!
DEFINITION. The CTL operations (R98-R102) and the checks (R112).
-/

namespace Sys2Proof.Machine

/-- The run after a halt, or its AM_HELD fault (R27). -/
def Run.doHalt (r : Run) : Run :=
  if r.banks.isEmpty && r.slots.isEmpty then { r with halted := true } else r.fault 2 [0]

/-- A branch, taken or not (R100). -/
def Run.branch (r : Run) (taken : Bool) (t : BitVec 12) : Run := if taken then { r with next := t.toNat } else r

/-- A loop counter written (R98). -/
def Run.setLc (r : Run) (c : BitVec 2) (v : W32) : Run := { r with lc := tput r.lc c.toNat v }

/-- lbnz (R100). -/
def Run.loop (r : Run) (c : BitVec 2) (t : BitVec 12) : Run :=
  let n := tgetD r.lc c.toNat 0
  if 2 ≤ n.toNat then { r.setLc c (n - 1) with next := t.toNat } else r.setLc c 0

/-- A check that fails in the lanes of a mask, as a fault of their cores (R112, R35). -/
def Run.checkLanes (r : Run) (bad : Mask) : Run := r.fault 1 ((chosen bad).map (· / 16))

/-- nop (R100). -/
def execCtlNop (s : State) : Result :=
  kop (.ctlNop) (fun _ r => r) s

/-- halt: ends issue; held banks or slots are a fault of the lowest core (R27, R34). -/
def execCtlHalt (s : State) : Result :=
  kop (.ctlHalt) (fun _ r => r.doHalt) s

/-- br: the target is the next bundle (R100). -/
def execCtlBr (t : BitVec 12) (s : State) : Result :=
  kop (.ctlBr t) (fun _ r => r.branch true t) s

/-- bany: taken if any bit of the predicate is set (R99). -/
def execCtlBany (p : BitVec 2) (t : BitVec 12) (s : State) : Result :=
  kop (.ctlBany p t) (fun _ r => r.branch (condAny (r.predicate p.toNat)) t) s

/-- ball (R99). -/
def execCtlBall (p : BitVec 2) (t : BitVec 12) (s : State) : Result :=
  kop (.ctlBall p t) (fun _ r => r.branch (condAll (r.predicate p.toNat)) t) s

/-- bnone (R99). -/
def execCtlBnone (p : BitVec 2) (t : BitVec 12) (s : State) : Result :=
  kop (.ctlBnone p t) (fun _ r => r.branch (condNone (r.predicate p.toNat)) t) s

/-- bnall (R99). -/
def execCtlBnall (p : BitVec 2) (t : BitVec 12) (s : State) : Result :=
  kop (.ctlBnall p t) (fun _ r => r.branch (condNall (r.predicate p.toNat)) t) s

/-- lset: a constant loop count (R100). -/
def execCtlLset (c : BitVec 2) (n : BitVec 20) (s : State) : Result :=
  kop (.ctlLset c n) (fun _ r => r.setLc c (n.setWidth 32)) s

/-- lsetk: a kernel argument (R100). -/
def execCtlLsetk (c : BitVec 2) (k : BitVec 3) (s : State) : Result :=
  kop (.ctlLsetk c k) (fun _ r => r.setLc c (r.arg k.toNat)) s

/-- lsetv: a uniform operand (R100). -/
def execCtlLsetv (c : BitVec 2) (u : BitVec 8) (s : State) : Result :=
  kop (.ctlLsetv c u) (fun _ r => r.setLc c (r.uniform .int u.toNat)) s

/-- lbnz: a counter of 0 or 1 falls through at 0 (R100). -/
def execCtlLbnz (c : BitVec 2) (t : BitVec 12) (s : State) : Result :=
  kop (.ctlLbnz c t) (fun _ r => r.loop c t) s

/-- bkz: taken if the kernel argument is 0 (R100). -/
def execCtlBkz (k : BitVec 3) (t : BitVec 12) (s : State) : Result :=
  kop (.ctlBkz k t) (fun _ r => r.branch (r.arg k.toNat == 0) t) s

/-- bknz: taken if the kernel argument is not 0 (R100). -/
def execCtlBknz (k : BitVec 3) (t : BitVec 12) (s : State) : Result :=
  kop (.ctlBknz k t) (fun _ r => r.branch (r.arg k.toNat != 0) t) s

/-- kret (R102). -/
def execCtlKret (l : BitVec 4) (s' : BitVec 8) (s : State) : Result :=
  kop (.ctlKret l s') (fun _ r => r.enqueue (fun c => (r.source .int s'.toNat).getD (16 * c + l.toNat) 0)) s

/-- kretp (R102). -/
def execCtlKretp (p : BitVec 2) (s : State) : Result :=
  kop (.ctlKretp p) (fun _ r => r.enqueue (fun c => BitVec.ofNat 32 (maskBits (r.predicate p.toNat) c))) s

/-- idle: n - 1 further advancing cycles (R101). -/
def execCtlIdle (n : BitVec 12) (s : State) : Result :=
  kop (.ctlIdle n) (fun _ r => { r with idle := n.toNat - 1 }) s

/-- chkeq: a failing check is fault code 1 (R112). -/
def execHkChkeq (h : BitVec 12) (a : BitVec 8) (b : BitVec 8) (s : State) : Result :=
  kop (.hkChkeq h a b) (fun _ r => r.checkLanes (List.zipWith (· != ·) (r.source .int a.toNat) (r.source .int b.toNat))) s

/-- chkz: a failing check is fault code 1 (R112). -/
def execHkChkz (h : BitVec 12) (a : BitVec 8) (s : State) : Result :=
  kop (.hkChkz h a) (fun _ r => r.checkLanes ((r.source .int a.toNat).map (· != 0))) s

/-- chkovf: a failing check is fault code 1 (R112). -/
def execHkChkovf (h : BitVec 12) (a : BitVec 8) (s : State) : Result :=
  kop (.hkChkovf h a) (fun _ r => r.fault 1 (((tget r.banks a.toNat).map Bank.ovf).getD [])) s

/-- chkall: a failing check is fault code 1 (R112). -/
def execHkChkall (h : BitVec 12) (a : BitVec 8) (s : State) : Result :=
  kop (.hkChkall h a) (fun _ r => r.checkLanes ((r.predicate a.toNat).map (!·))) s

end Sys2Proof.Machine
end

