-- ==== Sys2Proof/Machine/KFloat.lean ====
section
/-!
DEFINITION. The 40 operations of the F slots (R114-R119).
-/

namespace Sys2Proof.Machine

/-- fadd (R115). -/
def execFFadd (p : BitVec 2) (d : BitVec 8) (a : BitVec 8) (b : BitVec 8) (s : State) : Result :=
  kop (.fFadd p d a b) (opV3 .f32 4 (onF FVal.add) p d a b) s

/-- fsub (R115). -/
def execFFsub (p : BitVec 2) (d : BitVec 8) (a : BitVec 8) (b : BitVec 8) (s : State) : Result :=
  kop (.fFsub p d a b) (opV3 .f32 4 (onF (fun x y => x.add y.negate)) p d a b) s

/-- fmul (R115). -/
def execFFmul (p : BitVec 2) (d : BitVec 8) (a : BitVec 8) (b : BitVec 8) (s : State) : Result :=
  kop (.fFmul p d a b) (opV3 .f32 4 (onF FVal.mul) p d a b) s

/-- fma (R115). -/
def execFFma (p : BitVec 2) (d : BitVec 8) (a : BitVec 8) (b : BitVec 8) (s : State) : Result :=
  kop (.fFma p d a b) (opVD .f32 4 (onF3 (fun x y z => (y.mul z).add x)) p d a b) s

/-- fnma (R115). -/
def execFFnma (p : BitVec 2) (d : BitVec 8) (a : BitVec 8) (b : BitVec 8) (s : State) : Result :=
  kop (.fFnma p d a b) (opVD .f32 4 (onF3 (fun x y z => x.add (y.mul z).negate)) p d a b) s

/-- fmin (R115). -/
def execFFmin (p : BitVec 2) (d : BitVec 8) (a : BitVec 8) (b : BitVec 8) (s : State) : Result :=
  kop (.fFmin p d a b) (opV3 .f32 4 (onF FVal.minNum) p d a b) s

/-- fmax (R115). -/
def execFFmax (p : BitVec 2) (d : BitVec 8) (a : BitVec 8) (b : BitVec 8) (s : State) : Result :=
  kop (.fFmax p d a b) (opV3 .f32 4 (onF FVal.maxNum) p d a b) s

/-- fabs (R115). -/
def execFFabs (p : BitVec 2) (d : BitVec 8) (a : BitVec 8) (s : State) : Result :=
  kop (.fFabs p d a) (opV2 .f32 2 (signOp (· &&& 0x7FFFFFFF)) p d a) s

/-- fneg (R115). -/
def execFFneg (p : BitVec 2) (d : BitVec 8) (a : BitVec 8) (s : State) : Result :=
  kop (.fFneg p d a) (opV2 .f32 2 (signOp (· ^^^ 0x80000000)) p d a) s

/-- fcpsgn (R115). -/
def execFFcpsgn (p : BitVec 2) (d : BitVec 8) (a : BitVec 8) (b : BitVec 8) (s : State) : Result :=
  kop (.fFcpsgn p d a b) (opV3 .f32 2 (fun x y => signOp (fun v => (v &&& 0x7FFFFFFF) ||| (y &&& 0x80000000)) x) p d a b) s

/-- fceq (R116). -/
def execFFceq (p : BitVec 2) (d : BitVec 8) (a : BitVec 8) (b : BitVec 8) (s : State) : Result :=
  kop (.fFceq p d a b) (opPC .f32 2 (fun x y => (f32 x).eq (f32 y)) p d a b) s

/-- fclt (R116). -/
def execFFclt (p : BitVec 2) (d : BitVec 8) (a : BitVec 8) (b : BitVec 8) (s : State) : Result :=
  kop (.fFclt p d a b) (opPC .f32 2 (fun x y => (f32 x).lt (f32 y)) p d a b) s

/-- fcle (R116). -/
def execFFcle (p : BitVec 2) (d : BitVec 8) (a : BitVec 8) (b : BitVec 8) (s : State) : Result :=
  kop (.fFcle p d a b) (opPC .f32 2 (fun x y => (f32 x).lt (f32 y) || (f32 x).eq (f32 y)) p d a b) s

/-- fcun (R116). -/
def execFFcun (p : BitVec 2) (d : BitVec 8) (a : BitVec 8) (b : BitVec 8) (s : State) : Result :=
  kop (.fFcun p d a b) (opPC .f32 2 (fun x y => (f32 x).isNan || (f32 y).isNan) p d a b) s

/-- frcp (R117). -/
def execFFrcp (p : BitVec 2) (d : BitVec 8) (a : BitVec 8) (s : State) : Result :=
  kop (.fFrcp p d a) (opV2 .f32 12 (onF1 FVal.recip) p d a) s

/-- frsq (R117). -/
def execFFrsq (p : BitVec 2) (d : BitVec 8) (a : BitVec 8) (s : State) : Result :=
  kop (.fFrsq p d a) (opV2 .f32 12 (onF1 FVal.rsqrt) p d a) s

/-- fexp2 (R117). -/
def execFFexp2 (p : BitVec 2) (d : BitVec 8) (a : BitVec 8) (s : State) : Result :=
  kop (.fFexp2 p d a) (opV2 .f32 12 (onF1 FVal.exp2) p d a) s

/-- flog2 (R117). -/
def execFFlog2 (p : BitVec 2) (d : BitVec 8) (a : BitVec 8) (s : State) : Result :=
  kop (.fFlog2 p d a) (opV2 .f32 12 (onF1 FVal.log2) p d a) s

/-- badd (R118). -/
def execFBadd (p : BitVec 2) (d : BitVec 8) (a : BitVec 8) (b : BitVec 8) (s : State) : Result :=
  kop (.fBadd p d a b) (opV3 .bf16 4 (onB FVal.add) p d a b) s

/-- bsub (R118). -/
def execFBsub (p : BitVec 2) (d : BitVec 8) (a : BitVec 8) (b : BitVec 8) (s : State) : Result :=
  kop (.fBsub p d a b) (opV3 .bf16 4 (onB (fun x y => x.add y.negate)) p d a b) s

/-- bmul (R118). -/
def execFBmul (p : BitVec 2) (d : BitVec 8) (a : BitVec 8) (b : BitVec 8) (s : State) : Result :=
  kop (.fBmul p d a b) (opV3 .bf16 4 (onB FVal.mul) p d a b) s

/-- bfma (R118). -/
def execFBfma (p : BitVec 2) (d : BitVec 8) (a : BitVec 8) (b : BitVec 8) (s : State) : Result :=
  kop (.fBfma p d a b) (opVD .bf16 4 (onB3 (fun x y z => (y.mul z).add x)) p d a b) s

/-- bmin (R118). -/
def execFBmin (p : BitVec 2) (d : BitVec 8) (a : BitVec 8) (b : BitVec 8) (s : State) : Result :=
  kop (.fBmin p d a b) (opV3 .bf16 4 (onB FVal.minNum) p d a b) s

/-- bmax (R118). -/
def execFBmax (p : BitVec 2) (d : BitVec 8) (a : BitVec 8) (b : BitVec 8) (s : State) : Result :=
  kop (.fBmax p d a b) (opV3 .bf16 4 (onB FVal.maxNum) p d a b) s

/-- fdot2 (R115). -/
def execFFdot2 (p : BitVec 2) (d : BitVec 8) (a : BitVec 8) (b : BitVec 8) (s : State) : Result :=
  kop (.fFdot2 p d a b) (opVD .bf16 4 fdot2 p d a b) s

/-- fclamp (R115). -/
def execFFclamp (p : BitVec 2) (d : BitVec 8) (a : BitVec 8) (b : BitVec 8) (s : State) : Result :=
  kop (.fFclamp p d a b) (opVD .f32 4 (onF3 (fun x y z => (x.maxNum y).minNum z)) p d a b) s

/-- fsat (R115). -/
def execFFsat (p : BitVec 2) (d : BitVec 8) (a : BitVec 8) (s : State) : Result :=
  kop (.fFsat p d a) (opV2 .f32 2 (onF1 (fun x => (x.maxNum (.fin false 0 0)).minNum (.ofInt 1))) p d a) s

/-- frnd (R115). -/
def execFFrnd (p : BitVec 2) (d : BitVec 8) (a : BitVec 8) (s : State) : Result :=
  kop (.fFrnd p d a) (opV2 .f32 2 (onF1 frndVal) p d a) s

/-- fscl (R115): B is read as s32. -/
def execFFscl (p : BitVec 2) (d : BitVec 8) (a : BitVec 8) (b : BitVec 8) (s : State) : Result :=
  kop (.fFscl p d a b) (opV3' .f32 .int 2 (fun x y => roundFP32 ((f32 x).scale y.toInt)) p d a b) s

/-- cvtsf (R119). -/
def execFCvtsf (p : BitVec 2) (d : BitVec 8) (a : BitVec 8) (s : State) : Result :=
  kop (.fCvtsf p d a) (opV2 .int 2 (fun x => roundFP32 (.ofInt x.toInt)) p d a) s

/-- cvtzf (R119). -/
def execFCvtzf (p : BitVec 2) (d : BitVec 8) (a : BitVec 8) (s : State) : Result :=
  kop (.fCvtzf p d a) (opV2 .int 2 (fun x => roundFP32 (.ofInt x.toNat)) p d a) s

/-- cvtfs (R119). -/
def execFCvtfs (p : BitVec 2) (d : BitVec 8) (a : BitVec 8) (s : State) : Result :=
  kop (.fCvtfs p d a) (opV2 .f32 2 (fun x => w32 ((f32 x).toIntSat (-2147483648) 2147483647)) p d a) s

/-- cvtfz (R119). -/
def execFCvtfz (p : BitVec 2) (d : BitVec 8) (a : BitVec 8) (s : State) : Result :=
  kop (.fCvtfz p d a) (opV2 .f32 2 (fun x => w32 ((f32 x).toIntSat 0 4294967295)) p d a) s

/-- cvtfb (R119). -/
def execFCvtfb (p : BitVec 2) (d : BitVec 8) (a : BitVec 8) (b : BitVec 8) (s : State) : Result :=
  kop (.fCvtfb p d a b) (opV3 .f32 2 (fun x y => roundBF16 (f32 y) ++ roundBF16 (f32 x)) p d a b) s

/-- cvtbfl (R119). -/
def execFCvtbfl (p : BitVec 2) (d : BitVec 8) (a : BitVec 8) (s : State) : Result :=
  kop (.fCvtbfl p d a) (opV2 .bf16 2 (fun x => roundFP32 (bf16 (elem0 x))) p d a) s

/-- cvtbfh (R119). -/
def execFCvtbfh (p : BitVec 2) (d : BitVec 8) (a : BitVec 8) (s : State) : Result :=
  kop (.fCvtbfh p d a) (opV2 .bf16 2 (fun x => roundFP32 (bf16 (elem1 x))) p d a) s

/-- cvtlsf (R119). -/
def execFCvtlsf (p : BitVec 2) (d : BitVec 8) (a : BitVec 8) (s : State) : Result :=
  kop (.fCvtlsf p d a) (opV2 .half 2 (fun x => roundFP32 (.ofInt (elem0 x).toInt)) p d a) s

/-- cvthsf (R119). -/
def execFCvthsf (p : BitVec 2) (d : BitVec 8) (a : BitVec 8) (s : State) : Result :=
  kop (.fCvthsf p d a) (opV2 .half 2 (fun x => roundFP32 (.ofInt (elem1 x).toInt)) p d a) s

/-- cvtlzf (R119). -/
def execFCvtlzf (p : BitVec 2) (d : BitVec 8) (a : BitVec 8) (s : State) : Result :=
  kop (.fCvtlzf p d a) (opV2 .half 2 (fun x => roundFP32 (.ofInt (elem0 x).toNat)) p d a) s

/-- cvthzf (R119). -/
def execFCvthzf (p : BitVec 2) (d : BitVec 8) (a : BitVec 8) (s : State) : Result :=
  kop (.fCvthzf p d a) (opV2 .half 2 (fun x => roundFP32 (.ofInt (elem1 x).toNat)) p d a) s

end Sys2Proof.Machine
end

