-- ==== Sys2Proof/Machine/KInt.lean ====
section
/-!
DEFINITION. The 60 operations of the I slots (R103-R111).
-/

namespace Sys2Proof.Machine

/-- add (R104). -/
def execIAdd (p : BitVec 2) (d : BitVec 8) (a : BitVec 8) (b : BitVec 8) (s : State) : Result :=
  kop (.iAdd p d a b) (opV3 .int 1 (· + ·) p d a b) s

/-- sub (R104). -/
def execISub (p : BitVec 2) (d : BitVec 8) (a : BitVec 8) (b : BitVec 8) (s : State) : Result :=
  kop (.iSub p d a b) (opV3 .int 1 (· - ·) p d a b) s

/-- mul (R104). -/
def execIMul (p : BitVec 2) (d : BitVec 8) (a : BitVec 8) (b : BitVec 8) (s : State) : Result :=
  kop (.iMul p d a b) (opV3 .int 3 (· * ·) p d a b) s

/-- mulhs (R104). -/
def execIMulhs (p : BitVec 2) (d : BitVec 8) (a : BitVec 8) (b : BitVec 8) (s : State) : Result :=
  kop (.iMulhs p d a b) (opV3 .int 3 (onInt sInt (fun x y => x * y / 2 ^ 32)) p d a b) s

/-- mulhz (R104). -/
def execIMulhz (p : BitVec 2) (d : BitVec 8) (a : BitVec 8) (b : BitVec 8) (s : State) : Result :=
  kop (.iMulhz p d a b) (opV3 .int 3 (onInt zInt (fun x y => x * y / 2 ^ 32)) p d a b) s

/-- and (R104). -/
def execIAnd (p : BitVec 2) (d : BitVec 8) (a : BitVec 8) (b : BitVec 8) (s : State) : Result :=
  kop (.iAnd p d a b) (opV3 .int 1 (· &&& ·) p d a b) s

/-- or (R104). -/
def execIOr (p : BitVec 2) (d : BitVec 8) (a : BitVec 8) (b : BitVec 8) (s : State) : Result :=
  kop (.iOr p d a b) (opV3 .int 1 (· ||| ·) p d a b) s

/-- xor (R104). -/
def execIXor (p : BitVec 2) (d : BitVec 8) (a : BitVec 8) (b : BitVec 8) (s : State) : Result :=
  kop (.iXor p d a b) (opV3 .int 1 (· ^^^ ·) p d a b) s

/-- andn (R104). -/
def execIAndn (p : BitVec 2) (d : BitVec 8) (a : BitVec 8) (b : BitVec 8) (s : State) : Result :=
  kop (.iAndn p d a b) (opV3 .int 1 (fun x y => x &&& ~~~y) p d a b) s

/-- shl (R105). -/
def execIShl (p : BitVec 2) (d : BitVec 8) (a : BitVec 8) (b : BitVec 8) (s : State) : Result :=
  kop (.iShl p d a b) (opV3 .int 1 shl32 p d a b) s

/-- shrz (R105). -/
def execIShrz (p : BitVec 2) (d : BitVec 8) (a : BitVec 8) (b : BitVec 8) (s : State) : Result :=
  kop (.iShrz p d a b) (opV3 .int 1 shrz32 p d a b) s

/-- shrs (R105). -/
def execIShrs (p : BitVec 2) (d : BitVec 8) (a : BitVec 8) (b : BitVec 8) (s : State) : Result :=
  kop (.iShrs p d a b) (opV3 .int 1 shrs32 p d a b) s

/-- rotl (R105). -/
def execIRotl (p : BitVec 2) (d : BitVec 8) (a : BitVec 8) (b : BitVec 8) (s : State) : Result :=
  kop (.iRotl p d a b) (opV3 .int 1 rotl32 p d a b) s

/-- mins (R104). -/
def execIMins (p : BitVec 2) (d : BitVec 8) (a : BitVec 8) (b : BitVec 8) (s : State) : Result :=
  kop (.iMins p d a b) (opV3 .int 1 (onInt sInt min) p d a b) s

/-- maxs (R104). -/
def execIMaxs (p : BitVec 2) (d : BitVec 8) (a : BitVec 8) (b : BitVec 8) (s : State) : Result :=
  kop (.iMaxs p d a b) (opV3 .int 1 (onInt sInt max) p d a b) s

/-- minz (R104). -/
def execIMinz (p : BitVec 2) (d : BitVec 8) (a : BitVec 8) (b : BitVec 8) (s : State) : Result :=
  kop (.iMinz p d a b) (opV3 .int 1 (onInt zInt min) p d a b) s

/-- maxz (R104). -/
def execIMaxz (p : BitVec 2) (d : BitVec 8) (a : BitVec 8) (b : BitVec 8) (s : State) : Result :=
  kop (.iMaxz p d a b) (opV3 .int 1 (onInt zInt max) p d a b) s

/-- abs (R104). -/
def execIAbs (p : BitVec 2) (d : BitVec 8) (a : BitVec 8) (s : State) : Result :=
  kop (.iAbs p d a) (opV2 .int 1 (fun x => w32 (satInt x.toInt.natAbs 0 2147483647)) p d a) s

/-- addss (R104). -/
def execIAddss (p : BitVec 2) (d : BitVec 8) (a : BitVec 8) (b : BitVec 8) (s : State) : Result :=
  kop (.iAddss p d a b) (opV3 .int 1 (onInt sInt (fun x y => satInt (x + y) (-2147483648) 2147483647)) p d a b) s

/-- addsz (R104). -/
def execIAddsz (p : BitVec 2) (d : BitVec 8) (a : BitVec 8) (b : BitVec 8) (s : State) : Result :=
  kop (.iAddsz p d a b) (opV3 .int 1 (onInt zInt (fun x y => satInt (x + y) 0 4294967295)) p d a b) s

/-- subss (R104). -/
def execISubss (p : BitVec 2) (d : BitVec 8) (a : BitVec 8) (b : BitVec 8) (s : State) : Result :=
  kop (.iSubss p d a b) (opV3 .int 1 (onInt sInt (fun x y => satInt (x - y) (-2147483648) 2147483647)) p d a b) s

/-- subsz (R104). -/
def execISubsz (p : BitVec 2) (d : BitVec 8) (a : BitVec 8) (b : BitVec 8) (s : State) : Result :=
  kop (.iSubsz p d a b) (opV3 .int 1 (onInt zInt (fun x y => satInt (x - y) 0 4294967295)) p d a b) s

/-- absds (R104). -/
def execIAbsds (p : BitVec 2) (d : BitVec 8) (a : BitVec 8) (b : BitVec 8) (s : State) : Result :=
  kop (.iAbsds p d a b) (opV3 .int 1 (onInt sInt absDiff) p d a b) s

/-- absdz (R104). -/
def execIAbsdz (p : BitVec 2) (d : BitVec 8) (a : BitVec 8) (b : BitVec 8) (s : State) : Result :=
  kop (.iAbsdz p d a b) (opV3 .int 1 (onInt zInt absDiff) p d a b) s

/-- avgs (R104). -/
def execIAvgs (p : BitVec 2) (d : BitVec 8) (a : BitVec 8) (b : BitVec 8) (s : State) : Result :=
  kop (.iAvgs p d a b) (opV3 .int 1 (onInt sInt avgUp) p d a b) s

/-- avgz (R104). -/
def execIAvgz (p : BitVec 2) (d : BitVec 8) (a : BitVec 8) (b : BitVec 8) (s : State) : Result :=
  kop (.iAvgz p d a b) (opV3 .int 1 (onInt zInt avgUp) p d a b) s

/-- addx2 (R104). -/
def execIAddx2 (p : BitVec 2) (d : BitVec 8) (a : BitVec 8) (b : BitVec 8) (s : State) : Result :=
  kop (.iAddx2 p d a b) (opV3 .int 1 (fun x y => x + y * 2) p d a b) s

/-- addx4 (R104). -/
def execIAddx4 (p : BitVec 2) (d : BitVec 8) (a : BitVec 8) (b : BitVec 8) (s : State) : Result :=
  kop (.iAddx4 p d a b) (opV3 .int 1 (fun x y => x + y * 4) p d a b) s

/-- addx8 (R104). -/
def execIAddx8 (p : BitVec 2) (d : BitVec 8) (a : BitVec 8) (b : BitVec 8) (s : State) : Result :=
  kop (.iAddx8 p d a b) (opV3 .int 1 (fun x y => x + y * 8) p d a b) s

/-- hadd (R106). -/
def execIHadd (p : BitVec 2) (d : BitVec 8) (a : BitVec 8) (b : BitVec 8) (s : State) : Result :=
  kop (.iHadd p d a b) (opV3 .half 1 (onHalf (· + ·)) p d a b) s

/-- hsub (R106). -/
def execIHsub (p : BitVec 2) (d : BitVec 8) (a : BitVec 8) (b : BitVec 8) (s : State) : Result :=
  kop (.iHsub p d a b) (opV3 .half 1 (onHalf (· - ·)) p d a b) s

/-- haddss (R106). -/
def execIHaddss (p : BitVec 2) (d : BitVec 8) (a : BitVec 8) (b : BitVec 8) (s : State) : Result :=
  kop (.iHaddss p d a b) (opV3 .half 1 (onHInt s16 (fun x y => satInt (x + y) (-32768) 32767)) p d a b) s

/-- haddsz (R106). -/
def execIHaddsz (p : BitVec 2) (d : BitVec 8) (a : BitVec 8) (b : BitVec 8) (s : State) : Result :=
  kop (.iHaddsz p d a b) (opV3 .half 1 (onHInt z16 (fun x y => satInt (x + y) 0 65535)) p d a b) s

/-- hsubss (R106). -/
def execIHsubss (p : BitVec 2) (d : BitVec 8) (a : BitVec 8) (b : BitVec 8) (s : State) : Result :=
  kop (.iHsubss p d a b) (opV3 .half 1 (onHInt s16 (fun x y => satInt (x - y) (-32768) 32767)) p d a b) s

/-- hsubsz (R106). -/
def execIHsubsz (p : BitVec 2) (d : BitVec 8) (a : BitVec 8) (b : BitVec 8) (s : State) : Result :=
  kop (.iHsubsz p d a b) (opV3 .half 1 (onHInt z16 (fun x y => satInt (x - y) 0 65535)) p d a b) s

/-- hmul (R106). -/
def execIHmul (p : BitVec 2) (d : BitVec 8) (a : BitVec 8) (b : BitVec 8) (s : State) : Result :=
  kop (.iHmul p d a b) (opV3 .half 3 (onHalf (· * ·)) p d a b) s

/-- hmins (R106). -/
def execIHmins (p : BitVec 2) (d : BitVec 8) (a : BitVec 8) (b : BitVec 8) (s : State) : Result :=
  kop (.iHmins p d a b) (opV3 .half 1 (onHInt s16 min) p d a b) s

/-- hmaxs (R106). -/
def execIHmaxs (p : BitVec 2) (d : BitVec 8) (a : BitVec 8) (b : BitVec 8) (s : State) : Result :=
  kop (.iHmaxs p d a b) (opV3 .half 1 (onHInt s16 max) p d a b) s

/-- hminz (R106). -/
def execIHminz (p : BitVec 2) (d : BitVec 8) (a : BitVec 8) (b : BitVec 8) (s : State) : Result :=
  kop (.iHminz p d a b) (opV3 .half 1 (onHInt z16 min) p d a b) s

/-- hmaxz (R106). -/
def execIHmaxz (p : BitVec 2) (d : BitVec 8) (a : BitVec 8) (b : BitVec 8) (s : State) : Result :=
  kop (.iHmaxz p d a b) (opV3 .half 1 (onHInt z16 max) p d a b) s

/-- habsds (R106). -/
def execIHabsds (p : BitVec 2) (d : BitVec 8) (a : BitVec 8) (b : BitVec 8) (s : State) : Result :=
  kop (.iHabsds p d a b) (opV3 .half 1 (onHInt s16 absDiff) p d a b) s

/-- habsdz (R106). -/
def execIHabsdz (p : BitVec 2) (d : BitVec 8) (a : BitVec 8) (b : BitVec 8) (s : State) : Result :=
  kop (.iHabsdz p d a b) (opV3 .half 1 (onHInt z16 absDiff) p d a b) s

/-- havgs (R106). -/
def execIHavgs (p : BitVec 2) (d : BitVec 8) (a : BitVec 8) (b : BitVec 8) (s : State) : Result :=
  kop (.iHavgs p d a b) (opV3 .half 1 (onHInt s16 avgUp) p d a b) s

/-- havgz (R106). -/
def execIHavgz (p : BitVec 2) (d : BitVec 8) (a : BitVec 8) (b : BitVec 8) (s : State) : Result :=
  kop (.iHavgz p d a b) (opV3 .half 1 (onHInt z16 avgUp) p d a b) s

/-- fext (R111). -/
def execIFext (p : BitVec 2) (d : BitVec 8) (a : BitVec 8) (b : BitVec 8) (s : State) : Result :=
  kop (.iFext p d a b) (opVD .int 1 fext32 p d a b) s

/-- fexts (R111). -/
def execIFexts (p : BitVec 2) (d : BitVec 8) (a : BitVec 8) (b : BitVec 8) (s : State) : Result :=
  kop (.iFexts p d a b) (opVD .int 1 fexts32 p d a b) s

/-- ceq (R107). -/
def execICeq (p : BitVec 2) (d : BitVec 8) (a : BitVec 8) (b : BitVec 8) (s : State) : Result :=
  kop (.iCeq p d a b) (opPC .int 1 (· == ·) p d a b) s

/-- cne (R107). -/
def execICne (p : BitVec 2) (d : BitVec 8) (a : BitVec 8) (b : BitVec 8) (s : State) : Result :=
  kop (.iCne p d a b) (opPC .int 1 (· != ·) p d a b) s

/-- clts (R107). -/
def execIClts (p : BitVec 2) (d : BitVec 8) (a : BitVec 8) (b : BitVec 8) (s : State) : Result :=
  kop (.iClts p d a b) (opPC .int 1 (fun x y => x.toInt < y.toInt) p d a b) s

/-- cltz (R107). -/
def execICltz (p : BitVec 2) (d : BitVec 8) (a : BitVec 8) (b : BitVec 8) (s : State) : Result :=
  kop (.iCltz p d a b) (opPC .int 1 (fun x y => x.toNat < y.toNat) p d a b) s

/-- cles (R107). -/
def execICles (p : BitVec 2) (d : BitVec 8) (a : BitVec 8) (b : BitVec 8) (s : State) : Result :=
  kop (.iCles p d a b) (opPC .int 1 (fun x y => x.toInt ≤ y.toInt) p d a b) s

/-- clez (R107). -/
def execIClez (p : BitVec 2) (d : BitVec 8) (a : BitVec 8) (b : BitVec 8) (s : State) : Result :=
  kop (.iClez p d a b) (opPC .int 1 (fun x y => x.toNat ≤ y.toNat) p d a b) s

/-- pand (R108). -/
def execIPand (p : BitVec 2) (d : BitVec 8) (a : BitVec 8) (b : BitVec 8) (s : State) : Result :=
  kop (.iPand p d a b) (opPL (· && ·) p d a b) s

/-- por (R108). -/
def execIPor (p : BitVec 2) (d : BitVec 8) (a : BitVec 8) (b : BitVec 8) (s : State) : Result :=
  kop (.iPor p d a b) (opPL (· || ·) p d a b) s

/-- pxor (R108). -/
def execIPxor (p : BitVec 2) (d : BitVec 8) (a : BitVec 8) (b : BitVec 8) (s : State) : Result :=
  kop (.iPxor p d a b) (opPL (· != ·) p d a b) s

/-- sel (R109). -/
def execISel (p : BitVec 2) (d : BitVec 8) (a : BitVec 8) (b : BitVec 8) (s : State) : Result :=
  kop (.iSel p d a b) (opSel p d a b) s

/-- pcnt (R105). -/
def execIPcnt (p : BitVec 2) (d : BitVec 8) (a : BitVec 8) (s : State) : Result :=
  kop (.iPcnt p d a) (opV2 .int 1 pcnt32 p d a) s

/-- clz (R105). -/
def execIClz (p : BitVec 2) (d : BitVec 8) (a : BitVec 8) (s : State) : Result :=
  kop (.iClz p d a) (opV2 .int 1 clz32 p d a) s

/-- pget (R110). -/
def execIPget (p : BitVec 2) (d : BitVec 8) (a : BitVec 8) (s : State) : Result :=
  kop (.iPget p d a) (opPget p d a) s

/-- mov (R104). -/
def execIMov (p : BitVec 2) (d : BitVec 8) (a : BitVec 8) (s : State) : Result :=
  kop (.iMov p d a) (opV2 .int 1 id p d a) s

end Sys2Proof.Machine
end

