-- ==== Sys2Proof/Machine/KStream.lean ====
section
/-!
DEFINITION. The S and XS operations (R154-R161).
-/

namespace Sys2Proof.Machine

/-- xperm and xpermc: the source lane each lane's index names (R161). -/
def Run.perm (r : Run) (group : Bool) (p : BitVec 2) (d : BitVec 8) (s i : Nat) : Run :=
  let x := r.source .int s
  let ix := r.source .int i
  r.writeReg d 4 (permute r x (fun g =>
    let k := (ix.getD g 0).toNat
    some (if group then k % r.lanes else g / 16 * 16 + k % 16))) (r.predicate p.toNat)

/-- spop (R155). -/
def execSSpop (p : BitVec 2) (d : BitVec 8) (a : BitVec 8) (k : BitVec 8) (s : State) : Result :=
  kport (.sSpop p d a k) a.toNat (fun _ v => doSpop p d (v.run.uniform .int k.toNat) v) s

/-- spopc (R157). -/
def execSSpopc (p : BitVec 2) (d : BitVec 8) (a : BitVec 8) (s : State) : Result :=
  kport (.sSpopc p d a) a.toNat (fun _ v => doSpopc p d v) s

/-- spush (R155). -/
def execSSpush (a : BitVec 8) (s' : BitVec 8) (s : State) : Result :=
  kport (.sSpush a s') a.toNat (fun _ v => doSpush (v.run.source .int s'.toNat) v) s

/-- spushc (R156). -/
def execSSpushc (p : BitVec 2) (a : BitVec 8) (s' : BitVec 8) (s : State) : Result :=
  kport (.sSpushc p a s') a.toNat (fun _ v => doSpushc p (v.run.source .int s'.toNat) v) s

/-- swaitf (R155). -/
def execSSwaitf (a : BitVec 8) (n : BitVec 8) (s : State) : Result :=
  kport (.sSwaitf a n) a.toNat (fun _ v => doWait false (v.run.uniform .int n.toNat) v) s

/-- swaite (R155). -/
def execSSwaite (a : BitVec 8) (n : BitVec 8) (s : State) : Result :=
  kport (.sSwaite a n) a.toNat (fun _ v => doWait true (v.run.uniform .int n.toNat) v) s

/-- sadvr (R155). -/
def execSSadvr (a : BitVec 8) (n : BitVec 8) (s : State) : Result :=
  kport (.sSadvr a n) a.toNat (fun _ v => doSadvr (v.run.uniform .int n.toNat) v) s

/-- sadvw (R155). -/
def execSSadvw (a : BitVec 8) (n : BitVec 8) (s : State) : Result :=
  kport (.sSadvw a n) a.toNat (fun _ v => doSadvw (v.run.uniform .int n.toNat) v) s

/-- tfill (R159). -/
def execSTfill (m : BitVec 8) (a : BitVec 8) (f : BitVec 8) (s : State) : Result :=
  kport (.sTfill m a f) a.toNat (fun _ v => doTfill m.toNat (some (f.toNat - 240)) v) s

/-- tfillx (R159). -/
def execSTfillx (m : BitVec 8) (a : BitVec 8) (s : State) : Result :=
  kport (.sTfillx m a) a.toNat (fun _ v => doTfill m.toNat none v) s

/-- scnt (R158). -/
def execSScnt (a : BitVec 8) (s : State) : Result :=
  kport (.sScnt a) a.toNat (fun _ v => doScnt v) s

/-- sflush (R156). -/
def execSSflush (a : BitVec 8) (s : State) : Result :=
  kport (.sSflush a) a.toNat (fun _ v => doSflush v) s

/-- sptrr (R160). -/
def execSSptrr (p : BitVec 2) (d : BitVec 8) (a : BitVec 8) (s : State) : Result :=
  kport (.sSptrr p d a) a.toNat (fun _ v => doQuery (fun _ st => st.rp) p d v) s

/-- sptrw (R160). -/
def execSSptrw (p : BitVec 2) (d : BitVec 8) (a : BitVec 8) (s : State) : Result :=
  kport (.sSptrw p d a) a.toNat (fun _ v => doQuery (fun _ st => st.wp) p d v) s

/-- savail (R160). -/
def execSSavail (p : BitVec 2) (d : BitVec 8) (a : BitVec 8) (s : State) : Result :=
  kport (.sSavail p d a) a.toNat (fun _ v => doQuery (fun q _ => q.cr) p d v) s

/-- sspace (R160). -/
def execSSspace (p : BitVec 2) (d : BitVec 8) (a : BitVec 8) (s : State) : Result :=
  kport (.sSspace p d a) a.toNat (fun _ v => doQuery (fun q _ => q.cr - q.u) p d v) s

/-- xperm (R161). -/
def execXsXperm (p : BitVec 2) (d : BitVec 8) (s' : BitVec 8) (i : BitVec 8) (s : State) : Result :=
  kop (.xsXperm p d s' i) (fun _ r => r.perm false p d s'.toNat i.toNat) s

/-- xpermc (R161). -/
def execXsXpermc (p : BitVec 2) (d : BitVec 8) (s' : BitVec 8) (i : BitVec 8) (s : State) : Result :=
  kop (.xsXpermc p d s' i) (fun _ r => r.perm true p d s'.toNat i.toNat) s

/-- xbc (R161). -/
def execXsXbc (p : BitVec 2) (d : BitVec 8) (s' : BitVec 8) (l : BitVec 8) (s : State) : Result :=
  kop (.xsXbc p d s' l) (fun y r => opXs (fun _ g => some (g / 16 * 16 + (r.uniform .int l.toNat).toNat % 16)) p d s' y r) s

/-- xbcc (R161). -/
def execXsXbcc (p : BitVec 2) (d : BitVec 8) (s' : BitVec 8) (n : BitVec 8) (s : State) : Result :=
  kop (.xsXbcc p d s' n) (fun y r => opXs (fun _ g => some ((r.uniform .int n.toNat).toNat % r.g * 16 + g % 16)) p d s' y r) s

/-- xrot (R161). -/
def execXsXrot (p : BitVec 2) (d : BitVec 8) (s' : BitVec 8) (n : BitVec 8) (s : State) : Result :=
  kop (.xsXrot p d s' n) (fun y r => opXs (fun _ g => some (g / 16 * 16 + (g % 16 + (r.uniform .int n.toNat).toNat) % 16)) p d s' y r) s

/-- xrotc (R161). -/
def execXsXrotc (p : BitVec 2) (d : BitVec 8) (s' : BitVec 8) (n : BitVec 8) (s : State) : Result :=
  kop (.xsXrotc p d s' n) (fun y r => opXs (fun _ g => some ((g + (r.uniform .int n.toNat).toNat) % r.lanes)) p d s' y r) s

/-- xcmp (R161). -/
def execXsXcmp (p : BitVec 2) (d : BitVec 8) (s' : BitVec 8) (s : State) : Result :=
  kop (.xsXcmp p d s') (opXsSel (fun m g => (coreChosen m (g / 16))[g % 16]?) p d s') s

/-- xcmpc (R161). -/
def execXsXcmpc (p : BitVec 2) (d : BitVec 8) (s' : BitVec 8) (s : State) : Result :=
  kop (.xsXcmpc p d s') (opXsSel (fun m g => (chosen m)[g]?) p d s') s

/-- xexp (R161). -/
def execXsXexp (p : BitVec 2) (d : BitVec 8) (s' : BitVec 8) (s : State) : Result :=
  kop (.xsXexp p d s') (opXsSel (fun m g => if m.getD g false then some ((chosen m).filter (· < g)).length else none) p d s') s

/-- xcnt (R161). -/
def execXsXcnt (p : BitVec 2) (d : BitVec 8) (s : State) : Result :=
  kop (.xsXcnt p d) (fun _ r => r.writeReg d 4 (r.tabulate (xcntWord (r.predicate p.toNat))) (List.replicate r.lanes true)) s

end Sys2Proof.Machine
end

