-- ==== Sys2Proof/Machine/KTile.lean ====
section
/-!
DEFINITION. The TM, PT and AM operations (R120-R147).
-/

namespace Sys2Proof.Machine

/-- The weight format a slot's tag names, NONE for any other tag (R121). -/
def Run.weightsAt (r : Run) (rowMajor : Bool) (m : Nat) : Weights :=
  let t := r.slotTag m
  if isDense t then { fmt := t, rowMajor := rowMajor, area := r.slotArea m (if t = 2 then 1 else 3) } else {}

/-- Does a tldx of an earlier bundle still read (R123)?  Then the group stalls. -/
def Run.whenRead (r : Run) (f : Run → Run) : Run := if r.tldx = 0 then f r else { r with stall := true }

/-- tldw and tldwt: the active weights, with a drain (R122). -/
def Run.loadWeights (r : Run) (rowMajor : Bool) (m : Nat) : Run :=
  r.whenRead (fun r => { r with newActive := some (r.weightsAt rowMajor m), newDrain := true })

/-- tldx: the shadow set, read in the background (R122, R123). -/
def Run.loadShadow (r : Run) (m : Nat) : Run :=
  r.whenRead (fun r => { r with shadow := r.weightsAt false m, newTldx := some (loadCycles r m 3) })

/-- tdrn: the shadow set becomes active, with a drain (R122). -/
def Run.makeActive (r : Run) : Run := r.whenRead (fun r => { r with newActive := some r.shadow, newDrain := true })

/-- twclr (R122). -/
def Run.clearWeights (r : Run) : Run :=
  { r with newActive := some {}, newDrain := true, tovr := false, tmis := false, newClr := true }

/-- tscl and tbias: every element of an FP32 bank with the word of its column (R129). -/
def Run.scaleBank (r : Run) (f : W32 → W32 → W32) (k m : Nat) : Run :=
  match tget r.banks k with
  | some b =>
    if b.part then r
    else
      r.post 4 (.bankRows k ((List.range 32).map (fun x =>
        (x, r.tabulate (fun g =>
          f ((b.row r.lanes x).getD g 0) (linesWord (r.slotLines m) (g / 16) (16 * (x % 8) + g % 16)))))))
  | none => r

/-- An FP32 bank's row, or zero where the bank is not in FP32 mode. -/
def Run.fpRow (r : Run) (k x : Nat) : Row :=
  match tget r.banks k with
  | some b => if b.part then r.splat 0 else b.row r.lanes x
  | none => r.splat 0

/-- tcvt: pairs of rows rounded to BF16 (R129). -/
def Run.convertBank (r : Run) (d k : Nat) : Run :=
  r.post 2 (.bankRows d ((List.range 32).map (fun x =>
    (x, if x < 16 then
          List.zipWith (fun lo hi => roundBF16 (f32 hi) ++ roundBF16 (f32 lo)) (r.fpRow k (2 * x)) (r.fpRow k (2 * x + 1))
        else r.splat 0))))

/-- The signed value of a container of a part-sum bank, or 0 (R144). -/
def Run.partVal (r : Run) (k x g : Nat) : Int :=
  match tget r.banks k with
  | some b => if b.part then ((b.cellRow r.lanes x).getD g 0).toInt else 0
  | none => 0

/-- pcvt: part sums scaled to FP32; no effect where both banks are one (R144). -/
def Run.convertParts (r : Run) (d k m : Nat) : Run :=
  if d = k then r else r.post 4 (.bankRows d ((List.range 16).map (fun x =>
    (x, r.tabulate (fun g =>
      roundFP32 ((FVal.ofInt (r.partVal k x g)).mul
        (f32 (linesWord (r.slotLines m) (g / 16) (16 * (x % 8) + g % 16)))))))))

/-- pld4, pld8 and plds: the three outcomes of R137. -/
def Run.loadParts (r : Run) (fmt m : Nat) : Run :=
  r.whenRead (fun r =>
    let w : Weights := { fmt := fmt, area := r.slotArea m (partsSlots fmt) }
    if r.slotTag m ≠ fmt then { r with newActive := some {}, newDrain := true, tmis := true }
    else
      let bad := badRecordCores w r.g
      if bad.isEmpty then { r with newActive := some w, newDrain := true } else r.fault 3 bad)

/-- pscan: the sums from each lane to lane 15 of its core (R147). -/
def Run.suffixSums (r : Run) (x : Row) : Row :=
  r.tabulate (fun g => ((x.drop g).take (16 - g % 16)).foldl (· + ·) 0)

/-- mclaim, or its TOM_SLOT_BAD fault (R132). -/
def Run.claimSlot (r : Run) (m : Nat) : Run :=
  if r.tomN ≤ m || thas r.slots m then r.fault 4 [0] else r.post 1 (.claim m)

/-- ard and ardh: a row of a bank as it stands, its low or high words (R133). -/
def Run.readBank (r : Run) (high : Bool) (k x : Nat) : Row :=
  match tget r.banks k with
  | some b =>
    if b.part then
      (b.cellRow r.lanes (x % 16)).map (fun w => if high then w.extractLsb' 32 32 else w.extractLsb' 0 32)
    else b.row r.lanes (x % 32)
  | none => r.splat 0

/-- tldw (R122). -/
def execTmTldw (m : BitVec 8) (s : State) : Result :=
  kop (.tmTldw m) (fun _ r => r.loadWeights false m.toNat) s

/-- tldwt (R122). -/
def execTmTldwt (m : BitVec 8) (s : State) : Result :=
  kop (.tmTldwt m) (fun _ r => r.loadWeights true m.toNat) s

/-- tmma (R124). -/
def execTmTmma (k : BitVec 8) (m : BitVec 8) (n : BitVec 8) (s : State) : Result :=
  kop (.tmTmma k m n) (fun _ r => r.queuePass (passOf false .acc k.toNat m.toNat (r.uniform .int n.toNat))) s

/-- tmmz (R124). -/
def execTmTmmz (k : BitVec 8) (m : BitVec 8) (n : BitVec 8) (s : State) : Result :=
  kop (.tmTmmz k m n) (fun _ r => r.queuePass (passOf false .zero k.toNat m.toNat (r.uniform .int n.toNat))) s

/-- tmmn (R124). -/
def execTmTmmn (k : BitVec 8) (m : BitVec 8) (n : BitVec 8) (s : State) : Result :=
  kop (.tmTmmn k m n) (fun _ r => r.queuePass (passOf false .neg k.toNat m.toNat (r.uniform .int n.toNat))) s

/-- tldx (R122). -/
def execTmTldx (m : BitVec 8) (s : State) : Result :=
  kop (.tmTldx m) (fun _ r => r.loadShadow m.toNat) s

/-- tdrn (R122). -/
def execTmTdrn (s : State) : Result :=
  kop (.tmTdrn) (fun _ r => r.makeActive) s

/-- twclr (R122). -/
def execTmTwclr (s : State) : Result :=
  kop (.tmTwclr) (fun _ r => r.clearWeights) s

/-- tstat (R128). -/
def execTmTstat (p : BitVec 2) (d : BitVec 8) (s : State) : Result :=
  kop (.tmTstat p d) (fun _ r => r.writeReg d 1 (r.splat r.tstat) (r.predicate p.toNat)) s

/-- tscl (R129). -/
def execTmTscl (k : BitVec 8) (m : BitVec 8) (s : State) : Result :=
  kop (.tmTscl k m) (fun _ r => r.scaleBank mulFP32 k.toNat m.toNat) s

/-- tbias (R129). -/
def execTmTbias (k : BitVec 8) (m : BitVec 8) (s : State) : Result :=
  kop (.tmTbias k m) (fun _ r => r.scaleBank addFP32 k.toNat m.toNat) s

/-- tamw (R129). -/
def execTmTamw (k : BitVec 8) (s' : BitVec 8) (r' : BitVec 8) (s : State) : Result :=
  kop (.tmTamw k s' r') (fun _ r => r.post 1 (.amRow k.toNat (r.uniform .int r'.toNat).toNat (r.source .int s'.toNat))) s

/-- tcvt (R129). -/
def execTmTcvt (d : BitVec 8) (s' : BitVec 8) (s : State) : Result :=
  kop (.tmTcvt d s') (fun _ r => r.convertBank d.toNat s'.toNat) s

/-- tmmh (R124). -/
def execTmTmmh (k : BitVec 8) (m : BitVec 8) (n : BitVec 8) (s : State) : Result :=
  kop (.tmTmmh k m n) (fun _ r => r.queuePass (passOf false .half k.toNat m.toNat (r.uniform .int n.toNat))) s

/-- pld4 (R137). -/
def execPtPld4 (m : BitVec 8) (s : State) : Result :=
  kop (.ptPld4 m) (fun _ r => r.loadParts 7 m.toNat) s

/-- pld8 (R137). -/
def execPtPld8 (m : BitVec 8) (s : State) : Result :=
  kop (.ptPld8 m) (fun _ r => r.loadParts 8 m.toNat) s

/-- plds (R137). -/
def execPtPlds (m : BitVec 8) (s : State) : Result :=
  kop (.ptPlds m) (fun _ r => r.loadParts 9 m.toNat) s

/-- ppass (R140). -/
def execPtPpass (k : BitVec 8) (m : BitVec 8) (n : BitVec 8) (s : State) : Result :=
  kop (.ptPpass k m n) (fun _ r => r.queuePass (passOf true .acc k.toNat m.toNat (r.uniform .int n.toNat))) s

/-- ppassz (R140). -/
def execPtPpassz (k : BitVec 8) (m : BitVec 8) (n : BitVec 8) (s : State) : Result :=
  kop (.ptPpassz k m n) (fun _ r => r.queuePass (passOf true .zero k.toNat m.toNat (r.uniform .int n.toNat))) s

/-- ppassn (R140). -/
def execPtPpassn (k : BitVec 8) (m : BitVec 8) (n : BitVec 8) (s : State) : Result :=
  kop (.ptPpassn k m n) (fun _ r => r.queuePass (passOf true .neg k.toNat m.toNat (r.uniform .int n.toNat))) s

/-- pcvt (R144). -/
def execPtPcvt (d : BitVec 8) (s' : BitVec 8) (m : BitVec 8) (s : State) : Result :=
  kop (.ptPcvt d s' m) (fun _ r => r.convertParts d.toNat s'.toNat m.toNat) s

/-- pclro (R145).  DEDUCED (log 69): it clears OVF, as R145 says of it, where R74 names only allocation and aclr. -/
def execPtPclro (k : BitVec 8) (s : State) : Result :=
  kop (.ptPclro k) (fun _ r => r.post 1 (.clearOvf k.toNat)) s

/-- pstat (R146). -/
def execPtPstat (p : BitVec 2) (d : BitVec 8) (s : State) : Result :=
  kop (.ptPstat p d) (fun _ r => r.writeReg d 1 (r.tabulate (fun g => r.pstat (g / 16))) (r.predicate p.toNat)) s

/-- ptclr (R135, R138). -/
def execPtPtclr (s : State) : Result :=
  kop (.ptPtclr) (fun _ r => { r with newActive := some {}, newDrain := true }) s

/-- pdrn (R138). -/
def execPtPdrn (s : State) : Result :=
  kop (.ptPdrn) (fun _ r => { r with newDrain := true }) s

/-- pscan (R147). -/
def execPtPscan (p : BitVec 2) (d : BitVec 8) (s' : BitVec 8) (s : State) : Result :=
  kop (.ptPscan p d s') (fun _ r => r.writeReg d 4 (r.suffixSums (r.source .int s'.toNat)) (r.predicate p.toNat)) s

/-- aalloc (R131). -/
def execAmAalloc (k : BitVec 8) (s : State) : Result :=
  kop (.amAalloc k) (fun _ r => r.post 1 (.alloc k.toNat false)) s

/-- aallocp (R131). -/
def execAmAallocp (k : BitVec 8) (s : State) : Result :=
  kop (.amAallocp k) (fun _ r => r.post 1 (.alloc k.toNat true)) s

/-- afree (R131). -/
def execAmAfree (k : BitVec 8) (s : State) : Result :=
  kop (.amAfree k) (fun _ r => r.post 1 (.free k.toNat)) s

/-- mclaim (R132). -/
def execAmMclaim (m : BitVec 8) (s : State) : Result :=
  kop (.amMclaim m) (fun _ r => r.claimSlot m.toNat) s

/-- mrel (R132). -/
def execAmMrel (m : BitVec 8) (s : State) : Result :=
  kop (.amMrel m) (fun _ r => r.post 1 (.release m.toNat)) s

/-- ard (R133). -/
def execAmArd (p : BitVec 2) (d : BitVec 8) (k : BitVec 8) (r' : BitVec 8) (s : State) : Result :=
  kop (.amArd p d k r') (fun _ r => r.writeReg d 2 (r.readBank false k.toNat (r.uniform .int r'.toNat).toNat) (r.predicate p.toNat)) s

/-- ardh (R133). -/
def execAmArdh (p : BitVec 2) (d : BitVec 8) (k : BitVec 8) (r' : BitVec 8) (s : State) : Result :=
  kop (.amArdh p d k r') (fun _ r => r.writeReg d 2 (r.readBank true k.toNat (r.uniform .int r'.toNat).toNat) (r.predicate p.toNat)) s

/-- aclr (R131). -/
def execAmAclr (k : BitVec 8) (s : State) : Result :=
  kop (.amAclr k) (fun _ r => r.post 1 (.clear k.toNat)) s

end Sys2Proof.Machine
end

