-- ==== Sys2Proof/Machine/Losses.lean ====
section
/-!
DEFINITION. Losses at run time (R337, R352-R354): a die, a stack, a bridge link, and a hub with its half.
-/

namespace Sys2Proof.Machine

/-! ## The work of a lost cluster (R246, R337, R353) -/

/-- Every line of a cluster's data cache is written back: what its stores did stands (R353). -/
def State.flushSc (s : State) (n : Nat) : State := ((s.sc n).lines.map Prod.fst).foldl (fun t k => t.evict n k) s

/-- TRANSFORM nodes with jobs on a cluster that are not over end faulted. -/
def State.failJobs (s : State) (n : Nat) : State :=
  s.graphs.foldl (fun t g =>
    (g.2.nodes.zipIdx).foldl (fun t p =>
      if p.1.st == .running && p.1.jobs.any (fun j => j.1 == n && notComplete (s.sc n) j.2) then
        t.endNode g.1 p.2 .poison none (some 0x42)
      else t) t) s

/-- Signals of reclaimed tasks that wait for jobs of a cluster are delivered as poisoned. -/
def State.failLate (s : State) (n : Nat) : State :=
  (s.late.filter (fun l => l.sc == n)).foldl (fun t l =>
    t.sendEdges l.graph (l.es.filterMap (fun j => (t.node l.graph l.node).e0[j]?)) .poison)
    { s with late := s.late.filter (fun l => l.sc != n) }

/-- Entries, jobs and runs of a cluster are gone: WAITING entries are cancelled, started jobs stop and no flag of theirs is
incremented, runs are discarded (R353). -/
def State.clearWork (s : State) (n : Nat) : State :=
  ((s.failJobs n).failLate n).modSc n (fun t => { t with entries := [], runs := [], arrivals := [], stopped := true })

/-- The task in context c of a lost cluster ends LOST; a RECLAIMED one is reclaimed (R242, R246). -/
def State.loseTask (s : State) (n c : Nat) : State :=
  if (s.ctx n c).st = .free then s
  else if s.ctxReclaimed n c then s.reclaimAt n c
  else s.endTaskAt n c .faulted 0x42 0 .lost

/-- The descheduled task of a future on a lost cluster ends LOST. -/
def State.loseSleeper (s : State) (k n : Nat) : State :=
  match tget s.sleepers k with
  | none => s
  | some x =>
    if s.isReclaimed k then s.reclaimNow k
    else
      let t := s.endTask k n x.ctx .faulted 0x42 0 .lost
      { t with sleepers := tdel t.sleepers k, slices := t.slices.filter (fun z => z.fut != k) }

/-- Operations on read-duplicate pages that a lost cluster made complete as those of no context here: R340 has each complete at every
live holder before the next begins. -/
def State.dropDups (s : State) (n : Nat) : State :=
  let lose := fun (o : DupOp) => { o with who := o.who.filter (fun x => x.1 != n) }
  { s with dup := s.dup.map (fun p => (p.1, { p.2 with ops := p.2.ops.map lose, asked := p.2.asked.map lose })) }

/-- A cluster is lost. -/
def State.loseSc (s : State) (n : Nat) : State :=
  let t := (s.flushSc n).clearWork n
  let t := (List.range 16).foldl (fun t c => t.loseTask n c) t
  let t := ((t.sleepers.filter (fun p => p.2.sc == n)).map Prod.fst).foldl (fun t k => t.loseSleeper k n) t
  { t.dropDups n with
           committing := t.committing.filter (fun p => p.1 != n),
           topo := { t.topo with cores := t.topo.cores.set n 0 } }

/-- The tasks of a launch that are not yet created end LOST where its region's mask has no live SC left (R337). -/
def State.loseUncreated (s : State) (l : Nat) : State :=
  match tget s.launches l with
  | none => s
  | some x =>
    if x.graph || x.count ≤ x.next || !(s.scsOf x.rcb).isEmpty then s
    else
      let k := x.count - x.next
      let y : Launch := { x with next := x.count, ended := x.ended + k, lost := x.lost + k, firstLost := minTix x.firstLost x.next }
      State.tryLaunch { s with launches := tput s.launches l y } l

/-- The same for every launch. -/
def State.loseUncreatedAll (s : State) : State := (s.launches.map Prod.fst).foldl State.loseUncreated s

/-- A bit of a register cleared. -/
def clearBit {w : Nat} (x : BitVec w) (i : Nat) : BitVec w := x &&& ~~~((1 : BitVec w) <<< i)

/-- A die is lost (R353). -/
def State.loseDie (s : State) (d : Nat) : State :=
  let t := (s.loseSc (2 * d)).loseSc (2 * d + 1)
  { t with topo := { t.topo with dies := clearBit t.topo.dies d } }

/-- DIE_LOSS (R353): `core` says that a core's failure took the die. -/
def execDieLoss (d : Nat) (core : Bool) (s : State) : Result :=
  .next (if d < 8 ∧ bitNat s.topo.dies.toNat d = true then
      (s.loseDie d).loseUncreatedAll.setHlth [hlthReplace, if core then lossCore else lossDie]
    else s)

/-! ## Stacks -/

/-- STACK_LOSS (R353). -/
def execStackLoss (k : Nat) (s : State) : Result :=
  .next (if k < 8 ∧ bitNat s.topo.stks.toNat k = true then
      ({ s with topo := { s.topo with stks := clearBit s.topo.stks k } } : State).setHlth [hlthReplace, lossStack]
    else s)

/-! ## A half (R354) -/

/-- Live dies of a half. -/
def liveDies (t : Topo) (h : Nat) : Nat := ((List.range 4).filter (fun i => bitNat t.dies.toNat (4 * h + i))).length

/-- The half a split makes the minor one: with fewer live dies, half 1 on a tie. -/
def minorHalf (t : Topo) : Nat := if liveDies t 0 < liveDies t 1 then 0 else 1

/-- The TIX of the tasks of a launch that have not ended: those created, and the first that is not. -/
def State.openTix (s : State) (l : Nat) (x : Launch) : List Nat :=
  s.futs.filterMap (fun p => if p.2.launch = some l ∧ (p.2.st = .running ∨ p.2.st = .ready) then some p.2.tix else none)
    ++ (if x.next < x.count then [x.next] else [])

/-- A launch of the minor half's queues: its tasks that have not ended are LOST, and its block is written where its FLAG lies
in that half's memory (R354). -/
def State.closeLaunch (s : State) (h l : Nat) (x : Launch) : State :=
  let lost := x.lost + (x.count - x.ended)
  let first := (s.openTix l x).foldl minTix x.firstLost
  if x.flag / halfSize = h then
    s.writeBlock x.flag x.value (launchStatus lost x.faulted) x.done lost x.faulted (first.getD noTix) (x.firstFault.getD noTix)
  else s

/-- The launches of a half's queues are closed, and its queues read no more. -/
def State.closeQueues (s : State) (h : Nat) : State :=
  let mine := s.launches.filter (fun p => p.2.hub == h)
  let t := mine.foldl (fun t p => t.closeLaunch h p.1 p.2) s
  { t with launches := t.launches.filter (fun p => p.2.hub != h),
           queues := t.queues.map (fun p => if p.1 / 4096 = h then (p.1, { p.2 with en := false }) else p) }

/-- Graphs of a half's walker: a future that the other hub holds ends FAULTED with LOST, and a launch of the other half's is
PARTIAL (R337, R354). -/
def State.closeGraphs (s : State) (h : Nat) : State :=
  let mine := s.graphs.filter (fun p => hubOf p.2.sc == h)
  let t : State := { s with graphs := s.graphs.filter (fun p => hubOf p.2.sc != h) }
  mine.foldl (fun t p =>
    let g := p.2
    let u := t.modFut g.fut (fun f => { f with st := .faulted, status := 0x42, result := 0 })
    match g.launch.bind (fun l => (tget u.launches l).map (fun x => (l, x))) with
    | some (l, x) =>
      let v := u.writeBlock x.flag x.value 2 0 1 0 0 noTix
      { v.modQueue x.queue (fun q => { q with infl := q.infl - 1 }) with launches := tdel v.launches l }
    | none => u) t

/-- The lanes of a half leave the topology; its ports are in ERROR and its relay store is gone. -/
def State.dropPorts (s : State) (h : Nat) : State :=
  let ps := [h, 2 + 2 * h, 3 + 2 * h] ++ (List.range 24).map (fun i => 8 + 24 * h + i)
  let t := ps.foldl State.failPort s
  let mask : BitVec 48 := if h = 0 then 0xFFFFFF else 0xFFFFFF000000
  { t with topo := { t.topo with lanes := t.topo.lanes &&& ~~~mask },
           fab := { t.fab with relay := t.fab.relay.filter (fun p => p.1 != h) } }

/-- The other half, as the majority treats it from then on (R354). -/
def State.loseHalf (s : State) (h : Nat) : State :=
  let t := (List.range 8).foldl (fun t i => t.loseSc (8 * h + i)) ((s.closeQueues h).closeGraphs h)
  let t := t.dropPorts h
  let t := { t with slices := t.slices.filter (fun z => z.fut / 131072 != h) }
  let t := { t with topo := { t.topo with
    halves := clearBit t.topo.halves h,
    dies := t.topo.dies &&& ~~~((15 : BitVec 8) <<< (4 * h)),
    stks := t.topo.stks &&& ~~~((15 : BitVec 8) <<< (4 * h)) } }
  let t := t.dropTlb (fun _ x => pkgOf x.pa == t.pkgid && decide (localOf x.pa / halfSize = h))
  let t := if h = 0 ∧ t.topo.acthost = false then t.failOver else t
  t.loseUncreatedAll.setHlth [hlthReplace]

/-- The package splits (R354): the minor half's own HLTH and its SPLIT bit, and the majority's life without it.  After that the minor
half's stacks serve nobody but its own management, which has no event here (log 59). -/
def State.splitPackage (s : State) : State :=
  let u := s.loseHalf (minorHalf s.topo)
  { u with topo := { u.topo with split := true },
           mgmt := { u.mgmt with minorHlth := withBits [hlthReplace, hlthSplitMinor, lossBridge] s.mgmt.hlth } }

/-- BRIDGE_LINK_FAILURE (R353, R354): with the second link the package splits. -/
def execBridgeLinkFailure (l : Nat) (s : State) : Result :=
  .next (if l < 2 ∧ bitNat s.topo.brg.toNat l = true then
      let t := ({ s with topo := { s.topo with brg := clearBit s.topo.brg l } } : State).setHlth [hlthReplace, lossBridge]
      if t.topo.brg = 0 ∧ t.topo.halves = 3 then t.splitPackage else t
    else s)

/-- HUB_LOSS (R353): its half is lost; with the last hub nothing of the module acts any more. -/
def execHubLoss (h : Nat) (s : State) : Result :=
  .next (if h < 2 ∧ bitNat s.topo.halves.toNat h = true then
      let t := (s.loseHalf h).setHlth [lossHub]
      if t.topo.halves = 0 then { t with mgmt := { t.mgmt with dead := true } } else t
    else s)

end Sys2Proof.Machine
end

