-- ==== Sys2Proof/Machine/Manage.lean ====
section
/-!
DEFINITION. Bring-up and management (R388-R395): the boot sequence, firmware images, identity and measurements, clocks, power
and the thermal trip.
-/

namespace Sys2Proof.Machine

/-! ## Firmware images (R389) -/

/-- Is an image accepted: its fields in range, its zeros zero, its digest and signature right, its key not revoked and its
security version high enough? -/
def imageOk (m : Mgmt) (img : List Byte) : Bool :=
  let k := fieldAt img 0x0C 4
  let len := fieldAt img 4 4
  let body := (img.drop 256).take len
  decide (256 + len ≤ img.length) && fieldAt img 0 4 == 0x57463456 && len % 64 == 0 && decide (len ≤ 64 * 2 ^ 20)
    && decide (k < 4) && !m.revoked.contains k && decide (m.minSvn ≤ fieldAt img 8 4)
    && ((img.drop 0x90).take 112).all (· == 0)
    && (img.drop 0x10).take 64 == Config.sha512 body
    && Config.edVerify (Config.rootKey k) (img.take 0x50) ((img.drop 0x50).take 64)

/-- An image's header and body. -/
def imageBytes (img : List Byte) : List Byte := img.take (256 + fieldAt img 4 4)

/-! ## The boot sequence (R388) -/

/-- The stacks a boot leaves live: a lost stack takes its interleave pair (R268, R352). -/
def pairedStacks (x : BitVec 8) : BitVec 8 :=
  BitVec.ofNat 8 (((List.range 8).filter (fun i => bitNat x.toNat i && bitNat x.toNat (i / 2 * 2 + (1 - i % 2)))).map (2 ^ ·)).sum

/-- The dies with a live core. -/
def diesOf (cores : List (BitVec 16)) : BitVec 8 :=
  BitVec.ofNat 8 (((List.range 8).filter (fun d => cores.getD (2 * d) 0 != 0 || cores.getD (2 * d + 1) 0 != 0)).map (2 ^ ·)).sum

/-- The halves with a live die or a live stack. -/
def halvesOf (dies stks : BitVec 8) : BitVec 2 :=
  BitVec.ofNat 2 (((List.range 2).filter (fun h =>
    bitsNat dies.toNat (4 * h) 4 != 0 || bitsNat stks.toNat (4 * h) 4 != 0)).map (2 ^ ·)).sum

/-- The topology registers as step 3 sets them. -/
def bootTopo (b : BootInput) : Topo :=
  let cores := (List.range 16).map (fun n => b.coresLive.getD n 0)
  let stks := pairedStacks b.stacksLive
  { acthost := !bitNat b.hostTrained.toNat 0, halves := halvesOf (diesOf cores) b.stacksLive, stks := stks, dies := diesOf cores,
    brg := b.bridges, lanes := b.lanes, cores := cores, bootStacks := stks }

/-- A port that trained is in RUN; the others, and every lane, are in CONFIG_UNLOCKED (R355, R388). -/
def trainedPorts (b : BootInput) : Tab LockSt :=
  ((List.range 2).filter (fun p => bitNat b.hostTrained.toNat p)).map (fun p => (p, LockSt.run))
    ++ ((List.range 4).filter (fun p => bitNat b.storageTrained.toNat p)).map (fun p => (2 + p, LockSt.run))

/-- Is a bit of one word not set in another? -/
def lostBit {w : Nat} (was now : BitVec w) : Bool := was &&& ~~~now != 0

/-- The reasons of a loss beyond the harvest that the module's identity records (R353): a core of a die that is live, a die, a stack, a
lane, a bridge link. -/
def lossReasons (was now : Topo) : List Nat :=
  let core := (List.range 16).any (fun n => bitNat now.dies.toNat (n / 2) && lostBit (was.cores.getD n 0) (now.cores.getD n 0))
  (if core then [lossCore] else []) ++ (if lostBit was.dies now.dies then [lossDie] else [])
    ++ (if lostBit was.stks now.stks then [lossStack] else []) ++ (if lostBit was.lanes now.lanes then [lossLane] else [])
    ++ (if lostBit was.brg now.brg then [lossBridge] else [])

/-- HLTH after a boot (R353, R388): REPLACE with its reasons for what self-test found lost beyond the harvest, HOSTFO where the half 0
port failed to train (DEDUCED, log 63), and BOOTALT. -/
def bootHlth (was now : Topo) (alt : Bool) : Word :=
  let l := lossReasons was now
  withBits (l ++ (if l.isEmpty then [] else [hlthReplace]) ++ (if now.acthost then [hlthHostFo] else [])
    ++ (if alt then [hlthBootAlt] else [])) 0

/-- What is fused, as it stands when the module resets (R389): the firmware that has run may have raised the minimum SVN to its own, and
keys may have been revoked; whether it did are free values. -/
def State.fused (s : State) : Mgmt :=
  let v := s.freeVal
  let svn := fieldAt (s.mgmt.image.getD Config.bootImage) 8 4
  { s.mgmt with minSvn := if bitNat v 0 && !s.mgmt.dead then max s.mgmt.minSvn svn else s.mgmt.minSvn,
                revoked := (s.mgmt.revoked ++ (List.range 4).filter (fun k => bitNat v (k + 1))).dedup }

/-- The hardwired thermal trip (R394): every arithmetic clock and every laser stops. -/
def State.trip (s : State) : State :=
  ({ s with mgmt := { s.mgmt with tripped := true, temp := max 110 s.mgmt.temp },
            fab := { s.fab with slot := 0, links := [] } } : State).setHlth [hlthTrip, hlthReplace]

/-- The state, tripped where a die sensor has reached 110 degrees (R394). -/
def State.tripAt (s : State) (temp : Nat) : State := if 110 ≤ temp then s.trip else s

/-- The state a boot of an accepted image comes to.  What is fused stays, memory keeps its bytes (log 20), and everything else
is at its reset value. -/
def State.boot (s : State) (b : BootInput) (img : List Byte) (alt : Bool) : State :=
  let topo := bootTopo b
  let t : State :=
    { scs := (List.range 16).map (fun n => (n, if topo.cores.getD n 0 = 0 then { stopped := true } else bootSc)),
      mem := s.mem, ueSectors := s.ueSectors, ceSectors := s.ceSectors,
      topo := topo, ports := trainedPorts b,
      mgmt := { hlth := bootHlth s.mgmt.harvest topo alt, temp := b.temp.toNat, minSvn := s.mgmt.minSvn, revoked := s.mgmt.revoked,
                image := some (imageBytes img), topo0 := { topo with acthost := false }, harvest := s.mgmt.harvest },
      agenda := s.agenda, turnNo := s.turnNo, free := s.free, out := s.out }
  (if b.bridges = 0 ∧ topo.halves = 3 then t.splitPackage else t).tripAt b.temp.toNat

/-- The state of a boot that no image passed: only the half 0 port's configuration space answers. -/
def State.bootFailed (s : State) : State :=
  { mem := s.mem, ueSectors := s.ueSectors, ceSectors := s.ceSectors,
    mgmt := { hlth := BitVec.ofNat 64 (2 ^ hlthBootFail), dead := true, minSvn := s.mgmt.minSvn, revoked := s.mgmt.revoked,
              harvest := s.mgmt.harvest },
    agenda := s.agenda, turnNo := s.turnNo, free := s.free, out := s.out }

/-- MODULE_RESET (R388). -/
def execModuleReset (b : BootInput) (s : State) : Result :=
  let t := State.useFree { s with mgmt := s.fused } 1
  .next (if imageOk t.mgmt b.imageA then t.boot b b.imageA false
    else if imageOk t.mgmt b.imageB then t.boot b b.imageB true
    else t.bootFailed)

/-! ## Identity and measurements (R390) -/

/-- A request of SPDM 1.3; one of another version is not accepted (R391). -/
def State.atSpdm (s : State) (ver : Nat) (f : State → State) : State := if ver = spdmVersion then f s else s

/-- GET_CERTIFICATE: the certificate chain of a slot. -/
def execGetCertificate (slot : Spdm Nat) (s : State) : Result :=
  .next (s.atSpdm slot.ver (fun s => s.emit (.spdm (Config.certificate slot.ask))))

/-- An answer signed with the identity key. -/
def signed (bs : List Byte) : List Byte := bs ++ Config.edSign bs

/-- CHALLENGE: the nonce, signed. -/
def execChallenge (nonce : Spdm (List Byte)) (s : State) : Result :=
  .next (s.atSpdm nonce.ver (fun s => s.emit (.spdm (signed nonce.ask))))

/-- The bytes of topology registers: TOPO, TOPOLANE and the 16 TOPOCORE (R352). -/
def topoBytes (s : State) (t : Topo) : List Byte :=
  let u : State := { s with topo := t }
  natBytes 8 u.topoWord.toNat ++ natBytes 8 t.lanes.toNat ++ (List.range 16).flatMap (fun n => natBytes 8 (t.cores.getD n 0).toNat)

/-- What a measurement covers; the calendar, before any lane has been locked, is a free value. -/
def State.measured (s : State) (i : Nat) : Option (List Byte) :=
  if i = 1 then some Config.bootRom
  else if i = 2 then some (s.mgmt.image.getD Config.bootImage)
  else if i = 3 then some (s.mgmt.calendar.getD [BitVec.ofNat 8 s.freeVal])
  else if i = 4 then some (topoBytes s s.mgmt.topo0)
  else none

/-- GET_MEASUREMENTS: the digest, signed. -/
def execGetMeasurements (index : Spdm Nat) (s : State) : Result :=
  .next (s.atSpdm index.ver (fun s => match s.measured index.ask with
    | some bs => (s.emit (.spdm (signed (Config.sha512 bs)))).useFree (if index.ask = 3 then 1 else 0)
    | none => s))

/-! ## Clocks, power and temperature (R392-R394) -/

/-- THERMAL_TRIP (R394). -/
def execThermalTrip (s : State) : Result := .next s.trip

/-- The temperature of a die in a sample. -/
def dieTemp (p : PowerSample) (d : Nat) : Nat := (p.temps.getD d 0).toNat

/-- Is the mean power, or the temperature of a die, over its limit? -/
def overPower (m : Mgmt) (p : PowerSample) : Bool := decide (1000 * m.plim < p.meanMW)
def overTemp (m : Mgmt) (p : PowerSample) (d : Nat) : Bool := decide (m.tthr < dieTemp p d)

/-- Are mean and temperatures of a sample far enough below their limits (R393)? -/
def farBelow (m : Mgmt) (p : PowerSample) : Bool :=
  decide (p.meanMW * 100 ≤ 95 * (1000 * m.plim)) && (List.range 8).all (fun d => decide (dieTemp p d + 5 ≤ m.tthr))

/-- The TB since which every sample has been so, this one among them. -/
def calmSince (m : Mgmt) (p : PowerSample) (now : Nat) : Option Nat := if farBelow m p then some (m.calm.getD now) else none

/-- Has it been so for a whole 1 ms (R393)? -/
def calmLong (m : Mgmt) (p : PowerSample) (now : Nat) : Bool :=
  match calmSince m p now with
  | some t => decide (t + 1000000 ≤ now)
  | none => false

/-- The dies a sample affects. -/
def affected (m : Mgmt) (p : PowerSample) : List Nat := (List.range 8).filter (fun d => overPower m p || overTemp m p d)

/-- The hottest die of a sample. -/
def hottest (p : PowerSample) : Nat :=
  (List.range 8).foldl (fun a d => if dieTemp p a < dieTemp p d then d else a) 0

/-- Why each step of die d was taken, after a sample, the last first (R393): one more for power or temperature, one fewer when
everything has been below its limits for 1 ms, up to step 7. -/
def newWhy (m : Mgmt) (p : PowerSample) (now d : Nat) : List (Bool × Bool) :=
  let l := m.why.getD d []
  if (affected m p).contains d then (if l.length < 7 then (overPower m p, overTemp m p d) :: l else l)
  else if calmLong m p now then l.drop 1
  else l

/-- Does step 7 not hold the power, with every die there, or the temperature of a die that is there (R393)? -/
def stuckPower (m : Mgmt) (p : PowerSample) : Bool := overPower m p && (List.range 8).all (fun d => m.steps.getD d 0 == 7)
def stuckTemp (m : Mgmt) (p : PowerSample) : Bool := (List.range 8).any (fun d => overTemp m p d && m.steps.getD d 0 == 7)

/-- Dies held for one limit after a sample: the hottest too where step 7 does not hold that limit, and none once it holds. -/
def heldFor (l : List Nat) (isOver stuck : Bool) (d : Nat) : List Nat :=
  if !isOver then [] else if stuck && !l.contains d then l ++ [d] else l

/-- Dies that start no kernel run after a sample, for the power and for the temperature: until that limit holds (R393).
DESIGN CHOICE (log 62): the temperature limit holds when no die is over it. -/
def newHeldPower (m : Mgmt) (p : PowerSample) : List Nat := heldFor m.heldPower (overPower m p) (stuckPower m p) (hottest p)
def newHeldTemp (m : Mgmt) (p : PowerSample) : List Nat :=
  heldFor m.heldTemp ((List.range 8).any (overTemp m p)) (stuckTemp m p) (hottest p)

/-- A bit of HLTH put. -/
def putHlth (h : Word) (i : Nat) (on : Bool) : Word := if on then h ||| (1 <<< i) else h &&& ~~~((1 : Word) <<< i)

/-- The management state after a sample (R393); THERM and PCAP say whether a die is stepped down for that reason now (R395). -/
def sampledMgmt (m : Mgmt) (p : PowerSample) (now : Nat) : Mgmt :=
  let why := (List.range 8).map (newWhy m p now)
  let h := putHlth m.hlth hlthTherm (why.any (fun l => l.any Prod.snd))
  { m with mw := p.meanMW % 2 ^ 32, temp := dieTemp p (hottest p), why := why, steps := why.map List.length,
           heldPower := newHeldPower m p, heldTemp := newHeldTemp m p,
           calm := calmSince m p now, hlth := putHlth h hlthPcap (why.any (fun l => l.any Prod.fst)), sampled := some now }

/-- The readings of a sample after a thermal trip, which nothing is done about (R394, R395). -/
def readMgmt (m : Mgmt) (p : PowerSample) (now : Nat) : Mgmt :=
  { m with mw := p.meanMW % 2 ^ 32, temp := dieTemp p (hottest p), sampled := some now }

/-- POWER_SAMPLE (R393): no more often than every 100 us; a sensor at 110 degrees trips (R394). -/
def execPowerSample (p : PowerSample) (s : State) : Result :=
  .next (if (s.mgmt.sampled.map (fun t => decide (t + 100000 ≤ s.tb))).getD true then
      if s.mgmt.tripped then { s with mgmt := readMgmt s.mgmt p s.tb }
      else State.tripAt { s with mgmt := sampledMgmt s.mgmt p s.tb } (dieTemp p (hottest p))
    else s)

end Sys2Proof.Machine
end

