-- ==== Sys2Proof/Machine/Scalar.lean ====
section
/-!
DEFINITION. The scalar instructions: integer and logic (R196, R197), branches and jumps (R198), NOP and PAUSE (R202).
-/

namespace Sys2Proof.Machine

/-! ## Shapes -/

/-- RR: gd takes a function of ga and gb. -/
def rr (f : Word → Word → Word) (d a b : BitVec 5) (s : State) : Result :=
  ctl [d, a, b] s (fun s => s.ret d (f (s.g a) (s.g b)))

/-- RI: gd takes a function of ga and the sign-extended immediate. -/
def ri (f : Word → Word → Word) (d a : BitVec 5) (i : BitVec 14) (s : State) : Result :=
  ctl [d, a] s (fun s => s.ret d (f (s.g a) (i.signExtend 64)))

/-- BR: the branch is taken when a test of ga and gb holds (R54, R198). -/
def br (f : Word → Word → Bool) (a b : BitVec 5) (o : BitVec 14) (s : State) : Result :=
  ctl [a, b] s (fun s => if f (s.g a) (s.g b) then s.jump (s.pc + o.signExtend 64 * 4) else s.fin)

/-! ## Functions (R196) -/

/-- The high dwords of the products. -/
def mulHs (a b : Word) : Word := BitVec.ofInt 64 (a.toInt * b.toInt / 2 ^ 64)
def mulHz (a b : Word) : Word := BitVec.ofNat 64 (a.toNat * b.toNat / 2 ^ 64)

/-- Quotients and remainders, truncated toward zero; a zero divisor gives all ones and the dividend. -/
def divS (a b : Word) : Word := if b = 0 then 0xFFFFFFFFFFFFFFFF else BitVec.ofInt 64 (a.toInt.tdiv b.toInt)
def divZ (a b : Word) : Word := if b = 0 then 0xFFFFFFFFFFFFFFFF else BitVec.ofNat 64 (a.toNat / b.toNat)
def remS (a b : Word) : Word := if b = 0 then a else BitVec.ofInt 64 (a.toInt.tmod b.toInt)
def remZ (a b : Word) : Word := if b = 0 then a else BitVec.ofNat 64 (a.toNat % b.toNat)

/-- Shifts by the full count Z(y). -/
def shl64 (a n : Word) : Word := if 64 ≤ n.toNat then 0 else a <<< n.toNat
def shrz64 (a n : Word) : Word := if 64 ≤ n.toNat then 0 else a >>> n.toNat
def shrs64 (a n : Word) : Word := a.sshiftRight (min n.toNat 63)

/-- 1 or 0. -/
def bit64 (b : Bool) : Word := if b then 1 else 0
def sltS (a b : Word) : Word := bit64 (a.toInt < b.toInt)
def sltZ (a b : Word) : Word := bit64 (a.toNat < b.toNat)

/-- The number of 1 bits. -/
def popc64 (a : Word) : Word := BitVec.ofNat 64 (popNat 64 a.toNat)

/-! ## Meanings -/

/-- ADD (R196). -/
def execAdd (d a b : BitVec 5) (s : State) : Result :=
  rr (· + ·) d a b s

/-- SUB (R196). -/
def execSub (d a b : BitVec 5) (s : State) : Result :=
  rr (· - ·) d a b s

/-- MUL (R196). -/
def execMul (d a b : BitVec 5) (s : State) : Result :=
  rr (· * ·) d a b s

/-- MULHS (R196). -/
def execMulhs (d a b : BitVec 5) (s : State) : Result :=
  rr mulHs d a b s

/-- MULHZ (R196). -/
def execMulhz (d a b : BitVec 5) (s : State) : Result :=
  rr mulHz d a b s

/-- DIVS (R196). -/
def execDivs (d a b : BitVec 5) (s : State) : Result :=
  rr divS d a b s

/-- DIVZ (R196). -/
def execDivz (d a b : BitVec 5) (s : State) : Result :=
  rr divZ d a b s

/-- REMS (R196). -/
def execRems (d a b : BitVec 5) (s : State) : Result :=
  rr remS d a b s

/-- REMZ (R196). -/
def execRemz (d a b : BitVec 5) (s : State) : Result :=
  rr remZ d a b s

/-- AND (R196). -/
def execAnd (d a b : BitVec 5) (s : State) : Result :=
  rr (· &&& ·) d a b s

/-- OR (R196). -/
def execOr (d a b : BitVec 5) (s : State) : Result :=
  rr (· ||| ·) d a b s

/-- XOR (R196). -/
def execXor (d a b : BitVec 5) (s : State) : Result :=
  rr (· ^^^ ·) d a b s

/-- ANDN (R196). -/
def execAndn (d a b : BitVec 5) (s : State) : Result :=
  rr (fun x y => x &&& ~~~y) d a b s

/-- SHL (R196). -/
def execShl (d a b : BitVec 5) (s : State) : Result :=
  rr shl64 d a b s

/-- SHRZ (R196). -/
def execShrz (d a b : BitVec 5) (s : State) : Result :=
  rr shrz64 d a b s

/-- SHRS (R196). -/
def execShrs (d a b : BitVec 5) (s : State) : Result :=
  rr shrs64 d a b s

/-- SLTS (R196). -/
def execSlts (d a b : BitVec 5) (s : State) : Result :=
  rr sltS d a b s

/-- SLTZ (R196). -/
def execSltz (d a b : BitVec 5) (s : State) : Result :=
  rr sltZ d a b s

/-- POPC (R196). -/
def execPopc (d a : BitVec 5) (s : State) : Result :=
  ctl [d, a] s (fun s => s.ret d (popc64 (s.g a)))

/-- ADDI (R196). -/
def execAddi (d a : BitVec 5) (i : BitVec 14) (s : State) : Result :=
  ri (· + ·) d a i s

/-- ANDI (R196). -/
def execAndi (d a : BitVec 5) (i : BitVec 14) (s : State) : Result :=
  ri (· &&& ·) d a i s

/-- ORI (R196). -/
def execOri (d a : BitVec 5) (i : BitVec 14) (s : State) : Result :=
  ri (· ||| ·) d a i s

/-- XORI (R196). -/
def execXori (d a : BitVec 5) (i : BitVec 14) (s : State) : Result :=
  ri (· ^^^ ·) d a i s

/-- SHLI (R196). -/
def execShli (d a : BitVec 5) (i : BitVec 14) (s : State) : Result :=
  ri shl64 d a i s

/-- SHRZI (R196). -/
def execShrzi (d a : BitVec 5) (i : BitVec 14) (s : State) : Result :=
  ri shrz64 d a i s

/-- SHRSI (R196). -/
def execShrsi (d a : BitVec 5) (i : BitVec 14) (s : State) : Result :=
  ri shrs64 d a i s

/-- SLTSI (R196). -/
def execSltsi (d a : BitVec 5) (i : BitVec 14) (s : State) : Result :=
  ri sltS d a i s

/-- SLTZI (R196). -/
def execSltzi (d a : BitVec 5) (i : BitVec 14) (s : State) : Result :=
  ri sltZ d a i s

/-- LDI (R197). -/
def execLdi (d : BitVec 5) (i : BitVec 19) (s : State) : Result :=
  ctl [d] s (fun s => s.ret d (i.signExtend 64))

/-- LSI (R197). -/
def execLsi (d : BitVec 5) (i : BitVec 19) (s : State) : Result :=
  ctl [d] s (fun s => s.ret d ((s.g d <<< 19) ||| i.zeroExtend 64))

/-- BEQ (R198). -/
def execBeq (a b : BitVec 5) (o : BitVec 14) (s : State) : Result :=
  br (· == ·) a b o s

/-- BNE (R198). -/
def execBne (a b : BitVec 5) (o : BitVec 14) (s : State) : Result :=
  br (· != ·) a b o s

/-- BLTS (R198). -/
def execBlts (a b : BitVec 5) (o : BitVec 14) (s : State) : Result :=
  br (fun x y => x.toInt < y.toInt) a b o s

/-- BGES (R198). -/
def execBges (a b : BitVec 5) (o : BitVec 14) (s : State) : Result :=
  br (fun x y => y.toInt ≤ x.toInt) a b o s

/-- BLTZ (R198). -/
def execBltz (a b : BitVec 5) (o : BitVec 14) (s : State) : Result :=
  br (fun x y => x.toNat < y.toNat) a b o s

/-- BGEZ (R198). -/
def execBgez (a b : BitVec 5) (o : BitVec 14) (s : State) : Result :=
  br (fun x y => y.toNat ≤ x.toNat) a b o s

/-- J (R198). -/
def execJ (o : BitVec 24) (s : State) : Result :=
  ctl [] s (fun s => s.jump (s.pc + o.signExtend 64 * 4))

/-- JAL: the link goes to g31 (R198). -/
def execJal (o : BitVec 24) (s : State) : Result :=
  ctl [31] s (fun s => (s.setG 31 (s.pc + 4)).jump (s.pc + o.signExtend 64 * 4))

/-- JR: a misaligned target traps FETCH (R198). -/
def execJr (a : BitVec 5) (s : State) : Result :=
  ctl [a] s (fun s => if (s.g a).toNat % 4 = 0 then s.jump (s.g a) else s.trap causeFetch (s.g a))

/-- JALR reads ga before it writes the link; a misaligned target traps FETCH and writes no link (R198). -/
def execJalr (d a : BitVec 5) (s : State) : Result :=
  ctl [d, a] s (fun s =>
    if (s.g a).toNat % 4 = 0 then (s.setG d (s.pc + 4)).jump (s.g a) else s.trap causeFetch (s.g a))

/-- NOP (R202). -/
def execNop (s : State) : Result :=
  ctl [] s State.fin

/-- PAUSE: issue skips the context for 32 wall cycles (R202). -/
def execPause (s : State) : Result :=
  ctl [] s (fun s => s.fin.modMe (fun x => { x with pause := 33 }))

/-- TRAP: cause SOFT, with TPC the next instruction (R209). -/
def execTrap (n : BitVec 14) (s : State) : Result :=
  ctl [] s (fun s => s.trapNext causeSoft (n.zeroExtend 64))

/-- BRK: cause BREAK (R209). -/
def execBrk (n : BitVec 14) (s : State) : Result :=
  ctl [] s (fun s => s.trapNext causeBreak (n.zeroExtend 64))

/-- A fetched word that no instruction has: ILLEGAL, precisely (R55). -/
def execIllegalInstruction (w : W32) (s : State) : Result :=
  ctl [] s (fun s => s.trap causeIllegal (w.zeroExtend 64))

/-- A fetch that does not translate or lacks X: FETCH, with TPC = TVAL = the address (R198). -/
def execFetchFault (va : Word) (s : State) : Result :=
  ctl [] s (fun s => s.takeTrap s.cur.sc s.cur.ctx causeFetch false va va)

end Sys2Proof.Machine
end

