-- ==== Sys2Proof/Machine/Storage.lean ====
section
/-!
DEFINITION. The completion and the timeout of an NVMe Read command (R230, R289).
-/

namespace Sys2Proof.Machine

/-- What a storage job is about, as its commands need it. -/
structure StorageJob where
  port : Nat := 0
  count : Nat := 0
  lb : Nat := 1
  dst : Side := .str 0

/-- The storage read an entry's work is. -/
def Work.storage : Work → Option StorageJob
  | .nvme port _ _ count _ lb dst => some { port := port, count := count, lb := lb, dst := dst }
  | _ => none

/-- The commands of a storage job. -/
def StorageJob.cmds (j : StorageJob) : List (Nat × Nat) := nvmeCmds j.port j.lb j.count j.dst

/-- Is a command of an entry under way? -/
def Entry.awaits (e : Entry) (cmd : Nat) : Bool := e.st == .started && thas e.since cmd && !thas e.parts cmd

/-- The bytes of a command of k bytes: those the controller gave, zero after them. -/
def cmdBytes (k : Nat) (data : List Byte) : List Byte := (data ++ List.replicate (k - data.length) 0).take k

/-- A command has answered with some bytes, which the job then publishes in its stream or writes to its window (R309). -/
def State.landCmd (s : State) (n : Nat) (e : Entry) (j : StorageJob) (cmd : Nat) (bs : List Byte) : State :=
  let b := ((j.cmds[cmd]?).getD (0, 0)).1
  s.modEntry n e.id (fun x => { x with parts := tput x.parts cmd (), mid := tputs x.mid (b * j.lb) bs })

/-- A command has ended with a status field: 0 is success, any other zeroes its bytes and is remembered (R230). -/
def State.endCmd (s : State) (n : Nat) (e : Entry) (j : StorageJob) (cmd status : Nat) (data : List Byte) : State :=
  let c := (j.cmds[cmd]?).getD (0, 0)
  let k := c.2 * j.lb
  if status = 0 then s.landCmd n e j cmd (cmdBytes k data)
  else (s.landCmd n e j cmd (List.replicate k 0)).modEntry n e.id (fun x => { x with fails := x.fails ++ [(c.1, status)] })

/-- An event of a command: `job` is 16 times the entry's number plus its SC. -/
def State.onCmd (s : State) (job cmd : Nat) (f : Nat → Entry → StorageJob → State) : State :=
  let n := job % 16
  match (s.sc n).entry? (job / 16) with
  | none => s
  | some e => match e.work.storage with
    | none => s
    | some j => if e.awaits cmd then f n e j else s

/-- Is a command older than a second (R289)? -/
def State.cmdLate (s : State) (e : Entry) (cmd : Nat) : Bool := decide (tgetD e.since cmd 0 + 10 ^ 9 ≤ s.tb)

/-- NVME_COMPLETION (R230): through a port in RUN (R355), and before the command is aborted (R289). -/
def execNvmeCompletion (job cmd : Nat) (status : Half) (data : List Byte) (s : State) : Result :=
  .next (s.onCmd job cmd (fun n e j =>
    if s.port (2 + j.port) = .run ∧ s.cmdLate e cmd = false then s.endCmd n e j cmd status.toNat data else s))

/-- NVME_TIMEOUT (R289): a second without an answer is a failure with status field 0xFFFF. -/
def execNvmeTimeout (job cmd : Nat) (s : State) : Result :=
  .next (s.onCmd job cmd (fun n e j => if s.cmdLate e cmd then s.endCmd n e j cmd 0xFFFF [] else s))

end Sys2Proof.Machine
end

