-- ==== Sys2Proof/Machine/Writes.lean ====
section
/-!
DEFINITION. The events that write a register (R11, R208, R271, R297, R299, R318, R319, R339, R355, R362, R395).
-/

namespace Sys2Proof.Machine

/-- QCFG_WRITE (R318). -/
def execQcfgWrite (q : Nat) (v : Word) (s : State) : Result := .next (if q < 8192 then s.writeQcfg q v else s)
/-- QTAIL_WRITE (R319). -/
def execQtailWrite (q : Nat) (v : Word) (s : State) : Result := .next (if q < 8192 then s.writeQtail q v else s)
/-- QSTAT_REF_CLEAR (R318). -/
def execQstatRefClear (q : Nat) (v : Word) (s : State) : Result := .next (if q < 8192 then s.writeQstat q v else s)
/-- DREC_VALIDATE (R339). -/
def execDrecValidate (i : Nat) (v : Word) (s : State) : Result := .next (if i < 256 then s.writeDrec0 i v else s)
/-- FID_WRITE (R361, R362). -/
def execFidWrite (v : Word) (s : State) : Result := .next (s.writeFid v)

/-- Is a kernel run of an SC saved (R195)? -/
def Sc.anySaved (t : Sc) : Bool := t.runs.any (fun p => p.2.phase == .saved)

/-- KSP_WRITE (R208): nothing while a run of the SC is saved. -/
def execKspWrite (n : Nat) (v : Word) (s : State) : Result :=
  .next (if n < 16 ∧ (s.sc n).anySaved = false then s.writeKsp n v else s)
/-- PTB_WRITE (R271). -/
def execPtbWrite (n : Nat) (v : Word) (s : State) : Result := .next (if n < 16 then s.writePtb n v else s)
/-- PLIM_WRITE (R395). -/
def execPlimWrite (v : Word) (s : State) : Result := .next (s.writePlim v)
/-- TTHR_WRITE (R395). -/
def execTthrWrite (v : Word) (s : State) : Result := .next (s.writeTthr v)
/-- HLTH_CLEAR (R395). -/
def execHlthClear (v : Word) (s : State) : Result := .next (s.clearHlth v)

/-- Is a register-space offset a dword of a tag store, or of a frame map (R297, R317)? -/
def tagOffset (o : Nat) : Bool := o % 8 == 0 && 0x100000000 ≤ o && o < 0x180000000 && o % 0x10000000 < 0x8000000
def frameOffset (o : Nat) : Bool := o % 8 == 0 && 0x2000000 ≤ o && o < 0x2200000

/-- TAG_STORE_WRITE (R299), at an offset of register space. -/
def execTagStoreWrite (o : Nat) (v : Word) (s : State) : Result :=
  .next (if tagOffset o then s.writeTags ((o - 0x100000000) / 0x10000000) (o % 0x10000000) v else s)
/-- FRAME_MAP_WRITE (R297), at an offset of register space. -/
def execFrameMapWrite (o : Nat) (v : Word) (s : State) : Result :=
  .next (if frameOffset o then s.writeFrames ((o - 0x2000000) / 0x40000) (o % 0x40000) v else s)

/-- PORTCTL_LOCK (R355). -/
def execPortctlLock (p : Nat) (s : State) : Result := .next (s.lockPort p)
/-- PORTCTL_RUN (R355). -/
def execPortctlRun (p : Nat) (s : State) : Result := .next (s.runPort p)
/-- PORTCTL_UNLOCK (R355). -/
def execPortctlUnlock (p : Nat) (s : State) : Result := .next (s.unlockPort p)

/-- REGISTER_WRITE (R11, R317). -/
def execRegisterWrite (o : Nat) (v : Word) (s : State) : Result := .next (s.regWrite o v)

end Sys2Proof.Machine
end

