-- ==== Sys2Proof/Machine/Dispatch.lean ====
section
/-!
DEFINITION. What each instruction and event does: one arm per constructor of Instr.
-/

namespace Sys2Proof.Machine

def exec (i : Instr) (s : State) : Host.Outcome State Fault Refusal :=
  match i with
  | .ctlNop => Sys2Proof.Machine.execCtlNop s
  | .ctlHalt => Sys2Proof.Machine.execCtlHalt s
  | .ctlBr t => Sys2Proof.Machine.execCtlBr t s
  | .ctlBany p t => Sys2Proof.Machine.execCtlBany p t s
  | .ctlBall p t => Sys2Proof.Machine.execCtlBall p t s
  | .ctlBnone p t => Sys2Proof.Machine.execCtlBnone p t s
  | .ctlBnall p t => Sys2Proof.Machine.execCtlBnall p t s
  | .ctlLset c n => Sys2Proof.Machine.execCtlLset c n s
  | .ctlLsetk c k => Sys2Proof.Machine.execCtlLsetk c k s
  | .ctlLsetv c u => Sys2Proof.Machine.execCtlLsetv c u s
  | .ctlLbnz c t => Sys2Proof.Machine.execCtlLbnz c t s
  | .ctlBkz k t => Sys2Proof.Machine.execCtlBkz k t s
  | .ctlBknz k t => Sys2Proof.Machine.execCtlBknz k t s
  | .ctlKret l s1 => Sys2Proof.Machine.execCtlKret l s1 s
  | .ctlKretp p => Sys2Proof.Machine.execCtlKretp p s
  | .ctlIdle n => Sys2Proof.Machine.execCtlIdle n s
  | .hkChkeq h a b => Sys2Proof.Machine.execHkChkeq h a b s
  | .hkChkz h a => Sys2Proof.Machine.execHkChkz h a s
  | .hkChkovf h a => Sys2Proof.Machine.execHkChkovf h a s
  | .hkChkall h a => Sys2Proof.Machine.execHkChkall h a s
  | .iAdd p d a b => Sys2Proof.Machine.execIAdd p d a b s
  | .iSub p d a b => Sys2Proof.Machine.execISub p d a b s
  | .iMul p d a b => Sys2Proof.Machine.execIMul p d a b s
  | .iMulhs p d a b => Sys2Proof.Machine.execIMulhs p d a b s
  | .iMulhz p d a b => Sys2Proof.Machine.execIMulhz p d a b s
  | .iAnd p d a b => Sys2Proof.Machine.execIAnd p d a b s
  | .iOr p d a b => Sys2Proof.Machine.execIOr p d a b s
  | .iXor p d a b => Sys2Proof.Machine.execIXor p d a b s
  | .iAndn p d a b => Sys2Proof.Machine.execIAndn p d a b s
  | .iShl p d a b => Sys2Proof.Machine.execIShl p d a b s
  | .iShrz p d a b => Sys2Proof.Machine.execIShrz p d a b s
  | .iShrs p d a b => Sys2Proof.Machine.execIShrs p d a b s
  | .iRotl p d a b => Sys2Proof.Machine.execIRotl p d a b s
  | .iMins p d a b => Sys2Proof.Machine.execIMins p d a b s
  | .iMaxs p d a b => Sys2Proof.Machine.execIMaxs p d a b s
  | .iMinz p d a b => Sys2Proof.Machine.execIMinz p d a b s
  | .iMaxz p d a b => Sys2Proof.Machine.execIMaxz p d a b s
  | .iAbs p d a => Sys2Proof.Machine.execIAbs p d a s
  | .iAddss p d a b => Sys2Proof.Machine.execIAddss p d a b s
  | .iAddsz p d a b => Sys2Proof.Machine.execIAddsz p d a b s
  | .iSubss p d a b => Sys2Proof.Machine.execISubss p d a b s
  | .iSubsz p d a b => Sys2Proof.Machine.execISubsz p d a b s
  | .iAbsds p d a b => Sys2Proof.Machine.execIAbsds p d a b s
  | .iAbsdz p d a b => Sys2Proof.Machine.execIAbsdz p d a b s
  | .iAvgs p d a b => Sys2Proof.Machine.execIAvgs p d a b s
  | .iAvgz p d a b => Sys2Proof.Machine.execIAvgz p d a b s
  | .iAddx2 p d a b => Sys2Proof.Machine.execIAddx2 p d a b s
  | .iAddx4 p d a b => Sys2Proof.Machine.execIAddx4 p d a b s
  | .iAddx8 p d a b => Sys2Proof.Machine.execIAddx8 p d a b s
  | .iHadd p d a b => Sys2Proof.Machine.execIHadd p d a b s
  | .iHsub p d a b => Sys2Proof.Machine.execIHsub p d a b s
  | .iHaddss p d a b => Sys2Proof.Machine.execIHaddss p d a b s
  | .iHaddsz p d a b => Sys2Proof.Machine.execIHaddsz p d a b s
  | .iHsubss p d a b => Sys2Proof.Machine.execIHsubss p d a b s
  | .iHsubsz p d a b => Sys2Proof.Machine.execIHsubsz p d a b s
  | .iHmul p d a b => Sys2Proof.Machine.execIHmul p d a b s
  | .iHmins p d a b => Sys2Proof.Machine.execIHmins p d a b s
  | .iHmaxs p d a b => Sys2Proof.Machine.execIHmaxs p d a b s
  | .iHminz p d a b => Sys2Proof.Machine.execIHminz p d a b s
  | .iHmaxz p d a b => Sys2Proof.Machine.execIHmaxz p d a b s
  | .iHabsds p d a b => Sys2Proof.Machine.execIHabsds p d a b s
  | .iHabsdz p d a b => Sys2Proof.Machine.execIHabsdz p d a b s
  | .iHavgs p d a b => Sys2Proof.Machine.execIHavgs p d a b s
  | .iHavgz p d a b => Sys2Proof.Machine.execIHavgz p d a b s
  | .iFext p d a b => Sys2Proof.Machine.execIFext p d a b s
  | .iFexts p d a b => Sys2Proof.Machine.execIFexts p d a b s
  | .iCeq p d a b => Sys2Proof.Machine.execICeq p d a b s
  | .iCne p d a b => Sys2Proof.Machine.execICne p d a b s
  | .iClts p d a b => Sys2Proof.Machine.execIClts p d a b s
  | .iCltz p d a b => Sys2Proof.Machine.execICltz p d a b s
  | .iCles p d a b => Sys2Proof.Machine.execICles p d a b s
  | .iClez p d a b => Sys2Proof.Machine.execIClez p d a b s
  | .iPand p d a b => Sys2Proof.Machine.execIPand p d a b s
  | .iPor p d a b => Sys2Proof.Machine.execIPor p d a b s
  | .iPxor p d a b => Sys2Proof.Machine.execIPxor p d a b s
  | .iSel p d a b => Sys2Proof.Machine.execISel p d a b s
  | .iPcnt p d a => Sys2Proof.Machine.execIPcnt p d a s
  | .iClz p d a => Sys2Proof.Machine.execIClz p d a s
  | .iPget p d a => Sys2Proof.Machine.execIPget p d a s
  | .iMov p d a => Sys2Proof.Machine.execIMov p d a s
  | .fFadd p d a b => Sys2Proof.Machine.execFFadd p d a b s
  | .fFsub p d a b => Sys2Proof.Machine.execFFsub p d a b s
  | .fFmul p d a b => Sys2Proof.Machine.execFFmul p d a b s
  | .fFma p d a b => Sys2Proof.Machine.execFFma p d a b s
  | .fFnma p d a b => Sys2Proof.Machine.execFFnma p d a b s
  | .fFmin p d a b => Sys2Proof.Machine.execFFmin p d a b s
  | .fFmax p d a b => Sys2Proof.Machine.execFFmax p d a b s
  | .fFabs p d a => Sys2Proof.Machine.execFFabs p d a s
  | .fFneg p d a => Sys2Proof.Machine.execFFneg p d a s
  | .fFcpsgn p d a b => Sys2Proof.Machine.execFFcpsgn p d a b s
  | .fFceq p d a b => Sys2Proof.Machine.execFFceq p d a b s
  | .fFclt p d a b => Sys2Proof.Machine.execFFclt p d a b s
  | .fFcle p d a b => Sys2Proof.Machine.execFFcle p d a b s
  | .fFcun p d a b => Sys2Proof.Machine.execFFcun p d a b s
  | .fFrcp p d a => Sys2Proof.Machine.execFFrcp p d a s
  | .fFrsq p d a => Sys2Proof.Machine.execFFrsq p d a s
  | .fFexp2 p d a => Sys2Proof.Machine.execFFexp2 p d a s
  | .fFlog2 p d a => Sys2Proof.Machine.execFFlog2 p d a s
  | .fBadd p d a b => Sys2Proof.Machine.execFBadd p d a b s
  | .fBsub p d a b => Sys2Proof.Machine.execFBsub p d a b s
  | .fBmul p d a b => Sys2Proof.Machine.execFBmul p d a b s
  | .fBfma p d a b => Sys2Proof.Machine.execFBfma p d a b s
  | .fBmin p d a b => Sys2Proof.Machine.execFBmin p d a b s
  | .fBmax p d a b => Sys2Proof.Machine.execFBmax p d a b s
  | .fFdot2 p d a b => Sys2Proof.Machine.execFFdot2 p d a b s
  | .fFclamp p d a b => Sys2Proof.Machine.execFFclamp p d a b s
  | .fFsat p d a => Sys2Proof.Machine.execFFsat p d a s
  | .fFrnd p d a => Sys2Proof.Machine.execFFrnd p d a s
  | .fFscl p d a b => Sys2Proof.Machine.execFFscl p d a b s
  | .fCvtsf p d a => Sys2Proof.Machine.execFCvtsf p d a s
  | .fCvtzf p d a => Sys2Proof.Machine.execFCvtzf p d a s
  | .fCvtfs p d a => Sys2Proof.Machine.execFCvtfs p d a s
  | .fCvtfz p d a => Sys2Proof.Machine.execFCvtfz p d a s
  | .fCvtfb p d a b => Sys2Proof.Machine.execFCvtfb p d a b s
  | .fCvtbfl p d a => Sys2Proof.Machine.execFCvtbfl p d a s
  | .fCvtbfh p d a => Sys2Proof.Machine.execFCvtbfh p d a s
  | .fCvtlsf p d a => Sys2Proof.Machine.execFCvtlsf p d a s
  | .fCvthsf p d a => Sys2Proof.Machine.execFCvthsf p d a s
  | .fCvtlzf p d a => Sys2Proof.Machine.execFCvtlzf p d a s
  | .fCvthzf p d a => Sys2Proof.Machine.execFCvthzf p d a s
  | .tmTldw m => Sys2Proof.Machine.execTmTldw m s
  | .tmTldwt m => Sys2Proof.Machine.execTmTldwt m s
  | .tmTmma k m n => Sys2Proof.Machine.execTmTmma k m n s
  | .tmTmmz k m n => Sys2Proof.Machine.execTmTmmz k m n s
  | .tmTmmn k m n => Sys2Proof.Machine.execTmTmmn k m n s
  | .tmTldx m => Sys2Proof.Machine.execTmTldx m s
  | .tmTdrn => Sys2Proof.Machine.execTmTdrn s
  | .tmTwclr => Sys2Proof.Machine.execTmTwclr s
  | .tmTstat p d => Sys2Proof.Machine.execTmTstat p d s
  | .tmTscl k m => Sys2Proof.Machine.execTmTscl k m s
  | .tmTbias k m => Sys2Proof.Machine.execTmTbias k m s
  | .tmTamw k s1 r => Sys2Proof.Machine.execTmTamw k s1 r s
  | .tmTcvt d s1 => Sys2Proof.Machine.execTmTcvt d s1 s
  | .tmTmmh k m n => Sys2Proof.Machine.execTmTmmh k m n s
  | .ptPld4 m => Sys2Proof.Machine.execPtPld4 m s
  | .ptPld8 m => Sys2Proof.Machine.execPtPld8 m s
  | .ptPlds m => Sys2Proof.Machine.execPtPlds m s
  | .ptPpass k m n => Sys2Proof.Machine.execPtPpass k m n s
  | .ptPpassz k m n => Sys2Proof.Machine.execPtPpassz k m n s
  | .ptPpassn k m n => Sys2Proof.Machine.execPtPpassn k m n s
  | .ptPcvt d s1 m => Sys2Proof.Machine.execPtPcvt d s1 m s
  | .ptPclro k => Sys2Proof.Machine.execPtPclro k s
  | .ptPstat p d => Sys2Proof.Machine.execPtPstat p d s
  | .ptPtclr => Sys2Proof.Machine.execPtPtclr s
  | .ptPdrn => Sys2Proof.Machine.execPtPdrn s
  | .ptPscan p d s1 => Sys2Proof.Machine.execPtPscan p d s1 s
  | .sSpop p d a k => Sys2Proof.Machine.execSSpop p d a k s
  | .sSpopc p d a => Sys2Proof.Machine.execSSpopc p d a s
  | .sSpush a s1 => Sys2Proof.Machine.execSSpush a s1 s
  | .sSpushc p a s1 => Sys2Proof.Machine.execSSpushc p a s1 s
  | .sSwaitf a n => Sys2Proof.Machine.execSSwaitf a n s
  | .sSwaite a n => Sys2Proof.Machine.execSSwaite a n s
  | .sSadvr a n => Sys2Proof.Machine.execSSadvr a n s
  | .sSadvw a n => Sys2Proof.Machine.execSSadvw a n s
  | .sTfill m a f => Sys2Proof.Machine.execSTfill m a f s
  | .sTfillx m a => Sys2Proof.Machine.execSTfillx m a s
  | .sScnt a => Sys2Proof.Machine.execSScnt a s
  | .sSflush a => Sys2Proof.Machine.execSSflush a s
  | .sSptrr p d a => Sys2Proof.Machine.execSSptrr p d a s
  | .sSptrw p d a => Sys2Proof.Machine.execSSptrw p d a s
  | .sSavail p d a => Sys2Proof.Machine.execSSavail p d a s
  | .sSspace p d a => Sys2Proof.Machine.execSSspace p d a s
  | .xsXperm p d s1 i1 => Sys2Proof.Machine.execXsXperm p d s1 i1 s
  | .xsXpermc p d s1 i1 => Sys2Proof.Machine.execXsXpermc p d s1 i1 s
  | .xsXbc p d s1 l => Sys2Proof.Machine.execXsXbc p d s1 l s
  | .xsXbcc p d s1 n => Sys2Proof.Machine.execXsXbcc p d s1 n s
  | .xsXrot p d s1 n => Sys2Proof.Machine.execXsXrot p d s1 n s
  | .xsXrotc p d s1 n => Sys2Proof.Machine.execXsXrotc p d s1 n s
  | .xsXcmp p d s1 => Sys2Proof.Machine.execXsXcmp p d s1 s
  | .xsXcmpc p d s1 => Sys2Proof.Machine.execXsXcmpc p d s1 s
  | .xsXexp p d s1 => Sys2Proof.Machine.execXsXexp p d s1 s
  | .xsXcnt p d => Sys2Proof.Machine.execXsXcnt p d s
  | .amAalloc k => Sys2Proof.Machine.execAmAalloc k s
  | .amAallocp k => Sys2Proof.Machine.execAmAallocp k s
  | .amAfree k => Sys2Proof.Machine.execAmAfree k s
  | .amMclaim m => Sys2Proof.Machine.execAmMclaim m s
  | .amMrel m => Sys2Proof.Machine.execAmMrel m s
  | .amArd p d k r => Sys2Proof.Machine.execAmArd p d k r s
  | .amArdh p d k r => Sys2Proof.Machine.execAmArdh p d k r s
  | .amAclr k => Sys2Proof.Machine.execAmAclr k s
  | .resultLanding sc run => Sys2Proof.Machine.execResultLanding sc run s
  | .tileRowEntry sc run => Sys2Proof.Machine.execTileRowEntry sc run s
  | .tileUpdateVisible sc run => Sys2Proof.Machine.execTileUpdateVisible sc run s
  | .partsUpdateVisible sc run => Sys2Proof.Machine.execPartsUpdateVisible sc run s
  | .tldxReadEnd sc run => Sys2Proof.Machine.execTldxReadEnd sc run s
  | .kernelRunStart sc e => Sys2Proof.Machine.execKernelRunStart sc e s
  | .runCompletion sc run => Sys2Proof.Machine.execRunCompletion sc run s
  | .preemption sc run => Sys2Proof.Machine.execPreemption sc run s
  | .runRestore sc run => Sys2Proof.Machine.execRunRestore sc run s
  | .runReclaimStop sc run => Sys2Proof.Machine.execRunReclaimStop sc run s
  | .pthrExpiry sc e => Sys2Proof.Machine.execPthrExpiry sc e s
  | .add d a b => Sys2Proof.Machine.execAdd d a b s
  | .sub d a b => Sys2Proof.Machine.execSub d a b s
  | .mul d a b => Sys2Proof.Machine.execMul d a b s
  | .mulhs d a b => Sys2Proof.Machine.execMulhs d a b s
  | .mulhz d a b => Sys2Proof.Machine.execMulhz d a b s
  | .divs d a b => Sys2Proof.Machine.execDivs d a b s
  | .divz d a b => Sys2Proof.Machine.execDivz d a b s
  | .rems d a b => Sys2Proof.Machine.execRems d a b s
  | .remz d a b => Sys2Proof.Machine.execRemz d a b s
  | .and d a b => Sys2Proof.Machine.execAnd d a b s
  | .or d a b => Sys2Proof.Machine.execOr d a b s
  | .xor d a b => Sys2Proof.Machine.execXor d a b s
  | .andn d a b => Sys2Proof.Machine.execAndn d a b s
  | .shl d a b => Sys2Proof.Machine.execShl d a b s
  | .shrz d a b => Sys2Proof.Machine.execShrz d a b s
  | .shrs d a b => Sys2Proof.Machine.execShrs d a b s
  | .slts d a b => Sys2Proof.Machine.execSlts d a b s
  | .sltz d a b => Sys2Proof.Machine.execSltz d a b s
  | .popc d a => Sys2Proof.Machine.execPopc d a s
  | .addi d a i1 => Sys2Proof.Machine.execAddi d a i1 s
  | .andi d a i1 => Sys2Proof.Machine.execAndi d a i1 s
  | .ori d a i1 => Sys2Proof.Machine.execOri d a i1 s
  | .xori d a i1 => Sys2Proof.Machine.execXori d a i1 s
  | .shli d a i1 => Sys2Proof.Machine.execShli d a i1 s
  | .shrzi d a i1 => Sys2Proof.Machine.execShrzi d a i1 s
  | .shrsi d a i1 => Sys2Proof.Machine.execShrsi d a i1 s
  | .sltsi d a i1 => Sys2Proof.Machine.execSltsi d a i1 s
  | .sltzi d a i1 => Sys2Proof.Machine.execSltzi d a i1 s
  | .ldi d i1 => Sys2Proof.Machine.execLdi d i1 s
  | .lsi d i1 => Sys2Proof.Machine.execLsi d i1 s
  | .beq a b o => Sys2Proof.Machine.execBeq a b o s
  | .bne a b o => Sys2Proof.Machine.execBne a b o s
  | .blts a b o => Sys2Proof.Machine.execBlts a b o s
  | .bges a b o => Sys2Proof.Machine.execBges a b o s
  | .bltz a b o => Sys2Proof.Machine.execBltz a b o s
  | .bgez a b o => Sys2Proof.Machine.execBgez a b o s
  | .j o => Sys2Proof.Machine.execJ o s
  | .jal o => Sys2Proof.Machine.execJal o s
  | .jr a => Sys2Proof.Machine.execJr a s
  | .jalr d a => Sys2Proof.Machine.execJalr d a s
  | .lb d a i1 => Sys2Proof.Machine.execLb d a i1 s
  | .lbz d a i1 => Sys2Proof.Machine.execLbz d a i1 s
  | .lh d a i1 => Sys2Proof.Machine.execLh d a i1 s
  | .lhz d a i1 => Sys2Proof.Machine.execLhz d a i1 s
  | .lw d a i1 => Sys2Proof.Machine.execLw d a i1 s
  | .lwz d a i1 => Sys2Proof.Machine.execLwz d a i1 s
  | .ld d a i1 => Sys2Proof.Machine.execLd d a i1 s
  | .ldx d a b => Sys2Proof.Machine.execLdx d a b s
  | .sb d a i1 => Sys2Proof.Machine.execSb d a i1 s
  | .sh d a i1 => Sys2Proof.Machine.execSh d a i1 s
  | .sw d a i1 => Sys2Proof.Machine.execSw d a i1 s
  | .sd d a i1 => Sys2Proof.Machine.execSd d a i1 s
  | .ldAcq d a i1 => Sys2Proof.Machine.execLdAcq d a i1 s
  | .stRel d a i1 => Sys2Proof.Machine.execStRel d a i1 s
  | .ldm d a n => Sys2Proof.Machine.execLdm d a n s
  | .stm d a n => Sys2Proof.Machine.execStm d a n s
  | .nop => Sys2Proof.Machine.execNop s
  | .mfs d s1 => Sys2Proof.Machine.execMfs d s1 s
  | .mts a s1 => Sys2Proof.Machine.execMts a s1 s
  | .fenceSc => Sys2Proof.Machine.execFenceSc s
  | .fenceDie => Sys2Proof.Machine.execFenceDie s
  | .fencePkg => Sys2Proof.Machine.execFencePkg s
  | .fenceSys => Sys2Proof.Machine.execFenceSys s
  | .trap n => Sys2Proof.Machine.execTrap n s
  | .tret => Sys2Proof.Machine.execTret s
  | .brk n => Sys2Proof.Machine.execBrk n s
  | .pause => Sys2Proof.Machine.execPause s
  | .dcfl a i1 => Sys2Proof.Machine.execDcfl a i1 s
  | .dcinv a i1 => Sys2Proof.Machine.execDcinv a i1 s
  | .dcz a i1 => Sys2Proof.Machine.execDcz a i1 s
  | .idle => Sys2Proof.Machine.execIdle s
  | .csave a c => Sys2Proof.Machine.execCsave a c s
  | .cload a c => Sys2Proof.Machine.execCload a c s
  | .ctxkill c => Sys2Proof.Machine.execCtxkill c s
  | .ctxsig a c => Sys2Proof.Machine.execCtxsig a c s
  | .salloc a h b g => Sys2Proof.Machine.execSalloc a h b g s
  | .sfree h => Sys2Proof.Machine.execSfree h s
  | .sload a h k e => Sys2Proof.Machine.execSload a h k e s
  | .sstore a h k e => Sys2Proof.Machine.execSstore a h k e s
  | .sgather a h k b => Sys2Proof.Machine.execSgather a h k b s
  | .sscatter a h k b => Sys2Proof.Machine.execSscatter a h k b s
  | .sreset h => Sys2Proof.Machine.execSreset h s
  | .sptr a h w => Sys2Proof.Machine.execSptr a h w s
  | .srd a h b => Sys2Proof.Machine.execSrd a h b s
  | .swr a h b => Sys2Proof.Machine.execSwr a h b s
  | .sfill a h b p => Sys2Proof.Machine.execSfill a h b p s
  | .smovh h k => Sys2Proof.Machine.execSmovh h k s
  | .sinfo a h => Sys2Proof.Machine.execSinfo a h s
  | .kload a b => Sys2Proof.Machine.execKload a b s
  | .kfree a => Sys2Proof.Machine.execKfree a s
  | .kinfo a b => Sys2Proof.Machine.execKinfo a b s
  | .krun a b t d => Sys2Proof.Machine.execKrun a b t d s
  | .krq a b t => Sys2Proof.Machine.execKrq a b t s
  | .scount a h => Sys2Proof.Machine.execScount a h s
  | .swait h q c m => Sys2Proof.Machine.execSwait h q c m s
  | .swaita => Sys2Proof.Machine.execSwaita s
  | .stest a h q c m => Sys2Proof.Machine.execStest a h q c m s
  | .sbar m => Sys2Proof.Machine.execSbar m s
  | .rfence => Sys2Proof.Machine.execRfence s
  | .fspawn d a b => Sys2Proof.Machine.execFspawn d a b s
  | .fspawnh d a b s1 => Sys2Proof.Machine.execFspawnh d a b s1 s
  | .fref a => Sys2Proof.Machine.execFref a s
  | .fdrop a => Sys2Proof.Machine.execFdrop a s
  | .fget d a => Sys2Proof.Machine.execFget d a s
  | .fgetd d a => Sys2Proof.Machine.execFgetd d a s
  | .fpoll d a => Sys2Proof.Machine.execFpoll d a s
  | .fret a => Sys2Proof.Machine.execFret a s
  | .fretf a => Sys2Proof.Machine.execFretf a s
  | .fyield => Sys2Proof.Machine.execFyield s
  | .fsig n => Sys2Proof.Machine.execFsig n s
  | .balloc d a b => Sys2Proof.Machine.execBalloc d a b s
  | .bfree a => Sys2Proof.Machine.execBfree a s
  | .barr a => Sys2Proof.Machine.execBarr a s
  | .barrd a => Sys2Proof.Machine.execBarrd a s
  | .bwait a => Sys2Proof.Machine.execBwait a s
  | .bpoll d a => Sys2Proof.Machine.execBpoll d a s
  | .waitge a b => Sys2Proof.Machine.execWaitge a b s
  | .glaunch d a => Sys2Proof.Machine.execGlaunch d a s
  | .gfree a => Sys2Proof.Machine.execGfree a s
  | .scopy a h k b t s1 => Sys2Proof.Machine.execScopy a h k b t s1 s
  | .sacc a h b o l => Sys2Proof.Machine.execSacc a h b o l s
  | .scas a h k b o t l => Sys2Proof.Machine.execScas a h k b o t l s
  | .sscadd a h k b o => Sys2Proof.Machine.execSscadd a h k b o s
  | .squant a b => Sys2Proof.Machine.execSquant a b s
  | .sdqnt a b => Sys2Proof.Machine.execSdqnt a b s
  | .sdecomp a h b m => Sys2Proof.Machine.execSdecomp a h b m s
  | .sread a b => Sys2Proof.Machine.execSread a b s
  | .sreads a h => Sys2Proof.Machine.execSreads a h s
  | .rput a h b o s1 => Sys2Proof.Machine.execRput a h b o s1 s
  | .rputh a h b o c s1 => Sys2Proof.Machine.execRputh a h b o c s1 s
  | .rget a k b t => Sys2Proof.Machine.execRget a k b t s
  | .racc a h b o t l => Sys2Proof.Machine.execRacc a h b o t l s
  | .rsig a b c q => Sys2Proof.Machine.execRsig a b c q s
  | .tlbinv a => Sys2Proof.Machine.execTlbinv a s
  | .tlbinva => Sys2Proof.Machine.execTlbinva s
  | .xlat d a => Sys2Proof.Machine.execXlat d a s
  | .rngset a r w => Sys2Proof.Machine.execRngset a r w s
  | .rngget d r l w => Sys2Proof.Machine.execRngget d r l w s
  | .rngcommit => Sys2Proof.Machine.execRngcommit s
  | .psplit a => Sys2Proof.Machine.execPsplit a s
  | .pown a b => Sys2Proof.Machine.execPown a b s
  | .pdup a b => Sys2Proof.Machine.execPdup a b s
  | .pstat d a => Sys2Proof.Machine.execPstat d a s
  | .asyncTrap sc c => Sys2Proof.Machine.execAsyncTrap sc c s
  | .trapHandover sc => Sys2Proof.Machine.execTrapHandover sc s
  | .pauseExpiry sc c => Sys2Proof.Machine.execPauseExpiry sc c s
  | .contextWake sc c => Sys2Proof.Machine.execContextWake sc c s
  | .messageContextStart sc => Sys2Proof.Machine.execMessageContextStart sc s
  | .entryStart sc e => Sys2Proof.Machine.execEntryStart sc e s
  | .streamAgentTransfer sc e => Sys2Proof.Machine.execStreamAgentTransfer sc e s
  | .entryRetire sc e => Sys2Proof.Machine.execEntryRetire sc e s
  | .entryComplete sc e => Sys2Proof.Machine.execEntryComplete sc e s
  | .kernelStoreRelease sc k => Sys2Proof.Machine.execKernelStoreRelease sc k s
  | .streamDeferredFree sc d => Sys2Proof.Machine.execStreamDeferredFree sc d s
  | .taskDispatch => Sys2Proof.Machine.execTaskDispatch s
  | .reclamationPoint f => Sys2Proof.Machine.execReclamationPoint f s
  | .taskEnd sc c => Sys2Proof.Machine.execTaskEnd sc c s
  | .fsigDelivery sc c => Sys2Proof.Machine.execFsigDelivery sc c s
  | .graphNodeDispatch g n => Sys2Proof.Machine.execGraphNodeDispatch g n s
  | .launchRead q => Sys2Proof.Machine.execLaunchRead q s
  | .budgetExpiry sc c => Sys2Proof.Machine.execBudgetExpiry sc c s
  | .qcfgWrite q v => Sys2Proof.Machine.execQcfgWrite q v s
  | .qtailWrite q v => Sys2Proof.Machine.execQtailWrite q v s
  | .qstatRefClear q v => Sys2Proof.Machine.execQstatRefClear q v s
  | .drecValidate i1 v => Sys2Proof.Machine.execDrecValidate i1 v s
  | .fidWrite v => Sys2Proof.Machine.execFidWrite v s
  | .kspWrite sc v => Sys2Proof.Machine.execKspWrite sc v s
  | .ptbWrite sc v => Sys2Proof.Machine.execPtbWrite sc v s
  | .plimWrite v => Sys2Proof.Machine.execPlimWrite v s
  | .tthrWrite v => Sys2Proof.Machine.execTthrWrite v s
  | .hlthClear v => Sys2Proof.Machine.execHlthClear v s
  | .tagStoreWrite off v => Sys2Proof.Machine.execTagStoreWrite off v s
  | .frameMapWrite off v => Sys2Proof.Machine.execFrameMapWrite off v s
  | .portctlLock port => Sys2Proof.Machine.execPortctlLock port s
  | .portctlRun port => Sys2Proof.Machine.execPortctlRun port s
  | .portctlUnlock port => Sys2Proof.Machine.execPortctlUnlock port s
  | .registerWrite off v => Sys2Proof.Machine.execRegisterWrite off v s
  | .baseDieRead id => Sys2Proof.Machine.execBaseDieRead id s
  | .baseDieWrite id => Sys2Proof.Machine.execBaseDieWrite id s
  | .baseDieMaskedWrite id => Sys2Proof.Machine.execBaseDieMaskedWrite id s
  | .baseDieAccumulate id => Sys2Proof.Machine.execBaseDieAccumulate id s
  | .baseDieReply id => Sys2Proof.Machine.execBaseDieReply id s
  | .pageWalk sc va => Sys2Proof.Machine.execPageWalk sc va s
  | .nvmeCompletion job cmd status data => Sys2Proof.Machine.execNvmeCompletion job cmd status data s
  | .nvmeTimeout job cmd => Sys2Proof.Machine.execNvmeTimeout job cmd s
  | .hostWrite r => Sys2Proof.Machine.execHostWrite r s
  | .hostRead r => Sys2Proof.Machine.execHostRead r s
  | .hostAtomic r => Sys2Proof.Machine.execHostAtomic r s
  | .cxlCacheRequest line excl => Sys2Proof.Machine.execCxlCacheRequest line excl s
  | .bisnpResponse line dirty => Sys2Proof.Machine.execBisnpResponse line dirty s
  | .hostLinkTimeout => Sys2Proof.Machine.execHostLinkTimeout s
  | .dieLoss die core => Sys2Proof.Machine.execDieLoss die core s
  | .stackLoss stack => Sys2Proof.Machine.execStackLoss stack s
  | .bridgeLinkFailure link => Sys2Proof.Machine.execBridgeLinkFailure link s
  | .hubLoss hub => Sys2Proof.Machine.execHubLoss hub s
  | .laneFailure lane => Sys2Proof.Machine.execLaneFailure lane s
  | .slotStart => Sys2Proof.Machine.execSlotStart s
  | .framePosition lane rx => Sys2Proof.Machine.execFramePosition lane rx s
  | .payloadWindowEnd => Sys2Proof.Machine.execPayloadWindowEnd s
  | .filler lane hop => Sys2Proof.Machine.execFiller lane hop s
  | .put f => Sys2Proof.Machine.execPut f s
  | .puth f => Sys2Proof.Machine.execPuth f s
  | .getreq f => Sys2Proof.Machine.execGetreq f s
  | .getdata f => Sys2Proof.Machine.execGetdata f s
  | .acc f => Sys2Proof.Machine.execAcc f s
  | .sig f => Sys2Proof.Machine.execSig f s
  | .ack f => Sys2Proof.Machine.execAck f s
  | .descriptorFrame f => Sys2Proof.Machine.execDescriptorFrame f s
  | .relayFrame lane f => Sys2Proof.Machine.execRelayFrame lane f s
  | .e2eTimeout dst op => Sys2Proof.Machine.execE2eTimeout dst op s
  | .livenessTimeout pkg => Sys2Proof.Machine.execLivenessTimeout pkg s
  | .getCertificate slot => Sys2Proof.Machine.execGetCertificate slot s
  | .challenge nonce => Sys2Proof.Machine.execChallenge nonce s
  | .getMeasurements index => Sys2Proof.Machine.execGetMeasurements index s
  | .keyUpdate peer => Sys2Proof.Machine.execKeyUpdate peer s
  | .moduleReset b => Sys2Proof.Machine.execModuleReset b s
  | .thermalTrip => Sys2Proof.Machine.execThermalTrip s
  | .powerSample p => Sys2Proof.Machine.execPowerSample p s
  | .illegalInstruction w => Sys2Proof.Machine.execIllegalInstruction w s
  | .fetchFault va => Sys2Proof.Machine.execFetchFault va s
  | .copyEngineTransfer sc e => Sys2Proof.Machine.execCopyEngineTransfer sc e s
  | .dceBlockWrite sc e => Sys2Proof.Machine.execDceBlockWrite sc e s
  | .portLinkFailure port => Sys2Proof.Machine.execPortLinkFailure port s
  | .configurationRequest port reg => Sys2Proof.Machine.execConfigurationRequest port reg s
  | .spdmSession peer => Sys2Proof.Machine.execSpdmSession peer s

end Sys2Proof.Machine
end

