-- ==== Sys2Proof/Machine/Step.lean ====
section
/-!
DEFINITION. One step of the module: the next turn of the agenda, the agent it names, and what follows it at once.
-/

namespace Sys2Proof.Machine

/-- What an agent does in its turn. -/
noncomputable def act : Agent → State → Result
  | .context n, s => s.issueContext exec n
  | .run n k, s => (s.markRipe n).runCycle exec n k
  | .event i, s => if isEvent i then exec i s else .next s
  | .evictLine n k, s => .next (s.evict n k)
  | .peerSplit a, s => .next (s.peerAct a (fun _ => .split))
  | .peerOwn a o, s => .next (s.peerAct a (fun b => .own b o))
  | .peerDup a copy, s => .next (s.peerAct a (fun b => .dup b copy))
  | .peerBlock a leaf data, s => .next (s.peerBlock a leaf data)
  | .peerTurn a, s => .next (s.peerTurn a)
  | .peerDone a p, s => .next (s.peerDone a p)

/-- One step: time passes, one agent acts where it may, and what its turn causes without a further event happens (log 1). -/
noncomputable def step (s : State) : Host.Outcome State Fault Refusal :=
  let p := s.takeTurn
  let u := (p.2.advance p.1.ns p.1.cyc).expireBlocked
  if u.mayAct p.1.who then
    match act p.1.who u with
    | .next t => .next (u.afterTurn t)
    | .fault f => .fault f
    | .refused r => .refused r
  else .next u

/-- The state with an instruction placed where the next step fetches and runs it: a control-core word at the pc of
context 18 of SC 0, a kernel operation in its slot of the one bundle of a run of SC 0 (log 14). -/
noncomputable def State.withFetchWord (s : State) (nbits w : Nat) : State :=
  s.placeTableWord (BitVec.ofNat 32 (w % 2 ^ nbits))

end Sys2Proof.Machine
end

