-- ==== Sys2Proof/Laws/PerInstr.lean ====
section
/-!
SUPPORT. The encoder and the decoder agree, one lemma per constructor: the word of a well-formed instruction decodes to it, as a
control-core word or in every slot whose map holds the operation.
-/

namespace Sys2Proof.Laws

/-- The slots whose maps hold an operation (R43, R49-R52); none for anything but a kernel operation. -/
def RoundTrip.slots : Instr → List Slot
  | .ctlNop => [.ctl, .i, .f, .tm, .pt, .s, .xs, .am, .hk]
    | .ctlHalt | .ctlBr _ | .ctlBany _ _ | .ctlBall _ _ | .ctlBnone _ _ | .ctlBnall _ _ | .ctlLset _ _ | .ctlLsetk _ _
    | .ctlLsetv _ _ | .ctlLbnz _ _ | .ctlBkz _ _ | .ctlBknz _ _ | .ctlKret _ _ | .ctlKretp _ | .ctlIdle _ => [.ctl]
    | .iAdd _ _ _ _ | .iSub _ _ _ _ | .iMul _ _ _ _ | .iMulhs _ _ _ _ | .iMulhz _ _ _ _ | .iAnd _ _ _ _ | .iOr _ _ _ _
    | .iXor _ _ _ _ | .iAndn _ _ _ _ | .iShl _ _ _ _ | .iShrz _ _ _ _ | .iShrs _ _ _ _ | .iRotl _ _ _ _ | .iMins _ _ _
    _ | .iMaxs _ _ _ _ | .iMinz _ _ _ _ | .iMaxz _ _ _ _ | .iAbs _ _ _ | .iAddss _ _ _ _ | .iAddsz _ _ _ _ | .iSubss _
    _ _ _ | .iSubsz _ _ _ _ | .iAbsds _ _ _ _ | .iAbsdz _ _ _ _ | .iAvgs _ _ _ _ | .iAvgz _ _ _ _ | .iAddx2 _ _ _ _ |
    .iAddx4 _ _ _ _ | .iAddx8 _ _ _ _ | .iHadd _ _ _ _ | .iHsub _ _ _ _ | .iHaddss _ _ _ _ | .iHaddsz _ _ _ _ |
    .iHsubss _ _ _ _ | .iHsubsz _ _ _ _ | .iHmul _ _ _ _ | .iHmins _ _ _ _ | .iHmaxs _ _ _ _ | .iHminz _ _ _ _ |
    .iHmaxz _ _ _ _ | .iHabsds _ _ _ _ | .iHabsdz _ _ _ _ | .iHavgs _ _ _ _ | .iHavgz _ _ _ _ | .iFext _ _ _ _ |
    .iFexts _ _ _ _ | .iCeq _ _ _ _ | .iCne _ _ _ _ | .iClts _ _ _ _ | .iCltz _ _ _ _ | .iCles _ _ _ _ | .iClez _ _ _
    _ | .iPand _ _ _ _ | .iPor _ _ _ _ | .iPxor _ _ _ _ | .iSel _ _ _ _ | .iPcnt _ _ _ | .iClz _ _ _ | .iPget _ _ _ |
    .iMov _ _ _ => [.i]
    | .fFadd _ _ _ _ | .fFsub _ _ _ _ | .fFmul _ _ _ _ | .fFma _ _ _ _ | .fFnma _ _ _ _ | .fFmin _ _ _ _ | .fFmax _ _
    _ _ | .fFabs _ _ _ | .fFneg _ _ _ | .fFcpsgn _ _ _ _ | .fFceq _ _ _ _ | .fFclt _ _ _ _ | .fFcle _ _ _ _ | .fFcun _
    _ _ _ | .fFrcp _ _ _ | .fFrsq _ _ _ | .fFexp2 _ _ _ | .fFlog2 _ _ _ | .fBadd _ _ _ _ | .fBsub _ _ _ _ | .fBmul _ _
    _ _ | .fBfma _ _ _ _ | .fBmin _ _ _ _ | .fBmax _ _ _ _ | .fFdot2 _ _ _ _ | .fFclamp _ _ _ _ | .fFsat _ _ _ |
    .fFrnd _ _ _ | .fFscl _ _ _ _ | .fCvtsf _ _ _ | .fCvtzf _ _ _ | .fCvtfs _ _ _ | .fCvtfz _ _ _ | .fCvtfb _ _ _ _ |
    .fCvtbfl _ _ _ | .fCvtbfh _ _ _ | .fCvtlsf _ _ _ | .fCvthsf _ _ _ | .fCvtlzf _ _ _ | .fCvthzf _ _ _ => [.f]
    | .tmTldw _ | .tmTldwt _ | .tmTmma _ _ _ | .tmTmmz _ _ _ | .tmTmmn _ _ _ | .tmTldx _ | .tmTdrn | .tmTwclr |
    .tmTstat _ _ | .tmTscl _ _ | .tmTbias _ _ | .tmTamw _ _ _ | .tmTcvt _ _ | .tmTmmh _ _ _ => [.tm]
    | .ptPld4 _ | .ptPld8 _ | .ptPlds _ | .ptPpass _ _ _ | .ptPpassz _ _ _ | .ptPpassn _ _ _ | .ptPcvt _ _ _ |
    .ptPclro _ | .ptPstat _ _ | .ptPtclr | .ptPdrn | .ptPscan _ _ _ => [.pt]
    | .sSpop _ _ _ _ | .sSpopc _ _ _ | .sSpush _ _ | .sSpushc _ _ _ | .sSwaitf _ _ | .sSwaite _ _ | .sSadvr _ _ |
    .sSadvw _ _ | .sTfill _ _ _ | .sTfillx _ _ | .sScnt _ | .sSflush _ | .sSptrr _ _ _ | .sSptrw _ _ _ | .sSavail _ _
    _ | .sSspace _ _ _ => [.s]
    | .xsXperm _ _ _ _ | .xsXpermc _ _ _ _ | .xsXbc _ _ _ _ | .xsXbcc _ _ _ _ | .xsXrot _ _ _ _ | .xsXrotc _ _ _ _ |
    .xsXcmp _ _ _ | .xsXcmpc _ _ _ | .xsXexp _ _ _ | .xsXcnt _ _ => [.xs]
    | .amAalloc _ | .amAallocp _ | .amAfree _ | .amMclaim _ | .amMrel _ | .amArd _ _ _ _ | .amArdh _ _ _ _ | .amAclr _
    => [.am]
    | .hkChkeq _ _ _ | .hkChkz _ _ | .hkChkovf _ _ | .hkChkall _ _ => [.hk]
  | _ => []

/-- The word of a well-formed instruction decodes to it, with every operand: a control-core word as one, a kernel operation in
its slots.  An event has no word, and the word of an illegal one is any that R55 makes so. -/
def RoundTrip.Statement (i : Instr) : Prop :=
  wellFormed i = true → ∀ w, encode i = some w →
    (RoundTrip.slots i = [] → (∀ x, i ≠ .illegalInstruction x) → decodeWord w = .ok i)
      ∧ ∀ sl ∈ RoundTrip.slots i, decodeOk sl w = some i

/-! ## Cutting fields from a word -/

/-- A field cut from a word: `hi` stands above it and `lo` below. -/
theorem field {n m k lo hi x : Nat} (hn : n = lo + 2 ^ k * (x + 2 ^ m * hi)) (hl : lo < 2 ^ k) (hw : n < 2 ^ 32) :
    (BitVec.ofNat 32 n).extractLsb' k m = BitVec.ofNat m x := by
  apply BitVec.eq_of_toNat_eq
  simp only [BitVec.extractLsb'_toNat, BitVec.toNat_ofNat, Nat.shiftRight_eq_div_pow]
  rw [Nat.mod_eq_of_lt hw, hn, Nat.add_mul_div_left _ _ (Nat.two_pow_pos k), Nat.div_eq_of_lt hl, Nat.zero_add,
    Nat.add_mul_mod_self_left]

/-! ## The layouts of words: what is cut from a word put together from its fields -/

theorem cut1 (K : Nat) (hK : K < 64) (x0 : BitVec 12) : ∃ w : W32, w = BitVec.ofNat 32 (K * 67108864 + x0.toNat)
    ∧ (w.extractLsb' 26 6).toNat = K
    ∧ w.extractLsb' 0 12 = x0
    ∧ w.extractLsb' 12 14 = 0 := by
  have := x0.isLt
  exact ⟨_, rfl, by rw [field (x := K) (lo := x0.toNat) (hi := 0) (by omega) (by omega) (by omega), BitVec.toNat_ofNat, Nat.mod_eq_of_lt (by omega)],
    (field (x := x0.toNat) (lo := 0) (hi := K * 16384) (by omega) (by omega) (by omega)).trans (BitVec.ofNat_toNat _ _ |>.trans (BitVec.setWidth_eq _)),
    field (x := 0) (lo := x0.toNat) (hi := K) (by omega) (by omega) (by omega)⟩

theorem cut2 (K : Nat) (hK : K < 64) (x0 : BitVec 2) (x1 : BitVec 12) : ∃ w : W32, w = BitVec.ofNat 32 (K * 67108864 + x0.toNat * 16777216 + x1.toNat)
    ∧ (w.extractLsb' 26 6).toNat = K
    ∧ w.extractLsb' 24 2 = x0
    ∧ w.extractLsb' 0 12 = x1
    ∧ w.extractLsb' 12 12 = 0 := by
  have := x0.isLt
  have := x1.isLt
  exact ⟨_, rfl, by rw [field (x := K) (lo := x0.toNat * 16777216 + x1.toNat) (hi := 0) (by omega) (by omega) (by omega), BitVec.toNat_ofNat, Nat.mod_eq_of_lt (by omega)],
    (field (x := x0.toNat) (lo := x1.toNat) (hi := K) (by omega) (by omega) (by omega)).trans (BitVec.ofNat_toNat _ _ |>.trans (BitVec.setWidth_eq _)),
    (field (x := x1.toNat) (lo := 0) (hi := K * 16384 + x0.toNat * 4096) (by omega) (by omega) (by omega)).trans (BitVec.ofNat_toNat _ _ |>.trans (BitVec.setWidth_eq _)),
    field (x := 0) (lo := x1.toNat) (hi := K * 4 + x0.toNat) (by omega) (by omega) (by omega)⟩

theorem cut3 (K : Nat) (hK : K < 64) (x0 : BitVec 2) (x1 : BitVec 20) : ∃ w : W32, w = BitVec.ofNat 32 (K * 67108864 + x0.toNat * 16777216 + x1.toNat)
    ∧ (w.extractLsb' 26 6).toNat = K
    ∧ w.extractLsb' 24 2 = x0
    ∧ w.extractLsb' 0 20 = x1
    ∧ w.extractLsb' 20 4 = 0 := by
  have := x0.isLt
  have := x1.isLt
  exact ⟨_, rfl, by rw [field (x := K) (lo := x0.toNat * 16777216 + x1.toNat) (hi := 0) (by omega) (by omega) (by omega), BitVec.toNat_ofNat, Nat.mod_eq_of_lt (by omega)],
    (field (x := x0.toNat) (lo := x1.toNat) (hi := K) (by omega) (by omega) (by omega)).trans (BitVec.ofNat_toNat _ _ |>.trans (BitVec.setWidth_eq _)),
    (field (x := x1.toNat) (lo := 0) (hi := K * 64 + x0.toNat * 16) (by omega) (by omega) (by omega)).trans (BitVec.ofNat_toNat _ _ |>.trans (BitVec.setWidth_eq _)),
    field (x := 0) (lo := x1.toNat) (hi := K * 4 + x0.toNat) (by omega) (by omega) (by omega)⟩

theorem cut4 (K : Nat) (hK : K < 64) (x0 : BitVec 2) (x1 : BitVec 3) : ∃ w : W32, w = BitVec.ofNat 32 (K * 67108864 + x0.toNat * 16777216 + x1.toNat)
    ∧ (w.extractLsb' 26 6).toNat = K
    ∧ w.extractLsb' 24 2 = x0
    ∧ w.extractLsb' 0 3 = x1
    ∧ w.extractLsb' 3 21 = 0 := by
  have := x0.isLt
  have := x1.isLt
  exact ⟨_, rfl, by rw [field (x := K) (lo := x0.toNat * 16777216 + x1.toNat) (hi := 0) (by omega) (by omega) (by omega), BitVec.toNat_ofNat, Nat.mod_eq_of_lt (by omega)],
    (field (x := x0.toNat) (lo := x1.toNat) (hi := K) (by omega) (by omega) (by omega)).trans (BitVec.ofNat_toNat _ _ |>.trans (BitVec.setWidth_eq _)),
    (field (x := x1.toNat) (lo := 0) (hi := K * 8388608 + x0.toNat * 2097152) (by omega) (by omega) (by omega)).trans (BitVec.ofNat_toNat _ _ |>.trans (BitVec.setWidth_eq _)),
    field (x := 0) (lo := x1.toNat) (hi := K * 4 + x0.toNat) (by omega) (by omega) (by omega)⟩

theorem cut5 (K : Nat) (hK : K < 64) (x0 : BitVec 2) (x1 : BitVec 8) : ∃ w : W32, w = BitVec.ofNat 32 (K * 67108864 + x0.toNat * 16777216 + x1.toNat)
    ∧ (w.extractLsb' 26 6).toNat = K
    ∧ w.extractLsb' 24 2 = x0
    ∧ w.extractLsb' 0 8 = x1
    ∧ w.extractLsb' 8 16 = 0 := by
  have := x0.isLt
  have := x1.isLt
  exact ⟨_, rfl, by rw [field (x := K) (lo := x0.toNat * 16777216 + x1.toNat) (hi := 0) (by omega) (by omega) (by omega), BitVec.toNat_ofNat, Nat.mod_eq_of_lt (by omega)],
    (field (x := x0.toNat) (lo := x1.toNat) (hi := K) (by omega) (by omega) (by omega)).trans (BitVec.ofNat_toNat _ _ |>.trans (BitVec.setWidth_eq _)),
    (field (x := x1.toNat) (lo := 0) (hi := K * 262144 + x0.toNat * 65536) (by omega) (by omega) (by omega)).trans (BitVec.ofNat_toNat _ _ |>.trans (BitVec.setWidth_eq _)),
    field (x := 0) (lo := x1.toNat) (hi := K * 4 + x0.toNat) (by omega) (by omega) (by omega)⟩

theorem cut6 (K : Nat) (hK : K < 64) (x0 : BitVec 3) (x1 : BitVec 12) : ∃ w : W32, w = BitVec.ofNat 32 (K * 67108864 + x0.toNat * 4096 + x1.toNat)
    ∧ (w.extractLsb' 26 6).toNat = K
    ∧ w.extractLsb' 12 3 = x0
    ∧ w.extractLsb' 0 12 = x1
    ∧ w.extractLsb' 15 11 = 0 := by
  have := x0.isLt
  have := x1.isLt
  exact ⟨_, rfl, by rw [field (x := K) (lo := x0.toNat * 4096 + x1.toNat) (hi := 0) (by omega) (by omega) (by omega), BitVec.toNat_ofNat, Nat.mod_eq_of_lt (by omega)],
    (field (x := x0.toNat) (lo := x1.toNat) (hi := K * 2048) (by omega) (by omega) (by omega)).trans (BitVec.ofNat_toNat _ _ |>.trans (BitVec.setWidth_eq _)),
    (field (x := x1.toNat) (lo := 0) (hi := K * 16384 + x0.toNat) (by omega) (by omega) (by omega)).trans (BitVec.ofNat_toNat _ _ |>.trans (BitVec.setWidth_eq _)),
    field (x := 0) (lo := x0.toNat * 4096 + x1.toNat) (hi := K) (by omega) (by omega) (by omega)⟩

theorem cut7 (K : Nat) (hK : K < 64) (x0 : BitVec 4) (x1 : BitVec 8) : ∃ w : W32, w = BitVec.ofNat 32 (K * 67108864 + x0.toNat * 256 + x1.toNat)
    ∧ (w.extractLsb' 26 6).toNat = K
    ∧ w.extractLsb' 8 4 = x0
    ∧ w.extractLsb' 0 8 = x1
    ∧ w.extractLsb' 12 14 = 0 := by
  have := x0.isLt
  have := x1.isLt
  exact ⟨_, rfl, by rw [field (x := K) (lo := x0.toNat * 256 + x1.toNat) (hi := 0) (by omega) (by omega) (by omega), BitVec.toNat_ofNat, Nat.mod_eq_of_lt (by omega)],
    (field (x := x0.toNat) (lo := x1.toNat) (hi := K * 16384) (by omega) (by omega) (by omega)).trans (BitVec.ofNat_toNat _ _ |>.trans (BitVec.setWidth_eq _)),
    (field (x := x1.toNat) (lo := 0) (hi := K * 262144 + x0.toNat) (by omega) (by omega) (by omega)).trans (BitVec.ofNat_toNat _ _ |>.trans (BitVec.setWidth_eq _)),
    field (x := 0) (lo := x0.toNat * 256 + x1.toNat) (hi := K) (by omega) (by omega) (by omega)⟩

theorem cut8 (K : Nat) (hK : K < 64) (x0 : BitVec 2) : ∃ w : W32, w = BitVec.ofNat 32 (K * 67108864 + x0.toNat * 16777216)
    ∧ (w.extractLsb' 26 6).toNat = K
    ∧ w.extractLsb' 24 2 = x0
    ∧ w.extractLsb' 0 24 = 0 := by
  have := x0.isLt
  exact ⟨_, rfl, by rw [field (x := K) (lo := x0.toNat * 16777216) (hi := 0) (by omega) (by omega) (by omega), BitVec.toNat_ofNat, Nat.mod_eq_of_lt (by omega)],
    (field (x := x0.toNat) (lo := 0) (hi := K) (by omega) (by omega) (by omega)).trans (BitVec.ofNat_toNat _ _ |>.trans (BitVec.setWidth_eq _)),
    field (x := 0) (lo := 0) (hi := K * 4 + x0.toNat) (by omega) (by omega) (by omega)⟩

theorem cut9 (K : Nat) (hK : K < 16) (x0 : BitVec 12) (x1 : BitVec 8) (x2 : BitVec 8) : ∃ w : W32, w = BitVec.ofNat 32 (K * 65536 + x0.toNat * 1048576 + x1.toNat * 256 + x2.toNat)
    ∧ (w.extractLsb' 16 4).toNat = K
    ∧ w.extractLsb' 20 12 = x0
    ∧ w.extractLsb' 8 8 = x1
    ∧ w.extractLsb' 0 8 = x2 := by
  have := x0.isLt
  have := x1.isLt
  have := x2.isLt
  exact ⟨_, rfl, by rw [field (x := K) (lo := x1.toNat * 256 + x2.toNat) (hi := x0.toNat) (by omega) (by omega) (by omega), BitVec.toNat_ofNat, Nat.mod_eq_of_lt (by omega)],
    (field (x := x0.toNat) (lo := K * 65536 + x1.toNat * 256 + x2.toNat) (hi := 0) (by omega) (by omega) (by omega)).trans (BitVec.ofNat_toNat _ _ |>.trans (BitVec.setWidth_eq _)),
    (field (x := x1.toNat) (lo := x2.toNat) (hi := K + x0.toNat * 16) (by omega) (by omega) (by omega)).trans (BitVec.ofNat_toNat _ _ |>.trans (BitVec.setWidth_eq _)),
    (field (x := x2.toNat) (lo := 0) (hi := K * 256 + x0.toNat * 4096 + x1.toNat) (by omega) (by omega) (by omega)).trans (BitVec.ofNat_toNat _ _ |>.trans (BitVec.setWidth_eq _))⟩

theorem cut10 (K : Nat) (hK : K < 16) (x0 : BitVec 12) (x1 : BitVec 8) : ∃ w : W32, w = BitVec.ofNat 32 (K * 65536 + x0.toNat * 1048576 + x1.toNat * 256)
    ∧ (w.extractLsb' 16 4).toNat = K
    ∧ w.extractLsb' 20 12 = x0
    ∧ w.extractLsb' 8 8 = x1
    ∧ w.extractLsb' 0 8 = 0 := by
  have := x0.isLt
  have := x1.isLt
  exact ⟨_, rfl, by rw [field (x := K) (lo := x1.toNat * 256) (hi := x0.toNat) (by omega) (by omega) (by omega), BitVec.toNat_ofNat, Nat.mod_eq_of_lt (by omega)],
    (field (x := x0.toNat) (lo := K * 65536 + x1.toNat * 256) (hi := 0) (by omega) (by omega) (by omega)).trans (BitVec.ofNat_toNat _ _ |>.trans (BitVec.setWidth_eq _)),
    (field (x := x1.toNat) (lo := 0) (hi := K + x0.toNat * 16) (by omega) (by omega) (by omega)).trans (BitVec.ofNat_toNat _ _ |>.trans (BitVec.setWidth_eq _)),
    field (x := 0) (lo := 0) (hi := K * 256 + x0.toNat * 4096 + x1.toNat) (by omega) (by omega) (by omega)⟩

theorem cut11 (K : Nat) (hK : K < 64) (x0 : BitVec 2) (x1 : BitVec 8) (x2 : BitVec 8) (x3 : BitVec 8) : ∃ w : W32, w = BitVec.ofNat 32 (K * 67108864 + x0.toNat * 16777216 + x1.toNat * 65536 + x2.toNat * 256 + x3.toNat)
    ∧ (w.extractLsb' 26 6).toNat = K
    ∧ w.extractLsb' 24 2 = x0
    ∧ w.extractLsb' 16 8 = x1
    ∧ w.extractLsb' 8 8 = x2
    ∧ w.extractLsb' 0 8 = x3 := by
  have := x0.isLt
  have := x1.isLt
  have := x2.isLt
  have := x3.isLt
  exact ⟨_, rfl, by rw [field (x := K) (lo := x0.toNat * 16777216 + x1.toNat * 65536 + x2.toNat * 256 + x3.toNat) (hi := 0) (by omega) (by omega) (by omega), BitVec.toNat_ofNat, Nat.mod_eq_of_lt (by omega)],
    (field (x := x0.toNat) (lo := x1.toNat * 65536 + x2.toNat * 256 + x3.toNat) (hi := K) (by omega) (by omega) (by omega)).trans (BitVec.ofNat_toNat _ _ |>.trans (BitVec.setWidth_eq _)),
    (field (x := x1.toNat) (lo := x2.toNat * 256 + x3.toNat) (hi := K * 4 + x0.toNat) (by omega) (by omega) (by omega)).trans (BitVec.ofNat_toNat _ _ |>.trans (BitVec.setWidth_eq _)),
    (field (x := x2.toNat) (lo := x3.toNat) (hi := K * 1024 + x0.toNat * 256 + x1.toNat) (by omega) (by omega) (by omega)).trans (BitVec.ofNat_toNat _ _ |>.trans (BitVec.setWidth_eq _)),
    (field (x := x3.toNat) (lo := 0) (hi := K * 262144 + x0.toNat * 65536 + x1.toNat * 256 + x2.toNat) (by omega) (by omega) (by omega)).trans (BitVec.ofNat_toNat _ _ |>.trans (BitVec.setWidth_eq _))⟩

theorem cut12 (K : Nat) (hK : K < 64) (x0 : BitVec 2) (x1 : BitVec 8) (x2 : BitVec 8) : ∃ w : W32, w = BitVec.ofNat 32 (K * 67108864 + x0.toNat * 16777216 + x1.toNat * 65536 + x2.toNat * 256)
    ∧ (w.extractLsb' 26 6).toNat = K
    ∧ w.extractLsb' 24 2 = x0
    ∧ w.extractLsb' 16 8 = x1
    ∧ w.extractLsb' 8 8 = x2
    ∧ w.extractLsb' 0 8 = 0 := by
  have := x0.isLt
  have := x1.isLt
  have := x2.isLt
  exact ⟨_, rfl, by rw [field (x := K) (lo := x0.toNat * 16777216 + x1.toNat * 65536 + x2.toNat * 256) (hi := 0) (by omega) (by omega) (by omega), BitVec.toNat_ofNat, Nat.mod_eq_of_lt (by omega)],
    (field (x := x0.toNat) (lo := x1.toNat * 65536 + x2.toNat * 256) (hi := K) (by omega) (by omega) (by omega)).trans (BitVec.ofNat_toNat _ _ |>.trans (BitVec.setWidth_eq _)),
    (field (x := x1.toNat) (lo := x2.toNat * 256) (hi := K * 4 + x0.toNat) (by omega) (by omega) (by omega)).trans (BitVec.ofNat_toNat _ _ |>.trans (BitVec.setWidth_eq _)),
    (field (x := x2.toNat) (lo := 0) (hi := K * 1024 + x0.toNat * 256 + x1.toNat) (by omega) (by omega) (by omega)).trans (BitVec.ofNat_toNat _ _ |>.trans (BitVec.setWidth_eq _)),
    field (x := 0) (lo := 0) (hi := K * 262144 + x0.toNat * 65536 + x1.toNat * 256 + x2.toNat) (by omega) (by omega) (by omega)⟩

theorem cut13 (K : Nat) (hK : K < 64) (x0 : BitVec 8) : ∃ w : W32, w = BitVec.ofNat 32 (K * 67108864 + x0.toNat * 65536)
    ∧ (w.extractLsb' 26 6).toNat = K
    ∧ w.extractLsb' 16 8 = x0
    ∧ w.extractLsb' 24 2 = 0
    ∧ w.extractLsb' 0 16 = 0 := by
  have := x0.isLt
  exact ⟨_, rfl, by rw [field (x := K) (lo := x0.toNat * 65536) (hi := 0) (by omega) (by omega) (by omega), BitVec.toNat_ofNat, Nat.mod_eq_of_lt (by omega)],
    (field (x := x0.toNat) (lo := 0) (hi := K * 4) (by omega) (by omega) (by omega)).trans (BitVec.ofNat_toNat _ _ |>.trans (BitVec.setWidth_eq _)),
    field (x := 0) (lo := x0.toNat * 65536) (hi := K) (by omega) (by omega) (by omega),
    field (x := 0) (lo := 0) (hi := K * 1024 + x0.toNat) (by omega) (by omega) (by omega)⟩

theorem cut14 (K : Nat) (hK : K < 64) (x0 : BitVec 8) (x1 : BitVec 8) (x2 : BitVec 8) : ∃ w : W32, w = BitVec.ofNat 32 (K * 67108864 + x0.toNat * 65536 + x1.toNat * 256 + x2.toNat)
    ∧ (w.extractLsb' 26 6).toNat = K
    ∧ w.extractLsb' 16 8 = x0
    ∧ w.extractLsb' 8 8 = x1
    ∧ w.extractLsb' 0 8 = x2
    ∧ w.extractLsb' 24 2 = 0 := by
  have := x0.isLt
  have := x1.isLt
  have := x2.isLt
  exact ⟨_, rfl, by rw [field (x := K) (lo := x0.toNat * 65536 + x1.toNat * 256 + x2.toNat) (hi := 0) (by omega) (by omega) (by omega), BitVec.toNat_ofNat, Nat.mod_eq_of_lt (by omega)],
    (field (x := x0.toNat) (lo := x1.toNat * 256 + x2.toNat) (hi := K * 4) (by omega) (by omega) (by omega)).trans (BitVec.ofNat_toNat _ _ |>.trans (BitVec.setWidth_eq _)),
    (field (x := x1.toNat) (lo := x2.toNat) (hi := K * 1024 + x0.toNat) (by omega) (by omega) (by omega)).trans (BitVec.ofNat_toNat _ _ |>.trans (BitVec.setWidth_eq _)),
    (field (x := x2.toNat) (lo := 0) (hi := K * 262144 + x0.toNat * 256 + x1.toNat) (by omega) (by omega) (by omega)).trans (BitVec.ofNat_toNat _ _ |>.trans (BitVec.setWidth_eq _)),
    field (x := 0) (lo := x0.toNat * 65536 + x1.toNat * 256 + x2.toNat) (hi := K) (by omega) (by omega) (by omega)⟩

theorem cut15 (K : Nat) (hK : K < 64) (x0 : BitVec 2) (x1 : BitVec 8) : ∃ w : W32, w = BitVec.ofNat 32 (K * 67108864 + x0.toNat * 16777216 + x1.toNat * 65536)
    ∧ (w.extractLsb' 26 6).toNat = K
    ∧ w.extractLsb' 24 2 = x0
    ∧ w.extractLsb' 16 8 = x1
    ∧ w.extractLsb' 0 16 = 0 := by
  have := x0.isLt
  have := x1.isLt
  exact ⟨_, rfl, by rw [field (x := K) (lo := x0.toNat * 16777216 + x1.toNat * 65536) (hi := 0) (by omega) (by omega) (by omega), BitVec.toNat_ofNat, Nat.mod_eq_of_lt (by omega)],
    (field (x := x0.toNat) (lo := x1.toNat * 65536) (hi := K) (by omega) (by omega) (by omega)).trans (BitVec.ofNat_toNat _ _ |>.trans (BitVec.setWidth_eq _)),
    (field (x := x1.toNat) (lo := 0) (hi := K * 4 + x0.toNat) (by omega) (by omega) (by omega)).trans (BitVec.ofNat_toNat _ _ |>.trans (BitVec.setWidth_eq _)),
    field (x := 0) (lo := 0) (hi := K * 1024 + x0.toNat * 256 + x1.toNat) (by omega) (by omega) (by omega)⟩

theorem cut16 (K : Nat) (hK : K < 64) (x0 : BitVec 8) (x1 : BitVec 8) : ∃ w : W32, w = BitVec.ofNat 32 (K * 67108864 + x0.toNat * 65536 + x1.toNat * 256)
    ∧ (w.extractLsb' 26 6).toNat = K
    ∧ w.extractLsb' 16 8 = x0
    ∧ w.extractLsb' 8 8 = x1
    ∧ w.extractLsb' 24 2 = 0
    ∧ w.extractLsb' 0 8 = 0 := by
  have := x0.isLt
  have := x1.isLt
  exact ⟨_, rfl, by rw [field (x := K) (lo := x0.toNat * 65536 + x1.toNat * 256) (hi := 0) (by omega) (by omega) (by omega), BitVec.toNat_ofNat, Nat.mod_eq_of_lt (by omega)],
    (field (x := x0.toNat) (lo := x1.toNat * 256) (hi := K * 4) (by omega) (by omega) (by omega)).trans (BitVec.ofNat_toNat _ _ |>.trans (BitVec.setWidth_eq _)),
    (field (x := x1.toNat) (lo := 0) (hi := K * 1024 + x0.toNat) (by omega) (by omega) (by omega)).trans (BitVec.ofNat_toNat _ _ |>.trans (BitVec.setWidth_eq _)),
    field (x := 0) (lo := x0.toNat * 65536 + x1.toNat * 256) (hi := K) (by omega) (by omega) (by omega),
    field (x := 0) (lo := 0) (hi := K * 262144 + x0.toNat * 256 + x1.toNat) (by omega) (by omega) (by omega)⟩

theorem cut17 (K : Nat) (hK : K < 64) (x0 : BitVec 8) (x1 : BitVec 8) : ∃ w : W32, w = BitVec.ofNat 32 (K * 67108864 + x0.toNat * 256 + x1.toNat)
    ∧ (w.extractLsb' 26 6).toNat = K
    ∧ w.extractLsb' 8 8 = x0
    ∧ w.extractLsb' 0 8 = x1
    ∧ w.extractLsb' 16 10 = 0 := by
  have := x0.isLt
  have := x1.isLt
  exact ⟨_, rfl, by rw [field (x := K) (lo := x0.toNat * 256 + x1.toNat) (hi := 0) (by omega) (by omega) (by omega), BitVec.toNat_ofNat, Nat.mod_eq_of_lt (by omega)],
    (field (x := x0.toNat) (lo := x1.toNat) (hi := K * 1024) (by omega) (by omega) (by omega)).trans (BitVec.ofNat_toNat _ _ |>.trans (BitVec.setWidth_eq _)),
    (field (x := x1.toNat) (lo := 0) (hi := K * 262144 + x0.toNat) (by omega) (by omega) (by omega)).trans (BitVec.ofNat_toNat _ _ |>.trans (BitVec.setWidth_eq _)),
    field (x := 0) (lo := x0.toNat * 256 + x1.toNat) (hi := K) (by omega) (by omega) (by omega)⟩

theorem cut18 (K : Nat) (hK : K < 64) (x0 : BitVec 2) (x1 : BitVec 8) (x2 : BitVec 8) : ∃ w : W32, w = BitVec.ofNat 32 (K * 67108864 + x0.toNat * 16777216 + x1.toNat * 256 + x2.toNat)
    ∧ (w.extractLsb' 26 6).toNat = K
    ∧ w.extractLsb' 24 2 = x0
    ∧ w.extractLsb' 8 8 = x1
    ∧ w.extractLsb' 0 8 = x2
    ∧ w.extractLsb' 16 8 = 0 := by
  have := x0.isLt
  have := x1.isLt
  have := x2.isLt
  exact ⟨_, rfl, by rw [field (x := K) (lo := x0.toNat * 16777216 + x1.toNat * 256 + x2.toNat) (hi := 0) (by omega) (by omega) (by omega), BitVec.toNat_ofNat, Nat.mod_eq_of_lt (by omega)],
    (field (x := x0.toNat) (lo := x1.toNat * 256 + x2.toNat) (hi := K) (by omega) (by omega) (by omega)).trans (BitVec.ofNat_toNat _ _ |>.trans (BitVec.setWidth_eq _)),
    (field (x := x1.toNat) (lo := x2.toNat) (hi := K * 1024 + x0.toNat * 256) (by omega) (by omega) (by omega)).trans (BitVec.ofNat_toNat _ _ |>.trans (BitVec.setWidth_eq _)),
    (field (x := x2.toNat) (lo := 0) (hi := K * 262144 + x0.toNat * 65536 + x1.toNat) (by omega) (by omega) (by omega)).trans (BitVec.ofNat_toNat _ _ |>.trans (BitVec.setWidth_eq _)),
    field (x := 0) (lo := x1.toNat * 256 + x2.toNat) (hi := K * 4 + x0.toNat) (by omega) (by omega) (by omega)⟩

theorem cut19 (K : Nat) (hK : K < 64) (x0 : BitVec 8) : ∃ w : W32, w = BitVec.ofNat 32 (K * 67108864 + x0.toNat * 256)
    ∧ (w.extractLsb' 26 6).toNat = K
    ∧ w.extractLsb' 8 8 = x0
    ∧ w.extractLsb' 16 10 = 0
    ∧ w.extractLsb' 0 8 = 0 := by
  have := x0.isLt
  exact ⟨_, rfl, by rw [field (x := K) (lo := x0.toNat * 256) (hi := 0) (by omega) (by omega) (by omega), BitVec.toNat_ofNat, Nat.mod_eq_of_lt (by omega)],
    (field (x := x0.toNat) (lo := 0) (hi := K * 1024) (by omega) (by omega) (by omega)).trans (BitVec.ofNat_toNat _ _ |>.trans (BitVec.setWidth_eq _)),
    field (x := 0) (lo := x0.toNat * 256) (hi := K) (by omega) (by omega) (by omega),
    field (x := 0) (lo := 0) (hi := K * 262144 + x0.toNat) (by omega) (by omega) (by omega)⟩

theorem cut20 (K : Nat) (hK : K < 256) (x0 : BitVec 5) (x1 : BitVec 5) (x2 : BitVec 5) : ∃ w : W32, w = BitVec.ofNat 32 (K * 16777216 + x0.toNat * 524288 + x1.toNat * 16384 + x2.toNat * 512)
    ∧ (w.extractLsb' 24 8).toNat = K
    ∧ w.extractLsb' 19 5 = x0
    ∧ w.extractLsb' 14 5 = x1
    ∧ w.extractLsb' 9 5 = x2
    ∧ w.extractLsb' 0 9 = 0 := by
  have := x0.isLt
  have := x1.isLt
  have := x2.isLt
  exact ⟨_, rfl, by rw [field (x := K) (lo := x0.toNat * 524288 + x1.toNat * 16384 + x2.toNat * 512) (hi := 0) (by omega) (by omega) (by omega), BitVec.toNat_ofNat, Nat.mod_eq_of_lt (by omega)],
    (field (x := x0.toNat) (lo := x1.toNat * 16384 + x2.toNat * 512) (hi := K) (by omega) (by omega) (by omega)).trans (BitVec.ofNat_toNat _ _ |>.trans (BitVec.setWidth_eq _)),
    (field (x := x1.toNat) (lo := x2.toNat * 512) (hi := K * 32 + x0.toNat) (by omega) (by omega) (by omega)).trans (BitVec.ofNat_toNat _ _ |>.trans (BitVec.setWidth_eq _)),
    (field (x := x2.toNat) (lo := 0) (hi := K * 1024 + x0.toNat * 32 + x1.toNat) (by omega) (by omega) (by omega)).trans (BitVec.ofNat_toNat _ _ |>.trans (BitVec.setWidth_eq _)),
    field (x := 0) (lo := 0) (hi := K * 32768 + x0.toNat * 1024 + x1.toNat * 32 + x2.toNat) (by omega) (by omega) (by omega)⟩

theorem cut21 (K : Nat) (hK : K < 256) (x0 : BitVec 5) (x1 : BitVec 5) : ∃ w : W32, w = BitVec.ofNat 32 (K * 16777216 + x0.toNat * 524288 + x1.toNat * 16384)
    ∧ (w.extractLsb' 24 8).toNat = K
    ∧ w.extractLsb' 19 5 = x0
    ∧ w.extractLsb' 14 5 = x1
    ∧ w.extractLsb' 0 14 = 0 := by
  have := x0.isLt
  have := x1.isLt
  exact ⟨_, rfl, by rw [field (x := K) (lo := x0.toNat * 524288 + x1.toNat * 16384) (hi := 0) (by omega) (by omega) (by omega), BitVec.toNat_ofNat, Nat.mod_eq_of_lt (by omega)],
    (field (x := x0.toNat) (lo := x1.toNat * 16384) (hi := K) (by omega) (by omega) (by omega)).trans (BitVec.ofNat_toNat _ _ |>.trans (BitVec.setWidth_eq _)),
    (field (x := x1.toNat) (lo := 0) (hi := K * 32 + x0.toNat) (by omega) (by omega) (by omega)).trans (BitVec.ofNat_toNat _ _ |>.trans (BitVec.setWidth_eq _)),
    field (x := 0) (lo := 0) (hi := K * 1024 + x0.toNat * 32 + x1.toNat) (by omega) (by omega) (by omega)⟩

theorem cut22 (K : Nat) (hK : K < 256) (x0 : BitVec 5) (x1 : BitVec 5) (x2 : BitVec 14) : ∃ w : W32, w = BitVec.ofNat 32 (K * 16777216 + x0.toNat * 524288 + x1.toNat * 16384 + x2.toNat)
    ∧ (w.extractLsb' 24 8).toNat = K
    ∧ w.extractLsb' 19 5 = x0
    ∧ w.extractLsb' 14 5 = x1
    ∧ w.extractLsb' 0 14 = x2 := by
  have := x0.isLt
  have := x1.isLt
  have := x2.isLt
  exact ⟨_, rfl, by rw [field (x := K) (lo := x0.toNat * 524288 + x1.toNat * 16384 + x2.toNat) (hi := 0) (by omega) (by omega) (by omega), BitVec.toNat_ofNat, Nat.mod_eq_of_lt (by omega)],
    (field (x := x0.toNat) (lo := x1.toNat * 16384 + x2.toNat) (hi := K) (by omega) (by omega) (by omega)).trans (BitVec.ofNat_toNat _ _ |>.trans (BitVec.setWidth_eq _)),
    (field (x := x1.toNat) (lo := x2.toNat) (hi := K * 32 + x0.toNat) (by omega) (by omega) (by omega)).trans (BitVec.ofNat_toNat _ _ |>.trans (BitVec.setWidth_eq _)),
    (field (x := x2.toNat) (lo := 0) (hi := K * 1024 + x0.toNat * 32 + x1.toNat) (by omega) (by omega) (by omega)).trans (BitVec.ofNat_toNat _ _ |>.trans (BitVec.setWidth_eq _))⟩

theorem cut23 (K : Nat) (hK : K < 256) (x0 : BitVec 5) (x1 : BitVec 19) : ∃ w : W32, w = BitVec.ofNat 32 (K * 16777216 + x0.toNat * 524288 + x1.toNat)
    ∧ (w.extractLsb' 24 8).toNat = K
    ∧ w.extractLsb' 19 5 = x0
    ∧ w.extractLsb' 0 19 = x1 := by
  have := x0.isLt
  have := x1.isLt
  exact ⟨_, rfl, by rw [field (x := K) (lo := x0.toNat * 524288 + x1.toNat) (hi := 0) (by omega) (by omega) (by omega), BitVec.toNat_ofNat, Nat.mod_eq_of_lt (by omega)],
    (field (x := x0.toNat) (lo := x1.toNat) (hi := K) (by omega) (by omega) (by omega)).trans (BitVec.ofNat_toNat _ _ |>.trans (BitVec.setWidth_eq _)),
    (field (x := x1.toNat) (lo := 0) (hi := K * 32 + x0.toNat) (by omega) (by omega) (by omega)).trans (BitVec.ofNat_toNat _ _ |>.trans (BitVec.setWidth_eq _))⟩

theorem cut24 (K : Nat) (hK : K < 256) (x0 : BitVec 24) : ∃ w : W32, w = BitVec.ofNat 32 (K * 16777216 + x0.toNat)
    ∧ (w.extractLsb' 24 8).toNat = K
    ∧ w.extractLsb' 0 24 = x0 := by
  have := x0.isLt
  exact ⟨_, rfl, by rw [field (x := K) (lo := x0.toNat) (hi := 0) (by omega) (by omega) (by omega), BitVec.toNat_ofNat, Nat.mod_eq_of_lt (by omega)],
    (field (x := x0.toNat) (lo := 0) (hi := K) (by omega) (by omega) (by omega)).trans (BitVec.ofNat_toNat _ _ |>.trans (BitVec.setWidth_eq _))⟩

theorem cut25 (K : Nat) (hK : K < 256) (x0 : BitVec 5) : ∃ w : W32, w = BitVec.ofNat 32 (K * 16777216 + x0.toNat * 16384)
    ∧ (w.extractLsb' 24 8).toNat = K
    ∧ w.extractLsb' 14 5 = x0
    ∧ w.extractLsb' 19 5 = 0
    ∧ w.extractLsb' 0 14 = 0 := by
  have := x0.isLt
  exact ⟨_, rfl, by rw [field (x := K) (lo := x0.toNat * 16384) (hi := 0) (by omega) (by omega) (by omega), BitVec.toNat_ofNat, Nat.mod_eq_of_lt (by omega)],
    (field (x := x0.toNat) (lo := 0) (hi := K * 32) (by omega) (by omega) (by omega)).trans (BitVec.ofNat_toNat _ _ |>.trans (BitVec.setWidth_eq _)),
    field (x := 0) (lo := x0.toNat * 16384) (hi := K) (by omega) (by omega) (by omega),
    field (x := 0) (lo := 0) (hi := K * 1024 + x0.toNat) (by omega) (by omega) (by omega)⟩

theorem cut26 (K : Nat) (hK : K < 256) (x0 : BitVec 5) (x1 : BitVec 5) (x2 : BitVec 3) : ∃ w : W32, w = BitVec.ofNat 32 (K * 16777216 + x0.toNat * 524288 + x1.toNat * 16384 + x2.toNat)
    ∧ (w.extractLsb' 24 8).toNat = K
    ∧ w.extractLsb' 19 5 = x0
    ∧ w.extractLsb' 14 5 = x1
    ∧ w.extractLsb' 0 3 = x2
    ∧ w.extractLsb' 3 11 = 0 := by
  have := x0.isLt
  have := x1.isLt
  have := x2.isLt
  exact ⟨_, rfl, by rw [field (x := K) (lo := x0.toNat * 524288 + x1.toNat * 16384 + x2.toNat) (hi := 0) (by omega) (by omega) (by omega), BitVec.toNat_ofNat, Nat.mod_eq_of_lt (by omega)],
    (field (x := x0.toNat) (lo := x1.toNat * 16384 + x2.toNat) (hi := K) (by omega) (by omega) (by omega)).trans (BitVec.ofNat_toNat _ _ |>.trans (BitVec.setWidth_eq _)),
    (field (x := x1.toNat) (lo := x2.toNat) (hi := K * 32 + x0.toNat) (by omega) (by omega) (by omega)).trans (BitVec.ofNat_toNat _ _ |>.trans (BitVec.setWidth_eq _)),
    (field (x := x2.toNat) (lo := 0) (hi := K * 2097152 + x0.toNat * 65536 + x1.toNat * 2048) (by omega) (by omega) (by omega)).trans (BitVec.ofNat_toNat _ _ |>.trans (BitVec.setWidth_eq _)),
    field (x := 0) (lo := x2.toNat) (hi := K * 1024 + x0.toNat * 32 + x1.toNat) (by omega) (by omega) (by omega)⟩

theorem cut27 (K : Nat) (hK : K < 256) (x0 : BitVec 5) (x1 : BitVec 14) : ∃ w : W32, w = BitVec.ofNat 32 (K * 16777216 + x0.toNat * 524288 + x1.toNat)
    ∧ (w.extractLsb' 24 8).toNat = K
    ∧ w.extractLsb' 19 5 = x0
    ∧ w.extractLsb' 0 14 = x1
    ∧ w.extractLsb' 14 5 = 0 := by
  have := x0.isLt
  have := x1.isLt
  exact ⟨_, rfl, by rw [field (x := K) (lo := x0.toNat * 524288 + x1.toNat) (hi := 0) (by omega) (by omega) (by omega), BitVec.toNat_ofNat, Nat.mod_eq_of_lt (by omega)],
    (field (x := x0.toNat) (lo := x1.toNat) (hi := K) (by omega) (by omega) (by omega)).trans (BitVec.ofNat_toNat _ _ |>.trans (BitVec.setWidth_eq _)),
    (field (x := x1.toNat) (lo := 0) (hi := K * 1024 + x0.toNat * 32) (by omega) (by omega) (by omega)).trans (BitVec.ofNat_toNat _ _ |>.trans (BitVec.setWidth_eq _)),
    field (x := 0) (lo := x1.toNat) (hi := K * 32 + x0.toNat) (by omega) (by omega) (by omega)⟩

theorem cut28 (K : Nat) (hK : K < 256) (x0 : BitVec 5) (x1 : BitVec 14) : ∃ w : W32, w = BitVec.ofNat 32 (K * 16777216 + x0.toNat * 16384 + x1.toNat)
    ∧ (w.extractLsb' 24 8).toNat = K
    ∧ w.extractLsb' 14 5 = x0
    ∧ w.extractLsb' 0 14 = x1
    ∧ w.extractLsb' 19 5 = 0 := by
  have := x0.isLt
  have := x1.isLt
  exact ⟨_, rfl, by rw [field (x := K) (lo := x0.toNat * 16384 + x1.toNat) (hi := 0) (by omega) (by omega) (by omega), BitVec.toNat_ofNat, Nat.mod_eq_of_lt (by omega)],
    (field (x := x0.toNat) (lo := x1.toNat) (hi := K * 32) (by omega) (by omega) (by omega)).trans (BitVec.ofNat_toNat _ _ |>.trans (BitVec.setWidth_eq _)),
    (field (x := x1.toNat) (lo := 0) (hi := K * 1024 + x0.toNat) (by omega) (by omega) (by omega)).trans (BitVec.ofNat_toNat _ _ |>.trans (BitVec.setWidth_eq _)),
    field (x := 0) (lo := x0.toNat * 16384 + x1.toNat) (hi := K) (by omega) (by omega) (by omega)⟩

theorem cut29 (K : Nat) (hK : K < 256) (x0 : BitVec 14) : ∃ w : W32, w = BitVec.ofNat 32 (K * 16777216 + x0.toNat)
    ∧ (w.extractLsb' 24 8).toNat = K
    ∧ w.extractLsb' 0 14 = x0
    ∧ w.extractLsb' 14 10 = 0 := by
  have := x0.isLt
  exact ⟨_, rfl, by rw [field (x := K) (lo := x0.toNat) (hi := 0) (by omega) (by omega) (by omega), BitVec.toNat_ofNat, Nat.mod_eq_of_lt (by omega)],
    (field (x := x0.toNat) (lo := 0) (hi := K * 1024) (by omega) (by omega) (by omega)).trans (BitVec.ofNat_toNat _ _ |>.trans (BitVec.setWidth_eq _)),
    field (x := 0) (lo := x0.toNat) (hi := K) (by omega) (by omega) (by omega)⟩

theorem cut30 (K : Nat) (hK : K < 256) (x0 : BitVec 5) (x1 : BitVec 5) : ∃ w : W32, w = BitVec.ofNat 32 (K * 16777216 + x0.toNat * 16384 + x1.toNat)
    ∧ (w.extractLsb' 24 8).toNat = K
    ∧ w.extractLsb' 14 5 = x0
    ∧ w.extractLsb' 0 5 = x1
    ∧ w.extractLsb' 19 5 = 0
    ∧ w.extractLsb' 5 9 = 0 := by
  have := x0.isLt
  have := x1.isLt
  exact ⟨_, rfl, by rw [field (x := K) (lo := x0.toNat * 16384 + x1.toNat) (hi := 0) (by omega) (by omega) (by omega), BitVec.toNat_ofNat, Nat.mod_eq_of_lt (by omega)],
    (field (x := x0.toNat) (lo := x1.toNat) (hi := K * 32) (by omega) (by omega) (by omega)).trans (BitVec.ofNat_toNat _ _ |>.trans (BitVec.setWidth_eq _)),
    (field (x := x1.toNat) (lo := 0) (hi := K * 524288 + x0.toNat * 512) (by omega) (by omega) (by omega)).trans (BitVec.ofNat_toNat _ _ |>.trans (BitVec.setWidth_eq _)),
    field (x := 0) (lo := x0.toNat * 16384 + x1.toNat) (hi := K) (by omega) (by omega) (by omega),
    field (x := 0) (lo := x1.toNat) (hi := K * 1024 + x0.toNat) (by omega) (by omega) (by omega)⟩

theorem cut31 (K : Nat) (hK : K < 256) (x0 : BitVec 5) : ∃ w : W32, w = BitVec.ofNat 32 (K * 16777216 + x0.toNat)
    ∧ (w.extractLsb' 24 8).toNat = K
    ∧ w.extractLsb' 0 5 = x0
    ∧ w.extractLsb' 5 19 = 0 := by
  have := x0.isLt
  exact ⟨_, rfl, by rw [field (x := K) (lo := x0.toNat) (hi := 0) (by omega) (by omega) (by omega), BitVec.toNat_ofNat, Nat.mod_eq_of_lt (by omega)],
    (field (x := x0.toNat) (lo := 0) (hi := K * 524288) (by omega) (by omega) (by omega)).trans (BitVec.ofNat_toNat _ _ |>.trans (BitVec.setWidth_eq _)),
    field (x := 0) (lo := x0.toNat) (hi := K) (by omega) (by omega) (by omega)⟩

theorem cut32 (K : Nat) (hK : K < 256) (x0 : BitVec 5) (x1 : BitVec 4) (x2 : BitVec 5) (x3 : BitVec 2) : ∃ w : W32, w = BitVec.ofNat 32 (K * 16777216 + x0.toNat * 524288 + x1.toNat * 32768 + x2.toNat * 64 + x3.toNat)
    ∧ (w.extractLsb' 24 8).toNat = K
    ∧ w.extractLsb' 19 5 = x0
    ∧ w.extractLsb' 15 4 = x1
    ∧ w.extractLsb' 6 5 = x2
    ∧ w.extractLsb' 0 2 = x3
    ∧ w.extractLsb' 11 4 = 0
    ∧ w.extractLsb' 2 4 = 0 := by
  have := x0.isLt
  have := x1.isLt
  have := x2.isLt
  have := x3.isLt
  exact ⟨_, rfl, by rw [field (x := K) (lo := x0.toNat * 524288 + x1.toNat * 32768 + x2.toNat * 64 + x3.toNat) (hi := 0) (by omega) (by omega) (by omega), BitVec.toNat_ofNat, Nat.mod_eq_of_lt (by omega)],
    (field (x := x0.toNat) (lo := x1.toNat * 32768 + x2.toNat * 64 + x3.toNat) (hi := K) (by omega) (by omega) (by omega)).trans (BitVec.ofNat_toNat _ _ |>.trans (BitVec.setWidth_eq _)),
    (field (x := x1.toNat) (lo := x2.toNat * 64 + x3.toNat) (hi := K * 32 + x0.toNat) (by omega) (by omega) (by omega)).trans (BitVec.ofNat_toNat _ _ |>.trans (BitVec.setWidth_eq _)),
    (field (x := x2.toNat) (lo := x3.toNat) (hi := K * 8192 + x0.toNat * 256 + x1.toNat * 16) (by omega) (by omega) (by omega)).trans (BitVec.ofNat_toNat _ _ |>.trans (BitVec.setWidth_eq _)),
    (field (x := x3.toNat) (lo := 0) (hi := K * 4194304 + x0.toNat * 131072 + x1.toNat * 8192 + x2.toNat * 16) (by omega) (by omega) (by omega)).trans (BitVec.ofNat_toNat _ _ |>.trans (BitVec.setWidth_eq _)),
    field (x := 0) (lo := x2.toNat * 64 + x3.toNat) (hi := K * 512 + x0.toNat * 16 + x1.toNat) (by omega) (by omega) (by omega),
    field (x := 0) (lo := x3.toNat) (hi := K * 262144 + x0.toNat * 8192 + x1.toNat * 512 + x2.toNat) (by omega) (by omega) (by omega)⟩

theorem cut33 (K : Nat) (hK : K < 256) (x0 : BitVec 4) : ∃ w : W32, w = BitVec.ofNat 32 (K * 16777216 + x0.toNat * 32768)
    ∧ (w.extractLsb' 24 8).toNat = K
    ∧ w.extractLsb' 15 4 = x0
    ∧ w.extractLsb' 19 5 = 0
    ∧ w.extractLsb' 0 15 = 0 := by
  have := x0.isLt
  exact ⟨_, rfl, by rw [field (x := K) (lo := x0.toNat * 32768) (hi := 0) (by omega) (by omega) (by omega), BitVec.toNat_ofNat, Nat.mod_eq_of_lt (by omega)],
    (field (x := x0.toNat) (lo := 0) (hi := K * 32) (by omega) (by omega) (by omega)).trans (BitVec.ofNat_toNat _ _ |>.trans (BitVec.setWidth_eq _)),
    field (x := 0) (lo := x0.toNat * 32768) (hi := K) (by omega) (by omega) (by omega),
    field (x := 0) (lo := 0) (hi := K * 512 + x0.toNat) (by omega) (by omega) (by omega)⟩

theorem cut34 (K : Nat) (hK : K < 256) (x0 : BitVec 5) (x1 : BitVec 4) (x2 : BitVec 4) (x3 : BitVec 1) : ∃ w : W32, w = BitVec.ofNat 32 (K * 16777216 + x0.toNat * 524288 + x1.toNat * 32768 + x2.toNat * 2048 + x3.toNat)
    ∧ (w.extractLsb' 24 8).toNat = K
    ∧ w.extractLsb' 19 5 = x0
    ∧ w.extractLsb' 15 4 = x1
    ∧ w.extractLsb' 11 4 = x2
    ∧ w.extractLsb' 0 1 = x3
    ∧ w.extractLsb' 1 10 = 0 := by
  have := x0.isLt
  have := x1.isLt
  have := x2.isLt
  have := x3.isLt
  exact ⟨_, rfl, by rw [field (x := K) (lo := x0.toNat * 524288 + x1.toNat * 32768 + x2.toNat * 2048 + x3.toNat) (hi := 0) (by omega) (by omega) (by omega), BitVec.toNat_ofNat, Nat.mod_eq_of_lt (by omega)],
    (field (x := x0.toNat) (lo := x1.toNat * 32768 + x2.toNat * 2048 + x3.toNat) (hi := K) (by omega) (by omega) (by omega)).trans (BitVec.ofNat_toNat _ _ |>.trans (BitVec.setWidth_eq _)),
    (field (x := x1.toNat) (lo := x2.toNat * 2048 + x3.toNat) (hi := K * 32 + x0.toNat) (by omega) (by omega) (by omega)).trans (BitVec.ofNat_toNat _ _ |>.trans (BitVec.setWidth_eq _)),
    (field (x := x2.toNat) (lo := x3.toNat) (hi := K * 512 + x0.toNat * 16 + x1.toNat) (by omega) (by omega) (by omega)).trans (BitVec.ofNat_toNat _ _ |>.trans (BitVec.setWidth_eq _)),
    (field (x := x3.toNat) (lo := 0) (hi := K * 8388608 + x0.toNat * 262144 + x1.toNat * 16384 + x2.toNat * 1024) (by omega) (by omega) (by omega)).trans (BitVec.ofNat_toNat _ _ |>.trans (BitVec.setWidth_eq _)),
    field (x := 0) (lo := x3.toNat) (hi := K * 8192 + x0.toNat * 256 + x1.toNat * 16 + x2.toNat) (by omega) (by omega) (by omega)⟩

theorem cut35 (K : Nat) (hK : K < 256) (x0 : BitVec 5) (x1 : BitVec 4) (x2 : BitVec 4) (x3 : BitVec 5) : ∃ w : W32, w = BitVec.ofNat 32 (K * 16777216 + x0.toNat * 524288 + x1.toNat * 32768 + x2.toNat * 2048 + x3.toNat * 64)
    ∧ (w.extractLsb' 24 8).toNat = K
    ∧ w.extractLsb' 19 5 = x0
    ∧ w.extractLsb' 15 4 = x1
    ∧ w.extractLsb' 11 4 = x2
    ∧ w.extractLsb' 6 5 = x3
    ∧ w.extractLsb' 0 6 = 0 := by
  have := x0.isLt
  have := x1.isLt
  have := x2.isLt
  have := x3.isLt
  exact ⟨_, rfl, by rw [field (x := K) (lo := x0.toNat * 524288 + x1.toNat * 32768 + x2.toNat * 2048 + x3.toNat * 64) (hi := 0) (by omega) (by omega) (by omega), BitVec.toNat_ofNat, Nat.mod_eq_of_lt (by omega)],
    (field (x := x0.toNat) (lo := x1.toNat * 32768 + x2.toNat * 2048 + x3.toNat * 64) (hi := K) (by omega) (by omega) (by omega)).trans (BitVec.ofNat_toNat _ _ |>.trans (BitVec.setWidth_eq _)),
    (field (x := x1.toNat) (lo := x2.toNat * 2048 + x3.toNat * 64) (hi := K * 32 + x0.toNat) (by omega) (by omega) (by omega)).trans (BitVec.ofNat_toNat _ _ |>.trans (BitVec.setWidth_eq _)),
    (field (x := x2.toNat) (lo := x3.toNat * 64) (hi := K * 512 + x0.toNat * 16 + x1.toNat) (by omega) (by omega) (by omega)).trans (BitVec.ofNat_toNat _ _ |>.trans (BitVec.setWidth_eq _)),
    (field (x := x3.toNat) (lo := 0) (hi := K * 8192 + x0.toNat * 256 + x1.toNat * 16 + x2.toNat) (by omega) (by omega) (by omega)).trans (BitVec.ofNat_toNat _ _ |>.trans (BitVec.setWidth_eq _)),
    field (x := 0) (lo := 0) (hi := K * 262144 + x0.toNat * 8192 + x1.toNat * 512 + x2.toNat * 32 + x3.toNat) (by omega) (by omega) (by omega)⟩

theorem cut36 (K : Nat) (hK : K < 256) (x0 : BitVec 5) (x1 : BitVec 4) (x2 : BitVec 1) : ∃ w : W32, w = BitVec.ofNat 32 (K * 16777216 + x0.toNat * 524288 + x1.toNat * 32768 + x2.toNat)
    ∧ (w.extractLsb' 24 8).toNat = K
    ∧ w.extractLsb' 19 5 = x0
    ∧ w.extractLsb' 15 4 = x1
    ∧ w.extractLsb' 0 1 = x2
    ∧ w.extractLsb' 1 14 = 0 := by
  have := x0.isLt
  have := x1.isLt
  have := x2.isLt
  exact ⟨_, rfl, by rw [field (x := K) (lo := x0.toNat * 524288 + x1.toNat * 32768 + x2.toNat) (hi := 0) (by omega) (by omega) (by omega), BitVec.toNat_ofNat, Nat.mod_eq_of_lt (by omega)],
    (field (x := x0.toNat) (lo := x1.toNat * 32768 + x2.toNat) (hi := K) (by omega) (by omega) (by omega)).trans (BitVec.ofNat_toNat _ _ |>.trans (BitVec.setWidth_eq _)),
    (field (x := x1.toNat) (lo := x2.toNat) (hi := K * 32 + x0.toNat) (by omega) (by omega) (by omega)).trans (BitVec.ofNat_toNat _ _ |>.trans (BitVec.setWidth_eq _)),
    (field (x := x2.toNat) (lo := 0) (hi := K * 8388608 + x0.toNat * 262144 + x1.toNat * 16384) (by omega) (by omega) (by omega)).trans (BitVec.ofNat_toNat _ _ |>.trans (BitVec.setWidth_eq _)),
    field (x := 0) (lo := x2.toNat) (hi := K * 512 + x0.toNat * 16 + x1.toNat) (by omega) (by omega) (by omega)⟩

theorem cut37 (K : Nat) (hK : K < 256) (x0 : BitVec 5) (x1 : BitVec 4) (x2 : BitVec 5) : ∃ w : W32, w = BitVec.ofNat 32 (K * 16777216 + x0.toNat * 524288 + x1.toNat * 32768 + x2.toNat * 64)
    ∧ (w.extractLsb' 24 8).toNat = K
    ∧ w.extractLsb' 19 5 = x0
    ∧ w.extractLsb' 15 4 = x1
    ∧ w.extractLsb' 6 5 = x2
    ∧ w.extractLsb' 11 4 = 0
    ∧ w.extractLsb' 0 6 = 0 := by
  have := x0.isLt
  have := x1.isLt
  have := x2.isLt
  exact ⟨_, rfl, by rw [field (x := K) (lo := x0.toNat * 524288 + x1.toNat * 32768 + x2.toNat * 64) (hi := 0) (by omega) (by omega) (by omega), BitVec.toNat_ofNat, Nat.mod_eq_of_lt (by omega)],
    (field (x := x0.toNat) (lo := x1.toNat * 32768 + x2.toNat * 64) (hi := K) (by omega) (by omega) (by omega)).trans (BitVec.ofNat_toNat _ _ |>.trans (BitVec.setWidth_eq _)),
    (field (x := x1.toNat) (lo := x2.toNat * 64) (hi := K * 32 + x0.toNat) (by omega) (by omega) (by omega)).trans (BitVec.ofNat_toNat _ _ |>.trans (BitVec.setWidth_eq _)),
    (field (x := x2.toNat) (lo := 0) (hi := K * 8192 + x0.toNat * 256 + x1.toNat * 16) (by omega) (by omega) (by omega)).trans (BitVec.ofNat_toNat _ _ |>.trans (BitVec.setWidth_eq _)),
    field (x := 0) (lo := x2.toNat * 64) (hi := K * 512 + x0.toNat * 16 + x1.toNat) (by omega) (by omega) (by omega),
    field (x := 0) (lo := 0) (hi := K * 262144 + x0.toNat * 8192 + x1.toNat * 512 + x2.toNat) (by omega) (by omega) (by omega)⟩

theorem cut38 (K : Nat) (hK : K < 256) (x0 : BitVec 5) (x1 : BitVec 4) (x2 : BitVec 5) (x3 : BitVec 1) : ∃ w : W32, w = BitVec.ofNat 32 (K * 16777216 + x0.toNat * 524288 + x1.toNat * 32768 + x2.toNat * 64 + x3.toNat)
    ∧ (w.extractLsb' 24 8).toNat = K
    ∧ w.extractLsb' 19 5 = x0
    ∧ w.extractLsb' 15 4 = x1
    ∧ w.extractLsb' 6 5 = x2
    ∧ w.extractLsb' 0 1 = x3
    ∧ w.extractLsb' 11 4 = 0
    ∧ w.extractLsb' 1 5 = 0 := by
  have := x0.isLt
  have := x1.isLt
  have := x2.isLt
  have := x3.isLt
  exact ⟨_, rfl, by rw [field (x := K) (lo := x0.toNat * 524288 + x1.toNat * 32768 + x2.toNat * 64 + x3.toNat) (hi := 0) (by omega) (by omega) (by omega), BitVec.toNat_ofNat, Nat.mod_eq_of_lt (by omega)],
    (field (x := x0.toNat) (lo := x1.toNat * 32768 + x2.toNat * 64 + x3.toNat) (hi := K) (by omega) (by omega) (by omega)).trans (BitVec.ofNat_toNat _ _ |>.trans (BitVec.setWidth_eq _)),
    (field (x := x1.toNat) (lo := x2.toNat * 64 + x3.toNat) (hi := K * 32 + x0.toNat) (by omega) (by omega) (by omega)).trans (BitVec.ofNat_toNat _ _ |>.trans (BitVec.setWidth_eq _)),
    (field (x := x2.toNat) (lo := x3.toNat) (hi := K * 8192 + x0.toNat * 256 + x1.toNat * 16) (by omega) (by omega) (by omega)).trans (BitVec.ofNat_toNat _ _ |>.trans (BitVec.setWidth_eq _)),
    (field (x := x3.toNat) (lo := 0) (hi := K * 8388608 + x0.toNat * 262144 + x1.toNat * 16384 + x2.toNat * 32) (by omega) (by omega) (by omega)).trans (BitVec.ofNat_toNat _ _ |>.trans (BitVec.setWidth_eq _)),
    field (x := 0) (lo := x2.toNat * 64 + x3.toNat) (hi := K * 512 + x0.toNat * 16 + x1.toNat) (by omega) (by omega) (by omega),
    field (x := 0) (lo := x3.toNat) (hi := K * 262144 + x0.toNat * 8192 + x1.toNat * 512 + x2.toNat) (by omega) (by omega) (by omega)⟩

theorem cut39 (K : Nat) (hK : K < 256) (x0 : BitVec 4) (x1 : BitVec 4) : ∃ w : W32, w = BitVec.ofNat 32 (K * 16777216 + x0.toNat * 32768 + x1.toNat * 2048)
    ∧ (w.extractLsb' 24 8).toNat = K
    ∧ w.extractLsb' 15 4 = x0
    ∧ w.extractLsb' 11 4 = x1
    ∧ w.extractLsb' 19 5 = 0
    ∧ w.extractLsb' 0 11 = 0 := by
  have := x0.isLt
  have := x1.isLt
  exact ⟨_, rfl, by rw [field (x := K) (lo := x0.toNat * 32768 + x1.toNat * 2048) (hi := 0) (by omega) (by omega) (by omega), BitVec.toNat_ofNat, Nat.mod_eq_of_lt (by omega)],
    (field (x := x0.toNat) (lo := x1.toNat * 2048) (hi := K * 32) (by omega) (by omega) (by omega)).trans (BitVec.ofNat_toNat _ _ |>.trans (BitVec.setWidth_eq _)),
    (field (x := x1.toNat) (lo := 0) (hi := K * 512 + x0.toNat) (by omega) (by omega) (by omega)).trans (BitVec.ofNat_toNat _ _ |>.trans (BitVec.setWidth_eq _)),
    field (x := 0) (lo := x0.toNat * 32768 + x1.toNat * 2048) (hi := K) (by omega) (by omega) (by omega),
    field (x := 0) (lo := 0) (hi := K * 8192 + x0.toNat * 16 + x1.toNat) (by omega) (by omega) (by omega)⟩

theorem cut40 (K : Nat) (hK : K < 256) (x0 : BitVec 5) (x1 : BitVec 4) : ∃ w : W32, w = BitVec.ofNat 32 (K * 16777216 + x0.toNat * 524288 + x1.toNat * 32768)
    ∧ (w.extractLsb' 24 8).toNat = K
    ∧ w.extractLsb' 19 5 = x0
    ∧ w.extractLsb' 15 4 = x1
    ∧ w.extractLsb' 0 15 = 0 := by
  have := x0.isLt
  have := x1.isLt
  exact ⟨_, rfl, by rw [field (x := K) (lo := x0.toNat * 524288 + x1.toNat * 32768) (hi := 0) (by omega) (by omega) (by omega), BitVec.toNat_ofNat, Nat.mod_eq_of_lt (by omega)],
    (field (x := x0.toNat) (lo := x1.toNat * 32768) (hi := K) (by omega) (by omega) (by omega)).trans (BitVec.ofNat_toNat _ _ |>.trans (BitVec.setWidth_eq _)),
    (field (x := x1.toNat) (lo := 0) (hi := K * 32 + x0.toNat) (by omega) (by omega) (by omega)).trans (BitVec.ofNat_toNat _ _ |>.trans (BitVec.setWidth_eq _)),
    field (x := 0) (lo := 0) (hi := K * 512 + x0.toNat * 16 + x1.toNat) (by omega) (by omega) (by omega)⟩

theorem cut41 (K : Nat) (hK : K < 256) (x0 : BitVec 5) (x1 : BitVec 5) : ∃ w : W32, w = BitVec.ofNat 32 (K * 16777216 + x0.toNat * 524288 + x1.toNat * 64)
    ∧ (w.extractLsb' 24 8).toNat = K
    ∧ w.extractLsb' 19 5 = x0
    ∧ w.extractLsb' 6 5 = x1
    ∧ w.extractLsb' 11 8 = 0
    ∧ w.extractLsb' 0 6 = 0 := by
  have := x0.isLt
  have := x1.isLt
  exact ⟨_, rfl, by rw [field (x := K) (lo := x0.toNat * 524288 + x1.toNat * 64) (hi := 0) (by omega) (by omega) (by omega), BitVec.toNat_ofNat, Nat.mod_eq_of_lt (by omega)],
    (field (x := x0.toNat) (lo := x1.toNat * 64) (hi := K) (by omega) (by omega) (by omega)).trans (BitVec.ofNat_toNat _ _ |>.trans (BitVec.setWidth_eq _)),
    (field (x := x1.toNat) (lo := 0) (hi := K * 8192 + x0.toNat * 256) (by omega) (by omega) (by omega)).trans (BitVec.ofNat_toNat _ _ |>.trans (BitVec.setWidth_eq _)),
    field (x := 0) (lo := x1.toNat * 64) (hi := K * 32 + x0.toNat) (by omega) (by omega) (by omega),
    field (x := 0) (lo := 0) (hi := K * 262144 + x0.toNat * 8192 + x1.toNat) (by omega) (by omega) (by omega)⟩

theorem cut42 (K : Nat) (hK : K < 256) (x0 : BitVec 5) : ∃ w : W32, w = BitVec.ofNat 32 (K * 16777216 + x0.toNat * 524288)
    ∧ (w.extractLsb' 24 8).toNat = K
    ∧ w.extractLsb' 19 5 = x0
    ∧ w.extractLsb' 0 19 = 0 := by
  have := x0.isLt
  exact ⟨_, rfl, by rw [field (x := K) (lo := x0.toNat * 524288) (hi := 0) (by omega) (by omega) (by omega), BitVec.toNat_ofNat, Nat.mod_eq_of_lt (by omega)],
    (field (x := x0.toNat) (lo := 0) (hi := K) (by omega) (by omega) (by omega)).trans (BitVec.ofNat_toNat _ _ |>.trans (BitVec.setWidth_eq _)),
    field (x := 0) (lo := 0) (hi := K * 32 + x0.toNat) (by omega) (by omega) (by omega)⟩

theorem cut43 (K : Nat) (hK : K < 256) (x0 : BitVec 5) (x1 : BitVec 5) (x2 : BitVec 5) (x3 : BitVec 1) : ∃ w : W32, w = BitVec.ofNat 32 (K * 16777216 + x0.toNat * 524288 + x1.toNat * 64 + x2.toNat * 2 + x3.toNat)
    ∧ (w.extractLsb' 24 8).toNat = K
    ∧ w.extractLsb' 19 5 = x0
    ∧ w.extractLsb' 6 5 = x1
    ∧ w.extractLsb' 1 5 = x2
    ∧ w.extractLsb' 0 1 = x3
    ∧ w.extractLsb' 11 8 = 0 := by
  have := x0.isLt
  have := x1.isLt
  have := x2.isLt
  have := x3.isLt
  exact ⟨_, rfl, by rw [field (x := K) (lo := x0.toNat * 524288 + x1.toNat * 64 + x2.toNat * 2 + x3.toNat) (hi := 0) (by omega) (by omega) (by omega), BitVec.toNat_ofNat, Nat.mod_eq_of_lt (by omega)],
    (field (x := x0.toNat) (lo := x1.toNat * 64 + x2.toNat * 2 + x3.toNat) (hi := K) (by omega) (by omega) (by omega)).trans (BitVec.ofNat_toNat _ _ |>.trans (BitVec.setWidth_eq _)),
    (field (x := x1.toNat) (lo := x2.toNat * 2 + x3.toNat) (hi := K * 8192 + x0.toNat * 256) (by omega) (by omega) (by omega)).trans (BitVec.ofNat_toNat _ _ |>.trans (BitVec.setWidth_eq _)),
    (field (x := x2.toNat) (lo := x3.toNat) (hi := K * 262144 + x0.toNat * 8192 + x1.toNat) (by omega) (by omega) (by omega)).trans (BitVec.ofNat_toNat _ _ |>.trans (BitVec.setWidth_eq _)),
    (field (x := x3.toNat) (lo := 0) (hi := K * 8388608 + x0.toNat * 262144 + x1.toNat * 32 + x2.toNat) (by omega) (by omega) (by omega)).trans (BitVec.ofNat_toNat _ _ |>.trans (BitVec.setWidth_eq _)),
    field (x := 0) (lo := x1.toNat * 64 + x2.toNat * 2 + x3.toNat) (hi := K * 32 + x0.toNat) (by omega) (by omega) (by omega)⟩

theorem cut44 (K : Nat) (hK : K < 256) (x0 : BitVec 5) (x1 : BitVec 5) (x2 : BitVec 5) : ∃ w : W32, w = BitVec.ofNat 32 (K * 16777216 + x0.toNat * 524288 + x1.toNat * 64 + x2.toNat * 2)
    ∧ (w.extractLsb' 24 8).toNat = K
    ∧ w.extractLsb' 19 5 = x0
    ∧ w.extractLsb' 6 5 = x1
    ∧ w.extractLsb' 1 5 = x2
    ∧ w.extractLsb' 11 8 = 0
    ∧ w.extractLsb' 0 1 = 0 := by
  have := x0.isLt
  have := x1.isLt
  have := x2.isLt
  exact ⟨_, rfl, by rw [field (x := K) (lo := x0.toNat * 524288 + x1.toNat * 64 + x2.toNat * 2) (hi := 0) (by omega) (by omega) (by omega), BitVec.toNat_ofNat, Nat.mod_eq_of_lt (by omega)],
    (field (x := x0.toNat) (lo := x1.toNat * 64 + x2.toNat * 2) (hi := K) (by omega) (by omega) (by omega)).trans (BitVec.ofNat_toNat _ _ |>.trans (BitVec.setWidth_eq _)),
    (field (x := x1.toNat) (lo := x2.toNat * 2) (hi := K * 8192 + x0.toNat * 256) (by omega) (by omega) (by omega)).trans (BitVec.ofNat_toNat _ _ |>.trans (BitVec.setWidth_eq _)),
    (field (x := x2.toNat) (lo := 0) (hi := K * 262144 + x0.toNat * 8192 + x1.toNat) (by omega) (by omega) (by omega)).trans (BitVec.ofNat_toNat _ _ |>.trans (BitVec.setWidth_eq _)),
    field (x := 0) (lo := x1.toNat * 64 + x2.toNat * 2) (hi := K * 32 + x0.toNat) (by omega) (by omega) (by omega),
    field (x := 0) (lo := 0) (hi := K * 8388608 + x0.toNat * 262144 + x1.toNat * 32 + x2.toNat) (by omega) (by omega) (by omega)⟩

theorem cut45 (K : Nat) (hK : K < 256) (x0 : BitVec 4) (x1 : BitVec 1) (x2 : BitVec 1) (x3 : BitVec 3) : ∃ w : W32, w = BitVec.ofNat 32 (K * 16777216 + x0.toNat * 32768 + x1.toNat * 16 + x2.toNat * 8 + x3.toNat)
    ∧ (w.extractLsb' 24 8).toNat = K
    ∧ w.extractLsb' 15 4 = x0
    ∧ w.extractLsb' 4 1 = x1
    ∧ w.extractLsb' 3 1 = x2
    ∧ w.extractLsb' 0 3 = x3
    ∧ w.extractLsb' 19 5 = 0
    ∧ w.extractLsb' 5 10 = 0 := by
  have := x0.isLt
  have := x1.isLt
  have := x2.isLt
  have := x3.isLt
  exact ⟨_, rfl, by rw [field (x := K) (lo := x0.toNat * 32768 + x1.toNat * 16 + x2.toNat * 8 + x3.toNat) (hi := 0) (by omega) (by omega) (by omega), BitVec.toNat_ofNat, Nat.mod_eq_of_lt (by omega)],
    (field (x := x0.toNat) (lo := x1.toNat * 16 + x2.toNat * 8 + x3.toNat) (hi := K * 32) (by omega) (by omega) (by omega)).trans (BitVec.ofNat_toNat _ _ |>.trans (BitVec.setWidth_eq _)),
    (field (x := x1.toNat) (lo := x2.toNat * 8 + x3.toNat) (hi := K * 524288 + x0.toNat * 1024) (by omega) (by omega) (by omega)).trans (BitVec.ofNat_toNat _ _ |>.trans (BitVec.setWidth_eq _)),
    (field (x := x2.toNat) (lo := x3.toNat) (hi := K * 1048576 + x0.toNat * 2048 + x1.toNat) (by omega) (by omega) (by omega)).trans (BitVec.ofNat_toNat _ _ |>.trans (BitVec.setWidth_eq _)),
    (field (x := x3.toNat) (lo := 0) (hi := K * 2097152 + x0.toNat * 4096 + x1.toNat * 2 + x2.toNat) (by omega) (by omega) (by omega)).trans (BitVec.ofNat_toNat _ _ |>.trans (BitVec.setWidth_eq _)),
    field (x := 0) (lo := x0.toNat * 32768 + x1.toNat * 16 + x2.toNat * 8 + x3.toNat) (hi := K) (by omega) (by omega) (by omega),
    field (x := 0) (lo := x1.toNat * 16 + x2.toNat * 8 + x3.toNat) (hi := K * 512 + x0.toNat) (by omega) (by omega) (by omega)⟩

theorem cut46 (K : Nat) (hK : K < 256) (x0 : BitVec 5) (x1 : BitVec 4) (x2 : BitVec 1) (x3 : BitVec 1) (x4 : BitVec 3) : ∃ w : W32, w = BitVec.ofNat 32 (K * 16777216 + x0.toNat * 524288 + x1.toNat * 32768 + x2.toNat * 16 + x3.toNat * 8 + x4.toNat)
    ∧ (w.extractLsb' 24 8).toNat = K
    ∧ w.extractLsb' 19 5 = x0
    ∧ w.extractLsb' 15 4 = x1
    ∧ w.extractLsb' 4 1 = x2
    ∧ w.extractLsb' 3 1 = x3
    ∧ w.extractLsb' 0 3 = x4
    ∧ w.extractLsb' 5 10 = 0 := by
  have := x0.isLt
  have := x1.isLt
  have := x2.isLt
  have := x3.isLt
  have := x4.isLt
  exact ⟨_, rfl, by rw [field (x := K) (lo := x0.toNat * 524288 + x1.toNat * 32768 + x2.toNat * 16 + x3.toNat * 8 + x4.toNat) (hi := 0) (by omega) (by omega) (by omega), BitVec.toNat_ofNat, Nat.mod_eq_of_lt (by omega)],
    (field (x := x0.toNat) (lo := x1.toNat * 32768 + x2.toNat * 16 + x3.toNat * 8 + x4.toNat) (hi := K) (by omega) (by omega) (by omega)).trans (BitVec.ofNat_toNat _ _ |>.trans (BitVec.setWidth_eq _)),
    (field (x := x1.toNat) (lo := x2.toNat * 16 + x3.toNat * 8 + x4.toNat) (hi := K * 32 + x0.toNat) (by omega) (by omega) (by omega)).trans (BitVec.ofNat_toNat _ _ |>.trans (BitVec.setWidth_eq _)),
    (field (x := x2.toNat) (lo := x3.toNat * 8 + x4.toNat) (hi := K * 524288 + x0.toNat * 16384 + x1.toNat * 1024) (by omega) (by omega) (by omega)).trans (BitVec.ofNat_toNat _ _ |>.trans (BitVec.setWidth_eq _)),
    (field (x := x3.toNat) (lo := x4.toNat) (hi := K * 1048576 + x0.toNat * 32768 + x1.toNat * 2048 + x2.toNat) (by omega) (by omega) (by omega)).trans (BitVec.ofNat_toNat _ _ |>.trans (BitVec.setWidth_eq _)),
    (field (x := x4.toNat) (lo := 0) (hi := K * 2097152 + x0.toNat * 65536 + x1.toNat * 4096 + x2.toNat * 2 + x3.toNat) (by omega) (by omega) (by omega)).trans (BitVec.ofNat_toNat _ _ |>.trans (BitVec.setWidth_eq _)),
    field (x := 0) (lo := x2.toNat * 16 + x3.toNat * 8 + x4.toNat) (hi := K * 512 + x0.toNat * 16 + x1.toNat) (by omega) (by omega) (by omega)⟩

theorem cut47 (K : Nat) (hK : K < 256) (x0 : BitVec 3) : ∃ w : W32, w = BitVec.ofNat 32 (K * 16777216 + x0.toNat)
    ∧ (w.extractLsb' 24 8).toNat = K
    ∧ w.extractLsb' 0 3 = x0
    ∧ w.extractLsb' 3 21 = 0 := by
  have := x0.isLt
  exact ⟨_, rfl, by rw [field (x := K) (lo := x0.toNat) (hi := 0) (by omega) (by omega) (by omega), BitVec.toNat_ofNat, Nat.mod_eq_of_lt (by omega)],
    (field (x := x0.toNat) (lo := 0) (hi := K * 2097152) (by omega) (by omega) (by omega)).trans (BitVec.ofNat_toNat _ _ |>.trans (BitVec.setWidth_eq _)),
    field (x := 0) (lo := x0.toNat) (hi := K) (by omega) (by omega) (by omega)⟩

theorem cut48 (K : Nat) (hK : K < 256) (x0 : BitVec 5) (x1 : BitVec 5) (x2 : BitVec 5) (x3 : BitVec 4) : ∃ w : W32, w = BitVec.ofNat 32 (K * 16777216 + x0.toNat * 524288 + x1.toNat * 16384 + x2.toNat * 512 + x3.toNat)
    ∧ (w.extractLsb' 24 8).toNat = K
    ∧ w.extractLsb' 19 5 = x0
    ∧ w.extractLsb' 14 5 = x1
    ∧ w.extractLsb' 9 5 = x2
    ∧ w.extractLsb' 0 4 = x3
    ∧ w.extractLsb' 4 5 = 0 := by
  have := x0.isLt
  have := x1.isLt
  have := x2.isLt
  have := x3.isLt
  exact ⟨_, rfl, by rw [field (x := K) (lo := x0.toNat * 524288 + x1.toNat * 16384 + x2.toNat * 512 + x3.toNat) (hi := 0) (by omega) (by omega) (by omega), BitVec.toNat_ofNat, Nat.mod_eq_of_lt (by omega)],
    (field (x := x0.toNat) (lo := x1.toNat * 16384 + x2.toNat * 512 + x3.toNat) (hi := K) (by omega) (by omega) (by omega)).trans (BitVec.ofNat_toNat _ _ |>.trans (BitVec.setWidth_eq _)),
    (field (x := x1.toNat) (lo := x2.toNat * 512 + x3.toNat) (hi := K * 32 + x0.toNat) (by omega) (by omega) (by omega)).trans (BitVec.ofNat_toNat _ _ |>.trans (BitVec.setWidth_eq _)),
    (field (x := x2.toNat) (lo := x3.toNat) (hi := K * 1024 + x0.toNat * 32 + x1.toNat) (by omega) (by omega) (by omega)).trans (BitVec.ofNat_toNat _ _ |>.trans (BitVec.setWidth_eq _)),
    (field (x := x3.toNat) (lo := 0) (hi := K * 1048576 + x0.toNat * 32768 + x1.toNat * 1024 + x2.toNat * 32) (by omega) (by omega) (by omega)).trans (BitVec.ofNat_toNat _ _ |>.trans (BitVec.setWidth_eq _)),
    field (x := 0) (lo := x3.toNat) (hi := K * 32768 + x0.toNat * 1024 + x1.toNat * 32 + x2.toNat) (by omega) (by omega) (by omega)⟩

theorem cut49 (K : Nat) (hK : K < 256) (x0 : BitVec 5) (x1 : BitVec 5) : ∃ w : W32, w = BitVec.ofNat 32 (K * 16777216 + x0.toNat * 16384 + x1.toNat * 512)
    ∧ (w.extractLsb' 24 8).toNat = K
    ∧ w.extractLsb' 14 5 = x0
    ∧ w.extractLsb' 9 5 = x1
    ∧ w.extractLsb' 19 5 = 0
    ∧ w.extractLsb' 0 9 = 0 := by
  have := x0.isLt
  have := x1.isLt
  exact ⟨_, rfl, by rw [field (x := K) (lo := x0.toNat * 16384 + x1.toNat * 512) (hi := 0) (by omega) (by omega) (by omega), BitVec.toNat_ofNat, Nat.mod_eq_of_lt (by omega)],
    (field (x := x0.toNat) (lo := x1.toNat * 512) (hi := K * 32) (by omega) (by omega) (by omega)).trans (BitVec.ofNat_toNat _ _ |>.trans (BitVec.setWidth_eq _)),
    (field (x := x1.toNat) (lo := 0) (hi := K * 1024 + x0.toNat) (by omega) (by omega) (by omega)).trans (BitVec.ofNat_toNat _ _ |>.trans (BitVec.setWidth_eq _)),
    field (x := 0) (lo := x0.toNat * 16384 + x1.toNat * 512) (hi := K) (by omega) (by omega) (by omega),
    field (x := 0) (lo := 0) (hi := K * 32768 + x0.toNat * 32 + x1.toNat) (by omega) (by omega) (by omega)⟩

theorem cut50 (K : Nat) (hK : K < 256) (x0 : BitVec 5) (x1 : BitVec 4) (x2 : BitVec 4) (x3 : BitVec 5) (x4 : BitVec 1) (x5 : BitVec 1) : ∃ w : W32, w = BitVec.ofNat 32 (K * 16777216 + x0.toNat * 524288 + x1.toNat * 32768 + x2.toNat * 2048 + x3.toNat * 64 + x4.toNat * 2 + x5.toNat)
    ∧ (w.extractLsb' 24 8).toNat = K
    ∧ w.extractLsb' 19 5 = x0
    ∧ w.extractLsb' 15 4 = x1
    ∧ w.extractLsb' 11 4 = x2
    ∧ w.extractLsb' 6 5 = x3
    ∧ w.extractLsb' 1 1 = x4
    ∧ w.extractLsb' 0 1 = x5
    ∧ w.extractLsb' 2 4 = 0 := by
  have := x0.isLt
  have := x1.isLt
  have := x2.isLt
  have := x3.isLt
  have := x4.isLt
  have := x5.isLt
  exact ⟨_, rfl, by rw [field (x := K) (lo := x0.toNat * 524288 + x1.toNat * 32768 + x2.toNat * 2048 + x3.toNat * 64 + x4.toNat * 2 + x5.toNat) (hi := 0) (by omega) (by omega) (by omega), BitVec.toNat_ofNat, Nat.mod_eq_of_lt (by omega)],
    (field (x := x0.toNat) (lo := x1.toNat * 32768 + x2.toNat * 2048 + x3.toNat * 64 + x4.toNat * 2 + x5.toNat) (hi := K) (by omega) (by omega) (by omega)).trans (BitVec.ofNat_toNat _ _ |>.trans (BitVec.setWidth_eq _)),
    (field (x := x1.toNat) (lo := x2.toNat * 2048 + x3.toNat * 64 + x4.toNat * 2 + x5.toNat) (hi := K * 32 + x0.toNat) (by omega) (by omega) (by omega)).trans (BitVec.ofNat_toNat _ _ |>.trans (BitVec.setWidth_eq _)),
    (field (x := x2.toNat) (lo := x3.toNat * 64 + x4.toNat * 2 + x5.toNat) (hi := K * 512 + x0.toNat * 16 + x1.toNat) (by omega) (by omega) (by omega)).trans (BitVec.ofNat_toNat _ _ |>.trans (BitVec.setWidth_eq _)),
    (field (x := x3.toNat) (lo := x4.toNat * 2 + x5.toNat) (hi := K * 8192 + x0.toNat * 256 + x1.toNat * 16 + x2.toNat) (by omega) (by omega) (by omega)).trans (BitVec.ofNat_toNat _ _ |>.trans (BitVec.setWidth_eq _)),
    (field (x := x4.toNat) (lo := x5.toNat) (hi := K * 4194304 + x0.toNat * 131072 + x1.toNat * 8192 + x2.toNat * 512 + x3.toNat * 16) (by omega) (by omega) (by omega)).trans (BitVec.ofNat_toNat _ _ |>.trans (BitVec.setWidth_eq _)),
    (field (x := x5.toNat) (lo := 0) (hi := K * 8388608 + x0.toNat * 262144 + x1.toNat * 16384 + x2.toNat * 1024 + x3.toNat * 32 + x4.toNat) (by omega) (by omega) (by omega)).trans (BitVec.ofNat_toNat _ _ |>.trans (BitVec.setWidth_eq _)),
    field (x := 0) (lo := x4.toNat * 2 + x5.toNat) (hi := K * 262144 + x0.toNat * 8192 + x1.toNat * 512 + x2.toNat * 32 + x3.toNat) (by omega) (by omega) (by omega)⟩

theorem cut51 (K : Nat) (hK : K < 256) (x0 : BitVec 5) (x1 : BitVec 4) (x2 : BitVec 5) (x3 : BitVec 3) (x4 : BitVec 1) : ∃ w : W32, w = BitVec.ofNat 32 (K * 16777216 + x0.toNat * 524288 + x1.toNat * 32768 + x2.toNat * 64 + x3.toNat * 8 + x4.toNat)
    ∧ (w.extractLsb' 24 8).toNat = K
    ∧ w.extractLsb' 19 5 = x0
    ∧ w.extractLsb' 15 4 = x1
    ∧ w.extractLsb' 6 5 = x2
    ∧ w.extractLsb' 3 3 = x3
    ∧ w.extractLsb' 0 1 = x4
    ∧ w.extractLsb' 11 4 = 0
    ∧ w.extractLsb' 1 2 = 0 := by
  have := x0.isLt
  have := x1.isLt
  have := x2.isLt
  have := x3.isLt
  have := x4.isLt
  exact ⟨_, rfl, by rw [field (x := K) (lo := x0.toNat * 524288 + x1.toNat * 32768 + x2.toNat * 64 + x3.toNat * 8 + x4.toNat) (hi := 0) (by omega) (by omega) (by omega), BitVec.toNat_ofNat, Nat.mod_eq_of_lt (by omega)],
    (field (x := x0.toNat) (lo := x1.toNat * 32768 + x2.toNat * 64 + x3.toNat * 8 + x4.toNat) (hi := K) (by omega) (by omega) (by omega)).trans (BitVec.ofNat_toNat _ _ |>.trans (BitVec.setWidth_eq _)),
    (field (x := x1.toNat) (lo := x2.toNat * 64 + x3.toNat * 8 + x4.toNat) (hi := K * 32 + x0.toNat) (by omega) (by omega) (by omega)).trans (BitVec.ofNat_toNat _ _ |>.trans (BitVec.setWidth_eq _)),
    (field (x := x2.toNat) (lo := x3.toNat * 8 + x4.toNat) (hi := K * 8192 + x0.toNat * 256 + x1.toNat * 16) (by omega) (by omega) (by omega)).trans (BitVec.ofNat_toNat _ _ |>.trans (BitVec.setWidth_eq _)),
    (field (x := x3.toNat) (lo := x4.toNat) (hi := K * 262144 + x0.toNat * 8192 + x1.toNat * 512 + x2.toNat) (by omega) (by omega) (by omega)).trans (BitVec.ofNat_toNat _ _ |>.trans (BitVec.setWidth_eq _)),
    (field (x := x4.toNat) (lo := 0) (hi := K * 8388608 + x0.toNat * 262144 + x1.toNat * 16384 + x2.toNat * 32 + x3.toNat * 4) (by omega) (by omega) (by omega)).trans (BitVec.ofNat_toNat _ _ |>.trans (BitVec.setWidth_eq _)),
    field (x := 0) (lo := x2.toNat * 64 + x3.toNat * 8 + x4.toNat) (hi := K * 512 + x0.toNat * 16 + x1.toNat) (by omega) (by omega) (by omega),
    field (x := 0) (lo := x4.toNat) (hi := K * 2097152 + x0.toNat * 65536 + x1.toNat * 4096 + x2.toNat * 8 + x3.toNat) (by omega) (by omega) (by omega)⟩

theorem cut52 (K : Nat) (hK : K < 256) (x0 : BitVec 5) (x1 : BitVec 4) (x2 : BitVec 4) (x3 : BitVec 5) (x4 : BitVec 3) (x5 : BitVec 2) (x6 : BitVec 1) : ∃ w : W32, w = BitVec.ofNat 32 (K * 16777216 + x0.toNat * 524288 + x1.toNat * 32768 + x2.toNat * 2048 + x3.toNat * 64 + x4.toNat * 8 + x5.toNat * 2 + x6.toNat)
    ∧ (w.extractLsb' 24 8).toNat = K
    ∧ w.extractLsb' 19 5 = x0
    ∧ w.extractLsb' 15 4 = x1
    ∧ w.extractLsb' 11 4 = x2
    ∧ w.extractLsb' 6 5 = x3
    ∧ w.extractLsb' 3 3 = x4
    ∧ w.extractLsb' 1 2 = x5
    ∧ w.extractLsb' 0 1 = x6 := by
  have := x0.isLt
  have := x1.isLt
  have := x2.isLt
  have := x3.isLt
  have := x4.isLt
  have := x5.isLt
  have := x6.isLt
  exact ⟨_, rfl, by rw [field (x := K) (lo := x0.toNat * 524288 + x1.toNat * 32768 + x2.toNat * 2048 + x3.toNat * 64 + x4.toNat * 8 + x5.toNat * 2 + x6.toNat) (hi := 0) (by omega) (by omega) (by omega), BitVec.toNat_ofNat, Nat.mod_eq_of_lt (by omega)],
    (field (x := x0.toNat) (lo := x1.toNat * 32768 + x2.toNat * 2048 + x3.toNat * 64 + x4.toNat * 8 + x5.toNat * 2 + x6.toNat) (hi := K) (by omega) (by omega) (by omega)).trans (BitVec.ofNat_toNat _ _ |>.trans (BitVec.setWidth_eq _)),
    (field (x := x1.toNat) (lo := x2.toNat * 2048 + x3.toNat * 64 + x4.toNat * 8 + x5.toNat * 2 + x6.toNat) (hi := K * 32 + x0.toNat) (by omega) (by omega) (by omega)).trans (BitVec.ofNat_toNat _ _ |>.trans (BitVec.setWidth_eq _)),
    (field (x := x2.toNat) (lo := x3.toNat * 64 + x4.toNat * 8 + x5.toNat * 2 + x6.toNat) (hi := K * 512 + x0.toNat * 16 + x1.toNat) (by omega) (by omega) (by omega)).trans (BitVec.ofNat_toNat _ _ |>.trans (BitVec.setWidth_eq _)),
    (field (x := x3.toNat) (lo := x4.toNat * 8 + x5.toNat * 2 + x6.toNat) (hi := K * 8192 + x0.toNat * 256 + x1.toNat * 16 + x2.toNat) (by omega) (by omega) (by omega)).trans (BitVec.ofNat_toNat _ _ |>.trans (BitVec.setWidth_eq _)),
    (field (x := x4.toNat) (lo := x5.toNat * 2 + x6.toNat) (hi := K * 262144 + x0.toNat * 8192 + x1.toNat * 512 + x2.toNat * 32 + x3.toNat) (by omega) (by omega) (by omega)).trans (BitVec.ofNat_toNat _ _ |>.trans (BitVec.setWidth_eq _)),
    (field (x := x5.toNat) (lo := x6.toNat) (hi := K * 2097152 + x0.toNat * 65536 + x1.toNat * 4096 + x2.toNat * 256 + x3.toNat * 8 + x4.toNat) (by omega) (by omega) (by omega)).trans (BitVec.ofNat_toNat _ _ |>.trans (BitVec.setWidth_eq _)),
    (field (x := x6.toNat) (lo := 0) (hi := K * 8388608 + x0.toNat * 262144 + x1.toNat * 16384 + x2.toNat * 1024 + x3.toNat * 32 + x4.toNat * 4 + x5.toNat) (by omega) (by omega) (by omega)).trans (BitVec.ofNat_toNat _ _ |>.trans (BitVec.setWidth_eq _))⟩

theorem cut53 (K : Nat) (hK : K < 256) (x0 : BitVec 5) (x1 : BitVec 4) (x2 : BitVec 4) (x3 : BitVec 5) (x4 : BitVec 3) : ∃ w : W32, w = BitVec.ofNat 32 (K * 16777216 + x0.toNat * 524288 + x1.toNat * 32768 + x2.toNat * 2048 + x3.toNat * 64 + x4.toNat * 8)
    ∧ (w.extractLsb' 24 8).toNat = K
    ∧ w.extractLsb' 19 5 = x0
    ∧ w.extractLsb' 15 4 = x1
    ∧ w.extractLsb' 11 4 = x2
    ∧ w.extractLsb' 6 5 = x3
    ∧ w.extractLsb' 3 3 = x4
    ∧ w.extractLsb' 0 3 = 0 := by
  have := x0.isLt
  have := x1.isLt
  have := x2.isLt
  have := x3.isLt
  have := x4.isLt
  exact ⟨_, rfl, by rw [field (x := K) (lo := x0.toNat * 524288 + x1.toNat * 32768 + x2.toNat * 2048 + x3.toNat * 64 + x4.toNat * 8) (hi := 0) (by omega) (by omega) (by omega), BitVec.toNat_ofNat, Nat.mod_eq_of_lt (by omega)],
    (field (x := x0.toNat) (lo := x1.toNat * 32768 + x2.toNat * 2048 + x3.toNat * 64 + x4.toNat * 8) (hi := K) (by omega) (by omega) (by omega)).trans (BitVec.ofNat_toNat _ _ |>.trans (BitVec.setWidth_eq _)),
    (field (x := x1.toNat) (lo := x2.toNat * 2048 + x3.toNat * 64 + x4.toNat * 8) (hi := K * 32 + x0.toNat) (by omega) (by omega) (by omega)).trans (BitVec.ofNat_toNat _ _ |>.trans (BitVec.setWidth_eq _)),
    (field (x := x2.toNat) (lo := x3.toNat * 64 + x4.toNat * 8) (hi := K * 512 + x0.toNat * 16 + x1.toNat) (by omega) (by omega) (by omega)).trans (BitVec.ofNat_toNat _ _ |>.trans (BitVec.setWidth_eq _)),
    (field (x := x3.toNat) (lo := x4.toNat * 8) (hi := K * 8192 + x0.toNat * 256 + x1.toNat * 16 + x2.toNat) (by omega) (by omega) (by omega)).trans (BitVec.ofNat_toNat _ _ |>.trans (BitVec.setWidth_eq _)),
    (field (x := x4.toNat) (lo := 0) (hi := K * 262144 + x0.toNat * 8192 + x1.toNat * 512 + x2.toNat * 32 + x3.toNat) (by omega) (by omega) (by omega)).trans (BitVec.ofNat_toNat _ _ |>.trans (BitVec.setWidth_eq _)),
    field (x := 0) (lo := 0) (hi := K * 2097152 + x0.toNat * 65536 + x1.toNat * 4096 + x2.toNat * 256 + x3.toNat * 8 + x4.toNat) (by omega) (by omega) (by omega)⟩

theorem cut54 (K : Nat) (hK : K < 256) (x0 : BitVec 5) (x1 : BitVec 4) (x2 : BitVec 5) (x3 : BitVec 1) (x4 : BitVec 1) : ∃ w : W32, w = BitVec.ofNat 32 (K * 16777216 + x0.toNat * 524288 + x1.toNat * 32768 + x2.toNat * 64 + x3.toNat * 32 + x4.toNat)
    ∧ (w.extractLsb' 24 8).toNat = K
    ∧ w.extractLsb' 19 5 = x0
    ∧ w.extractLsb' 15 4 = x1
    ∧ w.extractLsb' 6 5 = x2
    ∧ w.extractLsb' 5 1 = x3
    ∧ w.extractLsb' 0 1 = x4
    ∧ w.extractLsb' 11 4 = 0
    ∧ w.extractLsb' 1 4 = 0 := by
  have := x0.isLt
  have := x1.isLt
  have := x2.isLt
  have := x3.isLt
  have := x4.isLt
  exact ⟨_, rfl, by rw [field (x := K) (lo := x0.toNat * 524288 + x1.toNat * 32768 + x2.toNat * 64 + x3.toNat * 32 + x4.toNat) (hi := 0) (by omega) (by omega) (by omega), BitVec.toNat_ofNat, Nat.mod_eq_of_lt (by omega)],
    (field (x := x0.toNat) (lo := x1.toNat * 32768 + x2.toNat * 64 + x3.toNat * 32 + x4.toNat) (hi := K) (by omega) (by omega) (by omega)).trans (BitVec.ofNat_toNat _ _ |>.trans (BitVec.setWidth_eq _)),
    (field (x := x1.toNat) (lo := x2.toNat * 64 + x3.toNat * 32 + x4.toNat) (hi := K * 32 + x0.toNat) (by omega) (by omega) (by omega)).trans (BitVec.ofNat_toNat _ _ |>.trans (BitVec.setWidth_eq _)),
    (field (x := x2.toNat) (lo := x3.toNat * 32 + x4.toNat) (hi := K * 8192 + x0.toNat * 256 + x1.toNat * 16) (by omega) (by omega) (by omega)).trans (BitVec.ofNat_toNat _ _ |>.trans (BitVec.setWidth_eq _)),
    (field (x := x3.toNat) (lo := x4.toNat) (hi := K * 262144 + x0.toNat * 8192 + x1.toNat * 512 + x2.toNat) (by omega) (by omega) (by omega)).trans (BitVec.ofNat_toNat _ _ |>.trans (BitVec.setWidth_eq _)),
    (field (x := x4.toNat) (lo := 0) (hi := K * 8388608 + x0.toNat * 262144 + x1.toNat * 16384 + x2.toNat * 32 + x3.toNat * 16) (by omega) (by omega) (by omega)).trans (BitVec.ofNat_toNat _ _ |>.trans (BitVec.setWidth_eq _)),
    field (x := 0) (lo := x2.toNat * 64 + x3.toNat * 32 + x4.toNat) (hi := K * 512 + x0.toNat * 16 + x1.toNat) (by omega) (by omega) (by omega),
    field (x := 0) (lo := x4.toNat) (hi := K * 524288 + x0.toNat * 16384 + x1.toNat * 1024 + x2.toNat * 2 + x3.toNat) (by omega) (by omega) (by omega)⟩

theorem cut55 (K : Nat) (hK : K < 256) (x0 : BitVec 5) (x1 : BitVec 4) (x2 : BitVec 5) (x3 : BitVec 1) (x4 : BitVec 4) (x5 : BitVec 1) : ∃ w : W32, w = BitVec.ofNat 32 (K * 16777216 + x0.toNat * 524288 + x1.toNat * 32768 + x2.toNat * 64 + x3.toNat * 32 + x4.toNat * 2 + x5.toNat)
    ∧ (w.extractLsb' 24 8).toNat = K
    ∧ w.extractLsb' 19 5 = x0
    ∧ w.extractLsb' 15 4 = x1
    ∧ w.extractLsb' 6 5 = x2
    ∧ w.extractLsb' 5 1 = x3
    ∧ w.extractLsb' 1 4 = x4
    ∧ w.extractLsb' 0 1 = x5
    ∧ w.extractLsb' 11 4 = 0 := by
  have := x0.isLt
  have := x1.isLt
  have := x2.isLt
  have := x3.isLt
  have := x4.isLt
  have := x5.isLt
  exact ⟨_, rfl, by rw [field (x := K) (lo := x0.toNat * 524288 + x1.toNat * 32768 + x2.toNat * 64 + x3.toNat * 32 + x4.toNat * 2 + x5.toNat) (hi := 0) (by omega) (by omega) (by omega), BitVec.toNat_ofNat, Nat.mod_eq_of_lt (by omega)],
    (field (x := x0.toNat) (lo := x1.toNat * 32768 + x2.toNat * 64 + x3.toNat * 32 + x4.toNat * 2 + x5.toNat) (hi := K) (by omega) (by omega) (by omega)).trans (BitVec.ofNat_toNat _ _ |>.trans (BitVec.setWidth_eq _)),
    (field (x := x1.toNat) (lo := x2.toNat * 64 + x3.toNat * 32 + x4.toNat * 2 + x5.toNat) (hi := K * 32 + x0.toNat) (by omega) (by omega) (by omega)).trans (BitVec.ofNat_toNat _ _ |>.trans (BitVec.setWidth_eq _)),
    (field (x := x2.toNat) (lo := x3.toNat * 32 + x4.toNat * 2 + x5.toNat) (hi := K * 8192 + x0.toNat * 256 + x1.toNat * 16) (by omega) (by omega) (by omega)).trans (BitVec.ofNat_toNat _ _ |>.trans (BitVec.setWidth_eq _)),
    (field (x := x3.toNat) (lo := x4.toNat * 2 + x5.toNat) (hi := K * 262144 + x0.toNat * 8192 + x1.toNat * 512 + x2.toNat) (by omega) (by omega) (by omega)).trans (BitVec.ofNat_toNat _ _ |>.trans (BitVec.setWidth_eq _)),
    (field (x := x4.toNat) (lo := x5.toNat) (hi := K * 524288 + x0.toNat * 16384 + x1.toNat * 1024 + x2.toNat * 2 + x3.toNat) (by omega) (by omega) (by omega)).trans (BitVec.ofNat_toNat _ _ |>.trans (BitVec.setWidth_eq _)),
    (field (x := x5.toNat) (lo := 0) (hi := K * 8388608 + x0.toNat * 262144 + x1.toNat * 16384 + x2.toNat * 32 + x3.toNat * 16 + x4.toNat) (by omega) (by omega) (by omega)).trans (BitVec.ofNat_toNat _ _ |>.trans (BitVec.setWidth_eq _)),
    field (x := 0) (lo := x2.toNat * 64 + x3.toNat * 32 + x4.toNat * 2 + x5.toNat) (hi := K * 512 + x0.toNat * 16 + x1.toNat) (by omega) (by omega) (by omega)⟩

theorem cut56 (K : Nat) (hK : K < 256) (x0 : BitVec 5) (x1 : BitVec 4) (x2 : BitVec 5) (x3 : BitVec 1) : ∃ w : W32, w = BitVec.ofNat 32 (K * 16777216 + x0.toNat * 524288 + x1.toNat * 2048 + x2.toNat * 64 + x3.toNat * 2)
    ∧ (w.extractLsb' 24 8).toNat = K
    ∧ w.extractLsb' 19 5 = x0
    ∧ w.extractLsb' 11 4 = x1
    ∧ w.extractLsb' 6 5 = x2
    ∧ w.extractLsb' 1 1 = x3
    ∧ w.extractLsb' 15 4 = 0
    ∧ w.extractLsb' 2 4 = 0
    ∧ w.extractLsb' 0 1 = 0 := by
  have := x0.isLt
  have := x1.isLt
  have := x2.isLt
  have := x3.isLt
  exact ⟨_, rfl, by rw [field (x := K) (lo := x0.toNat * 524288 + x1.toNat * 2048 + x2.toNat * 64 + x3.toNat * 2) (hi := 0) (by omega) (by omega) (by omega), BitVec.toNat_ofNat, Nat.mod_eq_of_lt (by omega)],
    (field (x := x0.toNat) (lo := x1.toNat * 2048 + x2.toNat * 64 + x3.toNat * 2) (hi := K) (by omega) (by omega) (by omega)).trans (BitVec.ofNat_toNat _ _ |>.trans (BitVec.setWidth_eq _)),
    (field (x := x1.toNat) (lo := x2.toNat * 64 + x3.toNat * 2) (hi := K * 512 + x0.toNat * 16) (by omega) (by omega) (by omega)).trans (BitVec.ofNat_toNat _ _ |>.trans (BitVec.setWidth_eq _)),
    (field (x := x2.toNat) (lo := x3.toNat * 2) (hi := K * 8192 + x0.toNat * 256 + x1.toNat) (by omega) (by omega) (by omega)).trans (BitVec.ofNat_toNat _ _ |>.trans (BitVec.setWidth_eq _)),
    (field (x := x3.toNat) (lo := 0) (hi := K * 4194304 + x0.toNat * 131072 + x1.toNat * 512 + x2.toNat * 16) (by omega) (by omega) (by omega)).trans (BitVec.ofNat_toNat _ _ |>.trans (BitVec.setWidth_eq _)),
    field (x := 0) (lo := x1.toNat * 2048 + x2.toNat * 64 + x3.toNat * 2) (hi := K * 32 + x0.toNat) (by omega) (by omega) (by omega),
    field (x := 0) (lo := x3.toNat * 2) (hi := K * 262144 + x0.toNat * 8192 + x1.toNat * 32 + x2.toNat) (by omega) (by omega) (by omega),
    field (x := 0) (lo := 0) (hi := K * 8388608 + x0.toNat * 262144 + x1.toNat * 1024 + x2.toNat * 32 + x3.toNat) (by omega) (by omega) (by omega)⟩

theorem cut57 (K : Nat) (hK : K < 256) (x0 : BitVec 5) (x1 : BitVec 4) (x2 : BitVec 5) (x3 : BitVec 3) (x4 : BitVec 2) (x5 : BitVec 1) : ∃ w : W32, w = BitVec.ofNat 32 (K * 16777216 + x0.toNat * 524288 + x1.toNat * 32768 + x2.toNat * 64 + x3.toNat * 8 + x4.toNat * 2 + x5.toNat)
    ∧ (w.extractLsb' 24 8).toNat = K
    ∧ w.extractLsb' 19 5 = x0
    ∧ w.extractLsb' 15 4 = x1
    ∧ w.extractLsb' 6 5 = x2
    ∧ w.extractLsb' 3 3 = x3
    ∧ w.extractLsb' 1 2 = x4
    ∧ w.extractLsb' 0 1 = x5
    ∧ w.extractLsb' 11 4 = 0 := by
  have := x0.isLt
  have := x1.isLt
  have := x2.isLt
  have := x3.isLt
  have := x4.isLt
  have := x5.isLt
  exact ⟨_, rfl, by rw [field (x := K) (lo := x0.toNat * 524288 + x1.toNat * 32768 + x2.toNat * 64 + x3.toNat * 8 + x4.toNat * 2 + x5.toNat) (hi := 0) (by omega) (by omega) (by omega), BitVec.toNat_ofNat, Nat.mod_eq_of_lt (by omega)],
    (field (x := x0.toNat) (lo := x1.toNat * 32768 + x2.toNat * 64 + x3.toNat * 8 + x4.toNat * 2 + x5.toNat) (hi := K) (by omega) (by omega) (by omega)).trans (BitVec.ofNat_toNat _ _ |>.trans (BitVec.setWidth_eq _)),
    (field (x := x1.toNat) (lo := x2.toNat * 64 + x3.toNat * 8 + x4.toNat * 2 + x5.toNat) (hi := K * 32 + x0.toNat) (by omega) (by omega) (by omega)).trans (BitVec.ofNat_toNat _ _ |>.trans (BitVec.setWidth_eq _)),
    (field (x := x2.toNat) (lo := x3.toNat * 8 + x4.toNat * 2 + x5.toNat) (hi := K * 8192 + x0.toNat * 256 + x1.toNat * 16) (by omega) (by omega) (by omega)).trans (BitVec.ofNat_toNat _ _ |>.trans (BitVec.setWidth_eq _)),
    (field (x := x3.toNat) (lo := x4.toNat * 2 + x5.toNat) (hi := K * 262144 + x0.toNat * 8192 + x1.toNat * 512 + x2.toNat) (by omega) (by omega) (by omega)).trans (BitVec.ofNat_toNat _ _ |>.trans (BitVec.setWidth_eq _)),
    (field (x := x4.toNat) (lo := x5.toNat) (hi := K * 2097152 + x0.toNat * 65536 + x1.toNat * 4096 + x2.toNat * 8 + x3.toNat) (by omega) (by omega) (by omega)).trans (BitVec.ofNat_toNat _ _ |>.trans (BitVec.setWidth_eq _)),
    (field (x := x5.toNat) (lo := 0) (hi := K * 8388608 + x0.toNat * 262144 + x1.toNat * 16384 + x2.toNat * 32 + x3.toNat * 4 + x4.toNat) (by omega) (by omega) (by omega)).trans (BitVec.ofNat_toNat _ _ |>.trans (BitVec.setWidth_eq _)),
    field (x := 0) (lo := x2.toNat * 64 + x3.toNat * 8 + x4.toNat * 2 + x5.toNat) (hi := K * 512 + x0.toNat * 16 + x1.toNat) (by omega) (by omega) (by omega)⟩

theorem cut58 (K : Nat) (hK : K < 256) (x0 : BitVec 5) (x1 : BitVec 5) (x2 : BitVec 4) (x3 : BitVec 1) : ∃ w : W32, w = BitVec.ofNat 32 (K * 16777216 + x0.toNat * 524288 + x1.toNat * 64 + x2.toNat * 2 + x3.toNat)
    ∧ (w.extractLsb' 24 8).toNat = K
    ∧ w.extractLsb' 19 5 = x0
    ∧ w.extractLsb' 6 5 = x1
    ∧ w.extractLsb' 1 4 = x2
    ∧ w.extractLsb' 0 1 = x3
    ∧ w.extractLsb' 11 8 = 0
    ∧ w.extractLsb' 5 1 = 0 := by
  have := x0.isLt
  have := x1.isLt
  have := x2.isLt
  have := x3.isLt
  exact ⟨_, rfl, by rw [field (x := K) (lo := x0.toNat * 524288 + x1.toNat * 64 + x2.toNat * 2 + x3.toNat) (hi := 0) (by omega) (by omega) (by omega), BitVec.toNat_ofNat, Nat.mod_eq_of_lt (by omega)],
    (field (x := x0.toNat) (lo := x1.toNat * 64 + x2.toNat * 2 + x3.toNat) (hi := K) (by omega) (by omega) (by omega)).trans (BitVec.ofNat_toNat _ _ |>.trans (BitVec.setWidth_eq _)),
    (field (x := x1.toNat) (lo := x2.toNat * 2 + x3.toNat) (hi := K * 8192 + x0.toNat * 256) (by omega) (by omega) (by omega)).trans (BitVec.ofNat_toNat _ _ |>.trans (BitVec.setWidth_eq _)),
    (field (x := x2.toNat) (lo := x3.toNat) (hi := K * 524288 + x0.toNat * 16384 + x1.toNat * 2) (by omega) (by omega) (by omega)).trans (BitVec.ofNat_toNat _ _ |>.trans (BitVec.setWidth_eq _)),
    (field (x := x3.toNat) (lo := 0) (hi := K * 8388608 + x0.toNat * 262144 + x1.toNat * 32 + x2.toNat) (by omega) (by omega) (by omega)).trans (BitVec.ofNat_toNat _ _ |>.trans (BitVec.setWidth_eq _)),
    field (x := 0) (lo := x1.toNat * 64 + x2.toNat * 2 + x3.toNat) (hi := K * 32 + x0.toNat) (by omega) (by omega) (by omega),
    field (x := 0) (lo := x2.toNat * 2 + x3.toNat) (hi := K * 262144 + x0.toNat * 8192 + x1.toNat) (by omega) (by omega) (by omega)⟩

theorem cut59 (K : Nat) (hK : K < 256) (x0 : BitVec 5) (x1 : BitVec 6) (x2 : BitVec 2) : ∃ w : W32, w = BitVec.ofNat 32 (K * 16777216 + x0.toNat * 16384 + x1.toNat * 256 + x2.toNat)
    ∧ (w.extractLsb' 24 8).toNat = K
    ∧ w.extractLsb' 14 5 = x0
    ∧ w.extractLsb' 8 6 = x1
    ∧ w.extractLsb' 0 2 = x2
    ∧ w.extractLsb' 19 5 = 0
    ∧ w.extractLsb' 2 6 = 0 := by
  have := x0.isLt
  have := x1.isLt
  have := x2.isLt
  exact ⟨_, rfl, by rw [field (x := K) (lo := x0.toNat * 16384 + x1.toNat * 256 + x2.toNat) (hi := 0) (by omega) (by omega) (by omega), BitVec.toNat_ofNat, Nat.mod_eq_of_lt (by omega)],
    (field (x := x0.toNat) (lo := x1.toNat * 256 + x2.toNat) (hi := K * 32) (by omega) (by omega) (by omega)).trans (BitVec.ofNat_toNat _ _ |>.trans (BitVec.setWidth_eq _)),
    (field (x := x1.toNat) (lo := x2.toNat) (hi := K * 1024 + x0.toNat) (by omega) (by omega) (by omega)).trans (BitVec.ofNat_toNat _ _ |>.trans (BitVec.setWidth_eq _)),
    (field (x := x2.toNat) (lo := 0) (hi := K * 4194304 + x0.toNat * 4096 + x1.toNat * 64) (by omega) (by omega) (by omega)).trans (BitVec.ofNat_toNat _ _ |>.trans (BitVec.setWidth_eq _)),
    field (x := 0) (lo := x0.toNat * 16384 + x1.toNat * 256 + x2.toNat) (hi := K) (by omega) (by omega) (by omega),
    field (x := 0) (lo := x2.toNat) (hi := K * 65536 + x0.toNat * 64 + x1.toNat) (by omega) (by omega) (by omega)⟩

theorem cut60 (K : Nat) (hK : K < 256) (x0 : BitVec 5) (x1 : BitVec 6) (x2 : BitVec 1) (x3 : BitVec 2) : ∃ w : W32, w = BitVec.ofNat 32 (K * 16777216 + x0.toNat * 524288 + x1.toNat * 256 + x2.toNat * 4 + x3.toNat)
    ∧ (w.extractLsb' 24 8).toNat = K
    ∧ w.extractLsb' 19 5 = x0
    ∧ w.extractLsb' 8 6 = x1
    ∧ w.extractLsb' 2 1 = x2
    ∧ w.extractLsb' 0 2 = x3
    ∧ w.extractLsb' 14 5 = 0
    ∧ w.extractLsb' 3 5 = 0 := by
  have := x0.isLt
  have := x1.isLt
  have := x2.isLt
  have := x3.isLt
  exact ⟨_, rfl, by rw [field (x := K) (lo := x0.toNat * 524288 + x1.toNat * 256 + x2.toNat * 4 + x3.toNat) (hi := 0) (by omega) (by omega) (by omega), BitVec.toNat_ofNat, Nat.mod_eq_of_lt (by omega)],
    (field (x := x0.toNat) (lo := x1.toNat * 256 + x2.toNat * 4 + x3.toNat) (hi := K) (by omega) (by omega) (by omega)).trans (BitVec.ofNat_toNat _ _ |>.trans (BitVec.setWidth_eq _)),
    (field (x := x1.toNat) (lo := x2.toNat * 4 + x3.toNat) (hi := K * 1024 + x0.toNat * 32) (by omega) (by omega) (by omega)).trans (BitVec.ofNat_toNat _ _ |>.trans (BitVec.setWidth_eq _)),
    (field (x := x2.toNat) (lo := x3.toNat) (hi := K * 2097152 + x0.toNat * 65536 + x1.toNat * 32) (by omega) (by omega) (by omega)).trans (BitVec.ofNat_toNat _ _ |>.trans (BitVec.setWidth_eq _)),
    (field (x := x3.toNat) (lo := 0) (hi := K * 4194304 + x0.toNat * 131072 + x1.toNat * 64 + x2.toNat) (by omega) (by omega) (by omega)).trans (BitVec.ofNat_toNat _ _ |>.trans (BitVec.setWidth_eq _)),
    field (x := 0) (lo := x1.toNat * 256 + x2.toNat * 4 + x3.toNat) (hi := K * 32 + x0.toNat) (by omega) (by omega) (by omega),
    field (x := 0) (lo := x2.toNat * 4 + x3.toNat) (hi := K * 65536 + x0.toNat * 2048 + x1.toNat) (by omega) (by omega) (by omega)⟩

/-! ## One shape of lemma for each kind of instruction -/

theorem RoundTrip.event {i : Instr} (h : encode i = none) : RoundTrip.Statement i := by
  intro _ w hw
  rw [h] at hw
  cases hw

theorem RoundTrip.control {i : Instr} {w : W32} (he : encode i = some w) (hs : RoundTrip.slots i = [])
    (hd : decodeFields w = some i) : RoundTrip.Statement i := by
  intro hf v hv
  obtain rfl : w = v := Option.some.inj (he.symm.trans hv)
  rw [hs]
  exact ⟨fun _ _ => by simp [decodeWord, hd, hf], fun _ h => nomatch h⟩

theorem RoundTrip.kernel {i : Instr} {w : W32} {sl : Slot} (he : encode i = some w) (hs : RoundTrip.slots i = [sl])
    (hd : decodeSyllable sl w = some i) : RoundTrip.Statement i := by
  intro hf v hv
  obtain rfl : w = v := Option.some.inj (he.symm.trans hv)
  rw [hs]
  refine ⟨fun h _ => (nomatch h), fun x hx => ?_⟩
  obtain rfl : x = sl := List.mem_singleton.mp hx
  simp [decodeOk, hd, hf]

/-! ## Every constructor -/

theorem RoundTrip.ctlNop : RoundTrip.Statement .ctlNop := by
  intro _ w h
  cases h
  exact ⟨fun h _ => (nomatch h), fun sl _ => by cases sl <;> rfl⟩

theorem RoundTrip.ctlHalt : RoundTrip.Statement .ctlHalt := RoundTrip.kernel rfl rfl rfl

theorem RoundTrip.ctlBr (t : BitVec 12) : RoundTrip.Statement (.ctlBr t) := by
  obtain ⟨w, e, o, h0, z0⟩ := cut1 2 (by decide) t
  have d : decodeCtl w = if w.extractLsb' 12 14 == 0 then some (.ctlBr (w.extractLsb' 0 12)) else none := by unfold decodeCtl; rw [o]; rfl
  exact RoundTrip.kernel (w := w) (by rw [e]; rfl) rfl (by unfold decodeSyllable; rw [d, z0, h0]; rfl)

theorem RoundTrip.ctlBany (p : BitVec 2) (t : BitVec 12) : RoundTrip.Statement (.ctlBany p t) := by
  obtain ⟨w, e, o, h0, h1, z0⟩ := cut2 3 (by decide) p t
  have d : decodeCtl w = if w.extractLsb' 12 12 == 0 then some (.ctlBany (w.extractLsb' 24 2) (w.extractLsb' 0 12)) else none := by unfold decodeCtl; rw [o]; rfl
  exact RoundTrip.kernel (w := w) (by rw [e]; rfl) rfl (by unfold decodeSyllable; rw [d, z0, h0, h1]; rfl)

theorem RoundTrip.ctlBall (p : BitVec 2) (t : BitVec 12) : RoundTrip.Statement (.ctlBall p t) := by
  obtain ⟨w, e, o, h0, h1, z0⟩ := cut2 4 (by decide) p t
  have d : decodeCtl w = if w.extractLsb' 12 12 == 0 then some (.ctlBall (w.extractLsb' 24 2) (w.extractLsb' 0 12)) else none := by unfold decodeCtl; rw [o]; rfl
  exact RoundTrip.kernel (w := w) (by rw [e]; rfl) rfl (by unfold decodeSyllable; rw [d, z0, h0, h1]; rfl)

theorem RoundTrip.ctlBnone (p : BitVec 2) (t : BitVec 12) : RoundTrip.Statement (.ctlBnone p t) := by
  obtain ⟨w, e, o, h0, h1, z0⟩ := cut2 5 (by decide) p t
  have d : decodeCtl w = if w.extractLsb' 12 12 == 0 then some (.ctlBnone (w.extractLsb' 24 2) (w.extractLsb' 0 12)) else none := by unfold decodeCtl; rw [o]; rfl
  exact RoundTrip.kernel (w := w) (by rw [e]; rfl) rfl (by unfold decodeSyllable; rw [d, z0, h0, h1]; rfl)

theorem RoundTrip.ctlBnall (p : BitVec 2) (t : BitVec 12) : RoundTrip.Statement (.ctlBnall p t) := by
  obtain ⟨w, e, o, h0, h1, z0⟩ := cut2 6 (by decide) p t
  have d : decodeCtl w = if w.extractLsb' 12 12 == 0 then some (.ctlBnall (w.extractLsb' 24 2) (w.extractLsb' 0 12)) else none := by unfold decodeCtl; rw [o]; rfl
  exact RoundTrip.kernel (w := w) (by rw [e]; rfl) rfl (by unfold decodeSyllable; rw [d, z0, h0, h1]; rfl)

theorem RoundTrip.ctlLset (c : BitVec 2) (n : BitVec 20) : RoundTrip.Statement (.ctlLset c n) := by
  obtain ⟨w, e, o, h0, h1, z0⟩ := cut3 7 (by decide) c n
  have d : decodeCtl w = if w.extractLsb' 20 4 == 0 then some (.ctlLset (w.extractLsb' 24 2) (w.extractLsb' 0 20)) else none := by unfold decodeCtl; rw [o]; rfl
  exact RoundTrip.kernel (w := w) (by rw [e]; rfl) rfl (by unfold decodeSyllable; rw [d, z0, h0, h1]; rfl)

theorem RoundTrip.ctlLsetk (c : BitVec 2) (k : BitVec 3) : RoundTrip.Statement (.ctlLsetk c k) := by
  obtain ⟨w, e, o, h0, h1, z0⟩ := cut4 8 (by decide) c k
  have d : decodeCtl w = if w.extractLsb' 3 21 == 0 then some (.ctlLsetk (w.extractLsb' 24 2) (w.extractLsb' 0 3)) else none := by unfold decodeCtl; rw [o]; rfl
  exact RoundTrip.kernel (w := w) (by rw [e]; rfl) rfl (by unfold decodeSyllable; rw [d, z0, h0, h1]; rfl)

theorem RoundTrip.ctlLsetv (c : BitVec 2) (u : BitVec 8) : RoundTrip.Statement (.ctlLsetv c u) := by
  obtain ⟨w, e, o, h0, h1, z0⟩ := cut5 9 (by decide) c u
  have d : decodeCtl w = if w.extractLsb' 8 16 == 0 then some (.ctlLsetv (w.extractLsb' 24 2) (w.extractLsb' 0 8)) else none := by unfold decodeCtl; rw [o]; rfl
  exact RoundTrip.kernel (w := w) (by rw [e]; rfl) rfl (by unfold decodeSyllable; rw [d, z0, h0, h1]; rfl)

theorem RoundTrip.ctlLbnz (c : BitVec 2) (t : BitVec 12) : RoundTrip.Statement (.ctlLbnz c t) := by
  obtain ⟨w, e, o, h0, h1, z0⟩ := cut2 10 (by decide) c t
  have d : decodeCtl w = if w.extractLsb' 12 12 == 0 then some (.ctlLbnz (w.extractLsb' 24 2) (w.extractLsb' 0 12)) else none := by unfold decodeCtl; rw [o]; rfl
  exact RoundTrip.kernel (w := w) (by rw [e]; rfl) rfl (by unfold decodeSyllable; rw [d, z0, h0, h1]; rfl)

theorem RoundTrip.ctlBkz (k : BitVec 3) (t : BitVec 12) : RoundTrip.Statement (.ctlBkz k t) := by
  obtain ⟨w, e, o, h0, h1, z0⟩ := cut6 11 (by decide) k t
  have d : decodeCtl w = if w.extractLsb' 15 11 == 0 then some (.ctlBkz (w.extractLsb' 12 3) (w.extractLsb' 0 12)) else none := by unfold decodeCtl; rw [o]; rfl
  exact RoundTrip.kernel (w := w) (by rw [e]; rfl) rfl (by unfold decodeSyllable; rw [d, z0, h0, h1]; rfl)

theorem RoundTrip.ctlBknz (k : BitVec 3) (t : BitVec 12) : RoundTrip.Statement (.ctlBknz k t) := by
  obtain ⟨w, e, o, h0, h1, z0⟩ := cut6 12 (by decide) k t
  have d : decodeCtl w = if w.extractLsb' 15 11 == 0 then some (.ctlBknz (w.extractLsb' 12 3) (w.extractLsb' 0 12)) else none := by unfold decodeCtl; rw [o]; rfl
  exact RoundTrip.kernel (w := w) (by rw [e]; rfl) rfl (by unfold decodeSyllable; rw [d, z0, h0, h1]; rfl)

theorem RoundTrip.ctlKret (l : BitVec 4) (s : BitVec 8) : RoundTrip.Statement (.ctlKret l s) := by
  obtain ⟨w, e, o, h0, h1, z0⟩ := cut7 13 (by decide) l s
  have d : decodeCtl w = if w.extractLsb' 12 14 == 0 then some (.ctlKret (w.extractLsb' 8 4) (w.extractLsb' 0 8)) else none := by unfold decodeCtl; rw [o]; rfl
  exact RoundTrip.kernel (w := w) (by rw [e]; rfl) rfl (by unfold decodeSyllable; rw [d, z0, h0, h1]; rfl)

theorem RoundTrip.ctlKretp (p : BitVec 2) : RoundTrip.Statement (.ctlKretp p) := by
  obtain ⟨w, e, o, h0, z0⟩ := cut8 14 (by decide) p
  have d : decodeCtl w = if w.extractLsb' 0 24 == 0 then some (.ctlKretp (w.extractLsb' 24 2)) else none := by unfold decodeCtl; rw [o]; rfl
  exact RoundTrip.kernel (w := w) (by rw [e]; rfl) rfl (by unfold decodeSyllable; rw [d, z0, h0]; rfl)

theorem RoundTrip.ctlIdle (n : BitVec 12) : RoundTrip.Statement (.ctlIdle n) := by
  obtain ⟨w, e, o, h0, z0⟩ := cut1 15 (by decide) n
  have d : decodeCtl w = if w.extractLsb' 12 14 == 0 then some (.ctlIdle (w.extractLsb' 0 12)) else none := by unfold decodeCtl; rw [o]; rfl
  exact RoundTrip.kernel (w := w) (by rw [e]; rfl) rfl (by unfold decodeSyllable; rw [d, z0, h0]; rfl)

theorem RoundTrip.hkChkeq (h : BitVec 12) (a : BitVec 8) (b : BitVec 8) : RoundTrip.Statement (.hkChkeq h a b) := by
  obtain ⟨w, e, o, h0, h1, h2⟩ := cut9 1 (by decide) h a b
  have d : decodeHk w = some (.hkChkeq (w.extractLsb' 20 12) (w.extractLsb' 8 8) (w.extractLsb' 0 8)) := by unfold decodeHk; rw [o]; rfl
  exact RoundTrip.kernel (w := w) (by rw [e]; rfl) rfl (by unfold decodeSyllable; rw [d, h0, h1, h2])

theorem RoundTrip.hkChkz (h : BitVec 12) (a : BitVec 8) : RoundTrip.Statement (.hkChkz h a) := by
  obtain ⟨w, e, o, h0, h1, z0⟩ := cut10 2 (by decide) h a
  have d : decodeHk w = if w.extractLsb' 0 8 == 0 then some (.hkChkz (w.extractLsb' 20 12) (w.extractLsb' 8 8)) else none := by unfold decodeHk; rw [o]; rfl
  exact RoundTrip.kernel (w := w) (by rw [e]; rfl) rfl (by unfold decodeSyllable; rw [d, z0, h0, h1]; rfl)

theorem RoundTrip.hkChkovf (h : BitVec 12) (a : BitVec 8) : RoundTrip.Statement (.hkChkovf h a) := by
  obtain ⟨w, e, o, h0, h1, z0⟩ := cut10 3 (by decide) h a
  have d : decodeHk w = if w.extractLsb' 0 8 == 0 then some (.hkChkovf (w.extractLsb' 20 12) (w.extractLsb' 8 8)) else none := by unfold decodeHk; rw [o]; rfl
  exact RoundTrip.kernel (w := w) (by rw [e]; rfl) rfl (by unfold decodeSyllable; rw [d, z0, h0, h1]; rfl)

theorem RoundTrip.hkChkall (h : BitVec 12) (a : BitVec 8) : RoundTrip.Statement (.hkChkall h a) := by
  obtain ⟨w, e, o, h0, h1, z0⟩ := cut10 4 (by decide) h a
  have d : decodeHk w = if w.extractLsb' 0 8 == 0 then some (.hkChkall (w.extractLsb' 20 12) (w.extractLsb' 8 8)) else none := by unfold decodeHk; rw [o]; rfl
  exact RoundTrip.kernel (w := w) (by rw [e]; rfl) rfl (by unfold decodeSyllable; rw [d, z0, h0, h1]; rfl)

theorem RoundTrip.iAdd (p : BitVec 2) (d : BitVec 8) (a : BitVec 8) (b : BitVec 8) : RoundTrip.Statement (.iAdd p d a b) := by
  obtain ⟨w, e, o, h0, h1, h2, h3⟩ := cut11 1 (by decide) p d a b
  have d : decodeI w = some (.iAdd (w.extractLsb' 24 2) (w.extractLsb' 16 8) (w.extractLsb' 8 8) (w.extractLsb' 0 8)) := by unfold decodeI; rw [o]; rfl
  exact RoundTrip.kernel (w := w) (by rw [e]; rfl) rfl (by unfold decodeSyllable; rw [d, h0, h1, h2, h3])

theorem RoundTrip.iSub (p : BitVec 2) (d : BitVec 8) (a : BitVec 8) (b : BitVec 8) : RoundTrip.Statement (.iSub p d a b) := by
  obtain ⟨w, e, o, h0, h1, h2, h3⟩ := cut11 2 (by decide) p d a b
  have d : decodeI w = some (.iSub (w.extractLsb' 24 2) (w.extractLsb' 16 8) (w.extractLsb' 8 8) (w.extractLsb' 0 8)) := by unfold decodeI; rw [o]; rfl
  exact RoundTrip.kernel (w := w) (by rw [e]; rfl) rfl (by unfold decodeSyllable; rw [d, h0, h1, h2, h3])

theorem RoundTrip.iMul (p : BitVec 2) (d : BitVec 8) (a : BitVec 8) (b : BitVec 8) : RoundTrip.Statement (.iMul p d a b) := by
  obtain ⟨w, e, o, h0, h1, h2, h3⟩ := cut11 3 (by decide) p d a b
  have d : decodeI w = some (.iMul (w.extractLsb' 24 2) (w.extractLsb' 16 8) (w.extractLsb' 8 8) (w.extractLsb' 0 8)) := by unfold decodeI; rw [o]; rfl
  exact RoundTrip.kernel (w := w) (by rw [e]; rfl) rfl (by unfold decodeSyllable; rw [d, h0, h1, h2, h3])

theorem RoundTrip.iMulhs (p : BitVec 2) (d : BitVec 8) (a : BitVec 8) (b : BitVec 8) : RoundTrip.Statement (.iMulhs p d a b) := by
  obtain ⟨w, e, o, h0, h1, h2, h3⟩ := cut11 4 (by decide) p d a b
  have d : decodeI w = some (.iMulhs (w.extractLsb' 24 2) (w.extractLsb' 16 8) (w.extractLsb' 8 8) (w.extractLsb' 0 8)) := by unfold decodeI; rw [o]; rfl
  exact RoundTrip.kernel (w := w) (by rw [e]; rfl) rfl (by unfold decodeSyllable; rw [d, h0, h1, h2, h3])

theorem RoundTrip.iMulhz (p : BitVec 2) (d : BitVec 8) (a : BitVec 8) (b : BitVec 8) : RoundTrip.Statement (.iMulhz p d a b) := by
  obtain ⟨w, e, o, h0, h1, h2, h3⟩ := cut11 5 (by decide) p d a b
  have d : decodeI w = some (.iMulhz (w.extractLsb' 24 2) (w.extractLsb' 16 8) (w.extractLsb' 8 8) (w.extractLsb' 0 8)) := by unfold decodeI; rw [o]; rfl
  exact RoundTrip.kernel (w := w) (by rw [e]; rfl) rfl (by unfold decodeSyllable; rw [d, h0, h1, h2, h3])

theorem RoundTrip.iAnd (p : BitVec 2) (d : BitVec 8) (a : BitVec 8) (b : BitVec 8) : RoundTrip.Statement (.iAnd p d a b) := by
  obtain ⟨w, e, o, h0, h1, h2, h3⟩ := cut11 6 (by decide) p d a b
  have d : decodeI w = some (.iAnd (w.extractLsb' 24 2) (w.extractLsb' 16 8) (w.extractLsb' 8 8) (w.extractLsb' 0 8)) := by unfold decodeI; rw [o]; rfl
  exact RoundTrip.kernel (w := w) (by rw [e]; rfl) rfl (by unfold decodeSyllable; rw [d, h0, h1, h2, h3])

theorem RoundTrip.iOr (p : BitVec 2) (d : BitVec 8) (a : BitVec 8) (b : BitVec 8) : RoundTrip.Statement (.iOr p d a b) := by
  obtain ⟨w, e, o, h0, h1, h2, h3⟩ := cut11 7 (by decide) p d a b
  have d : decodeI w = some (.iOr (w.extractLsb' 24 2) (w.extractLsb' 16 8) (w.extractLsb' 8 8) (w.extractLsb' 0 8)) := by unfold decodeI; rw [o]; rfl
  exact RoundTrip.kernel (w := w) (by rw [e]; rfl) rfl (by unfold decodeSyllable; rw [d, h0, h1, h2, h3])

theorem RoundTrip.iXor (p : BitVec 2) (d : BitVec 8) (a : BitVec 8) (b : BitVec 8) : RoundTrip.Statement (.iXor p d a b) := by
  obtain ⟨w, e, o, h0, h1, h2, h3⟩ := cut11 8 (by decide) p d a b
  have d : decodeI w = some (.iXor (w.extractLsb' 24 2) (w.extractLsb' 16 8) (w.extractLsb' 8 8) (w.extractLsb' 0 8)) := by unfold decodeI; rw [o]; rfl
  exact RoundTrip.kernel (w := w) (by rw [e]; rfl) rfl (by unfold decodeSyllable; rw [d, h0, h1, h2, h3])

theorem RoundTrip.iAndn (p : BitVec 2) (d : BitVec 8) (a : BitVec 8) (b : BitVec 8) : RoundTrip.Statement (.iAndn p d a b) := by
  obtain ⟨w, e, o, h0, h1, h2, h3⟩ := cut11 9 (by decide) p d a b
  have d : decodeI w = some (.iAndn (w.extractLsb' 24 2) (w.extractLsb' 16 8) (w.extractLsb' 8 8) (w.extractLsb' 0 8)) := by unfold decodeI; rw [o]; rfl
  exact RoundTrip.kernel (w := w) (by rw [e]; rfl) rfl (by unfold decodeSyllable; rw [d, h0, h1, h2, h3])

theorem RoundTrip.iShl (p : BitVec 2) (d : BitVec 8) (a : BitVec 8) (b : BitVec 8) : RoundTrip.Statement (.iShl p d a b) := by
  obtain ⟨w, e, o, h0, h1, h2, h3⟩ := cut11 10 (by decide) p d a b
  have d : decodeI w = some (.iShl (w.extractLsb' 24 2) (w.extractLsb' 16 8) (w.extractLsb' 8 8) (w.extractLsb' 0 8)) := by unfold decodeI; rw [o]; rfl
  exact RoundTrip.kernel (w := w) (by rw [e]; rfl) rfl (by unfold decodeSyllable; rw [d, h0, h1, h2, h3])

theorem RoundTrip.iShrz (p : BitVec 2) (d : BitVec 8) (a : BitVec 8) (b : BitVec 8) : RoundTrip.Statement (.iShrz p d a b) := by
  obtain ⟨w, e, o, h0, h1, h2, h3⟩ := cut11 11 (by decide) p d a b
  have d : decodeI w = some (.iShrz (w.extractLsb' 24 2) (w.extractLsb' 16 8) (w.extractLsb' 8 8) (w.extractLsb' 0 8)) := by unfold decodeI; rw [o]; rfl
  exact RoundTrip.kernel (w := w) (by rw [e]; rfl) rfl (by unfold decodeSyllable; rw [d, h0, h1, h2, h3])

theorem RoundTrip.iShrs (p : BitVec 2) (d : BitVec 8) (a : BitVec 8) (b : BitVec 8) : RoundTrip.Statement (.iShrs p d a b) := by
  obtain ⟨w, e, o, h0, h1, h2, h3⟩ := cut11 12 (by decide) p d a b
  have d : decodeI w = some (.iShrs (w.extractLsb' 24 2) (w.extractLsb' 16 8) (w.extractLsb' 8 8) (w.extractLsb' 0 8)) := by unfold decodeI; rw [o]; rfl
  exact RoundTrip.kernel (w := w) (by rw [e]; rfl) rfl (by unfold decodeSyllable; rw [d, h0, h1, h2, h3])

theorem RoundTrip.iRotl (p : BitVec 2) (d : BitVec 8) (a : BitVec 8) (b : BitVec 8) : RoundTrip.Statement (.iRotl p d a b) := by
  obtain ⟨w, e, o, h0, h1, h2, h3⟩ := cut11 13 (by decide) p d a b
  have d : decodeI w = some (.iRotl (w.extractLsb' 24 2) (w.extractLsb' 16 8) (w.extractLsb' 8 8) (w.extractLsb' 0 8)) := by unfold decodeI; rw [o]; rfl
  exact RoundTrip.kernel (w := w) (by rw [e]; rfl) rfl (by unfold decodeSyllable; rw [d, h0, h1, h2, h3])

theorem RoundTrip.iMins (p : BitVec 2) (d : BitVec 8) (a : BitVec 8) (b : BitVec 8) : RoundTrip.Statement (.iMins p d a b) := by
  obtain ⟨w, e, o, h0, h1, h2, h3⟩ := cut11 14 (by decide) p d a b
  have d : decodeI w = some (.iMins (w.extractLsb' 24 2) (w.extractLsb' 16 8) (w.extractLsb' 8 8) (w.extractLsb' 0 8)) := by unfold decodeI; rw [o]; rfl
  exact RoundTrip.kernel (w := w) (by rw [e]; rfl) rfl (by unfold decodeSyllable; rw [d, h0, h1, h2, h3])

theorem RoundTrip.iMaxs (p : BitVec 2) (d : BitVec 8) (a : BitVec 8) (b : BitVec 8) : RoundTrip.Statement (.iMaxs p d a b) := by
  obtain ⟨w, e, o, h0, h1, h2, h3⟩ := cut11 15 (by decide) p d a b
  have d : decodeI w = some (.iMaxs (w.extractLsb' 24 2) (w.extractLsb' 16 8) (w.extractLsb' 8 8) (w.extractLsb' 0 8)) := by unfold decodeI; rw [o]; rfl
  exact RoundTrip.kernel (w := w) (by rw [e]; rfl) rfl (by unfold decodeSyllable; rw [d, h0, h1, h2, h3])

theorem RoundTrip.iMinz (p : BitVec 2) (d : BitVec 8) (a : BitVec 8) (b : BitVec 8) : RoundTrip.Statement (.iMinz p d a b) := by
  obtain ⟨w, e, o, h0, h1, h2, h3⟩ := cut11 16 (by decide) p d a b
  have d : decodeI w = some (.iMinz (w.extractLsb' 24 2) (w.extractLsb' 16 8) (w.extractLsb' 8 8) (w.extractLsb' 0 8)) := by unfold decodeI; rw [o]; rfl
  exact RoundTrip.kernel (w := w) (by rw [e]; rfl) rfl (by unfold decodeSyllable; rw [d, h0, h1, h2, h3])

theorem RoundTrip.iMaxz (p : BitVec 2) (d : BitVec 8) (a : BitVec 8) (b : BitVec 8) : RoundTrip.Statement (.iMaxz p d a b) := by
  obtain ⟨w, e, o, h0, h1, h2, h3⟩ := cut11 17 (by decide) p d a b
  have d : decodeI w = some (.iMaxz (w.extractLsb' 24 2) (w.extractLsb' 16 8) (w.extractLsb' 8 8) (w.extractLsb' 0 8)) := by unfold decodeI; rw [o]; rfl
  exact RoundTrip.kernel (w := w) (by rw [e]; rfl) rfl (by unfold decodeSyllable; rw [d, h0, h1, h2, h3])

theorem RoundTrip.iAbs (p : BitVec 2) (d : BitVec 8) (a : BitVec 8) : RoundTrip.Statement (.iAbs p d a) := by
  obtain ⟨w, e, o, h0, h1, h2, z0⟩ := cut12 18 (by decide) p d a
  have d : decodeI w = if w.extractLsb' 0 8 == 0 then some (.iAbs (w.extractLsb' 24 2) (w.extractLsb' 16 8) (w.extractLsb' 8 8)) else none := by unfold decodeI; rw [o]; rfl
  exact RoundTrip.kernel (w := w) (by rw [e]; rfl) rfl (by unfold decodeSyllable; rw [d, z0, h0, h1, h2]; rfl)

theorem RoundTrip.iAddss (p : BitVec 2) (d : BitVec 8) (a : BitVec 8) (b : BitVec 8) : RoundTrip.Statement (.iAddss p d a b) := by
  obtain ⟨w, e, o, h0, h1, h2, h3⟩ := cut11 19 (by decide) p d a b
  have d : decodeI w = some (.iAddss (w.extractLsb' 24 2) (w.extractLsb' 16 8) (w.extractLsb' 8 8) (w.extractLsb' 0 8)) := by unfold decodeI; rw [o]; rfl
  exact RoundTrip.kernel (w := w) (by rw [e]; rfl) rfl (by unfold decodeSyllable; rw [d, h0, h1, h2, h3])

theorem RoundTrip.iAddsz (p : BitVec 2) (d : BitVec 8) (a : BitVec 8) (b : BitVec 8) : RoundTrip.Statement (.iAddsz p d a b) := by
  obtain ⟨w, e, o, h0, h1, h2, h3⟩ := cut11 20 (by decide) p d a b
  have d : decodeI w = some (.iAddsz (w.extractLsb' 24 2) (w.extractLsb' 16 8) (w.extractLsb' 8 8) (w.extractLsb' 0 8)) := by unfold decodeI; rw [o]; rfl
  exact RoundTrip.kernel (w := w) (by rw [e]; rfl) rfl (by unfold decodeSyllable; rw [d, h0, h1, h2, h3])

theorem RoundTrip.iSubss (p : BitVec 2) (d : BitVec 8) (a : BitVec 8) (b : BitVec 8) : RoundTrip.Statement (.iSubss p d a b) := by
  obtain ⟨w, e, o, h0, h1, h2, h3⟩ := cut11 21 (by decide) p d a b
  have d : decodeI w = some (.iSubss (w.extractLsb' 24 2) (w.extractLsb' 16 8) (w.extractLsb' 8 8) (w.extractLsb' 0 8)) := by unfold decodeI; rw [o]; rfl
  exact RoundTrip.kernel (w := w) (by rw [e]; rfl) rfl (by unfold decodeSyllable; rw [d, h0, h1, h2, h3])

theorem RoundTrip.iSubsz (p : BitVec 2) (d : BitVec 8) (a : BitVec 8) (b : BitVec 8) : RoundTrip.Statement (.iSubsz p d a b) := by
  obtain ⟨w, e, o, h0, h1, h2, h3⟩ := cut11 22 (by decide) p d a b
  have d : decodeI w = some (.iSubsz (w.extractLsb' 24 2) (w.extractLsb' 16 8) (w.extractLsb' 8 8) (w.extractLsb' 0 8)) := by unfold decodeI; rw [o]; rfl
  exact RoundTrip.kernel (w := w) (by rw [e]; rfl) rfl (by unfold decodeSyllable; rw [d, h0, h1, h2, h3])

theorem RoundTrip.iAbsds (p : BitVec 2) (d : BitVec 8) (a : BitVec 8) (b : BitVec 8) : RoundTrip.Statement (.iAbsds p d a b) := by
  obtain ⟨w, e, o, h0, h1, h2, h3⟩ := cut11 23 (by decide) p d a b
  have d : decodeI w = some (.iAbsds (w.extractLsb' 24 2) (w.extractLsb' 16 8) (w.extractLsb' 8 8) (w.extractLsb' 0 8)) := by unfold decodeI; rw [o]; rfl
  exact RoundTrip.kernel (w := w) (by rw [e]; rfl) rfl (by unfold decodeSyllable; rw [d, h0, h1, h2, h3])

theorem RoundTrip.iAbsdz (p : BitVec 2) (d : BitVec 8) (a : BitVec 8) (b : BitVec 8) : RoundTrip.Statement (.iAbsdz p d a b) := by
  obtain ⟨w, e, o, h0, h1, h2, h3⟩ := cut11 24 (by decide) p d a b
  have d : decodeI w = some (.iAbsdz (w.extractLsb' 24 2) (w.extractLsb' 16 8) (w.extractLsb' 8 8) (w.extractLsb' 0 8)) := by unfold decodeI; rw [o]; rfl
  exact RoundTrip.kernel (w := w) (by rw [e]; rfl) rfl (by unfold decodeSyllable; rw [d, h0, h1, h2, h3])

theorem RoundTrip.iAvgs (p : BitVec 2) (d : BitVec 8) (a : BitVec 8) (b : BitVec 8) : RoundTrip.Statement (.iAvgs p d a b) := by
  obtain ⟨w, e, o, h0, h1, h2, h3⟩ := cut11 25 (by decide) p d a b
  have d : decodeI w = some (.iAvgs (w.extractLsb' 24 2) (w.extractLsb' 16 8) (w.extractLsb' 8 8) (w.extractLsb' 0 8)) := by unfold decodeI; rw [o]; rfl
  exact RoundTrip.kernel (w := w) (by rw [e]; rfl) rfl (by unfold decodeSyllable; rw [d, h0, h1, h2, h3])

theorem RoundTrip.iAvgz (p : BitVec 2) (d : BitVec 8) (a : BitVec 8) (b : BitVec 8) : RoundTrip.Statement (.iAvgz p d a b) := by
  obtain ⟨w, e, o, h0, h1, h2, h3⟩ := cut11 26 (by decide) p d a b
  have d : decodeI w = some (.iAvgz (w.extractLsb' 24 2) (w.extractLsb' 16 8) (w.extractLsb' 8 8) (w.extractLsb' 0 8)) := by unfold decodeI; rw [o]; rfl
  exact RoundTrip.kernel (w := w) (by rw [e]; rfl) rfl (by unfold decodeSyllable; rw [d, h0, h1, h2, h3])

theorem RoundTrip.iAddx2 (p : BitVec 2) (d : BitVec 8) (a : BitVec 8) (b : BitVec 8) : RoundTrip.Statement (.iAddx2 p d a b) := by
  obtain ⟨w, e, o, h0, h1, h2, h3⟩ := cut11 27 (by decide) p d a b
  have d : decodeI w = some (.iAddx2 (w.extractLsb' 24 2) (w.extractLsb' 16 8) (w.extractLsb' 8 8) (w.extractLsb' 0 8)) := by unfold decodeI; rw [o]; rfl
  exact RoundTrip.kernel (w := w) (by rw [e]; rfl) rfl (by unfold decodeSyllable; rw [d, h0, h1, h2, h3])

theorem RoundTrip.iAddx4 (p : BitVec 2) (d : BitVec 8) (a : BitVec 8) (b : BitVec 8) : RoundTrip.Statement (.iAddx4 p d a b) := by
  obtain ⟨w, e, o, h0, h1, h2, h3⟩ := cut11 28 (by decide) p d a b
  have d : decodeI w = some (.iAddx4 (w.extractLsb' 24 2) (w.extractLsb' 16 8) (w.extractLsb' 8 8) (w.extractLsb' 0 8)) := by unfold decodeI; rw [o]; rfl
  exact RoundTrip.kernel (w := w) (by rw [e]; rfl) rfl (by unfold decodeSyllable; rw [d, h0, h1, h2, h3])

theorem RoundTrip.iAddx8 (p : BitVec 2) (d : BitVec 8) (a : BitVec 8) (b : BitVec 8) : RoundTrip.Statement (.iAddx8 p d a b) := by
  obtain ⟨w, e, o, h0, h1, h2, h3⟩ := cut11 29 (by decide) p d a b
  have d : decodeI w = some (.iAddx8 (w.extractLsb' 24 2) (w.extractLsb' 16 8) (w.extractLsb' 8 8) (w.extractLsb' 0 8)) := by unfold decodeI; rw [o]; rfl
  exact RoundTrip.kernel (w := w) (by rw [e]; rfl) rfl (by unfold decodeSyllable; rw [d, h0, h1, h2, h3])

theorem RoundTrip.iHadd (p : BitVec 2) (d : BitVec 8) (a : BitVec 8) (b : BitVec 8) : RoundTrip.Statement (.iHadd p d a b) := by
  obtain ⟨w, e, o, h0, h1, h2, h3⟩ := cut11 30 (by decide) p d a b
  have d : decodeI w = some (.iHadd (w.extractLsb' 24 2) (w.extractLsb' 16 8) (w.extractLsb' 8 8) (w.extractLsb' 0 8)) := by unfold decodeI; rw [o]; rfl
  exact RoundTrip.kernel (w := w) (by rw [e]; rfl) rfl (by unfold decodeSyllable; rw [d, h0, h1, h2, h3])

theorem RoundTrip.iHsub (p : BitVec 2) (d : BitVec 8) (a : BitVec 8) (b : BitVec 8) : RoundTrip.Statement (.iHsub p d a b) := by
  obtain ⟨w, e, o, h0, h1, h2, h3⟩ := cut11 31 (by decide) p d a b
  have d : decodeI w = some (.iHsub (w.extractLsb' 24 2) (w.extractLsb' 16 8) (w.extractLsb' 8 8) (w.extractLsb' 0 8)) := by unfold decodeI; rw [o]; rfl
  exact RoundTrip.kernel (w := w) (by rw [e]; rfl) rfl (by unfold decodeSyllable; rw [d, h0, h1, h2, h3])

theorem RoundTrip.iHaddss (p : BitVec 2) (d : BitVec 8) (a : BitVec 8) (b : BitVec 8) : RoundTrip.Statement (.iHaddss p d a b) := by
  obtain ⟨w, e, o, h0, h1, h2, h3⟩ := cut11 32 (by decide) p d a b
  have d : decodeI w = some (.iHaddss (w.extractLsb' 24 2) (w.extractLsb' 16 8) (w.extractLsb' 8 8) (w.extractLsb' 0 8)) := by unfold decodeI; rw [o]; rfl
  exact RoundTrip.kernel (w := w) (by rw [e]; rfl) rfl (by unfold decodeSyllable; rw [d, h0, h1, h2, h3])

theorem RoundTrip.iHaddsz (p : BitVec 2) (d : BitVec 8) (a : BitVec 8) (b : BitVec 8) : RoundTrip.Statement (.iHaddsz p d a b) := by
  obtain ⟨w, e, o, h0, h1, h2, h3⟩ := cut11 33 (by decide) p d a b
  have d : decodeI w = some (.iHaddsz (w.extractLsb' 24 2) (w.extractLsb' 16 8) (w.extractLsb' 8 8) (w.extractLsb' 0 8)) := by unfold decodeI; rw [o]; rfl
  exact RoundTrip.kernel (w := w) (by rw [e]; rfl) rfl (by unfold decodeSyllable; rw [d, h0, h1, h2, h3])

theorem RoundTrip.iHsubss (p : BitVec 2) (d : BitVec 8) (a : BitVec 8) (b : BitVec 8) : RoundTrip.Statement (.iHsubss p d a b) := by
  obtain ⟨w, e, o, h0, h1, h2, h3⟩ := cut11 34 (by decide) p d a b
  have d : decodeI w = some (.iHsubss (w.extractLsb' 24 2) (w.extractLsb' 16 8) (w.extractLsb' 8 8) (w.extractLsb' 0 8)) := by unfold decodeI; rw [o]; rfl
  exact RoundTrip.kernel (w := w) (by rw [e]; rfl) rfl (by unfold decodeSyllable; rw [d, h0, h1, h2, h3])

theorem RoundTrip.iHsubsz (p : BitVec 2) (d : BitVec 8) (a : BitVec 8) (b : BitVec 8) : RoundTrip.Statement (.iHsubsz p d a b) := by
  obtain ⟨w, e, o, h0, h1, h2, h3⟩ := cut11 35 (by decide) p d a b
  have d : decodeI w = some (.iHsubsz (w.extractLsb' 24 2) (w.extractLsb' 16 8) (w.extractLsb' 8 8) (w.extractLsb' 0 8)) := by unfold decodeI; rw [o]; rfl
  exact RoundTrip.kernel (w := w) (by rw [e]; rfl) rfl (by unfold decodeSyllable; rw [d, h0, h1, h2, h3])

theorem RoundTrip.iHmul (p : BitVec 2) (d : BitVec 8) (a : BitVec 8) (b : BitVec 8) : RoundTrip.Statement (.iHmul p d a b) := by
  obtain ⟨w, e, o, h0, h1, h2, h3⟩ := cut11 36 (by decide) p d a b
  have d : decodeI w = some (.iHmul (w.extractLsb' 24 2) (w.extractLsb' 16 8) (w.extractLsb' 8 8) (w.extractLsb' 0 8)) := by unfold decodeI; rw [o]; rfl
  exact RoundTrip.kernel (w := w) (by rw [e]; rfl) rfl (by unfold decodeSyllable; rw [d, h0, h1, h2, h3])

theorem RoundTrip.iHmins (p : BitVec 2) (d : BitVec 8) (a : BitVec 8) (b : BitVec 8) : RoundTrip.Statement (.iHmins p d a b) := by
  obtain ⟨w, e, o, h0, h1, h2, h3⟩ := cut11 37 (by decide) p d a b
  have d : decodeI w = some (.iHmins (w.extractLsb' 24 2) (w.extractLsb' 16 8) (w.extractLsb' 8 8) (w.extractLsb' 0 8)) := by unfold decodeI; rw [o]; rfl
  exact RoundTrip.kernel (w := w) (by rw [e]; rfl) rfl (by unfold decodeSyllable; rw [d, h0, h1, h2, h3])

theorem RoundTrip.iHmaxs (p : BitVec 2) (d : BitVec 8) (a : BitVec 8) (b : BitVec 8) : RoundTrip.Statement (.iHmaxs p d a b) := by
  obtain ⟨w, e, o, h0, h1, h2, h3⟩ := cut11 38 (by decide) p d a b
  have d : decodeI w = some (.iHmaxs (w.extractLsb' 24 2) (w.extractLsb' 16 8) (w.extractLsb' 8 8) (w.extractLsb' 0 8)) := by unfold decodeI; rw [o]; rfl
  exact RoundTrip.kernel (w := w) (by rw [e]; rfl) rfl (by unfold decodeSyllable; rw [d, h0, h1, h2, h3])

theorem RoundTrip.iHminz (p : BitVec 2) (d : BitVec 8) (a : BitVec 8) (b : BitVec 8) : RoundTrip.Statement (.iHminz p d a b) := by
  obtain ⟨w, e, o, h0, h1, h2, h3⟩ := cut11 39 (by decide) p d a b
  have d : decodeI w = some (.iHminz (w.extractLsb' 24 2) (w.extractLsb' 16 8) (w.extractLsb' 8 8) (w.extractLsb' 0 8)) := by unfold decodeI; rw [o]; rfl
  exact RoundTrip.kernel (w := w) (by rw [e]; rfl) rfl (by unfold decodeSyllable; rw [d, h0, h1, h2, h3])

theorem RoundTrip.iHmaxz (p : BitVec 2) (d : BitVec 8) (a : BitVec 8) (b : BitVec 8) : RoundTrip.Statement (.iHmaxz p d a b) := by
  obtain ⟨w, e, o, h0, h1, h2, h3⟩ := cut11 40 (by decide) p d a b
  have d : decodeI w = some (.iHmaxz (w.extractLsb' 24 2) (w.extractLsb' 16 8) (w.extractLsb' 8 8) (w.extractLsb' 0 8)) := by unfold decodeI; rw [o]; rfl
  exact RoundTrip.kernel (w := w) (by rw [e]; rfl) rfl (by unfold decodeSyllable; rw [d, h0, h1, h2, h3])

theorem RoundTrip.iHabsds (p : BitVec 2) (d : BitVec 8) (a : BitVec 8) (b : BitVec 8) : RoundTrip.Statement (.iHabsds p d a b) := by
  obtain ⟨w, e, o, h0, h1, h2, h3⟩ := cut11 41 (by decide) p d a b
  have d : decodeI w = some (.iHabsds (w.extractLsb' 24 2) (w.extractLsb' 16 8) (w.extractLsb' 8 8) (w.extractLsb' 0 8)) := by unfold decodeI; rw [o]; rfl
  exact RoundTrip.kernel (w := w) (by rw [e]; rfl) rfl (by unfold decodeSyllable; rw [d, h0, h1, h2, h3])

theorem RoundTrip.iHabsdz (p : BitVec 2) (d : BitVec 8) (a : BitVec 8) (b : BitVec 8) : RoundTrip.Statement (.iHabsdz p d a b) := by
  obtain ⟨w, e, o, h0, h1, h2, h3⟩ := cut11 42 (by decide) p d a b
  have d : decodeI w = some (.iHabsdz (w.extractLsb' 24 2) (w.extractLsb' 16 8) (w.extractLsb' 8 8) (w.extractLsb' 0 8)) := by unfold decodeI; rw [o]; rfl
  exact RoundTrip.kernel (w := w) (by rw [e]; rfl) rfl (by unfold decodeSyllable; rw [d, h0, h1, h2, h3])

theorem RoundTrip.iHavgs (p : BitVec 2) (d : BitVec 8) (a : BitVec 8) (b : BitVec 8) : RoundTrip.Statement (.iHavgs p d a b) := by
  obtain ⟨w, e, o, h0, h1, h2, h3⟩ := cut11 43 (by decide) p d a b
  have d : decodeI w = some (.iHavgs (w.extractLsb' 24 2) (w.extractLsb' 16 8) (w.extractLsb' 8 8) (w.extractLsb' 0 8)) := by unfold decodeI; rw [o]; rfl
  exact RoundTrip.kernel (w := w) (by rw [e]; rfl) rfl (by unfold decodeSyllable; rw [d, h0, h1, h2, h3])

theorem RoundTrip.iHavgz (p : BitVec 2) (d : BitVec 8) (a : BitVec 8) (b : BitVec 8) : RoundTrip.Statement (.iHavgz p d a b) := by
  obtain ⟨w, e, o, h0, h1, h2, h3⟩ := cut11 44 (by decide) p d a b
  have d : decodeI w = some (.iHavgz (w.extractLsb' 24 2) (w.extractLsb' 16 8) (w.extractLsb' 8 8) (w.extractLsb' 0 8)) := by unfold decodeI; rw [o]; rfl
  exact RoundTrip.kernel (w := w) (by rw [e]; rfl) rfl (by unfold decodeSyllable; rw [d, h0, h1, h2, h3])

theorem RoundTrip.iFext (p : BitVec 2) (d : BitVec 8) (a : BitVec 8) (b : BitVec 8) : RoundTrip.Statement (.iFext p d a b) := by
  obtain ⟨w, e, o, h0, h1, h2, h3⟩ := cut11 45 (by decide) p d a b
  have d : decodeI w = some (.iFext (w.extractLsb' 24 2) (w.extractLsb' 16 8) (w.extractLsb' 8 8) (w.extractLsb' 0 8)) := by unfold decodeI; rw [o]; rfl
  exact RoundTrip.kernel (w := w) (by rw [e]; rfl) rfl (by unfold decodeSyllable; rw [d, h0, h1, h2, h3])

theorem RoundTrip.iFexts (p : BitVec 2) (d : BitVec 8) (a : BitVec 8) (b : BitVec 8) : RoundTrip.Statement (.iFexts p d a b) := by
  obtain ⟨w, e, o, h0, h1, h2, h3⟩ := cut11 46 (by decide) p d a b
  have d : decodeI w = some (.iFexts (w.extractLsb' 24 2) (w.extractLsb' 16 8) (w.extractLsb' 8 8) (w.extractLsb' 0 8)) := by unfold decodeI; rw [o]; rfl
  exact RoundTrip.kernel (w := w) (by rw [e]; rfl) rfl (by unfold decodeSyllable; rw [d, h0, h1, h2, h3])

theorem RoundTrip.iCeq (p : BitVec 2) (d : BitVec 8) (a : BitVec 8) (b : BitVec 8) : RoundTrip.Statement (.iCeq p d a b) := by
  obtain ⟨w, e, o, h0, h1, h2, h3⟩ := cut11 47 (by decide) p d a b
  have d : decodeI w = some (.iCeq (w.extractLsb' 24 2) (w.extractLsb' 16 8) (w.extractLsb' 8 8) (w.extractLsb' 0 8)) := by unfold decodeI; rw [o]; rfl
  exact RoundTrip.kernel (w := w) (by rw [e]; rfl) rfl (by unfold decodeSyllable; rw [d, h0, h1, h2, h3])

theorem RoundTrip.iCne (p : BitVec 2) (d : BitVec 8) (a : BitVec 8) (b : BitVec 8) : RoundTrip.Statement (.iCne p d a b) := by
  obtain ⟨w, e, o, h0, h1, h2, h3⟩ := cut11 48 (by decide) p d a b
  have d : decodeI w = some (.iCne (w.extractLsb' 24 2) (w.extractLsb' 16 8) (w.extractLsb' 8 8) (w.extractLsb' 0 8)) := by unfold decodeI; rw [o]; rfl
  exact RoundTrip.kernel (w := w) (by rw [e]; rfl) rfl (by unfold decodeSyllable; rw [d, h0, h1, h2, h3])

theorem RoundTrip.iClts (p : BitVec 2) (d : BitVec 8) (a : BitVec 8) (b : BitVec 8) : RoundTrip.Statement (.iClts p d a b) := by
  obtain ⟨w, e, o, h0, h1, h2, h3⟩ := cut11 49 (by decide) p d a b
  have d : decodeI w = some (.iClts (w.extractLsb' 24 2) (w.extractLsb' 16 8) (w.extractLsb' 8 8) (w.extractLsb' 0 8)) := by unfold decodeI; rw [o]; rfl
  exact RoundTrip.kernel (w := w) (by rw [e]; rfl) rfl (by unfold decodeSyllable; rw [d, h0, h1, h2, h3])

theorem RoundTrip.iCltz (p : BitVec 2) (d : BitVec 8) (a : BitVec 8) (b : BitVec 8) : RoundTrip.Statement (.iCltz p d a b) := by
  obtain ⟨w, e, o, h0, h1, h2, h3⟩ := cut11 50 (by decide) p d a b
  have d : decodeI w = some (.iCltz (w.extractLsb' 24 2) (w.extractLsb' 16 8) (w.extractLsb' 8 8) (w.extractLsb' 0 8)) := by unfold decodeI; rw [o]; rfl
  exact RoundTrip.kernel (w := w) (by rw [e]; rfl) rfl (by unfold decodeSyllable; rw [d, h0, h1, h2, h3])

theorem RoundTrip.iCles (p : BitVec 2) (d : BitVec 8) (a : BitVec 8) (b : BitVec 8) : RoundTrip.Statement (.iCles p d a b) := by
  obtain ⟨w, e, o, h0, h1, h2, h3⟩ := cut11 51 (by decide) p d a b
  have d : decodeI w = some (.iCles (w.extractLsb' 24 2) (w.extractLsb' 16 8) (w.extractLsb' 8 8) (w.extractLsb' 0 8)) := by unfold decodeI; rw [o]; rfl
  exact RoundTrip.kernel (w := w) (by rw [e]; rfl) rfl (by unfold decodeSyllable; rw [d, h0, h1, h2, h3])

theorem RoundTrip.iClez (p : BitVec 2) (d : BitVec 8) (a : BitVec 8) (b : BitVec 8) : RoundTrip.Statement (.iClez p d a b) := by
  obtain ⟨w, e, o, h0, h1, h2, h3⟩ := cut11 52 (by decide) p d a b
  have d : decodeI w = some (.iClez (w.extractLsb' 24 2) (w.extractLsb' 16 8) (w.extractLsb' 8 8) (w.extractLsb' 0 8)) := by unfold decodeI; rw [o]; rfl
  exact RoundTrip.kernel (w := w) (by rw [e]; rfl) rfl (by unfold decodeSyllable; rw [d, h0, h1, h2, h3])

theorem RoundTrip.iPand (p : BitVec 2) (d : BitVec 8) (a : BitVec 8) (b : BitVec 8) : RoundTrip.Statement (.iPand p d a b) := by
  obtain ⟨w, e, o, h0, h1, h2, h3⟩ := cut11 53 (by decide) p d a b
  have d : decodeI w = some (.iPand (w.extractLsb' 24 2) (w.extractLsb' 16 8) (w.extractLsb' 8 8) (w.extractLsb' 0 8)) := by unfold decodeI; rw [o]; rfl
  exact RoundTrip.kernel (w := w) (by rw [e]; rfl) rfl (by unfold decodeSyllable; rw [d, h0, h1, h2, h3])

theorem RoundTrip.iPor (p : BitVec 2) (d : BitVec 8) (a : BitVec 8) (b : BitVec 8) : RoundTrip.Statement (.iPor p d a b) := by
  obtain ⟨w, e, o, h0, h1, h2, h3⟩ := cut11 54 (by decide) p d a b
  have d : decodeI w = some (.iPor (w.extractLsb' 24 2) (w.extractLsb' 16 8) (w.extractLsb' 8 8) (w.extractLsb' 0 8)) := by unfold decodeI; rw [o]; rfl
  exact RoundTrip.kernel (w := w) (by rw [e]; rfl) rfl (by unfold decodeSyllable; rw [d, h0, h1, h2, h3])

theorem RoundTrip.iPxor (p : BitVec 2) (d : BitVec 8) (a : BitVec 8) (b : BitVec 8) : RoundTrip.Statement (.iPxor p d a b) := by
  obtain ⟨w, e, o, h0, h1, h2, h3⟩ := cut11 55 (by decide) p d a b
  have d : decodeI w = some (.iPxor (w.extractLsb' 24 2) (w.extractLsb' 16 8) (w.extractLsb' 8 8) (w.extractLsb' 0 8)) := by unfold decodeI; rw [o]; rfl
  exact RoundTrip.kernel (w := w) (by rw [e]; rfl) rfl (by unfold decodeSyllable; rw [d, h0, h1, h2, h3])

theorem RoundTrip.iSel (p : BitVec 2) (d : BitVec 8) (a : BitVec 8) (b : BitVec 8) : RoundTrip.Statement (.iSel p d a b) := by
  obtain ⟨w, e, o, h0, h1, h2, h3⟩ := cut11 56 (by decide) p d a b
  have d : decodeI w = some (.iSel (w.extractLsb' 24 2) (w.extractLsb' 16 8) (w.extractLsb' 8 8) (w.extractLsb' 0 8)) := by unfold decodeI; rw [o]; rfl
  exact RoundTrip.kernel (w := w) (by rw [e]; rfl) rfl (by unfold decodeSyllable; rw [d, h0, h1, h2, h3])

theorem RoundTrip.iPcnt (p : BitVec 2) (d : BitVec 8) (a : BitVec 8) : RoundTrip.Statement (.iPcnt p d a) := by
  obtain ⟨w, e, o, h0, h1, h2, z0⟩ := cut12 57 (by decide) p d a
  have d : decodeI w = if w.extractLsb' 0 8 == 0 then some (.iPcnt (w.extractLsb' 24 2) (w.extractLsb' 16 8) (w.extractLsb' 8 8)) else none := by unfold decodeI; rw [o]; rfl
  exact RoundTrip.kernel (w := w) (by rw [e]; rfl) rfl (by unfold decodeSyllable; rw [d, z0, h0, h1, h2]; rfl)

theorem RoundTrip.iClz (p : BitVec 2) (d : BitVec 8) (a : BitVec 8) : RoundTrip.Statement (.iClz p d a) := by
  obtain ⟨w, e, o, h0, h1, h2, z0⟩ := cut12 58 (by decide) p d a
  have d : decodeI w = if w.extractLsb' 0 8 == 0 then some (.iClz (w.extractLsb' 24 2) (w.extractLsb' 16 8) (w.extractLsb' 8 8)) else none := by unfold decodeI; rw [o]; rfl
  exact RoundTrip.kernel (w := w) (by rw [e]; rfl) rfl (by unfold decodeSyllable; rw [d, z0, h0, h1, h2]; rfl)

theorem RoundTrip.iPget (p : BitVec 2) (d : BitVec 8) (a : BitVec 8) : RoundTrip.Statement (.iPget p d a) := by
  obtain ⟨w, e, o, h0, h1, h2, z0⟩ := cut12 59 (by decide) p d a
  have d : decodeI w = if w.extractLsb' 0 8 == 0 then some (.iPget (w.extractLsb' 24 2) (w.extractLsb' 16 8) (w.extractLsb' 8 8)) else none := by unfold decodeI; rw [o]; rfl
  exact RoundTrip.kernel (w := w) (by rw [e]; rfl) rfl (by unfold decodeSyllable; rw [d, z0, h0, h1, h2]; rfl)

theorem RoundTrip.iMov (p : BitVec 2) (d : BitVec 8) (a : BitVec 8) : RoundTrip.Statement (.iMov p d a) := by
  obtain ⟨w, e, o, h0, h1, h2, z0⟩ := cut12 60 (by decide) p d a
  have d : decodeI w = if w.extractLsb' 0 8 == 0 then some (.iMov (w.extractLsb' 24 2) (w.extractLsb' 16 8) (w.extractLsb' 8 8)) else none := by unfold decodeI; rw [o]; rfl
  exact RoundTrip.kernel (w := w) (by rw [e]; rfl) rfl (by unfold decodeSyllable; rw [d, z0, h0, h1, h2]; rfl)

theorem RoundTrip.fFadd (p : BitVec 2) (d : BitVec 8) (a : BitVec 8) (b : BitVec 8) : RoundTrip.Statement (.fFadd p d a b) := by
  obtain ⟨w, e, o, h0, h1, h2, h3⟩ := cut11 1 (by decide) p d a b
  have d : decodeF w = some (.fFadd (w.extractLsb' 24 2) (w.extractLsb' 16 8) (w.extractLsb' 8 8) (w.extractLsb' 0 8)) := by unfold decodeF; rw [o]; rfl
  exact RoundTrip.kernel (w := w) (by rw [e]; rfl) rfl (by unfold decodeSyllable; rw [d, h0, h1, h2, h3])

theorem RoundTrip.fFsub (p : BitVec 2) (d : BitVec 8) (a : BitVec 8) (b : BitVec 8) : RoundTrip.Statement (.fFsub p d a b) := by
  obtain ⟨w, e, o, h0, h1, h2, h3⟩ := cut11 2 (by decide) p d a b
  have d : decodeF w = some (.fFsub (w.extractLsb' 24 2) (w.extractLsb' 16 8) (w.extractLsb' 8 8) (w.extractLsb' 0 8)) := by unfold decodeF; rw [o]; rfl
  exact RoundTrip.kernel (w := w) (by rw [e]; rfl) rfl (by unfold decodeSyllable; rw [d, h0, h1, h2, h3])

theorem RoundTrip.fFmul (p : BitVec 2) (d : BitVec 8) (a : BitVec 8) (b : BitVec 8) : RoundTrip.Statement (.fFmul p d a b) := by
  obtain ⟨w, e, o, h0, h1, h2, h3⟩ := cut11 3 (by decide) p d a b
  have d : decodeF w = some (.fFmul (w.extractLsb' 24 2) (w.extractLsb' 16 8) (w.extractLsb' 8 8) (w.extractLsb' 0 8)) := by unfold decodeF; rw [o]; rfl
  exact RoundTrip.kernel (w := w) (by rw [e]; rfl) rfl (by unfold decodeSyllable; rw [d, h0, h1, h2, h3])

theorem RoundTrip.fFma (p : BitVec 2) (d : BitVec 8) (a : BitVec 8) (b : BitVec 8) : RoundTrip.Statement (.fFma p d a b) := by
  obtain ⟨w, e, o, h0, h1, h2, h3⟩ := cut11 4 (by decide) p d a b
  have d : decodeF w = some (.fFma (w.extractLsb' 24 2) (w.extractLsb' 16 8) (w.extractLsb' 8 8) (w.extractLsb' 0 8)) := by unfold decodeF; rw [o]; rfl
  exact RoundTrip.kernel (w := w) (by rw [e]; rfl) rfl (by unfold decodeSyllable; rw [d, h0, h1, h2, h3])

theorem RoundTrip.fFnma (p : BitVec 2) (d : BitVec 8) (a : BitVec 8) (b : BitVec 8) : RoundTrip.Statement (.fFnma p d a b) := by
  obtain ⟨w, e, o, h0, h1, h2, h3⟩ := cut11 5 (by decide) p d a b
  have d : decodeF w = some (.fFnma (w.extractLsb' 24 2) (w.extractLsb' 16 8) (w.extractLsb' 8 8) (w.extractLsb' 0 8)) := by unfold decodeF; rw [o]; rfl
  exact RoundTrip.kernel (w := w) (by rw [e]; rfl) rfl (by unfold decodeSyllable; rw [d, h0, h1, h2, h3])

theorem RoundTrip.fFmin (p : BitVec 2) (d : BitVec 8) (a : BitVec 8) (b : BitVec 8) : RoundTrip.Statement (.fFmin p d a b) := by
  obtain ⟨w, e, o, h0, h1, h2, h3⟩ := cut11 6 (by decide) p d a b
  have d : decodeF w = some (.fFmin (w.extractLsb' 24 2) (w.extractLsb' 16 8) (w.extractLsb' 8 8) (w.extractLsb' 0 8)) := by unfold decodeF; rw [o]; rfl
  exact RoundTrip.kernel (w := w) (by rw [e]; rfl) rfl (by unfold decodeSyllable; rw [d, h0, h1, h2, h3])

theorem RoundTrip.fFmax (p : BitVec 2) (d : BitVec 8) (a : BitVec 8) (b : BitVec 8) : RoundTrip.Statement (.fFmax p d a b) := by
  obtain ⟨w, e, o, h0, h1, h2, h3⟩ := cut11 7 (by decide) p d a b
  have d : decodeF w = some (.fFmax (w.extractLsb' 24 2) (w.extractLsb' 16 8) (w.extractLsb' 8 8) (w.extractLsb' 0 8)) := by unfold decodeF; rw [o]; rfl
  exact RoundTrip.kernel (w := w) (by rw [e]; rfl) rfl (by unfold decodeSyllable; rw [d, h0, h1, h2, h3])

theorem RoundTrip.fFabs (p : BitVec 2) (d : BitVec 8) (a : BitVec 8) : RoundTrip.Statement (.fFabs p d a) := by
  obtain ⟨w, e, o, h0, h1, h2, z0⟩ := cut12 8 (by decide) p d a
  have d : decodeF w = if w.extractLsb' 0 8 == 0 then some (.fFabs (w.extractLsb' 24 2) (w.extractLsb' 16 8) (w.extractLsb' 8 8)) else none := by unfold decodeF; rw [o]; rfl
  exact RoundTrip.kernel (w := w) (by rw [e]; rfl) rfl (by unfold decodeSyllable; rw [d, z0, h0, h1, h2]; rfl)

theorem RoundTrip.fFneg (p : BitVec 2) (d : BitVec 8) (a : BitVec 8) : RoundTrip.Statement (.fFneg p d a) := by
  obtain ⟨w, e, o, h0, h1, h2, z0⟩ := cut12 9 (by decide) p d a
  have d : decodeF w = if w.extractLsb' 0 8 == 0 then some (.fFneg (w.extractLsb' 24 2) (w.extractLsb' 16 8) (w.extractLsb' 8 8)) else none := by unfold decodeF; rw [o]; rfl
  exact RoundTrip.kernel (w := w) (by rw [e]; rfl) rfl (by unfold decodeSyllable; rw [d, z0, h0, h1, h2]; rfl)

theorem RoundTrip.fFcpsgn (p : BitVec 2) (d : BitVec 8) (a : BitVec 8) (b : BitVec 8) : RoundTrip.Statement (.fFcpsgn p d a b) := by
  obtain ⟨w, e, o, h0, h1, h2, h3⟩ := cut11 10 (by decide) p d a b
  have d : decodeF w = some (.fFcpsgn (w.extractLsb' 24 2) (w.extractLsb' 16 8) (w.extractLsb' 8 8) (w.extractLsb' 0 8)) := by unfold decodeF; rw [o]; rfl
  exact RoundTrip.kernel (w := w) (by rw [e]; rfl) rfl (by unfold decodeSyllable; rw [d, h0, h1, h2, h3])

theorem RoundTrip.fFceq (p : BitVec 2) (d : BitVec 8) (a : BitVec 8) (b : BitVec 8) : RoundTrip.Statement (.fFceq p d a b) := by
  obtain ⟨w, e, o, h0, h1, h2, h3⟩ := cut11 11 (by decide) p d a b
  have d : decodeF w = some (.fFceq (w.extractLsb' 24 2) (w.extractLsb' 16 8) (w.extractLsb' 8 8) (w.extractLsb' 0 8)) := by unfold decodeF; rw [o]; rfl
  exact RoundTrip.kernel (w := w) (by rw [e]; rfl) rfl (by unfold decodeSyllable; rw [d, h0, h1, h2, h3])

theorem RoundTrip.fFclt (p : BitVec 2) (d : BitVec 8) (a : BitVec 8) (b : BitVec 8) : RoundTrip.Statement (.fFclt p d a b) := by
  obtain ⟨w, e, o, h0, h1, h2, h3⟩ := cut11 12 (by decide) p d a b
  have d : decodeF w = some (.fFclt (w.extractLsb' 24 2) (w.extractLsb' 16 8) (w.extractLsb' 8 8) (w.extractLsb' 0 8)) := by unfold decodeF; rw [o]; rfl
  exact RoundTrip.kernel (w := w) (by rw [e]; rfl) rfl (by unfold decodeSyllable; rw [d, h0, h1, h2, h3])

theorem RoundTrip.fFcle (p : BitVec 2) (d : BitVec 8) (a : BitVec 8) (b : BitVec 8) : RoundTrip.Statement (.fFcle p d a b) := by
  obtain ⟨w, e, o, h0, h1, h2, h3⟩ := cut11 13 (by decide) p d a b
  have d : decodeF w = some (.fFcle (w.extractLsb' 24 2) (w.extractLsb' 16 8) (w.extractLsb' 8 8) (w.extractLsb' 0 8)) := by unfold decodeF; rw [o]; rfl
  exact RoundTrip.kernel (w := w) (by rw [e]; rfl) rfl (by unfold decodeSyllable; rw [d, h0, h1, h2, h3])

theorem RoundTrip.fFcun (p : BitVec 2) (d : BitVec 8) (a : BitVec 8) (b : BitVec 8) : RoundTrip.Statement (.fFcun p d a b) := by
  obtain ⟨w, e, o, h0, h1, h2, h3⟩ := cut11 14 (by decide) p d a b
  have d : decodeF w = some (.fFcun (w.extractLsb' 24 2) (w.extractLsb' 16 8) (w.extractLsb' 8 8) (w.extractLsb' 0 8)) := by unfold decodeF; rw [o]; rfl
  exact RoundTrip.kernel (w := w) (by rw [e]; rfl) rfl (by unfold decodeSyllable; rw [d, h0, h1, h2, h3])

theorem RoundTrip.fFrcp (p : BitVec 2) (d : BitVec 8) (a : BitVec 8) : RoundTrip.Statement (.fFrcp p d a) := by
  obtain ⟨w, e, o, h0, h1, h2, z0⟩ := cut12 15 (by decide) p d a
  have d : decodeF w = if w.extractLsb' 0 8 == 0 then some (.fFrcp (w.extractLsb' 24 2) (w.extractLsb' 16 8) (w.extractLsb' 8 8)) else none := by unfold decodeF; rw [o]; rfl
  exact RoundTrip.kernel (w := w) (by rw [e]; rfl) rfl (by unfold decodeSyllable; rw [d, z0, h0, h1, h2]; rfl)

theorem RoundTrip.fFrsq (p : BitVec 2) (d : BitVec 8) (a : BitVec 8) : RoundTrip.Statement (.fFrsq p d a) := by
  obtain ⟨w, e, o, h0, h1, h2, z0⟩ := cut12 16 (by decide) p d a
  have d : decodeF w = if w.extractLsb' 0 8 == 0 then some (.fFrsq (w.extractLsb' 24 2) (w.extractLsb' 16 8) (w.extractLsb' 8 8)) else none := by unfold decodeF; rw [o]; rfl
  exact RoundTrip.kernel (w := w) (by rw [e]; rfl) rfl (by unfold decodeSyllable; rw [d, z0, h0, h1, h2]; rfl)

theorem RoundTrip.fFexp2 (p : BitVec 2) (d : BitVec 8) (a : BitVec 8) : RoundTrip.Statement (.fFexp2 p d a) := by
  obtain ⟨w, e, o, h0, h1, h2, z0⟩ := cut12 17 (by decide) p d a
  have d : decodeF w = if w.extractLsb' 0 8 == 0 then some (.fFexp2 (w.extractLsb' 24 2) (w.extractLsb' 16 8) (w.extractLsb' 8 8)) else none := by unfold decodeF; rw [o]; rfl
  exact RoundTrip.kernel (w := w) (by rw [e]; rfl) rfl (by unfold decodeSyllable; rw [d, z0, h0, h1, h2]; rfl)

theorem RoundTrip.fFlog2 (p : BitVec 2) (d : BitVec 8) (a : BitVec 8) : RoundTrip.Statement (.fFlog2 p d a) := by
  obtain ⟨w, e, o, h0, h1, h2, z0⟩ := cut12 18 (by decide) p d a
  have d : decodeF w = if w.extractLsb' 0 8 == 0 then some (.fFlog2 (w.extractLsb' 24 2) (w.extractLsb' 16 8) (w.extractLsb' 8 8)) else none := by unfold decodeF; rw [o]; rfl
  exact RoundTrip.kernel (w := w) (by rw [e]; rfl) rfl (by unfold decodeSyllable; rw [d, z0, h0, h1, h2]; rfl)

theorem RoundTrip.fBadd (p : BitVec 2) (d : BitVec 8) (a : BitVec 8) (b : BitVec 8) : RoundTrip.Statement (.fBadd p d a b) := by
  obtain ⟨w, e, o, h0, h1, h2, h3⟩ := cut11 19 (by decide) p d a b
  have d : decodeF w = some (.fBadd (w.extractLsb' 24 2) (w.extractLsb' 16 8) (w.extractLsb' 8 8) (w.extractLsb' 0 8)) := by unfold decodeF; rw [o]; rfl
  exact RoundTrip.kernel (w := w) (by rw [e]; rfl) rfl (by unfold decodeSyllable; rw [d, h0, h1, h2, h3])

theorem RoundTrip.fBsub (p : BitVec 2) (d : BitVec 8) (a : BitVec 8) (b : BitVec 8) : RoundTrip.Statement (.fBsub p d a b) := by
  obtain ⟨w, e, o, h0, h1, h2, h3⟩ := cut11 20 (by decide) p d a b
  have d : decodeF w = some (.fBsub (w.extractLsb' 24 2) (w.extractLsb' 16 8) (w.extractLsb' 8 8) (w.extractLsb' 0 8)) := by unfold decodeF; rw [o]; rfl
  exact RoundTrip.kernel (w := w) (by rw [e]; rfl) rfl (by unfold decodeSyllable; rw [d, h0, h1, h2, h3])

theorem RoundTrip.fBmul (p : BitVec 2) (d : BitVec 8) (a : BitVec 8) (b : BitVec 8) : RoundTrip.Statement (.fBmul p d a b) := by
  obtain ⟨w, e, o, h0, h1, h2, h3⟩ := cut11 21 (by decide) p d a b
  have d : decodeF w = some (.fBmul (w.extractLsb' 24 2) (w.extractLsb' 16 8) (w.extractLsb' 8 8) (w.extractLsb' 0 8)) := by unfold decodeF; rw [o]; rfl
  exact RoundTrip.kernel (w := w) (by rw [e]; rfl) rfl (by unfold decodeSyllable; rw [d, h0, h1, h2, h3])

theorem RoundTrip.fBfma (p : BitVec 2) (d : BitVec 8) (a : BitVec 8) (b : BitVec 8) : RoundTrip.Statement (.fBfma p d a b) := by
  obtain ⟨w, e, o, h0, h1, h2, h3⟩ := cut11 22 (by decide) p d a b
  have d : decodeF w = some (.fBfma (w.extractLsb' 24 2) (w.extractLsb' 16 8) (w.extractLsb' 8 8) (w.extractLsb' 0 8)) := by unfold decodeF; rw [o]; rfl
  exact RoundTrip.kernel (w := w) (by rw [e]; rfl) rfl (by unfold decodeSyllable; rw [d, h0, h1, h2, h3])

theorem RoundTrip.fBmin (p : BitVec 2) (d : BitVec 8) (a : BitVec 8) (b : BitVec 8) : RoundTrip.Statement (.fBmin p d a b) := by
  obtain ⟨w, e, o, h0, h1, h2, h3⟩ := cut11 23 (by decide) p d a b
  have d : decodeF w = some (.fBmin (w.extractLsb' 24 2) (w.extractLsb' 16 8) (w.extractLsb' 8 8) (w.extractLsb' 0 8)) := by unfold decodeF; rw [o]; rfl
  exact RoundTrip.kernel (w := w) (by rw [e]; rfl) rfl (by unfold decodeSyllable; rw [d, h0, h1, h2, h3])

theorem RoundTrip.fBmax (p : BitVec 2) (d : BitVec 8) (a : BitVec 8) (b : BitVec 8) : RoundTrip.Statement (.fBmax p d a b) := by
  obtain ⟨w, e, o, h0, h1, h2, h3⟩ := cut11 24 (by decide) p d a b
  have d : decodeF w = some (.fBmax (w.extractLsb' 24 2) (w.extractLsb' 16 8) (w.extractLsb' 8 8) (w.extractLsb' 0 8)) := by unfold decodeF; rw [o]; rfl
  exact RoundTrip.kernel (w := w) (by rw [e]; rfl) rfl (by unfold decodeSyllable; rw [d, h0, h1, h2, h3])

theorem RoundTrip.fFdot2 (p : BitVec 2) (d : BitVec 8) (a : BitVec 8) (b : BitVec 8) : RoundTrip.Statement (.fFdot2 p d a b) := by
  obtain ⟨w, e, o, h0, h1, h2, h3⟩ := cut11 25 (by decide) p d a b
  have d : decodeF w = some (.fFdot2 (w.extractLsb' 24 2) (w.extractLsb' 16 8) (w.extractLsb' 8 8) (w.extractLsb' 0 8)) := by unfold decodeF; rw [o]; rfl
  exact RoundTrip.kernel (w := w) (by rw [e]; rfl) rfl (by unfold decodeSyllable; rw [d, h0, h1, h2, h3])

theorem RoundTrip.fFclamp (p : BitVec 2) (d : BitVec 8) (a : BitVec 8) (b : BitVec 8) : RoundTrip.Statement (.fFclamp p d a b) := by
  obtain ⟨w, e, o, h0, h1, h2, h3⟩ := cut11 26 (by decide) p d a b
  have d : decodeF w = some (.fFclamp (w.extractLsb' 24 2) (w.extractLsb' 16 8) (w.extractLsb' 8 8) (w.extractLsb' 0 8)) := by unfold decodeF; rw [o]; rfl
  exact RoundTrip.kernel (w := w) (by rw [e]; rfl) rfl (by unfold decodeSyllable; rw [d, h0, h1, h2, h3])

theorem RoundTrip.fFsat (p : BitVec 2) (d : BitVec 8) (a : BitVec 8) : RoundTrip.Statement (.fFsat p d a) := by
  obtain ⟨w, e, o, h0, h1, h2, z0⟩ := cut12 27 (by decide) p d a
  have d : decodeF w = if w.extractLsb' 0 8 == 0 then some (.fFsat (w.extractLsb' 24 2) (w.extractLsb' 16 8) (w.extractLsb' 8 8)) else none := by unfold decodeF; rw [o]; rfl
  exact RoundTrip.kernel (w := w) (by rw [e]; rfl) rfl (by unfold decodeSyllable; rw [d, z0, h0, h1, h2]; rfl)

theorem RoundTrip.fFrnd (p : BitVec 2) (d : BitVec 8) (a : BitVec 8) : RoundTrip.Statement (.fFrnd p d a) := by
  obtain ⟨w, e, o, h0, h1, h2, z0⟩ := cut12 28 (by decide) p d a
  have d : decodeF w = if w.extractLsb' 0 8 == 0 then some (.fFrnd (w.extractLsb' 24 2) (w.extractLsb' 16 8) (w.extractLsb' 8 8)) else none := by unfold decodeF; rw [o]; rfl
  exact RoundTrip.kernel (w := w) (by rw [e]; rfl) rfl (by unfold decodeSyllable; rw [d, z0, h0, h1, h2]; rfl)

theorem RoundTrip.fFscl (p : BitVec 2) (d : BitVec 8) (a : BitVec 8) (b : BitVec 8) : RoundTrip.Statement (.fFscl p d a b) := by
  obtain ⟨w, e, o, h0, h1, h2, h3⟩ := cut11 29 (by decide) p d a b
  have d : decodeF w = some (.fFscl (w.extractLsb' 24 2) (w.extractLsb' 16 8) (w.extractLsb' 8 8) (w.extractLsb' 0 8)) := by unfold decodeF; rw [o]; rfl
  exact RoundTrip.kernel (w := w) (by rw [e]; rfl) rfl (by unfold decodeSyllable; rw [d, h0, h1, h2, h3])

theorem RoundTrip.fCvtsf (p : BitVec 2) (d : BitVec 8) (a : BitVec 8) : RoundTrip.Statement (.fCvtsf p d a) := by
  obtain ⟨w, e, o, h0, h1, h2, z0⟩ := cut12 30 (by decide) p d a
  have d : decodeF w = if w.extractLsb' 0 8 == 0 then some (.fCvtsf (w.extractLsb' 24 2) (w.extractLsb' 16 8) (w.extractLsb' 8 8)) else none := by unfold decodeF; rw [o]; rfl
  exact RoundTrip.kernel (w := w) (by rw [e]; rfl) rfl (by unfold decodeSyllable; rw [d, z0, h0, h1, h2]; rfl)

theorem RoundTrip.fCvtzf (p : BitVec 2) (d : BitVec 8) (a : BitVec 8) : RoundTrip.Statement (.fCvtzf p d a) := by
  obtain ⟨w, e, o, h0, h1, h2, z0⟩ := cut12 31 (by decide) p d a
  have d : decodeF w = if w.extractLsb' 0 8 == 0 then some (.fCvtzf (w.extractLsb' 24 2) (w.extractLsb' 16 8) (w.extractLsb' 8 8)) else none := by unfold decodeF; rw [o]; rfl
  exact RoundTrip.kernel (w := w) (by rw [e]; rfl) rfl (by unfold decodeSyllable; rw [d, z0, h0, h1, h2]; rfl)

theorem RoundTrip.fCvtfs (p : BitVec 2) (d : BitVec 8) (a : BitVec 8) : RoundTrip.Statement (.fCvtfs p d a) := by
  obtain ⟨w, e, o, h0, h1, h2, z0⟩ := cut12 32 (by decide) p d a
  have d : decodeF w = if w.extractLsb' 0 8 == 0 then some (.fCvtfs (w.extractLsb' 24 2) (w.extractLsb' 16 8) (w.extractLsb' 8 8)) else none := by unfold decodeF; rw [o]; rfl
  exact RoundTrip.kernel (w := w) (by rw [e]; rfl) rfl (by unfold decodeSyllable; rw [d, z0, h0, h1, h2]; rfl)

theorem RoundTrip.fCvtfz (p : BitVec 2) (d : BitVec 8) (a : BitVec 8) : RoundTrip.Statement (.fCvtfz p d a) := by
  obtain ⟨w, e, o, h0, h1, h2, z0⟩ := cut12 33 (by decide) p d a
  have d : decodeF w = if w.extractLsb' 0 8 == 0 then some (.fCvtfz (w.extractLsb' 24 2) (w.extractLsb' 16 8) (w.extractLsb' 8 8)) else none := by unfold decodeF; rw [o]; rfl
  exact RoundTrip.kernel (w := w) (by rw [e]; rfl) rfl (by unfold decodeSyllable; rw [d, z0, h0, h1, h2]; rfl)

theorem RoundTrip.fCvtfb (p : BitVec 2) (d : BitVec 8) (a : BitVec 8) (b : BitVec 8) : RoundTrip.Statement (.fCvtfb p d a b) := by
  obtain ⟨w, e, o, h0, h1, h2, h3⟩ := cut11 34 (by decide) p d a b
  have d : decodeF w = some (.fCvtfb (w.extractLsb' 24 2) (w.extractLsb' 16 8) (w.extractLsb' 8 8) (w.extractLsb' 0 8)) := by unfold decodeF; rw [o]; rfl
  exact RoundTrip.kernel (w := w) (by rw [e]; rfl) rfl (by unfold decodeSyllable; rw [d, h0, h1, h2, h3])

theorem RoundTrip.fCvtbfl (p : BitVec 2) (d : BitVec 8) (a : BitVec 8) : RoundTrip.Statement (.fCvtbfl p d a) := by
  obtain ⟨w, e, o, h0, h1, h2, z0⟩ := cut12 35 (by decide) p d a
  have d : decodeF w = if w.extractLsb' 0 8 == 0 then some (.fCvtbfl (w.extractLsb' 24 2) (w.extractLsb' 16 8) (w.extractLsb' 8 8)) else none := by unfold decodeF; rw [o]; rfl
  exact RoundTrip.kernel (w := w) (by rw [e]; rfl) rfl (by unfold decodeSyllable; rw [d, z0, h0, h1, h2]; rfl)

theorem RoundTrip.fCvtbfh (p : BitVec 2) (d : BitVec 8) (a : BitVec 8) : RoundTrip.Statement (.fCvtbfh p d a) := by
  obtain ⟨w, e, o, h0, h1, h2, z0⟩ := cut12 36 (by decide) p d a
  have d : decodeF w = if w.extractLsb' 0 8 == 0 then some (.fCvtbfh (w.extractLsb' 24 2) (w.extractLsb' 16 8) (w.extractLsb' 8 8)) else none := by unfold decodeF; rw [o]; rfl
  exact RoundTrip.kernel (w := w) (by rw [e]; rfl) rfl (by unfold decodeSyllable; rw [d, z0, h0, h1, h2]; rfl)

theorem RoundTrip.fCvtlsf (p : BitVec 2) (d : BitVec 8) (a : BitVec 8) : RoundTrip.Statement (.fCvtlsf p d a) := by
  obtain ⟨w, e, o, h0, h1, h2, z0⟩ := cut12 37 (by decide) p d a
  have d : decodeF w = if w.extractLsb' 0 8 == 0 then some (.fCvtlsf (w.extractLsb' 24 2) (w.extractLsb' 16 8) (w.extractLsb' 8 8)) else none := by unfold decodeF; rw [o]; rfl
  exact RoundTrip.kernel (w := w) (by rw [e]; rfl) rfl (by unfold decodeSyllable; rw [d, z0, h0, h1, h2]; rfl)

theorem RoundTrip.fCvthsf (p : BitVec 2) (d : BitVec 8) (a : BitVec 8) : RoundTrip.Statement (.fCvthsf p d a) := by
  obtain ⟨w, e, o, h0, h1, h2, z0⟩ := cut12 38 (by decide) p d a
  have d : decodeF w = if w.extractLsb' 0 8 == 0 then some (.fCvthsf (w.extractLsb' 24 2) (w.extractLsb' 16 8) (w.extractLsb' 8 8)) else none := by unfold decodeF; rw [o]; rfl
  exact RoundTrip.kernel (w := w) (by rw [e]; rfl) rfl (by unfold decodeSyllable; rw [d, z0, h0, h1, h2]; rfl)

theorem RoundTrip.fCvtlzf (p : BitVec 2) (d : BitVec 8) (a : BitVec 8) : RoundTrip.Statement (.fCvtlzf p d a) := by
  obtain ⟨w, e, o, h0, h1, h2, z0⟩ := cut12 39 (by decide) p d a
  have d : decodeF w = if w.extractLsb' 0 8 == 0 then some (.fCvtlzf (w.extractLsb' 24 2) (w.extractLsb' 16 8) (w.extractLsb' 8 8)) else none := by unfold decodeF; rw [o]; rfl
  exact RoundTrip.kernel (w := w) (by rw [e]; rfl) rfl (by unfold decodeSyllable; rw [d, z0, h0, h1, h2]; rfl)

theorem RoundTrip.fCvthzf (p : BitVec 2) (d : BitVec 8) (a : BitVec 8) : RoundTrip.Statement (.fCvthzf p d a) := by
  obtain ⟨w, e, o, h0, h1, h2, z0⟩ := cut12 40 (by decide) p d a
  have d : decodeF w = if w.extractLsb' 0 8 == 0 then some (.fCvthzf (w.extractLsb' 24 2) (w.extractLsb' 16 8) (w.extractLsb' 8 8)) else none := by unfold decodeF; rw [o]; rfl
  exact RoundTrip.kernel (w := w) (by rw [e]; rfl) rfl (by unfold decodeSyllable; rw [d, z0, h0, h1, h2]; rfl)

theorem RoundTrip.tmTldw (m : BitVec 8) : RoundTrip.Statement (.tmTldw m) := by
  obtain ⟨w, e, o, h0, z0, z1⟩ := cut13 1 (by decide) m
  have d : decodeTm w = if w.extractLsb' 0 16 == 0 && w.extractLsb' 24 2 == 0 then some (.tmTldw (w.extractLsb' 16 8)) else none := by unfold decodeTm; rw [o]; rfl
  exact RoundTrip.kernel (w := w) (by rw [e]; rfl) rfl (by unfold decodeSyllable; rw [d, z0, z1, h0]; rfl)

theorem RoundTrip.tmTldwt (m : BitVec 8) : RoundTrip.Statement (.tmTldwt m) := by
  obtain ⟨w, e, o, h0, z0, z1⟩ := cut13 2 (by decide) m
  have d : decodeTm w = if w.extractLsb' 0 16 == 0 && w.extractLsb' 24 2 == 0 then some (.tmTldwt (w.extractLsb' 16 8)) else none := by unfold decodeTm; rw [o]; rfl
  exact RoundTrip.kernel (w := w) (by rw [e]; rfl) rfl (by unfold decodeSyllable; rw [d, z0, z1, h0]; rfl)

theorem RoundTrip.tmTmma (k : BitVec 8) (m : BitVec 8) (n : BitVec 8) : RoundTrip.Statement (.tmTmma k m n) := by
  obtain ⟨w, e, o, h0, h1, h2, z0⟩ := cut14 3 (by decide) k m n
  have d : decodeTm w = if w.extractLsb' 24 2 == 0 then some (.tmTmma (w.extractLsb' 16 8) (w.extractLsb' 8 8) (w.extractLsb' 0 8)) else none := by unfold decodeTm; rw [o]; rfl
  exact RoundTrip.kernel (w := w) (by rw [e]; rfl) rfl (by unfold decodeSyllable; rw [d, z0, h0, h1, h2]; rfl)

theorem RoundTrip.tmTmmz (k : BitVec 8) (m : BitVec 8) (n : BitVec 8) : RoundTrip.Statement (.tmTmmz k m n) := by
  obtain ⟨w, e, o, h0, h1, h2, z0⟩ := cut14 4 (by decide) k m n
  have d : decodeTm w = if w.extractLsb' 24 2 == 0 then some (.tmTmmz (w.extractLsb' 16 8) (w.extractLsb' 8 8) (w.extractLsb' 0 8)) else none := by unfold decodeTm; rw [o]; rfl
  exact RoundTrip.kernel (w := w) (by rw [e]; rfl) rfl (by unfold decodeSyllable; rw [d, z0, h0, h1, h2]; rfl)

theorem RoundTrip.tmTmmn (k : BitVec 8) (m : BitVec 8) (n : BitVec 8) : RoundTrip.Statement (.tmTmmn k m n) := by
  obtain ⟨w, e, o, h0, h1, h2, z0⟩ := cut14 5 (by decide) k m n
  have d : decodeTm w = if w.extractLsb' 24 2 == 0 then some (.tmTmmn (w.extractLsb' 16 8) (w.extractLsb' 8 8) (w.extractLsb' 0 8)) else none := by unfold decodeTm; rw [o]; rfl
  exact RoundTrip.kernel (w := w) (by rw [e]; rfl) rfl (by unfold decodeSyllable; rw [d, z0, h0, h1, h2]; rfl)

theorem RoundTrip.tmTldx (m : BitVec 8) : RoundTrip.Statement (.tmTldx m) := by
  obtain ⟨w, e, o, h0, z0, z1⟩ := cut13 6 (by decide) m
  have d : decodeTm w = if w.extractLsb' 0 16 == 0 && w.extractLsb' 24 2 == 0 then some (.tmTldx (w.extractLsb' 16 8)) else none := by unfold decodeTm; rw [o]; rfl
  exact RoundTrip.kernel (w := w) (by rw [e]; rfl) rfl (by unfold decodeSyllable; rw [d, z0, z1, h0]; rfl)

theorem RoundTrip.tmTdrn : RoundTrip.Statement .tmTdrn := RoundTrip.kernel rfl rfl rfl

theorem RoundTrip.tmTwclr : RoundTrip.Statement .tmTwclr := RoundTrip.kernel rfl rfl rfl

theorem RoundTrip.tmTstat (p : BitVec 2) (d : BitVec 8) : RoundTrip.Statement (.tmTstat p d) := by
  obtain ⟨w, e, o, h0, h1, z0⟩ := cut15 9 (by decide) p d
  have d : decodeTm w = if w.extractLsb' 0 16 == 0 then some (.tmTstat (w.extractLsb' 24 2) (w.extractLsb' 16 8)) else none := by unfold decodeTm; rw [o]; rfl
  exact RoundTrip.kernel (w := w) (by rw [e]; rfl) rfl (by unfold decodeSyllable; rw [d, z0, h0, h1]; rfl)

theorem RoundTrip.tmTscl (k : BitVec 8) (m : BitVec 8) : RoundTrip.Statement (.tmTscl k m) := by
  obtain ⟨w, e, o, h0, h1, z0, z1⟩ := cut16 10 (by decide) k m
  have d : decodeTm w = if w.extractLsb' 0 8 == 0 && w.extractLsb' 24 2 == 0 then some (.tmTscl (w.extractLsb' 16 8) (w.extractLsb' 8 8)) else none := by unfold decodeTm; rw [o]; rfl
  exact RoundTrip.kernel (w := w) (by rw [e]; rfl) rfl (by unfold decodeSyllable; rw [d, z0, z1, h0, h1]; rfl)

theorem RoundTrip.tmTbias (k : BitVec 8) (m : BitVec 8) : RoundTrip.Statement (.tmTbias k m) := by
  obtain ⟨w, e, o, h0, h1, z0, z1⟩ := cut16 11 (by decide) k m
  have d : decodeTm w = if w.extractLsb' 0 8 == 0 && w.extractLsb' 24 2 == 0 then some (.tmTbias (w.extractLsb' 16 8) (w.extractLsb' 8 8)) else none := by unfold decodeTm; rw [o]; rfl
  exact RoundTrip.kernel (w := w) (by rw [e]; rfl) rfl (by unfold decodeSyllable; rw [d, z0, z1, h0, h1]; rfl)

theorem RoundTrip.tmTamw (k : BitVec 8) (s : BitVec 8) (r : BitVec 8) : RoundTrip.Statement (.tmTamw k s r) := by
  obtain ⟨w, e, o, h0, h1, h2, z0⟩ := cut14 12 (by decide) k s r
  have d : decodeTm w = if w.extractLsb' 24 2 == 0 then some (.tmTamw (w.extractLsb' 16 8) (w.extractLsb' 8 8) (w.extractLsb' 0 8)) else none := by unfold decodeTm; rw [o]; rfl
  exact RoundTrip.kernel (w := w) (by rw [e]; rfl) rfl (by unfold decodeSyllable; rw [d, z0, h0, h1, h2]; rfl)

theorem RoundTrip.tmTcvt (d : BitVec 8) (s : BitVec 8) : RoundTrip.Statement (.tmTcvt d s) := by
  obtain ⟨w, e, o, h0, h1, z0, z1⟩ := cut16 13 (by decide) d s
  have d : decodeTm w = if w.extractLsb' 0 8 == 0 && w.extractLsb' 24 2 == 0 then some (.tmTcvt (w.extractLsb' 16 8) (w.extractLsb' 8 8)) else none := by unfold decodeTm; rw [o]; rfl
  exact RoundTrip.kernel (w := w) (by rw [e]; rfl) rfl (by unfold decodeSyllable; rw [d, z0, z1, h0, h1]; rfl)

theorem RoundTrip.tmTmmh (k : BitVec 8) (m : BitVec 8) (n : BitVec 8) : RoundTrip.Statement (.tmTmmh k m n) := by
  obtain ⟨w, e, o, h0, h1, h2, z0⟩ := cut14 14 (by decide) k m n
  have d : decodeTm w = if w.extractLsb' 24 2 == 0 then some (.tmTmmh (w.extractLsb' 16 8) (w.extractLsb' 8 8) (w.extractLsb' 0 8)) else none := by unfold decodeTm; rw [o]; rfl
  exact RoundTrip.kernel (w := w) (by rw [e]; rfl) rfl (by unfold decodeSyllable; rw [d, z0, h0, h1, h2]; rfl)

theorem RoundTrip.ptPld4 (m : BitVec 8) : RoundTrip.Statement (.ptPld4 m) := by
  obtain ⟨w, e, o, h0, z0, z1⟩ := cut13 1 (by decide) m
  have d : decodePt w = if w.extractLsb' 0 16 == 0 && w.extractLsb' 24 2 == 0 then some (.ptPld4 (w.extractLsb' 16 8)) else none := by unfold decodePt; rw [o]; rfl
  exact RoundTrip.kernel (w := w) (by rw [e]; rfl) rfl (by unfold decodeSyllable; rw [d, z0, z1, h0]; rfl)

theorem RoundTrip.ptPld8 (m : BitVec 8) : RoundTrip.Statement (.ptPld8 m) := by
  obtain ⟨w, e, o, h0, z0, z1⟩ := cut13 2 (by decide) m
  have d : decodePt w = if w.extractLsb' 0 16 == 0 && w.extractLsb' 24 2 == 0 then some (.ptPld8 (w.extractLsb' 16 8)) else none := by unfold decodePt; rw [o]; rfl
  exact RoundTrip.kernel (w := w) (by rw [e]; rfl) rfl (by unfold decodeSyllable; rw [d, z0, z1, h0]; rfl)

theorem RoundTrip.ptPlds (m : BitVec 8) : RoundTrip.Statement (.ptPlds m) := by
  obtain ⟨w, e, o, h0, z0, z1⟩ := cut13 3 (by decide) m
  have d : decodePt w = if w.extractLsb' 0 16 == 0 && w.extractLsb' 24 2 == 0 then some (.ptPlds (w.extractLsb' 16 8)) else none := by unfold decodePt; rw [o]; rfl
  exact RoundTrip.kernel (w := w) (by rw [e]; rfl) rfl (by unfold decodeSyllable; rw [d, z0, z1, h0]; rfl)

theorem RoundTrip.ptPpass (k : BitVec 8) (m : BitVec 8) (n : BitVec 8) : RoundTrip.Statement (.ptPpass k m n) := by
  obtain ⟨w, e, o, h0, h1, h2, z0⟩ := cut14 4 (by decide) k m n
  have d : decodePt w = if w.extractLsb' 24 2 == 0 then some (.ptPpass (w.extractLsb' 16 8) (w.extractLsb' 8 8) (w.extractLsb' 0 8)) else none := by unfold decodePt; rw [o]; rfl
  exact RoundTrip.kernel (w := w) (by rw [e]; rfl) rfl (by unfold decodeSyllable; rw [d, z0, h0, h1, h2]; rfl)

theorem RoundTrip.ptPpassz (k : BitVec 8) (m : BitVec 8) (n : BitVec 8) : RoundTrip.Statement (.ptPpassz k m n) := by
  obtain ⟨w, e, o, h0, h1, h2, z0⟩ := cut14 5 (by decide) k m n
  have d : decodePt w = if w.extractLsb' 24 2 == 0 then some (.ptPpassz (w.extractLsb' 16 8) (w.extractLsb' 8 8) (w.extractLsb' 0 8)) else none := by unfold decodePt; rw [o]; rfl
  exact RoundTrip.kernel (w := w) (by rw [e]; rfl) rfl (by unfold decodeSyllable; rw [d, z0, h0, h1, h2]; rfl)

theorem RoundTrip.ptPpassn (k : BitVec 8) (m : BitVec 8) (n : BitVec 8) : RoundTrip.Statement (.ptPpassn k m n) := by
  obtain ⟨w, e, o, h0, h1, h2, z0⟩ := cut14 6 (by decide) k m n
  have d : decodePt w = if w.extractLsb' 24 2 == 0 then some (.ptPpassn (w.extractLsb' 16 8) (w.extractLsb' 8 8) (w.extractLsb' 0 8)) else none := by unfold decodePt; rw [o]; rfl
  exact RoundTrip.kernel (w := w) (by rw [e]; rfl) rfl (by unfold decodeSyllable; rw [d, z0, h0, h1, h2]; rfl)

theorem RoundTrip.ptPcvt (d : BitVec 8) (s : BitVec 8) (m : BitVec 8) : RoundTrip.Statement (.ptPcvt d s m) := by
  obtain ⟨w, e, o, h0, h1, h2, z0⟩ := cut14 7 (by decide) d s m
  have d : decodePt w = if w.extractLsb' 24 2 == 0 then some (.ptPcvt (w.extractLsb' 16 8) (w.extractLsb' 8 8) (w.extractLsb' 0 8)) else none := by unfold decodePt; rw [o]; rfl
  exact RoundTrip.kernel (w := w) (by rw [e]; rfl) rfl (by unfold decodeSyllable; rw [d, z0, h0, h1, h2]; rfl)

theorem RoundTrip.ptPclro (k : BitVec 8) : RoundTrip.Statement (.ptPclro k) := by
  obtain ⟨w, e, o, h0, z0, z1⟩ := cut13 8 (by decide) k
  have d : decodePt w = if w.extractLsb' 0 16 == 0 && w.extractLsb' 24 2 == 0 then some (.ptPclro (w.extractLsb' 16 8)) else none := by unfold decodePt; rw [o]; rfl
  exact RoundTrip.kernel (w := w) (by rw [e]; rfl) rfl (by unfold decodeSyllable; rw [d, z0, z1, h0]; rfl)

theorem RoundTrip.ptPstat (p : BitVec 2) (d : BitVec 8) : RoundTrip.Statement (.ptPstat p d) := by
  obtain ⟨w, e, o, h0, h1, z0⟩ := cut15 9 (by decide) p d
  have d : decodePt w = if w.extractLsb' 0 16 == 0 then some (.ptPstat (w.extractLsb' 24 2) (w.extractLsb' 16 8)) else none := by unfold decodePt; rw [o]; rfl
  exact RoundTrip.kernel (w := w) (by rw [e]; rfl) rfl (by unfold decodeSyllable; rw [d, z0, h0, h1]; rfl)

theorem RoundTrip.ptPtclr : RoundTrip.Statement .ptPtclr := RoundTrip.kernel rfl rfl rfl

theorem RoundTrip.ptPdrn : RoundTrip.Statement .ptPdrn := RoundTrip.kernel rfl rfl rfl

theorem RoundTrip.ptPscan (p : BitVec 2) (d : BitVec 8) (s : BitVec 8) : RoundTrip.Statement (.ptPscan p d s) := by
  obtain ⟨w, e, o, h0, h1, h2, z0⟩ := cut12 12 (by decide) p d s
  have d : decodePt w = if w.extractLsb' 0 8 == 0 then some (.ptPscan (w.extractLsb' 24 2) (w.extractLsb' 16 8) (w.extractLsb' 8 8)) else none := by unfold decodePt; rw [o]; rfl
  exact RoundTrip.kernel (w := w) (by rw [e]; rfl) rfl (by unfold decodeSyllable; rw [d, z0, h0, h1, h2]; rfl)

theorem RoundTrip.sSpop (p : BitVec 2) (d : BitVec 8) (a : BitVec 8) (k : BitVec 8) : RoundTrip.Statement (.sSpop p d a k) := by
  obtain ⟨w, e, o, h0, h1, h2, h3⟩ := cut11 1 (by decide) p d a k
  have d : decodeS w = some (.sSpop (w.extractLsb' 24 2) (w.extractLsb' 16 8) (w.extractLsb' 8 8) (w.extractLsb' 0 8)) := by unfold decodeS; rw [o]; rfl
  exact RoundTrip.kernel (w := w) (by rw [e]; rfl) rfl (by unfold decodeSyllable; rw [d, h0, h1, h2, h3])

theorem RoundTrip.sSpopc (p : BitVec 2) (d : BitVec 8) (a : BitVec 8) : RoundTrip.Statement (.sSpopc p d a) := by
  obtain ⟨w, e, o, h0, h1, h2, z0⟩ := cut12 2 (by decide) p d a
  have d : decodeS w = if w.extractLsb' 0 8 == 0 then some (.sSpopc (w.extractLsb' 24 2) (w.extractLsb' 16 8) (w.extractLsb' 8 8)) else none := by unfold decodeS; rw [o]; rfl
  exact RoundTrip.kernel (w := w) (by rw [e]; rfl) rfl (by unfold decodeSyllable; rw [d, z0, h0, h1, h2]; rfl)

theorem RoundTrip.sSpush (a : BitVec 8) (s : BitVec 8) : RoundTrip.Statement (.sSpush a s) := by
  obtain ⟨w, e, o, h0, h1, z0⟩ := cut17 3 (by decide) a s
  have d : decodeS w = if w.extractLsb' 16 10 == 0 then some (.sSpush (w.extractLsb' 8 8) (w.extractLsb' 0 8)) else none := by unfold decodeS; rw [o]; rfl
  exact RoundTrip.kernel (w := w) (by rw [e]; rfl) rfl (by unfold decodeSyllable; rw [d, z0, h0, h1]; rfl)

theorem RoundTrip.sSpushc (p : BitVec 2) (a : BitVec 8) (s : BitVec 8) : RoundTrip.Statement (.sSpushc p a s) := by
  obtain ⟨w, e, o, h0, h1, h2, z0⟩ := cut18 4 (by decide) p a s
  have d : decodeS w = if w.extractLsb' 16 8 == 0 then some (.sSpushc (w.extractLsb' 24 2) (w.extractLsb' 8 8) (w.extractLsb' 0 8)) else none := by unfold decodeS; rw [o]; rfl
  exact RoundTrip.kernel (w := w) (by rw [e]; rfl) rfl (by unfold decodeSyllable; rw [d, z0, h0, h1, h2]; rfl)

theorem RoundTrip.sSwaitf (a : BitVec 8) (n : BitVec 8) : RoundTrip.Statement (.sSwaitf a n) := by
  obtain ⟨w, e, o, h0, h1, z0⟩ := cut17 5 (by decide) a n
  have d : decodeS w = if w.extractLsb' 16 10 == 0 then some (.sSwaitf (w.extractLsb' 8 8) (w.extractLsb' 0 8)) else none := by unfold decodeS; rw [o]; rfl
  exact RoundTrip.kernel (w := w) (by rw [e]; rfl) rfl (by unfold decodeSyllable; rw [d, z0, h0, h1]; rfl)

theorem RoundTrip.sSwaite (a : BitVec 8) (n : BitVec 8) : RoundTrip.Statement (.sSwaite a n) := by
  obtain ⟨w, e, o, h0, h1, z0⟩ := cut17 6 (by decide) a n
  have d : decodeS w = if w.extractLsb' 16 10 == 0 then some (.sSwaite (w.extractLsb' 8 8) (w.extractLsb' 0 8)) else none := by unfold decodeS; rw [o]; rfl
  exact RoundTrip.kernel (w := w) (by rw [e]; rfl) rfl (by unfold decodeSyllable; rw [d, z0, h0, h1]; rfl)

theorem RoundTrip.sSadvr (a : BitVec 8) (n : BitVec 8) : RoundTrip.Statement (.sSadvr a n) := by
  obtain ⟨w, e, o, h0, h1, z0⟩ := cut17 7 (by decide) a n
  have d : decodeS w = if w.extractLsb' 16 10 == 0 then some (.sSadvr (w.extractLsb' 8 8) (w.extractLsb' 0 8)) else none := by unfold decodeS; rw [o]; rfl
  exact RoundTrip.kernel (w := w) (by rw [e]; rfl) rfl (by unfold decodeSyllable; rw [d, z0, h0, h1]; rfl)

theorem RoundTrip.sSadvw (a : BitVec 8) (n : BitVec 8) : RoundTrip.Statement (.sSadvw a n) := by
  obtain ⟨w, e, o, h0, h1, z0⟩ := cut17 8 (by decide) a n
  have d : decodeS w = if w.extractLsb' 16 10 == 0 then some (.sSadvw (w.extractLsb' 8 8) (w.extractLsb' 0 8)) else none := by unfold decodeS; rw [o]; rfl
  exact RoundTrip.kernel (w := w) (by rw [e]; rfl) rfl (by unfold decodeSyllable; rw [d, z0, h0, h1]; rfl)

theorem RoundTrip.sTfill (m : BitVec 8) (a : BitVec 8) (f : BitVec 8) : RoundTrip.Statement (.sTfill m a f) := by
  obtain ⟨w, e, o, h0, h1, h2, z0⟩ := cut14 9 (by decide) m a f
  have d : decodeS w = if w.extractLsb' 24 2 == 0 then some (.sTfill (w.extractLsb' 16 8) (w.extractLsb' 8 8) (w.extractLsb' 0 8)) else none := by unfold decodeS; rw [o]; rfl
  exact RoundTrip.kernel (w := w) (by rw [e]; rfl) rfl (by unfold decodeSyllable; rw [d, z0, h0, h1, h2]; rfl)

theorem RoundTrip.sTfillx (m : BitVec 8) (a : BitVec 8) : RoundTrip.Statement (.sTfillx m a) := by
  obtain ⟨w, e, o, h0, h1, z0, z1⟩ := cut16 10 (by decide) m a
  have d : decodeS w = if w.extractLsb' 0 8 == 0 && w.extractLsb' 24 2 == 0 then some (.sTfillx (w.extractLsb' 16 8) (w.extractLsb' 8 8)) else none := by unfold decodeS; rw [o]; rfl
  exact RoundTrip.kernel (w := w) (by rw [e]; rfl) rfl (by unfold decodeSyllable; rw [d, z0, z1, h0, h1]; rfl)

theorem RoundTrip.sScnt (a : BitVec 8) : RoundTrip.Statement (.sScnt a) := by
  obtain ⟨w, e, o, h0, z0, z1⟩ := cut19 11 (by decide) a
  have d : decodeS w = if w.extractLsb' 0 8 == 0 && w.extractLsb' 16 10 == 0 then some (.sScnt (w.extractLsb' 8 8)) else none := by unfold decodeS; rw [o]; rfl
  exact RoundTrip.kernel (w := w) (by rw [e]; rfl) rfl (by unfold decodeSyllable; rw [d, z0, z1, h0]; rfl)

theorem RoundTrip.sSflush (a : BitVec 8) : RoundTrip.Statement (.sSflush a) := by
  obtain ⟨w, e, o, h0, z0, z1⟩ := cut19 12 (by decide) a
  have d : decodeS w = if w.extractLsb' 0 8 == 0 && w.extractLsb' 16 10 == 0 then some (.sSflush (w.extractLsb' 8 8)) else none := by unfold decodeS; rw [o]; rfl
  exact RoundTrip.kernel (w := w) (by rw [e]; rfl) rfl (by unfold decodeSyllable; rw [d, z0, z1, h0]; rfl)

theorem RoundTrip.sSptrr (p : BitVec 2) (d : BitVec 8) (a : BitVec 8) : RoundTrip.Statement (.sSptrr p d a) := by
  obtain ⟨w, e, o, h0, h1, h2, z0⟩ := cut12 13 (by decide) p d a
  have d : decodeS w = if w.extractLsb' 0 8 == 0 then some (.sSptrr (w.extractLsb' 24 2) (w.extractLsb' 16 8) (w.extractLsb' 8 8)) else none := by unfold decodeS; rw [o]; rfl
  exact RoundTrip.kernel (w := w) (by rw [e]; rfl) rfl (by unfold decodeSyllable; rw [d, z0, h0, h1, h2]; rfl)

theorem RoundTrip.sSptrw (p : BitVec 2) (d : BitVec 8) (a : BitVec 8) : RoundTrip.Statement (.sSptrw p d a) := by
  obtain ⟨w, e, o, h0, h1, h2, z0⟩ := cut12 14 (by decide) p d a
  have d : decodeS w = if w.extractLsb' 0 8 == 0 then some (.sSptrw (w.extractLsb' 24 2) (w.extractLsb' 16 8) (w.extractLsb' 8 8)) else none := by unfold decodeS; rw [o]; rfl
  exact RoundTrip.kernel (w := w) (by rw [e]; rfl) rfl (by unfold decodeSyllable; rw [d, z0, h0, h1, h2]; rfl)

theorem RoundTrip.sSavail (p : BitVec 2) (d : BitVec 8) (a : BitVec 8) : RoundTrip.Statement (.sSavail p d a) := by
  obtain ⟨w, e, o, h0, h1, h2, z0⟩ := cut12 15 (by decide) p d a
  have d : decodeS w = if w.extractLsb' 0 8 == 0 then some (.sSavail (w.extractLsb' 24 2) (w.extractLsb' 16 8) (w.extractLsb' 8 8)) else none := by unfold decodeS; rw [o]; rfl
  exact RoundTrip.kernel (w := w) (by rw [e]; rfl) rfl (by unfold decodeSyllable; rw [d, z0, h0, h1, h2]; rfl)

theorem RoundTrip.sSspace (p : BitVec 2) (d : BitVec 8) (a : BitVec 8) : RoundTrip.Statement (.sSspace p d a) := by
  obtain ⟨w, e, o, h0, h1, h2, z0⟩ := cut12 16 (by decide) p d a
  have d : decodeS w = if w.extractLsb' 0 8 == 0 then some (.sSspace (w.extractLsb' 24 2) (w.extractLsb' 16 8) (w.extractLsb' 8 8)) else none := by unfold decodeS; rw [o]; rfl
  exact RoundTrip.kernel (w := w) (by rw [e]; rfl) rfl (by unfold decodeSyllable; rw [d, z0, h0, h1, h2]; rfl)

theorem RoundTrip.xsXperm (p : BitVec 2) (d : BitVec 8) (s : BitVec 8) (i : BitVec 8) : RoundTrip.Statement (.xsXperm p d s i) := by
  obtain ⟨w, e, o, h0, h1, h2, h3⟩ := cut11 1 (by decide) p d s i
  have d : decodeXs w = some (.xsXperm (w.extractLsb' 24 2) (w.extractLsb' 16 8) (w.extractLsb' 8 8) (w.extractLsb' 0 8)) := by unfold decodeXs; rw [o]; rfl
  exact RoundTrip.kernel (w := w) (by rw [e]; rfl) rfl (by unfold decodeSyllable; rw [d, h0, h1, h2, h3])

theorem RoundTrip.xsXpermc (p : BitVec 2) (d : BitVec 8) (s : BitVec 8) (i : BitVec 8) : RoundTrip.Statement (.xsXpermc p d s i) := by
  obtain ⟨w, e, o, h0, h1, h2, h3⟩ := cut11 2 (by decide) p d s i
  have d : decodeXs w = some (.xsXpermc (w.extractLsb' 24 2) (w.extractLsb' 16 8) (w.extractLsb' 8 8) (w.extractLsb' 0 8)) := by unfold decodeXs; rw [o]; rfl
  exact RoundTrip.kernel (w := w) (by rw [e]; rfl) rfl (by unfold decodeSyllable; rw [d, h0, h1, h2, h3])

theorem RoundTrip.xsXbc (p : BitVec 2) (d : BitVec 8) (s : BitVec 8) (l : BitVec 8) : RoundTrip.Statement (.xsXbc p d s l) := by
  obtain ⟨w, e, o, h0, h1, h2, h3⟩ := cut11 3 (by decide) p d s l
  have d : decodeXs w = some (.xsXbc (w.extractLsb' 24 2) (w.extractLsb' 16 8) (w.extractLsb' 8 8) (w.extractLsb' 0 8)) := by unfold decodeXs; rw [o]; rfl
  exact RoundTrip.kernel (w := w) (by rw [e]; rfl) rfl (by unfold decodeSyllable; rw [d, h0, h1, h2, h3])

theorem RoundTrip.xsXbcc (p : BitVec 2) (d : BitVec 8) (s : BitVec 8) (n : BitVec 8) : RoundTrip.Statement (.xsXbcc p d s n) := by
  obtain ⟨w, e, o, h0, h1, h2, h3⟩ := cut11 4 (by decide) p d s n
  have d : decodeXs w = some (.xsXbcc (w.extractLsb' 24 2) (w.extractLsb' 16 8) (w.extractLsb' 8 8) (w.extractLsb' 0 8)) := by unfold decodeXs; rw [o]; rfl
  exact RoundTrip.kernel (w := w) (by rw [e]; rfl) rfl (by unfold decodeSyllable; rw [d, h0, h1, h2, h3])

theorem RoundTrip.xsXrot (p : BitVec 2) (d : BitVec 8) (s : BitVec 8) (n : BitVec 8) : RoundTrip.Statement (.xsXrot p d s n) := by
  obtain ⟨w, e, o, h0, h1, h2, h3⟩ := cut11 5 (by decide) p d s n
  have d : decodeXs w = some (.xsXrot (w.extractLsb' 24 2) (w.extractLsb' 16 8) (w.extractLsb' 8 8) (w.extractLsb' 0 8)) := by unfold decodeXs; rw [o]; rfl
  exact RoundTrip.kernel (w := w) (by rw [e]; rfl) rfl (by unfold decodeSyllable; rw [d, h0, h1, h2, h3])

theorem RoundTrip.xsXrotc (p : BitVec 2) (d : BitVec 8) (s : BitVec 8) (n : BitVec 8) : RoundTrip.Statement (.xsXrotc p d s n) := by
  obtain ⟨w, e, o, h0, h1, h2, h3⟩ := cut11 6 (by decide) p d s n
  have d : decodeXs w = some (.xsXrotc (w.extractLsb' 24 2) (w.extractLsb' 16 8) (w.extractLsb' 8 8) (w.extractLsb' 0 8)) := by unfold decodeXs; rw [o]; rfl
  exact RoundTrip.kernel (w := w) (by rw [e]; rfl) rfl (by unfold decodeSyllable; rw [d, h0, h1, h2, h3])

theorem RoundTrip.xsXcmp (p : BitVec 2) (d : BitVec 8) (s : BitVec 8) : RoundTrip.Statement (.xsXcmp p d s) := by
  obtain ⟨w, e, o, h0, h1, h2, z0⟩ := cut12 7 (by decide) p d s
  have d : decodeXs w = if w.extractLsb' 0 8 == 0 then some (.xsXcmp (w.extractLsb' 24 2) (w.extractLsb' 16 8) (w.extractLsb' 8 8)) else none := by unfold decodeXs; rw [o]; rfl
  exact RoundTrip.kernel (w := w) (by rw [e]; rfl) rfl (by unfold decodeSyllable; rw [d, z0, h0, h1, h2]; rfl)

theorem RoundTrip.xsXcmpc (p : BitVec 2) (d : BitVec 8) (s : BitVec 8) : RoundTrip.Statement (.xsXcmpc p d s) := by
  obtain ⟨w, e, o, h0, h1, h2, z0⟩ := cut12 8 (by decide) p d s
  have d : decodeXs w = if w.extractLsb' 0 8 == 0 then some (.xsXcmpc (w.extractLsb' 24 2) (w.extractLsb' 16 8) (w.extractLsb' 8 8)) else none := by unfold decodeXs; rw [o]; rfl
  exact RoundTrip.kernel (w := w) (by rw [e]; rfl) rfl (by unfold decodeSyllable; rw [d, z0, h0, h1, h2]; rfl)

theorem RoundTrip.xsXexp (p : BitVec 2) (d : BitVec 8) (s : BitVec 8) : RoundTrip.Statement (.xsXexp p d s) := by
  obtain ⟨w, e, o, h0, h1, h2, z0⟩ := cut12 9 (by decide) p d s
  have d : decodeXs w = if w.extractLsb' 0 8 == 0 then some (.xsXexp (w.extractLsb' 24 2) (w.extractLsb' 16 8) (w.extractLsb' 8 8)) else none := by unfold decodeXs; rw [o]; rfl
  exact RoundTrip.kernel (w := w) (by rw [e]; rfl) rfl (by unfold decodeSyllable; rw [d, z0, h0, h1, h2]; rfl)

theorem RoundTrip.xsXcnt (p : BitVec 2) (d : BitVec 8) : RoundTrip.Statement (.xsXcnt p d) := by
  obtain ⟨w, e, o, h0, h1, z0⟩ := cut15 10 (by decide) p d
  have d : decodeXs w = if w.extractLsb' 0 16 == 0 then some (.xsXcnt (w.extractLsb' 24 2) (w.extractLsb' 16 8)) else none := by unfold decodeXs; rw [o]; rfl
  exact RoundTrip.kernel (w := w) (by rw [e]; rfl) rfl (by unfold decodeSyllable; rw [d, z0, h0, h1]; rfl)

theorem RoundTrip.amAalloc (k : BitVec 8) : RoundTrip.Statement (.amAalloc k) := by
  obtain ⟨w, e, o, h0, z0, z1⟩ := cut13 1 (by decide) k
  have d : decodeAm w = if w.extractLsb' 0 16 == 0 && w.extractLsb' 24 2 == 0 then some (.amAalloc (w.extractLsb' 16 8)) else none := by unfold decodeAm; rw [o]; rfl
  exact RoundTrip.kernel (w := w) (by rw [e]; rfl) rfl (by unfold decodeSyllable; rw [d, z0, z1, h0]; rfl)

theorem RoundTrip.amAallocp (k : BitVec 8) : RoundTrip.Statement (.amAallocp k) := by
  obtain ⟨w, e, o, h0, z0, z1⟩ := cut13 2 (by decide) k
  have d : decodeAm w = if w.extractLsb' 0 16 == 0 && w.extractLsb' 24 2 == 0 then some (.amAallocp (w.extractLsb' 16 8)) else none := by unfold decodeAm; rw [o]; rfl
  exact RoundTrip.kernel (w := w) (by rw [e]; rfl) rfl (by unfold decodeSyllable; rw [d, z0, z1, h0]; rfl)

theorem RoundTrip.amAfree (k : BitVec 8) : RoundTrip.Statement (.amAfree k) := by
  obtain ⟨w, e, o, h0, z0, z1⟩ := cut13 3 (by decide) k
  have d : decodeAm w = if w.extractLsb' 0 16 == 0 && w.extractLsb' 24 2 == 0 then some (.amAfree (w.extractLsb' 16 8)) else none := by unfold decodeAm; rw [o]; rfl
  exact RoundTrip.kernel (w := w) (by rw [e]; rfl) rfl (by unfold decodeSyllable; rw [d, z0, z1, h0]; rfl)

theorem RoundTrip.amMclaim (m : BitVec 8) : RoundTrip.Statement (.amMclaim m) := by
  obtain ⟨w, e, o, h0, z0, z1⟩ := cut13 4 (by decide) m
  have d : decodeAm w = if w.extractLsb' 0 16 == 0 && w.extractLsb' 24 2 == 0 then some (.amMclaim (w.extractLsb' 16 8)) else none := by unfold decodeAm; rw [o]; rfl
  exact RoundTrip.kernel (w := w) (by rw [e]; rfl) rfl (by unfold decodeSyllable; rw [d, z0, z1, h0]; rfl)

theorem RoundTrip.amMrel (m : BitVec 8) : RoundTrip.Statement (.amMrel m) := by
  obtain ⟨w, e, o, h0, z0, z1⟩ := cut13 5 (by decide) m
  have d : decodeAm w = if w.extractLsb' 0 16 == 0 && w.extractLsb' 24 2 == 0 then some (.amMrel (w.extractLsb' 16 8)) else none := by unfold decodeAm; rw [o]; rfl
  exact RoundTrip.kernel (w := w) (by rw [e]; rfl) rfl (by unfold decodeSyllable; rw [d, z0, z1, h0]; rfl)

theorem RoundTrip.amArd (p : BitVec 2) (d : BitVec 8) (k : BitVec 8) (r : BitVec 8) : RoundTrip.Statement (.amArd p d k r) := by
  obtain ⟨w, e, o, h0, h1, h2, h3⟩ := cut11 6 (by decide) p d k r
  have d : decodeAm w = some (.amArd (w.extractLsb' 24 2) (w.extractLsb' 16 8) (w.extractLsb' 8 8) (w.extractLsb' 0 8)) := by unfold decodeAm; rw [o]; rfl
  exact RoundTrip.kernel (w := w) (by rw [e]; rfl) rfl (by unfold decodeSyllable; rw [d, h0, h1, h2, h3])

theorem RoundTrip.amArdh (p : BitVec 2) (d : BitVec 8) (k : BitVec 8) (r : BitVec 8) : RoundTrip.Statement (.amArdh p d k r) := by
  obtain ⟨w, e, o, h0, h1, h2, h3⟩ := cut11 7 (by decide) p d k r
  have d : decodeAm w = some (.amArdh (w.extractLsb' 24 2) (w.extractLsb' 16 8) (w.extractLsb' 8 8) (w.extractLsb' 0 8)) := by unfold decodeAm; rw [o]; rfl
  exact RoundTrip.kernel (w := w) (by rw [e]; rfl) rfl (by unfold decodeSyllable; rw [d, h0, h1, h2, h3])

theorem RoundTrip.amAclr (k : BitVec 8) : RoundTrip.Statement (.amAclr k) := by
  obtain ⟨w, e, o, h0, z0, z1⟩ := cut13 8 (by decide) k
  have d : decodeAm w = if w.extractLsb' 0 16 == 0 && w.extractLsb' 24 2 == 0 then some (.amAclr (w.extractLsb' 16 8)) else none := by unfold decodeAm; rw [o]; rfl
  exact RoundTrip.kernel (w := w) (by rw [e]; rfl) rfl (by unfold decodeSyllable; rw [d, z0, z1, h0]; rfl)

theorem RoundTrip.resultLanding (sc : Nat) (run : Nat) : RoundTrip.Statement (.resultLanding sc run) := RoundTrip.event rfl

theorem RoundTrip.tileRowEntry (sc : Nat) (run : Nat) : RoundTrip.Statement (.tileRowEntry sc run) := RoundTrip.event rfl

theorem RoundTrip.tileUpdateVisible (sc : Nat) (run : Nat) : RoundTrip.Statement (.tileUpdateVisible sc run) := RoundTrip.event rfl

theorem RoundTrip.partsUpdateVisible (sc : Nat) (run : Nat) : RoundTrip.Statement (.partsUpdateVisible sc run) := RoundTrip.event rfl

theorem RoundTrip.tldxReadEnd (sc : Nat) (run : Nat) : RoundTrip.Statement (.tldxReadEnd sc run) := RoundTrip.event rfl

theorem RoundTrip.kernelRunStart (sc : Nat) (e : Nat) : RoundTrip.Statement (.kernelRunStart sc e) := RoundTrip.event rfl

theorem RoundTrip.runCompletion (sc : Nat) (run : Nat) : RoundTrip.Statement (.runCompletion sc run) := RoundTrip.event rfl

theorem RoundTrip.preemption (sc : Nat) (run : Nat) : RoundTrip.Statement (.preemption sc run) := RoundTrip.event rfl

theorem RoundTrip.runRestore (sc : Nat) (run : Nat) : RoundTrip.Statement (.runRestore sc run) := RoundTrip.event rfl

theorem RoundTrip.runReclaimStop (sc : Nat) (run : Nat) : RoundTrip.Statement (.runReclaimStop sc run) := RoundTrip.event rfl

theorem RoundTrip.pthrExpiry (sc : Nat) (e : Nat) : RoundTrip.Statement (.pthrExpiry sc e) := RoundTrip.event rfl

theorem RoundTrip.add (d : BitVec 5) (a : BitVec 5) (b : BitVec 5) : RoundTrip.Statement (.add d a b) := by
  obtain ⟨w, e, o, h0, h1, h2, z0⟩ := cut20 1 (by decide) d a b
  have d : decodeFields w = if w.extractLsb' 0 9 == 0 then some (.add (w.extractLsb' 19 5) (w.extractLsb' 14 5) (w.extractLsb' 9 5)) else none := by unfold decodeFields; rw [o]; rfl
  exact RoundTrip.control (w := w) (by rw [e]; rfl) rfl (by rw [d, z0, h0, h1, h2]; rfl)

theorem RoundTrip.sub (d : BitVec 5) (a : BitVec 5) (b : BitVec 5) : RoundTrip.Statement (.sub d a b) := by
  obtain ⟨w, e, o, h0, h1, h2, z0⟩ := cut20 2 (by decide) d a b
  have d : decodeFields w = if w.extractLsb' 0 9 == 0 then some (.sub (w.extractLsb' 19 5) (w.extractLsb' 14 5) (w.extractLsb' 9 5)) else none := by unfold decodeFields; rw [o]; rfl
  exact RoundTrip.control (w := w) (by rw [e]; rfl) rfl (by rw [d, z0, h0, h1, h2]; rfl)

theorem RoundTrip.mul (d : BitVec 5) (a : BitVec 5) (b : BitVec 5) : RoundTrip.Statement (.mul d a b) := by
  obtain ⟨w, e, o, h0, h1, h2, z0⟩ := cut20 3 (by decide) d a b
  have d : decodeFields w = if w.extractLsb' 0 9 == 0 then some (.mul (w.extractLsb' 19 5) (w.extractLsb' 14 5) (w.extractLsb' 9 5)) else none := by unfold decodeFields; rw [o]; rfl
  exact RoundTrip.control (w := w) (by rw [e]; rfl) rfl (by rw [d, z0, h0, h1, h2]; rfl)

theorem RoundTrip.mulhs (d : BitVec 5) (a : BitVec 5) (b : BitVec 5) : RoundTrip.Statement (.mulhs d a b) := by
  obtain ⟨w, e, o, h0, h1, h2, z0⟩ := cut20 4 (by decide) d a b
  have d : decodeFields w = if w.extractLsb' 0 9 == 0 then some (.mulhs (w.extractLsb' 19 5) (w.extractLsb' 14 5) (w.extractLsb' 9 5)) else none := by unfold decodeFields; rw [o]; rfl
  exact RoundTrip.control (w := w) (by rw [e]; rfl) rfl (by rw [d, z0, h0, h1, h2]; rfl)

theorem RoundTrip.mulhz (d : BitVec 5) (a : BitVec 5) (b : BitVec 5) : RoundTrip.Statement (.mulhz d a b) := by
  obtain ⟨w, e, o, h0, h1, h2, z0⟩ := cut20 5 (by decide) d a b
  have d : decodeFields w = if w.extractLsb' 0 9 == 0 then some (.mulhz (w.extractLsb' 19 5) (w.extractLsb' 14 5) (w.extractLsb' 9 5)) else none := by unfold decodeFields; rw [o]; rfl
  exact RoundTrip.control (w := w) (by rw [e]; rfl) rfl (by rw [d, z0, h0, h1, h2]; rfl)

theorem RoundTrip.divs (d : BitVec 5) (a : BitVec 5) (b : BitVec 5) : RoundTrip.Statement (.divs d a b) := by
  obtain ⟨w, e, o, h0, h1, h2, z0⟩ := cut20 6 (by decide) d a b
  have d : decodeFields w = if w.extractLsb' 0 9 == 0 then some (.divs (w.extractLsb' 19 5) (w.extractLsb' 14 5) (w.extractLsb' 9 5)) else none := by unfold decodeFields; rw [o]; rfl
  exact RoundTrip.control (w := w) (by rw [e]; rfl) rfl (by rw [d, z0, h0, h1, h2]; rfl)

theorem RoundTrip.divz (d : BitVec 5) (a : BitVec 5) (b : BitVec 5) : RoundTrip.Statement (.divz d a b) := by
  obtain ⟨w, e, o, h0, h1, h2, z0⟩ := cut20 7 (by decide) d a b
  have d : decodeFields w = if w.extractLsb' 0 9 == 0 then some (.divz (w.extractLsb' 19 5) (w.extractLsb' 14 5) (w.extractLsb' 9 5)) else none := by unfold decodeFields; rw [o]; rfl
  exact RoundTrip.control (w := w) (by rw [e]; rfl) rfl (by rw [d, z0, h0, h1, h2]; rfl)

theorem RoundTrip.rems (d : BitVec 5) (a : BitVec 5) (b : BitVec 5) : RoundTrip.Statement (.rems d a b) := by
  obtain ⟨w, e, o, h0, h1, h2, z0⟩ := cut20 8 (by decide) d a b
  have d : decodeFields w = if w.extractLsb' 0 9 == 0 then some (.rems (w.extractLsb' 19 5) (w.extractLsb' 14 5) (w.extractLsb' 9 5)) else none := by unfold decodeFields; rw [o]; rfl
  exact RoundTrip.control (w := w) (by rw [e]; rfl) rfl (by rw [d, z0, h0, h1, h2]; rfl)

theorem RoundTrip.remz (d : BitVec 5) (a : BitVec 5) (b : BitVec 5) : RoundTrip.Statement (.remz d a b) := by
  obtain ⟨w, e, o, h0, h1, h2, z0⟩ := cut20 9 (by decide) d a b
  have d : decodeFields w = if w.extractLsb' 0 9 == 0 then some (.remz (w.extractLsb' 19 5) (w.extractLsb' 14 5) (w.extractLsb' 9 5)) else none := by unfold decodeFields; rw [o]; rfl
  exact RoundTrip.control (w := w) (by rw [e]; rfl) rfl (by rw [d, z0, h0, h1, h2]; rfl)

theorem RoundTrip.and (d : BitVec 5) (a : BitVec 5) (b : BitVec 5) : RoundTrip.Statement (.and d a b) := by
  obtain ⟨w, e, o, h0, h1, h2, z0⟩ := cut20 10 (by decide) d a b
  have d : decodeFields w = if w.extractLsb' 0 9 == 0 then some (.and (w.extractLsb' 19 5) (w.extractLsb' 14 5) (w.extractLsb' 9 5)) else none := by unfold decodeFields; rw [o]; rfl
  exact RoundTrip.control (w := w) (by rw [e]; rfl) rfl (by rw [d, z0, h0, h1, h2]; rfl)

theorem RoundTrip.or (d : BitVec 5) (a : BitVec 5) (b : BitVec 5) : RoundTrip.Statement (.or d a b) := by
  obtain ⟨w, e, o, h0, h1, h2, z0⟩ := cut20 11 (by decide) d a b
  have d : decodeFields w = if w.extractLsb' 0 9 == 0 then some (.or (w.extractLsb' 19 5) (w.extractLsb' 14 5) (w.extractLsb' 9 5)) else none := by unfold decodeFields; rw [o]; rfl
  exact RoundTrip.control (w := w) (by rw [e]; rfl) rfl (by rw [d, z0, h0, h1, h2]; rfl)

theorem RoundTrip.xor (d : BitVec 5) (a : BitVec 5) (b : BitVec 5) : RoundTrip.Statement (.xor d a b) := by
  obtain ⟨w, e, o, h0, h1, h2, z0⟩ := cut20 12 (by decide) d a b
  have d : decodeFields w = if w.extractLsb' 0 9 == 0 then some (.xor (w.extractLsb' 19 5) (w.extractLsb' 14 5) (w.extractLsb' 9 5)) else none := by unfold decodeFields; rw [o]; rfl
  exact RoundTrip.control (w := w) (by rw [e]; rfl) rfl (by rw [d, z0, h0, h1, h2]; rfl)

theorem RoundTrip.andn (d : BitVec 5) (a : BitVec 5) (b : BitVec 5) : RoundTrip.Statement (.andn d a b) := by
  obtain ⟨w, e, o, h0, h1, h2, z0⟩ := cut20 13 (by decide) d a b
  have d : decodeFields w = if w.extractLsb' 0 9 == 0 then some (.andn (w.extractLsb' 19 5) (w.extractLsb' 14 5) (w.extractLsb' 9 5)) else none := by unfold decodeFields; rw [o]; rfl
  exact RoundTrip.control (w := w) (by rw [e]; rfl) rfl (by rw [d, z0, h0, h1, h2]; rfl)

theorem RoundTrip.shl (d : BitVec 5) (a : BitVec 5) (b : BitVec 5) : RoundTrip.Statement (.shl d a b) := by
  obtain ⟨w, e, o, h0, h1, h2, z0⟩ := cut20 14 (by decide) d a b
  have d : decodeFields w = if w.extractLsb' 0 9 == 0 then some (.shl (w.extractLsb' 19 5) (w.extractLsb' 14 5) (w.extractLsb' 9 5)) else none := by unfold decodeFields; rw [o]; rfl
  exact RoundTrip.control (w := w) (by rw [e]; rfl) rfl (by rw [d, z0, h0, h1, h2]; rfl)

theorem RoundTrip.shrz (d : BitVec 5) (a : BitVec 5) (b : BitVec 5) : RoundTrip.Statement (.shrz d a b) := by
  obtain ⟨w, e, o, h0, h1, h2, z0⟩ := cut20 15 (by decide) d a b
  have d : decodeFields w = if w.extractLsb' 0 9 == 0 then some (.shrz (w.extractLsb' 19 5) (w.extractLsb' 14 5) (w.extractLsb' 9 5)) else none := by unfold decodeFields; rw [o]; rfl
  exact RoundTrip.control (w := w) (by rw [e]; rfl) rfl (by rw [d, z0, h0, h1, h2]; rfl)

theorem RoundTrip.shrs (d : BitVec 5) (a : BitVec 5) (b : BitVec 5) : RoundTrip.Statement (.shrs d a b) := by
  obtain ⟨w, e, o, h0, h1, h2, z0⟩ := cut20 16 (by decide) d a b
  have d : decodeFields w = if w.extractLsb' 0 9 == 0 then some (.shrs (w.extractLsb' 19 5) (w.extractLsb' 14 5) (w.extractLsb' 9 5)) else none := by unfold decodeFields; rw [o]; rfl
  exact RoundTrip.control (w := w) (by rw [e]; rfl) rfl (by rw [d, z0, h0, h1, h2]; rfl)

theorem RoundTrip.slts (d : BitVec 5) (a : BitVec 5) (b : BitVec 5) : RoundTrip.Statement (.slts d a b) := by
  obtain ⟨w, e, o, h0, h1, h2, z0⟩ := cut20 17 (by decide) d a b
  have d : decodeFields w = if w.extractLsb' 0 9 == 0 then some (.slts (w.extractLsb' 19 5) (w.extractLsb' 14 5) (w.extractLsb' 9 5)) else none := by unfold decodeFields; rw [o]; rfl
  exact RoundTrip.control (w := w) (by rw [e]; rfl) rfl (by rw [d, z0, h0, h1, h2]; rfl)

theorem RoundTrip.sltz (d : BitVec 5) (a : BitVec 5) (b : BitVec 5) : RoundTrip.Statement (.sltz d a b) := by
  obtain ⟨w, e, o, h0, h1, h2, z0⟩ := cut20 18 (by decide) d a b
  have d : decodeFields w = if w.extractLsb' 0 9 == 0 then some (.sltz (w.extractLsb' 19 5) (w.extractLsb' 14 5) (w.extractLsb' 9 5)) else none := by unfold decodeFields; rw [o]; rfl
  exact RoundTrip.control (w := w) (by rw [e]; rfl) rfl (by rw [d, z0, h0, h1, h2]; rfl)

theorem RoundTrip.popc (d : BitVec 5) (a : BitVec 5) : RoundTrip.Statement (.popc d a) := by
  obtain ⟨w, e, o, h0, h1, z0⟩ := cut21 19 (by decide) d a
  have d : decodeFields w = if w.extractLsb' 0 14 == 0 then some (.popc (w.extractLsb' 19 5) (w.extractLsb' 14 5)) else none := by unfold decodeFields; rw [o]; rfl
  exact RoundTrip.control (w := w) (by rw [e]; rfl) rfl (by rw [d, z0, h0, h1]; rfl)

theorem RoundTrip.addi (d : BitVec 5) (a : BitVec 5) (i : BitVec 14) : RoundTrip.Statement (.addi d a i) := by
  obtain ⟨w, e, o, h0, h1, h2⟩ := cut22 20 (by decide) d a i
  have d : decodeFields w = some (.addi (w.extractLsb' 19 5) (w.extractLsb' 14 5) (w.extractLsb' 0 14)) := by unfold decodeFields; rw [o]; rfl
  exact RoundTrip.control (w := w) (by rw [e]; rfl) rfl (by rw [d, h0, h1, h2])

theorem RoundTrip.andi (d : BitVec 5) (a : BitVec 5) (i : BitVec 14) : RoundTrip.Statement (.andi d a i) := by
  obtain ⟨w, e, o, h0, h1, h2⟩ := cut22 21 (by decide) d a i
  have d : decodeFields w = some (.andi (w.extractLsb' 19 5) (w.extractLsb' 14 5) (w.extractLsb' 0 14)) := by unfold decodeFields; rw [o]; rfl
  exact RoundTrip.control (w := w) (by rw [e]; rfl) rfl (by rw [d, h0, h1, h2])

theorem RoundTrip.ori (d : BitVec 5) (a : BitVec 5) (i : BitVec 14) : RoundTrip.Statement (.ori d a i) := by
  obtain ⟨w, e, o, h0, h1, h2⟩ := cut22 22 (by decide) d a i
  have d : decodeFields w = some (.ori (w.extractLsb' 19 5) (w.extractLsb' 14 5) (w.extractLsb' 0 14)) := by unfold decodeFields; rw [o]; rfl
  exact RoundTrip.control (w := w) (by rw [e]; rfl) rfl (by rw [d, h0, h1, h2])

theorem RoundTrip.xori (d : BitVec 5) (a : BitVec 5) (i : BitVec 14) : RoundTrip.Statement (.xori d a i) := by
  obtain ⟨w, e, o, h0, h1, h2⟩ := cut22 23 (by decide) d a i
  have d : decodeFields w = some (.xori (w.extractLsb' 19 5) (w.extractLsb' 14 5) (w.extractLsb' 0 14)) := by unfold decodeFields; rw [o]; rfl
  exact RoundTrip.control (w := w) (by rw [e]; rfl) rfl (by rw [d, h0, h1, h2])

theorem RoundTrip.shli (d : BitVec 5) (a : BitVec 5) (i : BitVec 14) : RoundTrip.Statement (.shli d a i) := by
  obtain ⟨w, e, o, h0, h1, h2⟩ := cut22 24 (by decide) d a i
  have d : decodeFields w = some (.shli (w.extractLsb' 19 5) (w.extractLsb' 14 5) (w.extractLsb' 0 14)) := by unfold decodeFields; rw [o]; rfl
  exact RoundTrip.control (w := w) (by rw [e]; rfl) rfl (by rw [d, h0, h1, h2])

theorem RoundTrip.shrzi (d : BitVec 5) (a : BitVec 5) (i : BitVec 14) : RoundTrip.Statement (.shrzi d a i) := by
  obtain ⟨w, e, o, h0, h1, h2⟩ := cut22 25 (by decide) d a i
  have d : decodeFields w = some (.shrzi (w.extractLsb' 19 5) (w.extractLsb' 14 5) (w.extractLsb' 0 14)) := by unfold decodeFields; rw [o]; rfl
  exact RoundTrip.control (w := w) (by rw [e]; rfl) rfl (by rw [d, h0, h1, h2])

theorem RoundTrip.shrsi (d : BitVec 5) (a : BitVec 5) (i : BitVec 14) : RoundTrip.Statement (.shrsi d a i) := by
  obtain ⟨w, e, o, h0, h1, h2⟩ := cut22 26 (by decide) d a i
  have d : decodeFields w = some (.shrsi (w.extractLsb' 19 5) (w.extractLsb' 14 5) (w.extractLsb' 0 14)) := by unfold decodeFields; rw [o]; rfl
  exact RoundTrip.control (w := w) (by rw [e]; rfl) rfl (by rw [d, h0, h1, h2])

theorem RoundTrip.sltsi (d : BitVec 5) (a : BitVec 5) (i : BitVec 14) : RoundTrip.Statement (.sltsi d a i) := by
  obtain ⟨w, e, o, h0, h1, h2⟩ := cut22 27 (by decide) d a i
  have d : decodeFields w = some (.sltsi (w.extractLsb' 19 5) (w.extractLsb' 14 5) (w.extractLsb' 0 14)) := by unfold decodeFields; rw [o]; rfl
  exact RoundTrip.control (w := w) (by rw [e]; rfl) rfl (by rw [d, h0, h1, h2])

theorem RoundTrip.sltzi (d : BitVec 5) (a : BitVec 5) (i : BitVec 14) : RoundTrip.Statement (.sltzi d a i) := by
  obtain ⟨w, e, o, h0, h1, h2⟩ := cut22 28 (by decide) d a i
  have d : decodeFields w = some (.sltzi (w.extractLsb' 19 5) (w.extractLsb' 14 5) (w.extractLsb' 0 14)) := by unfold decodeFields; rw [o]; rfl
  exact RoundTrip.control (w := w) (by rw [e]; rfl) rfl (by rw [d, h0, h1, h2])

theorem RoundTrip.ldi (d : BitVec 5) (i : BitVec 19) : RoundTrip.Statement (.ldi d i) := by
  obtain ⟨w, e, o, h0, h1⟩ := cut23 29 (by decide) d i
  have d : decodeFields w = some (.ldi (w.extractLsb' 19 5) (w.extractLsb' 0 19)) := by unfold decodeFields; rw [o]; rfl
  exact RoundTrip.control (w := w) (by rw [e]; rfl) rfl (by rw [d, h0, h1])

theorem RoundTrip.lsi (d : BitVec 5) (i : BitVec 19) : RoundTrip.Statement (.lsi d i) := by
  obtain ⟨w, e, o, h0, h1⟩ := cut23 30 (by decide) d i
  have d : decodeFields w = some (.lsi (w.extractLsb' 19 5) (w.extractLsb' 0 19)) := by unfold decodeFields; rw [o]; rfl
  exact RoundTrip.control (w := w) (by rw [e]; rfl) rfl (by rw [d, h0, h1])

theorem RoundTrip.beq (a : BitVec 5) (b : BitVec 5) (o : BitVec 14) : RoundTrip.Statement (.beq a b o) := by
  obtain ⟨w, e, o, h0, h1, h2⟩ := cut22 32 (by decide) a b o
  have d : decodeFields w = some (.beq (w.extractLsb' 19 5) (w.extractLsb' 14 5) (w.extractLsb' 0 14)) := by unfold decodeFields; rw [o]; rfl
  exact RoundTrip.control (w := w) (by rw [e]; rfl) rfl (by rw [d, h0, h1, h2])

theorem RoundTrip.bne (a : BitVec 5) (b : BitVec 5) (o : BitVec 14) : RoundTrip.Statement (.bne a b o) := by
  obtain ⟨w, e, o, h0, h1, h2⟩ := cut22 33 (by decide) a b o
  have d : decodeFields w = some (.bne (w.extractLsb' 19 5) (w.extractLsb' 14 5) (w.extractLsb' 0 14)) := by unfold decodeFields; rw [o]; rfl
  exact RoundTrip.control (w := w) (by rw [e]; rfl) rfl (by rw [d, h0, h1, h2])

theorem RoundTrip.blts (a : BitVec 5) (b : BitVec 5) (o : BitVec 14) : RoundTrip.Statement (.blts a b o) := by
  obtain ⟨w, e, o, h0, h1, h2⟩ := cut22 34 (by decide) a b o
  have d : decodeFields w = some (.blts (w.extractLsb' 19 5) (w.extractLsb' 14 5) (w.extractLsb' 0 14)) := by unfold decodeFields; rw [o]; rfl
  exact RoundTrip.control (w := w) (by rw [e]; rfl) rfl (by rw [d, h0, h1, h2])

theorem RoundTrip.bges (a : BitVec 5) (b : BitVec 5) (o : BitVec 14) : RoundTrip.Statement (.bges a b o) := by
  obtain ⟨w, e, o, h0, h1, h2⟩ := cut22 35 (by decide) a b o
  have d : decodeFields w = some (.bges (w.extractLsb' 19 5) (w.extractLsb' 14 5) (w.extractLsb' 0 14)) := by unfold decodeFields; rw [o]; rfl
  exact RoundTrip.control (w := w) (by rw [e]; rfl) rfl (by rw [d, h0, h1, h2])

theorem RoundTrip.bltz (a : BitVec 5) (b : BitVec 5) (o : BitVec 14) : RoundTrip.Statement (.bltz a b o) := by
  obtain ⟨w, e, o, h0, h1, h2⟩ := cut22 36 (by decide) a b o
  have d : decodeFields w = some (.bltz (w.extractLsb' 19 5) (w.extractLsb' 14 5) (w.extractLsb' 0 14)) := by unfold decodeFields; rw [o]; rfl
  exact RoundTrip.control (w := w) (by rw [e]; rfl) rfl (by rw [d, h0, h1, h2])

theorem RoundTrip.bgez (a : BitVec 5) (b : BitVec 5) (o : BitVec 14) : RoundTrip.Statement (.bgez a b o) := by
  obtain ⟨w, e, o, h0, h1, h2⟩ := cut22 37 (by decide) a b o
  have d : decodeFields w = some (.bgez (w.extractLsb' 19 5) (w.extractLsb' 14 5) (w.extractLsb' 0 14)) := by unfold decodeFields; rw [o]; rfl
  exact RoundTrip.control (w := w) (by rw [e]; rfl) rfl (by rw [d, h0, h1, h2])

theorem RoundTrip.j (o : BitVec 24) : RoundTrip.Statement (.j o) := by
  obtain ⟨w, e, o, h0⟩ := cut24 38 (by decide) o
  have d : decodeFields w = some (.j (w.extractLsb' 0 24)) := by unfold decodeFields; rw [o]; rfl
  exact RoundTrip.control (w := w) (by rw [e]; rfl) rfl (by rw [d, h0])

theorem RoundTrip.jal (o : BitVec 24) : RoundTrip.Statement (.jal o) := by
  obtain ⟨w, e, o, h0⟩ := cut24 39 (by decide) o
  have d : decodeFields w = some (.jal (w.extractLsb' 0 24)) := by unfold decodeFields; rw [o]; rfl
  exact RoundTrip.control (w := w) (by rw [e]; rfl) rfl (by rw [d, h0])

theorem RoundTrip.jr (a : BitVec 5) : RoundTrip.Statement (.jr a) := by
  obtain ⟨w, e, o, h0, z0, z1⟩ := cut25 40 (by decide) a
  have d : decodeFields w = if w.extractLsb' 0 14 == 0 && w.extractLsb' 19 5 == 0 then some (.jr (w.extractLsb' 14 5)) else none := by unfold decodeFields; rw [o]; rfl
  exact RoundTrip.control (w := w) (by rw [e]; rfl) rfl (by rw [d, z0, z1, h0]; rfl)

theorem RoundTrip.jalr (d : BitVec 5) (a : BitVec 5) : RoundTrip.Statement (.jalr d a) := by
  obtain ⟨w, e, o, h0, h1, z0⟩ := cut21 41 (by decide) d a
  have d : decodeFields w = if w.extractLsb' 0 14 == 0 then some (.jalr (w.extractLsb' 19 5) (w.extractLsb' 14 5)) else none := by unfold decodeFields; rw [o]; rfl
  exact RoundTrip.control (w := w) (by rw [e]; rfl) rfl (by rw [d, z0, h0, h1]; rfl)

theorem RoundTrip.lb (d : BitVec 5) (a : BitVec 5) (i : BitVec 14) : RoundTrip.Statement (.lb d a i) := by
  obtain ⟨w, e, o, h0, h1, h2⟩ := cut22 48 (by decide) d a i
  have d : decodeFields w = some (.lb (w.extractLsb' 19 5) (w.extractLsb' 14 5) (w.extractLsb' 0 14)) := by unfold decodeFields; rw [o]; rfl
  exact RoundTrip.control (w := w) (by rw [e]; rfl) rfl (by rw [d, h0, h1, h2])

theorem RoundTrip.lbz (d : BitVec 5) (a : BitVec 5) (i : BitVec 14) : RoundTrip.Statement (.lbz d a i) := by
  obtain ⟨w, e, o, h0, h1, h2⟩ := cut22 49 (by decide) d a i
  have d : decodeFields w = some (.lbz (w.extractLsb' 19 5) (w.extractLsb' 14 5) (w.extractLsb' 0 14)) := by unfold decodeFields; rw [o]; rfl
  exact RoundTrip.control (w := w) (by rw [e]; rfl) rfl (by rw [d, h0, h1, h2])

theorem RoundTrip.lh (d : BitVec 5) (a : BitVec 5) (i : BitVec 14) : RoundTrip.Statement (.lh d a i) := by
  obtain ⟨w, e, o, h0, h1, h2⟩ := cut22 50 (by decide) d a i
  have d : decodeFields w = some (.lh (w.extractLsb' 19 5) (w.extractLsb' 14 5) (w.extractLsb' 0 14)) := by unfold decodeFields; rw [o]; rfl
  exact RoundTrip.control (w := w) (by rw [e]; rfl) rfl (by rw [d, h0, h1, h2])

theorem RoundTrip.lhz (d : BitVec 5) (a : BitVec 5) (i : BitVec 14) : RoundTrip.Statement (.lhz d a i) := by
  obtain ⟨w, e, o, h0, h1, h2⟩ := cut22 51 (by decide) d a i
  have d : decodeFields w = some (.lhz (w.extractLsb' 19 5) (w.extractLsb' 14 5) (w.extractLsb' 0 14)) := by unfold decodeFields; rw [o]; rfl
  exact RoundTrip.control (w := w) (by rw [e]; rfl) rfl (by rw [d, h0, h1, h2])

theorem RoundTrip.lw (d : BitVec 5) (a : BitVec 5) (i : BitVec 14) : RoundTrip.Statement (.lw d a i) := by
  obtain ⟨w, e, o, h0, h1, h2⟩ := cut22 52 (by decide) d a i
  have d : decodeFields w = some (.lw (w.extractLsb' 19 5) (w.extractLsb' 14 5) (w.extractLsb' 0 14)) := by unfold decodeFields; rw [o]; rfl
  exact RoundTrip.control (w := w) (by rw [e]; rfl) rfl (by rw [d, h0, h1, h2])

theorem RoundTrip.lwz (d : BitVec 5) (a : BitVec 5) (i : BitVec 14) : RoundTrip.Statement (.lwz d a i) := by
  obtain ⟨w, e, o, h0, h1, h2⟩ := cut22 53 (by decide) d a i
  have d : decodeFields w = some (.lwz (w.extractLsb' 19 5) (w.extractLsb' 14 5) (w.extractLsb' 0 14)) := by unfold decodeFields; rw [o]; rfl
  exact RoundTrip.control (w := w) (by rw [e]; rfl) rfl (by rw [d, h0, h1, h2])

theorem RoundTrip.ld (d : BitVec 5) (a : BitVec 5) (i : BitVec 14) : RoundTrip.Statement (.ld d a i) := by
  obtain ⟨w, e, o, h0, h1, h2⟩ := cut22 54 (by decide) d a i
  have d : decodeFields w = some (.ld (w.extractLsb' 19 5) (w.extractLsb' 14 5) (w.extractLsb' 0 14)) := by unfold decodeFields; rw [o]; rfl
  exact RoundTrip.control (w := w) (by rw [e]; rfl) rfl (by rw [d, h0, h1, h2])

theorem RoundTrip.ldx (d : BitVec 5) (a : BitVec 5) (b : BitVec 5) : RoundTrip.Statement (.ldx d a b) := by
  obtain ⟨w, e, o, h0, h1, h2, z0⟩ := cut20 55 (by decide) d a b
  have d : decodeFields w = if w.extractLsb' 0 9 == 0 then some (.ldx (w.extractLsb' 19 5) (w.extractLsb' 14 5) (w.extractLsb' 9 5)) else none := by unfold decodeFields; rw [o]; rfl
  exact RoundTrip.control (w := w) (by rw [e]; rfl) rfl (by rw [d, z0, h0, h1, h2]; rfl)

theorem RoundTrip.sb (d : BitVec 5) (a : BitVec 5) (i : BitVec 14) : RoundTrip.Statement (.sb d a i) := by
  obtain ⟨w, e, o, h0, h1, h2⟩ := cut22 56 (by decide) d a i
  have d : decodeFields w = some (.sb (w.extractLsb' 19 5) (w.extractLsb' 14 5) (w.extractLsb' 0 14)) := by unfold decodeFields; rw [o]; rfl
  exact RoundTrip.control (w := w) (by rw [e]; rfl) rfl (by rw [d, h0, h1, h2])

theorem RoundTrip.sh (d : BitVec 5) (a : BitVec 5) (i : BitVec 14) : RoundTrip.Statement (.sh d a i) := by
  obtain ⟨w, e, o, h0, h1, h2⟩ := cut22 57 (by decide) d a i
  have d : decodeFields w = some (.sh (w.extractLsb' 19 5) (w.extractLsb' 14 5) (w.extractLsb' 0 14)) := by unfold decodeFields; rw [o]; rfl
  exact RoundTrip.control (w := w) (by rw [e]; rfl) rfl (by rw [d, h0, h1, h2])

theorem RoundTrip.sw (d : BitVec 5) (a : BitVec 5) (i : BitVec 14) : RoundTrip.Statement (.sw d a i) := by
  obtain ⟨w, e, o, h0, h1, h2⟩ := cut22 58 (by decide) d a i
  have d : decodeFields w = some (.sw (w.extractLsb' 19 5) (w.extractLsb' 14 5) (w.extractLsb' 0 14)) := by unfold decodeFields; rw [o]; rfl
  exact RoundTrip.control (w := w) (by rw [e]; rfl) rfl (by rw [d, h0, h1, h2])

theorem RoundTrip.sd (d : BitVec 5) (a : BitVec 5) (i : BitVec 14) : RoundTrip.Statement (.sd d a i) := by
  obtain ⟨w, e, o, h0, h1, h2⟩ := cut22 59 (by decide) d a i
  have d : decodeFields w = some (.sd (w.extractLsb' 19 5) (w.extractLsb' 14 5) (w.extractLsb' 0 14)) := by unfold decodeFields; rw [o]; rfl
  exact RoundTrip.control (w := w) (by rw [e]; rfl) rfl (by rw [d, h0, h1, h2])

theorem RoundTrip.ldAcq (d : BitVec 5) (a : BitVec 5) (i : BitVec 14) : RoundTrip.Statement (.ldAcq d a i) := by
  obtain ⟨w, e, o, h0, h1, h2⟩ := cut22 60 (by decide) d a i
  have d : decodeFields w = some (.ldAcq (w.extractLsb' 19 5) (w.extractLsb' 14 5) (w.extractLsb' 0 14)) := by unfold decodeFields; rw [o]; rfl
  exact RoundTrip.control (w := w) (by rw [e]; rfl) rfl (by rw [d, h0, h1, h2])

theorem RoundTrip.stRel (d : BitVec 5) (a : BitVec 5) (i : BitVec 14) : RoundTrip.Statement (.stRel d a i) := by
  obtain ⟨w, e, o, h0, h1, h2⟩ := cut22 61 (by decide) d a i
  have d : decodeFields w = some (.stRel (w.extractLsb' 19 5) (w.extractLsb' 14 5) (w.extractLsb' 0 14)) := by unfold decodeFields; rw [o]; rfl
  exact RoundTrip.control (w := w) (by rw [e]; rfl) rfl (by rw [d, h0, h1, h2])

theorem RoundTrip.ldm (d : BitVec 5) (a : BitVec 5) (n : BitVec 3) : RoundTrip.Statement (.ldm d a n) := by
  obtain ⟨w, e, o, h0, h1, h2, z0⟩ := cut26 62 (by decide) d a n
  have d : decodeFields w = if w.extractLsb' 3 11 == 0 then some (.ldm (w.extractLsb' 19 5) (w.extractLsb' 14 5) (w.extractLsb' 0 3)) else none := by unfold decodeFields; rw [o]; rfl
  exact RoundTrip.control (w := w) (by rw [e]; rfl) rfl (by rw [d, z0, h0, h1, h2]; rfl)

theorem RoundTrip.stm (d : BitVec 5) (a : BitVec 5) (n : BitVec 3) : RoundTrip.Statement (.stm d a n) := by
  obtain ⟨w, e, o, h0, h1, h2, z0⟩ := cut26 63 (by decide) d a n
  have d : decodeFields w = if w.extractLsb' 3 11 == 0 then some (.stm (w.extractLsb' 19 5) (w.extractLsb' 14 5) (w.extractLsb' 0 3)) else none := by unfold decodeFields; rw [o]; rfl
  exact RoundTrip.control (w := w) (by rw [e]; rfl) rfl (by rw [d, z0, h0, h1, h2]; rfl)

theorem RoundTrip.nop : RoundTrip.Statement .nop := RoundTrip.control rfl rfl rfl

theorem RoundTrip.mfs (d : BitVec 5) (s : BitVec 14) : RoundTrip.Statement (.mfs d s) := by
  obtain ⟨w, e, o, h0, h1, z0⟩ := cut27 65 (by decide) d s
  have d : decodeFields w = if w.extractLsb' 14 5 == 0 then some (.mfs (w.extractLsb' 19 5) (w.extractLsb' 0 14)) else none := by unfold decodeFields; rw [o]; rfl
  exact RoundTrip.control (w := w) (by rw [e]; rfl) rfl (by rw [d, z0, h0, h1]; rfl)

theorem RoundTrip.mts (a : BitVec 5) (s : BitVec 14) : RoundTrip.Statement (.mts a s) := by
  obtain ⟨w, e, o, h0, h1, z0⟩ := cut28 66 (by decide) a s
  have d : decodeFields w = if w.extractLsb' 19 5 == 0 then some (.mts (w.extractLsb' 14 5) (w.extractLsb' 0 14)) else none := by unfold decodeFields; rw [o]; rfl
  exact RoundTrip.control (w := w) (by rw [e]; rfl) rfl (by rw [d, z0, h0, h1]; rfl)

theorem RoundTrip.fenceSc : RoundTrip.Statement .fenceSc := RoundTrip.control rfl rfl rfl

theorem RoundTrip.fenceDie : RoundTrip.Statement .fenceDie := RoundTrip.control rfl rfl rfl

theorem RoundTrip.fencePkg : RoundTrip.Statement .fencePkg := RoundTrip.control rfl rfl rfl

theorem RoundTrip.fenceSys : RoundTrip.Statement .fenceSys := RoundTrip.control rfl rfl rfl

theorem RoundTrip.trap (n : BitVec 14) : RoundTrip.Statement (.trap n) := by
  obtain ⟨w, e, o, h0, z0⟩ := cut29 68 (by decide) n
  have d : decodeFields w = if w.extractLsb' 14 10 == 0 then some (.trap (w.extractLsb' 0 14)) else none := by unfold decodeFields; rw [o]; rfl
  exact RoundTrip.control (w := w) (by rw [e]; rfl) rfl (by rw [d, z0, h0]; rfl)

theorem RoundTrip.tret : RoundTrip.Statement .tret := RoundTrip.control rfl rfl rfl

theorem RoundTrip.brk (n : BitVec 14) : RoundTrip.Statement (.brk n) := by
  obtain ⟨w, e, o, h0, z0⟩ := cut29 70 (by decide) n
  have d : decodeFields w = if w.extractLsb' 14 10 == 0 then some (.brk (w.extractLsb' 0 14)) else none := by unfold decodeFields; rw [o]; rfl
  exact RoundTrip.control (w := w) (by rw [e]; rfl) rfl (by rw [d, z0, h0]; rfl)

theorem RoundTrip.pause : RoundTrip.Statement .pause := RoundTrip.control rfl rfl rfl

theorem RoundTrip.dcfl (a : BitVec 5) (i : BitVec 14) : RoundTrip.Statement (.dcfl a i) := by
  obtain ⟨w, e, o, h0, h1, z0⟩ := cut28 72 (by decide) a i
  have d : decodeFields w = if w.extractLsb' 19 5 == 0 then some (.dcfl (w.extractLsb' 14 5) (w.extractLsb' 0 14)) else none := by unfold decodeFields; rw [o]; rfl
  exact RoundTrip.control (w := w) (by rw [e]; rfl) rfl (by rw [d, z0, h0, h1]; rfl)

theorem RoundTrip.dcinv (a : BitVec 5) (i : BitVec 14) : RoundTrip.Statement (.dcinv a i) := by
  obtain ⟨w, e, o, h0, h1, z0⟩ := cut28 73 (by decide) a i
  have d : decodeFields w = if w.extractLsb' 19 5 == 0 then some (.dcinv (w.extractLsb' 14 5) (w.extractLsb' 0 14)) else none := by unfold decodeFields; rw [o]; rfl
  exact RoundTrip.control (w := w) (by rw [e]; rfl) rfl (by rw [d, z0, h0, h1]; rfl)

theorem RoundTrip.dcz (a : BitVec 5) (i : BitVec 14) : RoundTrip.Statement (.dcz a i) := by
  obtain ⟨w, e, o, h0, h1, z0⟩ := cut28 74 (by decide) a i
  have d : decodeFields w = if w.extractLsb' 19 5 == 0 then some (.dcz (w.extractLsb' 14 5) (w.extractLsb' 0 14)) else none := by unfold decodeFields; rw [o]; rfl
  exact RoundTrip.control (w := w) (by rw [e]; rfl) rfl (by rw [d, z0, h0, h1]; rfl)

theorem RoundTrip.idle : RoundTrip.Statement .idle := RoundTrip.control rfl rfl rfl

theorem RoundTrip.csave (a : BitVec 5) (c : BitVec 5) : RoundTrip.Statement (.csave a c) := by
  obtain ⟨w, e, o, h0, h1, z0, z1⟩ := cut30 76 (by decide) a c
  have d : decodeFields w = if w.extractLsb' 5 9 == 0 && w.extractLsb' 19 5 == 0 then some (.csave (w.extractLsb' 14 5) (w.extractLsb' 0 5)) else none := by unfold decodeFields; rw [o]; rfl
  exact RoundTrip.control (w := w) (by rw [e]; rfl) rfl (by rw [d, z0, z1, h0, h1]; rfl)

theorem RoundTrip.cload (a : BitVec 5) (c : BitVec 5) : RoundTrip.Statement (.cload a c) := by
  obtain ⟨w, e, o, h0, h1, z0, z1⟩ := cut30 77 (by decide) a c
  have d : decodeFields w = if w.extractLsb' 5 9 == 0 && w.extractLsb' 19 5 == 0 then some (.cload (w.extractLsb' 14 5) (w.extractLsb' 0 5)) else none := by unfold decodeFields; rw [o]; rfl
  exact RoundTrip.control (w := w) (by rw [e]; rfl) rfl (by rw [d, z0, z1, h0, h1]; rfl)

theorem RoundTrip.ctxkill (c : BitVec 5) : RoundTrip.Statement (.ctxkill c) := by
  obtain ⟨w, e, o, h0, z0⟩ := cut31 78 (by decide) c
  have d : decodeFields w = if w.extractLsb' 5 19 == 0 then some (.ctxkill (w.extractLsb' 0 5)) else none := by unfold decodeFields; rw [o]; rfl
  exact RoundTrip.control (w := w) (by rw [e]; rfl) rfl (by rw [d, z0, h0]; rfl)

theorem RoundTrip.ctxsig (a : BitVec 5) (c : BitVec 5) : RoundTrip.Statement (.ctxsig a c) := by
  obtain ⟨w, e, o, h0, h1, z0, z1⟩ := cut30 79 (by decide) a c
  have d : decodeFields w = if w.extractLsb' 5 9 == 0 && w.extractLsb' 19 5 == 0 then some (.ctxsig (w.extractLsb' 14 5) (w.extractLsb' 0 5)) else none := by unfold decodeFields; rw [o]; rfl
  exact RoundTrip.control (w := w) (by rw [e]; rfl) rfl (by rw [d, z0, z1, h0, h1]; rfl)

theorem RoundTrip.salloc (a : BitVec 5) (h : BitVec 4) (b : BitVec 5) (g : BitVec 2) : RoundTrip.Statement (.salloc a h b g) := by
  obtain ⟨w, e, o, h0, h1, h2, h3, z0, z1⟩ := cut32 80 (by decide) a h b g
  have d : decodeFields w = if w.extractLsb' 2 4 == 0 && w.extractLsb' 11 4 == 0 then some (.salloc (w.extractLsb' 19 5) (w.extractLsb' 15 4) (w.extractLsb' 6 5) (w.extractLsb' 0 2)) else none := by unfold decodeFields; rw [o]; rfl
  exact RoundTrip.control (w := w) (by rw [e]; rfl) rfl (by rw [d, z0, z1, h0, h1, h2, h3]; rfl)

theorem RoundTrip.sfree (h : BitVec 4) : RoundTrip.Statement (.sfree h) := by
  obtain ⟨w, e, o, h0, z0, z1⟩ := cut33 81 (by decide) h
  have d : decodeFields w = if w.extractLsb' 0 15 == 0 && w.extractLsb' 19 5 == 0 then some (.sfree (w.extractLsb' 15 4)) else none := by unfold decodeFields; rw [o]; rfl
  exact RoundTrip.control (w := w) (by rw [e]; rfl) rfl (by rw [d, z0, z1, h0]; rfl)

theorem RoundTrip.sload (a : BitVec 5) (h : BitVec 4) (k : BitVec 4) (e : BitVec 1) : RoundTrip.Statement (.sload a h k e) := by
  obtain ⟨w, e, o, h0, h1, h2, h3, z0⟩ := cut34 82 (by decide) a h k e
  have d : decodeFields w = if w.extractLsb' 1 10 == 0 then some (.sload (w.extractLsb' 19 5) (w.extractLsb' 15 4) (w.extractLsb' 11 4) (w.extractLsb' 0 1)) else none := by unfold decodeFields; rw [o]; rfl
  exact RoundTrip.control (w := w) (by rw [e]; rfl) rfl (by rw [d, z0, h0, h1, h2, h3]; rfl)

theorem RoundTrip.sstore (a : BitVec 5) (h : BitVec 4) (k : BitVec 4) (e : BitVec 1) : RoundTrip.Statement (.sstore a h k e) := by
  obtain ⟨w, e, o, h0, h1, h2, h3, z0⟩ := cut34 83 (by decide) a h k e
  have d : decodeFields w = if w.extractLsb' 1 10 == 0 then some (.sstore (w.extractLsb' 19 5) (w.extractLsb' 15 4) (w.extractLsb' 11 4) (w.extractLsb' 0 1)) else none := by unfold decodeFields; rw [o]; rfl
  exact RoundTrip.control (w := w) (by rw [e]; rfl) rfl (by rw [d, z0, h0, h1, h2, h3]; rfl)

theorem RoundTrip.sgather (a : BitVec 5) (h : BitVec 4) (k : BitVec 4) (b : BitVec 5) : RoundTrip.Statement (.sgather a h k b) := by
  obtain ⟨w, e, o, h0, h1, h2, h3, z0⟩ := cut35 84 (by decide) a h k b
  have d : decodeFields w = if w.extractLsb' 0 6 == 0 then some (.sgather (w.extractLsb' 19 5) (w.extractLsb' 15 4) (w.extractLsb' 11 4) (w.extractLsb' 6 5)) else none := by unfold decodeFields; rw [o]; rfl
  exact RoundTrip.control (w := w) (by rw [e]; rfl) rfl (by rw [d, z0, h0, h1, h2, h3]; rfl)

theorem RoundTrip.sscatter (a : BitVec 5) (h : BitVec 4) (k : BitVec 4) (b : BitVec 5) : RoundTrip.Statement (.sscatter a h k b) := by
  obtain ⟨w, e, o, h0, h1, h2, h3, z0⟩ := cut35 85 (by decide) a h k b
  have d : decodeFields w = if w.extractLsb' 0 6 == 0 then some (.sscatter (w.extractLsb' 19 5) (w.extractLsb' 15 4) (w.extractLsb' 11 4) (w.extractLsb' 6 5)) else none := by unfold decodeFields; rw [o]; rfl
  exact RoundTrip.control (w := w) (by rw [e]; rfl) rfl (by rw [d, z0, h0, h1, h2, h3]; rfl)

theorem RoundTrip.sreset (h : BitVec 4) : RoundTrip.Statement (.sreset h) := by
  obtain ⟨w, e, o, h0, z0, z1⟩ := cut33 86 (by decide) h
  have d : decodeFields w = if w.extractLsb' 0 15 == 0 && w.extractLsb' 19 5 == 0 then some (.sreset (w.extractLsb' 15 4)) else none := by unfold decodeFields; rw [o]; rfl
  exact RoundTrip.control (w := w) (by rw [e]; rfl) rfl (by rw [d, z0, z1, h0]; rfl)

theorem RoundTrip.sptr (a : BitVec 5) (h : BitVec 4) (w : BitVec 1) : RoundTrip.Statement (.sptr a h w) := by
  obtain ⟨w, e, o, h0, h1, h2, z0⟩ := cut36 87 (by decide) a h w
  have d : decodeFields w = if w.extractLsb' 1 14 == 0 then some (.sptr (w.extractLsb' 19 5) (w.extractLsb' 15 4) (w.extractLsb' 0 1)) else none := by unfold decodeFields; rw [o]; rfl
  exact RoundTrip.control (w := w) (by rw [e]; rfl) rfl (by rw [d, z0, h0, h1, h2]; rfl)

theorem RoundTrip.srd (a : BitVec 5) (h : BitVec 4) (b : BitVec 5) : RoundTrip.Statement (.srd a h b) := by
  obtain ⟨w, e, o, h0, h1, h2, z0, z1⟩ := cut37 88 (by decide) a h b
  have d : decodeFields w = if w.extractLsb' 0 6 == 0 && w.extractLsb' 11 4 == 0 then some (.srd (w.extractLsb' 19 5) (w.extractLsb' 15 4) (w.extractLsb' 6 5)) else none := by unfold decodeFields; rw [o]; rfl
  exact RoundTrip.control (w := w) (by rw [e]; rfl) rfl (by rw [d, z0, z1, h0, h1, h2]; rfl)

theorem RoundTrip.swr (a : BitVec 5) (h : BitVec 4) (b : BitVec 5) : RoundTrip.Statement (.swr a h b) := by
  obtain ⟨w, e, o, h0, h1, h2, z0, z1⟩ := cut37 89 (by decide) a h b
  have d : decodeFields w = if w.extractLsb' 0 6 == 0 && w.extractLsb' 11 4 == 0 then some (.swr (w.extractLsb' 19 5) (w.extractLsb' 15 4) (w.extractLsb' 6 5)) else none := by unfold decodeFields; rw [o]; rfl
  exact RoundTrip.control (w := w) (by rw [e]; rfl) rfl (by rw [d, z0, z1, h0, h1, h2]; rfl)

theorem RoundTrip.sfill (a : BitVec 5) (h : BitVec 4) (b : BitVec 5) (p : BitVec 1) : RoundTrip.Statement (.sfill a h b p) := by
  obtain ⟨w, e, o, h0, h1, h2, h3, z0, z1⟩ := cut38 90 (by decide) a h b p
  have d : decodeFields w = if w.extractLsb' 1 5 == 0 && w.extractLsb' 11 4 == 0 then some (.sfill (w.extractLsb' 19 5) (w.extractLsb' 15 4) (w.extractLsb' 6 5) (w.extractLsb' 0 1)) else none := by unfold decodeFields; rw [o]; rfl
  exact RoundTrip.control (w := w) (by rw [e]; rfl) rfl (by rw [d, z0, z1, h0, h1, h2, h3]; rfl)

theorem RoundTrip.smovh (h : BitVec 4) (k : BitVec 4) : RoundTrip.Statement (.smovh h k) := by
  obtain ⟨w, e, o, h0, h1, z0, z1⟩ := cut39 91 (by decide) h k
  have d : decodeFields w = if w.extractLsb' 0 11 == 0 && w.extractLsb' 19 5 == 0 then some (.smovh (w.extractLsb' 15 4) (w.extractLsb' 11 4)) else none := by unfold decodeFields; rw [o]; rfl
  exact RoundTrip.control (w := w) (by rw [e]; rfl) rfl (by rw [d, z0, z1, h0, h1]; rfl)

theorem RoundTrip.sinfo (a : BitVec 5) (h : BitVec 4) : RoundTrip.Statement (.sinfo a h) := by
  obtain ⟨w, e, o, h0, h1, z0⟩ := cut40 92 (by decide) a h
  have d : decodeFields w = if w.extractLsb' 0 15 == 0 then some (.sinfo (w.extractLsb' 19 5) (w.extractLsb' 15 4)) else none := by unfold decodeFields; rw [o]; rfl
  exact RoundTrip.control (w := w) (by rw [e]; rfl) rfl (by rw [d, z0, h0, h1]; rfl)

theorem RoundTrip.kload (a : BitVec 5) (b : BitVec 5) : RoundTrip.Statement (.kload a b) := by
  obtain ⟨w, e, o, h0, h1, z0, z1⟩ := cut41 93 (by decide) a b
  have d : decodeFields w = if w.extractLsb' 0 6 == 0 && w.extractLsb' 11 8 == 0 then some (.kload (w.extractLsb' 19 5) (w.extractLsb' 6 5)) else none := by unfold decodeFields; rw [o]; rfl
  exact RoundTrip.control (w := w) (by rw [e]; rfl) rfl (by rw [d, z0, z1, h0, h1]; rfl)

theorem RoundTrip.kfree (a : BitVec 5) : RoundTrip.Statement (.kfree a) := by
  obtain ⟨w, e, o, h0, z0⟩ := cut42 94 (by decide) a
  have d : decodeFields w = if w.extractLsb' 0 19 == 0 then some (.kfree (w.extractLsb' 19 5)) else none := by unfold decodeFields; rw [o]; rfl
  exact RoundTrip.control (w := w) (by rw [e]; rfl) rfl (by rw [d, z0, h0]; rfl)

theorem RoundTrip.kinfo (a : BitVec 5) (b : BitVec 5) : RoundTrip.Statement (.kinfo a b) := by
  obtain ⟨w, e, o, h0, h1, z0, z1⟩ := cut41 95 (by decide) a b
  have d : decodeFields w = if w.extractLsb' 0 6 == 0 && w.extractLsb' 11 8 == 0 then some (.kinfo (w.extractLsb' 19 5) (w.extractLsb' 6 5)) else none := by unfold decodeFields; rw [o]; rfl
  exact RoundTrip.control (w := w) (by rw [e]; rfl) rfl (by rw [d, z0, z1, h0, h1]; rfl)

theorem RoundTrip.krun (a : BitVec 5) (b : BitVec 5) (t : BitVec 5) (d : BitVec 1) : RoundTrip.Statement (.krun a b t d) := by
  obtain ⟨w, e, o, h0, h1, h2, h3, z0⟩ := cut43 96 (by decide) a b t d
  have d : decodeFields w = if w.extractLsb' 11 8 == 0 then some (.krun (w.extractLsb' 19 5) (w.extractLsb' 6 5) (w.extractLsb' 1 5) (w.extractLsb' 0 1)) else none := by unfold decodeFields; rw [o]; rfl
  exact RoundTrip.control (w := w) (by rw [e]; rfl) rfl (by rw [d, z0, h0, h1, h2, h3]; rfl)

theorem RoundTrip.krq (a : BitVec 5) (b : BitVec 5) (t : BitVec 5) : RoundTrip.Statement (.krq a b t) := by
  obtain ⟨w, e, o, h0, h1, h2, z0, z1⟩ := cut44 97 (by decide) a b t
  have d : decodeFields w = if w.extractLsb' 0 1 == 0 && w.extractLsb' 11 8 == 0 then some (.krq (w.extractLsb' 19 5) (w.extractLsb' 6 5) (w.extractLsb' 1 5)) else none := by unfold decodeFields; rw [o]; rfl
  exact RoundTrip.control (w := w) (by rw [e]; rfl) rfl (by rw [d, z0, z1, h0, h1, h2]; rfl)

theorem RoundTrip.scount (a : BitVec 5) (h : BitVec 4) : RoundTrip.Statement (.scount a h) := by
  obtain ⟨w, e, o, h0, h1, z0⟩ := cut40 98 (by decide) a h
  have d : decodeFields w = if w.extractLsb' 0 15 == 0 then some (.scount (w.extractLsb' 19 5) (w.extractLsb' 15 4)) else none := by unfold decodeFields; rw [o]; rfl
  exact RoundTrip.control (w := w) (by rw [e]; rfl) rfl (by rw [d, z0, h0, h1]; rfl)

theorem RoundTrip.swait (h : BitVec 4) (q : BitVec 1) (c : BitVec 1) (m : BitVec 3) : RoundTrip.Statement (.swait h q c m) := by
  obtain ⟨w, e, o, h0, h1, h2, h3, z0, z1⟩ := cut45 99 (by decide) h q c m
  have d : decodeFields w = if w.extractLsb' 5 10 == 0 && w.extractLsb' 19 5 == 0 then some (.swait (w.extractLsb' 15 4) (w.extractLsb' 4 1) (w.extractLsb' 3 1) (w.extractLsb' 0 3)) else none := by unfold decodeFields; rw [o]; rfl
  exact RoundTrip.control (w := w) (by rw [e]; rfl) rfl (by rw [d, z0, z1, h0, h1, h2, h3]; rfl)

theorem RoundTrip.swaita : RoundTrip.Statement .swaita := RoundTrip.control rfl rfl rfl

theorem RoundTrip.stest (a : BitVec 5) (h : BitVec 4) (q : BitVec 1) (c : BitVec 1) (m : BitVec 3) : RoundTrip.Statement (.stest a h q c m) := by
  obtain ⟨w, e, o, h0, h1, h2, h3, h4, z0⟩ := cut46 101 (by decide) a h q c m
  have d : decodeFields w = if w.extractLsb' 5 10 == 0 then some (.stest (w.extractLsb' 19 5) (w.extractLsb' 15 4) (w.extractLsb' 4 1) (w.extractLsb' 3 1) (w.extractLsb' 0 3)) else none := by unfold decodeFields; rw [o]; rfl
  exact RoundTrip.control (w := w) (by rw [e]; rfl) rfl (by rw [d, z0, h0, h1, h2, h3, h4]; rfl)

theorem RoundTrip.sbar (m : BitVec 3) : RoundTrip.Statement (.sbar m) := by
  obtain ⟨w, e, o, h0, z0⟩ := cut47 102 (by decide) m
  have d : decodeFields w = if w.extractLsb' 3 21 == 0 then some (.sbar (w.extractLsb' 0 3)) else none := by unfold decodeFields; rw [o]; rfl
  exact RoundTrip.control (w := w) (by rw [e]; rfl) rfl (by rw [d, z0, h0]; rfl)

theorem RoundTrip.rfence : RoundTrip.Statement .rfence := RoundTrip.control rfl rfl rfl

theorem RoundTrip.fspawn (d : BitVec 5) (a : BitVec 5) (b : BitVec 5) : RoundTrip.Statement (.fspawn d a b) := by
  obtain ⟨w, e, o, h0, h1, h2, z0⟩ := cut20 112 (by decide) d a b
  have d : decodeFields w = if w.extractLsb' 0 9 == 0 then some (.fspawn (w.extractLsb' 19 5) (w.extractLsb' 14 5) (w.extractLsb' 9 5)) else none := by unfold decodeFields; rw [o]; rfl
  exact RoundTrip.control (w := w) (by rw [e]; rfl) rfl (by rw [d, z0, h0, h1, h2]; rfl)

theorem RoundTrip.fspawnh (d : BitVec 5) (a : BitVec 5) (b : BitVec 5) (s : BitVec 4) : RoundTrip.Statement (.fspawnh d a b s) := by
  obtain ⟨w, e, o, h0, h1, h2, h3, z0⟩ := cut48 113 (by decide) d a b s
  have d : decodeFields w = if w.extractLsb' 4 5 == 0 then some (.fspawnh (w.extractLsb' 19 5) (w.extractLsb' 14 5) (w.extractLsb' 9 5) (w.extractLsb' 0 4)) else none := by unfold decodeFields; rw [o]; rfl
  exact RoundTrip.control (w := w) (by rw [e]; rfl) rfl (by rw [d, z0, h0, h1, h2, h3]; rfl)

theorem RoundTrip.fref (a : BitVec 5) : RoundTrip.Statement (.fref a) := by
  obtain ⟨w, e, o, h0, z0, z1⟩ := cut25 114 (by decide) a
  have d : decodeFields w = if w.extractLsb' 0 14 == 0 && w.extractLsb' 19 5 == 0 then some (.fref (w.extractLsb' 14 5)) else none := by unfold decodeFields; rw [o]; rfl
  exact RoundTrip.control (w := w) (by rw [e]; rfl) rfl (by rw [d, z0, z1, h0]; rfl)

theorem RoundTrip.fdrop (a : BitVec 5) : RoundTrip.Statement (.fdrop a) := by
  obtain ⟨w, e, o, h0, z0, z1⟩ := cut25 115 (by decide) a
  have d : decodeFields w = if w.extractLsb' 0 14 == 0 && w.extractLsb' 19 5 == 0 then some (.fdrop (w.extractLsb' 14 5)) else none := by unfold decodeFields; rw [o]; rfl
  exact RoundTrip.control (w := w) (by rw [e]; rfl) rfl (by rw [d, z0, z1, h0]; rfl)

theorem RoundTrip.fget (d : BitVec 5) (a : BitVec 5) : RoundTrip.Statement (.fget d a) := by
  obtain ⟨w, e, o, h0, h1, z0⟩ := cut21 116 (by decide) d a
  have d : decodeFields w = if w.extractLsb' 0 14 == 0 then some (.fget (w.extractLsb' 19 5) (w.extractLsb' 14 5)) else none := by unfold decodeFields; rw [o]; rfl
  exact RoundTrip.control (w := w) (by rw [e]; rfl) rfl (by rw [d, z0, h0, h1]; rfl)

theorem RoundTrip.fgetd (d : BitVec 5) (a : BitVec 5) : RoundTrip.Statement (.fgetd d a) := by
  obtain ⟨w, e, o, h0, h1, z0⟩ := cut21 117 (by decide) d a
  have d : decodeFields w = if w.extractLsb' 0 14 == 0 then some (.fgetd (w.extractLsb' 19 5) (w.extractLsb' 14 5)) else none := by unfold decodeFields; rw [o]; rfl
  exact RoundTrip.control (w := w) (by rw [e]; rfl) rfl (by rw [d, z0, h0, h1]; rfl)

theorem RoundTrip.fpoll (d : BitVec 5) (a : BitVec 5) : RoundTrip.Statement (.fpoll d a) := by
  obtain ⟨w, e, o, h0, h1, z0⟩ := cut21 118 (by decide) d a
  have d : decodeFields w = if w.extractLsb' 0 14 == 0 then some (.fpoll (w.extractLsb' 19 5) (w.extractLsb' 14 5)) else none := by unfold decodeFields; rw [o]; rfl
  exact RoundTrip.control (w := w) (by rw [e]; rfl) rfl (by rw [d, z0, h0, h1]; rfl)

theorem RoundTrip.fret (a : BitVec 5) : RoundTrip.Statement (.fret a) := by
  obtain ⟨w, e, o, h0, z0, z1⟩ := cut25 119 (by decide) a
  have d : decodeFields w = if w.extractLsb' 0 14 == 0 && w.extractLsb' 19 5 == 0 then some (.fret (w.extractLsb' 14 5)) else none := by unfold decodeFields; rw [o]; rfl
  exact RoundTrip.control (w := w) (by rw [e]; rfl) rfl (by rw [d, z0, z1, h0]; rfl)

theorem RoundTrip.fretf (a : BitVec 5) : RoundTrip.Statement (.fretf a) := by
  obtain ⟨w, e, o, h0, z0, z1⟩ := cut25 120 (by decide) a
  have d : decodeFields w = if w.extractLsb' 0 14 == 0 && w.extractLsb' 19 5 == 0 then some (.fretf (w.extractLsb' 14 5)) else none := by unfold decodeFields; rw [o]; rfl
  exact RoundTrip.control (w := w) (by rw [e]; rfl) rfl (by rw [d, z0, z1, h0]; rfl)

theorem RoundTrip.fyield : RoundTrip.Statement .fyield := RoundTrip.control rfl rfl rfl

theorem RoundTrip.fsig (n : BitVec 14) : RoundTrip.Statement (.fsig n) := by
  obtain ⟨w, e, o, h0, z0⟩ := cut29 122 (by decide) n
  have d : decodeFields w = if w.extractLsb' 14 10 == 0 then some (.fsig (w.extractLsb' 0 14)) else none := by unfold decodeFields; rw [o]; rfl
  exact RoundTrip.control (w := w) (by rw [e]; rfl) rfl (by rw [d, z0, h0]; rfl)

theorem RoundTrip.balloc (d : BitVec 5) (a : BitVec 5) (b : BitVec 5) : RoundTrip.Statement (.balloc d a b) := by
  obtain ⟨w, e, o, h0, h1, h2, z0⟩ := cut20 123 (by decide) d a b
  have d : decodeFields w = if w.extractLsb' 0 9 == 0 then some (.balloc (w.extractLsb' 19 5) (w.extractLsb' 14 5) (w.extractLsb' 9 5)) else none := by unfold decodeFields; rw [o]; rfl
  exact RoundTrip.control (w := w) (by rw [e]; rfl) rfl (by rw [d, z0, h0, h1, h2]; rfl)

theorem RoundTrip.bfree (a : BitVec 5) : RoundTrip.Statement (.bfree a) := by
  obtain ⟨w, e, o, h0, z0, z1⟩ := cut25 124 (by decide) a
  have d : decodeFields w = if w.extractLsb' 0 14 == 0 && w.extractLsb' 19 5 == 0 then some (.bfree (w.extractLsb' 14 5)) else none := by unfold decodeFields; rw [o]; rfl
  exact RoundTrip.control (w := w) (by rw [e]; rfl) rfl (by rw [d, z0, z1, h0]; rfl)

theorem RoundTrip.barr (a : BitVec 5) : RoundTrip.Statement (.barr a) := by
  obtain ⟨w, e, o, h0, z0, z1⟩ := cut25 125 (by decide) a
  have d : decodeFields w = if w.extractLsb' 0 14 == 0 && w.extractLsb' 19 5 == 0 then some (.barr (w.extractLsb' 14 5)) else none := by unfold decodeFields; rw [o]; rfl
  exact RoundTrip.control (w := w) (by rw [e]; rfl) rfl (by rw [d, z0, z1, h0]; rfl)

theorem RoundTrip.barrd (a : BitVec 5) : RoundTrip.Statement (.barrd a) := by
  obtain ⟨w, e, o, h0, z0, z1⟩ := cut25 126 (by decide) a
  have d : decodeFields w = if w.extractLsb' 0 14 == 0 && w.extractLsb' 19 5 == 0 then some (.barrd (w.extractLsb' 14 5)) else none := by unfold decodeFields; rw [o]; rfl
  exact RoundTrip.control (w := w) (by rw [e]; rfl) rfl (by rw [d, z0, z1, h0]; rfl)

theorem RoundTrip.bwait (a : BitVec 5) : RoundTrip.Statement (.bwait a) := by
  obtain ⟨w, e, o, h0, z0, z1⟩ := cut25 127 (by decide) a
  have d : decodeFields w = if w.extractLsb' 0 14 == 0 && w.extractLsb' 19 5 == 0 then some (.bwait (w.extractLsb' 14 5)) else none := by unfold decodeFields; rw [o]; rfl
  exact RoundTrip.control (w := w) (by rw [e]; rfl) rfl (by rw [d, z0, z1, h0]; rfl)

theorem RoundTrip.bpoll (d : BitVec 5) (a : BitVec 5) : RoundTrip.Statement (.bpoll d a) := by
  obtain ⟨w, e, o, h0, h1, z0⟩ := cut21 128 (by decide) d a
  have d : decodeFields w = if w.extractLsb' 0 14 == 0 then some (.bpoll (w.extractLsb' 19 5) (w.extractLsb' 14 5)) else none := by unfold decodeFields; rw [o]; rfl
  exact RoundTrip.control (w := w) (by rw [e]; rfl) rfl (by rw [d, z0, h0, h1]; rfl)

theorem RoundTrip.waitge (a : BitVec 5) (b : BitVec 5) : RoundTrip.Statement (.waitge a b) := by
  obtain ⟨w, e, o, h0, h1, z0, z1⟩ := cut49 129 (by decide) a b
  have d : decodeFields w = if w.extractLsb' 0 9 == 0 && w.extractLsb' 19 5 == 0 then some (.waitge (w.extractLsb' 14 5) (w.extractLsb' 9 5)) else none := by unfold decodeFields; rw [o]; rfl
  exact RoundTrip.control (w := w) (by rw [e]; rfl) rfl (by rw [d, z0, z1, h0, h1]; rfl)

theorem RoundTrip.glaunch (d : BitVec 5) (a : BitVec 5) : RoundTrip.Statement (.glaunch d a) := by
  obtain ⟨w, e, o, h0, h1, z0⟩ := cut21 130 (by decide) d a
  have d : decodeFields w = if w.extractLsb' 0 14 == 0 then some (.glaunch (w.extractLsb' 19 5) (w.extractLsb' 14 5)) else none := by unfold decodeFields; rw [o]; rfl
  exact RoundTrip.control (w := w) (by rw [e]; rfl) rfl (by rw [d, z0, h0, h1]; rfl)

theorem RoundTrip.gfree (a : BitVec 5) : RoundTrip.Statement (.gfree a) := by
  obtain ⟨w, e, o, h0, z0, z1⟩ := cut25 131 (by decide) a
  have d : decodeFields w = if w.extractLsb' 0 14 == 0 && w.extractLsb' 19 5 == 0 then some (.gfree (w.extractLsb' 14 5)) else none := by unfold decodeFields; rw [o]; rfl
  exact RoundTrip.control (w := w) (by rw [e]; rfl) rfl (by rw [d, z0, z1, h0]; rfl)

theorem RoundTrip.scopy (a : BitVec 5) (h : BitVec 4) (k : BitVec 4) (b : BitVec 5) (t : BitVec 1) (s : BitVec 1) : RoundTrip.Statement (.scopy a h k b t s) := by
  obtain ⟨w, e, o, h0, h1, h2, h3, h4, h5, z0⟩ := cut50 144 (by decide) a h k b t s
  have d : decodeFields w = if w.extractLsb' 2 4 == 0 then some (.scopy (w.extractLsb' 19 5) (w.extractLsb' 15 4) (w.extractLsb' 11 4) (w.extractLsb' 6 5) (w.extractLsb' 1 1) (w.extractLsb' 0 1)) else none := by unfold decodeFields; rw [o]; rfl
  exact RoundTrip.control (w := w) (by rw [e]; rfl) rfl (by rw [d, z0, h0, h1, h2, h3, h4, h5]; rfl)

theorem RoundTrip.sacc (a : BitVec 5) (h : BitVec 4) (b : BitVec 5) (o : BitVec 3) (l : BitVec 1) : RoundTrip.Statement (.sacc a h b o l) := by
  obtain ⟨w, e, o, h0, h1, h2, h3, h4, z0, z1⟩ := cut51 145 (by decide) a h b o l
  have d : decodeFields w = if w.extractLsb' 1 2 == 0 && w.extractLsb' 11 4 == 0 then some (.sacc (w.extractLsb' 19 5) (w.extractLsb' 15 4) (w.extractLsb' 6 5) (w.extractLsb' 3 3) (w.extractLsb' 0 1)) else none := by unfold decodeFields; rw [o]; rfl
  exact RoundTrip.control (w := w) (by rw [e]; rfl) rfl (by rw [d, z0, z1, h0, h1, h2, h3, h4]; rfl)

theorem RoundTrip.scas (a : BitVec 5) (h : BitVec 4) (k : BitVec 4) (b : BitVec 5) (o : BitVec 3) (t : BitVec 2) (l : BitVec 1) : RoundTrip.Statement (.scas a h k b o t l) := by
  obtain ⟨w, e, o, h0, h1, h2, h3, h4, h5, h6⟩ := cut52 146 (by decide) a h k b o t l
  have d : decodeFields w = some (.scas (w.extractLsb' 19 5) (w.extractLsb' 15 4) (w.extractLsb' 11 4) (w.extractLsb' 6 5) (w.extractLsb' 3 3) (w.extractLsb' 1 2) (w.extractLsb' 0 1)) := by unfold decodeFields; rw [o]; rfl
  exact RoundTrip.control (w := w) (by rw [e]; rfl) rfl (by rw [d, h0, h1, h2, h3, h4, h5, h6])

theorem RoundTrip.sscadd (a : BitVec 5) (h : BitVec 4) (k : BitVec 4) (b : BitVec 5) (o : BitVec 3) : RoundTrip.Statement (.sscadd a h k b o) := by
  obtain ⟨w, e, o, h0, h1, h2, h3, h4, z0⟩ := cut53 147 (by decide) a h k b o
  have d : decodeFields w = if w.extractLsb' 0 3 == 0 then some (.sscadd (w.extractLsb' 19 5) (w.extractLsb' 15 4) (w.extractLsb' 11 4) (w.extractLsb' 6 5) (w.extractLsb' 3 3)) else none := by unfold decodeFields; rw [o]; rfl
  exact RoundTrip.control (w := w) (by rw [e]; rfl) rfl (by rw [d, z0, h0, h1, h2, h3, h4]; rfl)

theorem RoundTrip.squant (a : BitVec 5) (b : BitVec 5) : RoundTrip.Statement (.squant a b) := by
  obtain ⟨w, e, o, h0, h1, z0, z1⟩ := cut41 148 (by decide) a b
  have d : decodeFields w = if w.extractLsb' 0 6 == 0 && w.extractLsb' 11 8 == 0 then some (.squant (w.extractLsb' 19 5) (w.extractLsb' 6 5)) else none := by unfold decodeFields; rw [o]; rfl
  exact RoundTrip.control (w := w) (by rw [e]; rfl) rfl (by rw [d, z0, z1, h0, h1]; rfl)

theorem RoundTrip.sdqnt (a : BitVec 5) (b : BitVec 5) : RoundTrip.Statement (.sdqnt a b) := by
  obtain ⟨w, e, o, h0, h1, z0, z1⟩ := cut41 149 (by decide) a b
  have d : decodeFields w = if w.extractLsb' 0 6 == 0 && w.extractLsb' 11 8 == 0 then some (.sdqnt (w.extractLsb' 19 5) (w.extractLsb' 6 5)) else none := by unfold decodeFields; rw [o]; rfl
  exact RoundTrip.control (w := w) (by rw [e]; rfl) rfl (by rw [d, z0, z1, h0, h1]; rfl)

theorem RoundTrip.sdecomp (a : BitVec 5) (h : BitVec 4) (b : BitVec 5) (m : BitVec 1) : RoundTrip.Statement (.sdecomp a h b m) := by
  obtain ⟨w, e, o, h0, h1, h2, h3, z0, z1⟩ := cut38 150 (by decide) a h b m
  have d : decodeFields w = if w.extractLsb' 1 5 == 0 && w.extractLsb' 11 4 == 0 then some (.sdecomp (w.extractLsb' 19 5) (w.extractLsb' 15 4) (w.extractLsb' 6 5) (w.extractLsb' 0 1)) else none := by unfold decodeFields; rw [o]; rfl
  exact RoundTrip.control (w := w) (by rw [e]; rfl) rfl (by rw [d, z0, z1, h0, h1, h2, h3]; rfl)

theorem RoundTrip.sread (a : BitVec 5) (b : BitVec 5) : RoundTrip.Statement (.sread a b) := by
  obtain ⟨w, e, o, h0, h1, z0, z1⟩ := cut41 151 (by decide) a b
  have d : decodeFields w = if w.extractLsb' 0 6 == 0 && w.extractLsb' 11 8 == 0 then some (.sread (w.extractLsb' 19 5) (w.extractLsb' 6 5)) else none := by unfold decodeFields; rw [o]; rfl
  exact RoundTrip.control (w := w) (by rw [e]; rfl) rfl (by rw [d, z0, z1, h0, h1]; rfl)

theorem RoundTrip.sreads (a : BitVec 5) (h : BitVec 4) : RoundTrip.Statement (.sreads a h) := by
  obtain ⟨w, e, o, h0, h1, z0⟩ := cut40 152 (by decide) a h
  have d : decodeFields w = if w.extractLsb' 0 15 == 0 then some (.sreads (w.extractLsb' 19 5) (w.extractLsb' 15 4)) else none := by unfold decodeFields; rw [o]; rfl
  exact RoundTrip.control (w := w) (by rw [e]; rfl) rfl (by rw [d, z0, h0, h1]; rfl)

theorem RoundTrip.rput (a : BitVec 5) (h : BitVec 4) (b : BitVec 5) (o : BitVec 1) (s : BitVec 1) : RoundTrip.Statement (.rput a h b o s) := by
  obtain ⟨w, e, o, h0, h1, h2, h3, h4, z0, z1⟩ := cut54 153 (by decide) a h b o s
  have d : decodeFields w = if w.extractLsb' 1 4 == 0 && w.extractLsb' 11 4 == 0 then some (.rput (w.extractLsb' 19 5) (w.extractLsb' 15 4) (w.extractLsb' 6 5) (w.extractLsb' 5 1) (w.extractLsb' 0 1)) else none := by unfold decodeFields; rw [o]; rfl
  exact RoundTrip.control (w := w) (by rw [e]; rfl) rfl (by rw [d, z0, z1, h0, h1, h2, h3, h4]; rfl)

theorem RoundTrip.rputh (a : BitVec 5) (h : BitVec 4) (b : BitVec 5) (o : BitVec 1) (c : BitVec 4) (s : BitVec 1) : RoundTrip.Statement (.rputh a h b o c s) := by
  obtain ⟨w, e, o, h0, h1, h2, h3, h4, h5, z0⟩ := cut55 154 (by decide) a h b o c s
  have d : decodeFields w = if w.extractLsb' 11 4 == 0 then some (.rputh (w.extractLsb' 19 5) (w.extractLsb' 15 4) (w.extractLsb' 6 5) (w.extractLsb' 5 1) (w.extractLsb' 1 4) (w.extractLsb' 0 1)) else none := by unfold decodeFields; rw [o]; rfl
  exact RoundTrip.control (w := w) (by rw [e]; rfl) rfl (by rw [d, z0, h0, h1, h2, h3, h4, h5]; rfl)

theorem RoundTrip.rget (a : BitVec 5) (k : BitVec 4) (b : BitVec 5) (t : BitVec 1) : RoundTrip.Statement (.rget a k b t) := by
  obtain ⟨w, e, o, h0, h1, h2, h3, z0, z1, z2⟩ := cut56 155 (by decide) a k b t
  have d : decodeFields w = if w.extractLsb' 0 1 == 0 && w.extractLsb' 2 4 == 0 && w.extractLsb' 15 4 == 0 then some (.rget (w.extractLsb' 19 5) (w.extractLsb' 11 4) (w.extractLsb' 6 5) (w.extractLsb' 1 1)) else none := by unfold decodeFields; rw [o]; rfl
  exact RoundTrip.control (w := w) (by rw [e]; rfl) rfl (by rw [d, z0, z1, z2, h0, h1, h2, h3]; rfl)

theorem RoundTrip.racc (a : BitVec 5) (h : BitVec 4) (b : BitVec 5) (o : BitVec 3) (t : BitVec 2) (l : BitVec 1) : RoundTrip.Statement (.racc a h b o t l) := by
  obtain ⟨w, e, o, h0, h1, h2, h3, h4, h5, z0⟩ := cut57 156 (by decide) a h b o t l
  have d : decodeFields w = if w.extractLsb' 11 4 == 0 then some (.racc (w.extractLsb' 19 5) (w.extractLsb' 15 4) (w.extractLsb' 6 5) (w.extractLsb' 3 3) (w.extractLsb' 1 2) (w.extractLsb' 0 1)) else none := by unfold decodeFields; rw [o]; rfl
  exact RoundTrip.control (w := w) (by rw [e]; rfl) rfl (by rw [d, z0, h0, h1, h2, h3, h4, h5]; rfl)

theorem RoundTrip.rsig (a : BitVec 5) (b : BitVec 5) (c : BitVec 4) (q : BitVec 1) : RoundTrip.Statement (.rsig a b c q) := by
  obtain ⟨w, e, o, h0, h1, h2, h3, z0, z1⟩ := cut58 157 (by decide) a b c q
  have d : decodeFields w = if w.extractLsb' 5 1 == 0 && w.extractLsb' 11 8 == 0 then some (.rsig (w.extractLsb' 19 5) (w.extractLsb' 6 5) (w.extractLsb' 1 4) (w.extractLsb' 0 1)) else none := by unfold decodeFields; rw [o]; rfl
  exact RoundTrip.control (w := w) (by rw [e]; rfl) rfl (by rw [d, z0, z1, h0, h1, h2, h3]; rfl)

theorem RoundTrip.tlbinv (a : BitVec 5) : RoundTrip.Statement (.tlbinv a) := by
  obtain ⟨w, e, o, h0, z0, z1⟩ := cut25 160 (by decide) a
  have d : decodeFields w = if w.extractLsb' 0 14 == 0 && w.extractLsb' 19 5 == 0 then some (.tlbinv (w.extractLsb' 14 5)) else none := by unfold decodeFields; rw [o]; rfl
  exact RoundTrip.control (w := w) (by rw [e]; rfl) rfl (by rw [d, z0, z1, h0]; rfl)

theorem RoundTrip.tlbinva : RoundTrip.Statement .tlbinva := RoundTrip.control rfl rfl rfl

theorem RoundTrip.xlat (d : BitVec 5) (a : BitVec 5) : RoundTrip.Statement (.xlat d a) := by
  obtain ⟨w, e, o, h0, h1, z0⟩ := cut21 162 (by decide) d a
  have d : decodeFields w = if w.extractLsb' 0 14 == 0 then some (.xlat (w.extractLsb' 19 5) (w.extractLsb' 14 5)) else none := by unfold decodeFields; rw [o]; rfl
  exact RoundTrip.control (w := w) (by rw [e]; rfl) rfl (by rw [d, z0, h0, h1]; rfl)

theorem RoundTrip.rngset (a : BitVec 5) (r : BitVec 6) (w : BitVec 2) : RoundTrip.Statement (.rngset a r w) := by
  obtain ⟨w, e, o, h0, h1, h2, z0, z1⟩ := cut59 163 (by decide) a r w
  have d : decodeFields w = if w.extractLsb' 2 6 == 0 && w.extractLsb' 19 5 == 0 then some (.rngset (w.extractLsb' 14 5) (w.extractLsb' 8 6) (w.extractLsb' 0 2)) else none := by unfold decodeFields; rw [o]; rfl
  exact RoundTrip.control (w := w) (by rw [e]; rfl) rfl (by rw [d, z0, z1, h0, h1, h2]; rfl)

theorem RoundTrip.rngget (d : BitVec 5) (r : BitVec 6) (l : BitVec 1) (w : BitVec 2) : RoundTrip.Statement (.rngget d r l w) := by
  obtain ⟨w, e, o, h0, h1, h2, h3, z0, z1⟩ := cut60 164 (by decide) d r l w
  have d : decodeFields w = if w.extractLsb' 3 5 == 0 && w.extractLsb' 14 5 == 0 then some (.rngget (w.extractLsb' 19 5) (w.extractLsb' 8 6) (w.extractLsb' 2 1) (w.extractLsb' 0 2)) else none := by unfold decodeFields; rw [o]; rfl
  exact RoundTrip.control (w := w) (by rw [e]; rfl) rfl (by rw [d, z0, z1, h0, h1, h2, h3]; rfl)

theorem RoundTrip.rngcommit : RoundTrip.Statement .rngcommit := RoundTrip.control rfl rfl rfl

theorem RoundTrip.psplit (a : BitVec 5) : RoundTrip.Statement (.psplit a) := by
  obtain ⟨w, e, o, h0, z0, z1⟩ := cut25 166 (by decide) a
  have d : decodeFields w = if w.extractLsb' 0 14 == 0 && w.extractLsb' 19 5 == 0 then some (.psplit (w.extractLsb' 14 5)) else none := by unfold decodeFields; rw [o]; rfl
  exact RoundTrip.control (w := w) (by rw [e]; rfl) rfl (by rw [d, z0, z1, h0]; rfl)

theorem RoundTrip.pown (a : BitVec 5) (b : BitVec 5) : RoundTrip.Statement (.pown a b) := by
  obtain ⟨w, e, o, h0, h1, z0, z1⟩ := cut49 167 (by decide) a b
  have d : decodeFields w = if w.extractLsb' 0 9 == 0 && w.extractLsb' 19 5 == 0 then some (.pown (w.extractLsb' 14 5) (w.extractLsb' 9 5)) else none := by unfold decodeFields; rw [o]; rfl
  exact RoundTrip.control (w := w) (by rw [e]; rfl) rfl (by rw [d, z0, z1, h0, h1]; rfl)

theorem RoundTrip.pdup (a : BitVec 5) (b : BitVec 5) : RoundTrip.Statement (.pdup a b) := by
  obtain ⟨w, e, o, h0, h1, z0, z1⟩ := cut49 168 (by decide) a b
  have d : decodeFields w = if w.extractLsb' 0 9 == 0 && w.extractLsb' 19 5 == 0 then some (.pdup (w.extractLsb' 14 5) (w.extractLsb' 9 5)) else none := by unfold decodeFields; rw [o]; rfl
  exact RoundTrip.control (w := w) (by rw [e]; rfl) rfl (by rw [d, z0, z1, h0, h1]; rfl)

theorem RoundTrip.pstat (d : BitVec 5) (a : BitVec 5) : RoundTrip.Statement (.pstat d a) := by
  obtain ⟨w, e, o, h0, h1, z0⟩ := cut21 169 (by decide) d a
  have d : decodeFields w = if w.extractLsb' 0 14 == 0 then some (.pstat (w.extractLsb' 19 5) (w.extractLsb' 14 5)) else none := by unfold decodeFields; rw [o]; rfl
  exact RoundTrip.control (w := w) (by rw [e]; rfl) rfl (by rw [d, z0, h0, h1]; rfl)

theorem RoundTrip.asyncTrap (sc : Nat) (c : Nat) : RoundTrip.Statement (.asyncTrap sc c) := RoundTrip.event rfl

theorem RoundTrip.trapHandover (sc : Nat) : RoundTrip.Statement (.trapHandover sc) := RoundTrip.event rfl

theorem RoundTrip.pauseExpiry (sc : Nat) (c : Nat) : RoundTrip.Statement (.pauseExpiry sc c) := RoundTrip.event rfl

theorem RoundTrip.contextWake (sc : Nat) (c : Nat) : RoundTrip.Statement (.contextWake sc c) := RoundTrip.event rfl

theorem RoundTrip.messageContextStart (sc : Nat) : RoundTrip.Statement (.messageContextStart sc) := RoundTrip.event rfl

theorem RoundTrip.entryStart (sc : Nat) (e : Nat) : RoundTrip.Statement (.entryStart sc e) := RoundTrip.event rfl

theorem RoundTrip.streamAgentTransfer (sc : Nat) (e : Nat) : RoundTrip.Statement (.streamAgentTransfer sc e) := RoundTrip.event rfl

theorem RoundTrip.entryRetire (sc : Nat) (e : Nat) : RoundTrip.Statement (.entryRetire sc e) := RoundTrip.event rfl

theorem RoundTrip.entryComplete (sc : Nat) (e : Nat) : RoundTrip.Statement (.entryComplete sc e) := RoundTrip.event rfl

theorem RoundTrip.kernelStoreRelease (sc : Nat) (k : Nat) : RoundTrip.Statement (.kernelStoreRelease sc k) := RoundTrip.event rfl

theorem RoundTrip.streamDeferredFree (sc : Nat) (d : Nat) : RoundTrip.Statement (.streamDeferredFree sc d) := RoundTrip.event rfl

theorem RoundTrip.taskDispatch : RoundTrip.Statement .taskDispatch := RoundTrip.event rfl

theorem RoundTrip.reclamationPoint (f : Nat) : RoundTrip.Statement (.reclamationPoint f) := RoundTrip.event rfl

theorem RoundTrip.taskEnd (sc : Nat) (c : Nat) : RoundTrip.Statement (.taskEnd sc c) := RoundTrip.event rfl

theorem RoundTrip.fsigDelivery (sc : Nat) (c : Nat) : RoundTrip.Statement (.fsigDelivery sc c) := RoundTrip.event rfl

theorem RoundTrip.graphNodeDispatch (g : Nat) (n : Nat) : RoundTrip.Statement (.graphNodeDispatch g n) := RoundTrip.event rfl

theorem RoundTrip.launchRead (q : Nat) : RoundTrip.Statement (.launchRead q) := RoundTrip.event rfl

theorem RoundTrip.budgetExpiry (sc : Nat) (c : Nat) : RoundTrip.Statement (.budgetExpiry sc c) := RoundTrip.event rfl

theorem RoundTrip.qcfgWrite (q : Nat) (v : Word) : RoundTrip.Statement (.qcfgWrite q v) := RoundTrip.event rfl

theorem RoundTrip.qtailWrite (q : Nat) (v : Word) : RoundTrip.Statement (.qtailWrite q v) := RoundTrip.event rfl

theorem RoundTrip.qstatRefClear (q : Nat) (v : Word) : RoundTrip.Statement (.qstatRefClear q v) := RoundTrip.event rfl

theorem RoundTrip.drecValidate (i : Nat) (v : Word) : RoundTrip.Statement (.drecValidate i v) := RoundTrip.event rfl

theorem RoundTrip.fidWrite (v : Word) : RoundTrip.Statement (.fidWrite v) := RoundTrip.event rfl

theorem RoundTrip.kspWrite (sc : Nat) (v : Word) : RoundTrip.Statement (.kspWrite sc v) := RoundTrip.event rfl

theorem RoundTrip.ptbWrite (sc : Nat) (v : Word) : RoundTrip.Statement (.ptbWrite sc v) := RoundTrip.event rfl

theorem RoundTrip.plimWrite (v : Word) : RoundTrip.Statement (.plimWrite v) := RoundTrip.event rfl

theorem RoundTrip.tthrWrite (v : Word) : RoundTrip.Statement (.tthrWrite v) := RoundTrip.event rfl

theorem RoundTrip.hlthClear (v : Word) : RoundTrip.Statement (.hlthClear v) := RoundTrip.event rfl

theorem RoundTrip.tagStoreWrite (off : Nat) (v : Word) : RoundTrip.Statement (.tagStoreWrite off v) := RoundTrip.event rfl

theorem RoundTrip.frameMapWrite (off : Nat) (v : Word) : RoundTrip.Statement (.frameMapWrite off v) := RoundTrip.event rfl

theorem RoundTrip.portctlLock (port : Nat) : RoundTrip.Statement (.portctlLock port) := RoundTrip.event rfl

theorem RoundTrip.portctlRun (port : Nat) : RoundTrip.Statement (.portctlRun port) := RoundTrip.event rfl

theorem RoundTrip.portctlUnlock (port : Nat) : RoundTrip.Statement (.portctlUnlock port) := RoundTrip.event rfl

theorem RoundTrip.registerWrite (off : Nat) (v : Word) : RoundTrip.Statement (.registerWrite off v) := RoundTrip.event rfl

theorem RoundTrip.baseDieRead (id : Nat) : RoundTrip.Statement (.baseDieRead id) := RoundTrip.event rfl

theorem RoundTrip.baseDieWrite (id : Nat) : RoundTrip.Statement (.baseDieWrite id) := RoundTrip.event rfl

theorem RoundTrip.baseDieMaskedWrite (id : Nat) : RoundTrip.Statement (.baseDieMaskedWrite id) := RoundTrip.event rfl

theorem RoundTrip.baseDieAccumulate (id : Nat) : RoundTrip.Statement (.baseDieAccumulate id) := RoundTrip.event rfl

theorem RoundTrip.baseDieReply (id : Nat) : RoundTrip.Statement (.baseDieReply id) := RoundTrip.event rfl

theorem RoundTrip.pageWalk (sc : Nat) (va : Word) : RoundTrip.Statement (.pageWalk sc va) := RoundTrip.event rfl

theorem RoundTrip.nvmeCompletion (job : Nat) (cmd : Nat) (status : Half) (data : List Byte) : RoundTrip.Statement (.nvmeCompletion job cmd status data) := RoundTrip.event rfl

theorem RoundTrip.nvmeTimeout (job : Nat) (cmd : Nat) : RoundTrip.Statement (.nvmeTimeout job cmd) := RoundTrip.event rfl

theorem RoundTrip.hostWrite (r : HostReq) : RoundTrip.Statement (.hostWrite r) := RoundTrip.event rfl

theorem RoundTrip.hostRead (r : HostReq) : RoundTrip.Statement (.hostRead r) := RoundTrip.event rfl

theorem RoundTrip.hostAtomic (r : HostReq) : RoundTrip.Statement (.hostAtomic r) := RoundTrip.event rfl

theorem RoundTrip.cxlCacheRequest (line : Nat) (excl : Bool) : RoundTrip.Statement (.cxlCacheRequest line excl) := RoundTrip.event rfl

theorem RoundTrip.bisnpResponse (line : Nat) (dirty : Option (List Byte)) : RoundTrip.Statement (.bisnpResponse line dirty) := RoundTrip.event rfl

theorem RoundTrip.hostLinkTimeout : RoundTrip.Statement .hostLinkTimeout := RoundTrip.event rfl

theorem RoundTrip.dieLoss (die : Nat) (core : Bool) : RoundTrip.Statement (.dieLoss die core) := RoundTrip.event rfl

theorem RoundTrip.stackLoss (stack : Nat) : RoundTrip.Statement (.stackLoss stack) := RoundTrip.event rfl

theorem RoundTrip.bridgeLinkFailure (link : Nat) : RoundTrip.Statement (.bridgeLinkFailure link) := RoundTrip.event rfl

theorem RoundTrip.hubLoss (hub : Nat) : RoundTrip.Statement (.hubLoss hub) := RoundTrip.event rfl

theorem RoundTrip.laneFailure (lane : Nat) : RoundTrip.Statement (.laneFailure lane) := RoundTrip.event rfl

theorem RoundTrip.slotStart : RoundTrip.Statement .slotStart := RoundTrip.event rfl

theorem RoundTrip.framePosition (lane : Nat) (rx : Option RxFrame) : RoundTrip.Statement (.framePosition lane rx) := RoundTrip.event rfl

theorem RoundTrip.payloadWindowEnd : RoundTrip.Statement .payloadWindowEnd := RoundTrip.event rfl

theorem RoundTrip.filler (lane : Nat) (hop : Hop) : RoundTrip.Statement (.filler lane hop) := RoundTrip.event rfl

theorem RoundTrip.put (f : Frame) : RoundTrip.Statement (.put f) := RoundTrip.event rfl

theorem RoundTrip.puth (f : Frame) : RoundTrip.Statement (.puth f) := RoundTrip.event rfl

theorem RoundTrip.getreq (f : Frame) : RoundTrip.Statement (.getreq f) := RoundTrip.event rfl

theorem RoundTrip.getdata (f : Frame) : RoundTrip.Statement (.getdata f) := RoundTrip.event rfl

theorem RoundTrip.acc (f : Frame) : RoundTrip.Statement (.acc f) := RoundTrip.event rfl

theorem RoundTrip.sig (f : Frame) : RoundTrip.Statement (.sig f) := RoundTrip.event rfl

theorem RoundTrip.ack (f : Frame) : RoundTrip.Statement (.ack f) := RoundTrip.event rfl

theorem RoundTrip.descriptorFrame (f : Frame) : RoundTrip.Statement (.descriptorFrame f) := RoundTrip.event rfl

theorem RoundTrip.relayFrame (lane : Nat) (f : Frame) : RoundTrip.Statement (.relayFrame lane f) := RoundTrip.event rfl

theorem RoundTrip.e2eTimeout (dst : Nat) (op : Nat) : RoundTrip.Statement (.e2eTimeout dst op) := RoundTrip.event rfl

theorem RoundTrip.livenessTimeout (pkg : Nat) : RoundTrip.Statement (.livenessTimeout pkg) := RoundTrip.event rfl

theorem RoundTrip.getCertificate (slot : Spdm Nat) : RoundTrip.Statement (.getCertificate slot) := RoundTrip.event rfl

theorem RoundTrip.challenge (nonce : Spdm (List Byte)) : RoundTrip.Statement (.challenge nonce) := RoundTrip.event rfl

theorem RoundTrip.getMeasurements (index : Spdm Nat) : RoundTrip.Statement (.getMeasurements index) := RoundTrip.event rfl

theorem RoundTrip.keyUpdate (peer : Nat) : RoundTrip.Statement (.keyUpdate peer) := RoundTrip.event rfl

theorem RoundTrip.moduleReset (b : BootInput) : RoundTrip.Statement (.moduleReset b) := RoundTrip.event rfl

theorem RoundTrip.thermalTrip : RoundTrip.Statement .thermalTrip := RoundTrip.event rfl

theorem RoundTrip.powerSample (p : PowerSample) : RoundTrip.Statement (.powerSample p) := RoundTrip.event rfl

theorem RoundTrip.illegalInstruction (w : W32) : RoundTrip.Statement (.illegalInstruction w) := fun _ _ _ => ⟨fun _ h => absurd rfl (h w), fun _ h => nomatch h⟩

theorem RoundTrip.fetchFault (va : Word) : RoundTrip.Statement (.fetchFault va) := RoundTrip.event rfl

theorem RoundTrip.copyEngineTransfer (sc : Nat) (e : Nat) : RoundTrip.Statement (.copyEngineTransfer sc e) := RoundTrip.event rfl

theorem RoundTrip.dceBlockWrite (sc : Nat) (e : Nat) : RoundTrip.Statement (.dceBlockWrite sc e) := RoundTrip.event rfl

theorem RoundTrip.portLinkFailure (port : Nat) : RoundTrip.Statement (.portLinkFailure port) := RoundTrip.event rfl

theorem RoundTrip.configurationRequest (port : Nat) (reg : Nat) : RoundTrip.Statement (.configurationRequest port reg) := RoundTrip.event rfl

theorem RoundTrip.spdmSession (peer : Spdm Nat) : RoundTrip.Statement (.spdmSession peer) := RoundTrip.event rfl

end Sys2Proof.Laws
end

