-- ==== Sys2Proof/Safety.lean ====
section
/-!
DEFINITION. The terms claims are stated in: what a step keeps, what an instruction leaves unchanged, and what it means for
one to complete with its own effect.  Nothing here gives an instruction a meaning.
-/

namespace Sys2Proof.Machine

/-! ## Safe runs -/

/-- A state is safe when its memory is in canonical form and every line of a data cache holds 64 bytes.  Every step keeps it. -/
def State.Safe (s : State) : Prop :=
  s.memOk = true ∧ ∀ n k l, tget (s.sc n).lines k = some l → l.data.length = 64

/-- The machine goes on from a state: a step of it is a next state, never a fault and never a refusal. -/
def State.GoesOn (s : State) : Prop := ∃ t, step s = .next t

/-! ## Frames -/

/-- `t` differs from `s` in the executing context alone. -/
def OnlyMe (s t : State) : Prop := t = s.setCtx s.cur.sc s.cur.ctx t.me ∧ ∀ a, t.byte a = s.byte a

/-- `t` differs from `s` in the run being issued alone. -/
def OnlyRun (s t : State) : Prop := t = s.setRun s.cur.sc s.cur.run t.myRun ∧ ∀ a, t.byte a = s.byte a

/-- `t` differs from `s` in one cluster alone. -/
def OnlySc (n : Nat) (s t : State) : Prop := t = s.setSc n (t.sc n)

/-- Every byte of memory reads as before, as every coherent agent sees it. -/
def SameBytes (s t : State) : Prop := ∀ a, t.byte a = s.byte a

/-- What issuing an operation leaves of a run: all but results in flight, latches, debug marks and noted faults. -/
def SameRun (r q : Run) : Prop :=
  q = { r with pend := q.pend, latches := q.latches, marks := q.marks, faults := q.faults }

/-! ## Completion of kernel operations -/

/-- Debug marks of a result (R36). -/
def marksOf : Effect → List (Nat × Mask)
  | .reg d _ m => [(d, m)]
  | _ => []

/-- The operation completes: its result `e` is in flight with a latency, the latched inputs are latched, and nothing
else of the module changes (R17, R45). -/
def Lands (i : Instr) (s : State) (lat : Nat) (e : Effect) (latched : List (Nat × Row)) : Prop :=
  ∃ t, exec i s = .next t ∧ OnlyRun s t ∧ SameRun s.myRun t.myRun
    ∧ t.myRun.pend = s.myRun.pend ++ [⟨lat, e⟩]
    ∧ t.myRun.marks = s.myRun.marks ++ marksOf e
    ∧ t.myRun.faults = s.myRun.faults ++ s.myRun.pendingReads s.cur.syl i
    ∧ t.myRun.latches = latched.foldl (fun l p => tput l p.1 p.2) s.myRun.latches

/-- The operation completes and makes the run being issued `q`; debug mode notes the faults of its reads (R36). -/
def Makes (i : Instr) (s : State) (q : Run) : Prop :=
  ∃ t, exec i s = .next t ∧ OnlyRun s t
    ∧ t.myRun = { q with faults := s.myRun.faults ++ s.myRun.pendingReads s.cur.syl i }

/-- The operation notes a stream fault of a code in some cores and does nothing else (R34, R35). -/
def NotesFault (i : Instr) (s : State) (code : Nat) (cores : List Nat) : Prop :=
  ∃ t, exec i s = .next t ∧ OnlyRun s t
    ∧ t.myRun = { s.myRun with faults := s.myRun.faults ++ s.myRun.pendingReads s.cur.syl i ++ cores.map (fun c => (c, code)) }

/-- The value an input of the operation being issued supplies (R45). -/
def State.inA (s : State) (rd : Reading) (c : BitVec 8) : Row := s.myRun.input s.cur.syl false rd c.toNat
def State.inB (s : State) (rd : Reading) (c : BitVec 8) : Row := s.myRun.input s.cur.syl true rd c.toNat

/-- The lanes a predicate enables (R42, R68). -/
def State.mask (s : State) (p : BitVec 2) : Mask := s.myRun.predicate p.toNat

/-- The latches of both inputs, or of input A. -/
def State.latchA (s : State) (rd : Reading) (a : BitVec 8) : List (Nat × Row) := [(latchIx s.cur.syl false, s.inA rd a)]
def State.latchAB (s : State) (ra rb : Reading) (a b : BitVec 8) : List (Nat × Row) :=
  [(latchIx s.cur.syl false, s.inA ra a), (latchIx s.cur.syl true, s.inB rb b)]

/-- Every lane of a row relates to the lanes of two others. -/
def Lanes2 {α β γ : Type} (x : List α) (y : List β) (v : List γ) (law : α → β → γ → Prop) : Prop :=
  v.length = min x.length y.length ∧ ∀ (k : Nat) a b c, x[k]? = some a → y[k]? = some b → v[k]? = some c → law a b c

/-- Every lane of a row relates to the lane of another. -/
def Lanes1 {α γ : Type} (x : List α) (v : List γ) (law : α → γ → Prop) : Prop :=
  v.length = x.length ∧ ∀ (k : Nat) a c, x[k]? = some a → v[k]? = some c → law a c

/-- A lane operation of form V3 (R49, R103). -/
def LaneOp (i : Instr) (s : State) (ra rb : Reading) (lat : Nat) (p : BitVec 2) (d a b : BitVec 8)
    (law : W32 → W32 → W32 → Prop) : Prop :=
  ∃ v, Lands i s lat (.reg d.toNat v (s.mask p)) (s.latchAB ra rb a b) ∧ Lanes2 (s.inA ra a) (s.inB rb b) v law

/-- A lane operation of form V2. -/
def LaneOp1 (i : Instr) (s : State) (rd : Reading) (lat : Nat) (p : BitVec 2) (d a : BitVec 8)
    (law : W32 → W32 → Prop) : Prop :=
  ∃ v, Lands i s lat (.reg d.toNat v (s.mask p)) (s.latchA rd a) ∧ Lanes1 (s.inA rd a) v law

/-- A lane operation of form VD, which reads its destination. -/
def LaneOpD (i : Instr) (s : State) (rd : Reading) (lat : Nat) (p : BitVec 2) (d a b : BitVec 8)
    (law : W32 → W32 → W32 → W32 → Prop) : Prop :=
  ∃ v, Lands i s lat (.reg d.toNat v (s.mask p)) (s.latchAB rd rd a b)
    ∧ Lanes2 (s.myRun.reg d.toNat) (List.zip (s.inA rd a) (s.inB rd b)) v (fun x y z => law x y.1 y.2 z)

/-- A compare, to a predicate (R107, R116). -/
def LaneCmp (i : Instr) (s : State) (rd : Reading) (lat : Nat) (p : BitVec 2) (d a b : BitVec 8)
    (law : W32 → W32 → Bool → Prop) : Prop :=
  ∃ v, Lands i s lat (.pred d.toNat v (s.mask p)) (s.latchAB rd rd a b) ∧ Lanes2 (s.inA rd a) (s.inB rd b) v law

/-- A halfword-pair law from an element law (R106). -/
def Halves (law : Half → Half → Half → Prop) (x y z : W32) : Prop :=
  law (elem0 x) (elem0 y) (elem0 z) ∧ law (elem1 x) (elem1 y) (elem1 z)

/-- An exact integer clamped to a range (R103). -/
def clamp (x lo hi : Int) : Int := max lo (min hi x)

/-! ## Completion of control-core instructions -/

/-- No register of the list waits for the value of an SCAS or of an uncached load (R188, R315). -/
def State.Filled (s : State) (rs : List (BitVec 5)) : Prop :=
  ∀ r ∈ rs, r ≠ 0 → s.me.unfilled.contains r.toNat = false ∧ s.me.unfilled.contains (r.toNat + 32) = false

/-- What an instruction that writes a register and moves on makes of the executing context: general register d (a write to
g0 is discarded, R190), the pc, and the end of a wait. -/
def Ctx.Wrote (x y : Ctx) (d : Nat) (v : Word) : Prop :=
  y = { x with g := y.g, pc := x.pc + 4, wait := none } ∧ ∀ r, y.reg r = if r = d ∧ r ≠ 0 then v else x.reg r

/-- The instruction completes: it writes g[d] and moves on, and nothing else of the module changes. -/
def Writes (i : Instr) (s : State) (d : BitVec 5) (v : Word) : Prop :=
  ∃ t, exec i s = .next t ∧ OnlyMe s t ∧ s.me.Wrote t.me d.toNat v

/-- The instruction completes: execution continues at an address, and nothing else changes. -/
def GoesTo (i : Instr) (s : State) (a : Word) : Prop :=
  ∃ t, exec i s = .next t ∧ OnlyMe s t ∧ t.me = { s.me with pc := a, wait := none }

/-- The context takes a trap: TCAUSE, TVAL and TPC are recorded, it is TRAPPED, it writes no register, and memory stays
(R203). -/
def Traps (i : Instr) (s : State) (cause : Nat) (tval tpc : Word) : Prop :=
  ∃ t, exec i s = .next t ∧ SameBytes s t
    ∧ t.me = { s.me with st := .trapped, tcause := BitVec.ofNat 64 cause, tval := tval, tpc := tpc, wait := none, pause := 0 }

/-- The instruction blocks on a wait, does nothing else, and issues again when the wait is over (R165). -/
def Blocks (i : Instr) (s : State) (w : Wait) : Prop :=
  ∃ t, exec i s = .next t ∧ OnlyMe s t ∧ t.me.st = .blocked ∧ t.me.wait = some w ∧ t.me.pc = s.me.pc
    ∧ ∀ r, t.me.reg r = s.me.reg r

/-- The instruction completes in the state `t`, which is that of `s` with the pc moved on and a wait ended. -/
def Completes (i : Instr) (s t : State) : Prop := exec i s = .next t.fin

/-- Every earlier access of the executing context has performed, so an instruction that follows them all may issue
(R306). -/
def State.Settled (s : State) : Prop := s.performed s.cur.sc s.cur.ctx = true

/-- No context but the executing one waits for a tag, and every stack has a free tag of the control core's port for each of the
accesses that goes to it (R284, R315). -/
def State.TagsFor (s : State) (xs : List Xlat) : Prop :=
  (∀ e ∈ s.mySc.tagQ, e.1 = s.cur.ctx) ∧ ∀ y ∈ xs,
    (xs.filter (fun z => (stackOf s.topo (localOf z.pa)).1 == (stackOf s.topo (localOf y.pa)).1)).length
      ≤ ((List.range 8).filter (fun t => !(s.tagsUsed (stackOf s.topo (localOf y.pa)).1 (corePort s.cur.sc)).contains t)).length

/-- A cached access of an address finds no earlier request of its port to the line still to perform, and replaces no line (R284,
R396). -/
def State.Quiet (s : State) (a : Nat) : Prop :=
  s.earlier (corePort s.cur.sc) (64 * (a / 64)) 64 = []
    ∧ (thas s.mySc.lines (a / 64) = true ∨ s.mySc.lines.length < cacheLines)

/-- The same of several accesses, with room for a line each. -/
def State.QuietAll (s : State) (xs : List Xlat) : Prop :=
  (∀ x ∈ xs, s.earlier (corePort s.cur.sc) (64 * (localOf x.pa / 64)) 64 = [])
    ∧ s.mySc.lines.length + xs.length ≤ cacheLines

/-- The scoreboard entry an instruction issues: its work, stream ends and flag (R168, R212). -/
def Entry.Does (e : Entry) (w : Work) (ends : List End') (flag : Option Nat) : Prop :=
  e.work = w ∧ e.ends = ends ∧ e.flag = flag

/-- No request of the executing control core's port is still to perform: an access it makes is met by none (R284). -/
def State.PortQuiet (s : State) : Prop := ∀ p ∈ s.pkts, p.2.port = corePort s.cur.sc → p.2.done = true

/-- A stream instruction completes: a WAITING entry of the executing context's owner joins the scoreboard, the context
moves on, no general register changes, and no byte of memory does, but by a request of the core's port that was still to
perform when a record is read (R168, R211, R284). -/
def Enters (i : Instr) (s : State) (w : Work) (ends : List End') (flag : Option Nat) : Prop :=
  ∃ t e, exec i s = .next t
    ∧ t.mySc.entries = s.mySc.entries ++ [e] ∧ e.Does w ends flag ∧ e.owner = s.myOwner ∧ e.st = .waiting
    ∧ e.id = s.mySc.nextEntry ∧ t.mySc.nextEntry = s.mySc.nextEntry + 1
    ∧ t.me.pc = s.me.pc + 4 ∧ t.me.st = s.me.st ∧ (∀ r, t.me.reg r = s.me.reg r) ∧ (s.PortQuiet → t.mem = s.mem)

/-! ## The end of an activity -/

/-- Each child of a list that is live and held in `v` has lost its spawn reference in `t`, once: HELD is clear and COUNT one less, and
one whose COUNT is then 0 is FREE under its next generation when its future is terminal or READY, and RECLAIMED when it runs (R243,
R246, R247). -/
def DropsKids (v t : State) (kids : List Nat) : Prop :=
  (kids.map futKey).Nodup → ∀ h ∈ kids, v.futLive h = true → (v.fut (futKey h)).held = true →
    let f := v.fut (futKey h)
    let g := t.fut (futKey h)
    (f.count ≠ 1 → g.st = f.st ∧ g.count = f.count - 1 ∧ g.held = false)
    ∧ (f.count = 1 → (f.st = .done ∨ f.st = .faulted ∨ f.st = .ready) → g.st = .free ∧ g.gen = (f.gen + 1) % 16384)
    ∧ (f.count = 1 → f.st = .running → g.st = .reclaimed ∧ g.count = 0 ∧ g.held = false)

/-- Each membership of a list has ended: a live barrier loses the participant, by an arrive-and-drop, or by a drop alone where it has
arrived in the phase (R253). -/
def EndsMembers (v t : State) (n : Nat) (ms : List Member) : Prop :=
  (ms.map Member.h).Nodup → ∀ m ∈ ms, m.dropped = false → v.barOk n m.h = true → (v.barrier n m.h).exp ≠ 0 →
    let b := v.barrier n m.h
    t.barrier n m.h = if m.phase = b.phase then { b with drops := b.drops + 1 } else b.arrive true

/-- Each stream of an owner in an SC is freed, or will be once the last entry that uses it has retired (R179). -/
def FreesStreams (v t : State) (n : Nat) (o : Owner) : Prop :=
  ∀ d x, tget (v.sc n).streams d = some x → x.owner = o → x.dying = false →
    tget (t.sc n).streams d =
      if (v.sc n).entries.any (fun e => e.uses d && e.st != .retired) then some { x with dying := true } else none

/-- The activity of message or system context c of SC n has ended: its WAITING entries are cancelled, its memberships end, what it holds
is dropped, its streams are freed, and the context is FREE (R206, R246). -/
def ActivityOver (s t : State) (n c : Nat) : Prop :=
  let o := Owner.ctx c
  let v := s.cancelWaiting n o
  (t.ctx n c).st = .free ∧ (∀ e ∈ (v.sc n).entries, e.owner = o → e.st ≠ .waiting)
    ∧ DropsKids v t (s.ctx n c).kids ∧ EndsMembers v t n (s.ctx n c).members ∧ FreesStreams v t n o

/-- A task's future and what it leaves, once its WAITING entries are cancelled and its node has ended. -/
def State.ending (s : State) (n c : Nat) (st : FutSt) (status : Nat) (result : Word) : State :=
  let k := futKey (s.ctx n c).fut.toNat
  let o := Owner.task (s.handleOf k)
  let t := (s.modFut k (fun y => { y with st := st, status := status, result := result })).cancelWaiting n o
  (t.leaveMotion n o (s.fut k)).nodeEnd (s.fut k) (if st = .done then none else some status)

/-- The task in context c of SC n has ended: its future is DONE or FAULTED with its STATUS and RESULT, its memberships have ended, what
it holds is dropped once, its streams are freed and its context is FREE; the reference that a launch, a graph or the package holds
to it is dropped, and its launch counts it (R238, R242, R246, R335). -/
def TaskOver (s t : State) (n c : Nat) (st : FutSt) (status : Nat) (result : Word) : Prop :=
  let x := s.ctx n c
  let k := futKey x.fut.toNat
  let f := s.fut k
  let o := Owner.task (s.handleOf k)
  let v := s.ending n c st status result
  let g := v.fut k
  let h := t.fut k
  let kept : Prop := f.launch = none ∧ f.node = none ∧ f.unlimited = false
  (t.ctx n c).st = .free
    ∧ ((∀ p, f.node = some p → (tgetD s.graphs p.1 {}).fut ≠ k) →
        g.st = st ∧ g.status = status ∧ g.result = result ∧ g.count = f.count ∧ g.gen = f.gen)
    ∧ EndsMembers v t n x.members ∧ FreesStreams v t n o
    ∧ (k ∉ f.kids.map futKey → DropsKids v t f.kids
        ∧ (kept → h.st = g.st ∧ h.status = g.status ∧ h.result = g.result ∧ h.gen = g.gen ∧ h.count = g.count ∧ h.held = g.held)
        ∧ (¬kept → g.count ≠ 1 → h.st = g.st ∧ h.status = g.status ∧ h.result = g.result ∧ h.gen = g.gen ∧ h.count = g.count - 1)
        ∧ (¬kept → g.count = 1 → g.st = st → (st = .done ∨ st = .faulted) → h.st = .free ∧ h.gen = (g.gen + 1) % 16384))
    ∧ ∀ l y, f.launch = some l → tget v.launches l = some y → y.ended + 1 < y.count →
        ∃ z, tget t.launches l = some z ∧ z.ended = y.ended + 1
          ∧ z.done = y.done + (if st = .done then 1 else 0) ∧ z.faulted = y.faulted + (if st = .done then 0 else 1)

/-- The task of future k, with context x on SC n, is reclaimed: its entries that wait are cancelled and its runs stop, its streams are
freed, its memberships end, its node ends poisoned, what it holds is dropped once, and its future is FREE under its next generation,
with no slice and no place left (R247, R259). -/
def Reclaimed (s t : State) (k n : Nat) (x : Ctx) : Prop :=
  let f := s.fut k
  let o := Owner.task (s.handleOf k)
  let v := (((s.cancelWaiting n o).stopRuns n o).leaveMotion n o f).dropQueues n o
  let u := (v.releaseStreams n o).endMembers n x.members
  let w := u.nodeEnd f (some 0)
  (t.fut k).st = .free ∧ (∀ z ∈ t.slices, z.fut ≠ k) ∧ tget t.sleepers k = none
    ∧ ((∀ p, f.node = some p → (tgetD s.graphs p.1 {}).fut ≠ k) → k ∉ f.kids.map futKey → (t.fut k).gen = (f.gen + 1) % 16384)
    ∧ FreesStreams v u n o ∧ EndsMembers v u n x.members ∧ (f.node = none → FreesStreams v t n o ∧ EndsMembers v t n x.members)
    ∧ (k ∉ f.kids.map futKey → DropsKids w t f.kids)
    ∧ ∀ p ∈ (v.sc n).runs, p.2.owner = o → p.2.phase ≠ .retired ∧ ((p.2.phase = .running ∨ p.2.phase = .saved) → p.2.stop = true)

/-- Node i of graph gi ends, with a STATUS where it is FAULTED, sending edges on what is left of set 0 and, where `k1` says so, on set 1: each
edge lowers the counter of its node by 1 and tells it its kind.  A graph whose other nodes have all ended is then DONE with the
number of its FAULTED node runs as RESULT; as a launch's, once its effects are made, it completes the launch, which drops it (R257, R259,
R335). -/
def NodeOver (v t : State) (gi i : Nat) (k0 : EdgeKind) (k1 : Option EdgeKind) (fault : Option Nat) : Prop :=
  ∀ g x, tget v.graphs gi = some g → g.nodes[i]? = some x →
    let hits (j : Nat) : Nat := x.unsent.count j + (if k1.isSome then x.e1.count j else 0)
    let gets (k : EdgeKind) (j : Nat) : Prop := (k0 = k ∧ j ∈ x.unsent) ∨ (k1 = some k ∧ j ∈ x.e1)
    let faulted := g.faulted + (if fault.isSome then 1 else 0)
    let f := v.fut g.fut
    let h := t.fut g.fut
    (∀ g', tget t.graphs gi = some g' → g'.faulted = faulted ∧ g'.nodes.length = g.nodes.length
      ∧ (∃ y, g'.nodes[i]? = some y ∧ y.st = .ended ∧ y.fut = none ∧ y.jobs = [] ∧ y.status = fault.getD 0)
      ∧ ∀ j a, g.nodes[j]? = some a → ∃ b, g'.nodes[j]? = some b ∧ b.ctr = a.ctr - hits j
          ∧ (b.poisoned = true ↔ a.poisoned = true ∨ gets .poison j) ∧ (b.normal = true ↔ a.normal = true ∨ gets .normal j)
          ∧ (j ≠ i → b = { a with ctr := b.ctr, zeroAt := b.zeroAt, poisoned := b.poisoned, normal := b.normal }))
    ∧ ((∃ j y, g.nodes[j]? = some y ∧ j ≠ i ∧ y.st = .running) → h = f)
    ∧ ((∀ j y, g.nodes[j]? = some y → j ≠ i → y.st = .ended) → f.st = .running →
        (g.launch = none → h.st = .done ∧ h.result = BitVec.ofNat 64 faulted ∧ h.status = 0)
        ∧ ∀ l y, g.launch = some l → tget v.launches l = some y → (∀ m ∈ g.motion, v.motionOver m = true) → f.count = 1 →
            h.st = .free ∧ tget t.launches l = none ∧ (t.queue y.queue).infl = (v.queue y.queue).infl - 1)

/-! ## Accesses of the data engines -/

/-- No frame is compressed, no sector has an uncorrectable error, every stack is live, and the state is safe. -/
def State.Plain (s : State) : Prop := s.Safe ∧ (∀ st off, s.mode st off = 0) ∧ s.ueSectors = [] ∧ s.topo.stks = 0xFF

/-- Every address of an engine's access under a root is in memory of this package, or reached nowhere (R276, R281). -/
def State.Near (s : State) (n : Nat) (root : Option Word) (write : Bool) (vas : List (Option Nat)) : Prop :=
  ∀ va, some va ∈ vas → s.place n root write va = .none ∨ ∃ a, s.place n root write va = .here a ∧ inMemory s.topo a = true

/-- The byte an engine reads at an address of memory of this package: 0 where there is none or nothing is reached (R184, R276, R281). -/
def State.engineByte (s : State) (n : Nat) (root : Option Word) (va : Option Nat) : Byte :=
  match va.map (s.place n root false) with
  | some (.here a) => s.byte a
  | _ => 0

/-- The byte at local address c after an engine has written bytes to addresses, in order; those of no place are discarded. -/
def State.engineStored (s : State) (n : Nat) (root : Option Word) (vas : List (Option Nat)) (bs : List Byte) (c : Nat) : Byte :=
  (vas.zip bs).foldl (fun v p => match p.1.map (s.place n root true) with
    | some (.here a) => if a = c then p.2 else v
    | _ => v) (s.byte c)

/-- The status area of a storage read that its retirement has yet to write, or 0 (R230). -/
def Work.status : Work → Nat
  | .nvme _ _ _ _ a _ _ => a
  | _ => 0

/-- The conditions under which an issue takes its entry: no trap of the window checks, no commit of range registers in
the way, and room (R169, R187, R279). -/
def State.MayIssue (s : State) (i : Issue) : Prop :=
  s.windowTrap s.cur.sc i = none ∧ (i.touches.map Prod.fst ++ i.flagBytes).any s.commitHits = false
    ∧ s.mySc.room s.myOwner = true

/-- What SDECOMP checks: its blocks and its tags, read (R229). -/
def decompIssue (d va n tags : Nat) : Issue :=
  { ends := [producer d], ranges := [(va, 256 * n, false), (tags, n, false)] }

end Sys2Proof.Machine
end

