-- ==== Sys2Proof/Certificates/Slice0/Obligations.lean ====
section
/-!
DEFINITION. The statements about the model, formalised from the numbered rules of the spec.  Each says that the instructions
it names complete with their own effect, or where they trap, and what they leave unchanged.
-/

open Sys2Proof Sys2Proof.Machine

/-! ## Kernel operations -/

/-- R104: the word operations of the I slots, each with its latency (R50), its result in every lane and its frame.  R107-R110:
compares set one bit per lane of a predicate; predicate logic; sel takes A where the predicate is set and B elsewhere and
writes every lane; pget gives a predicate's bits. -/
def Obligations.IntegerAndPredicateOperations : Prop :=
  (∀ (s : State) (p : BitVec 2) (d a b : BitVec 8),
  LaneOp (.iAdd p d a b) s .int .int 1 p d a b (fun x y z => z.toNat = (x.toNat + y.toNat) % 2 ^ 32)
  ∧ LaneOp (.iSub p d a b) s .int .int 1 p d a b (fun x y z => (z.toNat + y.toNat) % 2 ^ 32 = x.toNat)
  ∧ LaneOp (.iMul p d a b) s .int .int 3 p d a b (fun x y z => z.toNat = x.toNat * y.toNat % 2 ^ 32)
  ∧ LaneOp (.iMulhs p d a b) s .int .int 3 p d a b (fun x y z => z.toInt = x.toInt * y.toInt / 2 ^ 32)
  ∧ LaneOp (.iMulhz p d a b) s .int .int 3 p d a b (fun x y z => z.toNat = x.toNat * y.toNat / 2 ^ 32)
  ∧ LaneOp (.iAnd p d a b) s .int .int 1 p d a b (fun x y z => ∀ i, z.getLsbD i = (x.getLsbD i && y.getLsbD i))
  ∧ LaneOp (.iOr p d a b) s .int .int 1 p d a b (fun x y z => ∀ i, z.getLsbD i = (x.getLsbD i || y.getLsbD i))
  ∧ LaneOp (.iXor p d a b) s .int .int 1 p d a b (fun x y z => ∀ i, z.getLsbD i = (x.getLsbD i ^^ y.getLsbD i))
  ∧ LaneOp (.iAndn p d a b) s .int .int 1 p d a b (fun x y z => ∀ i, z.getLsbD i = (x.getLsbD i && !y.getLsbD i))
  ∧ LaneOp (.iMins p d a b) s .int .int 1 p d a b (fun x y z => z.toInt = min x.toInt y.toInt)
  ∧ LaneOp (.iMaxs p d a b) s .int .int 1 p d a b (fun x y z => z.toInt = max x.toInt y.toInt)
  ∧ LaneOp (.iMinz p d a b) s .int .int 1 p d a b (fun x y z => z.toNat = min x.toNat y.toNat)
  ∧ LaneOp (.iMaxz p d a b) s .int .int 1 p d a b (fun x y z => z.toNat = max x.toNat y.toNat)
  ∧ LaneOp1 (.iAbs p d a) s .int 1 p d a (fun x z => (z.toNat : Int) = clamp |x.toInt| 0 (2 ^ 31 - 1))
  ∧ LaneOp (.iAddss p d a b) s .int .int 1 p d a b (fun x y z => z.toInt = clamp (x.toInt + y.toInt) (-2 ^ 31) (2 ^ 31 - 1))
  ∧ LaneOp (.iAddsz p d a b) s .int .int 1 p d a b (fun x y z => z.toNat = min (x.toNat + y.toNat) (2 ^ 32 - 1))
  ∧ LaneOp (.iSubss p d a b) s .int .int 1 p d a b (fun x y z => z.toInt = clamp (x.toInt - y.toInt) (-2 ^ 31) (2 ^ 31 - 1))
  ∧ LaneOp (.iSubsz p d a b) s .int .int 1 p d a b (fun x y z => z.toNat = x.toNat - y.toNat)
  ∧ LaneOp (.iAbsds p d a b) s .int .int 1 p d a b (fun x y z => (z.toNat : Int) = |x.toInt - y.toInt|)
  ∧ LaneOp (.iAbsdz p d a b) s .int .int 1 p d a b (fun x y z => (z.toNat : Int) = |(x.toNat : Int) - y.toNat|)
  ∧ LaneOp (.iAvgs p d a b) s .int .int 1 p d a b (fun x y z => z.toInt = (x.toInt + y.toInt + 1) / 2)
  ∧ LaneOp (.iAvgz p d a b) s .int .int 1 p d a b (fun x y z => z.toNat = (x.toNat + y.toNat + 1) / 2)
  ∧ LaneOp (.iAddx2 p d a b) s .int .int 1 p d a b (fun x y z => z.toNat = (x.toNat + y.toNat * 2) % 2 ^ 32)
  ∧ LaneOp (.iAddx4 p d a b) s .int .int 1 p d a b (fun x y z => z.toNat = (x.toNat + y.toNat * 4) % 2 ^ 32)
  ∧ LaneOp (.iAddx8 p d a b) s .int .int 1 p d a b (fun x y z => z.toNat = (x.toNat + y.toNat * 8) % 2 ^ 32)
  ∧ LaneOp1 (.iMov p d a) s .int 1 p d a (fun x z => z = x))
  ∧ (∀ (s : State) (p : BitVec 2) (d a b : BitVec 8),
  LaneCmp (.iCeq p d a b) s .int 1 p d a b (fun x y z => z = true ↔ x = y)
  ∧ LaneCmp (.iCne p d a b) s .int 1 p d a b (fun x y z => z = true ↔ x ≠ y)
  ∧ LaneCmp (.iClts p d a b) s .int 1 p d a b (fun x y z => z = true ↔ x.toInt < y.toInt)
  ∧ LaneCmp (.iCltz p d a b) s .int 1 p d a b (fun x y z => z = true ↔ x.toNat < y.toNat)
  ∧ LaneCmp (.iCles p d a b) s .int 1 p d a b (fun x y z => z = true ↔ x.toInt ≤ y.toInt)
  ∧ LaneCmp (.iClez p d a b) s .int 1 p d a b (fun x y z => z = true ↔ x.toNat ≤ y.toNat)
  ∧ (∃ v, Lands (.iPand p d a b) s 1 (.pred d.toNat v (s.mask p)) []
      ∧ Lanes2 (s.myRun.predicate a.toNat) (s.myRun.predicate b.toNat) v (fun x y z => z = true ↔ x = true ∧ y = true))
  ∧ (∃ v, Lands (.iPor p d a b) s 1 (.pred d.toNat v (s.mask p)) []
      ∧ Lanes2 (s.myRun.predicate a.toNat) (s.myRun.predicate b.toNat) v (fun x y z => z = true ↔ x = true ∨ y = true))
  ∧ (∃ v, Lands (.iPxor p d a b) s 1 (.pred d.toNat v (s.mask p)) []
      ∧ Lanes2 (s.myRun.predicate a.toNat) (s.myRun.predicate b.toNat) v (fun x y z => z = true ↔ x ≠ y))
  ∧ (∃ v, Lands (.iSel p d a b) s 1 (.reg d.toNat v (List.replicate s.myRun.lanes true)) (s.latchAB .int .int a b)
      ∧ ∀ (k : Nat) x y m, (s.inA .int a)[k]? = some x → (s.inB .int b)[k]? = some y → (s.mask p)[k]? = some m →
          v[k]? = some (if m then x else y))
  ∧ (∃ v, Lands (.iPget p d a) s 1 (.reg d.toNat v (s.mask p)) [] ∧ v.length = s.myRun.lanes
      ∧ ∀ (k i : Nat) x, v[k]? = some x → i < 32 →
          x.getLsbD i = (decide (i < 16) && (s.myRun.predicate a.toNat).getD (16 * (k / 16) + i) false)))

/-- R105: shifts by the full 32-bit count, rotation by its low five bits, and counts; R111: the funnel extracts cut a field of
the 64-bit D:A at B[5:0] of the width B[12:8] + 1.  R106: halfword-pair operations, element by element, with no carry or
saturation between the elements. -/
def Obligations.ShiftAndHalfwordOperations : Prop :=
  (∀ (s : State) (p : BitVec 2) (d a b : BitVec 8),
  LaneOp (.iShl p d a b) s .int .int 1 p d a b (fun x y z => z.toNat = x.toNat * 2 ^ min y.toNat 32 % 2 ^ 32)
  ∧ LaneOp (.iShrz p d a b) s .int .int 1 p d a b (fun x y z => z.toNat = x.toNat / 2 ^ min y.toNat 32)
  ∧ LaneOp (.iShrs p d a b) s .int .int 1 p d a b (fun x y z => z.toInt = x.toInt / 2 ^ min y.toNat 31)
  ∧ LaneOp (.iRotl p d a b) s .int .int 1 p d a b
      (fun x y z => ∀ i, i < 32 → z.getLsbD ((i + y.toNat) % 32) = x.getLsbD i)
  ∧ LaneOp1 (.iPcnt p d a) s .int 1 p d a
      (fun x z => z.toNat = ((List.range 32).filter (fun i => x.getLsbD i)).length)
  ∧ LaneOp1 (.iClz p d a) s .int 1 p d a
      (fun x z => z.toNat ≤ 32 ∧ x.toNat < 2 ^ (32 - z.toNat) ∧ (x ≠ 0 → 2 ^ (31 - z.toNat) ≤ x.toNat) ∧ (x = 0 → z.toNat = 32))
  ∧ LaneOpD (.iFext p d a b) s .int 1 p d a b (fun x y c z =>
      z.toNat = (x.toNat * 2 ^ 32 + y.toNat) / 2 ^ (c.toNat % 64) % 2 ^ (c.toNat / 256 % 32 + 1))
  ∧ LaneOpD (.iFexts p d a b) s .int 1 p d a b (fun x y c z =>
      -- the same field read as two's complement: congruent to it, and inside the signed range of the width
      (z.toInt - (((x.toNat * 2 ^ 32 + y.toNat) / 2 ^ (c.toNat % 64) : Nat) : Int)) % 2 ^ (c.toNat / 256 % 32 + 1) = 0
        ∧ -2 ^ (c.toNat / 256 % 32) ≤ z.toInt ∧ z.toInt < 2 ^ (c.toNat / 256 % 32)))
  ∧ (∀ (s : State) (p : BitVec 2) (d a b : BitVec 8),
  LaneOp (.iHadd p d a b) s .half .half 1 p d a b (Halves (fun x y z => z.toNat = (x.toNat + y.toNat) % 2 ^ 16))
  ∧ LaneOp (.iHsub p d a b) s .half .half 1 p d a b (Halves (fun x y z => (z.toNat + y.toNat) % 2 ^ 16 = x.toNat))
  ∧ LaneOp (.iHaddss p d a b) s .half .half 1 p d a b (Halves (fun x y z => z.toInt = clamp (x.toInt + y.toInt) (-2 ^ 15) (2 ^ 15 - 1)))
  ∧ LaneOp (.iHaddsz p d a b) s .half .half 1 p d a b (Halves (fun x y z => z.toNat = min (x.toNat + y.toNat) (2 ^ 16 - 1)))
  ∧ LaneOp (.iHsubss p d a b) s .half .half 1 p d a b (Halves (fun x y z => z.toInt = clamp (x.toInt - y.toInt) (-2 ^ 15) (2 ^ 15 - 1)))
  ∧ LaneOp (.iHsubsz p d a b) s .half .half 1 p d a b (Halves (fun x y z => z.toNat = x.toNat - y.toNat))
  ∧ LaneOp (.iHmul p d a b) s .half .half 3 p d a b (Halves (fun x y z => z.toNat = x.toNat * y.toNat % 2 ^ 16))
  ∧ LaneOp (.iHmins p d a b) s .half .half 1 p d a b (Halves (fun x y z => z.toInt = min x.toInt y.toInt))
  ∧ LaneOp (.iHmaxs p d a b) s .half .half 1 p d a b (Halves (fun x y z => z.toInt = max x.toInt y.toInt))
  ∧ LaneOp (.iHminz p d a b) s .half .half 1 p d a b (Halves (fun x y z => z.toNat = min x.toNat y.toNat))
  ∧ LaneOp (.iHmaxz p d a b) s .half .half 1 p d a b (Halves (fun x y z => z.toNat = max x.toNat y.toNat))
  ∧ LaneOp (.iHabsds p d a b) s .half .half 1 p d a b (Halves (fun x y z => (z.toNat : Int) = |x.toInt - y.toInt|))
  ∧ LaneOp (.iHabsdz p d a b) s .half .half 1 p d a b (Halves (fun x y z => (z.toNat : Int) = |(x.toNat : Int) - y.toNat|))
  ∧ LaneOp (.iHavgs p d a b) s .half .half 1 p d a b (Halves (fun x y z => z.toInt = (x.toInt + y.toInt + 1) / 2))
  ∧ LaneOp (.iHavgz p d a b) s .half .half 1 p d a b (Halves (fun x y z => z.toNat = (x.toNat + y.toNat + 1) / 2)))

/-- R114-R117: the FP32 operations of the F slots. Every result is the exact one rounded once (R9, R79); min and max follow
R80; signs of a number are set without rounding and a NaN becomes the canonical NaN. The exact results of fexp2 and flog2 are
the model's evaluation of them (DEDUCED, log 15).  R118, R119: the BF16-pair operations and the conversions: each element
computed exactly and rounded once. -/
def Obligations.FloatingPointOperations : Prop :=
  (∀ (s : State) (p : BitVec 2) (d a b : BitVec 8),
  LaneOp (.fFadd p d a b) s .f32 .f32 4 p d a b (fun x y z => z = roundFP32 ((f32 x).add (f32 y)))
  ∧ LaneOp (.fFsub p d a b) s .f32 .f32 4 p d a b (fun x y z => z = roundFP32 ((f32 x).add (f32 y).negate))
  ∧ LaneOp (.fFmul p d a b) s .f32 .f32 4 p d a b (fun x y z => z = roundFP32 ((f32 x).mul (f32 y)))
  ∧ LaneOpD (.fFma p d a b) s .f32 4 p d a b (fun x y c z => z = roundFP32 (((f32 y).mul (f32 c)).add (f32 x)))
  ∧ LaneOpD (.fFnma p d a b) s .f32 4 p d a b (fun x y c z => z = roundFP32 ((f32 x).add ((f32 y).mul (f32 c)).negate))
  ∧ LaneOp (.fFmin p d a b) s .f32 .f32 4 p d a b (fun x y z => z = roundFP32 ((f32 x).minNum (f32 y)))
  ∧ LaneOp (.fFmax p d a b) s .f32 .f32 4 p d a b (fun x y z => z = roundFP32 ((f32 x).maxNum (f32 y)))
  ∧ LaneOp1 (.fFabs p d a) s .f32 2 p d a (fun x z => if (f32 x).isNan then z = 0x7FC00000
      else z.getLsbD 31 = false ∧ ∀ i, i < 31 → z.getLsbD i = x.getLsbD i)
  ∧ LaneOp1 (.fFneg p d a) s .f32 2 p d a (fun x z => if (f32 x).isNan then z = 0x7FC00000
      else z.getLsbD 31 = !x.getLsbD 31 ∧ ∀ i, i < 31 → z.getLsbD i = x.getLsbD i)
  ∧ LaneOp (.fFcpsgn p d a b) s .f32 .f32 2 p d a b (fun x y z => if (f32 x).isNan then z = 0x7FC00000
      else z.getLsbD 31 = y.getLsbD 31 ∧ ∀ i, i < 31 → z.getLsbD i = x.getLsbD i)
  ∧ LaneCmp (.fFceq p d a b) s .f32 2 p d a b (fun x y z => z = (f32 x).eq (f32 y))
  ∧ LaneCmp (.fFclt p d a b) s .f32 2 p d a b (fun x y z => z = (f32 x).lt (f32 y))
  ∧ LaneCmp (.fFcle p d a b) s .f32 2 p d a b (fun x y z => z = ((f32 x).lt (f32 y) || (f32 x).eq (f32 y)))
  ∧ LaneCmp (.fFcun p d a b) s .f32 2 p d a b (fun x y z => z = true ↔ (f32 x).isNan = true ∨ (f32 y).isNan = true)
  ∧ LaneOp1 (.fFrcp p d a) s .f32 12 p d a (fun x z => z = roundFP32 (f32 x).recip)
  ∧ LaneOp1 (.fFrsq p d a) s .f32 12 p d a (fun x z => z = roundFP32 (f32 x).rsqrt)
  ∧ LaneOp1 (.fFexp2 p d a) s .f32 12 p d a (fun x z => z = roundFP32 (f32 x).exp2)
  ∧ LaneOp1 (.fFlog2 p d a) s .f32 12 p d a (fun x z => z = roundFP32 (f32 x).log2)
  ∧ LaneOpD (.fFclamp p d a b) s .f32 4 p d a b (fun x y c z => z = roundFP32 (((f32 x).maxNum (f32 y)).minNum (f32 c)))
  ∧ LaneOp1 (.fFsat p d a) s .f32 2 p d a (fun x z => z = roundFP32 (((f32 x).maxNum (.fin false 0 0)).minNum (.ofInt 1)))
  ∧ LaneOp1 (.fFrnd p d a) s .f32 2 p d a (fun x z => z = roundFP32 (frndVal (f32 x)))
  ∧ LaneOp (.fFscl p d a b) s .f32 .int 2 p d a b (fun x y z => z = roundFP32 ((f32 x).scale y.toInt)))
  ∧ (∀ (s : State) (p : BitVec 2) (d a b : BitVec 8),
  LaneOp (.fBadd p d a b) s .bf16 .bf16 4 p d a b (Halves (fun x y z => z = roundBF16 ((bf16 x).add (bf16 y))))
  ∧ LaneOp (.fBsub p d a b) s .bf16 .bf16 4 p d a b (Halves (fun x y z => z = roundBF16 ((bf16 x).add (bf16 y).negate)))
  ∧ LaneOp (.fBmul p d a b) s .bf16 .bf16 4 p d a b (Halves (fun x y z => z = roundBF16 ((bf16 x).mul (bf16 y))))
  ∧ LaneOpD (.fBfma p d a b) s .bf16 4 p d a b (fun x y c z =>
      elem0 z = roundBF16 (((bf16 (elem0 y)).mul (bf16 (elem0 c))).add (bf16 (elem0 x)))
        ∧ elem1 z = roundBF16 (((bf16 (elem1 y)).mul (bf16 (elem1 c))).add (bf16 (elem1 x))))
  ∧ LaneOp (.fBmin p d a b) s .bf16 .bf16 4 p d a b (Halves (fun x y z => z = roundBF16 ((bf16 x).minNum (bf16 y))))
  ∧ LaneOp (.fBmax p d a b) s .bf16 .bf16 4 p d a b (Halves (fun x y z => z = roundBF16 ((bf16 x).maxNum (bf16 y))))
  ∧ LaneOpD (.fFdot2 p d a b) s .bf16 4 p d a b (fun x y c z =>
      z = roundFP32 (((f32 x).add ((bf16 (elem0 y)).mul (bf16 (elem0 c)))).add ((bf16 (elem1 y)).mul (bf16 (elem1 c)))))
  ∧ LaneOp1 (.fCvtsf p d a) s .int 2 p d a (fun x z => z = roundFP32 (.ofInt x.toInt))
  ∧ LaneOp1 (.fCvtzf p d a) s .int 2 p d a (fun x z => z = roundFP32 (.ofInt x.toNat))
  ∧ LaneOp1 (.fCvtfs p d a) s .f32 2 p d a (fun x z => z.toInt = clamp ((f32 x).toIntSat (-2 ^ 31) (2 ^ 31 - 1)) (-2 ^ 31) (2 ^ 31 - 1))
  ∧ LaneOp1 (.fCvtfz p d a) s .f32 2 p d a (fun x z => (z.toNat : Int) = clamp ((f32 x).toIntSat 0 (2 ^ 32 - 1)) 0 (2 ^ 32 - 1))
  ∧ LaneOp (.fCvtfb p d a b) s .f32 .f32 2 p d a b (fun x y z => elem0 z = roundBF16 (f32 x) ∧ elem1 z = roundBF16 (f32 y))
  ∧ LaneOp1 (.fCvtbfl p d a) s .bf16 2 p d a (fun x z => z = roundFP32 (bf16 (elem0 x)))
  ∧ LaneOp1 (.fCvtbfh p d a) s .bf16 2 p d a (fun x z => z = roundFP32 (bf16 (elem1 x)))
  ∧ LaneOp1 (.fCvtlsf p d a) s .half 2 p d a (fun x z => z = roundFP32 (.ofInt (elem0 x).toInt))
  ∧ LaneOp1 (.fCvthsf p d a) s .half 2 p d a (fun x z => z = roundFP32 (.ofInt (elem1 x).toInt))
  ∧ LaneOp1 (.fCvtlzf p d a) s .half 2 p d a (fun x z => z = roundFP32 (.ofInt (elem0 x).toNat))
  ∧ LaneOp1 (.fCvthzf p d a) s .half 2 p d a (fun x z => z = roundFP32 (.ofInt (elem1 x).toNat)))

/-- R100: nop does nothing; branches make their target the next bundle when their condition (R99) holds over every core, and
otherwise leave the following one; the loop counters are written by lset, lsetk, lsetv and lbnz alone.  R27, R101, R102, R26:
halt ends issue once the run holds no bank and no slot, and otherwise notes AM_HELD of the lowest core; idle n leaves n - 1
cycles to come; kret and kretp enqueue one word in the return queue of every core while every queue has room, and stall the
group while one is full, changing no queue. -/
def Obligations.SequencerOperations : Prop :=
  (∀ (s : State) (p : BitVec 2) (t : BitVec 12) (c : BitVec 2) (k : BitVec 3)
    (n : BitVec 20) (u : BitVec 8),
  let r := s.myRun
  let P := s.mask p
  let goes (b : Prop) [Decidable b] : Run := if b then { r with next := t.toNat } else r
  Makes .ctlNop s r
  ∧ Makes (.ctlBr t) s { r with next := t.toNat }
  ∧ Makes (.ctlBany p t) s (goes (true ∈ P))
  ∧ Makes (.ctlBall p t) s (goes (false ∉ P))
  ∧ Makes (.ctlBnone p t) s (goes (true ∉ P))
  ∧ Makes (.ctlBnall p t) s (goes (false ∈ P))
  ∧ Makes (.ctlLset c n) s { r with lc := tput r.lc c.toNat (n.setWidth 32) }
  ∧ Makes (.ctlLsetk c k) s { r with lc := tput r.lc c.toNat (r.arg k.toNat) }
  ∧ Makes (.ctlLsetv c u) s { r with lc := tput r.lc c.toNat (r.uniform .int u.toNat) }
  ∧ Makes (.ctlLbnz c t) s
      (if 2 ≤ (tgetD r.lc c.toNat 0).toNat then
        { r with lc := tput r.lc c.toNat (BitVec.ofNat 32 ((tgetD r.lc c.toNat 0).toNat - 1)), next := t.toNat }
      else { r with lc := tput r.lc c.toNat 0 })
  ∧ Makes (.ctlBkz k t) s (goes (r.arg k.toNat = 0))
  ∧ Makes (.ctlBknz k t) s (goes (r.arg k.toNat ≠ 0)))
  ∧ (∀ (s : State) (p : BitVec 2) (n : BitVec 12) (l : BitVec 4) (x : BitVec 8),
  let r := s.myRun
  (r.banks = [] → r.slots = [] → Makes .ctlHalt s { r with halted := true })
  ∧ (r.banks ≠ [] ∨ r.slots ≠ [] → NotesFault .ctlHalt s 2 [0])
  ∧ Makes (.ctlIdle n) s { r with idle := n.toNat - 1 }
  ∧ (r.rqRoom = true →
      (∃ q, Makes (.ctlKret l x) s { r with rq := q } ∧ ∀ c, c < r.g →
        tgetD q c [] = tgetD r.rq c [] ++ [(r.source .int x.toNat).getD (16 * c + l.toNat) 0])
      ∧ ∃ q, Makes (.ctlKretp p) s { r with rq := q } ∧ ∀ c, c < r.g → ∃ w,
        tgetD q c [] = tgetD r.rq c [] ++ [w] ∧ ∀ i, i < 32 →
          w.getLsbD i = (decide (i < 16) && (s.mask p).getD (16 * c + i) false))
  ∧ (r.rqRoom = false → Makes (.ctlKret l x) s { r with stall := true } ∧ Makes (.ctlKretp p) s { r with stall := true }))

/-- R112: each check notes fault code 1 in the cores where it fails, and does nothing else.  R131, R132, R145: banks and slots
are allocated, freed, cleared, claimed and released one cycle later; a claim beyond the declared slots, or of a slot already
claimed, is TOM_SLOT_BAD of the lowest core.  R34, R35, R112, R158: how a bundle ends, from the state `t` in which its
operations have acted on a copy of the run. Where one of them has to wait, the bundle has performed nothing and the group has
spent a wall cycle. Where none waits and none has noted a fault, the bundle has issued. Where a check has noted one, none of
its operations is performed: the run retires, its return queues stay while its owner stands, its out streams have the words
that its earlier bundles pushed and published, every other run stays, and its owner has STREAM_FAULT pending with the lowest
core that faulted and the lowest code of that core. -/
def Obligations.ChecksBanksAndSlots : Prop :=
  (∀ (s : State) (h : BitVec 12) (a b : BitVec 8),
  let r := s.myRun
  (∃ cs, NotesFault (.hkChkeq h a b) s 1 cs ∧ ∀ c, c ∈ cs ↔ ∃ (k : Nat) (x y : W32),
      (r.source .int a.toNat)[k]? = some x ∧ (r.source .int b.toNat)[k]? = some y ∧ x ≠ y ∧ c = k / 16)
  ∧ (∃ cs, NotesFault (.hkChkz h a) s 1 cs ∧ ∀ c, c ∈ cs ↔ ∃ (k : Nat) (x : W32),
      (r.source .int a.toNat)[k]? = some x ∧ x ≠ 0 ∧ c = k / 16)
  ∧ (∃ cs, NotesFault (.hkChkovf h a) s 1 cs ∧ ∀ c, c ∈ cs ↔ ∃ b', tget r.banks a.toNat = some b' ∧ c ∈ b'.ovf)
  ∧ (∃ cs, NotesFault (.hkChkall h a) s 1 cs ∧ ∀ c, c ∈ cs ↔ ∃ k : Nat,
      (r.predicate a.toNat)[k]? = some false ∧ c = k / 16))
  ∧ (∀ (s : State) (k m : BitVec 8),
  let r := s.myRun
  Lands (.amAalloc k) s 1 (.alloc k.toNat false) [] ∧ Lands (.amAallocp k) s 1 (.alloc k.toNat true) []
  ∧ Lands (.amAfree k) s 1 (.free k.toNat) [] ∧ Lands (.amAclr k) s 1 (.clear k.toNat) []
  ∧ Lands (.ptPclro k) s 1 (.clearOvf k.toNat) [] ∧ Lands (.amMrel m) s 1 (.release m.toNat) []
  ∧ (m.toNat < r.tomN → tget r.slots m.toNat = none → Lands (.amMclaim m) s 1 (.claim m.toNat) [])
  ∧ (r.tomN ≤ m.toNat ∨ tget r.slots m.toNat ≠ none → NotesFault (.amMclaim m) s 4 [0]))
  ∧ (∀ (s t : State) (n k : Nat),
  let r := s.run n k
  let q := t.run n k
  let u := s.closeBundle n k t
  (q.stall = true → u = s.setRun n k { r with wall := r.wall + 1, tldx := r.tldx - 1 })
  ∧ (q.stall = false → q.faults = [] → u = t.setRun n k q.endIssue)
  ∧ (q.stall = false → q.faults ≠ [] → (∀ p ∈ q.faults, p.1 < 16 ∧ p.2 < 16) →
      SameBytes s u ∧ u.mem = s.mem ∧ (u.sc n).entries = (s.sc n).entries.filter (fun x => x.id != k)
      ∧ (∀ j, j ≠ k → tget (u.sc n).runs j = tget (s.sc n).runs j)
      ∧ (s.ownerStands n r.owner = true → (u.run n k).phase = .retired ∧ (u.run n k).rq = r.rq ∧ (u.run n k).tag = r.tag)
      ∧ (s.ownerStands n r.owner = false → tget (u.sc n).runs k = none)
      ∧ (∀ d, (∀ p ∈ r.ports, p.2.dir = .out → p.2.stream ≠ d) → u.stream n d = s.stream n d)
      ∧ (∀ p ∈ r.ports, p.2.dir = .out → (∀ x ∈ r.ports, x.2.dir = .out → x.2.stream = p.2.stream → x = p) →
          let st := s.stream n p.2.stream
          u.stream n p.2.stream =
            { st with len := (p.2.n + 2 ^ 32 - (p.2.staging.length + st.rowLen * p.2.u) % 2 ^ 32) % 2 ^ 32 })
      ∧ ∃ core code, (core, code) ∈ q.faults ∧ (∀ p ∈ q.faults, core ≤ p.1) ∧ (∀ p ∈ q.faults, p.1 = core → code ≤ p.2)
        ∧ ∀ e, (s.sc n).entry? k = some e →
          let tval : Word := BitVec.ofNat 64 (core * 2 ^ 28 + code * 2 ^ 24 + e.slot * 2 ^ 18 + r.seq * 2 ^ 16 + r.pc)
          (∀ c, r.owner = .ctx c → (s.ctx n c).st ≠ .free →
            u.ctx n c = { s.ctx n c with apend := (s.ctx n c).apend ++ [(0x10, tval)] })
          ∧ ∀ h m c, r.owner = .task h → s.futLive h = true → s.locate (futKey h) = .inCtx m c →
              u.ctx m c = { s.ctx m c with apend := (s.ctx m c).apend ++ [(0x10, tval)] }))

/-- R120-R122, R135, R137, R138: weights. The dense loads take the slots a tag names as they stand and drain the array; a load
while a tldx of an earlier bundle still reads stalls the group; twclr clears the status too; the parts loads have the three
outcomes of R137; ptclr and pdrn.  R124, R125, R140: a pass joins the queue of at most four; a fifth is dropped and sets OVR.
-/
def Obligations.WeightsAndPasses : Prop :=
  (∀ (s : State) (m : BitVec 8),
  let r := s.myRun
  let parts (i : Instr) (fmt : Nat) : Prop :=
    let w : Weights := { fmt := fmt, area := r.slotArea m.toNat (partsSlots fmt) }
    (r.slotTag m.toNat ≠ fmt → Makes i s { r with newActive := some {}, newDrain := true, tmis := true })
    ∧ (r.slotTag m.toNat = fmt → badRecordCores w r.g = [] → Makes i s { r with newActive := some w, newDrain := true })
    ∧ (r.slotTag m.toNat = fmt → badRecordCores w r.g ≠ [] → NotesFault i s 3 (badRecordCores w r.g))
  (r.tldx = 0 →
    Makes (.tmTldw m) s { r with newActive := some (r.weightsAt false m.toNat), newDrain := true }
    ∧ Makes (.tmTldwt m) s { r with newActive := some (r.weightsAt true m.toNat), newDrain := true }
    ∧ Makes (.tmTldx m) s { r with shadow := r.weightsAt false m.toNat, newTldx := some (loadCycles r m.toNat 3) }
    ∧ Makes .tmTdrn s { r with newActive := some r.shadow, newDrain := true }
    ∧ parts (.ptPld4 m) 7 ∧ parts (.ptPld8 m) 8 ∧ parts (.ptPlds m) 9)
  ∧ (r.tldx ≠ 0 → ∀ i ∈ [Instr.tmTldw m, .tmTldwt m, .tmTldx m, .tmTdrn, .ptPld4 m, .ptPld8 m, .ptPlds m],
      Makes i s { r with stall := true })
  ∧ Makes .tmTwclr s { r with newActive := some {}, newDrain := true, tovr := false, tmis := false, newClr := true }
  ∧ Makes .ptPtclr s { r with newActive := some {}, newDrain := true }
  ∧ Makes .ptPdrn s { r with newDrain := true })
  ∧ (∀ (s : State) (k m n : BitVec 8),
  let r := s.myRun
  let w := (r.uniform .int n.toNat).toNat
  let queues (i : Instr) (parts : Bool) (op : PassOp) : Prop :=
    (r.passes.length < 4 → Makes i s { r with passes := r.passes ++
      [{ parts := parts, op := op, bank := k.toNat, m := m.toNat, row := w % 256, left := w / 256 % 8 + 1, q := w / 4096 % 8 }] })
    ∧ (4 ≤ r.passes.length → Makes i s { r with tovr := true })
  queues (.tmTmma k m n) false .acc ∧ queues (.tmTmmz k m n) false .zero ∧ queues (.tmTmmn k m n) false .neg
    ∧ queues (.tmTmmh k m n) false .half ∧ queues (.ptPpass k m n) true .acc ∧ queues (.ptPpassz k m n) true .zero
    ∧ queues (.ptPpassn k m n) true .neg)

/-- R128, R146, R147, R133: the status words, the scan and the bank reads land in a register. pscan gives each lane the sum
modulo 2^32 of its own word and the words of the higher lanes of its core.  R129, R144: scaling, biasing and converting a bank
post its new rows; tamw posts one row. tscl and tbias leave a bank that is not in FP32 mode as it is; pcvt from a bank to
itself has no effect. -/
def Obligations.BankReadsAndArithmetic : Prop :=
  (∀ (s : State) (p : BitVec 2) (d k x : BitVec 8),
  let r := s.myRun
  let i := (r.uniform .int x.toNat).toNat
  Lands (.tmTstat p d) s 1 (.reg d.toNat (List.replicate r.lanes r.tstat) (s.mask p)) []
  ∧ (∃ v, Lands (.ptPstat p d) s 1 (.reg d.toNat v (s.mask p)) [] ∧ v.length = r.lanes
      ∧ ∀ l : Nat, l < r.lanes → v[l]? = some (r.pstat (l / 16)))
  ∧ (∃ v, Lands (.ptPscan p d x) s 4 (.reg d.toNat v (s.mask p)) [] ∧ v.length = r.lanes
      ∧ ∀ l : Nat, l < r.lanes → (r.source .int x.toNat).length = r.lanes →
        (v.getD l 0).toNat = (((List.range (16 - l % 16)).map (fun j => ((r.source .int x.toNat).getD (l + j) 0).toNat)).sum) % 2 ^ 32)
  ∧ (∀ b, tget r.banks k.toNat = some b → b.part = false →
      Lands (.amArd p d k x) s 2 (.reg d.toNat (b.row r.lanes (i % 32)) (s.mask p)) []
      ∧ Lands (.amArdh p d k x) s 2 (.reg d.toNat (b.row r.lanes (i % 32)) (s.mask p)) [])
  ∧ (∀ b, tget r.banks k.toNat = some b → b.part = true →
      Lands (.amArd p d k x) s 2 (.reg d.toNat ((b.cellRow r.lanes (i % 16)).map (fun w => BitVec.ofNat 32 w.toNat)) (s.mask p)) []
      ∧ Lands (.amArdh p d k x) s 2
          (.reg d.toNat ((b.cellRow r.lanes (i % 16)).map (fun w => BitVec.ofNat 32 (w.toNat / 2 ^ 32))) (s.mask p)) [])
  ∧ (tget r.banks k.toNat = none →
      Lands (.amArd p d k x) s 2 (.reg d.toNat (List.replicate r.lanes 0) (s.mask p)) []
      ∧ Lands (.amArdh p d k x) s 2 (.reg d.toNat (List.replicate r.lanes 0) (s.mask p)) []))
  ∧ (∀ (s : State) (d k m x : BitVec 8),
  let r := s.myRun
  let col (y l : Nat) : W32 := linesWord (r.slotLines m.toNat) (l / 16) (16 * (y % 8) + l % 16)
  (∀ b, tget r.banks k.toNat = some b → b.part = false →
    (∃ v, Lands (.tmTscl k m) s 4 (.bankRows k.toNat v) [] ∧ v.map Prod.fst = List.range 32 ∧ ∀ y l, y < 32 → l < r.lanes →
      (tgetD v y [])[l]? = some (mulFP32 ((b.row r.lanes y).getD l 0) (col y l)))
    ∧ (∃ v, Lands (.tmTbias k m) s 4 (.bankRows k.toNat v) [] ∧ v.map Prod.fst = List.range 32 ∧ ∀ y l, y < 32 → l < r.lanes →
      (tgetD v y [])[l]? = some (addFP32 ((b.row r.lanes y).getD l 0) (col y l))))
  ∧ (¬(∃ b, tget r.banks k.toNat = some b ∧ b.part = false) → Makes (.tmTscl k m) s r ∧ Makes (.tmTbias k m) s r)
  ∧ Lands (.tmTamw k d x) s 1 (.amRow k.toNat (r.uniform .int x.toNat).toNat (r.source .int d.toNat)) []
  ∧ (∃ v, Lands (.tmTcvt d k) s 2 (.bankRows d.toNat v) [] ∧ v.map Prod.fst = List.range 32
      ∧ (∀ y (l : Nat) lo hi, y < 16 → (r.fpRow k.toNat (2 * y))[l]? = some lo → (r.fpRow k.toNat (2 * y + 1))[l]? = some hi →
          ∃ z, (tgetD v y [])[l]? = some z ∧ elem0 z = roundBF16 (f32 lo) ∧ elem1 z = roundBF16 (f32 hi))
      ∧ ∀ y, 16 ≤ y → y < 32 → tgetD v y [] = List.replicate r.lanes 0)
  ∧ (d = k → Makes (.ptPcvt d k m) s r)
  ∧ (d ≠ k → ∃ v, Lands (.ptPcvt d k m) s 4 (.bankRows d.toNat v) [] ∧ v.map Prod.fst = List.range 16 ∧ ∀ y l, y < 16 → l < r.lanes →
      (tgetD v y [])[l]? = some (roundFP32 ((FVal.ofInt (r.partVal k.toNat y l)).mul (f32 (col y l))))))

/-- R161: the within-group permutations.  Each lane of the result takes the lane the operation names, or 0; index and count
operands are reduced modulo the core's 16 lanes or the group's; xcmp, xcmpc, xexp and xcnt select by `pred` and write every
lane. -/
def Obligations.SwitchOperations : Prop := ∀ (s : State) (p : BitVec 2) (d x i n : BitVec 8),
  let r := s.myRun
  let X := r.source .int x.toNat
  let ix (l : Nat) : Nat := ((r.source .int i.toNat).getD l 0).toNat
  let u := (r.uniform .int n.toNat).toNat
  let sel := s.mask p
  let moves (j : Instr) (m : Mask) (f : Nat → Option Nat) : Prop :=
    ∃ v, Lands j s 4 (.reg d.toNat v m) [] ∧ v.length = r.lanes ∧ ∀ l : Nat, l < r.lanes →
      v[l]? = some (match f l with | some k => X.getD k 0 | none => 0)
  moves (.xsXperm p d x i) sel (fun l => some (l / 16 * 16 + ix l % 16))
  ∧ moves (.xsXpermc p d x i) sel (fun l => some (ix l % r.lanes))
  ∧ moves (.xsXbc p d x n) sel (fun l => some (l / 16 * 16 + u % 16))
  ∧ moves (.xsXbcc p d x n) sel (fun l => some (u % r.g * 16 + l % 16))
  ∧ moves (.xsXrot p d x n) sel (fun l => some (l / 16 * 16 + (l % 16 + u) % 16))
  ∧ moves (.xsXrotc p d x n) sel (fun l => some ((l + u) % r.lanes))
  ∧ moves (.xsXcmp p d x) (List.replicate r.lanes true) (fun l => (coreChosen sel (l / 16))[l % 16]?)
  ∧ moves (.xsXcmpc p d x) (List.replicate r.lanes true) (fun l => (chosen sel)[l]?)
  ∧ moves (.xsXexp p d x) (List.replicate r.lanes true)
      (fun l => if sel.getD l false then some ((chosen sel).filter (· < l)).length else none)
  ∧ (∃ v, Lands (.xsXcnt p d) s 4 (.reg d.toNat v (List.replicate r.lanes true)) [] ∧ v.length = r.lanes
      ∧ ∀ l : Nat, l < r.lanes → ((v.getD l 0).toNat =
          ((chosen sel).length * 2 ^ 16 + ((chosen sel).filter (fun x => x < l)).length) % 2 ^ 32))

/-- R155-R160: the stream operations on a bound port: what each makes of the run, the port and the stream, and when it waits, which
stalls the group.  Pops read positions from rp, pushes write positions from wp, advances and flushes move them.  A spopc with no
selected lane waits for no row (the model's choice, log 87); the tag a tfill gives its slot is its format code less 240 (DEDUCED,
log 47). -/
def Obligations.StreamPortOperations : Prop := ∀ (s : State) (p : BitVec 2) (d a k m f : BitVec 8) (b : BitVec 8),
  let r := s.myRun
  let q := tgetD r.ports a.toNat {}
  let st := s.stream s.cur.sc q.stream
  let noted (i : Instr) : Run := { r with faults := r.faults ++ r.pendingReads s.cur.syl i }
  let u := r.uniform .int k.toNat
  let cnt := min u.toNat (q.occ / q.gran) * q.gran
  let after (i : Instr) (r' : Run) (q' : Port) (st' : Stream) : Prop :=
    exec i s = .next ((s.setStream s.cur.sc q'.stream st').setRun s.cur.sc s.cur.run { r' with ports := tput r'.ports a.toNat q' })
  let waits (i : Instr) : Prop := after i { noted i with stall := true } q st
  let gives (i : Instr) (lat : Nat) (v : Row) (msk : Mask) : Run :=
    { noted i with pend := r.pend ++ [⟨lat, .reg d.toNat v msk⟩], marks := r.marks ++ [(d.toNat, msk)] }
  -- spop: position rp + (k mod occupancy), three cycles later
  (u.toNat % q.occ < st.filled → after (.sSpop p d a k)
      (gives (.sSpop p d a k) 3 (st.row (st.rp + u.toNat % q.occ)) (s.mask p)) { q with cr := max q.cr (u.toNat % q.occ + 1) } st)
  ∧ (st.filled ≤ u.toNat % q.occ → waits (.sSpop p d a k))
  -- spopc with enough words: the next stream words go to the selected lanes
  ∧ (let n := (chosen (s.mask p)).length
     let used := (q.r + n) / st.rowLen
     (if n = 0 then 0 else (q.r + n - 1) / st.rowLen + 1) ≤ st.filled → after (.sSpopc p d a)
      (gives (.sSpopc p d a) 4 (popLanes st (s.mask p) q.r) (List.replicate r.lanes true))
      { q with r := (q.r + n) % st.rowLen, cr := q.cr - used } { st with rp := (st.rp + used) % 2 ^ 32 })
  ∧ (st.filled < (let n := (chosen (s.mask p)).length; if n = 0 then 0 else (q.r + n - 1) / st.rowLen + 1) →
      waits (.sSpopc p d a))
  -- spush: position wp + u
  ∧ (q.u < st.space → after (.sSpush a b) (noted (.sSpush a b))
      { q with u := (q.u + 1) % q.occ, n := (q.n + st.rowLen) % 2 ^ 32, written := (st.wp + q.u) % 2 ^ 32 :: q.written }
      (st.putRow ((st.wp + q.u) % 2 ^ 32) (r.source .int b.toNat)))
  ∧ (st.space ≤ q.u → waits (.sSpush a b))
  -- spushc that completes no row
  ∧ (let sel := (chosen (s.mask p)).map (fun g => (r.source .int b.toNat).getD g 0)
     (q.staging ++ sel).length < st.rowLen → after (.sSpushc p a b) (noted (.sSpushc p a b))
      { q with staging := q.staging ++ sel, n := (q.n + sel.length) % 2 ^ 32 } st)
  -- spushc that completes a row publishes it, or waits for a free position
  ∧ (let sel := (chosen (s.mask p)).map (fun g => (r.source .int b.toNat).getD g 0)
     let all := q.staging ++ sel
     st.rowLen ≤ all.length →
      (q.u < st.space → after (.sSpushc p a b) (noted (.sSpushc p a b))
        { q.unmark st.wp (q.u + 1) with
            cr := q.cr - (q.u + 1), u := 0, staging := all.drop st.rowLen, n := (q.n + sel.length) % 2 ^ 32 }
        { st.putRow ((st.wp + q.u) % 2 ^ 32) (all.take st.rowLen) with wp := (st.wp + (q.u + 1)) % 2 ^ 32 })
      ∧ (st.space ≤ q.u → waits (.sSpushc p a b)))
  -- waits for filled and for free positions
  ∧ (cnt ≤ st.filled → after (.sSwaitf a k) (noted (.sSwaitf a k)) { q with cr := max q.cr cnt } st)
  ∧ (st.filled < cnt → waits (.sSwaitf a k))
  ∧ (cnt ≤ st.space → after (.sSwaite a k) (noted (.sSwaite a k)) { q with cr := max q.cr cnt } st)
  ∧ (st.space < cnt → waits (.sSwaite a k))
  -- advances
  ∧ (cnt ≤ st.filled → after (.sSadvr a k) (noted (.sSadvr a k)) { q with r := 0, cr := q.cr - cnt }
      { st with rp := (st.rp + cnt) % 2 ^ 32 })
  ∧ (st.filled < cnt → waits (.sSadvr a k)) ∧ (st.space < cnt → waits (.sSadvw a k))
  -- sadvw publishes: of the positions passed, those that no push has written become zero rows, and the others stay as written
  ∧ (cnt ≤ st.space → ∃ data, after (.sSadvw a k) (noted (.sSadvw a k))
      { q.unmark st.wp cnt with u := q.u - cnt, cr := q.cr - cnt } { st with data := data, wp := (st.wp + cnt) % 2 ^ 32 }
      ∧ ∀ y, tgetD data y (List.replicate st.rowLen 0) =
          if ∃ j < cnt, (st.wp + j) % 2 ^ 32 ∉ q.written ∧ (st.wp + j) % 2 ^ 32 % st.cap = y then List.replicate st.rowLen 0
          else tgetD st.data y (List.replicate st.rowLen 0))
  -- tfill and tfillx take one position into a line of a slot, three cycles later
  ∧ (st.filled ≠ 0 → after (.sTfill m a f)
      { noted (.sTfill m a f) with pend := r.pend ++ [⟨3, .line m.toNat 0 (st.row st.rp) (some (f.toNat - 240))⟩] }
      { q with f := 1, r := 0, cr := q.cr - 1 } { st with rp := (st.rp + 1) % 2 ^ 32 })
  ∧ (st.filled ≠ 0 → after (.sTfillx m a)
      { noted (.sTfillx m a) with pend := r.pend ++ [⟨3, .line m.toNat q.f (st.row st.rp) none⟩] }
      { q with f := (q.f + 1) % 256, r := 0, cr := q.cr - 1 } { st with rp := (st.rp + 1) % 2 ^ 32 })
  ∧ (st.filled = 0 → waits (.sTfill m a f) ∧ waits (.sTfillx m a))
  -- scnt: the words pushed, in the return queue of every core
  ∧ (r.rqRoom = true → ∃ rq, after (.sScnt a) { noted (.sScnt a) with rq := rq } q st ∧ ∀ c,
      tgetD rq c [] = if c < r.g then tgetD r.rq c [] ++ [BitVec.ofNat 32 q.n] else tgetD r.rq c [])
  ∧ (r.rqRoom = false → waits (.sScnt a))
  -- sflush with an empty staging row publishes what has been pushed
  ∧ (q.staging = [] → after (.sSflush a) (noted (.sSflush a)) { q.unmark st.wp q.u with cr := q.cr - q.u, u := 0 }
      { st with wp := (st.wp + q.u) % 2 ^ 32 })
  -- sflush with words staged pads them with zeros to a row and publishes it
  ∧ (q.staging ≠ [] → q.u < st.space → after (.sSflush a) (noted (.sSflush a))
      { q.unmark st.wp (q.u + 1) with cr := q.cr - (q.u + 1), u := 0, staging := [] }
      { st.putRow ((st.wp + q.u) % 2 ^ 32) (q.staging ++ List.replicate (st.rowLen - q.staging.length) 0) with
          wp := (st.wp + (q.u + 1)) % 2 ^ 32 })
  ∧ (q.staging ≠ [] → st.space ≤ q.u → waits (.sSflush a))
  -- queries
  ∧ after (.sSptrr p d a) (gives (.sSptrr p d a) 1 (List.replicate r.lanes (BitVec.ofNat 32 st.rp)) (s.mask p)) q st
  ∧ after (.sSptrw p d a) (gives (.sSptrw p d a) 1 (List.replicate r.lanes (BitVec.ofNat 32 st.wp)) (s.mask p)) q st
  ∧ after (.sSavail p d a) (gives (.sSavail p d a) 1 (List.replicate r.lanes (BitVec.ofNat 32 q.cr)) (s.mask p)) q st
  ∧ after (.sSspace p d a) (gives (.sSspace p d a) 1 (List.replicate r.lanes (BitVec.ofNat 32 (q.cr - q.u))) (s.mask p)) q st

/-- R40, R44, R45: what an operand code supplies: registers, the lane and core numbers, the group size, the constants 0, 1 and
1.0, kernel arguments, the bundle's E0 and E1 syllables, and immediates as the operand is read; an input whose hold bit is set
supplies its latch.  R15, R17, R68: a register result lands in the lanes its mask enables and leaves the others; a predicate
likewise; no other register, predicate, bank, slot, port or counter of the run changes when debug mode is off.  R70, R72, R74,
R129, R131, R132, R145: what the other results do when they land. A claimed slot has tag NONE and reads zero; a release frees
the slot and discards the fills of it still in flight; an allocated bank is all zero with OVF clear, in place of what it held
or, when it is new, within the declared number of banks; a bank is freed or cleared, or loses OVF; and a line, row or
container row is written to the slot or bank as it stands then, or is discarded where there is none or, for rows of FP32
words, where its mode is another. That allocation, mode and claim are judged at the landing, and what a reallocation does, are
the model's reading (logs 69-71). -/
def Obligations.OperandsAndResults : Prop :=
  (∀ (r : Run) (rd : Reading) (c : Nat),
  (c < 192 → r.source rd c = r.reg c)
  ∧ (∀ l : Nat, l < r.lanes → (r.source rd 192)[l]? = some (BitVec.ofNat 32 (l % 16))
      ∧ (r.source rd 193)[l]? = some (BitVec.ofNat 32 (l / 16))
      ∧ (r.source rd 194)[l]? = some (BitVec.ofNat 32 r.g)
      ∧ (r.source rd 195)[l]? = some 0 ∧ (r.source rd 196)[l]? = some 1 ∧ (r.source rd 197)[l]? = some 0x3F800000
      ∧ (∀ k, k < 8 → (r.source rd (198 + k))[l]? = some (r.arg k))
      ∧ (r.source rd 208)[l]? = some (r.bundle.getD 14 0) ∧ (r.source rd 209)[l]? = some (r.bundle.getD 15 0)
      ∧ (224 ≤ c → c < 256 →
          (r.source .int c)[l]? = some (BitVec.ofInt 32 (c - 240))
          ∧ (r.source .f32 c)[l]? = some (roundFP32 (.ofInt (c - 240)))
          ∧ (∃ z, (r.source .bf16 c)[l]? = some z ∧ elem0 z = roundBF16 (.ofInt (c - 240)) ∧ elem1 z = roundBF16 (.ofInt (c - 240)))
          ∧ ∃ z, (r.source .half c)[l]? = some z ∧ elem0 z = BitVec.ofInt 16 (c - 240) ∧ elem1 z = BitVec.ofInt 16 (c - 240)))
  ∧ (∀ syl b, r.held (latchIx syl b) = true → r.input syl b rd c = r.latch (latchIx syl b))
  ∧ (∀ syl b, r.held (latchIx syl b) = false → r.input syl b rd c = r.source rd c))
  ∧ (∀ (r : Run) (d : Nat) (m : Mask),
  r.dbg = false →
  (∀ v : Row, (r.land (.reg d v m)) = { r with regs := tput r.regs d ((r.land (.reg d v m)).reg d) }
    ∧ ∀ (k : Nat) (o x : W32) (b : Bool), (r.reg d)[k]? = some o → v[k]? = some x → m[k]? = some b →
      ((r.land (.reg d v m)).reg d)[k]? = some (if b then x else o))
  ∧ (∀ v : Mask, 0 < d → (r.land (.pred d v m)) = { r with preds := tput r.preds d ((r.land (.pred d v m)).predicate d) }
    ∧ ∀ (k : Nat) (o x b : Bool), (r.predicate d)[k]? = some o → v[k]? = some x → m[k]? = some b →
      ((r.land (.pred d v m)).predicate d)[k]? = some (if b then x else o)))
  ∧ (∀ (r : Run) (m k : Nat),
  let slotsSame (q : Run) : Prop := ∀ x, x ≠ m → tget q.slots x = tget r.slots x
  let banksSame (q : Run) : Prop := ∀ x, x ≠ k → tget q.banks x = tget r.banks x
  (let q := r.land (.claim m)
   q = { r with slots := q.slots } ∧ slotsSame q ∧ thas q.slots m = true ∧ q.slotTag m = 0
     ∧ ∀ c w, linesWord (q.slotLines m) c w = 0)
  ∧ (let q := r.land (.release m)
     (tget r.slots m = none → q = r)
     ∧ (thas r.slots m = true → q = { r with slots := q.slots, pend := q.pend } ∧ slotsSame q ∧ tget q.slots m = none
        ∧ q.pend.Sublist r.pend ∧ ∀ p, p ∈ q.pend ↔ p ∈ r.pend ∧ ∀ i v t, p.eff ≠ .line m i v t))
  ∧ (∀ part, let q := r.land (.alloc k part)
     ((thas r.banks k = true ∨ r.banks.length < r.amMax) → q = { r with banks := q.banks } ∧ banksSame q
        ∧ ∃ b, tget q.banks k = some b ∧ b.part = part ∧ b.ovf = []
          ∧ ∀ y, b.row r.lanes y = List.replicate r.lanes 0 ∧ b.cellRow r.lanes y = List.replicate r.lanes 0)
     ∧ (thas r.banks k = false → r.amMax ≤ r.banks.length → q = r))
  ∧ (let q := r.land (.free k); q = { r with banks := q.banks } ∧ banksSame q ∧ tget q.banks k = none)
  ∧ (tget r.banks k = none → ∀ i x v w, [Effect.clear k, .clearOvf k, .bankRows k v, .amRow k x w].all (fun e => r.land e == r) = true
      ∧ (tget r.slots m = none → ∀ t, r.land (.line m i w t) = r))
  ∧ (∀ b, tget r.banks k = some b →
      let lands (e : Effect) (b' : Bank) : Prop := r.land e = { r with banks := tput r.banks k b' }
      (∃ b', lands (.clear k) b' ∧ b'.part = b.part ∧ b'.ovf = []
        ∧ ∀ y, b'.row r.lanes y = List.replicate r.lanes 0 ∧ b'.cellRow r.lanes y = List.replicate r.lanes 0)
      ∧ lands (.clearOvf k) { b with ovf := [] }
      ∧ (∀ v, (v.map Prod.fst).Nodup →
          (b.part = true → r.land (.bankRows k v) = r)
          ∧ (b.part = false → ∃ b', lands (.bankRows k v) b' ∧ b' = { b with rows := b'.rows }
              ∧ ∀ y, b'.row r.lanes y = tgetD v y (b.row r.lanes y)))
      ∧ ∀ x v,
          (b.part = true → ∃ b', lands (.amRow k x v) b' ∧ b' = { b with cells := b'.cells }
              ∧ ∀ y, b'.cellRow r.lanes y = if y = x % 16 then v.map (fun w => w.signExtend 64) else b.cellRow r.lanes y)
          ∧ (b.part = false → ∃ b', lands (.amRow k x v) b' ∧ b' = { b with rows := b'.rows }
              ∧ ∀ y, b'.row r.lanes y = if y = x % 32 then v else b.row r.lanes y))
  ∧ (∀ sl, tget r.slots m = some sl → ∀ i v t, let q := r.land (.line m i v t)
      q = { r with slots := q.slots } ∧ slotsSame q ∧ q.slotTag m = (t.getD sl.tag)
        ∧ ∀ j, tget (q.slotLines m) j = if j = i then some v else tget sl.lines j))

/-! ## Control-core instructions: integers, branches, memory -/

/-- R196: the register forms. Once its registers hold values each writes gd and moves on, whatever the values: a division by
zero gives all ones and a remainder by zero the dividend; shift counts are the full 64 bits.  R196, R197: the immediate forms:
the 14-bit immediate is sign-extended; LDI loads 19 bits sign-extended; LSI shifts gd left by 19 and puts 19 bits under it. -/
def Obligations.ControlIntegerInstructions : Prop :=
  (∀ (s : State) (d a b : BitVec 5), s.Filled [d, a, b] →
  let x := s.g a
  let y := s.g b
  let gives (i : Instr) (law : Word → Prop) : Prop := ∃ v, Writes i s d v ∧ law v
  gives (.add d a b) (fun v => v.toNat = (x.toNat + y.toNat) % 2 ^ 64)
  ∧ gives (.sub d a b) (fun v => (v.toNat + y.toNat) % 2 ^ 64 = x.toNat)
  ∧ gives (.mul d a b) (fun v => v.toNat = x.toNat * y.toNat % 2 ^ 64)
  ∧ gives (.mulhs d a b) (fun v => v.toInt = x.toInt * y.toInt / 2 ^ 64)
  ∧ gives (.mulhz d a b) (fun v => v.toNat = x.toNat * y.toNat / 2 ^ 64)
  ∧ gives (.divs d a b) (fun v => (y = 0 → v.toInt = -1) ∧ (y ≠ 0 → ¬(x.toInt = -2 ^ 63 ∧ y.toInt = -1) → v.toInt = x.toInt.tdiv y.toInt)
      ∧ (x.toInt = -2 ^ 63 ∧ y.toInt = -1 → v = x))
  ∧ gives (.divz d a b) (fun v => (y = 0 → v.toNat = 2 ^ 64 - 1) ∧ (y ≠ 0 → v.toNat = x.toNat / y.toNat))
  ∧ gives (.rems d a b) (fun v => (y = 0 → v = x) ∧ (y ≠ 0 → v.toInt = x.toInt.tmod y.toInt))
  ∧ gives (.remz d a b) (fun v => (y = 0 → v = x) ∧ (y ≠ 0 → v.toNat = x.toNat % y.toNat))
  ∧ gives (.and d a b) (fun v => ∀ i, v.getLsbD i = (x.getLsbD i && y.getLsbD i))
  ∧ gives (.or d a b) (fun v => ∀ i, v.getLsbD i = (x.getLsbD i || y.getLsbD i))
  ∧ gives (.xor d a b) (fun v => ∀ i, v.getLsbD i = (x.getLsbD i ^^ y.getLsbD i))
  ∧ gives (.andn d a b) (fun v => ∀ i, v.getLsbD i = (x.getLsbD i && !y.getLsbD i))
  ∧ gives (.shl d a b) (fun v => v.toNat = x.toNat * 2 ^ min y.toNat 64 % 2 ^ 64)
  ∧ gives (.shrz d a b) (fun v => v.toNat = x.toNat / 2 ^ min y.toNat 64)
  ∧ gives (.shrs d a b) (fun v => v.toInt = x.toInt / 2 ^ min y.toNat 63)
  ∧ gives (.slts d a b) (fun v => v.toNat = if x.toInt < y.toInt then 1 else 0)
  ∧ gives (.sltz d a b) (fun v => v.toNat = if x.toNat < y.toNat then 1 else 0)
  ∧ gives (.popc d a) (fun v => v.toNat = ((List.range 64).filter (fun i => x.getLsbD i)).length))
  ∧ (∀ (s : State) (d a : BitVec 5) (i : BitVec 14) (k : BitVec 19), s.Filled [d, a] →
  let x := s.g a
  let y := i.toInt
  let gives (j : Instr) (law : Word → Prop) : Prop := ∃ v, Writes j s d v ∧ law v
  gives (.addi d a i) (fun v => (v.toInt - (x.toInt + y)) % 2 ^ 64 = 0)
  ∧ gives (.andi d a i) (fun v => ∀ j, j < 64 → v.getLsbD j = (x.getLsbD j && (if j < 14 then i.getLsbD j else i.msb)))
  ∧ gives (.ori d a i) (fun v => ∀ j, j < 64 → v.getLsbD j = (x.getLsbD j || (if j < 14 then i.getLsbD j else i.msb)))
  ∧ gives (.xori d a i) (fun v => ∀ j, j < 64 → v.getLsbD j = (x.getLsbD j ^^ (if j < 14 then i.getLsbD j else i.msb)))
  ∧ gives (.shli d a i) (fun v => (0 ≤ y → v.toNat = x.toNat * 2 ^ min y.toNat 64 % 2 ^ 64) ∧ (y < 0 → v = 0))
  ∧ gives (.shrzi d a i) (fun v => (0 ≤ y → v.toNat = x.toNat / 2 ^ min y.toNat 64) ∧ (y < 0 → v = 0))
  ∧ gives (.shrsi d a i) (fun v => (0 ≤ y → v.toInt = x.toInt / 2 ^ min y.toNat 63) ∧ (y < 0 → v.toInt = x.toInt / 2 ^ 63))
  ∧ gives (.sltsi d a i) (fun v => v.toNat = if x.toInt < y then 1 else 0)
  ∧ gives (.sltzi d a i) (fun v => v.toNat = if x.toNat < (i.signExtend 64 : Word).toNat then 1 else 0)
  ∧ gives (.ldi d k) (fun v => v.toInt = k.toInt)
  ∧ gives (.lsi d k) (fun v => v.toNat = (s.g d).toNat * 2 ^ 19 % 2 ^ 64 + k.toNat))

/-- R198: a branch goes to pc + 4 * offset when its test holds and to pc + 4 otherwise; it writes no register.  R198: JAL
links in g31; JR and JALR go to ga, JALR reading it before it writes the link; a target that is not a multiple of 4 traps
FETCH with TPC the jump itself, and no link is written. -/
def Obligations.BranchesAndJumps : Prop :=
  (∀ (s : State) (a b : BitVec 5) (o : BitVec 14) (j : BitVec 24), s.Filled [a, b] →
  let x := s.g a
  let y := s.g b
  let goes (i : Instr) (c : Prop) [Decidable c] : Prop :=
    GoesTo i s (if c then s.me.pc + BitVec.ofInt 64 (4 * o.toInt) else s.me.pc + 4)
  goes (.beq a b o) (x = y) ∧ goes (.bne a b o) (x ≠ y) ∧ goes (.blts a b o) (x.toInt < y.toInt)
  ∧ goes (.bges a b o) (y.toInt ≤ x.toInt) ∧ goes (.bltz a b o) (x.toNat < y.toNat) ∧ goes (.bgez a b o) (y.toNat ≤ x.toNat)
  ∧ GoesTo (.j j) s (s.me.pc + BitVec.ofInt 64 (4 * j.toInt)))
  ∧ (∀ (s : State) (d a : BitVec 5) (j : BitVec 24),
  let links (i : Instr) (r : Nat) (target : Word) : Prop :=
    ∃ t, exec i s = .next t ∧ OnlyMe s t ∧ t.me = { s.me with g := t.me.g, pc := target, wait := none }
      ∧ ∀ q, t.me.reg q = if q = r ∧ q ≠ 0 then s.me.pc + 4 else s.me.reg q
  (s.Filled [31] → links (.jal j) 31 (s.me.pc + BitVec.ofInt 64 (4 * j.toInt)))
  ∧ (s.Filled [a] → (s.g a).toNat % 4 = 0 → GoesTo (.jr a) s (s.g a))
  ∧ (s.Filled [a] → (s.g a).toNat % 4 ≠ 0 → Traps (.jr a) s 0x04 (s.g a) s.me.pc)
  ∧ (s.Filled [d, a] → (s.g a).toNat % 4 = 0 → links (.jalr d a) d.toNat (s.g a))
  ∧ (s.Filled [d, a] → (s.g a).toNat % 4 ≠ 0 → Traps (.jalr d a) s 0x04 (s.g a) s.me.pc))

/-- R202, R209, R55: NOP moves on; PAUSE moves on and keeps the context from issuing for 32 wall cycles; TRAP and BRK take
their causes with TPC the next instruction and TVAL the immediate; a word that is no instruction takes ILLEGAL with TVAL the
word; a failed fetch takes FETCH with TPC and TVAL its address.  R202: a fence completes at once when every earlier access of
the context has performed, and FENCE.sys also waits for its earlier remote operations; until then the context blocks and
nothing changes. -/
def Obligations.SoftwareTrapsPausesAndFences : Prop :=
  (∀ (s : State) (n : BitVec 14) (w : W32) (va : Word),
  GoesTo .nop s (s.me.pc + 4)
  ∧ (∃ t, exec .pause s = .next t ∧ OnlyMe s t ∧ t.me = { s.me with pc := s.me.pc + 4, wait := none, pause := 33 })
  ∧ Traps (.trap n) s 0x08 (n.zeroExtend 64) (s.me.pc + 4)
  ∧ Traps (.brk n) s 0x09 (n.zeroExtend 64) (s.me.pc + 4)
  ∧ Traps (.illegalInstruction w) s 0x01 (w.zeroExtend 64) s.me.pc
  ∧ Traps (.fetchFault va) s 0x04 va va)
  ∧ (∀ (s : State),
  (∀ i ∈ [Instr.fenceSc, .fenceDie, .fencePkg],
    (s.performed s.cur.sc s.cur.ctx = true → GoesTo i s (s.me.pc + 4))
    ∧ (s.performed s.cur.sc s.cur.ctx = false → Blocks i s (.fence [])))
  ∧ (s.performed s.cur.sc s.cur.ctx = true → (∀ j ∈ s.myRemotes, notComplete s.mySc j = false) →
      GoesTo .fenceSys s (s.me.pc + 4))
  ∧ (s.performed s.cur.sc s.cur.ctx = false ∨ (∃ j ∈ s.myRemotes, notComplete s.mySc j = true) →
      Blocks .fenceSys s (.fence s.myRemotes)))

/-- R188, R315: an instruction that reads or writes a register that still waits for its value does nothing and blocks until it
is filled; a wait for an SCAS is a loss of decoupling, counted once. The registers of each form are those of its operands: its
group of registers where it has one, g31 for JAL, and for KRUN those that its kernel's arguments take.  R211, R213, R279: a
stream instruction one of whose handles is not bound traps STREAM_HANDLE with its word and issues nothing; one issued before
an earlier uncached access has performed waits for it, and one that touches what a waiting commit of range registers changes
waits for that.  R55, R164: in a task or message context every privileged instruction traps PRIV before any effect, with TVAL
its word. -/
def Obligations.InstructionsThatDoNotIssue : Prop :=
  (∀ (s : State) (d a b t : BitVec 5) (i o : BitVec 14) (k : BitVec 19) (n : BitVec 3)
    (h x c : BitVec 4) (q e l : BitVec 1) (g w : BitVec 2) (y : BitVec 6) (m : BitVec 24) (ct : BitVec 5),
  let waits (p : Instr × List (BitVec 5)) : Prop := ¬s.Filled p.2 → ∃ r ∈ p.2, Blocks p.1 s (.filled r.toNat)
    ∧ ∃ t, exec p.1 s = .next t ∧ t.me.lodc =
        (if s.me.unfilled.contains r.toNat && s.me.wait.isNone then (s.me.lodc + 1) &&& 0xFFFFFFFF else s.me.lodc)
  let of (rs : List (BitVec 5)) (is : List Instr) : List (Instr × List (BitVec 5)) := is.map (fun j => (j, rs))
  let range := a :: (regRange d n).map (BitVec.ofNat 5)
  (∀ p ∈ of [d, a, b] [.add d a b, .sub d a b, .mul d a b, .mulhs d a b, .mulhz d a b, .divs d a b, .divz d a b, .rems d a b,
        .remz d a b, .and d a b, .or d a b, .xor d a b, .andn d a b, .shl d a b, .shrz d a b, .shrs d a b, .slts d a b,
        .sltz d a b, .ldx d a b, .fspawn d a b, .fspawnh d a b h, .balloc d a b]
      ++ of [d, a] [.popc d a, .addi d a i, .andi d a i, .ori d a i, .xori d a i, .shli d a i, .shrzi d a i, .shrsi d a i,
        .sltsi d a i, .sltzi d a i, .jalr d a, .lb d a i, .lbz d a i, .lh d a i, .lhz d a i, .lw d a i, .lwz d a i, .ld d a i,
        .sb d a i, .sh d a i, .sw d a i, .sd d a i, .ldAcq d a i, .stRel d a i, .fget d a, .fgetd d a, .fpoll d a, .bpoll d a,
        .glaunch d a, .xlat d a]
      ++ of [a, b] [.beq a b o, .bne a b o, .blts a b o, .bges a b o, .bltz a b o, .bgez a b o, .salloc a h b g, .srd a h b,
        .swr a h b, .kload a b, .kinfo a b, .krq a b t, .waitge a b, .sgather a h x b, .sscatter a h x b, .sfill a h b q,
        .scopy a h x b q e, .sacc a h b n e, .sscadd a h x b n, .squant a b, .sdqnt a b]
      ++ of [a] [.jr a, .mts a i, .dcfl a i, .dcz a i, .sptr a h q, .sinfo a h, .kfree a, .scount a h, .stest a h q e n, .fref a,
        .fdrop a, .fret a, .fretf a, .bfree a, .barr a, .barrd a, .bwait a, .gfree a, .sload a h x q, .sstore a h x q]
      ++ of [d] [.ldi d k, .lsi d k, .mfs d i] ++ of [31] [.jal m]
      ++ of [a, regAfter a 1, b] [.scas a h x b n g 0, .sdecomp a h b q] ++ of [b] [.scas a h x b n g 1]
      ++ of (b :: groupRegs a 4) [.sread a b] ++ of (groupRegs a 4) [.sreads a h]
      ++ of (a :: groupRegs b 3) [.rput a h b q l, .rget a x b q, .racc a h b n g q, .rsig a b c 1]
      ++ of (a :: groupRegs b 5) [.rputh a h b q c l] ++ of (a :: groupRegs b 1) [.rsig a b c 0], waits p)
  ∧ (isSystem s.cur.ctx = true →
    ∀ p ∈ of [a, b] [.pown a b, .pdup a b] ++ of [d, a] [.pstat d a] ++ of [d] [.rngget d y q w]
      ++ of [a] [.dcinv a i, .csave a ct, .cload a ct, .ctxsig a ct, .tlbinv a, .rngset a y w, .psplit a], ct.toNat < 20 → waits p)
  ∧ ((∀ p k rest w, s.me.wait ≠ some (.parts p k rest w)) → waits (.ldm d a n, range) ∧ waits (.stm d a n, range))
  ∧ ((∀ r ∈ s.krunRegs a b, r ≤ 31) → waits (.krun a b t q, a :: b :: (s.krunRegs a b).map (BitVec.ofNat 5))))
  ∧ (∀ (s : State) (a b : BitVec 5) (h k c : BitVec 4) (p e : BitVec 1) (o : BitVec 3)
    (t : BitVec 2),
  let of (rs : List (BitVec 5)) (hs : List (BitVec 4)) (is : List Instr) : List (Instr × List (BitVec 5) × List (BitVec 4)) :=
    is.map (fun i => (i, rs, hs))
  let enters := of [a] [h] [.sload a h k 0, .sstore a h k 0] ++ of [a] [h, k] [.sload a h k 1, .sstore a h k 1]
    ++ of [a, b] [h, k] [.sgather a h k b, .sscatter a h k b, .sscadd a h k b o, .scopy a h k b 1 1]
    ++ of [] [h] [.sfree h, .sreset h] ++ of [a, b] [h] [.sfill a h b p, .scopy a h k b 0 1, .sacc a h b o 1]
    ++ of [a, b] [k] [.scopy a h k b 1 0] ++ of [b] [h, k] [.scas a h k b o t 1]
    ++ of [a, regAfter a 1, b] [h] [.sdecomp a h b p] ++ of (groupRegs a 4) [h] [.sreads a h]
    ++ of (a :: groupRegs b 3) [h] [.rput a h b p 1, .racc a h b o t 1] ++ of (a :: groupRegs b 3) [k] [.rget a k b 1]
    ++ of (a :: groupRegs b 5) [h] [.rputh a h b p c 1]
  let others := of [a, b] [] [.scopy a h k b 0 0, .sacc a h b o 0, .squant a b, .sdqnt a b]
    ++ of [a, regAfter a 1, b] [] [.scas a h k b o t 0] ++ of (b :: groupRegs a 4) [] [.sread a b]
    ++ of (a :: groupRegs b 3) [] [.rput a h b p 0, .racc a h b o t 0, .rget a k b 0, .rsig a b c 1]
    ++ of (a :: groupRegs b 5) [] [.rputh a h b p c 0] ++ of (a :: groupRegs b 1) [] [.rsig a b c 0]
  let inPlace := of [a] [h] [.sptr a h p, .scount a h, .stest a h 1 e o] ++ of [a, b] [h] [.srd a h b, .swr a h b]
    ++ of [] [k] [.smovh h k] ++ of [] [h] [.swait h 1 e o]
  let unbound (i : Instr × List (BitVec 5) × List (BitVec 4)) : Prop := s.Filled i.2.1 → (∃ x ∈ i.2.2, tget s.me.h x.toNat = none) →
    ∃ w, encode i.1 = some w ∧ Traps i.1 s 0x18 (w.zeroExtend 64) s.me.pc
  (s.Settled → ∀ i ∈ enters, unbound i) ∧ (∀ i ∈ inPlace, unbound i)
  ∧ (¬s.Settled → ∀ i ∈ enters ++ others, s.Filled i.2.1 → Blocks i.1 s (.settled []))
  ∧ ∀ (i : Issue) (g : State → State), i.addresses.any s.commitHits = true → s.issue i g = s.block (.touched i.chunks))
  ∧ (∀ (s : State) (d a b c : BitVec 5) (i : BitVec 14) (r : BitVec 6) (l : BitVec 1)
    (w : BitVec 2), isSystem s.cur.ctx = false →
  c.toNat < 20 → ∀ j ∈ [Instr.tret, .idle, .dcinv a i, .ctxsig a c, .ctxkill c, .csave a c, .cload a c, .tlbinv a, .tlbinva, .rngset a r w,
      .rngget d r l w, .rngcommit, .psplit a, .pown a b, .pdup a b, .pstat d a],
    ∃ x, encode j = some x ∧ Traps j s 0x02 (x.zeroExtend 64) s.me.pc)

/-- R199, R280, R284, R302, R315: loads through the data cache.  The address is ga + imm14 (LDX: ga + gb); where the access is
allowed, cached and not of register space, no LD.acq of the context is outstanding and the tag that a fill needs is free, the line
is filled and gd takes the n little-endian bytes there, sign- or zero-extended.  Where the fill finds no earlier request of the
port to the line and replaces no line, memory and every byte of it stay as they were. -/
def Obligations.CachedLoads : Prop := ∀ (s : State) (d a b : BitVec 5) (i : BitVec 14) (x : Xlat), s.acquiring = false →
  let loads (j : Instr) (n : Nat) (v : Word) (signed : Bool) : Prop :=
    let u := s.walked v n
    let l := localOf x.pa
    let f := u.leaveTagQ.fillLine s.cur.sc l
    u.check false v n = .ok x → x.uc = false → inRegs l = false → u.needsTag x = none → s.cur.sc < 16 →
    ∃ t w, exec j s = .next t ∧ SameBytes f t ∧ s.me.Wrote t.me d.toNat w
      ∧ (signed = false → w.toNat = bytesNat (f.bytes l n))
      ∧ (signed = true → (w.toInt - bytesNat (f.bytes l n)) % 2 ^ (8 * n) = 0
          ∧ -2 ^ (8 * n - 1) ≤ w.toInt ∧ w.toInt < 2 ^ (8 * n - 1))
      ∧ (s.Quiet l → SameBytes s t ∧ t.mem = s.mem ∧ f.bytes l n = s.bytes l n)
  let v := s.g a + i.signExtend 64
  (s.Filled [d, a] →
    loads (.lb d a i) 1 v true ∧ loads (.lbz d a i) 1 v false ∧ loads (.lh d a i) 2 v true ∧ loads (.lhz d a i) 2 v false
    ∧ loads (.lw d a i) 4 v true ∧ loads (.lwz d a i) 4 v false ∧ loads (.ld d a i) 8 v false ∧ loads (.ldAcq d a i) 8 v false)
  ∧ (s.Filled [d, a, b] → loads (.ldx d a b) 8 (s.g a + s.g b) false)

/-- R199, R200, R284, R302: cached stores.  Where the access is allowed, no LD.acq of the context is outstanding and the tag that a
fill needs is free, the n bytes at the translated address take the low bytes of gd, little-endian, and no register changes; ST.rel
does so once every earlier access has performed.  The bytes stand for every coherent agent at once, in program order: the model's
memory order, where R304 lets a store perform later (DEDUCED, log 11).  Every other byte reads as it does with the line
filled, which is as before where the fill finds no earlier request of the port to the line and replaces no line. -/
def Obligations.CachedStores : Prop := ∀ (s : State) (d a : BitVec 5) (i : BitVec 14) (x : Xlat), s.Filled [d, a] →
  s.Safe → s.acquiring = false →
  let v := s.g a + i.signExtend 64
  let l := localOf x.pa
  let stores (j : Instr) (n : Nat) : Prop :=
    let u := s.walked v n
    let f := u.leaveTagQ.fillLine s.cur.sc l
    u.check true v n = .ok x → x.uc = false → inRegs l = false → u.needsTag x = none → s.cur.sc < 16 → l % 64 + n ≤ 64 →
    ∃ t, exec j s = .next t ∧ t.me = { s.me with pc := s.me.pc + 4, wait := none }
      ∧ (∀ c, t.byte c = if l ≤ c ∧ c < l + n then BitVec.ofNat 8 ((s.g d).toNat / 256 ^ (c - l)) else f.byte c)
      ∧ (s.Quiet l → SameBytes s f)
  stores (.sb d a i) 1 ∧ stores (.sh d a i) 2 ∧ stores (.sw d a i) 4 ∧ stores (.sd d a i) 8 ∧ (s.Settled → stores (.stRel d a i) 8)

/-- R199, R204: a load or store whose address is not a multiple of its size traps ALIGN, with TVAL the address and TPC the
instruction, and writes neither register nor memory; one that does not translate traps PAGE_FAULT.  R200, R314, R315, R317: on
an uncached page a load sends one read packet with a free tag, marks gd unfilled and moves on (LD.acq's packet is marked so
that every later access of the context waits for it), a store sends one masked write packet and DCZ one write of the whole
unit; memory changes only when the packet is performed, and LDM and STM send a packet for each dword, in ascending address
order, and wait in the middle where no tag is free. While a stack has no free tag the context blocks. In register space a
dword load gives the register's value at once, any narrower load zero, and a narrower store does nothing. That LD.acq does not
itself wait, that DCZ sends one write, that LDM and STM send their packets within the instruction while tags are free, and the
zero of a narrow load are the model's reading of these rules (DEDUCED, log 39). -/
def Obligations.AccessesThatTrapOrLeaveTheCache : Prop :=
  (∀ (s : State) (d a : BitVec 5) (i : BitVec 14), s.Filled [d, a] →
  let v := s.g a + i.signExtend 64
  let forms : List (Instr × Nat) := [(.lb d a i, 1), (.lbz d a i, 1), (.lh d a i, 2), (.lhz d a i, 2), (.lw d a i, 4),
    (.lwz d a i, 4), (.ld d a i, 8), (.ldAcq d a i, 8), (.sb d a i, 1), (.sh d a i, 2), (.sw d a i, 4), (.sd d a i, 8),
    (.stRel d a i, 8)]
  ∀ p ∈ forms, (v.toNat % p.2 ≠ 0 → Traps p.1 s 0x03 v s.me.pc)
    ∧ (v.toNat % p.2 = 0 → s.xlat s.cur.sc v.toNat = none → Traps p.1 s 0x05 v s.me.pc))
  ∧ (∀ (s : State) (d a b : BitVec 5) (i : BitVec 14) (n : BitVec 3) (x : Xlat),
  s.Filled [d, a, b] →
  let v := s.g a + i.signExtend 64
  let l := localOf x.pa
  let port := corePort s.cur.sc
  let regs (t : State) : Prop := t.mem = s.mem ∧ t.me.pc = s.me.pc + 4 ∧ ∀ r, t.me.reg r = s.me.reg r
  let sent (t : State) (p : Packet) : Prop :=
    t.pkts = tput s.pkts s.nextPkt { p with tag := (s.freeTag p.stack p.port).getD 0 }
  let marked (t : State) : Prop := t.me.unfilled = if d = 0 then s.me.unfilled else s.me.unfilled ++ [d.toNat + 32]
  let packet (k : Nat) (sg acq : Bool) : Packet :=
    { readPacket s.topo port s.myOwner l (.reg s.cur.sc s.myOwner d.toNat k sg) with acq := acq }
  let reads (j : Instr) (k : Nat) (sg acq : Bool) : Prop := ∃ t, exec j s = .next t ∧ regs t ∧ marked t ∧ sent t (packet k sg acq)
  let stays (j : Instr) (w : Wait) : Prop := ∃ t, exec j s = .next t ∧ t.me.st = .blocked ∧ t.me.wait = some w
    ∧ t.me.pc = s.me.pc ∧ t.pkts = s.pkts ∧ t.mem = s.mem ∧ ∀ r, t.me.reg r = s.me.reg r
  let loads : List (Instr × Nat × Bool) := [(.lb d a i, 1, true), (.lbz d a i, 1, false), (.lh d a i, 2, true),
    (.lhz d a i, 2, false), (.lw d a i, 4, true), (.lwz d a i, 4, false), (.ld d a i, 8, false)]
  let stores : List (Instr × Nat) := [(.sb d a i, 1), (.sh d a i, 2), (.sw d a i, 4), (.sd d a i, 8)]
  let writes (j : Instr) (k : Nat) : Prop := ∃ t, exec j s = .next t ∧ regs t
    ∧ sent t (maskedPacket s.topo port s.myOwner l (natBytes k (s.g d).toNat))
  let may (w : Bool) (y : Word) (k : Nat) (align : Bool) : Prop :=
    (s.walked y k align).check w y k align = .ok x ∧ (s.walked y k align).needsTag x = none
  (s.acquiring = false → x.uc = true → inRegs l = false →
    (∀ p ∈ loads, may false v p.2.1 true → reads p.1 p.2.1 p.2.2 false)
    ∧ (may false (s.g a + s.g b) 8 true → reads (.ldx d a b) 8 false false)
    ∧ (may false v 8 true → reads (.ldAcq d a i) 8 false true)
    ∧ (∀ p ∈ stores, may true v p.2 true → writes p.1 p.2)
    ∧ (may true v 8 true → s.Settled → writes (.stRel d a i) 8)
    ∧ (may true v 64 false → ∃ t, exec (.dcz a i) s = .next t ∧ regs t ∧ sent t (zeroPacket s.topo port s.myOwner l)))
  ∧ (∀ k, s.acquiring = false →
    (∀ p ∈ loads, (s.walked v p.2.1).check false v p.2.1 = .ok x → (s.walked v p.2.1).needsTag x = some k →
      stays p.1 (.tag s.cur.sc k))
    ∧ (∀ p ∈ stores, (s.walked v p.2).check true v p.2 = .ok x → (s.walked v p.2).needsTag x = some k →
      stays p.1 (.tag s.cur.sc k)))
  -- every access after an LD.acq waits for its packet to perform
  ∧ (s.acquiring = true →
    (∀ p ∈ loads, (s.walked v p.2.1).check false v p.2.1 = .ok x → stays p.1 (.settled []))
    ∧ (∀ p ∈ stores, (s.walked v p.2).check true v p.2 = .ok x → stays p.1 (.settled [])))
  ∧ (s.acquiring = false → inRegs l = true →
    (∀ p ∈ loads, (s.walked v p.2.1).check false v p.2.1 = .ok x → ∃ t, exec p.1 s = .next t
      ∧ s.me.Wrote t.me d.toNat (if p.2.1 = 8 then (s.walked v p.2.1).leaveTagQ.regRead (l - 2 ^ 40) else 0) ∧ t.mem = s.mem)
    ∧ (∀ p ∈ stores, (s.walked v p.2).check true v p.2 = .ok x → ∃ t, exec p.1 s = .next t ∧ regs t
      ∧ (p.2 ≠ 8 → t = (s.walked v p.2).leaveTagQ.fin))
    ∧ ((s.walked v 8).check true v 8 = .ok x →
      exec (.sd d a i) s = .next ((s.walked v 8).leaveTagQ.regWrite (l - 2 ^ 40) (s.g d)).fin)
    ∧ ((s.walked v 64 false).check true v 64 false = .ok x → ∃ t, exec (.dcz a i) s = .next t ∧ regs t))
  ∧ (∀ xs, let u := s.walkedAll (s.g a) (List.range (n.toNat + 1))
    s.acquiring = false → s.Filled (a :: (regRange d n).map (BitVec.ofNat 5)) → (∀ p k rest w, s.me.wait ≠ some (.parts p k rest w)) →
    (∀ y ∈ xs, y.uc = true ∧ inRegs (localOf y.pa) = false) → u.TagsFor xs →
    (u.checkRange false (s.g a) (List.range (n.toNat + 1)) = .ok xs →
      ∃ t, exec (.ldm d a n) s = .next t ∧ regs t ∧ t.nextPkt = s.nextPkt + (n.toNat + 1))
    ∧ (u.checkRange true (s.g a) (List.range (n.toNat + 1)) = .ok xs →
      ∃ t, exec (.stm d a n) s = .next t ∧ regs t ∧ t.nextPkt = s.nextPkt + (n.toNat + 1)))
  -- one that waits in the middle keeps its word and the registers it has yet to move, and goes on with them
  ∧ (∀ (p : Nat × Xlat) (ps : List (Nat × Xlat)) (k : Nat) (w : W32) (f : Nat → Xlat → State → State), s.needsTag p.2 = some k →
      State.eachPart w f (p :: ps) s = s.waitTag k (.parts s.cur.sc k (p :: ps) w))
  ∧ (∀ port k rest w, s.me.wait = some (.parts port k rest w) →
      (∃ w', exec (.ldm d a n) s = .next (s.eachPart w' (fun r x s => s.loadAt r 8 false x) rest) ∧ encode (.ldm d a n) = some w')
      ∧ ∃ w', exec (.stm d a n) s = .next (s.eachPart w' (fun r x s => s.storeAt 8 x (s.me.reg r)) rest) ∧ encode (.stm d a n) = some w'))

/-- R201, R284: LDM and STM move n + 1 dwords between registers gd up and ascending addresses from ga, all or nothing: where one
dword fails its check they trap with the lowest failing address and change no register and no byte. -/
def Obligations.MultipleLoadsAndStores : Prop := ∀ (s : State) (d a : BitVec 5) (n : BitVec 3),
  s.Filled (a :: (regRange d n).map (BitVec.ofNat 5)) → d.toNat + n.toNat < 32 → (∀ p k rest w, s.me.wait ≠ some (.parts p k rest w)) →
  let ks := List.range (n.toNat + 1)
  let u := s.walkedAll (s.g a) ks
  (∀ xs, u.checkRange false (s.g a) ks = .ok xs → s.acquiring = false → u.TagsFor xs → s.cur.sc < 16 →
    (∀ x ∈ xs, inRegs (localOf x.pa) = false) →
    ∃ t, exec (.ldm d a n) s = .next t ∧ t.me.pc = s.me.pc + 4 ∧ t.me.wait = none
      ∧ (∀ r, ¬(d.toNat ≤ r ∧ r ≤ d.toNat + n.toNat ∧ r ≠ 0) → t.me.reg r = s.me.reg r)
      ∧ ((∀ x ∈ xs, x.uc = false) → u.QuietAll xs → SameBytes s t
        ∧ ∀ r, t.me.reg r = if d.toNat ≤ r ∧ r ≤ d.toNat + n.toNat ∧ r ≠ 0
            then BitVec.ofNat 64 (bytesNat (s.bytes (localOf ((xs[r - d.toNat]?).getD default).pa) 8)) else s.me.reg r))
  ∧ (∀ xs, u.checkRange true (s.g a) ks = .ok xs → s.acquiring = false → u.TagsFor xs → s.cur.sc < 16 → s.Safe →
    (∀ x ∈ xs, inRegs (localOf x.pa) = false ∧ localOf x.pa % 64 + 8 ≤ 64) →
    ∃ t, exec (.stm d a n) s = .next t ∧ t.me = { s.me with pc := s.me.pc + 4, wait := none }
      ∧ ((∀ x ∈ xs, x.uc = false) → u.QuietAll xs →
        (∀ c, (∀ x ∈ xs, ¬(localOf x.pa ≤ c ∧ c < localOf x.pa + 8)) → t.byte c = s.byte c)
        -- each dword stands where no later one of the group covers it
        ∧ ∀ (k j : Nat) x, xs[k]? = some x → j < 8 →
            (∀ (m : Nat) y, k < m → xs[m]? = some y → ¬(localOf y.pa ≤ localOf x.pa + j ∧ localOf x.pa + j < localOf y.pa + 8)) →
            t.byte (localOf x.pa + j) = BitVec.ofNat 8 ((s.me.reg (d.toNat + k)).toNat / 256 ^ j)))
  ∧ (∀ e, u.checkRange false (s.g a) ks = .error e → Traps (.ldm d a n) s e.1 e.2 s.me.pc)
  ∧ (∀ e, u.checkRange true (s.g a) ks = .error e → Traps (.stm d a n) s e.1 e.2 s.me.pc)

/-- R202, R284, R396: the data-cache instructions complete.  DCFL writes the line back; DCINV, in a system context, discards it; DCZ on
a cached page makes the 64 bytes of the line zero and, where no earlier request of the port to the line is left and no line has to
make room, leaves every other byte.  Without a translation DCFL and DCINV do nothing but the walk. -/
def Obligations.DataCacheInstructions : Prop := ∀ (s : State) (a : BitVec 5) (i : BitVec 14), s.Filled [a] →
  let v := s.g a + i.signExtend 64
  let u := s.touchMe v.toNat
  (u.xlat s.cur.sc v.toNat = none → exec (.dcfl a i) s = .next u.fin
    ∧ (isSystem s.cur.ctx = true → exec (.dcinv a i) s = .next u.fin))
  ∧ SameBytes s u
  ∧ (∀ x, u.xlat s.cur.sc v.toNat = some x → u.far x = false →
    exec (.dcfl a i) s = .next (u.writeBack s.cur.sc (localOf x.pa / 64)).fin
    ∧ (isSystem s.cur.ctx = true → ∃ t, exec (.dcinv a i) s = .next t ∧ t.mem = s.mem
        ∧ t.me = { s.me with pc := s.me.pc + 4, wait := none } ∧ tget t.mySc.lines (localOf x.pa / 64) = none))
  ∧ (∀ x, u.xlat s.cur.sc v.toNat = some x → u.far x = true →
    exec (.dcfl a i) s = .next u.fin ∧ (isSystem s.cur.ctx = true → exec (.dcinv a i) s = .next u.fin))
  ∧ (∀ x, u.check true v 64 false = .ok x → x.uc = false → inRegs (localOf x.pa) = false → s.acquiring = false → s.cur.sc < 16 →
    s.Safe →
    ∃ t, exec (.dcz a i) s = .next t ∧ t.me = { s.me with pc := s.me.pc + 4, wait := none }
      ∧ (∀ c, c / 64 = localOf x.pa / 64 → t.byte c = 0)
      ∧ (s.Quiet (localOf x.pa) → t.mem = s.mem ∧ ∀ c, c / 64 ≠ localOf x.pa / 64 → t.byte c = s.byte c))

/-! ## Traps, special registers, contexts -/

/-- R203, R205: taking a trap in context c of an SC. TCAUSE, TPC and TVAL are recorded, the context is TRAPPED and joins the
end of the trap queue; the control core stops exactly when both system contexts are then TRAPPED, or one traps while TVEC is
unwritten, and then SYSCTX_TRAP is set in HLTH; every other context, stream, run and entry and all of memory stay.  R205: the
head of the trap queue is handed to the lower-numbered FREE system context other than itself: it starts at TVEC with OWNER the
trapped context, g1-g4 the context number, TCAUSE, TVAL and TPC, and every other general register 0, and the trapped context
leaves the queue. With TVEC unwritten, or no system context FREE, or the core stopped, nothing changes. -/
def Obligations.TrapsAndTheirHandOver : Prop :=
  (∀ (s : State) (n c cause : Nat) (async : Bool) (v p : Word),
  let t := s.takeTrap n c cause async v p
  let o := s.ctx n c
  t.ctx n c = { o with st := .trapped, tcause := BitVec.ofNat 64 (cause + (if async then 256 else 0)), tval := v, tpc := p,
                       wait := none, pause := 0 }
  ∧ (t.sc n).trapQ = (s.sc n).trapQ ++ [c]
  ∧ (∀ d, d ≠ c → t.ctx n d = s.ctx n d) ∧ (∀ m, m ≠ n → t.sc m = s.sc m)
  ∧ ((t.sc n).stopped = ((s.sc n).stopped || (decide (c = 18 ∨ c = 19)
      && (!(s.sc n).tvecSet || (decide ((t.ctx n 18).st = .trapped) && decide ((t.ctx n 19).st = .trapped))))))
  ∧ ((c = 18 ∨ c = 19) → (s.sc n).tvecSet = false → t.mgmt.hlth = s.mgmt.hlth ||| (1 <<< 15))
  ∧ (c = 18 → (s.ctx n 19).st = .trapped → t.mgmt.hlth = s.mgmt.hlth ||| (1 <<< 15))
  ∧ (c = 19 → (s.ctx n 18).st = .trapped → t.mgmt.hlth = s.mgmt.hlth ||| (1 <<< 15))
  ∧ ((s.sc n).tvecSet = true → (c = 18 → (s.ctx n 19).st ≠ .trapped) → (c = 19 → (s.ctx n 18).st ≠ .trapped) → t.mgmt = s.mgmt)
  ∧ (c ≠ 18 → c ≠ 19 → t.mgmt = s.mgmt)
  ∧ (t.sc n).entries = (s.sc n).entries ∧ (t.sc n).streams = (s.sc n).streams ∧ (t.sc n).runs = (s.sc n).runs
  ∧ t.mem = s.mem ∧ SameBytes s t ∧ t.tb = s.tb ∧ t.futs = s.futs)
  ∧ (∀ (s : State) (n c k : Nat) (rest : List Nat),
  (s.sc n).trapQ = c :: rest →
  let t : State := s.handOver n
  exec (.trapHandover n) s = .next t
  ∧ ((s.sc n).tvecSet = true → (s.sc n).stopped = false → c ≠ k → (s.ctx n k).st = .free → k = 18 ∨ (k = 19 ∧ ¬(c ≠ 18 ∧ (s.ctx n 18).st = .free)) →
      (k = 18 ∨ k = 19) →
      (t.ctx n k).st = .ready ∧ (t.ctx n k).pc = (s.sc n).tvec ∧ (t.ctx n k).owner = c
      ∧ (∀ r, (t.ctx n k).reg r = if r = 1 then BitVec.ofNat 64 c else if r = 2 then (s.ctx n c).tcause
          else if r = 3 then (s.ctx n c).tval else if r = 4 then (s.ctx n c).tpc else 0)
      ∧ (t.ctx n k).scr0 = (s.ctx n k).scr0 ∧ (t.ctx n k).scr1 = (s.ctx n k).scr1
      ∧ (t.sc n).trapQ = rest ∧ (∀ d, d ≠ k → t.ctx n d = s.ctx n d) ∧ t.mem = s.mem)
  ∧ ((s.sc n).tvecSet = false ∨ (s.sc n).stopped = true → t = s)
  ∧ ((c = 18 ∨ (s.ctx n 18).st ≠ .free) → (c = 19 ∨ (s.ctx n 19).st ≠ .free) → t = s))

/-- R206: TRET of a system context whose own activity has settled ends it, and the context it handles resumes at its TPC, when
that context's task was not reclaimed meanwhile; one that handles nothing traps CTX_STATE; one that waits for its own entries
or accesses blocks.  R206: IDLE ends a system context; CTXSIG resumes a TRAPPED context at ga, or starts a FREE system context
there; CTXKILL of a TRAPPED task ends it FAULTED with STATUS its cause and RESULT its TVAL, and of a TRAPPED message context
ends its activity: memberships end, what is held is dropped once and streams are freed, as R246 says; on any other context
they trap CTX_STATE. A number ctx above 19 is of no instruction (R55). -/
def Obligations.LeavingAHandler : Prop :=
  (∀ (s : State),
  let n := s.cur.sc
  let k := s.cur.ctx
  let o := s.me.owner
  isSystem k = true →
  (o = 31 → Traps .tret s 0x23 (BitVec.ofNat 64 k) s.me.pc)
  ∧ (o < 20 → o ≠ k → s.settledFor n k (s.ownIds n s.myOwner) = true → (s.endActivity n k).ctxReclaimed n o = false →
      ∃ t, exec .tret s = .next t ∧ (t.ctx n o).st = .ready ∧ (t.ctx n o).pc = ((s.endActivity n k).ctx n o).tpc
        ∧ (∀ r, (t.ctx n o).reg r = ((s.endActivity n k).ctx n o).reg r)
        ∧ o ∉ (t.sc n).trapQ ∧ ActivityOver s t n k)
  ∧ (o ≠ 31 → s.settledFor n k (s.ownIds n s.myOwner) = false →
      Blocks .tret s (.settled (s.ownIds n s.myOwner))))
  ∧ (∀ (s : State) (a c : BitVec 5),
  let n := s.cur.sc
  let k := s.cur.ctx
  isSystem k = true → c.toNat < 20 →
  (s.settledFor n k (s.ownIds n s.myOwner) = true → (∀ o, (s.endActivity n k).ctxReclaimed n o = false) →
      ∃ t, exec .idle s = .next t ∧ ActivityOver s t n k)
  ∧ (s.Filled [a] → s.isTrapped c.toNat = true → c.toNat ≠ k → s.ctxReclaimed n c.toNat = false →
      ∃ t, exec (.ctxsig a c) s = .next t ∧ (t.ctx n c.toNat).st = .ready ∧ (t.ctx n c.toNat).pc = s.g a
        ∧ t.me.pc = s.me.pc + 4 ∧ c.toNat ∉ (t.sc n).trapQ)
  ∧ (s.Filled [a] → isSystem c.toNat = true → c.toNat ≠ k → s.isFree c.toNat = true →
      ∃ t, exec (.ctxsig a c) s = .next t ∧ (t.ctx n c.toNat).st = .ready ∧ (t.ctx n c.toNat).pc = s.g a)
  ∧ (s.Filled [a] → s.isTrapped c.toNat = false → ¬(isSystem c.toNat = true ∧ s.isFree c.toNat = true) →
      Traps (.ctxsig a c) s 0x23 (BitVec.ofNat 64 c.toNat) s.me.pc)
  ∧ (c.toNat < 16 → s.isTrapped c.toNat = true → s.ctxReclaimed n c.toNat = false →
      ∃ t, exec (.ctxkill c) s = .next t ∧ t.me.pc = s.me.pc + 4
        ∧ TaskOver s.fin t n c.toNat .faulted ((s.ctx n c.toNat).tcause.toNat % 256) (s.ctx n c.toNat).tval)
  ∧ (c.toNat = 16 ∨ c.toNat = 17 → s.isTrapped c.toNat = true →
      ∃ t, exec (.ctxkill c) s = .next t ∧ t.me.pc = s.me.pc + 4 ∧ ActivityOver s.fin t n c.toNat)
  ∧ (s.isTrapped c.toNat = false ∨ isSystem c.toNat = true → Traps (.ctxkill c) s 0x23 (BitVec.ofNat 64 c.toNat) s.me.pc))

/-- R192-R195, R208, R355: MFS and MTS.  A number with no register traps ILLEGAL and a system register elsewhere traps PRIV, for
both.  MFS gives the register's value; MTS writes PTB, TVEC, KSP, the scratch registers, FABCTL, PORTCTL and LODC with their
masks, leaves read-only registers, and traps CTX_STATE for KSP while a run of the SC is saved.  A system context reads and writes
TPC and the like of the context it handles; when it handles none they read zero and a write changes nothing.  The two low bits of
TVEC are not kept: the model's choice (log 83); a lane's LOCK depends on the version its partner reports, a free value
(log 63). -/
def Obligations.SpecialRegisters : Prop := ∀ (s : State) (d a : BitVec 5) (r : BitVec 14),
  let n := s.cur.sc
  let k := s.cur.ctx
  let sys : List Nat := [0x100, 0x101, 0x102, 0x104, 0x105, 0x110, 0x111, 0x112]
  let user : List Nat := [0, 1, 2, 3, 4, 5, 6, 7, 8, 0x10, 0x11, 0x12, 0x13, 0x18, 0x19, 0x1A, 0x1B]
  let may := r.toNat ∈ user ∨ (r.toNat ∈ sys ∧ isSystem k = true)
  let owned (x : Ctx) (v : Word) : Prop :=
    (r.toNat = 0 → v = x.tix) ∧ (r.toNat = 1 → v = x.tcnt) ∧ (r.toNat = 2 → v = x.fut) ∧ (r.toNat = 3 → v = x.rcb)
    ∧ (r.toNat = 0x11 → v = x.dln) ∧ (r.toNat = 0x12 → v = x.bud) ∧ (r.toNat = 0x13 → v = x.lodc)
    ∧ (r.toNat = 0x19 → v = x.tcause) ∧ (r.toNat = 0x1A → v = x.tpc) ∧ (r.toNat = 0x1B → v = x.tval)
  let perContext : List Nat := [0, 1, 2, 3, 0x11, 0x12, 0x13, 0x19, 0x1A, 0x1B]
  -- MFS
  (s.Filled [d] → may → ∃ v, Writes (.mfs d r) s d v
      ∧ (r.toNat = 4 → v = BitVec.ofNat 64 (n / 2)) ∧ (r.toNat = 5 → v = BitVec.ofNat 64 n)
      ∧ (r.toNat = 6 → v = BitVec.ofNat 64 (s.fab.fid.toNat % 4096)) ∧ (r.toNat = 7 → v = BitVec.ofNat 64 (n / 8))
      ∧ (r.toNat = 8 → v = BitVec.ofNat 64 k) ∧ (r.toNat = 0x10 → v = BitVec.ofNat 64 s.tb)
      ∧ (r.toNat = 0x18 → v = s.statusWord n k)
      ∧ (r.toNat = 0x100 → v = (s.sc n).ptb) ∧ (r.toNat = 0x101 → v = (s.sc n).tvec) ∧ (r.toNat = 0x102 → v = (s.sc n).ksp)
      ∧ (r.toNat = 0x104 → v = s.me.scr0) ∧ (r.toNat = 0x105 → v = s.me.scr1) ∧ (r.toNat = 0x110 → v = s.mgmt.hlth)
      ∧ (r.toNat = 0x111 → v = s.fab.fabctl) ∧ (r.toNat = 0x112 → v = s.portctlWord s.me.portSel)
      ∧ (isSystem k = false → owned s.me v)
      ∧ (isSystem k = true → s.me.owner ≠ 31 → owned (s.ctx n s.me.owner) v)
      ∧ (isSystem k = true → s.me.owner = 31 → r.toNat ∈ perContext → v = 0))
  ∧ (s.Filled [d] → r.toNat ∉ user → r.toNat ∉ sys → ∃ w, encode (.mfs d r) = some w ∧ Traps (.mfs d r) s 0x01 (w.zeroExtend 64) s.me.pc)
  ∧ (s.Filled [d] → r.toNat ∈ sys → isSystem k = false →
      ∃ w, encode (.mfs d r) = some w ∧ Traps (.mfs d r) s 0x02 (w.zeroExtend 64) s.me.pc)
  -- MTS: the traps
  ∧ (s.Filled [a] → r.toNat ∉ user → r.toNat ∉ sys → ∃ w, encode (.mts a r) = some w ∧ Traps (.mts a r) s 0x01 (w.zeroExtend 64) s.me.pc)
  ∧ (s.Filled [a] → r.toNat ∈ sys → isSystem k = false →
      ∃ w, encode (.mts a r) = some w ∧ Traps (.mts a r) s 0x02 (w.zeroExtend 64) s.me.pc)
  ∧ (s.Filled [a] → isSystem k = true → r.toNat = 0x102 → s.mySc.saved = true →
      Traps (.mts a r) s 0x23 (BitVec.ofNat 64 k) s.me.pc)
  -- MTS: the registers
  ∧ (s.Filled [a] → may → (r.toNat = 0x102 → s.mySc.saved = false) →
      let v := s.g a
      let p := v.toNat % 256
      let cmd := v.toNat / 4096 % 16
      ∃ t, exec (.mts a r) s = .next t ∧ t.me.pc = s.me.pc + 4 ∧ t.mem = s.mem ∧ (∀ q, t.me.reg q = s.me.reg q)
      ∧ (r.toNat = 0x100 → (t.sc n).ptb = v &&& 0xFFFF01FFFFFFF000 ∧ (t.sc n).ptbSet = true)
      ∧ (r.toNat = 0x101 → (t.sc n).tvec = v &&& 0xFFFFFFFFFFFFFFFC ∧ (t.sc n).tvecSet = true)
      ∧ (r.toNat = 0x102 →
          let area := v.toNat / 2 ^ 24 % 2 ^ 29 * 2 ^ 24
          let valid := v.toNat % 2 = 1 ∧ v.toNat / 2 ^ 53 = 0 ∧ v.toNat / 2 % 2 ^ 23 = 0 ∧ area / 2 ^ 41 = s.fab.fid.toNat % 4096
            ∧ area % 2 ^ 41 / 2 ^ 38 = n / 8 ∧ area % 2 ^ 38 + 2 ^ 24 ≤ offered s.topo (n / 8)
            ∧ ∀ q ∈ s.scs, q.1 ≠ n → q.2.ksp.toNat % 2 = 1 → q.2.ksp.toNat / 2 ^ 24 % 2 ^ 17 ≠ v.toNat / 2 ^ 24 % 2 ^ 17
          (valid → (t.sc n).ksp.toNat = area + 1) ∧ (¬valid → (t.sc n).ksp.toNat = area))
      ∧ (r.toNat = 0x104 → t.me.scr0 = v) ∧ (r.toNat = 0x105 → t.me.scr1 = v)
      ∧ (r.toNat = 0x111 → t.fab.fabctl = v &&& 0xFF000001)
      ∧ (r.toNat = 0x112 → t.me.portSel = p
          ∧ (Machine.portOk p = false ∨ cmd = 0 ∨ 3 < cmd → t.ports = s.ports)
          ∧ (Machine.portOk p = true → cmd = 1 → (s.port p ≠ .unlocked → t.ports = s.ports)
              ∧ (s.port p = .unlocked → p < 8 → t.port p = .locked)
              ∧ (s.port p = .unlocked → 8 ≤ p → t.port p = if s.freeVal = 1 then .locked else .error))
          ∧ (Machine.portOk p = true → cmd = 2 → t.port p = if s.port p = .locked then .run else s.port p)
          ∧ (Machine.portOk p = true → cmd = 3 → t.port p =
              if s.port p = .run ∧ (s.modMe (fun x => { x with portSel := p })).portBusy p = true then .run else .unlocked))
      ∧ (isSystem k = false → r.toNat = 0x13 → t.me.lodc = v &&& 0xFFFFFFFF)
      ∧ (isSystem k = true → s.me.owner ≠ 31 → s.me.owner ≠ k → let y := t.ctx n s.me.owner
          let x := s.ctx n s.me.owner
          (r.toNat = 0x13 → y = { x with lodc := v &&& 0xFFFFFFFF }) ∧ (r.toNat = 0x19 → y = { x with tcause := v &&& 0x1FF })
          ∧ (r.toNat = 0x1A → y = { x with tpc := v }) ∧ (r.toNat = 0x1B → y = { x with tval := v }))
      -- nothing changes but the pc
      ∧ (r.toNat ∈ [0, 1, 2, 3, 4, 5, 6, 7, 8, 0x10, 0x11, 0x12, 0x18, 0x110]
            ∨ (isSystem k = false ∧ r.toNat ∈ [0x19, 0x1A, 0x1B])
            ∨ (isSystem k = true ∧ s.me.owner = 31 ∧ r.toNat ∈ perContext) → t = s.fin))

/-- R207: CSAVE of a TRAPPED context other than the executing one to an aligned, writable area stores the dwords of its state at
their offsets, and no other byte of a cached page, and moves on; CLOAD loads g1-g31, TPC and LODC of the context from the area and
nothing else; a wrong context traps CTX_STATE and a misaligned area ALIGN; a fault on any part changes neither the context nor
memory.  Both wait until every register of the context that an uncached load or an SCAS owes has its value (the model's reading of R188, log
94).  That CTX_STATE is tested before ALIGN, and that each packet of an uncached area is answered before the next, is the
model's choice (DEDUCED, log 17). -/
def Obligations.ContextSaveAndLoad : Prop := ∀ (s : State) (a c : BitVec 5),
  let n := s.cur.sc
  let u := s.touchMe (s.g a).toNat
  let x := s.ctx n c.toNat
  let ws := s.saveWords n c.toNat
  let covers (p : Nat × Xlat) (b : Nat) : Prop := localOf p.2.pa ≤ b ∧ b < localOf p.2.pa + 8
  let free (xs : List (Nat × Xlat)) : Prop := s.acquiring = false ∧ xs.findSome? (fun p => u.needsTag p.2) = none
  let plain (xs : List (Nat × Xlat)) : Prop :=
    s.Safe ∧ n < 16 ∧ (∀ p ∈ xs, p.2.uc = false ∧ localOf p.2.pa % 64 + 8 ≤ 64) ∧ u.QuietAll (xs.map Prod.snd)
  isSystem s.cur.ctx = true → s.Filled [a] → c.toNat < 20 →
  -- the state that is saved
  ((∀ i, i < 32 → (8 * i, x.reg i) ∈ ws)
    ∧ (∀ p ∈ [(0x100, s.statusWord n c.toNat), (0x108, x.tcause), (0x110, x.tpc), (0x118, x.tval), (0x120, x.lodc),
        (0x128, (s.sc n).ksp), (0x130, x.fut), (0x138, x.tix), (0x140, x.tcnt), (0x148, x.rcb), (0x150, x.dln), (0x158, x.bud),
        (0x160, BitVec.ofNat 64 c.toNat)], p ∈ ws)
    ∧ (∀ i, i < 16 → (0x180 + 8 * i, match tget x.h i with | some h => BitVec.ofNat 64 (2 ^ 63 + h) | none => 0) ∈ ws)
    ∧ (∀ i, i < 64 → (0x200 + 8 * i, (0 : Word)) ∈ ws) ∧ ws.length = 125)
  ∧ (∀ j ∈ [Instr.csave a c, .cload a c],
    (s.isTrapped c.toNat = false ∨ c.toNat = s.cur.ctx → Traps j s 0x23 (BitVec.ofNat 64 c.toNat) s.me.pc)
    ∧ (s.isTrapped c.toNat = true → c.toNat ≠ s.cur.ctx → (s.g a).toNat % 1024 ≠ 0 → Traps j s 0x03 (s.g a) s.me.pc))
  -- a register of the context that waits for its value is waited for
  ∧ (s.isTrapped c.toNat = true → c.toNat ≠ s.cur.ctx → (s.g a).toNat % 1024 = 0 → x.unfilled ≠ [] →
      ∀ j ∈ [Instr.csave a c, .cload a c], Blocks j s (.filledOf c.toNat))
  ∧ (s.isTrapped c.toNat = true → c.toNat ≠ s.cur.ctx → (s.g a).toNat % 1024 = 0 → x.unfilled = [] →
      -- CSAVE
      (∀ xs, u.checkArea true (s.g a).toNat (ws.map Prod.fst) = .ok xs → free xs →
        let t : State := ((List.zip xs ws).foldl (fun t p => t.areaStore p.1.2 p.2.2) u.leaveTagQ).fin
        exec (.csave a c) s = .next t
        ∧ ((∀ p ∈ xs, inRegs (localOf p.2.pa) = false) →
            t.me = { s.me with pc := s.me.pc + 4, wait := none } ∧ t.ctx n c.toNat = x)
        ∧ ((∀ p ∈ xs, inRegs (localOf p.2.pa) = false) → plain xs →
            (∀ b, (∀ p ∈ xs, ¬covers p b) → t.byte b = s.byte b)
            -- each dword stands where no later one covers it
            ∧ ∀ (i j : Nat) p w, xs[i]? = some p → ws[i]? = some w → j < 8 →
                (∀ (m : Nat) q, i < m → xs[m]? = some q → ¬covers q (localOf p.2.pa + j)) →
                t.byte (localOf p.2.pa + j) = BitVec.ofNat 8 (w.2.toNat / 256 ^ j)))
      ∧ (∀ e, u.checkArea true (s.g a).toNat (ws.map Prod.fst) = .error e →
          Traps (.csave a c) s e.1 (BitVec.ofNat 64 e.2) s.me.pc
          ∧ ∃ t, exec (.csave a c) s = .next t ∧ t.ctx n c.toNat = x ∧ t.mem = s.mem)
      -- CLOAD
      ∧ (∀ xs, u.checkArea false (s.g a).toNat loadOffsets = .ok xs → free xs →
        let l := u.leaveTagQ.areaLoads xs
        ∃ t, exec (.cload a c) s = .next t ∧ t.me = { s.me with pc := s.me.pc + 4, wait := none }
          ∧ (∀ r w, (8 * r, w) ∈ l.1 → 1 ≤ r → r < 32 → (t.ctx n c.toNat).reg r = w)
          ∧ (∀ w, (0x110, w) ∈ l.1 → (t.ctx n c.toNat).tpc = w)
          ∧ (∀ w, (0x120, w) ∈ l.1 → (t.ctx n c.toNat).lodc = w &&& 0xFFFFFFFF)
          ∧ (∃ g, t.ctx n c.toNat = { x with g := g, tpc := (t.ctx n c.toNat).tpc, lodc := (t.ctx n c.toNat).lodc })
          ∧ ((∀ p ∈ xs, inRegs (localOf p.2.pa) = false) → plain xs →
              SameBytes s t ∧ l.1 = xs.map (fun p => (p.1, BitVec.ofNat 64 (bytesNat (s.bytes (localOf p.2.pa) 8))))))
      ∧ (∀ e, u.checkArea false (s.g a).toNat loadOffsets = .error e →
          Traps (.cload a c) s e.1 (BitVec.ofNat 64 e.2) s.me.pc
          ∧ ∃ t, exec (.cload a c) s = .next t ∧ t.ctx n c.toNat = x ∧ t.mem = s.mem))

/-- R190: each context has its own general registers g0-g31 of 64 bits.  g0 reads zero and a write to it is discarded; a write of
a register changes that one alone, in that context alone; JAL writes its link to g31; a task or message context starts with
every general register zero but those that carry its argument and, of a handler, its sender. -/
def Obligations.GeneralRegisters : Prop :=
  (∀ (x : Ctx) (r q : Nat) (v : Word),
    x.reg 0 = 0 ∧ (x.setReg 0 v) = x ∧ (x.setReg r v).reg q = (if q = r ∧ r ≠ 0 then v else x.reg q))
  ∧ (∀ (s : State) (n c m d r : Nat) (v : Word), ¬(m = n ∧ d = c) → (s.setCtx n c ((s.ctx n c).setReg r v)).ctx m d = s.ctx m d)
  ∧ (∀ (s : State) (j : BitVec 24), s.Filled [31] → ∃ t, exec (.jal j) s = .next t ∧ t.me.reg 31 = s.me.pc + 4)
  ∧ (∀ (s : State) (n c k : Nat) (y : Cand), s.pick s.cands = some y → y.fut = some k → s.placeOf y = some n →
      s.freeTask n = some c → tget s.sleepers k = none → (s.fut k).args = [] →
      ∃ t, exec .taskDispatch s = .next t ∧ ∀ r, (t.ctx n c).reg r = if r = 1 then (s.fut k).arg else 0)
  ∧ (∀ (s : State) (n k : Nat) (a : Arrival) (rest : List Arrival), (s.sc n).arrivals = a :: rest → (s.ctx n k).st = .free →
      (k = 16 ∨ (k = 17 ∧ (s.ctx n 16).st ≠ .free)) →
      ∃ t, exec (.messageContextStart n) s = .next t
        ∧ ∀ r, (t.ctx n k).reg r = if r = 1 then a.arg else if r = 2 then BitVec.ofNat 64 a.src else 0)

/-! ## Stream instructions -/

/-- R213, R216, R217: the memory streams, SFREE, SRESET and SFILL complete by taking a scoreboard entry: their handles are bound,
their record is valid, their argument checks hold, and R187's window checks, R279 and R169 let the entry in.  The entry does
the work the instruction names, on the stream ends it names, with the record's completion flag.  Which of several failing checks
is reported first, and that the exponent ranges of a BX record are always among them, is the model's reading of R187 (log 24). -/
def Obligations.MemoryStreamsEnter : Prop := ∀ (s : State) (a b : BitVec 5) (h k : BitVec 4) (d x : Nat) (r : Rec),
  s.Settled → s.Filled [a, b] → tget s.me.h h.toNat = some d →
  let flag := if r.flags % 2 = 1 then some r.flag else none
  let n := (s.g b).toNat
  -- SLOAD and SSTORE, without and with the exponent stream
  (s.myRecord a = .ok r → s.MayIssue { wins := [(r, false)], ends := [producer d], flag := flag } →
    Enters (.sload a h 0 0) s (.load r d none) [producer d] flag)
  ∧ (s.myRecord a = .ok r → tget s.me.h k.toNat = some x → (r.fmt = 3 ∨ r.fmt = 4) → h ≠ k →
    s.MayIssue { wins := [(r, false)], ends := [producer d, producer x], flag := flag } →
    Enters (.sload a h k 1) s (.load r d (some x)) [producer d, producer x] flag)
  ∧ (s.myRecord a = .ok r → s.MayIssue { wins := [(r, true)], ends := [consumer d], flag := flag } →
    Enters (.sstore a h 0 0) s (.store r d none) [consumer d] flag)
  ∧ (s.myRecord a = .ok r → tget s.me.h k.toNat = some x → (r.fmt = 3 ∨ r.fmt = 4) → h ≠ k →
    s.MayIssue { wins := [(r, true)], ends := [consumer d, consumer x], flag := flag } →
    Enters (.sstore a h k 1) s (.store r d (some x)) [consumer d, consumer x] flag)
  -- SGATHER and SSCATTER
  ∧ (s.myRecord a = .ok r → tget s.me.h k.toNat = some x → n ≤ 2 ^ 24 → r.fmt ≠ 3 → r.fmt ≠ 4 →
    (s.MayIssue { wins := [(r, false)], ends := [consumer x, producer d], flag := flag } →
      Enters (.sgather a h k b) s (.gather r d x n) [consumer x, producer d] flag)
    ∧ (s.MayIssue { wins := [(r, true)], ends := [consumer d, consumer x], flag := flag } →
      Enters (.sscatter a h k b) s (.scatter r d x n) [consumer d, consumer x] flag))
  -- SFREE (which also unbinds its handle), SRESET and SFILL
  ∧ (s.mySc.room s.myOwner = true →
    Enters (.sfree h) s (.sfree d) [producer d, consumer d] none
    ∧ (∃ t, exec (.sfree h) s = .next t ∧ tget t.me.h h.toNat = none)
    ∧ Enters (.sreset h) s (.sreset d) [producer d, consumer d] none
    ∧ ∀ p : BitVec 1, 1 ≤ n → n ≤ (s.stream s.cur.sc d).cap →
        Enters (.sfill a h b p) s (.fill d ((s.g a).setWidth 32) (p == 1) n) [producer d] none)

/-- R178, R213-R215: the stream instructions that complete in the context.  SALLOC, its arguments good, its charge covered and a
stripe of live cores with room, makes an empty stream there and binds its handle; SPTR, SRD, SINFO and SCOUNT write a
register; SWR writes one word; SMOVH moves a handle. -/
def Obligations.StreamsInContext : Prop := ∀ (s : State) (a b : BitVec 5) (h k : BitVec 4) (g : BitVec 2) (w : BitVec 1) (d off : Nat),
  s.Filled [a, b] →
  let n := s.cur.sc
  let i := (s.g b).toNat
  let gg := if g = 0 then 4 else if g = 1 then 8 else 16
  let st := s.stream n d
  (g ≠ 3 → (s.g a).toNat < 16 → (s.g a).toNat % gg = 0 → 1 ≤ i → i ≤ 512 → h ≠ 0 → tget s.me.h h.toNat = none →
    s.canCharge (gg * i) = true → s.freeDesc = some d → s.mySc.freeUnits (s.g a).toNat gg i = some off →
    s.coresLive n (s.g a).toNat gg = true →
    ∃ t, exec (.salloc a h b g) s = .next t ∧ tget s.mySc.streams d = none ∧ tget t.me.h h.toNat = some d ∧ t.me.pc = s.me.pc + 4 ∧ t.mem = s.mem
      ∧ t.stream n d = { first := (s.g a).toNat, g := gg, units := i, off := off, owner := s.myOwner, region := s.myRcb })
  ∧ (tget s.me.h h.toNat = some d →
    Writes (.sptr a h w) s a (BitVec.ofNat 64 (if w = 1 then st.wp else st.rp))
    ∧ (i < st.rowLen * st.cap →
      Writes (.srd a h b) s a (BitVec.ofNat 64 ((st.row (st.rp + i / st.rowLen)).getD (i % st.rowLen) 0).toNat)
      ∧ ∃ t, exec (.swr a h b) s = .next t ∧ t.me = { s.me with pc := s.me.pc + 4, wait := none } ∧ t.mem = s.mem
          ∧ t.stream n d = st.putRow (st.wp + i / st.rowLen)
              ((st.row (st.wp + i / st.rowLen)).set (i % st.rowLen) ((s.g a).setWidth 32)))
    ∧ Writes (.sinfo a h) s a (s.infoWord d)
    ∧ (s.lengthOpen d = [] → Writes (.scount a h) s a (BitVec.ofNat 64 (st.len % 2 ^ 32)))
    ∧ (s.lengthOpen d ≠ [] → Blocks (.scount a h) s (.retired (s.lengthOpen d))))
  ∧ (tget s.me.h k.toNat = some d → h ≠ 0 → h ≠ k → tget s.me.h h.toNat = none →
    ∃ t, exec (.smovh h k) s = .next t ∧ tget t.me.h h.toNat = some d ∧ tget t.me.h k.toNat = none ∧ t.me.pc = s.me.pc + 4
      ∧ t.mem = s.mem ∧ ∀ r, t.me.reg r = s.me.reg r)
  ∧ (tget s.me.h h.toNat = none → Writes (.sinfo a h) s a 0)

/-- R172, R186, R223: SWAIT and SWAITA move on when no earlier entry they name is left and block on those that are; STEST writes
whether one is left (SWAITA waits for every own entry, also one of no class: the model's reading, log 84); SBAR keeps an order while an earlier entry of its classes stands; RFENCE drops every cached record. -/
def Obligations.StreamWaitsAndBarriers : Prop := ∀ (s : State) (a : BitVec 5) (h : BitVec 4) (q c : BitVec 1) (m : BitVec 3)
    (d : Option Nat), (q = 0 → d = none ∧ h = 0) → (q = 1 → d.isSome = true ∧ tget s.me.h h.toNat = d) →
  let ids := s.waitedFor d (c == 1) m.toNat
  let all := s.ownIds s.cur.sc s.myOwner
  (ids = [] → GoesTo (.swait h q c m) s (s.me.pc + 4))
  ∧ (ids ≠ [] → Blocks (.swait h q c m) s (if c = 1 then .complete ids else .retired ids))
  ∧ (all = [] → GoesTo .swaita s (s.me.pc + 4)) ∧ (all ≠ [] → Blocks .swaita s (.complete all))
  ∧ (s.Filled [a] → Writes (.stest a h q c m) s a (if ids = [] then 1 else 0))
  ∧ (s.waitedFor none false m.toNat = [] → GoesTo (.sbar m) s (s.me.pc + 4))
  ∧ (s.waitedFor none false m.toNat ≠ [] → ∃ t, exec (.sbar m) s = .next t ∧ OnlyMe s t
      ∧ t.me = { s.me with sbars := s.me.sbars ++ [(m.toNat, s.mySc.nextEntry)], pc := s.me.pc + 4, wait := none })
  ∧ (∃ t, exec .rfence s = .next t ∧ t.mySc.recs = [] ∧ t.me = { s.me with pc := s.me.pc + 4, wait := none }
      ∧ t.mem = s.mem ∧ t.mySc.entries = s.mySc.entries)

/-- R177, R218, R219: KLOAD of an aligned, readable, valid image for which the kernel store has room stores it at the lowest free
bundles under the next generation and gives its handle, once no LD.acq of the context is outstanding; a handle names a loaded image or traps KERNEL_HANDLE; KINFO gives
header bytes 8-14; KFREE frees an image, at once when no run of it is unretired. -/
def Obligations.KernelStore : Prop := ∀ (s : State) (a b : BitVec 5) (k : Nat), s.Filled [a, b] →
  let va := (s.g b).toNat
  let h := s.piece va
  let bs := bundlesOf (hdrCount h) ((List.range (hdrCount h)).flatMap (fun i => s.piece (va + 64 + 64 * i)))
  (s.acquiring = false → va % 64 = 0 → s.pieceFault va 1 = none → headerOk h = true → s.pieceFault (va + 64) (hdrCount h) = none →
    imageFault h bs = none → s.mySc.freeBundles (hdrCount h) = some k →
    ∃ t, exec (.kload a b) s = .next t ∧ s.me.Wrote t.me a.toNat (BitVec.ofNat 64 (s.mySc.kgen * 4096 + k)) ∧ (s.PortQuiet → t.mem = s.mem)
      ∧ tget t.mySc.images k = some { count := hdrCount h, gen := s.mySc.kgen, header := h, bundles := bs }
      ∧ t.mySc.kgen = (s.mySc.kgen + 1) % 65536)
  ∧ (s.acquiring = false → va % 64 ≠ 0 → Traps (.kload a b) s 0x03 (s.g b) s.me.pc)
  ∧ (s.acquiring = true → Blocks (.kload a b) s (.settled []))
  ∧ (∀ i, s.mySc.image (s.g b).toNat = some i → Writes (.kinfo a b) s a (BitVec.ofNat 64 (fieldAt i.header 8 7)))
  ∧ (s.mySc.image (s.g b).toNat = none → Traps (.kinfo a b) s 0x14 (s.g b) s.me.pc)
  ∧ (∀ i, s.mySc.image (s.g a).toNat = some i → ∃ t, exec (.kfree a) s = .next t
      ∧ t.me = { s.me with pc := s.me.pc + 4, wait := none } ∧ t.mem = s.mem ∧ t.mySc.image (s.g a).toNat = none
      ∧ (s.mySc.kernelBusy ((s.g a).toNat % 4096) i.gen = false → tget t.mySc.images ((s.g a).toNat % 4096) = none))
  ∧ (s.mySc.image (s.g a).toNat = none → Traps (.kfree a) s 0x14 (s.g a) s.me.pc)

/-- R25, R176, R220, R221: KRUN of a loaded kernel with good bindings that no port refuses takes an entry and makes a WAITING run
of the kernel, with its tag, arguments and ports, and traps ILLEGAL where a register of its group would pass g31 (R210); KRQ gives the oldest entry of a core's return queue and removes it, waits
while the queue is empty, and traps STREAM_ARG for a core or a run that is not there. -/
def Obligations.KernelRunsAndReturnQueues : Prop := ∀ (s : State) (a b t : BitVec 5) (d : BitVec 1) (i : Image),
  (s.Filled [a, b] → (∃ r ∈ s.krunRegs a b, 31 < r) →
    ∃ w, encode (.krun a b t d) = some w ∧ Traps (.krun a b t d) s 0x01 (w.zeroExtend 64) s.me.pc)
  ∧ (s.Filled (a :: b :: (s.krunRegs a b).map (BitVec.ofNat 5)) →
  (s.mySc.image (s.g a).toNat = some i → (∀ r ∈ s.krunRegs a b, r ≤ 31) → bindingsOk i.header (s.g b) = true →
    s.krunRefused i.header (s.g b) = none → s.Settled → s.mySc.room s.myOwner = true →
    ∃ u e, exec (.krun a b t d) s = .next u ∧ u.mySc.entries = s.mySc.entries ++ [e] ∧ e.work = .run ∧ e.st = .waiting
      ∧ e.owner = s.myOwner ∧ u.me.pc = s.me.pc + 4 ∧ (∀ r, u.me.reg r = s.me.reg r) ∧ u.mem = s.mem
      ∧ (u.run s.cur.sc s.mySc.nextEntry).phase = .waiting ∧ (u.run s.cur.sc s.mySc.nextEntry).tag = t.toNat
      ∧ (u.run s.cur.sc s.mySc.nextEntry).owner = s.myOwner ∧ (u.run s.cur.sc s.mySc.nextEntry).g = hdrGroup i.header
      ∧ (u.run s.cur.sc s.mySc.nextEntry).args = s.krunArgs b i.header
      ∧ (u.run s.cur.sc s.mySc.nextEntry).ports = s.krunPorts i.header (s.g b))
  ∧ (s.mySc.image (s.g a).toNat = none → (∀ r ∈ s.krunRegs a b, r ≤ 31) → Traps (.krun a b t d) s 0x14 (s.g a) s.me.pc)
  ∧ (∀ v, s.mySc.image (s.g a).toNat = some i → (∀ r ∈ s.krunRegs a b, r ≤ 31) → bindingsOk i.header (s.g b) = true →
      s.krunRefused i.header (s.g b) = some v → Traps (.krun a b t d) s 0x11 (BitVec.ofNat 64 v) s.me.pc)
  ∧ (∀ k r, s.krqRun t.toNat (s.g b).toNat = some (k, r) → (s.g b).toNat < r.g → (s.g b).toNat < 16 →
      (∀ x q, tgetD r.rq (s.g b).toNat [] = x :: q → ∃ u, exec (.krq a b t) s = .next u
        ∧ s.me.Wrote u.me a.toNat (BitVec.ofNat 64 x.toNat) ∧ u.mem = s.mem
        ∧ tgetD (u.run s.cur.sc k).rq (s.g b).toNat [] = q)
      ∧ (tgetD r.rq (s.g b).toNat [] = [] → Blocks (.krq a b t) s (.krq k (s.g b).toNat)))
  ∧ (16 ≤ (s.g b).toNat ∨ s.krqRun t.toNat (s.g b).toNat = none →
      ∃ w, encode (.krq a b t) = some w ∧ Traps (.krq a b t) s 0x15 (w.zeroExtend 64) s.me.pc))

/-- R224-R229: the copy engine's instructions complete by taking an entry: copies between streams and windows, accumulation,
compare-and-swap in both forms (the register form leaves ga unfilled), scattered accumulation, quantisation both ways and
decompression.  How the checks are ordered is the model's reading (log 24). -/
def Obligations.CopiesEnter : Prop := ∀ (s : State) (a b : BitVec 5) (h k : BitVec 4) (o : BitVec 3) (t : BitVec 2) (m : BitVec 1)
    (d x : Nat) (q r : Rec),
  s.Settled → s.Filled [a, b, regAfter a 1] →
  let qflag := if q.flags % 2 = 1 then some q.flag else none
  let flag := if r.flags % 2 = 1 then some r.flag else none
  let n := (s.g a).toNat
  let bx (y : Rec) : Prop := y.fmt = 3 ∨ y.fmt = 4
  (tget s.me.h h.toNat = some d → tget s.me.h k.toNat = some x →
    (1 ≤ n → n ≤ 2 ^ 24 → h ≠ k → s.mySc.room s.myOwner = true →
      Enters (.scopy a h k 0 1 1) s (.copy (.str d) (.str x) (4 * n)) [consumer d, producer x] none)
    ∧ (s.myRecord b = .ok r → s.MayIssue { wins := [(r, true)], ends := [consumer d], flag := flag } →
      Enters (.scopy 0 h 0 b 0 1) s (.copy (.str d) (.win r) r.size) [consumer d] flag)
    ∧ (s.myRecord a = .ok q → s.MayIssue { wins := [(q, false)], ends := [producer x], flag := qflag } →
      Enters (.scopy a 0 k 0 1 0) s (.copy (.win q) (.str x) q.size) [producer x] qflag)
    ∧ (s.myRecord b = .ok r → accFmtOk r.fmt = true → o ≠ 7 → s.MayIssue { wins := [(r, true)], ends := [consumer d], flag := flag } →
      Enters (.sacc 0 h b o 1) s (.acc (.str d) r o.toNat) [consumer d] flag)
    ∧ (s.myRecord b = .ok r → accFmtOk r.fmt = true → o ≠ 7 →
      s.MayIssue { wins := [(r, true)], ends := [consumer d, producer x], flag := flag } →
      Enters (.scas 0 h k b o 0 1) s (.casStream d r x o.toNat) [consumer d, producer x] flag)
    ∧ (s.myRecord a = .ok q → (s.g b).toNat ≤ 2 ^ 24 → accFmtOk q.fmt = true → o ≠ 7 →
      s.MayIssue { wins := [(q, true)], ends := [consumer d, consumer x], flag := qflag } →
      Enters (.sscadd a h k b o) s (.scadd q d x (s.g b).toNat o.toNat) [consumer d, consumer x] qflag)
    ∧ (1 ≤ (s.g (regAfter a 1)).toNat → (s.g (regAfter a 1)).toNat ≤ 2 ^ 20 →
      s.MayIssue (decompIssue d n (s.g (regAfter a 1)).toNat (s.g b).toNat) →
      Enters (.sdecomp a h b m) s (.decomp n (s.g (regAfter a 1)).toNat d (s.g b).toNat (m == 1)) [producer d] none))
  ∧ (s.myRecord a = .ok q → s.myRecord b = .ok r →
    (q.fmt = r.fmt → q.total = r.total → s.MayIssue { wins := [(q, false), (r, true)], flag := flag } →
      Enters (.scopy a 0 0 b 0 0) s (.copy (.win q) (.win r) r.size) [] flag)
    ∧ (q.fmt = r.fmt → q.total = r.total → accFmtOk r.fmt = true → o ≠ 7 →
      s.MayIssue { wins := [(q, false), (r, true)], flag := flag } → Enters (.sacc a 0 b o 0) s (.acc (.win q) r o.toNat) [] flag)
    ∧ (q.fmt = 1 → bx r → sameShape q r = true →
      s.MayIssue { wins := [(q, false), (r, true)], flag := flag } → Enters (.squant a b) s (.quant q r) [] flag)
    ∧ (bx q → r.fmt = 1 → sameShape q r = true →
      s.MayIssue { wins := [(q, false), (r, true)], flag := flag } → Enters (.sdqnt a b) s (.dequant q r) [] flag))
  -- the register form: an aligned, writable word; ga waits for the old value
  ∧ (∀ y, s.check true (s.g b) (accBytes (tcFmt t)) = .ok y →
    s.MayIssue { ranges := [((s.g b).toNat, accBytes (tcFmt t), true)] } →
    Enters (.scas a 0 0 b o t 0) s (.casReg a.toNat (s.g b).toNat t.toNat o.toNat (s.g a) (s.g (regAfter a 1))) [] none
    ∧ ∃ u, exec (.scas a 0 0 b o t 0) s = .next u ∧ u.me.unfilled = s.me.unfilled ++ [a.toNat])

/-- R230: storage reads complete by taking an entry when the port is in RUN, the namespace is enabled for the region, the block
count is 1 to 65,536, the status area is aligned, and (SREAD) the window's size is that of the blocks; otherwise STREAM_ARG.  That the bits above the port must
be zero, and the status area's alignment, are the model's reading (log 25). -/
def Obligations.StorageReadsEnter : Prop := ∀ (s : State) (a b : BitVec 5) (h : BitVec 4) (d : Nat) (r : Rec),
  s.Settled → s.Filled (b :: groupRegs a 4) →
  let x := (s.g a).toNat
  let ns := x % 2 ^ 32
  let port := x / 2 ^ 32 % 4
  let count := (s.g (regAfter a 2)).toNat
  let status := (s.g (regAfter a 3)).toNat
  let lb := Config.lbaBytesPred port ns + 1
  let area : List (Nat × Nat × Bool) := if status = 0 then [] else [(status, 16, true)]
  let good := x / 2 ^ 34 = 0 ∧ s.port (2 + port) = .run ∧ Config.nvmeEnabled port ns s.myRcb = true ∧ 1 ≤ count ∧ count ≤ 65536
    ∧ status % 16 = 0
  let flag := if r.flags % 2 = 1 then some r.flag else none
  (s.myRecord b = .ok r → good → r.size = count * lb → s.MayIssue { wins := [(r, true)], extra := area, flag := flag } →
    Enters (.sread a b) s (.nvme port ns (s.g (regAfter a 1)).toNat count status lb (.win r)) [] flag)
  ∧ (tget s.me.h h.toNat = some d → good → s.MayIssue { ends := [producer d], extra := area } →
    Enters (.sreads a h) s (.nvme port ns (s.g (regAfter a 1)).toNat count status lb (.str d)) [producer d] none)
  ∧ (tget s.me.h h.toNat = some d → ¬good →
    ∃ w, encode (.sreads a h) = some w ∧ Traps (.sreads a h) s 0x15 (w.zeroExtend 64) s.me.pc)

/-- R231, R232: remote puts, gets, accumulations and signals complete by taking an entry, from a record's window or a stream, once
their remote addresses are canonical, aligned and in no dead package.  The model's readings: the same checks cover the flag
address (log 85), every form of a group reads its whole group (log 21), the checks come in the order of log 24, and bytes past the last
whole element of an accumulation from a stream are dropped (log 86). -/
def Obligations.RemoteOperationsEnter : Prop := ∀ (s : State) (a b : BitVec 5) (h : BitVec 4) (o : BitVec 1) (c : BitVec 4)
    (op : BitVec 3) (y : BitVec 2) (d : Nat) (r : Rec),
  s.Settled → s.Filled (a :: groupRegs b 5) →
  let A := (s.g b).toNat
  let F := (s.g (regAfter b 1)).toNat
  let W := (s.g (regAfter b 2)).toNat
  let fine (x n : Nat) : Prop := x < 2 ^ 53 ∧ s.isDead (pkgOf x) = false ∧ x % n = 0
  let flag := if r.flags % 2 = 1 then some r.flag else none
  let hd : Handler := { sc := c.toNat, pc := (s.g (regAfter b 3)).toNat, arg := (s.g (regAfter b 4)).toNat }
  (fine A 4 → (F = 0 ∨ fine F 8) →
    (s.myRecord a = .ok r → s.MayIssue { wins := [(r, false)], flag := flag } →
      Enters (.rput a 0 b o 0) s (.rput (.win r) r.size { addr := A, flag := F, ord := o == 1 }) [] flag
      ∧ Enters (.rputh a 0 b o c 0) s (.rput (.win r) r.size { addr := A, flag := F, ord := o == 1, handler := some hd }) [] flag)
    ∧ (s.myRecord a = .ok r → s.MayIssue { wins := [(r, true)], flag := flag } →
      Enters (.rget a 0 b 0) s (.rget (.win r) r.size { addr := A, flag := F }) [] flag)
    ∧ (tget s.me.h h.toNat = some d → 1 ≤ W → W ≤ 2 ^ 24 → s.mySc.room s.myOwner = true →
      Enters (.rput 0 h b o 1) s (.rput (.str d) (4 * W) { addr := A, flag := F, ord := o == 1 }) [consumer d] none
      ∧ Enters (.rputh 0 h b o c 1) s (.rput (.str d) (4 * W) { addr := A, flag := F, ord := o == 1, handler := some hd }) [consumer d] none
      ∧ Enters (.rget 0 h b 1) s (.rget (.str d) (4 * W) { addr := A, flag := F }) [producer d] none))
  ∧ (s.myRecord a = .ok r → accFmtOk r.fmt = true → op ≠ 7 → fine A (accBytes r.fmt) → (F = 0 ∨ fine F 8) →
    s.MayIssue { wins := [(r, false)], flag := flag } →
    Enters (.racc a 0 b op 0 0) s (.racc (.win r) r.size { addr := A, flag := F, op := op.toNat, ty := r.fmt }) [] flag)
  ∧ (tget s.me.h h.toNat = some d → 1 ≤ W → W ≤ 2 ^ 24 → accFmtOk (tcFmt y) = true → op ≠ 7 → fine A (accBytes (tcFmt y)) →
    (F = 0 ∨ fine F 8) → s.mySc.room s.myOwner = true →
    Enters (.racc 0 h b op y 1) s (.racc (.str d) (4 * W) { addr := A, flag := F, op := op.toNat, ty := tcFmt y }) [consumer d] none)
  ∧ (fine A 8 → s.mySc.room s.myOwner = true →
    Enters (.rsig a b 0 0) s (.rsig { addr := A, flag := A, ord := true, value := (s.g a).toNat }) [] none
    ∧ Enters (.rsig a b c 1) s
        (.rsig { addr := A, flag := A, ord := true, value := (s.g a).toNat, handler := some { sc := c.toNat, pc := F, arg := W } })
        [] none)
  ∧ ((s.g b).toNat / 2 ^ 53 ≠ 0 ∨ s.isDead (pkgOf A) = true → Traps (.rsig a b 0 0) s 0x1A (s.g b) s.me.pc)

/-! ## Tasks, futures, barriers, flags, graphs -/

/-- R237, R238, R241, R330: FSPAWN and FSPAWNH, the entry address aligned and an entry FREE, make a READY future with COUNT 1, HELD
by the spawner and on the list of what the spawner holds, with the entry address, argument, the spawner's region and the hint, give
its handle in gd, and make one slice ready; a misaligned entry traps ALIGN and full tables TABLE_FULL. -/
def Obligations.Spawning : Prop := ∀ (s : State) (d a b : BitVec 5) (h : BitVec 4) (k : Nat), s.Filled [d, a, b] →
  let spawns (i : Instr) (hint : Option Nat) : Prop :=
    ∃ t, exec i s = .next t ∧ s.me.Wrote { t.me with kids := s.me.kids } d.toNat (BitVec.ofNat 64 (futHandle k (s.fut k).gen))
      ∧ (t.fut k).st = .ready ∧ (t.fut k).count = 1 ∧ (t.fut k).held = true ∧ (t.fut k).entry = s.g a ∧ (t.fut k).arg = s.g b
      ∧ (t.fut k).rcb = s.myRcb ∧ (t.fut k).parent = s.meHolder
      ∧ (s.cur.ctx < 16 → futHandle k (s.fut k).gen ∈ (t.fut (futKey s.me.fut.toNat)).kids)
      ∧ (16 ≤ s.cur.ctx → t.me.kids = futHandle k (s.fut k).gen :: s.me.kids)
      ∧ (t.fut k).hint = hint ∧ (s.fut k).st = .free ∧ (t.fut k).gen = (s.fut k).gen ∧ t.slices.length = s.slices.length + 1 ∧ t.mem = s.mem
  ((s.g a).toNat % 4 = 0 → s.allocFut (s.cur.sc / 8) = some k → s.Settled →
    spawns (.fspawn d a b) none ∧ spawns (.fspawnh d a b h) (some h.toNat))
  ∧ ((s.g a).toNat % 4 ≠ 0 → Traps (.fspawn d a b) s 0x03 (s.g a) s.me.pc ∧ Traps (.fspawnh d a b h) s 0x03 (s.g a) s.me.pc)
  ∧ ((s.g a).toNat % 4 = 0 → s.allocFut (s.cur.sc / 8) = none →
      Traps (.fspawn d a b) s 0x25 0 s.me.pc ∧ Traps (.fspawnh d a b h) s 0x25 0 s.me.pc)

/-- R236-R238, R243-R245, R247: on a live future FREF raises COUNT (and traps FUTURE_COUNT at 65,535), and FDROP lowers it, the
spawn reference first where the context holds it: HELD is then clear and the spawner's list is without the child.  COUNT reaching 0 frees a
terminal entry, and a READY one with its slices, under its next generation, and makes a RUNNING one RECLAIMED.  FGET and FGETD give the
RESULT of a terminal future, FGETD then dropping it in the same way, and wait for any other; a task's own FUT traps CTX_STATE; FPOLL
gives its word; any other handle traps FUTURE_STALE. -/
def Obligations.FutureReferences : Prop := ∀ (s : State) (d a : BitVec 5), s.Filled [a, d] →
  let h := (s.g a).toNat
  let k := futKey h
  let f := s.fut k
  let live := s.futLive h = true ∧ s.futLost h = false
  let mine := f.held = true ∧ f.parent = s.meHolder
  let own := s.cur.ctx < 16 ∧ s.g a = s.me.fut
  let moved (j : Instr) (rg : Nat → Word) (P : State → Prop) : Prop :=
    ∃ t, exec j s = .next t ∧ t.me.pc = s.me.pc + 4 ∧ t.me.st = s.me.st ∧ (∀ r, t.me.reg r = rg r) ∧ t.mem = s.mem ∧ P t
  let gone (t : State) : Prop := (t.fut k).st = .free ∧ (t.fut k).gen = (f.gen + 1) % 16384
    ∧ (f.graph = true → ∀ p ∈ t.graphs, p.2.fut ≠ k)
  let drops (j : Instr) (rg : Nat → Word) : Prop :=
    (mine → 1 < f.count → moved j rg (fun t => (t.fut k).held = false ∧ (t.fut k).parent = .nobody
        ∧ (t.fut k).count = f.count - 1 ∧ (t.fut k).st = f.st ∧ (t.fut k).gen = f.gen
        ∧ (s.cur.ctx < 16 → s.futLive s.me.fut.toNat = true →
            futHandle k f.gen ∉ (t.fut (futKey s.me.fut.toNat)).kids)
        ∧ (16 ≤ s.cur.ctx → futHandle k f.gen ∉ t.me.kids)))
    ∧ (¬mine → 1 < f.count → moved j rg (fun t => t.futs = tput s.futs k { f with count := f.count - 1 }))
    ∧ (f.count = 1 → (f.st = .done ∨ f.st = .faulted) → moved j rg gone)
    ∧ (f.count = 1 → f.st = .ready → moved j rg (fun t => gone t ∧ t.slices = s.slices.filter (fun z => z.fut != k)))
    ∧ (f.count = 1 → f.st = .running → moved j rg (fun t => (t.fut k).st = .reclaimed ∧ (t.fut k).count = 0 ∧ (t.fut k).gen = f.gen))
  (live → f.count ≠ 65535 → ∃ t, exec (.fref a) s = .next t ∧ t.me = { s.me with pc := s.me.pc + 4, wait := none }
      ∧ t.futs = tput s.futs k { f with count := f.count + 1 } ∧ t.mem = s.mem)
  ∧ (live → f.count = 65535 → Traps (.fref a) s 0x24 (s.g a) s.me.pc)
  ∧ (live → drops (.fdrop a) s.me.reg)
  ∧ (live → ¬own → (f.st = .done ∨ f.st = .faulted) →
      Writes (.fget d a) s d f.result ∧ drops (.fgetd d a) (fun r => if r = d.toNat ∧ r ≠ 0 then f.result else s.me.reg r))
  ∧ (live → ¬own → f.st ≠ .done → f.st ≠ .faulted →
      Blocks (.fget d a) s (.future h) ∧ Blocks (.fgetd d a) s (.future h))
  ∧ (live → own → Traps (.fget d a) s 0x23 (BitVec.ofNat 64 s.cur.ctx) s.me.pc
      ∧ Traps (.fgetd d a) s 0x23 (BitVec.ofNat 64 s.cur.ctx) s.me.pc)
  ∧ (live → f.st ≠ .reclaimed → Writes (.fpoll d a) s d (s.pollWord k))
  ∧ (s.futLive h = false → ¬(h < 2 ^ 32 ∧ s.futLost h = true) →
      Traps (.fref a) s 0x20 (s.g a) s.me.pc ∧ Traps (.fdrop a) s 0x20 (s.g a) s.me.pc ∧ Traps (.fget d a) s 0x20 (s.g a) s.me.pc
      ∧ Traps (.fgetd d a) s 0x20 (s.g a) s.me.pc ∧ Traps (.fpoll d a) s 0x20 (s.g a) s.me.pc)

/-- R242, R246, R253, R261: FRET and FRETF end a task whose entries and accesses are done: its future is DONE with STATUS 0, or FAULTED
with STATUS 0x40, and RESULT ga, its memberships end, each child that it holds is dropped once, its streams are freed and its context
is FREE; in any other context they end the activity in the same way; a wait for the entries and accesses keeps the
status and result it ends with.  FYIELD makes a task's next slice ready and frees its context, and moves a message or system
context on; FSIG with nothing left to signal moves on.  That FRET ends a system context as it does a message context is the
model's reading (log 27), and so is that an FSIG with nothing to signal does not wait (log 44). -/
def Obligations.EndingAndYielding : Prop := ∀ (s : State) (a : BitVec 5) (n : BitVec 14),
  let ids := s.ownIds s.cur.sc s.myOwner
  let done := s.settledFor s.cur.sc s.cur.ctx ids
  (s.Filled [a] → done = true →
    (s.cur.ctx < 16 → (∃ t, exec (.fret a) s = .next t ∧ TaskOver s t s.cur.sc s.cur.ctx .done 0 (s.g a))
      ∧ ∃ t, exec (.fretf a) s = .next t ∧ TaskOver s t s.cur.sc s.cur.ctx .faulted 0x40 (s.g a))
    ∧ (16 ≤ s.cur.ctx → ∀ i ∈ [Instr.fret a, .fretf a], ∃ t, exec i s = .next t ∧ ActivityOver s t s.cur.sc s.cur.ctx))
  ∧ (s.Filled [a] → done = false → Blocks (.fret a) s (.ending ids 0 (s.g a)) ∧ Blocks (.fretf a) s (.ending ids 0x40 (s.g a)))
  ∧ (16 ≤ s.cur.ctx → GoesTo .fyield s (s.me.pc + 4) ∧ GoesTo (.fsig n) s (s.me.pc + 4))
  ∧ (s.cur.ctx < 16 → ∃ t, exec .fyield s = .next t ∧ t.me.st = .free ∧ t.slices.length = s.slices.length + 1
      ∧ t.mem = s.mem ∧ (tgetD t.sleepers (futKey s.me.fut.toNat) {}).ctx.pc = s.me.pc + 4)
  ∧ (s.cur.ctx < 16 → s.toSignal (futKey s.me.fut.toNat) n.toNat = none → GoesTo (.fsig n) s (s.me.pc + 4))
  ∧ (∀ g i es, s.cur.ctx < 16 → s.toSignal (futKey s.me.fut.toNat) n.toNat = some (g, i, es) →
      (done = true → exec (.fsig n) s = .next (s.fin.signal g i es))
      ∧ (done = false → Blocks (.fsig n) s (.early ids n.toNat)))

/-- R250-R254: BALLOC gives the handle of a free barrier with EXP set; BARR arrives once and BARRD leaves as well, and the
last arrival begins the next phase; BWAIT moves on when the phase has changed and waits for it otherwise; BPOLL gives
PHASE, ARR and EXP; BFREE frees the barrier under the next generation; any other handle, and an arrival where EXP is 0, traps
BARRIER_STALE, an arrival that would be a fifth membership TABLE_FULL 4, and BALLOC of another scope or EXP STREAM_ARG.  That of a fifth
membership on a barrier whose EXP is 0 BARRIER_STALE is tested first is the model's choice (log 73). -/
def Obligations.Barriers : Prop := ∀ (s : State) (d a b : BitVec 5), s.Filled [d, a, b] →
  let n := s.cur.sc
  let h := (s.g a).toNat
  let x := s.barrier n h
  (∀ k, h ≤ 1 → 1 ≤ (s.g b).toNat → (s.g b).toNat ≤ 65535 → s.pickBar n h = some k →
      ∃ t, exec (.balloc d a b) s = .next t ∧ s.me.Wrote t.me d.toNat (BitVec.ofNat 64 k) ∧ t.mem = s.mem
        ∧ t = ((s.setBarrier n k { used := true, gen := k % 2 ^ 20, exp := (s.g b).toNat }).ret d (BitVec.ofNat 64 k)).useFree 1)
  ∧ (h ≤ 1 → 1 ≤ (s.g b).toNat → (s.g b).toNat ≤ 65535 → s.pickBar n h = none →
      Traps (.balloc d a b) s 0x25 (BitVec.ofNat 64 (h + 1)) s.me.pc)
  ∧ ((1 < h ∨ s.g b = 0 ∨ 65535 < (s.g b).toNat) →
      ∃ w, encode (.balloc d a b) = some w ∧ Traps (.balloc d a b) s 0x15 (w.zeroExtend 64) s.me.pc)
  ∧ (s.barOk n h = true →
      (x.exp ≠ 0 → (s.me.member h).isSome = true ∨ s.me.members.length < 4 → s.Settled →
        exec (.barr a) s = .next ((s.setBarrier n h (x.arrive false)).modMe (fun c => c.arrived h x.phase false)).fin
        ∧ exec (.barrd a) s = .next ((s.setBarrier n h (x.arrive true)).modMe (fun c => c.arrived h x.phase true)).fin)
      ∧ (x.exp = 0 → ∀ i ∈ [Instr.barr a, .barrd a], Traps i s 0x21 (s.g a) s.me.pc)
      ∧ (x.exp ≠ 0 → s.me.member h = none → 4 ≤ s.me.members.length → ∀ i ∈ [Instr.barr a, .barrd a], Traps i s 0x25 4 s.me.pc)
      ∧ (x.exp ≠ 0 → x.arr + 1 < x.exp → (x.arrive false).phase = x.phase ∧ (x.arrive false).arr = x.arr + 1)
      ∧ (x.exp ≠ 0 → x.exp ≤ x.arr + 1 → (x.arrive false).phase ≠ x.phase ∧ (x.arrive false).arr = 0)
      ∧ (x.exp ≠ 0 → x.phase = s.me.waitsFor h x → Blocks (.bwait a) s (.phase h x.phase))
      ∧ (x.exp = 0 ∨ x.phase ≠ s.me.waitsFor h x → ∃ t, exec (.bwait a) s = .next t ∧ OnlyMe s t ∧ t.me.pc = s.me.pc + 4
          ∧ ∀ r, t.me.reg r = s.me.reg r)
      ∧ Writes (.bpoll d a) s d (BitVec.ofNat 64 (x.phase * 2 ^ 32 + x.arr % 65536 * 65536 + x.exp % 65536))
      ∧ ∃ t, exec (.bfree a) s = .next t ∧ t.me.pc = s.me.pc + 4 ∧ (t.barrier n h).used = false
          ∧ (t.barrier n h).gen = (x.gen + 1) % 2 ^ 20 ∧ t.mem = s.mem)
  ∧ (s.barOk n h = false → ∀ i ∈ [Instr.barr a, .barrd a, .bwait a, .bfree a, .bpoll d a], Traps i s 0x21 (s.g a) s.me.pc)

/-- R255: WAITGE reads the dword at ga, moves on when it is already at least gb, and otherwise watches it; a table of the hub that holds
4,096 watches traps TABLE_FULL 3 (that a threshold that is met needs an entry too is the model's choice, log 74).  R257: GLAUNCH, once every
earlier access has performed and the tags its reads need are free, reads the graph; a valid one that the hub's walker has room for
becomes resident under a RUNNING future that the launcher holds; a read that fails, or a graph that is not valid, traps with its cause and
address, a full walker TABLE_FULL 5 and a full future table TABLE_FULL 0.  GFREE of a live graph's handle drops it, and of
a task's traps FUTURE_STALE. -/
def Obligations.FlagWatchesAndGraphs : Prop := ∀ (s : State) (d a b : BitVec 5) (x : Xlat),
  let pa := localOf x.pa
  let h := (s.g a).toNat
  let u := s.walked (s.g a) 8
  let r := s.readGraph s.cur.sc s.cur.ctx h
  let full := 4096 ≤ s.watches (pa / halfSize % 2)
  let trapped (cause : Nat) (v : Word) : Prop := ∃ t, exec (.glaunch d a) s = .next t
    ∧ t.me = { s.me with st := .trapped, tcause := BitVec.ofNat 64 cause, tval := v, tpc := s.me.pc, wait := none, pause := 0 }
    ∧ t.futs = s.futs ∧ t.graphs = s.graphs
  (s.Filled [a, b] → s.me.flagMet = false → u.check false (s.g a) 8 = .ok x →
    ((s.me.wait.isSome = true ∨ ¬full) → ∃ t, exec (.waitge a b) s = .next t ∧ SameBytes s t ∧ t.mem = s.mem
      ∧ ((s.g b).toNat ≤ u.flagValue pa → t.me = { s.me with pc := s.me.pc + 4, wait := none })
      ∧ (u.flagValue pa < (s.g b).toNat → t.me.st = .blocked ∧ t.me.wait = some (.flag pa (s.g b).toNat false)
          ∧ t.me.pc = s.me.pc ∧ ∀ q, t.me.reg q = s.me.reg q))
    ∧ (s.me.wait = none → full → Traps (.waitge a b) s 0x25 3 s.me.pc))
  ∧ (s.Filled [a, b] → s.me.flagMet = true → GoesTo (.waitge a b) s (s.me.pc + 4))
  ∧ (s.Filled [d, a] → ¬s.Settled → Blocks (.glaunch d a) s (.settled []))
  ∧ (s.Filled [d, a] → s.Settled → s.cur.ctx < 20 →
    (∀ g ns, r.1 = .ok (g, ns) →
      (∀ k, s.residentNodes (s.cur.sc / 8) + g.n ≤ 65536 → r.2.leaveTagQ.allocFut (s.cur.sc / 8) = some k →
        ∃ t, exec (.glaunch d a) s = .next t ∧ (∀ q, t.me.reg q = if q = d.toNat ∧ q ≠ 0 then BitVec.ofNat 64 (futHandle k (s.fut k).gen)
            else s.me.reg q)
          ∧ t.me.pc = s.me.pc + 4 ∧ (t.fut k).st = .running ∧ (t.fut k).graph = true ∧ (t.fut k).count = 1
          ∧ (t.fut k).held = true ∧ (t.fut k).parent = s.meHolder ∧ (t.fut k).rcb = s.myRcb
          ∧ (tgetD t.graphs s.nextGraph {}).nodes = ns.map (fun x => { x with zeroAt := s.cycle })
          ∧ (tgetD t.graphs s.nextGraph {}).flag = g.flag ∧ (tgetD t.graphs s.nextGraph {}).fut = k ∧ t.nextGraph = s.nextGraph + 1
          ∧ (s.PortQuiet → s.mySc.lines.length + (8 + 4 * g.n + g.m) ≤ cacheLines → t.mem = s.mem))
      ∧ (65536 < s.residentNodes (s.cur.sc / 8) + g.n → trapped 0x25 5)
      ∧ (s.residentNodes (s.cur.sc / 8) + g.n ≤ 65536 → r.2.leaveTagQ.allocFut (s.cur.sc / 8) = none → trapped 0x25 0))
    ∧ (∀ c v, r.1 = .error (.trap c v) → trapped c (BitVec.ofNat 64 v))
    ∧ ∀ st, r.1 = .error (.tag st) → ∃ t, exec (.glaunch d a) s = .next t ∧ t.me.st = .blocked
        ∧ t.me.wait = some (.tag s.cur.sc st) ∧ t.me.pc = s.me.pc ∧ t.mem = s.mem ∧ ∀ q, t.me.reg q = s.me.reg q)
  ∧ (s.Filled [a] → s.futLost h = false → s.futLive h = true → (s.fut (futKey h)).graph = true →
      exec (.gfree a) s = .next (s.fin.drop (futKey h)))
  ∧ (s.Filled [a] → s.futLost h = false → s.futLive h = true → (s.fut (futKey h)).graph = false →
      Traps (.gfree a) s 0x20 (s.g a) s.me.pc)

/-! ## Translation and read-duplicate pages -/

/-- R277, R279, R280: in a system context TLBINV and TLBINVA drop the ASID's entries (that map the address) in every SC and every
die, and wait while a pin of the ASID (over the address) is left; RNGSET writes a staging word of the die, RNGGET reads a staging or
live word, its reserved bits zero (R12, R274), and RNGCOMMIT with every staging register valid makes them all live, once no pin is in the way, and traps STREAM_ARG with
one that is not (a far package needs a fabric, which the model takes to be there while a lane is live: log 18); XLAT, in any context,
writes the translation's word. -/
def Obligations.TranslationInstructions : Prop := ∀ (s : State) (d a : BitVec 5) (r : BitVec 6) (w : BitVec 2), s.Filled [d, a] →
  let n := s.cur.sc
  let va := (s.g a).toNat
  let die := n / 2
  let gone (t : State) (p : Nat × Xlat → Prop) : Prop :=
    (∀ m e, e ∈ (t.sc m).tlb → ¬p e) ∧ ∀ m e, e ∈ tgetD t.dieTlb m [] → ¬p e
  let field (k : Nat) : Prop := (w = 0 ∧ 16 ≤ k) ∨ (w = 1 ∧ (k < 6 ∨ 16 ≤ k)) ∨ (w = 2 ∧ 16 ≤ k ∧ k < 53) ∨ (w = 3 ∧ k < 24)
  let gives (i : Instr) (x : Word) : Prop := ∃ v, Writes i s d v ∧ ∀ k < 64, v.getLsbD k = true ↔ x.getLsbD k = true ∧ field k
  (∃ t, exec (.xlat d a) s = .next t ∧ s.me.Wrote t.me d.toNat (xlatWord (s.xlat n va)) ∧ SameBytes s t ∧ t.mem = s.mem)
  ∧ (isSystem s.cur.ctx = true →
    (canonical va = false → GoesTo (.tlbinv a) s (s.me.pc + 4))
    ∧ (canonical va = true → ∃ t, exec (.tlbinv a) s = .next t ∧ t.mem = s.mem
        ∧ gone t (fun e => e.1 = s.myAsid ∧ e.2.maps va = true)
        ∧ (s.pinned s.myAsid (some va) = false → t.me.pc = s.me.pc + 4)
        ∧ (s.pinned s.myAsid (some va) = true → t.me.wait = some (.pins s.myAsid (some va)) ∧ t.me.st = .blocked))
    ∧ (∃ t, exec .tlbinva s = .next t ∧ t.mem = s.mem ∧ gone t (fun e => e.1 = s.myAsid)
        ∧ (s.pinned s.myAsid none = false → t.me.pc = s.me.pc + 4)
        ∧ (s.pinned s.myAsid none = true → t.me.wait = some (.pins s.myAsid none) ∧ t.me.st = .blocked ∧ t.me.pc = s.me.pc))
    ∧ (∃ t, exec (.rngset a r w) s = .next t ∧ t.me = { s.me with pc := s.me.pc + 4, wait := none } ∧ t.mem = s.mem
        ∧ t.rngLive = s.rngLive ∧ t.rngStage = tput s.rngStage (256 * die + 4 * r.toNat + w.toNat) (s.g a))
    ∧ gives (.rngget d r 0 w) (tgetD s.rngStage (256 * die + 4 * r.toNat + w.toNat) 0)
    ∧ gives (.rngget d r 1 w) (tgetD s.rngLive (4 * r.toNat + w.toNat) 0)
    ∧ ((∀ q, q < 64 → s.stageOk die q = true) → s.committing = [] → s.commitHeld die = false →
        ∃ t, exec .rngcommit s = .next t ∧ t.me = { s.me with pc := s.me.pc + 4, wait := none } ∧ t.mem = s.mem
          ∧ ∀ q, q < 256 → tgetD t.rngLive q 0 = tgetD s.rngStage (256 * die + q) 0)
    ∧ ((∀ q, q < 64 → s.stageOk die q = true) → s.commitHeld die = true →
        ∃ t, exec .rngcommit s = .next t ∧ t.me.wait = some .commit ∧ t.me.st = .blocked ∧ t.me.pc = s.me.pc
          ∧ t.rngLive = s.rngLive ∧ t.mem = s.mem)
    ∧ ((∃ q, q < 64 ∧ s.stageOk die q = false) →
        ∃ x, encode .rngcommit = some x ∧ Traps .rngcommit s 0x15 (x.zeroExtend 64) s.me.pc))

/-- R338-R348: on a page with a valid record whose home is live, a first operation of this package, which is the home, does its part:
PSPLIT of a WHOLE page makes it SPLIT and of a SPLIT page does nothing; POWN of a block by its owner and PDUP of a block that is
already shared do nothing; POWN by another holder makes that holder the owner, at once where this package neither owns the block nor
gains it from another; one that gains a DUP block waits for every other live holder to complete its part; a POWN or PDUP that needs another
holder's bytes or leaf waits until they have come.  Its part done, it tells the others, and the instruction is over once each live one has said so
of its own; until then it waits, and after that the next operation of the page may go on.  One behind another operation on the page waits its
turn, and one whose home is another package waits to be taken there (R340, R342).  POWN of a WHOLE page or for no holder, PDUP of no mode, and any
of them without a record, trap STREAM_ARG, and one whose home is dead STREAM_BOUNDS; PSTAT writes the page's word, or 0.  That one package's
model holds the page's directory, and what the other holders and the home send it, is the model's choice (log 33). -/
def Obligations.ReadDuplicatePages : Prop := ∀ (s : State) (d a b : BitVec 5) (i p : Nat), s.Filled [d, a, b] →
  isSystem s.cur.ctx = true →
  let va := (s.g a).toNat
  let k := va / 2 ^ 16 % 32
  let o := (s.g b).toNat
  let me := (s.cur.sc, s.cur.ctx)
  let x := s.dupPage i
  let stays (t : State) : Prop := t.me.st = .blocked ∧ t.me.wait = some (.page i) ∧ t.me.pc = s.me.pc
  let ended (t : State) (rest : List DupOp) : Prop := t.me = { s.me with pc := s.me.pc + 4, wait := none }
    ∧ (t.dupPage i).ops = rest ∧ (t.dupPage i).mine = false ∧ (t.dupPage i).block = none
  -- this package's part is done, and the instruction with it once every other live holder's is
  let parts (j : Instr) (c : DupAct) (rest : List DupOp) (P : State → Prop) : Prop := ∃ t, exec j s = .next t ∧ P t
    ∧ t.out.getLast? = some (.partDone (s.drecFrame i))
    ∧ (s.othersDone i = true → ended t rest)
    ∧ (s.othersDone i = false → stays t ∧ (t.dupPage i).mine = true ∧ (t.dupPage i).ops = { who := some me, act := c } :: rest)
  let keeps (t : State) : Prop := t.mem = s.mem ∧ (t.dupPage i).split = x.split ∧ (t.dupPage i).owned = x.owned
  let waits (j : Instr) (c : DupAct) : Prop := ∃ t, exec j s = .next t ∧ stays t
    ∧ (t.dupPage i).ops = x.ops ++ [{ who := some me, act := c }] ∧ (t.dupPage i).owned = x.owned ∧ (t.dupPage i).mine = x.mine
  let asks (j : Instr) (c : DupAct) : Prop := ∃ t, exec j s = .next t ∧ stays t ∧ t.mem = s.mem
    ∧ (t.dupPage i).ops = x.ops ∧ (t.dupPage i).asked = x.asked ++ [{ who := some me, act := c }] ∧ (t.dupPage i).owned = x.owned
  let refuses (j : Instr) : Prop := ∃ w, encode j = some w ∧ Traps j s 0x15 (w.zeroExtend 64) s.me.pc
  Writes (.pstat d a) s d (s.pageWord va)
  ∧ ((∀ j, s.me.wait ≠ some (.page j)) →
    (s.dupRec va = some i → s.isDead (s.dupHome i) = false →
      (s.dupHome i = s.pkgid → x.ops = [] → x.mine = false →
        (x.split = true → parts (.psplit a) .split [] keeps)
        ∧ (x.split = false → parts (.psplit a) .split [] (fun t => (t.dupPage i).split = true ∧ (t.dupPage i).owned = x.owned))
        ∧ ((s.holds i).contains o = true → x.split = true →
          (s.dupOwner i k = some o → parts (.pown a b) (.own k o) [] keeps)
          ∧ (s.dupOwner i k = some p → p ≠ o → p ≠ s.pkgid → o ≠ s.pkgid →
              parts (.pown a b) (.own k o) [] (fun t => t.dupOwner i k = some o ∧ t.mem = s.mem))
          ∧ (s.dupOwner i k = none → o = s.pkgid → s.othersDone i = true →
              parts (.pown a b) (.own k o) [] (fun t => t.dupOwner i k = some o))
          ∧ (s.dupOwner i k = none → o = s.pkgid → s.othersDone i = false → waits (.pown a b) (.own k o))
          ∧ (s.dupOwner i k = some p → p ≠ o → o = s.pkgid → s.isDead p = true →
              parts (.pown a b) (.own k o) [] (fun t => t.dupOwner i k = some o))
          ∧ (s.dupOwner i k = some p → p ≠ o → o = s.pkgid → s.isDead p = false → x.block = none → waits (.pown a b) (.own k o)))
        ∧ (o ≤ 1 →
          (s.dupOwner i k = none → parts (.pdup a b) (.dup k (o == 0)) [] keeps)
          ∧ (s.dupOwner i k = some p → p ≠ s.pkgid → s.isDead p = false → x.block = none →
              waits (.pdup a b) (.dup k (o == 0)))
          ∧ (s.dupOwner i k = some p → p ≠ s.pkgid → s.isDead p = true → o = 1 →
              parts (.pdup a b) (.dup k (o == 0)) [] (fun t => t.dupOwner i k = none))))
      ∧ (s.dupHome i = s.pkgid → ∀ y rest, x.ops = y :: rest → y.who ≠ some me →
          waits (.psplit a) .split
          ∧ (o ≤ 1 → (o = 1 ∨ ∀ q, s.dupOwner i k = some q → s.isDead q = false) → waits (.pdup a b) (.dup k (o == 0)))
          ∧ ((s.holds i).contains o = true → x.split = true → waits (.pown a b) (.own k o)))
      ∧ (s.dupHome i ≠ s.pkgid → (∀ y rest, x.ops = y :: rest → y.who ≠ some me) →
          asks (.psplit a) .split
          ∧ (o ≤ 1 → (o = 1 ∨ ∀ q, s.dupOwner i k = some q → s.isDead q = false) → asks (.pdup a b) (.dup k (o == 0)))
          ∧ ((s.holds i).contains o = true → x.split = true → asks (.pown a b) (.own k o)))
      ∧ ((s.holds i).contains o = true → x.split = false → refuses (.pown a b))
      ∧ (s.dupOwner i k = some p → s.isDead p = true → o = 0 → Traps (.pdup a b) s 0x1A (s.g a) s.me.pc))
    ∧ (s.dupRec va = some i → s.isDead (s.dupHome i) = true → Traps (.psplit a) s 0x1A (s.g a) s.me.pc)
    ∧ (s.dupRec va = some i → ((s.holds i).contains o = false → refuses (.pown a b)) ∧ (1 < o → refuses (.pdup a b)))
    ∧ (s.dupRec va = none → ∀ j ∈ [Instr.psplit a, .pown a b, .pdup a b], refuses j))
  -- the first operation of the page goes on: what came for it is taken, and one whose part was done waits for the others alone
  ∧ (s.me.wait = some (.page i) →
    (∀ y copy rest, x.ops = { who := some me, act := .dup k copy } :: rest → x.mine = false →
      s.dupOwner i k = some p → p ≠ s.pkgid → s.isDead p = false → x.block = some y →
      parts (.pdup a b) (.dup k copy) rest (fun t => t.dupOwner i k = none ∧ (t.dupPage i).block = none))
    ∧ (∀ y rest, x.ops = { who := some me, act := .own k s.pkgid } :: rest → x.mine = false →
      x.split = true → s.dupOwner i k = some p → p ≠ s.pkgid → s.isDead p = false → x.block = some y →
      parts (.pown a b) (.own k s.pkgid) rest (fun t => t.dupOwner i k = some s.pkgid ∧ (t.dupPage i).block = none))
    ∧ (∀ c rest, x.ops = { who := some me, act := c } :: rest → x.mine = true → ∀ j ∈ [Instr.psplit a, .pown a b, .pdup a b],
      ∃ t, exec j s = .next t ∧ t.mem = s.mem
        ∧ (s.othersDone i = true → ended t rest ∧ (t.dupPage i).acks = (s.holds i).foldl List.erase x.acks)
        ∧ (s.othersDone i = false → stays t ∧ (t.dupPage i).ops = x.ops ∧ (t.dupPage i).acks = x.acks)))
  -- what comes from the home and from the other holders
  ∧ (s.dupRec va = some i →
    ((s.peerTurn va).dupPage i = { x with ops := x.ops ++ x.asked.take 1, asked := x.asked.drop 1 })
    ∧ ((s.holds i).contains p = true → (s.peerDone va p).dupPage i = { x with acks := x.acks ++ [p] })
    ∧ ((s.holds i).contains p = false → s.peerDone va p = s))

/-! ## Events of the clusters -/

/-- R27, R28-R31, R33, R158, R176, R334: the life of a run.  The first run that may start takes its group and sequencer; a halted run
with nothing in flight retires and sets the lengths of its out streams; a reclaimed one is discarded; a marked one is saved
to the kernel save area of its cores, its registers, predicates, latches, return queues, tags and bank modes at the offsets R208
gives them, and, once the run that pre-empted it is gone, runs on unchanged under the lowest free sequencer (whatever the area then
holds, and which sequencer: the model's choice, logs 19 and 89); before its boundary a marked run goes on, and its mark is dropped where
the run that made it no longer waits, it has halted, or KSP is not valid; a waiting run whose time is up marks the runs that hold its
group and still issue bundles (when a run meets the condition, and which of several acts first, is the model's reading, log 45). -/
def Obligations.KernelRunLife : Prop := ∀ (s : State) (n k : Nat),
  let r := s.run n k
  (∀ f q, s.canStart n k = some (f, q) → (∀ x ∈ (s.sc n).entries, x.id < k → s.canStart n x.id = none) →
    ∃ t, exec (.kernelRunStart n k) s = .next t ∧ SameBytes s t ∧ (∀ c, t.ctx n c = s.ctx n c)
      ∧ t.run n k = { r with phase := .running, first := f, seq := q, placed := true, since := none }
      ∧ (∀ x, (t.sc n).entry? k = some x → x.st = .started)
      ∧ (t.sc n).entries.map Entry.id = (s.sc n).entries.map Entry.id)
  ∧ (r.phase = .running → r.halted = true → r.drained = true → r.stop = false →
    ∃ t, exec (.runCompletion n k) s = .next t ∧ SameBytes s t ∧ (∀ c, t.ctx n c = s.ctx n c)
      ∧ (t.sc n).entries = (s.sc n).entries.filter (fun x => x.id != k)
      ∧ (s.ownerStands n r.owner = true → (t.run n k).phase = .retired ∧ (t.run n k).rq = r.rq ∧ (t.run n k).tag = r.tag)
      ∧ (s.ownerStands n r.owner = false → tget (t.sc n).runs k = none)
      ∧ ∀ p ∈ r.ports, p.2.dir = .out → (∀ q ∈ r.ports, q.2.dir = .out → q.2.stream = p.2.stream → q = p) →
          (t.stream n p.2.stream).len = p.2.n)
  ∧ (r.stop = true → (r.phase = .running ∨ r.phase = .saved) →
    ∃ t, exec (.runReclaimStop n k) s = .next t ∧ OnlySc n s t ∧ SameBytes s t ∧ tget (t.sc n).runs k = none
      ∧ (t.sc n).entries = (s.sc n).entries.filter (fun x => x.id != k) ∧ (t.sc n).streams = (s.sc n).streams)
  ∧ (∀ x, r.phase = .running → r.preempt = true → r.stop = false → r.by' = some x → x ≠ k → (s.run n x).phase = .waiting →
      thas (s.sc n).runs x = true → r.halted = false → r.idle = 0 → r.tldx = 0 → bitNat (s.sc n).ksp.toNat 0 = true →
    ∃ t, exec (.preemption n k) s = .next t ∧ t.run n k = { r with phase := .saved, preempt := false, paid := false }
      ∧ (t.run n x).preemptor = true
      ∧ (∀ c, t.ctx n c = s.ctx n c) ∧ (t.sc n).entries = (s.sc n).entries
      ∧ ((∀ st off, s.mode st off = 0) → ∀ a,
          (∀ c < r.g, ∀ p ∈ r.saveOf (s.runRegs n r) c,
            ¬(s.saveBase n (r.first + c) + p.1 ≤ a ∧ a < s.saveBase n (r.first + c) + p.1 + p.2.length)) →
          (∀ c < r.g, ∀ p ∈ internals c, ¬(s.saveBase n (r.first + c) + p.1 ≤ a ∧ a < s.saveBase n (r.first + c) + p.1 + p.2)) →
          t.byte a = s.byte a)
      ∧ (s.Safe → s.ueSectors = [] → (∀ st off, s.mode st off = 0) → ∀ c < r.g, ∀ p ∈ r.saveOf (s.runRegs n r) c, p.1 < 0x4000 →
          let A := s.saveBase n (r.first + c) + p.1
          ∀ (i : Nat) v, p.2[i]? = some v → (∀ q ∈ r.saveOf (s.runRegs n r) c, p.1 < q.1 → p.1 + i < q.1) →
            inMemory s.topo (A + i) = true → bitNat s.topo.stks.toNat (stackOf s.topo (A + i)).1 = true → t.byte (A + i) = v))
  -- not at its boundary yet, or with a background weight read under way
  ∧ (∀ x, r.phase = .running → r.preempt = true → r.stop = false → r.by' = some x → (s.run n x).phase = .waiting →
      thas (s.sc n).runs x = true → r.halted = false → bitNat (s.sc n).ksp.toNat 0 = true →
      (r.idle ≠ 0 → exec (.preemption n k) s = .next s)
      ∧ (r.idle = 0 → r.tldx ≠ 0 → exec (.preemption n k) s = .next (s.setRun n k { r with wall := r.wall + 1, tldx := r.tldx - 1 })))
  -- a mark that no longer holds
  ∧ (∀ x, r.phase = .running → r.preempt = true → r.stop = false → r.by' = some x → x ≠ k →
      ((s.run n x).phase ≠ .waiting ∨ thas (s.sc n).runs x = false ∨ r.halted = true ∨ bitNat (s.sc n).ksp.toNat 0 = false) →
    ∃ t, exec (.preemption n k) s = .next t ∧ OnlySc n s t ∧ SameBytes s t ∧ (∀ c, t.ctx n c = s.ctx n c)
      ∧ t.run n k = { r with preempt := false, by' := none }
      ∧ ∀ j, j ≠ k → j ≠ x → t.run n j = s.run n j)
  ∧ (∀ q, r.phase = .saved → r.stop = false → (r.by' = none ∨ ∃ x, r.by' = some x ∧ (s.run n x).phase = .retired) →
      (s.sc n).holding .running r.first r.g = [] → (s.sc n).freeSeq = some q →
    ∃ t, exec (.runRestore n k) s = .next t ∧ t.run n k = { r with phase := .running, seq := q, by' := none }
      ∧ SameBytes s t ∧ ∀ c, t.ctx n c = s.ctx n c)
  ∧ (∀ f, ((s.sc n).runs.map Prod.fst).Nodup → r.phase = .waiting → s.preemptGroup n k = some f → s.pthrOver n k = true →
      (∀ p ∈ (s.sc n).runs, s.pthrOver n p.1 = true → ¬(r.cls < p.2.cls ∨ (r.cls = p.2.cls ∧ p.1 < k))) →
    ∃ t, exec (.pthrExpiry n k) s = .next t ∧ OnlySc n s t ∧ SameBytes s t ∧ (∀ c, t.ctx n c = s.ctx n c)
      ∧ t.run n k = { r with placed := true, first := f, since := none }
      ∧ ∀ p ∈ (s.sc n).holding .running f r.g, t.run n p.1 =
          if p.2.halted = true then p.2 else { p.2 with preempt := true, by' := some k })

/-- R17, R29, R75, R123, R125, R141: the events of a running group, each on that run alone: results and rows due in a cycle
land, in issue order, the next row of the first pass enters, and a background weight read ends. At a bundle boundary the
bundle itself lands them, so that a save before it still holds them: the events then do nothing. That they act as events of
their own only where nothing that must come first is due is the model's form of the cycle (log 46).  R91, R96, R97, R124,
R126, R127, R140, R143: the rows of the array. A dense row that meets weights of its own format is in flight with the sum of
each column under R91, each product exact and, for tmmh, the second half of K taken as zero; a parts row that meets loaded
tables is in flight with the exact sum of its group results; any other row is skipped and sets TMIS (unless the bundle clears
it). Where its bank is in the mode, a dense row then adds its sums to the FP32 elements of its output row, or replaces or
subtracts, and a parts row its sums to the containers, wrapped to 48 bits, with OVF set in the cores where a value left that
range; otherwise the update is discarded and sets TMIS. -/
def Obligations.CycleEvents : Prop :=
  (∀ (s : State) (n k : Nat),
  let r := s.run n k
  let on (i : Instr) (q : Run) : Prop := ∃ t, exec i s = .next t ∧ t = s.setRun n k q ∧ SameBytes s t
  r.phase = .running →
  (r.between = true →
    (r.flyDue false = [] → r.flyDue true = [] →
      on (.resultLanding n k) (r.due.foldl Run.land { r with pend := r.pend.filter (fun p => p.n != 0) }))
    ∧ on (.tileUpdateVisible n k)
        ((r.flyDue false).foldl Run.applyFly { r with fly := r.fly.filter (fun f => !(f.n == 0 && f.parts == false)) })
    ∧ (r.flyDue false = [] → on (.partsUpdateVisible n k)
        ((r.flyDue true).foldl Run.applyFly { r with fly := r.fly.filter (fun f => !(f.n == 0 && f.parts == true)) })))
  ∧ (r.between = false → ∀ i ∈ [Instr.resultLanding n k, .tileUpdateVisible n k, .partsUpdateVisible n k, .tileRowEntry n k],
      exec i s = .next s)
  ∧ (r.tldx = 1 → on (.tldxReadEnd n k) { r with tldx := 0 })
  ∧ (r.between = true → r.entered = false → r.due = [] → r.flyDue false = [] → r.flyDue true = [] →
      ∃ t, exec (.tileRowEntry n k) s = .next t ∧ t = s.setRun n k (t.run n k) ∧ SameBytes s t ∧ (t.run n k).entered = true
        ∧ (r.drain = true → (t.run n k).drain = false ∧ (t.run n k).passes = r.passes)
        ∧ ∀ p ps, r.drain = false → r.passes = p :: ps → (t.run n k).passes =
            if p.left ≤ 1 then ps else { p with row := p.row + 1, left := p.left - 1, q := p.q + 1 } :: ps))
  ∧ ((∀ ps : List FVal,
    ((FVal.nan ∈ ps ∨ (FVal.inf false ∈ ps ∧ FVal.inf true ∈ ps)) → sumPass ps = roundFP32 .nan)
    ∧ (∀ b, FVal.nan ∉ ps → FVal.inf b ∈ ps → FVal.inf (!b) ∉ ps → sumPass ps = roundFP32 (.inf b))
    ∧ ((∀ x ∈ ps, ∃ b e, x = FVal.fin b 0 e) → sumPass ps = 0)
    ∧ ((∀ x ∈ ps, ∃ b m e, x = FVal.fin b m e) → (∃ b m e, FVal.fin b m e ∈ ps ∧ m ≠ 0) →
        ∃ em, (∃ b m e, FVal.fin b m e ∈ ps ∧ m ≠ 0 ∧ floorLog2 m e = em)
          ∧ (∀ b m e, FVal.fin b m e ∈ ps → m ≠ 0 → floorLog2 m e ≤ em)
          ∧ (let T := (ps.map (truncTo (em - 56))).sum
             sumPass ps = roundFP32 (.fin (T < 0) T.natAbs (em - 56)))))
  ∧ (∀ (r : Run) (p : Pass),
      let w := r.active
      let tag := r.slotTag p.m
      let sl := [r.slotLines p.m]
      let K := if w.fmt = 2 then 128 else if w.fmt = 3 then 256 else 512
      let C := if w.fmt = 2 then 4 else 8
      let Ng := if w.fmt = 9 then 48 else 16
      let G := if w.fmt = 9 then 8 else 24
      (p.parts = false → (w.fmt = 2 ∨ w.fmt = 3 ∨ w.fmt = 4) → tag = w.fmt → ∃ S,
        r.rowOf p = { r with fly := r.fly ++ [{ n := 16, op := p.op, bank := p.bank, cap := C, q := p.q % (32 / C), sums := S }] }
        ∧ S.length = r.g ∧ ∀ c, c < r.g → (S.getD c []).length = (if w.fmt = 2 then 64 else 128)
          ∧ ∀ j, j < (S.getD c []).length → BitVec.ofInt 32 ((S.getD c []).getD j 0) = sumPass ((List.range K).map (fun k =>
              if p.op = .half ∧ K / 2 ≤ k then .fin false 0 0 else (w.elem c k j).mul (actElem tag sl c p.row k))))
      ∧ (p.parts = true → (w.fmt = 7 ∨ w.fmt = 8 ∨ w.fmt = 9) → (tag = 5 ∨ tag = 6) → ∃ S,
        r.rowOf p = { r with fly := r.fly ++ [{ n := 24, parts := true, op := p.op, bank := p.bank, q := p.q % 2, sums := S }] }
        ∧ S.length = r.g ∧ ∀ c, c < r.g → (S.getD c []).length = 128 ∧ ∀ j, j < 128 →
            (S.getD c []).getD j 0 = ((List.range Ng).map (fun g =>
              let rc := partsRec w c j g
              ((List.range G).map (fun k =>
                (rc.base + (((rc.ds.take k).map (fun d => (d : Int))).sum)) *
                  (if rc.idx.getD k 0 ≤ 23 then partsAct tag w.fmt sl c p.row (24 * g + rc.idx.getD k 0) else 0))).sum)).sum)
      ∧ ((p.parts = false ∧ ¬((w.fmt = 2 ∨ w.fmt = 3 ∨ w.fmt = 4) ∧ tag = w.fmt)
          ∨ p.parts = true ∧ ¬((w.fmt = 7 ∨ w.fmt = 8 ∨ w.fmt = 9) ∧ (tag = 5 ∨ tag = 6))) →
        r.rowOf p = { r with tmis := r.tmis || !r.newClr }))
  ∧ ∀ (r : Run) (f : FlyRow),
      let top := f.cap * f.q
      let S (y x : Nat) : Int := (f.sums.getD (x / 16) []).getD (16 * y + x % 16) 0
      (∀ b, tget r.banks f.bank = some b → b.part = false → f.parts = false →
        ∃ b', r.applyFly f = { r with banks := tput r.banks f.bank b' } ∧ b' = { b with rows := b'.rows }
          ∧ (∀ y, y < (f.sums.headD []).length / 16 → ∀ x : Nat, x < r.lanes → (b'.row r.lanes (top + y))[x]? =
              some (let e := f32 ((b.row r.lanes (top + y)).getD x 0)
                    let v : W32 := BitVec.ofInt 32 (S y x)
                    match f.op with
                    | .zero => v
                    | .neg => roundFP32 (e.add (f32 v).negate)
                    | _ => roundFP32 (e.add (f32 v))))
          ∧ ∀ y, (y < top ∨ top + (f.sums.headD []).length / 16 ≤ y) → b'.row r.lanes y = b.row r.lanes y)
      ∧ (∀ b, tget r.banks f.bank = some b → b.part = true → f.parts = true →
        let X (y x : Nat) : Int :=
          let v := ((b.cellRow r.lanes (8 * f.q + y)).getD x 0).toInt
          match f.op with
          | .zero => S y x
          | .neg => v - S y x
          | _ => v + S y x
        ∃ b', r.applyFly f = { r with banks := tput r.banks f.bank b' } ∧ b' = { b with cells := b'.cells, ovf := b'.ovf }
          ∧ (∀ y x, y < 8 → x < r.lanes → (let z := ((b'.cellRow r.lanes (8 * f.q + y)).getD x 0).toInt
              z % 2 ^ 48 = X y x % 2 ^ 48 ∧ -2 ^ 47 ≤ z ∧ z < 2 ^ 47))
          ∧ (∀ y, (y < 8 * f.q ∨ 8 * f.q + 8 ≤ y) → b'.cellRow r.lanes y = b.cellRow r.lanes y)
          ∧ ∀ c, c ∈ b'.ovf ↔ c < r.g ∧ (c ∈ b.ovf
              ∨ ∃ y < 8, ∃ l < 16, X y (16 * c + l) < -2 ^ 47 ∨ 2 ^ 47 ≤ X y (16 * c + l)))
      ∧ ((∀ b, tget r.banks f.bank = some b → b.part ≠ f.parts) → r.applyFly f = { r with tmis := true }))

/-- R165, R167, R202, R203: an asynchronous trap due records its cause with bit 8, its TVAL and the pc it interrupted and leaves
the others pending; a PAUSE ends; a context whose wait is over is READY again at the same pc; the oldest arrival
starts the lower-numbered FREE message context with its argument in g1 and its sender in g2. -/
def Obligations.ContextEvents : Prop := ∀ (s : State) (n c : Nat),
  let x := s.ctx n c
  (∀ cause v rest, x.trapDue = true → x.apend = (cause, v) :: rest →
    ∃ t, exec (.asyncTrap n c) s = .next t ∧ SameBytes s t
      ∧ t.ctx n c = { x with st := .trapped, tcause := BitVec.ofNat 64 (cause + 256), tval := v, tpc := x.pc, wait := none,
                             pause := 0, apend := rest }
      ∧ (t.sc n).trapQ = (s.sc n).trapQ ++ [c] ∧ ∀ d, d ≠ c → t.ctx n d = s.ctx n d)
  ∧ (x.pause = 1 → exec (.pauseExpiry n c) s = .next (s.setCtx n c { x with pause := 0 }))
  ∧ (∀ w, x.wait = some w → x.st = .blocked → s.waitOver n c w = true →
    exec (.contextWake n c) s = .next (s.setCtx n c { x with st := .ready, wait := w.kept }))
  ∧ (∀ w, x.wait = some w → s.waitOver n c w = false → exec (.contextWake n c) s = .next s)
  ∧ (∀ a rest k, (s.sc n).arrivals = a :: rest → (s.ctx n k).st = .free → (k = 16 ∨ (k = 17 ∧ (s.ctx n 16).st ≠ .free)) →
    ∃ t, exec (.messageContextStart n) s = .next t ∧ SameBytes s t ∧ (t.ctx n k).st = .ready ∧ (t.ctx n k).pc = a.pc
      ∧ (t.sc n).arrivals = rest ∧ (∀ d, d ≠ k → t.ctx n d = s.ctx n d)
      ∧ ∀ r, (t.ctx n k).reg r = if r = 1 then a.arg else if r = 2 then BitVec.ofNat 64 a.src else 0)

/-- R171, R174, R177, R179, R189, R222, R288, R397: entries.  The first that could start on its engine starts; a started entry of an
engine does the next step of its job, when it has one; a finished one retires, sets the length of the stream it filled and, with it,
completes: its flag is incremented last and it leaves the scoreboard; a remote operation that reads its source retires first and
completes once it has been sent and acknowledged; and what was freed while in use goes once nothing uses it. -/
def Obligations.EntriesRunToCompletion : Prop := ∀ (s : State) (n e : Nat) (x : Entry), (s.sc n).entry? e = some x →
  let u := s.sc n
  (u.couldStart x = true → (∀ y ∈ u.entries, y.id < e → y.work.engine = x.work.engine → u.couldStart y = false) →
    ∃ t, exec (.entryStart n e) s = .next t ∧ OnlySc n s t ∧ SameBytes s t
      ∧ (t.sc n).entries = u.entries.map (fun y => if y.id = e then { y with st := .started } else y)
      ∧ (t.sc n).streams = u.streams ∧ (t.sc n).ctxs = u.ctxs)
  ∧ (∀ t, x.st = .started → s.jobStep n x = some t →
      (x.work.engine = .agent → exec (.streamAgentTransfer n e) s = .next t)
      ∧ (x.work.engine = .copier → exec (.copyEngineTransfer n e) s = .next t)
      ∧ (x.work.engine = .dce → t ≠ s → s.dceWork (twin n) = false → u.dceFirst = some e →
          exec (.dceBlockWrite n e) s = .next { t with dceLast := tput t.dceLast (n / 2) n }))
  -- one position of a fill, and the pointers of a reset
  ∧ (∀ d v k, x.st = .started → x.work = .fill d v true k → x.idone < k → (s.stream n d).space ≠ 0 →
      ∃ t, exec (.streamAgentTransfer n e) s = .next t ∧ t.stream n d = (s.stream n d).publish 1 ∧ SameBytes s t)
  ∧ (∀ d, x.st = .started → x.work = .sreset d → x.idone = 0 →
      ∃ t, exec (.streamAgentTransfer n e) s = .next t ∧ (t.stream n d).rp = 0 ∧ (t.stream n d).wp = 0 ∧ (t.stream n d).len = 0
        ∧ SameBytes s t)
  ∧ (x.st = .started → x.finished = true → x.work.early = true →
      ∃ t, exec (.entryRetire n e) s = .next t ∧ OnlySc n s t ∧ SameBytes s t
        ∧ (t.sc n).entries = u.entries.map (fun y => if y.id = e then { y with st := .retired } else y))
  ∧ (x.st = .started → x.finished = true → x.work.early = false → x.remote = [] → x.work.status = 0 →
      ∃ v t, exec (.entryRetire n e) s = .next t ∧ SameBytes s v ∧ (∀ m c, v.ctx m c = s.ctx m c)
        ∧ t = (match x.flag with | some a => v.incFlag n x.ptb a | none => v).modSc n (fun q => q.dropEntry e)
        ∧ (t.sc n).entries = u.entries.filter (fun y => y.id != e)
        ∧ (∀ d w b k, x.work = .fill d w b k → (t.stream n d).len = wrap32 ((s.stream n d).rowLen * k))
        ∧ (∀ r d, x.work = .load r d none → (t.stream n d).len = wrap32 ((r.size + 3) / 4)))
  ∧ (x.st = .started → x.finished = true → x.work.early = false → x.remote ≠ [] → exec (.entryRetire n e) s = .next s)
  ∧ (x.st = .retired → x.sent = true → x.remote = [] →
      (x.flag = none → ∃ t, exec (.entryComplete n e) s = .next t ∧ OnlySc n s t ∧ SameBytes s t
        ∧ (t.sc n).entries = u.entries.filter (fun y => y.id != e))
      ∧ ∀ a, x.flag = some a → exec (.entryComplete n e) s = .next ((s.incFlag n x.ptb a).modSc n (fun q => q.dropEntry e)))
  ∧ (x.st = .retired → (x.sent = false ∨ x.remote ≠ []) → exec (.entryComplete n e) s = .next s)
  ∧ (∀ k i, tget u.images k = some i → i.freed = true → (∀ r ∈ u.runs, r.2.kernel = k → r.2.gen = i.gen → r.2.phase = .retired) →
      ∃ t, exec (.kernelStoreRelease n k) s = .next t ∧ OnlySc n s t ∧ SameBytes s t ∧ tget (t.sc n).images k = none
        ∧ (t.sc n).runs = u.runs)
  ∧ (∀ d y, tget u.streams d = some y → y.dying = true → (∀ z ∈ u.entries, z.uses d = true → z.st = .retired) →
      ∃ t, exec (.streamDeferredFree n d) s = .next t ∧ SameBytes s t ∧ tget (t.sc n).streams d = none
        ∧ (t.sc n).entries = u.entries)

/-! ## Events of tasks, launches and graphs -/

/-- R246, R247, R261, R330-R333: dispatch puts the first candidate in its free context, a new task at its entry with its argument in g1
and a descheduled one where it stopped; a spent budget deschedules the task, ready again; the waits of FRET, FRETF and
FSIG end in what those instructions do; a reclaimed task is reclaimed at its point, or where it sleeps, with all it holds, and a reclaimed
graph leaves the walker and drops its node tasks once. -/
def Obligations.TaskEvents : Prop := ∀ (s : State) (n c k : Nat),
  let x := s.ctx n c
  (∀ y, s.pick s.cands = some y → y.fut = some k → s.placeOf y = some n → s.freeTask n = some c →
    ∃ t, exec .taskDispatch s = .next t ∧ (t.ctx n c).st = .ready ∧ (t.ctx n c).dln = BitVec.ofNat 64 y.deadline
      ∧ (t.ctx n c).bud = (if y.budget = 0 then BitVec.allOnes 64 else BitVec.ofNat 64 y.budget)
      ∧ (t.fut k).st = .running ∧ (t.fut k).sc = some n ∧ (∀ z ∈ t.slices, z.fut ≠ k) ∧ t.mem = s.mem
      ∧ (∀ d, d ≠ c → t.ctx n d = s.ctx n d)
      ∧ (tget s.sleepers k = none → (t.ctx n c).pc = (s.fut k).entry ∧ (t.ctx n c).reg 1 = (s.fut k).arg
          ∧ (t.ctx n c).fut = BitVec.ofNat 64 (s.handleOf k))
      ∧ ∀ z, tget s.sleepers k = some z → (t.ctx n c).pc = z.ctx.pc ∧ ∀ r, (t.ctx n c).reg r = z.ctx.reg r)
  ∧ (c < 16 → (x.st = .ready ∨ x.st = .blocked) → x.bud = 0 → x.midway = false → s.ctxReclaimed n c = false →
    ∃ t, exec (.budgetExpiry n c) s = .next t ∧ (t.ctx n c).st = .free ∧ t.slices.length = s.slices.length + 1 ∧ t.mem = s.mem
      ∧ (tgetD t.sleepers (futKey x.fut.toNat) {}).ctx.pc = x.pc
      ∧ (∀ r, (tgetD t.sleepers (futKey x.fut.toNat) {}).ctx.reg r = x.reg r))
  ∧ (∀ ids status result, x.st = .blocked → x.wait = some (.ending ids status result) → s.settledFor n c ids = true →
      s.ctxReclaimed n c = false → ∃ t, exec (.taskEnd n c) s = .next t
        ∧ (c < 16 → TaskOver s t n c (if status = 0 then .done else .faulted) status result)
        ∧ (16 ≤ c → ActivityOver s t n c))
  ∧ (∀ ids m, x.st = .blocked → x.wait = some (.early ids m) → s.settledFor n c ids = true →
      (s.toSignal (futKey x.fut.toNat) m = none →
        exec (.fsigDelivery n c) s = .next (s.setCtx n c { x with st := .ready, pc := x.pc + 4, wait := none }))
      ∧ ∀ g i es, s.toSignal (futKey x.fut.toNat) m = some (g, i, es) →
        exec (.fsigDelivery n c) s = .next ((s.setCtx n c { x with st := .ready, pc := x.pc + 4, wait := none }).signal g i es))
  -- a task is reclaimed in its context, once that is at its point, or where it sleeps
  ∧ (s.isReclaimed k = true → (s.fut k).graph = false → s.locate k = .inCtx n c → futKey x.fut.toNat = k →
      (x.st = .ready ∨ x.st = .blocked ∨ (x.st = .trapped ∧ c ∈ (s.sc n).trapQ)) →
    ∃ t, exec (.reclamationPoint k) s = .next t ∧ (t.ctx n c).st = .free ∧ Reclaimed (s.keepSignal k n c x) t k n x)
  ∧ (s.isReclaimed k = true → (s.fut k).graph = false → s.locate k = .inCtx n c → x.st = .trapped → c ∉ (s.sc n).trapQ →
      exec (.reclamationPoint k) s = .next s)
  ∧ (s.isReclaimed k = true → (s.fut k).graph = false → s.locate k = .asleep n →
    ∃ t, exec (.reclamationPoint k) s = .next t ∧ Reclaimed s t k n (tgetD s.sleepers k {}).ctx)
  ∧ (s.isReclaimed k = true → (s.fut k).graph = false → s.locate k = .nowhere →
    ∃ t, exec (.reclamationPoint k) s = .next t ∧ Reclaimed s t k 0 {})
  -- a graph leaves the walker, and the task of each of its nodes loses the graph's reference, once
  ∧ (s.isReclaimed k = true → (s.fut k).graph = true → ∃ t, exec (.reclamationPoint k) s = .next t ∧ (t.fut k).st = .free
      ∧ ∀ p, s.graphs.find? (fun p => p.2.fut == k) = some p →
          let js := p.2.nodes.filterMap Node.fut
          js.Nodup → k ∉ js → (t.fut k).gen = ((s.fut k).gen + 1) % 16384 ∧ (∀ q ∈ t.graphs, q.2.fut ≠ k) ∧ ∀ j ∈ js,
            let f := s.fut j
            let g := t.fut j
            (f.count ≠ 1 → g.st = f.st ∧ g.count = f.count - 1 ∧ g.held = false ∧ g.node = none)
            ∧ (f.count = 1 → f.st = .running → g.st = .reclaimed ∧ g.node = none)
            ∧ (f.count = 1 → (f.st = .done ∨ f.st = .faulted ∨ f.st = .ready) → g.st = .free))

/-- R318-R322, R324, R327-R329: an entry of an enabled queue that has published one.  A count over 2^24 or a bad FLAG address refuses it, with
REF set and LAST the status; a count of 0 closes it at once; an ordered one behind launches in flight waits; a malformed
descriptor, a chain of RCBs that does not end in the table's root, and budgets or a mask that the regions do not admit are refused; a good
TASK descriptor is accepted, while its regions fit the 2,048 that its hub's table holds: its launch exists with its fields, one
more is in flight, and HEAD moves on; a good GRAPH descriptor whose graph can be read is accepted with its graph resident.  That an
ordered entry waits unless check 1 or 2 refuses it is the model's reading (log 93). -/
def Obligations.LaunchReads : Prop := ∀ (s : State) (q : Nat),
  let d := descOf (s.nextDesc q)
  let h := q / 4096
  let v := s.cpRead h (s.nextAddr q) 64
  let x := s.queue q
  let moved (t : State) : Prop := (t.queue q).head = (x.head + 1) % 2 ^ x.log2
  let refused (status : Nat) : Prop := ∃ t, exec (.launchRead q) s = .next t ∧ moved t ∧ (t.queue q).ref = true
    ∧ (t.queue q).last = status ∧ t.launches = s.launches ∧ (t.queue q).infl = x.infl
  let held := bitNat d.flags 0 = true ∧ x.infl ≠ 0
  let r := v.readRcbs h d.rcb
  x.ready = true → x.head < 2 ^ x.log2 → 1 ≤ x.log2 →
  (flagOk' s.topo d = false → refused 0x11)
  ∧ (flagOk' s.topo d = true → 2 ^ 24 < d.count → refused 0x10)
  ∧ (flagOk' s.topo d = true → d.count ≤ 2 ^ 24 → held → exec (.launchRead q) s = .next s)
  ∧ (flagOk' s.topo d = true → d.count = 0 → ¬held →
      ∃ t, exec (.launchRead q) s = .next t ∧ moved t ∧ (t.queue q).infl = x.infl ∧ t.launches = s.launches)
  ∧ (flagOk' s.topo d = true → 1 ≤ d.count → d.count ≤ 2 ^ 24 → ¬held →
      (d.shapeOk = false → refused 0x11)
      ∧ (d.shapeOk = true → (d.rcb = 0 ∨ v.readChain 8 d.rcb = none) → refused 0x12)
      ∧ ∀ l, d.shapeOk = true → d.rcb ≠ 0 → v.readChain 8 d.rcb = some l →
        let u := r.putRegions h l
        (u.admitOk d = false → refused 0x13)
        ∧ (u.admitOk d = true → 2048 < u.regionCount h → exec (.launchRead q) s = .next s)
        ∧ (u.admitOk d = true → u.regionCount h ≤ 2048 → d.kind = 1 →
          ∃ t y, exec (.launchRead q) s = .next t ∧ moved t ∧ (t.queue q).infl = x.infl + 1 ∧ t.nextLaunch = s.nextLaunch + 1
            ∧ tget t.launches s.nextLaunch = some y ∧ y.count = d.count ∧ y.entry = BitVec.ofNat 64 d.entry
            ∧ y.arg = BitVec.ofNat 64 d.arg ∧ y.rcb = d.rcb ∧ y.queue = q ∧ y.graph = false ∧ y.t0 = s.tb
            ∧ ((∀ p ∈ s.pkts, p.2.port = cpPort h → p.2.done = true) → t.mem = s.mem))
        ∧ (u.admitOk d = true → u.regionCount h ≤ 2048 → d.kind = 2 →
          let n := u.hubSc d.rcb
          let p := u.readGraph n hubCtx d.arg
          (∀ e, p.1 = .error e → refused 0x14)
          ∧ ∀ gd ns, p.1 = .ok (gd, ns) →
            (65536 < u.residentNodes (hubOf n) + gd.n → refused 0x14)
            ∧ (u.residentNodes (hubOf n) + gd.n ≤ 65536 → u.allocFut h = none → exec (.launchRead q) s = .next s)
            ∧ ∀ k, u.residentNodes (hubOf n) + gd.n ≤ 65536 → u.allocFut h = some k →
              ∃ t y g, exec (.launchRead q) s = .next t ∧ moved t ∧ (t.queue q).infl = x.infl + 1
                ∧ tget t.launches s.nextLaunch = some y ∧ y.graph = true ∧ y.queue = q ∧ y.rcb = d.rcb
                ∧ tget t.graphs s.nextGraph = some g ∧ g.fut = k ∧ g.launch = some s.nextLaunch ∧ g.flag = gd.flag
                ∧ g.rcb = d.rcb ∧ g.sc = n ∧ g.nodes.map (fun y => { y with zeroAt := 0 }) = ns.map (fun y => { y with zeroAt := 0 })
                ∧ (t.fut k).st = .running ∧ (t.fut k).graph = true ∧ (t.fut k).count = 1 ∧ (t.fut k).launch = some s.nextLaunch))

/-- R257, R259, R260, R328: a node whose counter has reached zero acts.  A poisoned one ends poisoned and one that got only skips is skipped;
a TASK node makes a READY future of its entry and argument and runs; a COND node takes one edge set by its word and skips
the other; a WHILE node whose word is non-zero and whose cap is not reached begins an iteration, its body anew, and otherwise ends; a
JOIN ends; a TRANSFORM node issues its jobs, or ends FAULTED with the cause of an issue trap, and ends when they have completed; a word
that cannot be read ends the node FAULTED with the cause; and of nodes whose counters reached zero in one cycle those of lower index act
first.  A node that ends sends its edges, and with the last one the graph is DONE, with its RESULT.  The hub's privilege, and the edges of
a word that cannot be read, are the model's reading (log 56). -/
def Obligations.GraphNodes : Prop := ∀ (s : State) (gi i : Nat) (g : Graph) (x : Node),
  tget s.graphs gi = some g → g.nodes[i]? = some x →
  let acts (t : State) : Prop := exec (.graphNodeDispatch gi i) s = .next t
  let normal := x.poisoned = false ∧ ((if x.st = .running then x.nback else x.ndep) = 0 ∨ x.normal = true)
  let n := s.hubSc g.rcb
  let word := s.hubWord n x.p0
  let v := s.hubRead n x.p0
  let slot := slotOwner (hubOf n)
  ((x.st = .idle ∨ (x.st = .running ∧ x.kind = 4 ∧ g.bodyBusy x = false)) → x.ctr = 0 → g.behind i x = false →
    (x.poisoned = true → acts (s.endNode gi i .poison (some .poison) (some 0x41)))
    ∧ (x.poisoned = false → ¬normal → acts (s.endNode gi i .skip (some .skip) none))
    ∧ (normal → x.kind = 1 → s.allocFut (hubOf g.sc) = none → acts s)
    ∧ (∀ k, normal → x.kind = 1 → s.allocFut (hubOf g.sc) = some k → ∃ t, acts t ∧ (t.node gi i).st = .running
        ∧ (t.node gi i).fut = some k ∧ (t.fut k).st = .ready ∧ (t.fut k).entry = BitVec.ofNat 64 x.p0
        ∧ (t.fut k).arg = BitVec.ofNat 64 x.p1 ∧ t.slices.length = s.slices.length + 1 ∧ t.mem = s.mem)
    ∧ (∀ w, normal → x.kind = 3 → word = .ok w →
        acts (v.endNode gi i (if w = 0 then .normal else .skip) (some (if w = 0 then .skip else .normal)) none))
    ∧ (∀ c, normal → (x.kind = 3 ∨ x.kind = 4) → word = .error c → acts (v.endNode gi i .poison (some .poison) (some c)))
    ∧ (∀ w, normal → x.kind = 4 → word = .ok w → (w = 0 ∨ x.cap ≤ x.iters) → acts (v.endNode gi i .normal none none))
    -- an iteration of a WHILE
    ∧ (∀ w, normal → x.kind = 4 → word = .ok w → w ≠ 0 → x.iters < x.cap → x.inBody i = false → ∃ t g', acts t
        ∧ tget t.graphs gi = some g' ∧ g'.nodes.length = g.nodes.length ∧ ∀ j a, g.nodes[j]? = some a → ∃ b, g'.nodes[j]? = some b
          ∧ b.ctr = (if j = i then x.nback else if x.inBody j then a.ndep else a.ctr) - x.e1.count j
          ∧ (j = i → b.st = .running ∧ b.iters = x.iters + 1 ∧ b.poisoned = false ∧ b.normal = decide (j ∈ x.e1))
          ∧ (x.inBody j = true → b.st = .idle ∧ b.iters = 0 ∧ b.poisoned = false ∧ b.normal = decide (j ∈ x.e1) ∧ b.fut = none
              ∧ b.jobs = [] ∧ b.sent = [] ∧ b.status = 0)
          ∧ (j ≠ i → x.inBody j = false → j ∉ x.e1 → b = a))
    ∧ (normal → x.kind = 5 → acts (s.endNode gi i .normal none none))
    -- the jobs of a TRANSFORM
    ∧ (normal → x.kind = 2 →
        let r := s.nodeReads n x
        (∀ c, s.nodeIssues n 0 x = .error c → acts (r.endNode gi i .poison none (some c)))
        ∧ (x.xop = 0x96 → (∃ l, s.nodeIssues n 0 x = .ok l) → s.nodeStream n g.rcb = none → acts s)
        ∧ ∀ d l, (x.xop ≠ 0x96 ∧ d = 0 ∨ x.xop = 0x96 ∧ ∃ st, s.nodeStream n g.rcb = some (d, st)) → s.nodeIssues n d x = .ok l →
          let blocked := ∃ y ∈ l, ∃ a ∈ y.addresses, s.commitHits a = true
          (blocked → acts s)
          ∧ (∀ c a, ¬blocked → l.findSome? (s.windowTrap n) = some (c, a) →
              acts ((r.windowWalks n l).endNode gi i .poison none (some c)))
          ∧ (¬blocked → l.findSome? (s.windowTrap n) = none →
            ((s.sc n).roomFor slot l.length = false → acts s)
            ∧ ((s.sc n).roomFor slot l.length = true → ∃ t es, acts t ∧ (t.sc n).entries = (s.sc n).entries ++ es
                ∧ es.length = l.length ∧ (∀ (j : Nat) y e, l[j]? = some y → es[j]? = some e → e.Does y.work y.ends y.flag
                    ∧ e.owner = slot ∧ e.st = .waiting ∧ e.id = (s.sc n).nextEntry + j)
                ∧ (t.node gi i).st = .running ∧ (t.node gi i).jobs = es.map (fun e => (n, e.id))
                ∧ (∀ st, x.xop = 0x96 → s.nodeStream n g.rcb = some (d, st) → t.stream n d = st))))
    ∧ (∀ d l, s.nodeIssues n d x = .ok l →
        (x.xop = 0x90 → ∃ q r, s.nodeRecord n x.p0 = .ok q ∧ s.nodeRecord n x.p1 = .ok r
          ∧ l.map Issue.work = [.copy (.win q) (.win r) r.size])
        ∧ (x.xop = 0x94 → ∃ q r, s.nodeRecord n x.p0 = .ok q ∧ s.nodeRecord n x.p1 = .ok r ∧ l.map Issue.work = [.quant q r])
        ∧ (x.xop = 0x96 → ∃ va k mode tags r, s.hubWord n x.p0 = .ok va ∧ s.hubWord n (x.p0 + 8) = .ok k
          ∧ s.hubWord n (x.p0 + 16) = .ok mode ∧ s.hubWord n (x.p0 + 24) = .ok tags ∧ s.nodeRecord n x.p1 = .ok r
          ∧ 1 ≤ k ∧ k ≤ 2 ^ 20 ∧ r.size = 256 * k
          ∧ l.map Issue.work = [.decomp va k d tags (decide (mode = 1)), .store r d none])))
  ∧ (x.st = .idle → x.ctr = 0 → g.behind i x = true → acts s)
  ∧ (x.st = .running → x.kind = 2 → (∀ j ∈ x.jobs, notComplete (s.sc j.1) j.2 = false) →
      acts (s.endNode gi i .normal none none))
  ∧ (x.st = .idle → x.ctr ≠ 0 → acts s)
  ∧ ∀ k0 k1 fault, NodeOver s (s.endNode gi i k0 k1 fault) gi i k0 k1 fault

/-! ## Events of registers, base dies, the host and storage -/

/-- R11, R13, R195, R208, R271, R297, R299, R317-R319, R339, R355, R361, R395: writes of registers.  Each writes the bits it may and leaves
memory; a read-only register and an offset with none ignore a write, and a W1C bit that hardware set in the same wall cycle stays
(R13); ports move between their lock states by command, a lane to ERROR where its partner reports another fabric version (R391). -/
def Obligations.RegisterWrites : Prop := ∀ (s : State) (q n i p o : Nat) (v : Word),
  let x := s.queue q
  let rest (t : State) : Prop := t.mem = s.mem ∧ (∀ m c, t.ctx m c = s.ctx m c)
  (q < 8192 →
    (bitNat v.toNat 8 = false → ∃ t, exec (.qcfgWrite q v) s = .next t ∧ rest t ∧ (t.queue q).en = false
      ∧ (t.queue q).log2 = v.toNat % 32)
    ∧ (bitNat v.toNat 8 = true → x.en = true → exec (.qcfgWrite q v) s = .next s)
    ∧ (bitNat v.toNat 8 = true → x.en = false → 1 ≤ v.toNat % 32 → v.toNat % 32 ≤ 16 → s.ringOk q x.base (v.toNat % 32) = true →
        s.mgmt.dead = false → ∃ t, exec (.qcfgWrite q v) s = .next t ∧ rest t ∧ (t.queue q).en = true
          ∧ (t.queue q).head = x.tail % 2 ^ (v.toNat % 32))
    ∧ (∃ t, exec (.qtailWrite q v) s = .next t ∧ rest t ∧ t.queue q = { x with tail := v.toNat % 65536 })
    ∧ (bitNat v.toNat 8 = true → ∃ t, exec (.qstatRefClear q v) s = .next t ∧ rest t ∧ t.queue q = { x with ref := x.fresh })
    ∧ (bitNat v.toNat 8 = false → exec (.qstatRefClear q v) s = .next s))
  ∧ (i < 256 → s.drecV i = false → bitNat v.toNat 63 = true →
    (s.drecOk i v = true → ∃ t, exec (.drecValidate i v) s = .next t ∧ rest t ∧ t.drecV i = true
      ∧ (t.dupPage i).split = false ∧ (t.dupPage i).owned = [])
    ∧ (s.drecOk i v = false → ∃ t, exec (.drecValidate i v) s = .next t ∧ rest t ∧ t.drecV i = false))
  ∧ (s.lanesUnlocked = true → ∃ t, exec (.fidWrite v) s = .next t ∧ rest t ∧ t.fab.fid = v &&& 0xFFF)
  ∧ (s.lanesUnlocked = false → exec (.fidWrite v) s = .next s)
  ∧ (n < 16 → ((s.sc n).anySaved = false → ∃ t, exec (.kspWrite n v) s = .next t ∧ rest t
        ∧ (t.sc n).ksp = (v &&& 0x1FFFFFFF000000) ||| (if bitNat v.toNat 0 = true ∧ s.kspOk n v = true then 1 else 0))
      ∧ ∃ t, exec (.ptbWrite n v) s = .next t ∧ rest t ∧ (t.sc n).ptb = v &&& 0xFFFF01FFFFFFF000 ∧ (t.sc n).tlb = (s.sc n).tlb)
  ∧ (∃ t, exec (.plimWrite v) s = .next t ∧ rest t ∧ t.mgmt.plim = max 1600 (min (v.toNat % 4096) 3200))
  ∧ (∃ t, exec (.tthrWrite v) s = .next t ∧ rest t ∧ t.mgmt.tthr = max 60 (min (v.toNat % 256) 100))
  ∧ (∃ t, exec (.hlthClear v) s = .next t ∧ rest t
      ∧ ∀ k, t.mgmt.hlth.getLsbD k = (s.mgmt.hlth.getLsbD k && !(v.getLsbD k && decide (k = 12 ∨ k = 13 ∨ k = 15) && !s.mgmt.fresh.getLsbD k)))
  ∧ (tagOffset o = true → ∃ t, exec (.tagStoreWrite o v) s = .next t ∧ rest t ∧ t.regRead o = v)
  ∧ (frameOffset o = true → ∃ t, exec (.frameMapWrite o v) s = .next t ∧ rest t ∧ t.regRead o = v)
  ∧ (Machine.portOk p = true →
    (s.port p = .unlocked → ∃ t, exec (.portctlLock p) s = .next t ∧ rest t
      ∧ if p < 8 then t.port p = .locked else (t.port p = .locked ∨ t.port p = .error))
    ∧ (s.port p ≠ .unlocked → exec (.portctlLock p) s = .next s)
    ∧ (s.port p = .locked → ∃ t, exec (.portctlRun p) s = .next t ∧ rest t ∧ t.port p = .run)
    ∧ (s.port p ≠ .locked → exec (.portctlRun p) s = .next s)
    ∧ (s.port p ≠ .unlocked → ¬(s.port p = .run ∧ s.portBusy p = true) →
        ∃ t, exec (.portctlUnlock p) s = .next t ∧ rest t ∧ t.port p = .unlocked)
    ∧ (s.port p = .run → s.portBusy p = true → ∃ t, exec (.portctlUnlock p) s = .next t ∧ rest t ∧ t.port p = .run
        ∧ p ∈ t.unlocking)
    ∧ ∃ t, exec (.portLinkFailure p) s = .next t ∧ rest t ∧ t.port p = .error)
  ∧ (o % 8 ≠ 0 → exec (.registerWrite o v) s = .next s)
  ∧ (∀ r ∈ [0x200000, 0x200008, 0x300008, 0x300018, 0x300028, 0x400008, 0x400010], exec (.registerWrite r v) s = .next s)
  ∧ (∃ t, exec (.registerWrite 0x200100 v) s = .next t ∧ rest t ∧ t.hostlost = v)

/-- R225, R273, R278, R280, R283-R285, R287, R298, R302, R311, R314, R315: requests at a base die.  One that may perform does: a read replies the coherent bytes and
leaves memory (0xFF where a byte cannot be read); a write of plain memory puts its masked bytes there and no others; an accumulation
replies the old bytes, and each element whose bytes are all in the mask becomes Op(old, source) (a CAS: the new value where the old
one equals the compare value) and no other byte changes (R225); a write in a compressed frame stores the whole block
anew, encoded, and no other cell (R287, R298); then the reply frees the tag and fills the register that waits for it, or completes
the host's atomic.  A page walk puts the translation in the SC's TLB and its die's as the most recently used (R280); that a
walk reads the base dies and no data cache is R273's, the moment a walk happens is log 36's. -/
def Obligations.BaseDieRequests : Prop := ∀ (s : State) (id n : Nat) (p : Packet) (va : Word),
  let a := s.pktAddr p
  tget s.pkts id = some p →
  (s.pktDue id p = true →
    (p.ty = .read → ∃ t q, exec (.baseDieRead id) s = .next t ∧ SameBytes s t ∧ t.mem = s.mem ∧ tget t.pkts id = some q
      ∧ q.done = true ∧ q.status = s.dieStatus a p.len
      ∧ q.reply = (List.range p.len).map (fun i => if s.spoiledByte (a + i) then 0xFF else s.byte (a + i)))
    ∧ ((p.ty = .write ∨ p.ty = .masked) → (∀ st off, s.mode st off = 0) → s.writeStatus a p.bytes false = 0 → a % 64 + p.len ≤ 64 →
      s.Safe →
      ∃ t q, exec (if p.ty = .write then .baseDieWrite id else .baseDieMaskedWrite id) s = .next t ∧ tget t.pkts id = some q
        ∧ q.done = true ∧ q.status = 0
        ∧ (∀ k b, p.bytes[k]? = some (some b) → t.byte (a + k) = b)
        ∧ ∀ c, (∀ k b, p.bytes[k]? = some (some b) → c ≠ a + k) → t.byte c = s.byte c)
    ∧ (p.ty = .acc → ∃ t q, exec (.baseDieAccumulate id) s = .next t ∧ tget t.pkts id = some q ∧ q.done = true
        ∧ q.reply = s.replyBytes a p.len ∧ q.status = s.writeStatus a (p.accNew (s.bytes a p.len)) true
        ∧ ((∀ st off, s.mode st off = 0) → q.status = 0 → a % 64 + p.len ≤ 64 → s.Safe → (p.op = 7 → p.big = false) →
          let m := accBytes p.accFmt
          let whole (k : Nat) : Prop := k < p.len / m ∧ ∀ i < m, p.mask.getD (p.lo - p.off + m * k + i) false = true
          let src (o : Nat) : Nat := bytesNat ((p.data.drop o).take m)
          let old (k : Nat) : Nat := s.readNat (a + m * k) m
          (∀ k, whole k → t.readNat (a + m * k) m % 256 ^ m
            = (if p.op = 7 then (if old k = src (m * k) then src (32 + m * k) else old k)
               else accOp p.op p.accFmt (old k) (src (p.lo - p.off + m * k))) % 256 ^ m)
          ∧ ∀ c, (∀ k, whole k → ¬(a + m * k ≤ c ∧ c < a + m * k + m)) → t.byte c = s.byte c))
    ∧ ((p.ty = .write ∨ p.ty = .masked) → inMemory s.topo a = true →
      let blk := a - a % 256
      let st := stackOf s.topo blk
      bitNat s.topo.stks.toNat st.1 = true → s.mode st.1 st.2 ≠ 0 → stackOf s.topo a = (st.1, st.2 + a % 256) →
      ∀ bs, s.block256 blk = some bs →
      let e := milleEncode (s.mode st.1 st.2 == 2) (patch bs (a % 256) p.bytes)
      ∃ t q, exec (if p.ty = .write then .baseDieWrite id else .baseDieMaskedWrite id) s = .next t ∧ tget t.pkts id = some q
        ∧ q.done = true ∧ (q.status = 0 ∨ q.status = 1) ∧ t.tag st.1 st.2 = e.2
        ∧ (∀ i, i < e.1.length → cellGet t.mem (blk + i) = e.1.getD i 0)
        ∧ ∀ c, ¬(blk ≤ c ∧ c < blk + e.1.length) → cellGet t.mem c = cellGet s.mem c))
  ∧ (p.done = true → p.who = .none → exec (.baseDieReply id) s = .next { s with pkts := tdel s.pkts id })
  ∧ (∀ m c r k sg, p.done = true → p.who = .reg m (.ctx c) r k sg → c < 20 → 0 < r → r < 32 →
      (s.ctx m c).unfilled.contains (r + 32) = true →
      ∃ t, exec (.baseDieReply id) s = .next t ∧ tget t.pkts id = none ∧ t.mem = s.mem
        ∧ (t.ctx m c).unfilled.contains (r + 32) = false ∧ ∀ j, (t.ctx m c).reg j = if j = r then p.value k sg else (s.ctx m c).reg j)
  ∧ (∀ h k, p.done = true → p.who = .host h k → exec (.baseDieReply id) s = .next
      (if s.port h = .run then { s with pkts := tdel s.pkts id, out := s.out ++ [.host h 0 ((p.reply.drop (bytesNat p.comp)).take k)] }
       else { s with pkts := tdel s.pkts id }))
  ∧ (p.done = false → exec (.baseDieReply id) s = .next s)
  ∧ (∀ w x, (s.sc n).root = some w → canonical va.toNat = true → s.rngFor va.toNat = none → (s.sc n).tlbHit (ptbAsid w) va.toNat = none →
      s.dieHit n (ptbAsid w) va.toNat = none → s.walkPage (some w) va.toNat = some x →
      ∃ t, exec (.pageWalk n va) s = .next t ∧ SameBytes s t ∧ (t.sc n).tlb = tlbUse 64 (s.sc n).tlb (ptbAsid w) x
        ∧ tgetD t.dieTlb (n / 2) [] = tlbUse 8192 (tgetD s.dieTlb (n / 2) []) (ptbAsid w) x ∧ ∀ c, t.ctx n c = s.ctx n c)

/-- R230, R289, R310, R311, R349-R351, R355: the host and the storage ports.  A port that serves answers a read with the bytes and a
register's value, takes a posted write, makes an atomic on a SYSATOM page one accumulation packet (BASE_DIE_REPLY then answers it) and
splits any other into a read and a write; each waits for a free tag of its hub's port (log 79); any other port answers Unsupported
Request; a line is granted to the host and one that a snoop takes back unmodified is its no more; failover moves the host role
to half 1 once the half 0 link has been down for 1 s; a command that ends within a second is noted, with its status where it failed,
and one that does not fails with 0xFFFF; its bytes, or zeros, have then come for its job, which stores or publishes them.  The model's choices: a CXL grant leaves the data caches (log 64), a repeated atomic that
equals one between its halves (log 60, here shut out), the moment of the timeout (log 61). -/
def Obligations.HostAndStorage : Prop := ∀ (s : State) (r : HostReq) (k reg job cmd : Nat) (e : Entry) (j : StorageJob) (status : Half)
    (data : List Byte),
  let answers (t : State) (st : Nat) (bs : List Byte) : Prop := t.out = s.out ++ [.host r.port st bs]
  (s.servesReq r = false →
    (∃ t, exec (.hostRead r) s = .next t ∧ answers t 1 [] ∧ SameBytes s t) ∧ exec (.hostWrite r) s = .next s
    ∧ (∃ t, exec (.hostAtomic r) s = .next t ∧ answers t 1 [] ∧ SameBytes s t))
  ∧ (s.servesReq r = true → r.space ≠ .bar0 → (r.space ≠ .cxl ∨ s.hostLines = []) →
    let word := (r.size = 4 ∨ r.size = 8) ∧ r.addr % r.size = 0
    -- a request waits for a tag of its hub's port
    (s.hostTags r = false → exec (.hostRead r) s = .next s ∧ exec (.hostWrite r) s = .next s
      ∧ (word → exec (.hostAtomic r) s = .next s))
    ∧ (s.hostTags r = true → s.earlier (hostPort r.port) r.addr r.size = [] →
      (∃ t, exec (.hostRead r) s = .next t ∧ answers t 0 (s.bytes r.addr r.size) ∧ SameBytes s t)
      ∧ exec (.hostWrite r) s = .next (s.write r.addr r.data)
      ∧ (word → s.sysatomAt r.addr = false → (∀ p ∈ s.hostRmw, p.1 ≠ r) →
        ∃ t, exec (.hostAtomic r) s = .next t ∧ t.hostRmw = s.hostRmw ++ [(r, s.readNat r.addr r.size)] ∧ SameBytes s t ∧ t.out = s.out))
    ∧ (s.hostTags r = true → word → s.sysatomAt r.addr = true → (∀ p ∈ s.hostRmw, p.1 ≠ r) →
        exec (.hostAtomic r) s = .next (s.send (s.atomicPacket r)))
    ∧ (∀ old, s.hostTags r = true → word → s.hostRmw.find? (fun p => p.1 == r) = some (r, old) → s.freeVal % 2 = 0 →
        ∃ t, exec (.hostAtomic r) s = .next t ∧ t.hostRmw = s.hostRmw.erase (r, old) ∧ answers t 0 (natBytes r.size old)
          ∧ t.mem = (s.write r.addr (natBytes r.size (atomicResult r old))).mem))
  ∧ (s.servesReq r = true → r.space = .bar0 → r.size = 8 → r.addr % 8 = 0 →
    (∃ t, exec (.hostRead r) s = .next t ∧ answers t 0 (natBytes 8 (s.regRead r.addr).toNat) ∧ SameBytes s t)
    ∧ exec (.hostWrite r) s = .next (s.regWrite r.addr (BitVec.ofNat 64 (bytesNat r.data))))
  ∧ (∀ excl, s.serves 0 = true → inMemory s.topo (64 * k) = true →
      (s.hostLines.filter (fun p => lineHalf p.1 == lineHalf k && p.1 != k)).length < dirLines →
      ∃ t, exec (.cxlCacheRequest k excl) s = .next t ∧ (k, excl) ∈ t.hostLines
        ∧ ∀ p ∈ s.hostLines, p.1 ≠ k → p ∈ t.hostLines)
  ∧ (s.port 0 = .run → (k, true) ∈ s.snoops → ∃ t, exec (.bisnpResponse k none) s = .next t ∧ SameBytes s t ∧ (∀ p ∈ t.snoops, p.1 ≠ k)
      ∧ (∀ p ∈ t.hostLines, p.1 ≠ k))
  ∧ (s.port 0 ≠ .run ∨ (∀ p ∈ s.snoops, p.1 ≠ k) → exec (.bisnpResponse k none) s = .next s)
  ∧ (s.topo.acthost = false → halfLost s.topo 1 = false → s.hostGone = true → ∃ t, exec .hostLinkTimeout s = .next t
      ∧ t.topo.acthost = true ∧ t.hostLines = [] ∧ SameBytes s t)
  ∧ (s.topo.acthost = true ∨ halfLost s.topo 1 = true ∨ s.hostGone = false → exec .hostLinkTimeout s = .next s)
  ∧ (k < 2 → ∃ t, exec (.configurationRequest k reg) s = .next t ∧ t.out = s.out ++ [.config k reg] ∧ SameBytes s t)
  ∧ ((s.sc (job % 16)).entry? (job / 16) = some e → e.work.storage = some j → e.awaits cmd = true →
    let b := (j.cmds[cmd]?).getD (0, 0)
    let ends (i : Instr) (st : Nat) (bs : List Byte) : Prop := ∃ t, exec i s = .next t ∧ SameBytes s t
      ∧ (t.sc (job % 16)).entry? (job / 16) = some { e with
          parts := tput e.parts cmd (), mid := tputs e.mid (b.1 * j.lb) bs,
          fails := if st = 0 then e.fails else e.fails ++ [(b.1, st)] }
    (s.port (2 + j.port) = .run → s.cmdLate e cmd = false →
      ends (.nvmeCompletion job cmd status data) status.toNat
        (if status = 0 then cmdBytes (b.2 * j.lb) data else List.replicate (b.2 * j.lb) 0))
    ∧ (s.port (2 + j.port) ≠ .run ∨ s.cmdLate e cmd = true → exec (.nvmeCompletion job cmd status data) s = .next s)
    ∧ (s.cmdLate e cmd = false → exec (.nvmeTimeout job cmd) s = .next s)
    ∧ (s.cmdLate e cmd = true → ends (.nvmeTimeout job cmd) 0xFFFF (List.replicate (b.2 * j.lb) 0)))

/-! ## Events of the module: losses, boot, identity, power, and the fabric -/

/-- R337, R352-R354: losses.  A lost die leaves TOPO and its clusters' entries and runs are gone; a lost stack or bridge link leaves TOPO
and memory as it stands; with the last bridge link, both halves live, the package splits, and the
minor half sets REPLACE and SPLIT_MINOR in its own HLTH (which the model holds beside the majority's, log 59); a lost hub takes its half, and the
last one ends the module.  Each sets HLTH.REPLACE; what is already lost is not lost again.  What else a split does is log 58's and 59's reading. -/
def Obligations.Losses : Prop := ∀ (s : State) (d k l h : Nat) (core : Bool),
  let replace (t : State) : Prop := bitNat t.mgmt.hlth.toNat 63 = true
  (d < 8 → bitNat s.topo.dies.toNat d = true → ∃ t, exec (.dieLoss d core) s = .next t ∧ replace t
    ∧ (∀ i, i < 8 → bitNat t.topo.dies.toNat i = (bitNat s.topo.dies.toNat i && i != d)) ∧ t.topo.stks = s.topo.stks
    ∧ ∀ n, n = 2 * d ∨ n = 2 * d + 1 → (t.sc n).stopped = true ∧ (t.sc n).entries = [] ∧ (t.sc n).runs = [])
  ∧ (k < 8 → bitNat s.topo.stks.toNat k = true → ∃ t, exec (.stackLoss k) s = .next t ∧ replace t ∧ t.mem = s.mem
    ∧ (∀ i, i < 8 → bitNat t.topo.stks.toNat i = (bitNat s.topo.stks.toNat i && i != k)) ∧ t.scs = s.scs)
  ∧ (l < 2 → bitNat s.topo.brg.toNat l = true → ∃ t, exec (.bridgeLinkFailure l) s = .next t ∧ replace t
    ∧ bitNat t.topo.brg.toNat l = false
    ∧ (bitNat s.topo.brg.toNat (1 - l) = true → t.mem = s.mem ∧ t.scs = s.scs ∧ t.topo.split = s.topo.split)
    ∧ (bitNat s.topo.brg.toNat (1 - l) = false → s.topo.halves = 3 → t.topo.split = true ∧ t.topo.halves ≠ 3
      ∧ bitNat t.mgmt.minorHlth.toNat 63 = true ∧ bitNat t.mgmt.minorHlth.toNat 14 = true))
  ∧ (h < 2 → bitNat s.topo.halves.toNat h = true → ∃ t, exec (.hubLoss h) s = .next t ∧ replace t
    ∧ bitNat t.topo.halves.toNat h = false ∧ (bitNat s.topo.halves.toNat (1 - h) = false → t.mgmt.dead = true))
  ∧ (bitNat s.topo.dies.toNat d = false → exec (.dieLoss d core) s = .next s)
  ∧ (bitNat s.topo.stks.toNat k = false → exec (.stackLoss k) s = .next s)

/-- R388-R395: bring-up and management.  These clauses are the model's choice and no rule's: memory keeps its bytes over a reset (log 20);
firmware may have raised the minimum SVN and revoked keys before one (log 8); the layout of the answers, content and then signature, and
the silence to another SPDM version (log 63); and the power steps, when they are taken and taken back, and until when a die is held
(log 62).  A module reset boots the first image that passes, from reset values over the memory's bytes,
with two system contexts' registers as after reset, or stops when neither does; identity requests answer with the chain, the
signed nonce and the signed digest, and one of another SPDM version than 1.3 with nothing (R391); a thermal trip stops every link; a
power sample steps the dies over a limit down, and each die up once everything has been below its limits for 1 ms, and holds the hottest
die for a limit that step 7 does not hold, until that limit holds (R393); after a trip it only takes the readings (R394, R395). -/
def Obligations.BootIdentityAndPower : Prop := ∀ (s : State) (b : BootInput) (ver slot i : Nat) (nonce bs : List Byte) (p : PowerSample),
  let good := imageOk s.fused b.imageA = true ∨ imageOk s.fused b.imageB = true
  (good → ¬(b.bridges = 0 ∧ (bootTopo b).halves = 3) → ∃ t, exec (.moduleReset b) s = .next t ∧ t.mem = s.mem ∧ t.topo = bootTopo b
    ∧ t.tb = 0 ∧ t.futs = [] ∧ t.queues = [] ∧ t.mgmt.dead = false ∧ s.mgmt.minSvn ≤ t.mgmt.minSvn
    ∧ (∀ n, n < 16 → (bootTopo b).cores.getD n 0 ≠ 0 → t.sc n = bootSc)
    ∧ (bitNat t.mgmt.hlth.toNat 61 = true ↔ imageOk s.fused b.imageA = false))
  ∧ (¬good → ∃ t, exec (.moduleReset b) s = .next t ∧ t.mem = s.mem ∧ t.mgmt.dead = true ∧ t.mgmt.hlth = 1 <<< 60)
  ∧ (∃ t, exec (.getCertificate ⟨0x13, slot⟩) s = .next t ∧ t = s.emit (.spdm (Config.certificate slot)))
  ∧ (∃ t, exec (.challenge ⟨0x13, nonce⟩) s = .next t ∧ t = s.emit (.spdm (nonce ++ Config.edSign nonce)))
  ∧ (s.measured i = some bs → ∃ t, exec (.getMeasurements ⟨0x13, i⟩) s = .next t ∧ t.mem = s.mem ∧ t.scs = s.scs
    ∧ t.out = s.out ++ [.spdm (Config.sha512 bs ++ Config.edSign (Config.sha512 bs))])
  ∧ (s.measured i = none → exec (.getMeasurements ⟨0x13, i⟩) s = .next s)
  ∧ (ver ≠ 0x13 → ∀ x ∈ [Instr.getCertificate ⟨ver, slot⟩, .challenge ⟨ver, nonce⟩, .getMeasurements ⟨ver, i⟩], exec x s = .next s)
  ∧ (∃ t, exec .thermalTrip s = .next t ∧ t.mgmt.tripped = true ∧ t.fab.links = [] ∧ t.mem = s.mem
    ∧ bitNat t.mgmt.hlth.toNat 62 = true ∧ bitNat t.mgmt.hlth.toNat 63 = true)
  ∧ ((s.mgmt.sampled = none ∨ ∃ x, s.mgmt.sampled = some x ∧ x + 100000 ≤ s.tb) → s.mgmt.tripped = true →
      exec (.powerSample p) s = .next { s with
        mgmt := { s.mgmt with mw := p.meanMW % 2 ^ 32, temp := dieTemp p (hottest p), sampled := some s.tb } })
  ∧ ((s.mgmt.sampled = none ∨ ∃ x, s.mgmt.sampled = some x ∧ x + 100000 ≤ s.tb) → s.mgmt.tripped = false → ∃ t, exec (.powerSample p) s = .next t
    ∧ t.mem = s.mem ∧ t.scs = s.scs ∧ t.mgmt.mw = p.meanMW % 2 ^ 32 ∧ t.mgmt.sampled = some s.tb
    ∧ (∀ d, d < 8 → (1000 * s.mgmt.plim < p.meanMW ∨ s.mgmt.tthr < (p.temps.getD d 0).toNat) →
        t.mgmt.steps.getD d 0 = (s.mgmt.why.getD d []).length + (if (s.mgmt.why.getD d []).length < 7 then 1 else 0))
    ∧ (1000 * s.mgmt.plim < p.meanMW → (∃ d < 8, (s.mgmt.why.getD d []).length < 7) → bitNat t.mgmt.hlth.toNat 0 = true)
    ∧ (∀ x d, s.mgmt.calm = some x → x + 1000000 ≤ s.tb → d < 8 → p.meanMW * 100 ≤ 95000 * s.mgmt.plim →
        (∀ e < 8, (p.temps.getD e 0).toNat + 5 ≤ s.mgmt.tthr) → t.mgmt.steps.getD d 0 = (s.mgmt.why.getD d []).length - 1)
    -- dies that start no run
    ∧ (p.meanMW ≤ 1000 * s.mgmt.plim → t.mgmt.heldPower = [])
    ∧ ((∀ d < 8, (p.temps.getD d 0).toNat ≤ s.mgmt.tthr) → t.mgmt.heldTemp = [])
    ∧ (1000 * s.mgmt.plim < p.meanMW → (∀ d < 8, s.mgmt.steps.getD d 0 = 7) → hottest p ∈ t.mgmt.heldPower)
    ∧ (∀ d < 8, s.mgmt.tthr < (p.temps.getD d 0).toNat → s.mgmt.steps.getD d 0 = 7 → hottest p ∈ t.mgmt.heldTemp)
    ∧ (∀ d < 8, (p.temps.getD d 0).toNat ≤ (p.temps.getD (hottest p) 0).toNat)
    ∧ ((∃ d < 8, 110 ≤ (p.temps.getD d 0).toNat) → t.mgmt.tripped = true))
  ∧ (∀ x, s.mgmt.sampled = some x → s.tb < x + 100000 → exec (.powerSample p) s = .next s)

/-- R363, R364, R367-R371, R380, R381: links.  A slot starts once; its window ends; at the nanosecond of
a position a lane with nothing to send sends a filler's 2,176 bytes, and a frame whose CRC is bad is counted and asked for again; a
received filler's hop part is taken there; a relay frame is held, or dropped when the store is full or its destination dead; a failed lane
leaves TOPOLANE with its port in ERROR; a frame made ready once a slot has begun is not assigned in it; a package from which nothing
valid has come in two whole cycles is dead (cycles of the calendar: the model's reading, log 91).  What the partner sent is an input
(log 48); that a lane takes each position at most once is log 51's. -/
def Obligations.Links : Prop := ∀ (s : State) (lane q n : Nat) (x : Link) (k : Nat) (f : Frame) (hop : Hop) (rest : List RxItem),
  (s.windowOver = true → ∃ t, exec .payloadWindowEnd s = .next t ∧ t.fab.slot = 0 ∧ t.fab.links = [] ∧ t.mem = s.mem)
  ∧ (s.windowOver = false → exec .payloadWindowEnd s = .next s)
  ∧ (s.fab.begun ≠ s.slotNo + 1 → ∃ t, exec .slotStart s = .next t ∧ t.fab.slot = s.slotNo + 1 ∧ t.fab.begun = s.slotNo + 1
      ∧ t.mem = s.mem
      ∧ (s.hopeless s.slotNo = [] → s.fab.slot = 0 → ∀ y ∈ s.fab.queue, y.assigned = false → 2000 * s.slotNo ≤ y.ready → y ∈ t.fab.queue))
  ∧ (s.fab.begun = s.slotNo + 1 → exec .slotStart s = .next s)
  ∧ (tget s.fab.links lane = some x → s.positionNow = some k → x.pos ≤ k → s.laneLive lane = true → s.isDead x.partner = false →
    x.resend = [] → (102 < k ∨ s.nextNew lane x = none) →
    (∃ t y, exec (.framePosition lane none) s = .next t ∧ t.out = s.out ++ [.frame lane (wireFrame (s.hopOf lane x) none)] ∧ t.mem = s.mem
      ∧ tget t.fab.links lane = some y ∧ y.pos = k + 1 ∧ y.sent = x.sent)
    ∧ (hop.livemap = 0 → ∃ t y, exec (.filler lane hop) s = .next t ∧ t.fab.rx = s.fab.rx ∧ t.mem = s.mem ∧ tget t.fab.links lane = some y
        ∧ y = { ({ x with pos := k + 1, liveidx := (x.liveidx + 1) % 64 } : Link).acks hop with valid := true }
        ∧ tget t.fab.silent x.partner = some ((s.fab.slot - 1) / s.calC + 1) ∧ tget t.fab.farLanes x.partner = some hop.lanes
        ∧ tget t.fab.farSpace x.partner = some hop.fspace.toNat)
    ∧ (∀ rx : RxFrame, rx.crcOk = false → ∃ t y, exec (.framePosition lane (some rx)) s = .next t ∧ tget t.fab.links lane = some y
        ∧ y.nack = true ∧ tgetD t.fab.ctr 0 0 = tgetD s.fab.ctr 0 0 + 1 ∧ t.fab.rx = s.fab.rx))
  ∧ (tget s.fab.links lane = some x → (s.positionNow = none ∨ (s.positionNow = some k ∧ k < x.pos)) →
      exec (.framePosition lane none) s = .next s ∧ exec (.filler lane hop) s = .next s)
  ∧ (s.fab.rx = .relay lane f :: rest →
    (s.isDead f.dst.toNat = true → ∃ t, exec (.relayFrame lane f) s = .next t ∧ t.fab = { s.fab with rx := rest })
    ∧ (s.isDead f.dst.toNat = false → (s.fab.relay.filter (fun y => y.1 == lane / 24)).length < relayCap →
        ∃ t, exec (.relayFrame lane f) s = .next t ∧ t.fab.relay = s.fab.relay ++ [(lane / 24, f)] ∧ t.fab.rx = rest)
    ∧ (s.isDead f.dst.toNat = false → relayCap ≤ (s.fab.relay.filter (fun y => y.1 == lane / 24)).length →
        ∃ t, exec (.relayFrame lane f) s = .next t ∧ t.fab.relay = s.fab.relay ∧ t.fab.rx = rest
          ∧ tgetD t.fab.ctr 4 0 = tgetD s.fab.ctr 4 0 + 1))
  ∧ (lane < 48 → ∃ t, exec (.laneFailure lane) s = .next t ∧ t.port (8 + lane) = .error ∧ t.mem = s.mem
    ∧ (∀ j, j < 48 → bitNat t.topo.lanes.toNat j = (bitNat s.topo.lanes.toNat j && j != lane)) ∧ bitNat t.mgmt.hlth.toNat 63 = true)
  ∧ (tget s.fab.silent q = some n → n + 2 ≤ s.slotNo / s.calC → ∃ t, exec (.livenessTimeout q) s = .next t ∧ t.isDead q = true
    ∧ t.mem = s.mem)
  ∧ (tget s.fab.silent q = some n → s.slotNo / s.calC < n + 2 → exec (.livenessTimeout q) s = .next s)

/-- R225, R233, R373-R379, R383, R391: frames.  A received frame of each kind is taken and accepted or discarded: one for another package, or of no
session, has no effect; a stale one has none; one that fails its tag is counted; a new unordered one is performed.  A data frame of an
admitted operation writes or combines its bytes (a GETREQ's none), is held while a descriptor frame is still to come (that the
target knows it is the model's reading, log 52), and of a rejected operation changes no byte; a descriptor frame lets the held ones perform.
Once every frame of an operation has come, its flag is raised, its handler arrives or a get's data go, all read before its flag is
raised, and it is acknowledged.
GETDATA and ACK end the operation at its source.  One not acknowledged in time is sent again, and abandoned
after eight; a new session or key of SPDM 1.3 starts its counters afresh (what a rejected get brings, log 53; the keys, log 54). -/
def Obligations.FramesAndSessions : Prop := ∀ (s : State) (f : Frame) (rest : List RxItem) (dst op q : Nat) (x : Session) (o : RemoteOp)
    (z : InOp) (d bs : List Byte) (a n : Nat),
  let u := s.modFab (fun b => { b with rx := rest })
  (s.fab.rx = .frame f :: rest →
    (f.op = 0 → f.desc = false → exec (.put f) s = .next (u.accept f))
    ∧ (f.op = 1 → f.desc = false → exec (.puth f) s = .next (u.accept f))
    ∧ (f.op = 2 → f.desc = false → exec (.getreq f) s = .next (u.accept f))
    ∧ (f.op = 3 → exec (.getdata f) s = .next (u.accept f))
    ∧ (f.op = 4 → f.desc = false → exec (.acc f) s = .next (u.accept f))
    ∧ (f.op = 5 → exec (.sig f) s = .next (u.accept f))
    ∧ (f.op = 6 → exec (.ack f) s = .next (u.accept f))
    ∧ (f.desc = true → (f.op = 0 ∨ f.op = 1 ∨ f.op = 2 ∨ f.op = 4) → exec (.descriptorFrame f) s = .next (u.accept f)))
  ∧ (s.fab.rx.head? ≠ some (.frame f) → ∀ i ∈ [Instr.put f, .puth f, .getreq f, .getdata f, .acc f, .sig f, .ack f, .descriptorFrame f],
      exec i s = .next s)
  ∧ (f.dst.toNat ≠ s.pkgid → s.accept f = s)
  ∧ (s.session f.src.toNat = none → s.accept f = s)
  ∧ (f.dst.toNat = s.pkgid → s.session f.src.toNat = some x →
    (openFrame x s.tb f = none → tgetD (s.accept f).fab.ctr 5 0 = tgetD s.fab.ctr 5 0 + 1 ∧ (s.accept f).mem = s.mem)
    ∧ (∀ bs, openFrame x s.tb f = some (bs, false) → f.iv.toNat + ivWindow < x.high → s.accept f = s)
    ∧ (∀ bs, openFrame x s.tb f = some (bs, false) → ivSort x.high x.seen f.iv.toNat = .fresh → f.ord = false →
        let iv := f.iv.toNat
        s.accept f = (s.modSession f.src.toNat (fun y => { y with high := max y.high iv, seen := ivSeen y.high y.seen iv })).performFrame f (bs.take f.len.toNat)))
  ∧ (tget s.fab.inops (inKey f) = some z → sameOp z.first f = true → z.finished = false → s.inOp f = z)
  ∧ ((∀ y, tget s.fab.inops (inKey f) = some y → sameOp y.first f = false ∨ y.finished = true) →
      s.inOp f = { first := f, expect := f.desc || f.described || f.op == 1 || f.op == 5 })
  ∧ ((f.op = 0 ∨ f.op = 1 ∨ f.op = 2 ∨ f.op = 4) → f.desc = false →
    let y := s.inOp f
    let w := { y with bytes := if f.op = 2 then f.oplen.toNat else y.bytes + bs.length }
    let at' := localOf f.opaddr.toNat + f.off.toNat
    ((y.rejected = true ∨ s.rangeOk f = false) → (s.performFrame f bs).mem = s.mem
      ∧ tgetD (s.performFrame f bs).fab.ctr 6 0 = tgetD s.fab.ctr 6 0 + (if y.rejected then 0 else 1)
      ∧ ∃ g, tget (s.performFrame f bs).fab.inops (inKey f) = some g ∧ g.rejected = true)
    ∧ (y.rejected = false → s.rangeOk f = true → y.expect = true → y.desc = none →
      s.performFrame f bs = s.putInOp f { w with parts := y.parts ++ [(f, bs)] })
    ∧ (y.rejected = false → s.rangeOk f = true → (y.expect = false ∨ y.desc.isSome = true) →
      s.performFrame f bs = (if f.op = 4 then s.accBytesAt f.aop.toNat (if f.afmt = 0 then 16 else f.afmt.toNat) at' bs
        else if f.op = 2 then s else s.write at' bs).tryOp f w))
  ∧ ((f.op = 0 ∨ f.op = 1 ∨ f.op = 2 ∨ f.op = 4) → f.desc = true → z = s.inOp f →
    ((z.rejected = true ∨ s.rangeOk f = false ∨ s.flagOk f bs = false) → (s.performFrame f bs).mem = s.mem)
    ∧ (∀ g gs, z.rejected = false → s.rangeOk f = true → s.flagOk f bs = true → z.parts = [(g, gs)] →
      g.op = 0 → s.performFrame f bs = (s.write (localOf g.opaddr.toNat + g.off.toNat) gs).tryOp f
        { z with desc := some bs, expect := true, parts := [] }))
  ∧ (z.whole f = false → s.tryOp f z = s.putInOp f z)
  ∧ (z.whole f = true →
    let u := s.putInOp f { z with finished := true }
    let flag := localOf (descWord d 0)
    let ack (t : State) : State := t.sendAck f.src.toNat f.opid.toNat 0
    ((f.op = 0 ∨ f.op = 4) → z.desc = none → s.tryOp f z = ack u)
    ∧ ((f.op = 0 ∨ f.op = 4) → z.desc = some d → s.tryOp f z = ack (if descWord d 0 = 0 then u else u.addFlag flag 1))
    ∧ (f.op = 5 → z.desc = some d → descWord d 1 = 0 → descWord d 2 = 0 → s.tryOp f z = ack (u.addFlag flag (descWord d 3)))
    ∧ (f.op = 1 → z.desc = some d → s.tryOp f z = (if descWord d 0 = 0 then u else u.addFlag flag 1).arrive
        { sc := f.hsc.toNat, arrival := { pc := BitVec.ofNat 64 (descWord d 1), arg := BitVec.ofNat 64 (descWord d 2), src := f.src.toNat },
          ack := some (f.src.toNat, f.opid.toNat) })
    -- a get reads its whole range before its flag is raised
    ∧ (f.op = 2 → let a := localOf f.opaddr.toNat
        let r := u.noteRead a f.oplen.toNat
        let bs := u.bytes a f.oplen.toNat
        (z.desc = none → s.tryOp f z = ack (r.getData f bs))
        ∧ (z.desc = some d → s.tryOp f z = ack ((if descWord d 0 = 0 then r else r.addFlag flag 1).getData f bs))))
  ∧ (inMemory s.topo a = true → a % 32 + 8 ≤ 32 → (∀ st off, s.mode st off = 0) → s.ueSectors = [] → s.topo.stks = 0xFF → s.Safe →
    (s.addFlag a n).readNat a 8 = (s.readNat a 8 + n) % 2 ^ 64 ∧ ∀ c, ¬(a ≤ c ∧ c < a + 8) → (s.addFlag a n).byte c = s.byte c)
  ∧ (tget s.fab.ops (inKey f) = some o → f.op = 3 → o.get = true →
    let got := (bs.zipIdx).foldl (fun t p => tput t (f.off.toNat + p.2) p.1) o.got
    (s.performFrame f bs).mem = s.mem
      ∧ tget (s.performFrame f bs).fab.ops (inKey f) = (if o.len ≤ got.length then none else some { o with got := got }))
  ∧ (f.op = 6 → bs.length = 4 → tget s.fab.ops (opKey f.src.toNat (fieldAt bs 0 1)) = some o →
    (s.performFrame f bs).mem = s.mem
    ∧ (o.get = false → tget (s.performFrame f bs).fab.ops (opKey f.src.toNat (fieldAt bs 0 1)) = none)
    ∧ (o.get = true → fieldAt bs 1 1 = 0 → o.got.length < o.len →
        tget (s.performFrame f bs).fab.ops (opKey f.src.toNat (fieldAt bs 0 1)) = some { o with acked := true }))
  ∧ (tget s.fab.ops (opKey dst op) = some o → o.acked = false → o.since ≠ 0 → o.since + 4 * s.calC ≤ s.slotNo + 1 →
    (o.sends < 8 → ∃ t y, exec (.e2eTimeout dst op) s = .next t ∧ t.mem = s.mem ∧ tget t.fab.ops (opKey dst op) = some y
      ∧ y.sends = o.sends + 1 ∧ y.since = s.slotNo + 1 ∧ y.frames = o.frames)
    ∧ (8 ≤ o.sends → ∃ t, exec (.e2eTimeout dst op) s = .next t ∧ t.mem = s.mem ∧ tget t.fab.ops (opKey dst op) = none))
  ∧ (tget s.fab.ops (opKey dst op) = some o → o.acked = true → exec (.e2eTimeout dst op) s = .next s)
  ∧ (tget s.fab.ops (opKey dst op) = some o → s.slotNo + 1 < o.since + 4 * s.calC → exec (.e2eTimeout dst op) s = .next s)
  ∧ (∃ t y, exec (.spdmSession ⟨0x13, q⟩) s = .next t ∧ tget t.fab.sessions q = some y ∧ y.iv = 0 ∧ y.high = 0 ∧ y.seen = [] ∧ y.txFlow = 0
      ∧ y.rxFlow = 0 ∧ y.failed = false ∧ t.mem = s.mem)
  ∧ (n ≠ 0x13 → exec (.spdmSession ⟨n, q⟩) s = .next s)
  ∧ (s.session q = some x → ∃ t y, exec (.keyUpdate q) s = .next t ∧ t.session q = some y ∧ y.iv = 0 ∧ y.oldKey = x.rxKey
      ∧ y.oldUntil = s.tb + 4000 * s.calC ∧ y.txFlow = x.txFlow ∧ y.rxFlow = x.rxFlow ∧ t.mem = s.mem)
  ∧ (s.session q = none → exec (.keyUpdate q) s = .next s)

/-! ## The whole machine -/

/-- Every instruction, every operation and every event has a meaning that answers a next state in every state, and so does a step:
the spec describes the effect of each, or the trap, status or loss it ends in. -/
def Obligations.EveryInstructionRuns : Prop :=
  (∀ (i : Instr) (s : State), ∃ t, exec i s = .next t) ∧ ∀ s : State, s.GoesOn

/-- R15, R20, R55, R165, R198, R203, R247, R333: a step runs what stands where execution stands.  The turn is
the agenda's first, or one the configuration leaves open (log 1), and `u` is the state when it begins.  A control
core's turn issues the word at the pc of the first context that can issue: the instruction it decodes to, ILLEGAL where
it is none, FETCH where the fetch fails; a run's turn issues the operations of the bundle at its pc, one syllable after the
other, once its fixed stalls are paid; an event's turn is the event.  Before a context's instruction come its reclamation point, a spent
budget and a due trap, in the order of log 76; an LDM or STM that has begun is at no boundary and goes on.  What follows a turn at
once is `afterTurn`; after a thermal trip nothing does (R394). -/
def Obligations.StepRunsTheDecodedInstruction : Prop := ∀ s : State,
  let turn := s.takeTurn.1
  let u := (s.takeTurn.2.advance turn.ns turn.cyc).expireBlocked
  (∀ x rest, s.agenda = x :: rest → s.takeTurn = (x, { s with agenda := rest }))
  ∧ (s.agenda = [] → s.takeTurn = (Config.turn s.turnNo, { s with turnNo := s.turnNo + 1 }))
  ∧ (u.mayAct turn.who = false → step s = .next u)
  ∧ (u.mayAct turn.who = true →
  (∀ n c, turn.who = .context n → u.nextCtx n = some c →
    -- an LDM or STM that has begun goes on, without a fetch
    (∀ p k rest w i t, (u.ctx n c).wait = some (.parts p k rest w) → decodeWord w = .ok i → exec i (u.atCtx n c) = .next t →
        step s = .next (u.afterTurn t))
    ∧ ((u.ctx n c).midway = false → u.ctxReclaimed n c = true → ∀ t, exec (.reclamationPoint (futKey (u.ctx n c).fut.toNat)) u = .next t → step s = .next (u.afterTurn t))
    ∧ (u.ctxReclaimed n c = false → c < 16 → (u.ctx n c).bud = 0 → (u.ctx n c).midway = false →
        ∀ t, exec (.budgetExpiry n c) u = .next t → step s = .next (u.afterTurn t))
    ∧ ((u.ctx n c).midway = false → u.ctxReclaimed n c = false → ¬(c < 16 ∧ (u.ctx n c).bud = 0) → (u.ctx n c).trapDue = true →
        ∀ t, exec (.asyncTrap n c) u = .next t → step s = .next (u.afterTurn t)))
  ∧ (∀ n c, turn.who = .context n → u.nextCtx n = some c → (u.ctx n c).midway = false → u.ctxReclaimed n c = false →
    ¬(c < 16 ∧ (u.ctx n c).bud = 0) → (u.ctx n c).trapDue = false →
    let pc := (u.ctx n c).pc
    let v := u.afterFetch n c
    let fetches (i : Instr) : Prop := ∀ t, exec i v = .next t → step s = .next (u.afterTurn t)
    (∀ x i, u.xlat n pc.toNat = some x → x.x = true → pc.toNat % 4 = 0 → inRegs (localOf x.pa) = false →
      decodeWord (BitVec.ofNat 32 (bytesNat (u.bytes (localOf x.pa) 4))) = .ok i → fetches i)
    ∧ (∀ x e, u.xlat n pc.toNat = some x → x.x = true → pc.toNat % 4 = 0 → inRegs (localOf x.pa) = false →
      decodeWord (BitVec.ofNat 32 (bytesNat (u.bytes (localOf x.pa) 4))) = .error e →
      fetches (.illegalInstruction (BitVec.ofNat 32 (bytesNat (u.bytes (localOf x.pa) 4)))))
    ∧ (u.xlat n pc.toNat = none → fetches (.fetchFault pc))
    ∧ (∀ x, u.xlat n pc.toNat = some x → x.x = false → fetches (.fetchFault pc)))
  ∧ (∀ n, turn.who = .context n → u.nextCtx n = none → step s = .next (u.afterTurn u))
  ∧ (∀ n k, turn.who = .run n k →
    let m := u.markRipe n
    (m.run n k).phase = .running → (m.run n k).preempt = false → (m.run n k).stop = false →
    (m.run n k).halted = false → (m.run n k).idle = 0 →
    let w := m.modRun n k (fun r => r.payStalls (m.bundleAt n r))
    let r := w.run n k
    let v : State := { w.setRun n k (r.landAll.beginBundle (w.bundleAt n r)) with cur := { w.cur with sc := n, run := k } }
    (∀ t, issueSyls exec (List.range 14) v = .next t → step s = .next (u.afterTurn (w.closeBundle n k t)))
    ∧ ∀ (w t : State) (j : Nat) (js : List Nat) (sl : Slot) (i : Instr), slotOf j = some sl →
        decodeSyllable sl (w.myRun.bundle.getD j 0) = some i → exec i { w with cur := { w.cur with syl := j } } = .next t →
        issueSyls exec (j :: js) w = issueSyls exec js t)
  ∧ (∀ i t, turn.who = .event i → isEvent i = true → exec i u = .next t → step s = .next (u.afterTurn t)))
  ∧ ∀ t, t.mgmt.tripped = true → t.hits = [] → u.afterTurn t = t

/-- Words that the spec writes out beside their assembly text, and what they decode to: R102 (bany, kret), R111 (mov and fext in an I
slot), R112 (chkeq), R129 (tmma), R202 (FENCE.pkg), R209 (TRAP), R251 (BARRD), R255 (WAITGE), R277 (XLAT, RNGSET). -/
def Obligations.WrittenWordsDecode : Prop :=
  decodeOk .ctl 0x0E000005 = some (.ctlBany 2 5) ∧ decodeOk .ctl 0x34000703 = some (.ctlKret 7 3)
  ∧ decodeOk .i 0xF00E0100 = some (.iMov 0 14 1) ∧ decodeOk .i 0xB40E00D0 = some (.iFext 0 14 0 0xD0)
  ∧ decodeOk .hk 0x000103F0 = some (.hkChkeq 0 3 0xF0) ∧ decodeOk .tm 0x0C0301D0 = some (.tmTmma 3 1 0xD0)
  ∧ decodeWord 0x43000002 = .ok .fencePkg ∧ decodeWord 0x44000005 = .ok (.trap 5) ∧ decodeWord 0x7E01C000 = .ok (.barrd 7)
  ∧ decodeWord 0x81011200 = .ok (.waitge 4 9) ∧ decodeWord 0xA21A4000 = .ok (.xlat 3 9)
  ∧ decodeWord 0xA3010201 = .ok (.rngset 4 2 1)

/-- R219, R250, R270, R279, R297, R319, R351, R361, R372, R384, R388, R395: what reset leaves.  In every cluster context 18 is READY and
every other context FREE, with no trap queued, no entry, run, stream or image; generations are 0; no queue is enabled, no
range register valid, no frame mapped and every tag 0xF; the registers of the table of R395 and the fabric's have their reset
values; and memory is in canonical form.  (Memory and the general registers stand as logs 2 and 3 choose; nothing here rests
on them.  That reset is the state after a boot which found every part and the first image good is log 8's.) -/
def Obligations.ResetState : Prop :=
  let s := State.reset
  s.Safe
  ∧ (∀ n c, n < 16 → (s.ctx n c).st = if c = 18 then .ready else .free)
  ∧ (∀ n, n < 16 → (s.sc n).stopped = false ∧ (s.sc n).trapQ = [] ∧ (s.sc n).tvecSet = false ∧ (s.sc n).entries = []
      ∧ (s.sc n).runs = [] ∧ (s.sc n).streams = [] ∧ (s.sc n).images = [] ∧ (s.sc n).kgen = 0 ∧ (s.sc n).arrivals = []
      ∧ (s.sc n).tlb = [] ∧ (s.sc n).lines = [])
  ∧ s.dieTlb = [] ∧ s.pkts = [] ∧ (∀ k, bitNat s.mgmt.minorHlth.toNat k = false)
  ∧ (∀ k, (s.fut k).st = .free ∧ (s.fut k).gen = 0) ∧ (∀ n h, (s.barrier n h).used = false ∧ (s.barrier n h).gen = 0)
  ∧ (∀ q, (s.queue q).en = false) ∧ (∀ va, s.rngFor va = none) ∧ (∀ st off, s.mode st off = 0) ∧ (∀ st off, s.tag st off = 15)
  ∧ s.regRead 0x300000 = 0 ∧ s.regRead 0x300008 = 0 ∧ s.regRead 0x300010 = 3200 ∧ s.regRead 0x300020 = 95
  ∧ s.regRead 0x300028 = 0 ∧ s.regRead 0x200100 = 0 ∧ s.regRead 0x400000 = 0 ∧ s.regRead 0x400018 = 0 ∧ s.fab.fabctl = 0
  ∧ (∀ k, k < 10 → s.regRead (0x400100 + 8 * k) = 0) ∧ (∀ i, i < 64 → s.regRead (0x420000 + 8 * i) = 0)
  ∧ s.fab.sessions = []

/-- Every well-formed instruction that has a word comes back from it, with every operand at every value: a control instruction from the
control core's decoder, and an operation from each slot that carries it. -/
def Obligations.EncodingsRoundTrip : Prop := ∀ i : Instr, Sys2Proof.Laws.RoundTrip.Statement i

/-- Every step keeps memory in canonical form and every cached line at 64 bytes, whatever agent acts and whatever it does. -/
def Obligations.StepKeepsSafe : Prop := ∀ s t : State, s.Safe → step s = .next t → t.Safe

/-! ## The data engines -/

/-- R184, R216, R217, R224-R230, R309: what data a job moves and what it may do next. Bytes move in parts that lie in one
16-byte part of the address space, or are all virtual zeros. Each job has a flow: the stream or the window it comes from, the
stream or window it goes to, or the elements it combines, and a second one for exponent pairs, for the old values of a SCAS,
and for the blocks a transform makes; element j of a gather, scatter or scatter-add is the one that its index word names, and
a scatter writes an element once every earlier one of the same index is written. A job may publish the next row where its
bytes are there and a position is free, consume a row of its source, use an index word, combine an element whose bytes are
there, and read or write any part that is left, or two of one sector at once; which of these is next no rule says (log 80).
R86-R90, R184, R216, R217, R224-R229, R276, R281, R288, R397: one event of a data engine on a started entry x, where none of
its data is on another package and its port has no earlier request to perform. Where its data can move, one of the actions it
may do is done: a row is published in its stream, with the bytes that have come for it; bytes are stored at, or read from, the
addresses of the part, zeros for what is not inside and nothing for what is reached nowhere; an element is combined at its
home, SCAS keeping its old value; a row of the source stream joins the data; an index word is used. A block of a transform is
made once all of its source has come. A register-form SCAS is one atomic access, whose old value its register gets, and
SDECOMP expands its next block (256 zero bytes and DERR for a malformed one). Each leaves every other byte, every other stream
and every context (but that register) as they were. That an action is one event is log 80's. -/
def Obligations.EnginesMoveData : Prop :=
  ((∀ (addr : Nat → Option Nat) (n : Nat),
    (∀ p ∈ partsOf addr n, 0 < p.2 ∧ p.2 ≤ 16 ∧ p.1 + p.2 ≤ n
      ∧ ((∀ i < p.2, addr (p.1 + i) = none) ∨ ∃ a, (∀ i < p.2, addr (p.1 + i) = some (a + i)) ∧ (a + p.2 - 1) / 16 = a / 16))
    ∧ ∀ k < n, ∃ p ∈ partsOf addr n, p.1 ≤ k ∧ k < p.1 + p.2 ∧ ∀ q ∈ partsOf addr n, q.1 ≤ k → k < q.1 + q.2 → q = p)
  ∧ (∀ x : Entry,
      let moves (f : Flow) (total : Nat) (src dst : Option Nat) (rd wr : List (Nat × Nat)) (el : List Nat) : Prop :=
        f.total = total ∧ f.src = src ∧ f.dst = dst ∧ f.rd = rd ∧ f.wr = wr ∧ f.el = el
      let indexed (r : Rec) (ps : List (Nat × Nat)) (may : Nat → Prop) : Prop := ∀ p, p ∈ ps ↔
        ∃ i < x.idx.length, may i ∧ ∃ q ∈ partsOf (x.idxAddr r i) r.eb, p = (r.eb * i + q.1, q.2)
      (∀ r d o, x.work = .load r d o → moves x.flow r.size none (some d) (partsOf r.byteAddr r.size) [] [] ∧ x.flow.ax = r.byteAddr
        ∧ ∀ y, o = some y → moves x.flow2 (2 * r.blocks) none (some y) (partsOf r.expAddr (2 * r.blocks)) [] []
            ∧ x.flow2.ax = r.expAddr)
      ∧ (∀ r d o, x.work = .store r d o → moves x.flow r.size (some d) none [] (partsOf r.byteAddr r.size) []
        ∧ x.flow.ay = r.byteAddr
        ∧ ∀ y, o = some y → moves x.flow2 (2 * r.blocks) (some y) none [] (partsOf r.expAddr (2 * r.blocks)) []
            ∧ x.flow2.ay = r.expAddr)
      ∧ (∀ a b k, x.work = .copy a b k → moves x.flow k a.stream b.stream (a.parts k) (b.parts k) []
        ∧ x.flow.ax = a.addr ∧ x.flow.ay = b.addr)
      ∧ (∀ r d i k, x.work = .gather r d i k → moves x.flow (k * r.eb) none (some d) x.flow.rd [] []
        ∧ indexed r x.flow.rd (fun _ => True) ∧ x.index = some (i, k)
        ∧ ∀ j b, b < r.eb → x.flow.ax (r.eb * j + b) = x.idxAddr r j b)
      ∧ (∀ r d i k, x.work = .scatter r d i k → moves x.flow (k * r.eb) (some d) none [] x.flow.wr []
        ∧ indexed r x.flow.wr (fun j => ∀ l < j, x.idx[l]? = x.idx[j]? →
            ∀ p ∈ partsOf (x.idxAddr r l) r.eb, r.eb * l + p.1 ∈ x.wrote)
        ∧ x.index = some (i, k) ∧ ∀ j b, b < r.eb → x.flow.ay (r.eb * j + b) = x.idxAddr r j b)
      ∧ (∀ r d i k op, x.work = .scadd r d i k op →
          moves x.flow (k * r.eb) (some d) none [] [] ((List.range x.idx.length).map (r.eb * ·)) ∧ x.index = some (i, k))
      ∧ (∀ (r : Rec) i b, x.idxAddr r i b =
          match x.idx[i]? with
          | some j => if j < r.total then r.byteAddr (j * r.eb + b) else none
          | none => none)
      ∧ (∀ a r op, x.work = .acc a r op →
          moves x.flow r.size a.stream none (a.parts r.size) [] ((List.range (r.size / r.eb)).map (r.eb * ·)) ∧ x.flow.ax = a.addr)
      ∧ (∀ d r o op, x.work = .casStream d r o op →
          moves x.flow r.size (some d) none [] [] ((List.range (r.size / r.eb)).map (r.eb * ·))
          ∧ moves x.flow2 r.size none (some o) [] [] [])
      ∧ (∀ q r, x.work = .quant q r → moves x.flow q.size none none (partsOf q.byteAddr q.size) [] [] ∧ x.flow.ax = q.byteAddr
        ∧ x.flow2.total = r.size + 2 * r.blocks ∧ x.flow2.wr = r.bxParts ∧ x.flow2.ay = r.bxAddr)
      ∧ (∀ q r, x.work = .dequant q r → x.flow.total = q.size + 2 * q.blocks ∧ x.flow.rd = q.bxParts ∧ x.flow.ax = q.bxAddr
        ∧ moves x.flow2 r.size none none [] (partsOf r.byteAddr r.size) [] ∧ x.flow2.ay = r.byteAddr)
      ∧ (∀ va k d tags wide, x.work = .decomp va k d tags wide → moves x.flow (256 * k) none (some d) [] [] [])
      ∧ (∀ port ns lba k status lb b, x.work = .nvme port ns lba k status lb b →
          moves x.flow (k * lb) none b.stream [] (b.parts (k * lb)) [] ∧ x.flow.ay = b.addr)
      ∧ (∀ a k r, (x.work = .rput a k r ∨ x.work = .racc a k r) → moves x.flow k a.stream none (a.parts k) [] []
        ∧ x.flow.ax = a.addr)
      ∧ (∀ b k r, x.work = .rget b k r → moves x.flow k none b.stream [] (b.parts k) [] ∧ x.flow.ay = b.addr))
  ∧ ∀ (s : State) (n : Nat) (x : Entry),
      let st (d : Nat) : Stream := s.stream n d
      let there (m : Move) (k l : Nat) : Prop := ∀ i < l, thas m.mid (k + i) = true
      -- one part of a list, or two of one sector
      let some1 (ps : List (Nat × Nat)) (may : Nat × Nat → Prop) (addr : Nat → Option Nat) (us : List Nat) (k l : Nat) : Prop :=
        (us = [k] ∧ (k, l) ∈ ps ∧ may (k, l))
        ∨ ∃ a b A, us = [k, k + a] ∧ l = a + b ∧ (k, a) ∈ ps ∧ (k + a, b) ∈ ps ∧ may (k, a) ∧ may (k + a, b)
          ∧ addr (k + a - 1) = some A ∧ addr (k + a) = some (A + 1) ∧ (A + 1) % 32 ≠ 0
      (∀ f d w, Mv.push f d w ∈ s.moves n x ↔ (x.flowAt f).dst = some d
          ∧ w = min (st d).rowSize ((x.flowAt f).total - (x.at' f).put) ∧ 0 < w ∧ there (x.at' f) (x.at' f).put w ∧ (st d).space ≠ 0)
      ∧ (∀ f d, Mv.row f d ∈ s.moves n x ↔
          (x.flowAt f).src = some d ∧ (x.at' f).got < (x.flowAt f).total ∧ (st d).filled ≠ 0)
      ∧ (∀ i, Mv.index i ∈ s.moves n x ↔ ∃ k, x.index = some (i, k) ∧ x.idx.length < k ∧ (st i).filled ≠ 0)
      ∧ (∀ k, Mv.elem k ∈ s.moves n x ↔ k ∈ x.flow.el ∧ k ∉ x.wrote ∧ there (x.at' false) k x.elemBytes)
      ∧ (∀ f us k l, Mv.write f us k l ∈ s.moves n x →
          some1 (x.flowAt f).wr (fun p => p.1 ∉ (x.at' f).wrote ∧ there (x.at' f) p.1 p.2) (x.flowAt f).ay us k l)
      ∧ (∀ f, ∀ p ∈ (x.flowAt f).wr, p.1 ∉ (x.at' f).wrote → there (x.at' f) p.1 p.2 → Mv.write f [p.1] p.1 p.2 ∈ s.moves n x)
      ∧ (let fits (f : Bool) (p : Nat × Nat) : Prop := p.1 ∉ (x.at' f).seen
            ∧ ∀ d, (x.flowAt f).dst = some d → p.1 < (x.at' f).put + (st d).space * (st d).rowSize
         (∀ f us k l, Mv.read f us k l ∈ s.moves n x → some1 (x.flowAt f).rd (fits f) (x.flowAt f).ax us k l)
         ∧ ∀ f, ∀ p ∈ (x.flowAt f).rd, fits f p → Mv.read f [p.1] p.1 p.2 ∈ s.moves n x))
  ∧ (∀ (s : State) (n e : Nat) (x : Entry), (s.sc n).entry? e = some x → x.st = .started →
  (∀ p ∈ s.pkts, p.2.port = x.work.port n → p.2.done = true) →
  let u := s.jobView x
  let root := x.ptb
  let st (d : Nat) : Stream := s.stream n d
  let leaves (t : State) (y : Entry) (ds : List Nat) : Prop := (t.sc n).entry? e = some { y with far := [] }
    ∧ ∀ m j, (m ≠ n ∨ j ∉ ds) → t.stream m j = s.stream m j
  let after (t : State) (y : Entry) (ds : List Nat) : Prop := leaves t y ds ∧ ∀ m c, t.ctx m c = s.ctx m c
  let runs (t : State) : Prop :=
    (x.work.engine = .agent → exec (.streamAgentTransfer n e) s = .next t)
    ∧ (x.work.engine = .copier → exec (.copyEngineTransfer n e) s = .next t)
    ∧ (x.work.engine = .dce → t ≠ s → (s.sc n).dceFirst = some e → s.dceWork (twin n) = false →
        exec (.dceBlockWrite n e) s = .next { t with dceLast := tput t.dceLast (n / 2) n })
  let combined (t : State) (a op fmt src : Nat) : Prop :=
    let w := accBytes fmt
    t.readNat a w = accOp op fmt (s.readNat a w) src % 256 ^ w ∧ ∀ c, ¬(a ≤ c ∧ c < a + w) → t.byte c = s.byte c
  let home (r : Rec) (j a : Nat) : Prop := j < r.total ∧ r.inside j = true ∧ u.place n root true (r.elemAddr j) = .here a
  let combines (t : State) (r : Rec) (op j : Nat) (bs : List Byte) : Prop := ((∀ a, ¬home r j a) → SameBytes s t)
    ∧ ∀ a, home r j a → a % accBytes r.fmt = 0 → s.Plain → combined t a op r.fmt (bytesNat bs)
  -- the element that a job combines from byte k on
  let target (k : Nat) (r : Rec) (op j : Nat) : Prop :=
    (∃ a, x.work = .acc a r op ∧ j = k / r.eb) ∨ (∃ d o, x.work = .casStream d r o op ∧ j = k / r.eb)
      ∨ ∃ d i c, x.work = .scadd r d i c op ∧ j = (x.idx[k / r.eb]?).getD 0
  let near (mv : Mv) : Prop :=
    match mv with
    | .write f _ k l => u.Near n root true (addrsFrom (x.flowAt f).ay k l)
    | .read f _ k l => u.Near n root false (addrsFrom (x.flowAt f).ax k l)
    | .elem k => ∀ r op j, target k r op j → j < r.total → r.inside j = true → u.Near n root true [some (r.elemAddr j)]
    | _ => True
  let effect (mv : Mv) (t : State) : Prop :=
    match mv with
    | .push f d w =>
      let m := x.at' f
      after t (x.setAt f { m with put := m.put + w, mid := tdels m.mid m.put w }) [d] ∧ SameBytes s t
      ∧ t.stream n d = { (st d).putRow (st d).wp (bytesRow (st d).rowLen (tgets m.mid m.put w 0)) with
          wp := ((st d).wp + 1) % 2 ^ 32 }
    | .write f ps k l =>
      let m := x.at' f
      after t (x.setAt f { m with put := m.put + l, wrote := ps ++ m.wrote, mid := tdels m.mid k l }) []
      ∧ (s.Plain → ∀ c, t.byte c = u.engineStored n root (addrsFrom (x.flowAt f).ay k l) (tgets m.mid k l 0) c)
    | .elem k =>
      let m := x.at' false
      let y := x.setAt false { m with put := m.put + x.elemBytes, wrote := k :: m.wrote, mid := tdels m.mid k x.elemBytes }
      ∃ old, after t (match x.work with
          | .casStream _ r _ _ => { y with xmid := tputs y.xmid k (natBytes r.eb old) }
          | _ => y) []
        ∧ ∀ r op j, target k r op j → combines t r op j (tgets m.mid k x.elemBytes 0)
          ∧ ∀ a, home r j a → old = s.readNat a (accBytes r.fmt)
    | .read f ps k l =>
      let m := x.at' f
      let bs := (addrsFrom (x.flowAt f).ax k l).map (u.engineByte n root)
      after t ((x.setAt f { m with got := m.got + l, seen := ps ++ m.seen, mid := tputs m.mid k bs }).transformed k l) []
      ∧ SameBytes s t
    | .row f d =>
      let m := x.at' f
      let bs := (rowBytes ((st d).row (st d).rp)).take ((x.flowAt f).total - m.got)
      after t (x.setAt f { m with got := m.got + bs.length, mid := tputs m.mid m.got bs }) [d] ∧ SameBytes s t
      ∧ t.stream n d = { st d with rp := ((st d).rp + 1) % 2 ^ 32 }
    | .index i =>
      let k := x.idx.length
      after t { x with idx := x.idx ++ [(((st i).row (st i).rp).getD (k % (st i).rowLen) 0).toNat] } [i] ∧ SameBytes s t
      ∧ ∀ c, x.index = some (i, c) → t.stream n i =
          if (k + 1) % (st i).rowLen = 0 ∨ k + 1 = c then { st i with rp := ((st i).rp + 1) % 2 ^ 32 } else st i
  (x.movable = true → s.moves n x ≠ [] → (∀ mv ∈ s.moves n x, near mv) → ∃ mv ∈ s.moves n x, ∃ t, runs t ∧ effect mv t)
  -- the blocks of SQUANT and SDQNT
  ∧ (∀ (y : Entry) (b : Nat),
      (∀ k l, y.transformed k l = (y.makeBlock (y.work.blockOf k)).makeBlock (y.work.blockOf (k + l - 1)))
      ∧ (∀ q r, y.work = .quant q r → (∀ k, y.work.blockOf k = k / 128)
        ∧ ((∀ i < 128, thas y.mid (128 * b + i) = true) →
            let src := tgets y.mid (128 * b) 128 0
            let z := bxBlock (r.fmt == 3) (bxForward (r.signs b)
              ((List.range 32).map (fun i => BitVec.ofNat 32 (fieldAt src (4 * i) 4))))
            y.makeBlock b = { y with
              mid := tdels y.mid (128 * b) 128,
              xmid := tputs (tputs y.xmid (r.blockSize * b) (packBx (r.fmt == 3) z.2.2)) (r.size + 2 * b)
                [BitVec.ofNat 8 z.1, BitVec.ofNat 8 z.2.1] })
        ∧ ((∃ i < 128, thas y.mid (128 * b + i) = false) → y.makeBlock b = y))
      ∧ ∀ q r, y.work = .dequant q r →
          let B := q.blockSize
          let full := (∀ i < B, thas y.mid (B * b + i) = true) ∧ ∀ i < 2, thas y.mid (q.size + 2 * b + i) = true
          (∀ k, y.work.blockOf k = if k < q.size then k / B else (k - q.size) / 2)
          ∧ (full →
              let e0 := (tgetD y.mid (q.size + 2 * b) 0).toNat
              let e1 := (tgetD y.mid (q.size + 2 * b + 1) 0).toNat
              let ys := (unpackBx (q.fmt == 3) (tgets y.mid (B * b) B 0)).map
                (fun el => if q.fmt = 3 then bx8Val el e0 e1 else bx4Val el e0 e1)
              y.makeBlock b = { y with
                mid := tdels (tdels y.mid (B * b) B) (q.size + 2 * b) 2,
                xmid := tputs y.xmid (128 * b) ((bxInverse (q.signs b) ys).flatMap (fun w => natBytes 4 w.toNat)) })
          ∧ (¬full → y.makeBlock b = y))
  -- SCAS with a register
  ∧ (∀ reg va tc op y z c a, x.work = .casReg reg va tc op y z → x.idone = 0 → x.owner = .ctx c → c < 20 → 0 < reg → reg < 32 →
    (s.ctx n c).unfilled.contains reg = true → u.place n root true va = .here a → inMemory s.topo a = true →
    let fmt := tcFmt (BitVec.ofNat 2 tc)
    let w := accBytes fmt
    a % w = 0 → s.Plain →
    ∃ t, exec (.copyEngineTransfer n e) s = .next t ∧ leaves t { x with idone := 1 } []
      ∧ (op ≠ 7 → combined t a op fmt (y.toNat % 256 ^ w))
      ∧ (op = 7 → t.readNat a w = (if s.readNat a w = y.toNat % 256 ^ w then z.toNat % 256 ^ w else s.readNat a w)
          ∧ ∀ b, ¬(a ≤ b ∧ b < a + w) → t.byte b = s.byte b)
      ∧ (t.ctx n c).unfilled.contains reg = false
      ∧ ∀ j, (t.ctx n c).reg j = if j = reg then extend (tc == 2) w (s.readNat a w) else (s.ctx n c).reg j)
  -- SDECOMP: its next block, where no row of it can be published
  ∧ (∀ va cnt d tags wide, x.work = .decomp va cnt d tags wide → (s.sc n).dceFirst = some e → s.dceWork (twin n) = false →
    s.moves n x = [] → x.done < cnt → 256 * x.done < x.idone + (st d).space * (st d).rowSize →
      let v := (u.agentRead (x.via n) [some (tags + x.done)]).2
      let tag := (u.engineByte n root (some (tags + x.done))).toNat
      let src := addrsFrom (fun k => some (va + 256 * x.done + k)) 0 (32 * blockSectors tag)
      let out := if tag < 16 then milleDecode wide tag (src.map (v.engineByte n root)) else none
      u.Near n root false [some (tags + x.done)] → v.Near n root false src →
      ∃ t, exec (.dceBlockWrite n e) s = .next t
        ∧ after t { x with done := x.done + 1, mid := tputs x.mid (256 * x.done) (out.getD (List.replicate 256 0)) } [d]
        ∧ SameBytes s t ∧ t.stream n d = if out.isSome then st d else { st d with derr := min 0x7FFF ((st d).derr + 1) }))
end

