-- ==== Sys2Proof/Laws/Memory.lean ====
section
/-!
SUPPORT. Memory as cells: read after write, and that every operation on cells keeps the canonical form.
-/

namespace Sys2Proof.Machine

/-- A canonical memory from a bound is one from every lower bound. -/
theorem cellsOk_mono {m : List Host.Cell} {a b : Nat} (h : a ≤ b) (hm : cellsOk b m = true) : cellsOk a m = true := by
  cases m with
  | nil => rfl
  | cons p t =>
    obtain ⟨k, v⟩ := p
    simp only [cellsOk, Bool.and_eq_true, decide_eq_true_eq] at *
    exact ⟨⟨by omega, hm.1.2⟩, hm.2⟩

/-- A byte below every listed address reads as zero. -/
theorem cellGet_of_lt {m : List Host.Cell} {lo a : Nat} (hm : cellsOk lo m = true) (h : a < lo) : cellGet m a = 0 := by
  induction m generalizing lo with
  | nil => rfl
  | cons p t ih =>
    obtain ⟨k, v⟩ := p
    simp only [cellsOk, Bool.and_eq_true, decide_eq_true_eq] at hm
    have hk : a ≠ k := by omega
    simp only [cellGet, hk, if_false]
    exact ih hm.2 (by omega)

/-- Writing a byte keeps the canonical form. -/
theorem cellsOk_cellPut {m : List Host.Cell} {lo a : Nat} (b : Byte) (hm : cellsOk lo m = true) (h : lo ≤ a) :
    cellsOk lo (cellPut m a b) = true := by
  induction m generalizing lo with
  | nil =>
    unfold cellPut
    split
    · rfl
    · rename_i hb
      simp only [cellsOk, Bool.and_eq_true, decide_eq_true_eq]
      exact ⟨⟨h, bne_iff_ne.mpr hb⟩, trivial⟩
  | cons p t ih =>
    obtain ⟨k, v⟩ := p
    have hm' := hm
    simp only [cellsOk, Bool.and_eq_true, decide_eq_true_eq] at hm
    unfold cellPut
    split
    · rename_i hlt
      split
      · exact hm'
      · rename_i hb
        simp only [cellsOk, Bool.and_eq_true, decide_eq_true_eq]
        exact ⟨⟨h, bne_iff_ne.mpr hb⟩, ⟨by omega, hm.1.2⟩, hm.2⟩
    · split
      · rename_i hab
        subst hab
        split
        · exact cellsOk_mono (by omega) hm.2
        · rename_i hb
          simp only [cellsOk, Bool.and_eq_true, decide_eq_true_eq]
          exact ⟨⟨h, bne_iff_ne.mpr hb⟩, hm.2⟩
      · simp only [cellsOk, Bool.and_eq_true, decide_eq_true_eq]
        exact ⟨hm.1, ih hm.2 (by omega)⟩

/-- Writing a byte keeps the canonical form. -/
theorem wf_cellPut {m : List Host.Cell} (a : Nat) (b : Byte) (hm : Memory.wf m = true) : Memory.wf (cellPut m a b) = true :=
  cellsOk_cellPut b hm (Nat.zero_le a)

/-- Writing consecutive bytes keeps the canonical form. -/
theorem wf_cellPuts {m : List Host.Cell} (a : Nat) (bs : List Byte) (hm : Memory.wf m = true) :
    Memory.wf (cellPuts m a bs) = true := by
  induction bs generalizing m a with
  | nil => exact hm
  | cons b bs ih => exact ih (a + 1) (wf_cellPut a b hm)

/-- A masked write keeps the canonical form. -/
theorem wf_putMasked {m : List Host.Cell} (a : Nat) (v : List (Option Byte)) (hm : Memory.wf m = true) :
    Memory.wf (putMasked m a v) = true := by
  induction v generalizing m a with
  | nil => exact hm
  | cons x v ih =>
    cases x with
    | none => exact ih (a + 1) hm
    | some b => exact ih (a + 1) (wf_cellPut a b hm)

/-- A byte read after a write of a byte in a canonical memory: the byte written, and elsewhere what was there. -/
theorem cellGet_cellPut {m : List Host.Cell} {lo : Nat} (a x : Nat) (b : Byte) (hm : cellsOk lo m = true) :
    cellGet (cellPut m a b) x = if x = a then b else cellGet m x := by
  induction m generalizing lo with
  | nil =>
    unfold cellPut
    split
    · rename_i hb
      by_cases hx : x = a
      · rw [if_pos hx, hb]; rfl
      · rw [if_neg hx]
    · by_cases hx : x = a <;> simp [cellGet, hx]
  | cons p t ih =>
    obtain ⟨k, v⟩ := p
    have hm' := hm
    simp only [cellsOk, Bool.and_eq_true, decide_eq_true_eq] at hm
    unfold cellPut
    split
    · rename_i hlt
      split
      · rename_i hb
        by_cases hx : x = a
        · subst hx
          rw [if_pos rfl, hb]
          have hk : x ≠ k := by omega
          simp only [cellGet, hk, if_false]
          exact cellGet_of_lt hm.2 (by omega)
        · rw [if_neg hx]
      · by_cases hx : x = a <;> simp [cellGet, hx]
    · split
      · rename_i hab
        subst hab
        split
        · rename_i hb
          by_cases hx : x = a
          · subst hx
            rw [if_pos rfl, hb]
            exact cellGet_of_lt hm.2 (by omega)
          · simp [cellGet, hx]
        · by_cases hx : x = a <;> simp [cellGet, hx]
      · rename_i h1 h2
        by_cases hk : x = k
        · subst hk
          simp [cellGet, Ne.symm h2]
        · simp only [cellGet, hk, if_false]
          exact ih hm.2

/-- Bytes read after consecutive bytes are written: the bytes written, and elsewhere what was there. -/
theorem cellGet_cellPuts {m : List Host.Cell} (a x : Nat) (bs : List Byte) (hm : Memory.wf m = true) :
    cellGet (cellPuts m a bs) x = if a ≤ x ∧ x < a + bs.length then bs.getD (x - a) 0 else cellGet m x := by
  induction bs generalizing m a with
  | nil =>
    rw [if_neg (by simp)]
    rfl
  | cons b bs ih =>
    simp only [cellPuts]
    rw [ih (a + 1) (wf_cellPut a b hm), cellGet_cellPut (lo := 0) a x b hm]
    by_cases h1 : a + 1 ≤ x ∧ x < a + 1 + bs.length
    · have h2 : a ≤ x ∧ x < a + (b :: bs).length := by simp; omega
      rw [if_pos h1, if_pos h2]
      have h3 : x - a = (x - (a + 1)) + 1 := by omega
      rw [h3]
      simp
    · rw [if_neg h1]
      by_cases h4 : x = a
      · subst h4
        rw [if_pos rfl, if_pos (by simp)]
        simp
      · rw [if_neg h4, if_neg (by simp; omega)]

/-- A canonical memory is canonical from its first address. -/
theorem cellsOk_head {k lo : Nat} {v : Byte} {t : List Host.Cell} (hm : cellsOk lo ((k, v) :: t) = true) :
    cellsOk k ((k, v) :: t) = true := by
  simp only [cellsOk, Bool.and_eq_true, decide_eq_true_eq] at *
  exact ⟨⟨Nat.le_refl k, hm.1.2⟩, hm.2⟩

/-- Equal canonical memories are equal data: two that read alike at every address are the same list. -/
theorem cells_ext {m m' : List Host.Cell} {lo : Nat} (hm : cellsOk lo m = true) (hm' : cellsOk lo m' = true)
    (h : ∀ x, cellGet m x = cellGet m' x) : m = m' := by
  induction m generalizing lo m' with
  | nil =>
    cases m' with
    | nil => rfl
    | cons p t =>
      obtain ⟨k, v⟩ := p
      simp only [cellsOk, Bool.and_eq_true] at hm'
      have := h k
      simp only [cellGet, if_true] at this
      simp [← this] at hm'
  | cons p t ih =>
    obtain ⟨k, v⟩ := p
    have hm0 := hm
    simp only [cellsOk, Bool.and_eq_true, decide_eq_true_eq] at hm
    cases m' with
    | nil =>
      have := h k
      simp only [cellGet, if_true] at this
      simp [this] at hm
    | cons p' t' =>
      obtain ⟨k', v'⟩ := p'
      have hm1 := hm'
      simp only [cellsOk, Bool.and_eq_true, decide_eq_true_eq] at hm'
      have hk : k = k' := by
        rcases Nat.lt_trichotomy k k' with hlt | heq | hgt
        · have e : v = cellGet ((k', v') :: t') k := by simpa [cellGet] using h k
          rw [cellGet_of_lt (lo := k') (cellsOk_head hm1) hlt] at e
          exact absurd e (by simpa using hm.1.2)
        · exact heq
        · have e : v' = cellGet ((k, v) :: t) k' := by simpa [cellGet] using (h k').symm
          rw [cellGet_of_lt (lo := k) (cellsOk_head hm0) hgt] at e
          exact absurd e (by simpa using hm'.1.2)
      subst hk
      have hv : v = v' := by simpa [cellGet] using h k
      subst hv
      congr 1
      refine ih hm.2 hm'.2 (fun x => ?_)
      by_cases hx : x = k
      · subst hx
        rw [cellGet_of_lt hm.2 (by omega), cellGet_of_lt hm'.2 (by omega)]
      · simpa [cellGet, hx] using h x

end Sys2Proof.Machine
end

