-- ==== Sys2Proof/Laws/State.lean ====
section
/-!
SUPPORT. What each update of the state leaves: one lemma per field per update, true by unfolding, so that no later proof
unfolds a record update.
-/

namespace Sys2Proof.Machine

variable (s : State)

/-! setSc -/

@[simp] theorem State.setSc_mem (n : Nat) (x : Sc) : (s.setSc n x).mem = s.mem := rfl
@[simp] theorem State.setSc_fmap (n : Nat) (x : Sc) : (s.setSc n x).fmap = s.fmap := rfl
@[simp] theorem State.setSc_tags (n : Nat) (x : Sc) : (s.setSc n x).tags = s.tags := rfl
@[simp] theorem State.setSc_ueSectors (n : Nat) (x : Sc) : (s.setSc n x).ueSectors = s.ueSectors := rfl
@[simp] theorem State.setSc_ceSectors (n : Nat) (x : Sc) : (s.setSc n x).ceSectors = s.ceSectors := rfl
@[simp] theorem State.setSc_ctr (n : Nat) (x : Sc) : (s.setSc n x).ctr = s.ctr := rfl
@[simp] theorem State.setSc_hostrmw (n : Nat) (x : Sc) : (s.setSc n x).hostrmw = s.hostrmw := rfl
@[simp] theorem State.setSc_hostlost (n : Nat) (x : Sc) : (s.setSc n x).hostlost = s.hostlost := rfl
@[simp] theorem State.setSc_pkts (n : Nat) (x : Sc) : (s.setSc n x).pkts = s.pkts := rfl
@[simp] theorem State.setSc_nextPkt (n : Nat) (x : Sc) : (s.setSc n x).nextPkt = s.nextPkt := rfl
@[simp] theorem State.setSc_rngStage (n : Nat) (x : Sc) : (s.setSc n x).rngStage = s.rngStage := rfl
@[simp] theorem State.setSc_rngLive (n : Nat) (x : Sc) : (s.setSc n x).rngLive = s.rngLive := rfl
@[simp] theorem State.setSc_committing (n : Nat) (x : Sc) : (s.setSc n x).committing = s.committing := rfl
@[simp] theorem State.setSc_dieTlb (n : Nat) (x : Sc) : (s.setSc n x).dieTlb = s.dieTlb := rfl
@[simp] theorem State.setSc_futs (n : Nat) (x : Sc) : (s.setSc n x).futs = s.futs := rfl
@[simp] theorem State.setSc_sleepers (n : Nat) (x : Sc) : (s.setSc n x).sleepers = s.sleepers := rfl
@[simp] theorem State.setSc_slices (n : Nat) (x : Sc) : (s.setSc n x).slices = s.slices := rfl
@[simp] theorem State.setSc_pbars (n : Nat) (x : Sc) : (s.setSc n x).pbars = s.pbars := rfl
@[simp] theorem State.setSc_graphs (n : Nat) (x : Sc) : (s.setSc n x).graphs = s.graphs := rfl
@[simp] theorem State.setSc_nextGraph (n : Nat) (x : Sc) : (s.setSc n x).nextGraph = s.nextGraph := rfl
@[simp] theorem State.setSc_late (n : Nat) (x : Sc) : (s.setSc n x).late = s.late := rfl
@[simp] theorem State.setSc_owed (n : Nat) (x : Sc) : (s.setSc n x).owed = s.owed := rfl
@[simp] theorem State.setSc_queues (n : Nat) (x : Sc) : (s.setSc n x).queues = s.queues := rfl
@[simp] theorem State.setSc_launches (n : Nat) (x : Sc) : (s.setSc n x).launches = s.launches := rfl
@[simp] theorem State.setSc_nextLaunch (n : Nat) (x : Sc) : (s.setSc n x).nextLaunch = s.nextLaunch := rfl
@[simp] theorem State.setSc_regions (n : Nat) (x : Sc) : (s.setSc n x).regions = s.regions := rfl
@[simp] theorem State.setSc_seq (n : Nat) (x : Sc) : (s.setSc n x).seq = s.seq := rfl
@[simp] theorem State.setSc_handlers (n : Nat) (x : Sc) : (s.setSc n x).handlers = s.handlers := rfl
@[simp] theorem State.setSc_drec (n : Nat) (x : Sc) : (s.setSc n x).drec = s.drec := rfl
@[simp] theorem State.setSc_dceLast (n : Nat) (x : Sc) : (s.setSc n x).dceLast = s.dceLast := rfl
@[simp] theorem State.setSc_dup (n : Nat) (x : Sc) : (s.setSc n x).dup = s.dup := rfl
@[simp] theorem State.setSc_topo (n : Nat) (x : Sc) : (s.setSc n x).topo = s.topo := rfl
@[simp] theorem State.setSc_ports (n : Nat) (x : Sc) : (s.setSc n x).ports = s.ports := rfl
@[simp] theorem State.setSc_unlocking (n : Nat) (x : Sc) : (s.setSc n x).unlocking = s.unlocking := rfl
@[simp] theorem State.setSc_mgmt (n : Nat) (x : Sc) : (s.setSc n x).mgmt = s.mgmt := rfl
@[simp] theorem State.setSc_fab (n : Nat) (x : Sc) : (s.setSc n x).fab = s.fab := rfl
@[simp] theorem State.setSc_hostLines (n : Nat) (x : Sc) : (s.setSc n x).hostLines = s.hostLines := rfl
@[simp] theorem State.setSc_snoops (n : Nat) (x : Sc) : (s.setSc n x).snoops = s.snoops := rfl
@[simp] theorem State.setSc_hits (n : Nat) (x : Sc) : (s.setSc n x).hits = s.hits := rfl
@[simp] theorem State.setSc_hostRmw (n : Nat) (x : Sc) : (s.setSc n x).hostRmw = s.hostRmw := rfl
@[simp] theorem State.setSc_tb (n : Nat) (x : Sc) : (s.setSc n x).tb = s.tb := rfl
@[simp] theorem State.setSc_cycle (n : Nat) (x : Sc) : (s.setSc n x).cycle = s.cycle := rfl
@[simp] theorem State.setSc_homeWrites (n : Nat) (x : Sc) : (s.setSc n x).homeWrites = s.homeWrites := rfl
@[simp] theorem State.setSc_cur (n : Nat) (x : Sc) : (s.setSc n x).cur = s.cur := rfl
@[simp] theorem State.setSc_agenda (n : Nat) (x : Sc) : (s.setSc n x).agenda = s.agenda := rfl
@[simp] theorem State.setSc_turnNo (n : Nat) (x : Sc) : (s.setSc n x).turnNo = s.turnNo := rfl
@[simp] theorem State.setSc_free (n : Nat) (x : Sc) : (s.setSc n x).free = s.free := rfl
@[simp] theorem State.setSc_out (n : Nat) (x : Sc) : (s.setSc n x).out = s.out := rfl

/-! modSc -/

@[simp] theorem State.modSc_mem (n : Nat) (f : Sc → Sc) : (s.modSc n f).mem = s.mem := rfl
@[simp] theorem State.modSc_fmap (n : Nat) (f : Sc → Sc) : (s.modSc n f).fmap = s.fmap := rfl
@[simp] theorem State.modSc_tags (n : Nat) (f : Sc → Sc) : (s.modSc n f).tags = s.tags := rfl
@[simp] theorem State.modSc_ueSectors (n : Nat) (f : Sc → Sc) : (s.modSc n f).ueSectors = s.ueSectors := rfl
@[simp] theorem State.modSc_ceSectors (n : Nat) (f : Sc → Sc) : (s.modSc n f).ceSectors = s.ceSectors := rfl
@[simp] theorem State.modSc_ctr (n : Nat) (f : Sc → Sc) : (s.modSc n f).ctr = s.ctr := rfl
@[simp] theorem State.modSc_hostrmw (n : Nat) (f : Sc → Sc) : (s.modSc n f).hostrmw = s.hostrmw := rfl
@[simp] theorem State.modSc_hostlost (n : Nat) (f : Sc → Sc) : (s.modSc n f).hostlost = s.hostlost := rfl
@[simp] theorem State.modSc_pkts (n : Nat) (f : Sc → Sc) : (s.modSc n f).pkts = s.pkts := rfl
@[simp] theorem State.modSc_nextPkt (n : Nat) (f : Sc → Sc) : (s.modSc n f).nextPkt = s.nextPkt := rfl
@[simp] theorem State.modSc_rngStage (n : Nat) (f : Sc → Sc) : (s.modSc n f).rngStage = s.rngStage := rfl
@[simp] theorem State.modSc_rngLive (n : Nat) (f : Sc → Sc) : (s.modSc n f).rngLive = s.rngLive := rfl
@[simp] theorem State.modSc_committing (n : Nat) (f : Sc → Sc) : (s.modSc n f).committing = s.committing := rfl
@[simp] theorem State.modSc_dieTlb (n : Nat) (f : Sc → Sc) : (s.modSc n f).dieTlb = s.dieTlb := rfl
@[simp] theorem State.modSc_futs (n : Nat) (f : Sc → Sc) : (s.modSc n f).futs = s.futs := rfl
@[simp] theorem State.modSc_sleepers (n : Nat) (f : Sc → Sc) : (s.modSc n f).sleepers = s.sleepers := rfl
@[simp] theorem State.modSc_slices (n : Nat) (f : Sc → Sc) : (s.modSc n f).slices = s.slices := rfl
@[simp] theorem State.modSc_pbars (n : Nat) (f : Sc → Sc) : (s.modSc n f).pbars = s.pbars := rfl
@[simp] theorem State.modSc_graphs (n : Nat) (f : Sc → Sc) : (s.modSc n f).graphs = s.graphs := rfl
@[simp] theorem State.modSc_nextGraph (n : Nat) (f : Sc → Sc) : (s.modSc n f).nextGraph = s.nextGraph := rfl
@[simp] theorem State.modSc_late (n : Nat) (f : Sc → Sc) : (s.modSc n f).late = s.late := rfl
@[simp] theorem State.modSc_owed (n : Nat) (f : Sc → Sc) : (s.modSc n f).owed = s.owed := rfl
@[simp] theorem State.modSc_queues (n : Nat) (f : Sc → Sc) : (s.modSc n f).queues = s.queues := rfl
@[simp] theorem State.modSc_launches (n : Nat) (f : Sc → Sc) : (s.modSc n f).launches = s.launches := rfl
@[simp] theorem State.modSc_nextLaunch (n : Nat) (f : Sc → Sc) : (s.modSc n f).nextLaunch = s.nextLaunch := rfl
@[simp] theorem State.modSc_regions (n : Nat) (f : Sc → Sc) : (s.modSc n f).regions = s.regions := rfl
@[simp] theorem State.modSc_seq (n : Nat) (f : Sc → Sc) : (s.modSc n f).seq = s.seq := rfl
@[simp] theorem State.modSc_handlers (n : Nat) (f : Sc → Sc) : (s.modSc n f).handlers = s.handlers := rfl
@[simp] theorem State.modSc_drec (n : Nat) (f : Sc → Sc) : (s.modSc n f).drec = s.drec := rfl
@[simp] theorem State.modSc_dceLast (n : Nat) (f : Sc → Sc) : (s.modSc n f).dceLast = s.dceLast := rfl
@[simp] theorem State.modSc_dup (n : Nat) (f : Sc → Sc) : (s.modSc n f).dup = s.dup := rfl
@[simp] theorem State.modSc_topo (n : Nat) (f : Sc → Sc) : (s.modSc n f).topo = s.topo := rfl
@[simp] theorem State.modSc_ports (n : Nat) (f : Sc → Sc) : (s.modSc n f).ports = s.ports := rfl
@[simp] theorem State.modSc_unlocking (n : Nat) (f : Sc → Sc) : (s.modSc n f).unlocking = s.unlocking := rfl
@[simp] theorem State.modSc_mgmt (n : Nat) (f : Sc → Sc) : (s.modSc n f).mgmt = s.mgmt := rfl
@[simp] theorem State.modSc_fab (n : Nat) (f : Sc → Sc) : (s.modSc n f).fab = s.fab := rfl
@[simp] theorem State.modSc_hostLines (n : Nat) (f : Sc → Sc) : (s.modSc n f).hostLines = s.hostLines := rfl
@[simp] theorem State.modSc_snoops (n : Nat) (f : Sc → Sc) : (s.modSc n f).snoops = s.snoops := rfl
@[simp] theorem State.modSc_hits (n : Nat) (f : Sc → Sc) : (s.modSc n f).hits = s.hits := rfl
@[simp] theorem State.modSc_hostRmw (n : Nat) (f : Sc → Sc) : (s.modSc n f).hostRmw = s.hostRmw := rfl
@[simp] theorem State.modSc_tb (n : Nat) (f : Sc → Sc) : (s.modSc n f).tb = s.tb := rfl
@[simp] theorem State.modSc_cycle (n : Nat) (f : Sc → Sc) : (s.modSc n f).cycle = s.cycle := rfl
@[simp] theorem State.modSc_homeWrites (n : Nat) (f : Sc → Sc) : (s.modSc n f).homeWrites = s.homeWrites := rfl
@[simp] theorem State.modSc_cur (n : Nat) (f : Sc → Sc) : (s.modSc n f).cur = s.cur := rfl
@[simp] theorem State.modSc_agenda (n : Nat) (f : Sc → Sc) : (s.modSc n f).agenda = s.agenda := rfl
@[simp] theorem State.modSc_turnNo (n : Nat) (f : Sc → Sc) : (s.modSc n f).turnNo = s.turnNo := rfl
@[simp] theorem State.modSc_free (n : Nat) (f : Sc → Sc) : (s.modSc n f).free = s.free := rfl
@[simp] theorem State.modSc_out (n : Nat) (f : Sc → Sc) : (s.modSc n f).out = s.out := rfl

/-! setCtx -/

@[simp] theorem State.setCtx_mem (n c : Nat) (x : Ctx) : (s.setCtx n c x).mem = s.mem := rfl
@[simp] theorem State.setCtx_fmap (n c : Nat) (x : Ctx) : (s.setCtx n c x).fmap = s.fmap := rfl
@[simp] theorem State.setCtx_tags (n c : Nat) (x : Ctx) : (s.setCtx n c x).tags = s.tags := rfl
@[simp] theorem State.setCtx_ueSectors (n c : Nat) (x : Ctx) : (s.setCtx n c x).ueSectors = s.ueSectors := rfl
@[simp] theorem State.setCtx_ceSectors (n c : Nat) (x : Ctx) : (s.setCtx n c x).ceSectors = s.ceSectors := rfl
@[simp] theorem State.setCtx_ctr (n c : Nat) (x : Ctx) : (s.setCtx n c x).ctr = s.ctr := rfl
@[simp] theorem State.setCtx_hostrmw (n c : Nat) (x : Ctx) : (s.setCtx n c x).hostrmw = s.hostrmw := rfl
@[simp] theorem State.setCtx_hostlost (n c : Nat) (x : Ctx) : (s.setCtx n c x).hostlost = s.hostlost := rfl
@[simp] theorem State.setCtx_pkts (n c : Nat) (x : Ctx) : (s.setCtx n c x).pkts = s.pkts := rfl
@[simp] theorem State.setCtx_nextPkt (n c : Nat) (x : Ctx) : (s.setCtx n c x).nextPkt = s.nextPkt := rfl
@[simp] theorem State.setCtx_rngStage (n c : Nat) (x : Ctx) : (s.setCtx n c x).rngStage = s.rngStage := rfl
@[simp] theorem State.setCtx_rngLive (n c : Nat) (x : Ctx) : (s.setCtx n c x).rngLive = s.rngLive := rfl
@[simp] theorem State.setCtx_committing (n c : Nat) (x : Ctx) : (s.setCtx n c x).committing = s.committing := rfl
@[simp] theorem State.setCtx_dieTlb (n c : Nat) (x : Ctx) : (s.setCtx n c x).dieTlb = s.dieTlb := rfl
@[simp] theorem State.setCtx_futs (n c : Nat) (x : Ctx) : (s.setCtx n c x).futs = s.futs := rfl
@[simp] theorem State.setCtx_sleepers (n c : Nat) (x : Ctx) : (s.setCtx n c x).sleepers = s.sleepers := rfl
@[simp] theorem State.setCtx_slices (n c : Nat) (x : Ctx) : (s.setCtx n c x).slices = s.slices := rfl
@[simp] theorem State.setCtx_pbars (n c : Nat) (x : Ctx) : (s.setCtx n c x).pbars = s.pbars := rfl
@[simp] theorem State.setCtx_graphs (n c : Nat) (x : Ctx) : (s.setCtx n c x).graphs = s.graphs := rfl
@[simp] theorem State.setCtx_nextGraph (n c : Nat) (x : Ctx) : (s.setCtx n c x).nextGraph = s.nextGraph := rfl
@[simp] theorem State.setCtx_late (n c : Nat) (x : Ctx) : (s.setCtx n c x).late = s.late := rfl
@[simp] theorem State.setCtx_owed (n c : Nat) (x : Ctx) : (s.setCtx n c x).owed = s.owed := rfl
@[simp] theorem State.setCtx_queues (n c : Nat) (x : Ctx) : (s.setCtx n c x).queues = s.queues := rfl
@[simp] theorem State.setCtx_launches (n c : Nat) (x : Ctx) : (s.setCtx n c x).launches = s.launches := rfl
@[simp] theorem State.setCtx_nextLaunch (n c : Nat) (x : Ctx) : (s.setCtx n c x).nextLaunch = s.nextLaunch := rfl
@[simp] theorem State.setCtx_regions (n c : Nat) (x : Ctx) : (s.setCtx n c x).regions = s.regions := rfl
@[simp] theorem State.setCtx_seq (n c : Nat) (x : Ctx) : (s.setCtx n c x).seq = s.seq := rfl
@[simp] theorem State.setCtx_handlers (n c : Nat) (x : Ctx) : (s.setCtx n c x).handlers = s.handlers := rfl
@[simp] theorem State.setCtx_drec (n c : Nat) (x : Ctx) : (s.setCtx n c x).drec = s.drec := rfl
@[simp] theorem State.setCtx_dceLast (n c : Nat) (x : Ctx) : (s.setCtx n c x).dceLast = s.dceLast := rfl
@[simp] theorem State.setCtx_dup (n c : Nat) (x : Ctx) : (s.setCtx n c x).dup = s.dup := rfl
@[simp] theorem State.setCtx_topo (n c : Nat) (x : Ctx) : (s.setCtx n c x).topo = s.topo := rfl
@[simp] theorem State.setCtx_ports (n c : Nat) (x : Ctx) : (s.setCtx n c x).ports = s.ports := rfl
@[simp] theorem State.setCtx_unlocking (n c : Nat) (x : Ctx) : (s.setCtx n c x).unlocking = s.unlocking := rfl
@[simp] theorem State.setCtx_mgmt (n c : Nat) (x : Ctx) : (s.setCtx n c x).mgmt = s.mgmt := rfl
@[simp] theorem State.setCtx_fab (n c : Nat) (x : Ctx) : (s.setCtx n c x).fab = s.fab := rfl
@[simp] theorem State.setCtx_hostLines (n c : Nat) (x : Ctx) : (s.setCtx n c x).hostLines = s.hostLines := rfl
@[simp] theorem State.setCtx_snoops (n c : Nat) (x : Ctx) : (s.setCtx n c x).snoops = s.snoops := rfl
@[simp] theorem State.setCtx_hits (n c : Nat) (x : Ctx) : (s.setCtx n c x).hits = s.hits := rfl
@[simp] theorem State.setCtx_hostRmw (n c : Nat) (x : Ctx) : (s.setCtx n c x).hostRmw = s.hostRmw := rfl
@[simp] theorem State.setCtx_tb (n c : Nat) (x : Ctx) : (s.setCtx n c x).tb = s.tb := rfl
@[simp] theorem State.setCtx_cycle (n c : Nat) (x : Ctx) : (s.setCtx n c x).cycle = s.cycle := rfl
@[simp] theorem State.setCtx_homeWrites (n c : Nat) (x : Ctx) : (s.setCtx n c x).homeWrites = s.homeWrites := rfl
@[simp] theorem State.setCtx_cur (n c : Nat) (x : Ctx) : (s.setCtx n c x).cur = s.cur := rfl
@[simp] theorem State.setCtx_agenda (n c : Nat) (x : Ctx) : (s.setCtx n c x).agenda = s.agenda := rfl
@[simp] theorem State.setCtx_turnNo (n c : Nat) (x : Ctx) : (s.setCtx n c x).turnNo = s.turnNo := rfl
@[simp] theorem State.setCtx_free (n c : Nat) (x : Ctx) : (s.setCtx n c x).free = s.free := rfl
@[simp] theorem State.setCtx_out (n c : Nat) (x : Ctx) : (s.setCtx n c x).out = s.out := rfl

/-! modCtx -/

@[simp] theorem State.modCtx_mem (n c : Nat) (f : Ctx → Ctx) : (s.modCtx n c f).mem = s.mem := rfl
@[simp] theorem State.modCtx_fmap (n c : Nat) (f : Ctx → Ctx) : (s.modCtx n c f).fmap = s.fmap := rfl
@[simp] theorem State.modCtx_tags (n c : Nat) (f : Ctx → Ctx) : (s.modCtx n c f).tags = s.tags := rfl
@[simp] theorem State.modCtx_ueSectors (n c : Nat) (f : Ctx → Ctx) : (s.modCtx n c f).ueSectors = s.ueSectors := rfl
@[simp] theorem State.modCtx_ceSectors (n c : Nat) (f : Ctx → Ctx) : (s.modCtx n c f).ceSectors = s.ceSectors := rfl
@[simp] theorem State.modCtx_ctr (n c : Nat) (f : Ctx → Ctx) : (s.modCtx n c f).ctr = s.ctr := rfl
@[simp] theorem State.modCtx_hostrmw (n c : Nat) (f : Ctx → Ctx) : (s.modCtx n c f).hostrmw = s.hostrmw := rfl
@[simp] theorem State.modCtx_hostlost (n c : Nat) (f : Ctx → Ctx) : (s.modCtx n c f).hostlost = s.hostlost := rfl
@[simp] theorem State.modCtx_pkts (n c : Nat) (f : Ctx → Ctx) : (s.modCtx n c f).pkts = s.pkts := rfl
@[simp] theorem State.modCtx_nextPkt (n c : Nat) (f : Ctx → Ctx) : (s.modCtx n c f).nextPkt = s.nextPkt := rfl
@[simp] theorem State.modCtx_rngStage (n c : Nat) (f : Ctx → Ctx) : (s.modCtx n c f).rngStage = s.rngStage := rfl
@[simp] theorem State.modCtx_rngLive (n c : Nat) (f : Ctx → Ctx) : (s.modCtx n c f).rngLive = s.rngLive := rfl
@[simp] theorem State.modCtx_committing (n c : Nat) (f : Ctx → Ctx) : (s.modCtx n c f).committing = s.committing := rfl
@[simp] theorem State.modCtx_dieTlb (n c : Nat) (f : Ctx → Ctx) : (s.modCtx n c f).dieTlb = s.dieTlb := rfl
@[simp] theorem State.modCtx_futs (n c : Nat) (f : Ctx → Ctx) : (s.modCtx n c f).futs = s.futs := rfl
@[simp] theorem State.modCtx_sleepers (n c : Nat) (f : Ctx → Ctx) : (s.modCtx n c f).sleepers = s.sleepers := rfl
@[simp] theorem State.modCtx_slices (n c : Nat) (f : Ctx → Ctx) : (s.modCtx n c f).slices = s.slices := rfl
@[simp] theorem State.modCtx_pbars (n c : Nat) (f : Ctx → Ctx) : (s.modCtx n c f).pbars = s.pbars := rfl
@[simp] theorem State.modCtx_graphs (n c : Nat) (f : Ctx → Ctx) : (s.modCtx n c f).graphs = s.graphs := rfl
@[simp] theorem State.modCtx_nextGraph (n c : Nat) (f : Ctx → Ctx) : (s.modCtx n c f).nextGraph = s.nextGraph := rfl
@[simp] theorem State.modCtx_late (n c : Nat) (f : Ctx → Ctx) : (s.modCtx n c f).late = s.late := rfl
@[simp] theorem State.modCtx_owed (n c : Nat) (f : Ctx → Ctx) : (s.modCtx n c f).owed = s.owed := rfl
@[simp] theorem State.modCtx_queues (n c : Nat) (f : Ctx → Ctx) : (s.modCtx n c f).queues = s.queues := rfl
@[simp] theorem State.modCtx_launches (n c : Nat) (f : Ctx → Ctx) : (s.modCtx n c f).launches = s.launches := rfl
@[simp] theorem State.modCtx_nextLaunch (n c : Nat) (f : Ctx → Ctx) : (s.modCtx n c f).nextLaunch = s.nextLaunch := rfl
@[simp] theorem State.modCtx_regions (n c : Nat) (f : Ctx → Ctx) : (s.modCtx n c f).regions = s.regions := rfl
@[simp] theorem State.modCtx_seq (n c : Nat) (f : Ctx → Ctx) : (s.modCtx n c f).seq = s.seq := rfl
@[simp] theorem State.modCtx_handlers (n c : Nat) (f : Ctx → Ctx) : (s.modCtx n c f).handlers = s.handlers := rfl
@[simp] theorem State.modCtx_drec (n c : Nat) (f : Ctx → Ctx) : (s.modCtx n c f).drec = s.drec := rfl
@[simp] theorem State.modCtx_dceLast (n c : Nat) (f : Ctx → Ctx) : (s.modCtx n c f).dceLast = s.dceLast := rfl
@[simp] theorem State.modCtx_dup (n c : Nat) (f : Ctx → Ctx) : (s.modCtx n c f).dup = s.dup := rfl
@[simp] theorem State.modCtx_topo (n c : Nat) (f : Ctx → Ctx) : (s.modCtx n c f).topo = s.topo := rfl
@[simp] theorem State.modCtx_ports (n c : Nat) (f : Ctx → Ctx) : (s.modCtx n c f).ports = s.ports := rfl
@[simp] theorem State.modCtx_unlocking (n c : Nat) (f : Ctx → Ctx) : (s.modCtx n c f).unlocking = s.unlocking := rfl
@[simp] theorem State.modCtx_mgmt (n c : Nat) (f : Ctx → Ctx) : (s.modCtx n c f).mgmt = s.mgmt := rfl
@[simp] theorem State.modCtx_fab (n c : Nat) (f : Ctx → Ctx) : (s.modCtx n c f).fab = s.fab := rfl
@[simp] theorem State.modCtx_hostLines (n c : Nat) (f : Ctx → Ctx) : (s.modCtx n c f).hostLines = s.hostLines := rfl
@[simp] theorem State.modCtx_snoops (n c : Nat) (f : Ctx → Ctx) : (s.modCtx n c f).snoops = s.snoops := rfl
@[simp] theorem State.modCtx_hits (n c : Nat) (f : Ctx → Ctx) : (s.modCtx n c f).hits = s.hits := rfl
@[simp] theorem State.modCtx_hostRmw (n c : Nat) (f : Ctx → Ctx) : (s.modCtx n c f).hostRmw = s.hostRmw := rfl
@[simp] theorem State.modCtx_tb (n c : Nat) (f : Ctx → Ctx) : (s.modCtx n c f).tb = s.tb := rfl
@[simp] theorem State.modCtx_cycle (n c : Nat) (f : Ctx → Ctx) : (s.modCtx n c f).cycle = s.cycle := rfl
@[simp] theorem State.modCtx_homeWrites (n c : Nat) (f : Ctx → Ctx) : (s.modCtx n c f).homeWrites = s.homeWrites := rfl
@[simp] theorem State.modCtx_cur (n c : Nat) (f : Ctx → Ctx) : (s.modCtx n c f).cur = s.cur := rfl
@[simp] theorem State.modCtx_agenda (n c : Nat) (f : Ctx → Ctx) : (s.modCtx n c f).agenda = s.agenda := rfl
@[simp] theorem State.modCtx_turnNo (n c : Nat) (f : Ctx → Ctx) : (s.modCtx n c f).turnNo = s.turnNo := rfl
@[simp] theorem State.modCtx_free (n c : Nat) (f : Ctx → Ctx) : (s.modCtx n c f).free = s.free := rfl
@[simp] theorem State.modCtx_out (n c : Nat) (f : Ctx → Ctx) : (s.modCtx n c f).out = s.out := rfl

/-! setRun -/

@[simp] theorem State.setRun_mem (n k : Nat) (x : Run) : (s.setRun n k x).mem = s.mem := rfl
@[simp] theorem State.setRun_fmap (n k : Nat) (x : Run) : (s.setRun n k x).fmap = s.fmap := rfl
@[simp] theorem State.setRun_tags (n k : Nat) (x : Run) : (s.setRun n k x).tags = s.tags := rfl
@[simp] theorem State.setRun_ueSectors (n k : Nat) (x : Run) : (s.setRun n k x).ueSectors = s.ueSectors := rfl
@[simp] theorem State.setRun_ceSectors (n k : Nat) (x : Run) : (s.setRun n k x).ceSectors = s.ceSectors := rfl
@[simp] theorem State.setRun_ctr (n k : Nat) (x : Run) : (s.setRun n k x).ctr = s.ctr := rfl
@[simp] theorem State.setRun_hostrmw (n k : Nat) (x : Run) : (s.setRun n k x).hostrmw = s.hostrmw := rfl
@[simp] theorem State.setRun_hostlost (n k : Nat) (x : Run) : (s.setRun n k x).hostlost = s.hostlost := rfl
@[simp] theorem State.setRun_pkts (n k : Nat) (x : Run) : (s.setRun n k x).pkts = s.pkts := rfl
@[simp] theorem State.setRun_nextPkt (n k : Nat) (x : Run) : (s.setRun n k x).nextPkt = s.nextPkt := rfl
@[simp] theorem State.setRun_rngStage (n k : Nat) (x : Run) : (s.setRun n k x).rngStage = s.rngStage := rfl
@[simp] theorem State.setRun_rngLive (n k : Nat) (x : Run) : (s.setRun n k x).rngLive = s.rngLive := rfl
@[simp] theorem State.setRun_committing (n k : Nat) (x : Run) : (s.setRun n k x).committing = s.committing := rfl
@[simp] theorem State.setRun_dieTlb (n k : Nat) (x : Run) : (s.setRun n k x).dieTlb = s.dieTlb := rfl
@[simp] theorem State.setRun_futs (n k : Nat) (x : Run) : (s.setRun n k x).futs = s.futs := rfl
@[simp] theorem State.setRun_sleepers (n k : Nat) (x : Run) : (s.setRun n k x).sleepers = s.sleepers := rfl
@[simp] theorem State.setRun_slices (n k : Nat) (x : Run) : (s.setRun n k x).slices = s.slices := rfl
@[simp] theorem State.setRun_pbars (n k : Nat) (x : Run) : (s.setRun n k x).pbars = s.pbars := rfl
@[simp] theorem State.setRun_graphs (n k : Nat) (x : Run) : (s.setRun n k x).graphs = s.graphs := rfl
@[simp] theorem State.setRun_nextGraph (n k : Nat) (x : Run) : (s.setRun n k x).nextGraph = s.nextGraph := rfl
@[simp] theorem State.setRun_late (n k : Nat) (x : Run) : (s.setRun n k x).late = s.late := rfl
@[simp] theorem State.setRun_owed (n k : Nat) (x : Run) : (s.setRun n k x).owed = s.owed := rfl
@[simp] theorem State.setRun_queues (n k : Nat) (x : Run) : (s.setRun n k x).queues = s.queues := rfl
@[simp] theorem State.setRun_launches (n k : Nat) (x : Run) : (s.setRun n k x).launches = s.launches := rfl
@[simp] theorem State.setRun_nextLaunch (n k : Nat) (x : Run) : (s.setRun n k x).nextLaunch = s.nextLaunch := rfl
@[simp] theorem State.setRun_regions (n k : Nat) (x : Run) : (s.setRun n k x).regions = s.regions := rfl
@[simp] theorem State.setRun_seq (n k : Nat) (x : Run) : (s.setRun n k x).seq = s.seq := rfl
@[simp] theorem State.setRun_handlers (n k : Nat) (x : Run) : (s.setRun n k x).handlers = s.handlers := rfl
@[simp] theorem State.setRun_drec (n k : Nat) (x : Run) : (s.setRun n k x).drec = s.drec := rfl
@[simp] theorem State.setRun_dceLast (n k : Nat) (x : Run) : (s.setRun n k x).dceLast = s.dceLast := rfl
@[simp] theorem State.setRun_dup (n k : Nat) (x : Run) : (s.setRun n k x).dup = s.dup := rfl
@[simp] theorem State.setRun_topo (n k : Nat) (x : Run) : (s.setRun n k x).topo = s.topo := rfl
@[simp] theorem State.setRun_ports (n k : Nat) (x : Run) : (s.setRun n k x).ports = s.ports := rfl
@[simp] theorem State.setRun_unlocking (n k : Nat) (x : Run) : (s.setRun n k x).unlocking = s.unlocking := rfl
@[simp] theorem State.setRun_mgmt (n k : Nat) (x : Run) : (s.setRun n k x).mgmt = s.mgmt := rfl
@[simp] theorem State.setRun_fab (n k : Nat) (x : Run) : (s.setRun n k x).fab = s.fab := rfl
@[simp] theorem State.setRun_hostLines (n k : Nat) (x : Run) : (s.setRun n k x).hostLines = s.hostLines := rfl
@[simp] theorem State.setRun_snoops (n k : Nat) (x : Run) : (s.setRun n k x).snoops = s.snoops := rfl
@[simp] theorem State.setRun_hits (n k : Nat) (x : Run) : (s.setRun n k x).hits = s.hits := rfl
@[simp] theorem State.setRun_hostRmw (n k : Nat) (x : Run) : (s.setRun n k x).hostRmw = s.hostRmw := rfl
@[simp] theorem State.setRun_tb (n k : Nat) (x : Run) : (s.setRun n k x).tb = s.tb := rfl
@[simp] theorem State.setRun_cycle (n k : Nat) (x : Run) : (s.setRun n k x).cycle = s.cycle := rfl
@[simp] theorem State.setRun_homeWrites (n k : Nat) (x : Run) : (s.setRun n k x).homeWrites = s.homeWrites := rfl
@[simp] theorem State.setRun_cur (n k : Nat) (x : Run) : (s.setRun n k x).cur = s.cur := rfl
@[simp] theorem State.setRun_agenda (n k : Nat) (x : Run) : (s.setRun n k x).agenda = s.agenda := rfl
@[simp] theorem State.setRun_turnNo (n k : Nat) (x : Run) : (s.setRun n k x).turnNo = s.turnNo := rfl
@[simp] theorem State.setRun_free (n k : Nat) (x : Run) : (s.setRun n k x).free = s.free := rfl
@[simp] theorem State.setRun_out (n k : Nat) (x : Run) : (s.setRun n k x).out = s.out := rfl

/-! modRun -/

@[simp] theorem State.modRun_mem (n k : Nat) (f : Run → Run) : (s.modRun n k f).mem = s.mem := rfl
@[simp] theorem State.modRun_fmap (n k : Nat) (f : Run → Run) : (s.modRun n k f).fmap = s.fmap := rfl
@[simp] theorem State.modRun_tags (n k : Nat) (f : Run → Run) : (s.modRun n k f).tags = s.tags := rfl
@[simp] theorem State.modRun_ueSectors (n k : Nat) (f : Run → Run) : (s.modRun n k f).ueSectors = s.ueSectors := rfl
@[simp] theorem State.modRun_ceSectors (n k : Nat) (f : Run → Run) : (s.modRun n k f).ceSectors = s.ceSectors := rfl
@[simp] theorem State.modRun_ctr (n k : Nat) (f : Run → Run) : (s.modRun n k f).ctr = s.ctr := rfl
@[simp] theorem State.modRun_hostrmw (n k : Nat) (f : Run → Run) : (s.modRun n k f).hostrmw = s.hostrmw := rfl
@[simp] theorem State.modRun_hostlost (n k : Nat) (f : Run → Run) : (s.modRun n k f).hostlost = s.hostlost := rfl
@[simp] theorem State.modRun_pkts (n k : Nat) (f : Run → Run) : (s.modRun n k f).pkts = s.pkts := rfl
@[simp] theorem State.modRun_nextPkt (n k : Nat) (f : Run → Run) : (s.modRun n k f).nextPkt = s.nextPkt := rfl
@[simp] theorem State.modRun_rngStage (n k : Nat) (f : Run → Run) : (s.modRun n k f).rngStage = s.rngStage := rfl
@[simp] theorem State.modRun_rngLive (n k : Nat) (f : Run → Run) : (s.modRun n k f).rngLive = s.rngLive := rfl
@[simp] theorem State.modRun_committing (n k : Nat) (f : Run → Run) : (s.modRun n k f).committing = s.committing := rfl
@[simp] theorem State.modRun_dieTlb (n k : Nat) (f : Run → Run) : (s.modRun n k f).dieTlb = s.dieTlb := rfl
@[simp] theorem State.modRun_futs (n k : Nat) (f : Run → Run) : (s.modRun n k f).futs = s.futs := rfl
@[simp] theorem State.modRun_sleepers (n k : Nat) (f : Run → Run) : (s.modRun n k f).sleepers = s.sleepers := rfl
@[simp] theorem State.modRun_slices (n k : Nat) (f : Run → Run) : (s.modRun n k f).slices = s.slices := rfl
@[simp] theorem State.modRun_pbars (n k : Nat) (f : Run → Run) : (s.modRun n k f).pbars = s.pbars := rfl
@[simp] theorem State.modRun_graphs (n k : Nat) (f : Run → Run) : (s.modRun n k f).graphs = s.graphs := rfl
@[simp] theorem State.modRun_nextGraph (n k : Nat) (f : Run → Run) : (s.modRun n k f).nextGraph = s.nextGraph := rfl
@[simp] theorem State.modRun_late (n k : Nat) (f : Run → Run) : (s.modRun n k f).late = s.late := rfl
@[simp] theorem State.modRun_owed (n k : Nat) (f : Run → Run) : (s.modRun n k f).owed = s.owed := rfl
@[simp] theorem State.modRun_queues (n k : Nat) (f : Run → Run) : (s.modRun n k f).queues = s.queues := rfl
@[simp] theorem State.modRun_launches (n k : Nat) (f : Run → Run) : (s.modRun n k f).launches = s.launches := rfl
@[simp] theorem State.modRun_nextLaunch (n k : Nat) (f : Run → Run) : (s.modRun n k f).nextLaunch = s.nextLaunch := rfl
@[simp] theorem State.modRun_regions (n k : Nat) (f : Run → Run) : (s.modRun n k f).regions = s.regions := rfl
@[simp] theorem State.modRun_seq (n k : Nat) (f : Run → Run) : (s.modRun n k f).seq = s.seq := rfl
@[simp] theorem State.modRun_handlers (n k : Nat) (f : Run → Run) : (s.modRun n k f).handlers = s.handlers := rfl
@[simp] theorem State.modRun_drec (n k : Nat) (f : Run → Run) : (s.modRun n k f).drec = s.drec := rfl
@[simp] theorem State.modRun_dceLast (n k : Nat) (f : Run → Run) : (s.modRun n k f).dceLast = s.dceLast := rfl
@[simp] theorem State.modRun_dup (n k : Nat) (f : Run → Run) : (s.modRun n k f).dup = s.dup := rfl
@[simp] theorem State.modRun_topo (n k : Nat) (f : Run → Run) : (s.modRun n k f).topo = s.topo := rfl
@[simp] theorem State.modRun_ports (n k : Nat) (f : Run → Run) : (s.modRun n k f).ports = s.ports := rfl
@[simp] theorem State.modRun_unlocking (n k : Nat) (f : Run → Run) : (s.modRun n k f).unlocking = s.unlocking := rfl
@[simp] theorem State.modRun_mgmt (n k : Nat) (f : Run → Run) : (s.modRun n k f).mgmt = s.mgmt := rfl
@[simp] theorem State.modRun_fab (n k : Nat) (f : Run → Run) : (s.modRun n k f).fab = s.fab := rfl
@[simp] theorem State.modRun_hostLines (n k : Nat) (f : Run → Run) : (s.modRun n k f).hostLines = s.hostLines := rfl
@[simp] theorem State.modRun_snoops (n k : Nat) (f : Run → Run) : (s.modRun n k f).snoops = s.snoops := rfl
@[simp] theorem State.modRun_hits (n k : Nat) (f : Run → Run) : (s.modRun n k f).hits = s.hits := rfl
@[simp] theorem State.modRun_hostRmw (n k : Nat) (f : Run → Run) : (s.modRun n k f).hostRmw = s.hostRmw := rfl
@[simp] theorem State.modRun_tb (n k : Nat) (f : Run → Run) : (s.modRun n k f).tb = s.tb := rfl
@[simp] theorem State.modRun_cycle (n k : Nat) (f : Run → Run) : (s.modRun n k f).cycle = s.cycle := rfl
@[simp] theorem State.modRun_homeWrites (n k : Nat) (f : Run → Run) : (s.modRun n k f).homeWrites = s.homeWrites := rfl
@[simp] theorem State.modRun_cur (n k : Nat) (f : Run → Run) : (s.modRun n k f).cur = s.cur := rfl
@[simp] theorem State.modRun_agenda (n k : Nat) (f : Run → Run) : (s.modRun n k f).agenda = s.agenda := rfl
@[simp] theorem State.modRun_turnNo (n k : Nat) (f : Run → Run) : (s.modRun n k f).turnNo = s.turnNo := rfl
@[simp] theorem State.modRun_free (n k : Nat) (f : Run → Run) : (s.modRun n k f).free = s.free := rfl
@[simp] theorem State.modRun_out (n k : Nat) (f : Run → Run) : (s.modRun n k f).out = s.out := rfl

/-! setStream -/

@[simp] theorem State.setStream_mem (n d : Nat) (x : Stream) : (s.setStream n d x).mem = s.mem := rfl
@[simp] theorem State.setStream_fmap (n d : Nat) (x : Stream) : (s.setStream n d x).fmap = s.fmap := rfl
@[simp] theorem State.setStream_tags (n d : Nat) (x : Stream) : (s.setStream n d x).tags = s.tags := rfl
@[simp] theorem State.setStream_ueSectors (n d : Nat) (x : Stream) : (s.setStream n d x).ueSectors = s.ueSectors := rfl
@[simp] theorem State.setStream_ceSectors (n d : Nat) (x : Stream) : (s.setStream n d x).ceSectors = s.ceSectors := rfl
@[simp] theorem State.setStream_ctr (n d : Nat) (x : Stream) : (s.setStream n d x).ctr = s.ctr := rfl
@[simp] theorem State.setStream_hostrmw (n d : Nat) (x : Stream) : (s.setStream n d x).hostrmw = s.hostrmw := rfl
@[simp] theorem State.setStream_hostlost (n d : Nat) (x : Stream) : (s.setStream n d x).hostlost = s.hostlost := rfl
@[simp] theorem State.setStream_pkts (n d : Nat) (x : Stream) : (s.setStream n d x).pkts = s.pkts := rfl
@[simp] theorem State.setStream_nextPkt (n d : Nat) (x : Stream) : (s.setStream n d x).nextPkt = s.nextPkt := rfl
@[simp] theorem State.setStream_rngStage (n d : Nat) (x : Stream) : (s.setStream n d x).rngStage = s.rngStage := rfl
@[simp] theorem State.setStream_rngLive (n d : Nat) (x : Stream) : (s.setStream n d x).rngLive = s.rngLive := rfl
@[simp] theorem State.setStream_committing (n d : Nat) (x : Stream) : (s.setStream n d x).committing = s.committing := rfl
@[simp] theorem State.setStream_dieTlb (n d : Nat) (x : Stream) : (s.setStream n d x).dieTlb = s.dieTlb := rfl
@[simp] theorem State.setStream_futs (n d : Nat) (x : Stream) : (s.setStream n d x).futs = s.futs := rfl
@[simp] theorem State.setStream_sleepers (n d : Nat) (x : Stream) : (s.setStream n d x).sleepers = s.sleepers := rfl
@[simp] theorem State.setStream_slices (n d : Nat) (x : Stream) : (s.setStream n d x).slices = s.slices := rfl
@[simp] theorem State.setStream_pbars (n d : Nat) (x : Stream) : (s.setStream n d x).pbars = s.pbars := rfl
@[simp] theorem State.setStream_graphs (n d : Nat) (x : Stream) : (s.setStream n d x).graphs = s.graphs := rfl
@[simp] theorem State.setStream_nextGraph (n d : Nat) (x : Stream) : (s.setStream n d x).nextGraph = s.nextGraph := rfl
@[simp] theorem State.setStream_late (n d : Nat) (x : Stream) : (s.setStream n d x).late = s.late := rfl
@[simp] theorem State.setStream_owed (n d : Nat) (x : Stream) : (s.setStream n d x).owed = s.owed := rfl
@[simp] theorem State.setStream_queues (n d : Nat) (x : Stream) : (s.setStream n d x).queues = s.queues := rfl
@[simp] theorem State.setStream_launches (n d : Nat) (x : Stream) : (s.setStream n d x).launches = s.launches := rfl
@[simp] theorem State.setStream_nextLaunch (n d : Nat) (x : Stream) : (s.setStream n d x).nextLaunch = s.nextLaunch := rfl
@[simp] theorem State.setStream_regions (n d : Nat) (x : Stream) : (s.setStream n d x).regions = s.regions := rfl
@[simp] theorem State.setStream_seq (n d : Nat) (x : Stream) : (s.setStream n d x).seq = s.seq := rfl
@[simp] theorem State.setStream_handlers (n d : Nat) (x : Stream) : (s.setStream n d x).handlers = s.handlers := rfl
@[simp] theorem State.setStream_drec (n d : Nat) (x : Stream) : (s.setStream n d x).drec = s.drec := rfl
@[simp] theorem State.setStream_dceLast (n d : Nat) (x : Stream) : (s.setStream n d x).dceLast = s.dceLast := rfl
@[simp] theorem State.setStream_dup (n d : Nat) (x : Stream) : (s.setStream n d x).dup = s.dup := rfl
@[simp] theorem State.setStream_topo (n d : Nat) (x : Stream) : (s.setStream n d x).topo = s.topo := rfl
@[simp] theorem State.setStream_ports (n d : Nat) (x : Stream) : (s.setStream n d x).ports = s.ports := rfl
@[simp] theorem State.setStream_unlocking (n d : Nat) (x : Stream) : (s.setStream n d x).unlocking = s.unlocking := rfl
@[simp] theorem State.setStream_mgmt (n d : Nat) (x : Stream) : (s.setStream n d x).mgmt = s.mgmt := rfl
@[simp] theorem State.setStream_fab (n d : Nat) (x : Stream) : (s.setStream n d x).fab = s.fab := rfl
@[simp] theorem State.setStream_hostLines (n d : Nat) (x : Stream) : (s.setStream n d x).hostLines = s.hostLines := rfl
@[simp] theorem State.setStream_snoops (n d : Nat) (x : Stream) : (s.setStream n d x).snoops = s.snoops := rfl
@[simp] theorem State.setStream_hits (n d : Nat) (x : Stream) : (s.setStream n d x).hits = s.hits := rfl
@[simp] theorem State.setStream_hostRmw (n d : Nat) (x : Stream) : (s.setStream n d x).hostRmw = s.hostRmw := rfl
@[simp] theorem State.setStream_tb (n d : Nat) (x : Stream) : (s.setStream n d x).tb = s.tb := rfl
@[simp] theorem State.setStream_cycle (n d : Nat) (x : Stream) : (s.setStream n d x).cycle = s.cycle := rfl
@[simp] theorem State.setStream_homeWrites (n d : Nat) (x : Stream) : (s.setStream n d x).homeWrites = s.homeWrites := rfl
@[simp] theorem State.setStream_cur (n d : Nat) (x : Stream) : (s.setStream n d x).cur = s.cur := rfl
@[simp] theorem State.setStream_agenda (n d : Nat) (x : Stream) : (s.setStream n d x).agenda = s.agenda := rfl
@[simp] theorem State.setStream_turnNo (n d : Nat) (x : Stream) : (s.setStream n d x).turnNo = s.turnNo := rfl
@[simp] theorem State.setStream_free (n d : Nat) (x : Stream) : (s.setStream n d x).free = s.free := rfl
@[simp] theorem State.setStream_out (n d : Nat) (x : Stream) : (s.setStream n d x).out = s.out := rfl

/-! modMe -/

@[simp] theorem State.modMe_mem (f : Ctx → Ctx) : (s.modMe f).mem = s.mem := rfl
@[simp] theorem State.modMe_fmap (f : Ctx → Ctx) : (s.modMe f).fmap = s.fmap := rfl
@[simp] theorem State.modMe_tags (f : Ctx → Ctx) : (s.modMe f).tags = s.tags := rfl
@[simp] theorem State.modMe_ueSectors (f : Ctx → Ctx) : (s.modMe f).ueSectors = s.ueSectors := rfl
@[simp] theorem State.modMe_ceSectors (f : Ctx → Ctx) : (s.modMe f).ceSectors = s.ceSectors := rfl
@[simp] theorem State.modMe_ctr (f : Ctx → Ctx) : (s.modMe f).ctr = s.ctr := rfl
@[simp] theorem State.modMe_hostrmw (f : Ctx → Ctx) : (s.modMe f).hostrmw = s.hostrmw := rfl
@[simp] theorem State.modMe_hostlost (f : Ctx → Ctx) : (s.modMe f).hostlost = s.hostlost := rfl
@[simp] theorem State.modMe_pkts (f : Ctx → Ctx) : (s.modMe f).pkts = s.pkts := rfl
@[simp] theorem State.modMe_nextPkt (f : Ctx → Ctx) : (s.modMe f).nextPkt = s.nextPkt := rfl
@[simp] theorem State.modMe_rngStage (f : Ctx → Ctx) : (s.modMe f).rngStage = s.rngStage := rfl
@[simp] theorem State.modMe_rngLive (f : Ctx → Ctx) : (s.modMe f).rngLive = s.rngLive := rfl
@[simp] theorem State.modMe_committing (f : Ctx → Ctx) : (s.modMe f).committing = s.committing := rfl
@[simp] theorem State.modMe_dieTlb (f : Ctx → Ctx) : (s.modMe f).dieTlb = s.dieTlb := rfl
@[simp] theorem State.modMe_futs (f : Ctx → Ctx) : (s.modMe f).futs = s.futs := rfl
@[simp] theorem State.modMe_sleepers (f : Ctx → Ctx) : (s.modMe f).sleepers = s.sleepers := rfl
@[simp] theorem State.modMe_slices (f : Ctx → Ctx) : (s.modMe f).slices = s.slices := rfl
@[simp] theorem State.modMe_pbars (f : Ctx → Ctx) : (s.modMe f).pbars = s.pbars := rfl
@[simp] theorem State.modMe_graphs (f : Ctx → Ctx) : (s.modMe f).graphs = s.graphs := rfl
@[simp] theorem State.modMe_nextGraph (f : Ctx → Ctx) : (s.modMe f).nextGraph = s.nextGraph := rfl
@[simp] theorem State.modMe_late (f : Ctx → Ctx) : (s.modMe f).late = s.late := rfl
@[simp] theorem State.modMe_owed (f : Ctx → Ctx) : (s.modMe f).owed = s.owed := rfl
@[simp] theorem State.modMe_queues (f : Ctx → Ctx) : (s.modMe f).queues = s.queues := rfl
@[simp] theorem State.modMe_launches (f : Ctx → Ctx) : (s.modMe f).launches = s.launches := rfl
@[simp] theorem State.modMe_nextLaunch (f : Ctx → Ctx) : (s.modMe f).nextLaunch = s.nextLaunch := rfl
@[simp] theorem State.modMe_regions (f : Ctx → Ctx) : (s.modMe f).regions = s.regions := rfl
@[simp] theorem State.modMe_seq (f : Ctx → Ctx) : (s.modMe f).seq = s.seq := rfl
@[simp] theorem State.modMe_handlers (f : Ctx → Ctx) : (s.modMe f).handlers = s.handlers := rfl
@[simp] theorem State.modMe_drec (f : Ctx → Ctx) : (s.modMe f).drec = s.drec := rfl
@[simp] theorem State.modMe_dceLast (f : Ctx → Ctx) : (s.modMe f).dceLast = s.dceLast := rfl
@[simp] theorem State.modMe_dup (f : Ctx → Ctx) : (s.modMe f).dup = s.dup := rfl
@[simp] theorem State.modMe_topo (f : Ctx → Ctx) : (s.modMe f).topo = s.topo := rfl
@[simp] theorem State.modMe_ports (f : Ctx → Ctx) : (s.modMe f).ports = s.ports := rfl
@[simp] theorem State.modMe_unlocking (f : Ctx → Ctx) : (s.modMe f).unlocking = s.unlocking := rfl
@[simp] theorem State.modMe_mgmt (f : Ctx → Ctx) : (s.modMe f).mgmt = s.mgmt := rfl
@[simp] theorem State.modMe_fab (f : Ctx → Ctx) : (s.modMe f).fab = s.fab := rfl
@[simp] theorem State.modMe_hostLines (f : Ctx → Ctx) : (s.modMe f).hostLines = s.hostLines := rfl
@[simp] theorem State.modMe_snoops (f : Ctx → Ctx) : (s.modMe f).snoops = s.snoops := rfl
@[simp] theorem State.modMe_hits (f : Ctx → Ctx) : (s.modMe f).hits = s.hits := rfl
@[simp] theorem State.modMe_hostRmw (f : Ctx → Ctx) : (s.modMe f).hostRmw = s.hostRmw := rfl
@[simp] theorem State.modMe_tb (f : Ctx → Ctx) : (s.modMe f).tb = s.tb := rfl
@[simp] theorem State.modMe_cycle (f : Ctx → Ctx) : (s.modMe f).cycle = s.cycle := rfl
@[simp] theorem State.modMe_homeWrites (f : Ctx → Ctx) : (s.modMe f).homeWrites = s.homeWrites := rfl
@[simp] theorem State.modMe_cur (f : Ctx → Ctx) : (s.modMe f).cur = s.cur := rfl
@[simp] theorem State.modMe_agenda (f : Ctx → Ctx) : (s.modMe f).agenda = s.agenda := rfl
@[simp] theorem State.modMe_turnNo (f : Ctx → Ctx) : (s.modMe f).turnNo = s.turnNo := rfl
@[simp] theorem State.modMe_free (f : Ctx → Ctx) : (s.modMe f).free = s.free := rfl
@[simp] theorem State.modMe_out (f : Ctx → Ctx) : (s.modMe f).out = s.out := rfl

/-! modMySc -/

@[simp] theorem State.modMySc_mem (f : Sc → Sc) : (s.modMySc f).mem = s.mem := rfl
@[simp] theorem State.modMySc_fmap (f : Sc → Sc) : (s.modMySc f).fmap = s.fmap := rfl
@[simp] theorem State.modMySc_tags (f : Sc → Sc) : (s.modMySc f).tags = s.tags := rfl
@[simp] theorem State.modMySc_ueSectors (f : Sc → Sc) : (s.modMySc f).ueSectors = s.ueSectors := rfl
@[simp] theorem State.modMySc_ceSectors (f : Sc → Sc) : (s.modMySc f).ceSectors = s.ceSectors := rfl
@[simp] theorem State.modMySc_ctr (f : Sc → Sc) : (s.modMySc f).ctr = s.ctr := rfl
@[simp] theorem State.modMySc_hostrmw (f : Sc → Sc) : (s.modMySc f).hostrmw = s.hostrmw := rfl
@[simp] theorem State.modMySc_hostlost (f : Sc → Sc) : (s.modMySc f).hostlost = s.hostlost := rfl
@[simp] theorem State.modMySc_pkts (f : Sc → Sc) : (s.modMySc f).pkts = s.pkts := rfl
@[simp] theorem State.modMySc_nextPkt (f : Sc → Sc) : (s.modMySc f).nextPkt = s.nextPkt := rfl
@[simp] theorem State.modMySc_rngStage (f : Sc → Sc) : (s.modMySc f).rngStage = s.rngStage := rfl
@[simp] theorem State.modMySc_rngLive (f : Sc → Sc) : (s.modMySc f).rngLive = s.rngLive := rfl
@[simp] theorem State.modMySc_committing (f : Sc → Sc) : (s.modMySc f).committing = s.committing := rfl
@[simp] theorem State.modMySc_dieTlb (f : Sc → Sc) : (s.modMySc f).dieTlb = s.dieTlb := rfl
@[simp] theorem State.modMySc_futs (f : Sc → Sc) : (s.modMySc f).futs = s.futs := rfl
@[simp] theorem State.modMySc_sleepers (f : Sc → Sc) : (s.modMySc f).sleepers = s.sleepers := rfl
@[simp] theorem State.modMySc_slices (f : Sc → Sc) : (s.modMySc f).slices = s.slices := rfl
@[simp] theorem State.modMySc_pbars (f : Sc → Sc) : (s.modMySc f).pbars = s.pbars := rfl
@[simp] theorem State.modMySc_graphs (f : Sc → Sc) : (s.modMySc f).graphs = s.graphs := rfl
@[simp] theorem State.modMySc_nextGraph (f : Sc → Sc) : (s.modMySc f).nextGraph = s.nextGraph := rfl
@[simp] theorem State.modMySc_late (f : Sc → Sc) : (s.modMySc f).late = s.late := rfl
@[simp] theorem State.modMySc_owed (f : Sc → Sc) : (s.modMySc f).owed = s.owed := rfl
@[simp] theorem State.modMySc_queues (f : Sc → Sc) : (s.modMySc f).queues = s.queues := rfl
@[simp] theorem State.modMySc_launches (f : Sc → Sc) : (s.modMySc f).launches = s.launches := rfl
@[simp] theorem State.modMySc_nextLaunch (f : Sc → Sc) : (s.modMySc f).nextLaunch = s.nextLaunch := rfl
@[simp] theorem State.modMySc_regions (f : Sc → Sc) : (s.modMySc f).regions = s.regions := rfl
@[simp] theorem State.modMySc_seq (f : Sc → Sc) : (s.modMySc f).seq = s.seq := rfl
@[simp] theorem State.modMySc_handlers (f : Sc → Sc) : (s.modMySc f).handlers = s.handlers := rfl
@[simp] theorem State.modMySc_drec (f : Sc → Sc) : (s.modMySc f).drec = s.drec := rfl
@[simp] theorem State.modMySc_dceLast (f : Sc → Sc) : (s.modMySc f).dceLast = s.dceLast := rfl
@[simp] theorem State.modMySc_dup (f : Sc → Sc) : (s.modMySc f).dup = s.dup := rfl
@[simp] theorem State.modMySc_topo (f : Sc → Sc) : (s.modMySc f).topo = s.topo := rfl
@[simp] theorem State.modMySc_ports (f : Sc → Sc) : (s.modMySc f).ports = s.ports := rfl
@[simp] theorem State.modMySc_unlocking (f : Sc → Sc) : (s.modMySc f).unlocking = s.unlocking := rfl
@[simp] theorem State.modMySc_mgmt (f : Sc → Sc) : (s.modMySc f).mgmt = s.mgmt := rfl
@[simp] theorem State.modMySc_fab (f : Sc → Sc) : (s.modMySc f).fab = s.fab := rfl
@[simp] theorem State.modMySc_hostLines (f : Sc → Sc) : (s.modMySc f).hostLines = s.hostLines := rfl
@[simp] theorem State.modMySc_snoops (f : Sc → Sc) : (s.modMySc f).snoops = s.snoops := rfl
@[simp] theorem State.modMySc_hits (f : Sc → Sc) : (s.modMySc f).hits = s.hits := rfl
@[simp] theorem State.modMySc_hostRmw (f : Sc → Sc) : (s.modMySc f).hostRmw = s.hostRmw := rfl
@[simp] theorem State.modMySc_tb (f : Sc → Sc) : (s.modMySc f).tb = s.tb := rfl
@[simp] theorem State.modMySc_cycle (f : Sc → Sc) : (s.modMySc f).cycle = s.cycle := rfl
@[simp] theorem State.modMySc_homeWrites (f : Sc → Sc) : (s.modMySc f).homeWrites = s.homeWrites := rfl
@[simp] theorem State.modMySc_cur (f : Sc → Sc) : (s.modMySc f).cur = s.cur := rfl
@[simp] theorem State.modMySc_agenda (f : Sc → Sc) : (s.modMySc f).agenda = s.agenda := rfl
@[simp] theorem State.modMySc_turnNo (f : Sc → Sc) : (s.modMySc f).turnNo = s.turnNo := rfl
@[simp] theorem State.modMySc_free (f : Sc → Sc) : (s.modMySc f).free = s.free := rfl
@[simp] theorem State.modMySc_out (f : Sc → Sc) : (s.modMySc f).out = s.out := rfl

/-! modMyRun -/

@[simp] theorem State.modMyRun_mem (f : Run → Run) : (s.modMyRun f).mem = s.mem := rfl
@[simp] theorem State.modMyRun_fmap (f : Run → Run) : (s.modMyRun f).fmap = s.fmap := rfl
@[simp] theorem State.modMyRun_tags (f : Run → Run) : (s.modMyRun f).tags = s.tags := rfl
@[simp] theorem State.modMyRun_ueSectors (f : Run → Run) : (s.modMyRun f).ueSectors = s.ueSectors := rfl
@[simp] theorem State.modMyRun_ceSectors (f : Run → Run) : (s.modMyRun f).ceSectors = s.ceSectors := rfl
@[simp] theorem State.modMyRun_ctr (f : Run → Run) : (s.modMyRun f).ctr = s.ctr := rfl
@[simp] theorem State.modMyRun_hostrmw (f : Run → Run) : (s.modMyRun f).hostrmw = s.hostrmw := rfl
@[simp] theorem State.modMyRun_hostlost (f : Run → Run) : (s.modMyRun f).hostlost = s.hostlost := rfl
@[simp] theorem State.modMyRun_pkts (f : Run → Run) : (s.modMyRun f).pkts = s.pkts := rfl
@[simp] theorem State.modMyRun_nextPkt (f : Run → Run) : (s.modMyRun f).nextPkt = s.nextPkt := rfl
@[simp] theorem State.modMyRun_rngStage (f : Run → Run) : (s.modMyRun f).rngStage = s.rngStage := rfl
@[simp] theorem State.modMyRun_rngLive (f : Run → Run) : (s.modMyRun f).rngLive = s.rngLive := rfl
@[simp] theorem State.modMyRun_committing (f : Run → Run) : (s.modMyRun f).committing = s.committing := rfl
@[simp] theorem State.modMyRun_dieTlb (f : Run → Run) : (s.modMyRun f).dieTlb = s.dieTlb := rfl
@[simp] theorem State.modMyRun_futs (f : Run → Run) : (s.modMyRun f).futs = s.futs := rfl
@[simp] theorem State.modMyRun_sleepers (f : Run → Run) : (s.modMyRun f).sleepers = s.sleepers := rfl
@[simp] theorem State.modMyRun_slices (f : Run → Run) : (s.modMyRun f).slices = s.slices := rfl
@[simp] theorem State.modMyRun_pbars (f : Run → Run) : (s.modMyRun f).pbars = s.pbars := rfl
@[simp] theorem State.modMyRun_graphs (f : Run → Run) : (s.modMyRun f).graphs = s.graphs := rfl
@[simp] theorem State.modMyRun_nextGraph (f : Run → Run) : (s.modMyRun f).nextGraph = s.nextGraph := rfl
@[simp] theorem State.modMyRun_late (f : Run → Run) : (s.modMyRun f).late = s.late := rfl
@[simp] theorem State.modMyRun_owed (f : Run → Run) : (s.modMyRun f).owed = s.owed := rfl
@[simp] theorem State.modMyRun_queues (f : Run → Run) : (s.modMyRun f).queues = s.queues := rfl
@[simp] theorem State.modMyRun_launches (f : Run → Run) : (s.modMyRun f).launches = s.launches := rfl
@[simp] theorem State.modMyRun_nextLaunch (f : Run → Run) : (s.modMyRun f).nextLaunch = s.nextLaunch := rfl
@[simp] theorem State.modMyRun_regions (f : Run → Run) : (s.modMyRun f).regions = s.regions := rfl
@[simp] theorem State.modMyRun_seq (f : Run → Run) : (s.modMyRun f).seq = s.seq := rfl
@[simp] theorem State.modMyRun_handlers (f : Run → Run) : (s.modMyRun f).handlers = s.handlers := rfl
@[simp] theorem State.modMyRun_drec (f : Run → Run) : (s.modMyRun f).drec = s.drec := rfl
@[simp] theorem State.modMyRun_dceLast (f : Run → Run) : (s.modMyRun f).dceLast = s.dceLast := rfl
@[simp] theorem State.modMyRun_dup (f : Run → Run) : (s.modMyRun f).dup = s.dup := rfl
@[simp] theorem State.modMyRun_topo (f : Run → Run) : (s.modMyRun f).topo = s.topo := rfl
@[simp] theorem State.modMyRun_ports (f : Run → Run) : (s.modMyRun f).ports = s.ports := rfl
@[simp] theorem State.modMyRun_unlocking (f : Run → Run) : (s.modMyRun f).unlocking = s.unlocking := rfl
@[simp] theorem State.modMyRun_mgmt (f : Run → Run) : (s.modMyRun f).mgmt = s.mgmt := rfl
@[simp] theorem State.modMyRun_fab (f : Run → Run) : (s.modMyRun f).fab = s.fab := rfl
@[simp] theorem State.modMyRun_hostLines (f : Run → Run) : (s.modMyRun f).hostLines = s.hostLines := rfl
@[simp] theorem State.modMyRun_snoops (f : Run → Run) : (s.modMyRun f).snoops = s.snoops := rfl
@[simp] theorem State.modMyRun_hits (f : Run → Run) : (s.modMyRun f).hits = s.hits := rfl
@[simp] theorem State.modMyRun_hostRmw (f : Run → Run) : (s.modMyRun f).hostRmw = s.hostRmw := rfl
@[simp] theorem State.modMyRun_tb (f : Run → Run) : (s.modMyRun f).tb = s.tb := rfl
@[simp] theorem State.modMyRun_cycle (f : Run → Run) : (s.modMyRun f).cycle = s.cycle := rfl
@[simp] theorem State.modMyRun_homeWrites (f : Run → Run) : (s.modMyRun f).homeWrites = s.homeWrites := rfl
@[simp] theorem State.modMyRun_cur (f : Run → Run) : (s.modMyRun f).cur = s.cur := rfl
@[simp] theorem State.modMyRun_agenda (f : Run → Run) : (s.modMyRun f).agenda = s.agenda := rfl
@[simp] theorem State.modMyRun_turnNo (f : Run → Run) : (s.modMyRun f).turnNo = s.turnNo := rfl
@[simp] theorem State.modMyRun_free (f : Run → Run) : (s.modMyRun f).free = s.free := rfl
@[simp] theorem State.modMyRun_out (f : Run → Run) : (s.modMyRun f).out = s.out := rfl

/-! setG -/

@[simp] theorem State.setG_mem (r : BitVec 5) (v : Word) : (s.setG r v).mem = s.mem := rfl
@[simp] theorem State.setG_fmap (r : BitVec 5) (v : Word) : (s.setG r v).fmap = s.fmap := rfl
@[simp] theorem State.setG_tags (r : BitVec 5) (v : Word) : (s.setG r v).tags = s.tags := rfl
@[simp] theorem State.setG_ueSectors (r : BitVec 5) (v : Word) : (s.setG r v).ueSectors = s.ueSectors := rfl
@[simp] theorem State.setG_ceSectors (r : BitVec 5) (v : Word) : (s.setG r v).ceSectors = s.ceSectors := rfl
@[simp] theorem State.setG_ctr (r : BitVec 5) (v : Word) : (s.setG r v).ctr = s.ctr := rfl
@[simp] theorem State.setG_hostrmw (r : BitVec 5) (v : Word) : (s.setG r v).hostrmw = s.hostrmw := rfl
@[simp] theorem State.setG_hostlost (r : BitVec 5) (v : Word) : (s.setG r v).hostlost = s.hostlost := rfl
@[simp] theorem State.setG_pkts (r : BitVec 5) (v : Word) : (s.setG r v).pkts = s.pkts := rfl
@[simp] theorem State.setG_nextPkt (r : BitVec 5) (v : Word) : (s.setG r v).nextPkt = s.nextPkt := rfl
@[simp] theorem State.setG_rngStage (r : BitVec 5) (v : Word) : (s.setG r v).rngStage = s.rngStage := rfl
@[simp] theorem State.setG_rngLive (r : BitVec 5) (v : Word) : (s.setG r v).rngLive = s.rngLive := rfl
@[simp] theorem State.setG_committing (r : BitVec 5) (v : Word) : (s.setG r v).committing = s.committing := rfl
@[simp] theorem State.setG_dieTlb (r : BitVec 5) (v : Word) : (s.setG r v).dieTlb = s.dieTlb := rfl
@[simp] theorem State.setG_futs (r : BitVec 5) (v : Word) : (s.setG r v).futs = s.futs := rfl
@[simp] theorem State.setG_sleepers (r : BitVec 5) (v : Word) : (s.setG r v).sleepers = s.sleepers := rfl
@[simp] theorem State.setG_slices (r : BitVec 5) (v : Word) : (s.setG r v).slices = s.slices := rfl
@[simp] theorem State.setG_pbars (r : BitVec 5) (v : Word) : (s.setG r v).pbars = s.pbars := rfl
@[simp] theorem State.setG_graphs (r : BitVec 5) (v : Word) : (s.setG r v).graphs = s.graphs := rfl
@[simp] theorem State.setG_nextGraph (r : BitVec 5) (v : Word) : (s.setG r v).nextGraph = s.nextGraph := rfl
@[simp] theorem State.setG_late (r : BitVec 5) (v : Word) : (s.setG r v).late = s.late := rfl
@[simp] theorem State.setG_owed (r : BitVec 5) (v : Word) : (s.setG r v).owed = s.owed := rfl
@[simp] theorem State.setG_queues (r : BitVec 5) (v : Word) : (s.setG r v).queues = s.queues := rfl
@[simp] theorem State.setG_launches (r : BitVec 5) (v : Word) : (s.setG r v).launches = s.launches := rfl
@[simp] theorem State.setG_nextLaunch (r : BitVec 5) (v : Word) : (s.setG r v).nextLaunch = s.nextLaunch := rfl
@[simp] theorem State.setG_regions (r : BitVec 5) (v : Word) : (s.setG r v).regions = s.regions := rfl
@[simp] theorem State.setG_seq (r : BitVec 5) (v : Word) : (s.setG r v).seq = s.seq := rfl
@[simp] theorem State.setG_handlers (r : BitVec 5) (v : Word) : (s.setG r v).handlers = s.handlers := rfl
@[simp] theorem State.setG_drec (r : BitVec 5) (v : Word) : (s.setG r v).drec = s.drec := rfl
@[simp] theorem State.setG_dceLast (r : BitVec 5) (v : Word) : (s.setG r v).dceLast = s.dceLast := rfl
@[simp] theorem State.setG_dup (r : BitVec 5) (v : Word) : (s.setG r v).dup = s.dup := rfl
@[simp] theorem State.setG_topo (r : BitVec 5) (v : Word) : (s.setG r v).topo = s.topo := rfl
@[simp] theorem State.setG_ports (r : BitVec 5) (v : Word) : (s.setG r v).ports = s.ports := rfl
@[simp] theorem State.setG_unlocking (r : BitVec 5) (v : Word) : (s.setG r v).unlocking = s.unlocking := rfl
@[simp] theorem State.setG_mgmt (r : BitVec 5) (v : Word) : (s.setG r v).mgmt = s.mgmt := rfl
@[simp] theorem State.setG_fab (r : BitVec 5) (v : Word) : (s.setG r v).fab = s.fab := rfl
@[simp] theorem State.setG_hostLines (r : BitVec 5) (v : Word) : (s.setG r v).hostLines = s.hostLines := rfl
@[simp] theorem State.setG_snoops (r : BitVec 5) (v : Word) : (s.setG r v).snoops = s.snoops := rfl
@[simp] theorem State.setG_hits (r : BitVec 5) (v : Word) : (s.setG r v).hits = s.hits := rfl
@[simp] theorem State.setG_hostRmw (r : BitVec 5) (v : Word) : (s.setG r v).hostRmw = s.hostRmw := rfl
@[simp] theorem State.setG_tb (r : BitVec 5) (v : Word) : (s.setG r v).tb = s.tb := rfl
@[simp] theorem State.setG_cycle (r : BitVec 5) (v : Word) : (s.setG r v).cycle = s.cycle := rfl
@[simp] theorem State.setG_homeWrites (r : BitVec 5) (v : Word) : (s.setG r v).homeWrites = s.homeWrites := rfl
@[simp] theorem State.setG_cur (r : BitVec 5) (v : Word) : (s.setG r v).cur = s.cur := rfl
@[simp] theorem State.setG_agenda (r : BitVec 5) (v : Word) : (s.setG r v).agenda = s.agenda := rfl
@[simp] theorem State.setG_turnNo (r : BitVec 5) (v : Word) : (s.setG r v).turnNo = s.turnNo := rfl
@[simp] theorem State.setG_free (r : BitVec 5) (v : Word) : (s.setG r v).free = s.free := rfl
@[simp] theorem State.setG_out (r : BitVec 5) (v : Word) : (s.setG r v).out = s.out := rfl

/-! fin -/

@[simp] theorem State.fin_mem : (s.fin).mem = s.mem := rfl
@[simp] theorem State.fin_fmap : (s.fin).fmap = s.fmap := rfl
@[simp] theorem State.fin_tags : (s.fin).tags = s.tags := rfl
@[simp] theorem State.fin_ueSectors : (s.fin).ueSectors = s.ueSectors := rfl
@[simp] theorem State.fin_ceSectors : (s.fin).ceSectors = s.ceSectors := rfl
@[simp] theorem State.fin_ctr : (s.fin).ctr = s.ctr := rfl
@[simp] theorem State.fin_hostrmw : (s.fin).hostrmw = s.hostrmw := rfl
@[simp] theorem State.fin_hostlost : (s.fin).hostlost = s.hostlost := rfl
@[simp] theorem State.fin_pkts : (s.fin).pkts = s.pkts := rfl
@[simp] theorem State.fin_nextPkt : (s.fin).nextPkt = s.nextPkt := rfl
@[simp] theorem State.fin_rngStage : (s.fin).rngStage = s.rngStage := rfl
@[simp] theorem State.fin_rngLive : (s.fin).rngLive = s.rngLive := rfl
@[simp] theorem State.fin_committing : (s.fin).committing = s.committing := rfl
@[simp] theorem State.fin_dieTlb : (s.fin).dieTlb = s.dieTlb := rfl
@[simp] theorem State.fin_futs : (s.fin).futs = s.futs := rfl
@[simp] theorem State.fin_sleepers : (s.fin).sleepers = s.sleepers := rfl
@[simp] theorem State.fin_slices : (s.fin).slices = s.slices := rfl
@[simp] theorem State.fin_pbars : (s.fin).pbars = s.pbars := rfl
@[simp] theorem State.fin_graphs : (s.fin).graphs = s.graphs := rfl
@[simp] theorem State.fin_nextGraph : (s.fin).nextGraph = s.nextGraph := rfl
@[simp] theorem State.fin_late : (s.fin).late = s.late := rfl
@[simp] theorem State.fin_owed : (s.fin).owed = s.owed := rfl
@[simp] theorem State.fin_queues : (s.fin).queues = s.queues := rfl
@[simp] theorem State.fin_launches : (s.fin).launches = s.launches := rfl
@[simp] theorem State.fin_nextLaunch : (s.fin).nextLaunch = s.nextLaunch := rfl
@[simp] theorem State.fin_regions : (s.fin).regions = s.regions := rfl
@[simp] theorem State.fin_seq : (s.fin).seq = s.seq := rfl
@[simp] theorem State.fin_handlers : (s.fin).handlers = s.handlers := rfl
@[simp] theorem State.fin_drec : (s.fin).drec = s.drec := rfl
@[simp] theorem State.fin_dceLast : (s.fin).dceLast = s.dceLast := rfl
@[simp] theorem State.fin_dup : (s.fin).dup = s.dup := rfl
@[simp] theorem State.fin_topo : (s.fin).topo = s.topo := rfl
@[simp] theorem State.fin_ports : (s.fin).ports = s.ports := rfl
@[simp] theorem State.fin_unlocking : (s.fin).unlocking = s.unlocking := rfl
@[simp] theorem State.fin_mgmt : (s.fin).mgmt = s.mgmt := rfl
@[simp] theorem State.fin_fab : (s.fin).fab = s.fab := rfl
@[simp] theorem State.fin_hostLines : (s.fin).hostLines = s.hostLines := rfl
@[simp] theorem State.fin_snoops : (s.fin).snoops = s.snoops := rfl
@[simp] theorem State.fin_hits : (s.fin).hits = s.hits := rfl
@[simp] theorem State.fin_hostRmw : (s.fin).hostRmw = s.hostRmw := rfl
@[simp] theorem State.fin_tb : (s.fin).tb = s.tb := rfl
@[simp] theorem State.fin_cycle : (s.fin).cycle = s.cycle := rfl
@[simp] theorem State.fin_homeWrites : (s.fin).homeWrites = s.homeWrites := rfl
@[simp] theorem State.fin_cur : (s.fin).cur = s.cur := rfl
@[simp] theorem State.fin_agenda : (s.fin).agenda = s.agenda := rfl
@[simp] theorem State.fin_turnNo : (s.fin).turnNo = s.turnNo := rfl
@[simp] theorem State.fin_free : (s.fin).free = s.free := rfl
@[simp] theorem State.fin_out : (s.fin).out = s.out := rfl

/-! jump -/

@[simp] theorem State.jump_mem (a : Word) : (s.jump a).mem = s.mem := rfl
@[simp] theorem State.jump_fmap (a : Word) : (s.jump a).fmap = s.fmap := rfl
@[simp] theorem State.jump_tags (a : Word) : (s.jump a).tags = s.tags := rfl
@[simp] theorem State.jump_ueSectors (a : Word) : (s.jump a).ueSectors = s.ueSectors := rfl
@[simp] theorem State.jump_ceSectors (a : Word) : (s.jump a).ceSectors = s.ceSectors := rfl
@[simp] theorem State.jump_ctr (a : Word) : (s.jump a).ctr = s.ctr := rfl
@[simp] theorem State.jump_hostrmw (a : Word) : (s.jump a).hostrmw = s.hostrmw := rfl
@[simp] theorem State.jump_hostlost (a : Word) : (s.jump a).hostlost = s.hostlost := rfl
@[simp] theorem State.jump_pkts (a : Word) : (s.jump a).pkts = s.pkts := rfl
@[simp] theorem State.jump_nextPkt (a : Word) : (s.jump a).nextPkt = s.nextPkt := rfl
@[simp] theorem State.jump_rngStage (a : Word) : (s.jump a).rngStage = s.rngStage := rfl
@[simp] theorem State.jump_rngLive (a : Word) : (s.jump a).rngLive = s.rngLive := rfl
@[simp] theorem State.jump_committing (a : Word) : (s.jump a).committing = s.committing := rfl
@[simp] theorem State.jump_dieTlb (a : Word) : (s.jump a).dieTlb = s.dieTlb := rfl
@[simp] theorem State.jump_futs (a : Word) : (s.jump a).futs = s.futs := rfl
@[simp] theorem State.jump_sleepers (a : Word) : (s.jump a).sleepers = s.sleepers := rfl
@[simp] theorem State.jump_slices (a : Word) : (s.jump a).slices = s.slices := rfl
@[simp] theorem State.jump_pbars (a : Word) : (s.jump a).pbars = s.pbars := rfl
@[simp] theorem State.jump_graphs (a : Word) : (s.jump a).graphs = s.graphs := rfl
@[simp] theorem State.jump_nextGraph (a : Word) : (s.jump a).nextGraph = s.nextGraph := rfl
@[simp] theorem State.jump_late (a : Word) : (s.jump a).late = s.late := rfl
@[simp] theorem State.jump_owed (a : Word) : (s.jump a).owed = s.owed := rfl
@[simp] theorem State.jump_queues (a : Word) : (s.jump a).queues = s.queues := rfl
@[simp] theorem State.jump_launches (a : Word) : (s.jump a).launches = s.launches := rfl
@[simp] theorem State.jump_nextLaunch (a : Word) : (s.jump a).nextLaunch = s.nextLaunch := rfl
@[simp] theorem State.jump_regions (a : Word) : (s.jump a).regions = s.regions := rfl
@[simp] theorem State.jump_seq (a : Word) : (s.jump a).seq = s.seq := rfl
@[simp] theorem State.jump_handlers (a : Word) : (s.jump a).handlers = s.handlers := rfl
@[simp] theorem State.jump_drec (a : Word) : (s.jump a).drec = s.drec := rfl
@[simp] theorem State.jump_dceLast (a : Word) : (s.jump a).dceLast = s.dceLast := rfl
@[simp] theorem State.jump_dup (a : Word) : (s.jump a).dup = s.dup := rfl
@[simp] theorem State.jump_topo (a : Word) : (s.jump a).topo = s.topo := rfl
@[simp] theorem State.jump_ports (a : Word) : (s.jump a).ports = s.ports := rfl
@[simp] theorem State.jump_unlocking (a : Word) : (s.jump a).unlocking = s.unlocking := rfl
@[simp] theorem State.jump_mgmt (a : Word) : (s.jump a).mgmt = s.mgmt := rfl
@[simp] theorem State.jump_fab (a : Word) : (s.jump a).fab = s.fab := rfl
@[simp] theorem State.jump_hostLines (a : Word) : (s.jump a).hostLines = s.hostLines := rfl
@[simp] theorem State.jump_snoops (a : Word) : (s.jump a).snoops = s.snoops := rfl
@[simp] theorem State.jump_hits (a : Word) : (s.jump a).hits = s.hits := rfl
@[simp] theorem State.jump_hostRmw (a : Word) : (s.jump a).hostRmw = s.hostRmw := rfl
@[simp] theorem State.jump_tb (a : Word) : (s.jump a).tb = s.tb := rfl
@[simp] theorem State.jump_cycle (a : Word) : (s.jump a).cycle = s.cycle := rfl
@[simp] theorem State.jump_homeWrites (a : Word) : (s.jump a).homeWrites = s.homeWrites := rfl
@[simp] theorem State.jump_cur (a : Word) : (s.jump a).cur = s.cur := rfl
@[simp] theorem State.jump_agenda (a : Word) : (s.jump a).agenda = s.agenda := rfl
@[simp] theorem State.jump_turnNo (a : Word) : (s.jump a).turnNo = s.turnNo := rfl
@[simp] theorem State.jump_free (a : Word) : (s.jump a).free = s.free := rfl
@[simp] theorem State.jump_out (a : Word) : (s.jump a).out = s.out := rfl

/-! ret -/

@[simp] theorem State.ret_mem (r : BitVec 5) (v : Word) : (s.ret r v).mem = s.mem := rfl
@[simp] theorem State.ret_fmap (r : BitVec 5) (v : Word) : (s.ret r v).fmap = s.fmap := rfl
@[simp] theorem State.ret_tags (r : BitVec 5) (v : Word) : (s.ret r v).tags = s.tags := rfl
@[simp] theorem State.ret_ueSectors (r : BitVec 5) (v : Word) : (s.ret r v).ueSectors = s.ueSectors := rfl
@[simp] theorem State.ret_ceSectors (r : BitVec 5) (v : Word) : (s.ret r v).ceSectors = s.ceSectors := rfl
@[simp] theorem State.ret_ctr (r : BitVec 5) (v : Word) : (s.ret r v).ctr = s.ctr := rfl
@[simp] theorem State.ret_hostrmw (r : BitVec 5) (v : Word) : (s.ret r v).hostrmw = s.hostrmw := rfl
@[simp] theorem State.ret_hostlost (r : BitVec 5) (v : Word) : (s.ret r v).hostlost = s.hostlost := rfl
@[simp] theorem State.ret_pkts (r : BitVec 5) (v : Word) : (s.ret r v).pkts = s.pkts := rfl
@[simp] theorem State.ret_nextPkt (r : BitVec 5) (v : Word) : (s.ret r v).nextPkt = s.nextPkt := rfl
@[simp] theorem State.ret_rngStage (r : BitVec 5) (v : Word) : (s.ret r v).rngStage = s.rngStage := rfl
@[simp] theorem State.ret_rngLive (r : BitVec 5) (v : Word) : (s.ret r v).rngLive = s.rngLive := rfl
@[simp] theorem State.ret_committing (r : BitVec 5) (v : Word) : (s.ret r v).committing = s.committing := rfl
@[simp] theorem State.ret_dieTlb (r : BitVec 5) (v : Word) : (s.ret r v).dieTlb = s.dieTlb := rfl
@[simp] theorem State.ret_futs (r : BitVec 5) (v : Word) : (s.ret r v).futs = s.futs := rfl
@[simp] theorem State.ret_sleepers (r : BitVec 5) (v : Word) : (s.ret r v).sleepers = s.sleepers := rfl
@[simp] theorem State.ret_slices (r : BitVec 5) (v : Word) : (s.ret r v).slices = s.slices := rfl
@[simp] theorem State.ret_pbars (r : BitVec 5) (v : Word) : (s.ret r v).pbars = s.pbars := rfl
@[simp] theorem State.ret_graphs (r : BitVec 5) (v : Word) : (s.ret r v).graphs = s.graphs := rfl
@[simp] theorem State.ret_nextGraph (r : BitVec 5) (v : Word) : (s.ret r v).nextGraph = s.nextGraph := rfl
@[simp] theorem State.ret_late (r : BitVec 5) (v : Word) : (s.ret r v).late = s.late := rfl
@[simp] theorem State.ret_owed (r : BitVec 5) (v : Word) : (s.ret r v).owed = s.owed := rfl
@[simp] theorem State.ret_queues (r : BitVec 5) (v : Word) : (s.ret r v).queues = s.queues := rfl
@[simp] theorem State.ret_launches (r : BitVec 5) (v : Word) : (s.ret r v).launches = s.launches := rfl
@[simp] theorem State.ret_nextLaunch (r : BitVec 5) (v : Word) : (s.ret r v).nextLaunch = s.nextLaunch := rfl
@[simp] theorem State.ret_regions (r : BitVec 5) (v : Word) : (s.ret r v).regions = s.regions := rfl
@[simp] theorem State.ret_seq (r : BitVec 5) (v : Word) : (s.ret r v).seq = s.seq := rfl
@[simp] theorem State.ret_handlers (r : BitVec 5) (v : Word) : (s.ret r v).handlers = s.handlers := rfl
@[simp] theorem State.ret_drec (r : BitVec 5) (v : Word) : (s.ret r v).drec = s.drec := rfl
@[simp] theorem State.ret_dceLast (r : BitVec 5) (v : Word) : (s.ret r v).dceLast = s.dceLast := rfl
@[simp] theorem State.ret_dup (r : BitVec 5) (v : Word) : (s.ret r v).dup = s.dup := rfl
@[simp] theorem State.ret_topo (r : BitVec 5) (v : Word) : (s.ret r v).topo = s.topo := rfl
@[simp] theorem State.ret_ports (r : BitVec 5) (v : Word) : (s.ret r v).ports = s.ports := rfl
@[simp] theorem State.ret_unlocking (r : BitVec 5) (v : Word) : (s.ret r v).unlocking = s.unlocking := rfl
@[simp] theorem State.ret_mgmt (r : BitVec 5) (v : Word) : (s.ret r v).mgmt = s.mgmt := rfl
@[simp] theorem State.ret_fab (r : BitVec 5) (v : Word) : (s.ret r v).fab = s.fab := rfl
@[simp] theorem State.ret_hostLines (r : BitVec 5) (v : Word) : (s.ret r v).hostLines = s.hostLines := rfl
@[simp] theorem State.ret_snoops (r : BitVec 5) (v : Word) : (s.ret r v).snoops = s.snoops := rfl
@[simp] theorem State.ret_hits (r : BitVec 5) (v : Word) : (s.ret r v).hits = s.hits := rfl
@[simp] theorem State.ret_hostRmw (r : BitVec 5) (v : Word) : (s.ret r v).hostRmw = s.hostRmw := rfl
@[simp] theorem State.ret_tb (r : BitVec 5) (v : Word) : (s.ret r v).tb = s.tb := rfl
@[simp] theorem State.ret_cycle (r : BitVec 5) (v : Word) : (s.ret r v).cycle = s.cycle := rfl
@[simp] theorem State.ret_homeWrites (r : BitVec 5) (v : Word) : (s.ret r v).homeWrites = s.homeWrites := rfl
@[simp] theorem State.ret_cur (r : BitVec 5) (v : Word) : (s.ret r v).cur = s.cur := rfl
@[simp] theorem State.ret_agenda (r : BitVec 5) (v : Word) : (s.ret r v).agenda = s.agenda := rfl
@[simp] theorem State.ret_turnNo (r : BitVec 5) (v : Word) : (s.ret r v).turnNo = s.turnNo := rfl
@[simp] theorem State.ret_free (r : BitVec 5) (v : Word) : (s.ret r v).free = s.free := rfl
@[simp] theorem State.ret_out (r : BitVec 5) (v : Word) : (s.ret r v).out = s.out := rfl

/-! block -/

@[simp] theorem State.block_mem (w : Wait) (lod : Bool) : (s.block w lod).mem = s.mem := rfl
@[simp] theorem State.block_fmap (w : Wait) (lod : Bool) : (s.block w lod).fmap = s.fmap := rfl
@[simp] theorem State.block_tags (w : Wait) (lod : Bool) : (s.block w lod).tags = s.tags := rfl
@[simp] theorem State.block_ueSectors (w : Wait) (lod : Bool) : (s.block w lod).ueSectors = s.ueSectors := rfl
@[simp] theorem State.block_ceSectors (w : Wait) (lod : Bool) : (s.block w lod).ceSectors = s.ceSectors := rfl
@[simp] theorem State.block_ctr (w : Wait) (lod : Bool) : (s.block w lod).ctr = s.ctr := rfl
@[simp] theorem State.block_hostrmw (w : Wait) (lod : Bool) : (s.block w lod).hostrmw = s.hostrmw := rfl
@[simp] theorem State.block_hostlost (w : Wait) (lod : Bool) : (s.block w lod).hostlost = s.hostlost := rfl
@[simp] theorem State.block_pkts (w : Wait) (lod : Bool) : (s.block w lod).pkts = s.pkts := rfl
@[simp] theorem State.block_nextPkt (w : Wait) (lod : Bool) : (s.block w lod).nextPkt = s.nextPkt := rfl
@[simp] theorem State.block_rngStage (w : Wait) (lod : Bool) : (s.block w lod).rngStage = s.rngStage := rfl
@[simp] theorem State.block_rngLive (w : Wait) (lod : Bool) : (s.block w lod).rngLive = s.rngLive := rfl
@[simp] theorem State.block_committing (w : Wait) (lod : Bool) : (s.block w lod).committing = s.committing := rfl
@[simp] theorem State.block_dieTlb (w : Wait) (lod : Bool) : (s.block w lod).dieTlb = s.dieTlb := rfl
@[simp] theorem State.block_futs (w : Wait) (lod : Bool) : (s.block w lod).futs = s.futs := rfl
@[simp] theorem State.block_sleepers (w : Wait) (lod : Bool) : (s.block w lod).sleepers = s.sleepers := rfl
@[simp] theorem State.block_slices (w : Wait) (lod : Bool) : (s.block w lod).slices = s.slices := rfl
@[simp] theorem State.block_pbars (w : Wait) (lod : Bool) : (s.block w lod).pbars = s.pbars := rfl
@[simp] theorem State.block_graphs (w : Wait) (lod : Bool) : (s.block w lod).graphs = s.graphs := rfl
@[simp] theorem State.block_nextGraph (w : Wait) (lod : Bool) : (s.block w lod).nextGraph = s.nextGraph := rfl
@[simp] theorem State.block_late (w : Wait) (lod : Bool) : (s.block w lod).late = s.late := rfl
@[simp] theorem State.block_owed (w : Wait) (lod : Bool) : (s.block w lod).owed = s.owed := rfl
@[simp] theorem State.block_queues (w : Wait) (lod : Bool) : (s.block w lod).queues = s.queues := rfl
@[simp] theorem State.block_launches (w : Wait) (lod : Bool) : (s.block w lod).launches = s.launches := rfl
@[simp] theorem State.block_nextLaunch (w : Wait) (lod : Bool) : (s.block w lod).nextLaunch = s.nextLaunch := rfl
@[simp] theorem State.block_regions (w : Wait) (lod : Bool) : (s.block w lod).regions = s.regions := rfl
@[simp] theorem State.block_seq (w : Wait) (lod : Bool) : (s.block w lod).seq = s.seq := rfl
@[simp] theorem State.block_handlers (w : Wait) (lod : Bool) : (s.block w lod).handlers = s.handlers := rfl
@[simp] theorem State.block_drec (w : Wait) (lod : Bool) : (s.block w lod).drec = s.drec := rfl
@[simp] theorem State.block_dceLast (w : Wait) (lod : Bool) : (s.block w lod).dceLast = s.dceLast := rfl
@[simp] theorem State.block_dup (w : Wait) (lod : Bool) : (s.block w lod).dup = s.dup := rfl
@[simp] theorem State.block_topo (w : Wait) (lod : Bool) : (s.block w lod).topo = s.topo := rfl
@[simp] theorem State.block_ports (w : Wait) (lod : Bool) : (s.block w lod).ports = s.ports := rfl
@[simp] theorem State.block_unlocking (w : Wait) (lod : Bool) : (s.block w lod).unlocking = s.unlocking := rfl
@[simp] theorem State.block_mgmt (w : Wait) (lod : Bool) : (s.block w lod).mgmt = s.mgmt := rfl
@[simp] theorem State.block_fab (w : Wait) (lod : Bool) : (s.block w lod).fab = s.fab := rfl
@[simp] theorem State.block_hostLines (w : Wait) (lod : Bool) : (s.block w lod).hostLines = s.hostLines := rfl
@[simp] theorem State.block_snoops (w : Wait) (lod : Bool) : (s.block w lod).snoops = s.snoops := rfl
@[simp] theorem State.block_hits (w : Wait) (lod : Bool) : (s.block w lod).hits = s.hits := rfl
@[simp] theorem State.block_hostRmw (w : Wait) (lod : Bool) : (s.block w lod).hostRmw = s.hostRmw := rfl
@[simp] theorem State.block_tb (w : Wait) (lod : Bool) : (s.block w lod).tb = s.tb := rfl
@[simp] theorem State.block_cycle (w : Wait) (lod : Bool) : (s.block w lod).cycle = s.cycle := rfl
@[simp] theorem State.block_homeWrites (w : Wait) (lod : Bool) : (s.block w lod).homeWrites = s.homeWrites := rfl
@[simp] theorem State.block_cur (w : Wait) (lod : Bool) : (s.block w lod).cur = s.cur := rfl
@[simp] theorem State.block_agenda (w : Wait) (lod : Bool) : (s.block w lod).agenda = s.agenda := rfl
@[simp] theorem State.block_turnNo (w : Wait) (lod : Bool) : (s.block w lod).turnNo = s.turnNo := rfl
@[simp] theorem State.block_free (w : Wait) (lod : Bool) : (s.block w lod).free = s.free := rfl
@[simp] theorem State.block_out (w : Wait) (lod : Bool) : (s.block w lod).out = s.out := rfl

/-! setHlth -/

@[simp] theorem State.setHlth_scs (bits : List Nat) : (s.setHlth bits).scs = s.scs := rfl
@[simp] theorem State.setHlth_mem (bits : List Nat) : (s.setHlth bits).mem = s.mem := rfl
@[simp] theorem State.setHlth_fmap (bits : List Nat) : (s.setHlth bits).fmap = s.fmap := rfl
@[simp] theorem State.setHlth_tags (bits : List Nat) : (s.setHlth bits).tags = s.tags := rfl
@[simp] theorem State.setHlth_ueSectors (bits : List Nat) : (s.setHlth bits).ueSectors = s.ueSectors := rfl
@[simp] theorem State.setHlth_ceSectors (bits : List Nat) : (s.setHlth bits).ceSectors = s.ceSectors := rfl
@[simp] theorem State.setHlth_ctr (bits : List Nat) : (s.setHlth bits).ctr = s.ctr := rfl
@[simp] theorem State.setHlth_hostrmw (bits : List Nat) : (s.setHlth bits).hostrmw = s.hostrmw := rfl
@[simp] theorem State.setHlth_hostlost (bits : List Nat) : (s.setHlth bits).hostlost = s.hostlost := rfl
@[simp] theorem State.setHlth_pkts (bits : List Nat) : (s.setHlth bits).pkts = s.pkts := rfl
@[simp] theorem State.setHlth_nextPkt (bits : List Nat) : (s.setHlth bits).nextPkt = s.nextPkt := rfl
@[simp] theorem State.setHlth_rngStage (bits : List Nat) : (s.setHlth bits).rngStage = s.rngStage := rfl
@[simp] theorem State.setHlth_rngLive (bits : List Nat) : (s.setHlth bits).rngLive = s.rngLive := rfl
@[simp] theorem State.setHlth_committing (bits : List Nat) : (s.setHlth bits).committing = s.committing := rfl
@[simp] theorem State.setHlth_dieTlb (bits : List Nat) : (s.setHlth bits).dieTlb = s.dieTlb := rfl
@[simp] theorem State.setHlth_futs (bits : List Nat) : (s.setHlth bits).futs = s.futs := rfl
@[simp] theorem State.setHlth_sleepers (bits : List Nat) : (s.setHlth bits).sleepers = s.sleepers := rfl
@[simp] theorem State.setHlth_slices (bits : List Nat) : (s.setHlth bits).slices = s.slices := rfl
@[simp] theorem State.setHlth_pbars (bits : List Nat) : (s.setHlth bits).pbars = s.pbars := rfl
@[simp] theorem State.setHlth_graphs (bits : List Nat) : (s.setHlth bits).graphs = s.graphs := rfl
@[simp] theorem State.setHlth_nextGraph (bits : List Nat) : (s.setHlth bits).nextGraph = s.nextGraph := rfl
@[simp] theorem State.setHlth_late (bits : List Nat) : (s.setHlth bits).late = s.late := rfl
@[simp] theorem State.setHlth_owed (bits : List Nat) : (s.setHlth bits).owed = s.owed := rfl
@[simp] theorem State.setHlth_queues (bits : List Nat) : (s.setHlth bits).queues = s.queues := rfl
@[simp] theorem State.setHlth_launches (bits : List Nat) : (s.setHlth bits).launches = s.launches := rfl
@[simp] theorem State.setHlth_nextLaunch (bits : List Nat) : (s.setHlth bits).nextLaunch = s.nextLaunch := rfl
@[simp] theorem State.setHlth_regions (bits : List Nat) : (s.setHlth bits).regions = s.regions := rfl
@[simp] theorem State.setHlth_seq (bits : List Nat) : (s.setHlth bits).seq = s.seq := rfl
@[simp] theorem State.setHlth_handlers (bits : List Nat) : (s.setHlth bits).handlers = s.handlers := rfl
@[simp] theorem State.setHlth_drec (bits : List Nat) : (s.setHlth bits).drec = s.drec := rfl
@[simp] theorem State.setHlth_dceLast (bits : List Nat) : (s.setHlth bits).dceLast = s.dceLast := rfl
@[simp] theorem State.setHlth_dup (bits : List Nat) : (s.setHlth bits).dup = s.dup := rfl
@[simp] theorem State.setHlth_topo (bits : List Nat) : (s.setHlth bits).topo = s.topo := rfl
@[simp] theorem State.setHlth_ports (bits : List Nat) : (s.setHlth bits).ports = s.ports := rfl
@[simp] theorem State.setHlth_unlocking (bits : List Nat) : (s.setHlth bits).unlocking = s.unlocking := rfl
@[simp] theorem State.setHlth_fab (bits : List Nat) : (s.setHlth bits).fab = s.fab := rfl
@[simp] theorem State.setHlth_hostLines (bits : List Nat) : (s.setHlth bits).hostLines = s.hostLines := rfl
@[simp] theorem State.setHlth_snoops (bits : List Nat) : (s.setHlth bits).snoops = s.snoops := rfl
@[simp] theorem State.setHlth_hits (bits : List Nat) : (s.setHlth bits).hits = s.hits := rfl
@[simp] theorem State.setHlth_hostRmw (bits : List Nat) : (s.setHlth bits).hostRmw = s.hostRmw := rfl
@[simp] theorem State.setHlth_tb (bits : List Nat) : (s.setHlth bits).tb = s.tb := rfl
@[simp] theorem State.setHlth_cycle (bits : List Nat) : (s.setHlth bits).cycle = s.cycle := rfl
@[simp] theorem State.setHlth_homeWrites (bits : List Nat) : (s.setHlth bits).homeWrites = s.homeWrites := rfl
@[simp] theorem State.setHlth_cur (bits : List Nat) : (s.setHlth bits).cur = s.cur := rfl
@[simp] theorem State.setHlth_agenda (bits : List Nat) : (s.setHlth bits).agenda = s.agenda := rfl
@[simp] theorem State.setHlth_turnNo (bits : List Nat) : (s.setHlth bits).turnNo = s.turnNo := rfl
@[simp] theorem State.setHlth_free (bits : List Nat) : (s.setHlth bits).free = s.free := rfl
@[simp] theorem State.setHlth_out (bits : List Nat) : (s.setHlth bits).out = s.out := rfl

/-! useFree -/

@[simp] theorem State.useFree_scs (n : Nat) : (s.useFree n).scs = s.scs := rfl
@[simp] theorem State.useFree_mem (n : Nat) : (s.useFree n).mem = s.mem := rfl
@[simp] theorem State.useFree_fmap (n : Nat) : (s.useFree n).fmap = s.fmap := rfl
@[simp] theorem State.useFree_tags (n : Nat) : (s.useFree n).tags = s.tags := rfl
@[simp] theorem State.useFree_ueSectors (n : Nat) : (s.useFree n).ueSectors = s.ueSectors := rfl
@[simp] theorem State.useFree_ceSectors (n : Nat) : (s.useFree n).ceSectors = s.ceSectors := rfl
@[simp] theorem State.useFree_ctr (n : Nat) : (s.useFree n).ctr = s.ctr := rfl
@[simp] theorem State.useFree_hostrmw (n : Nat) : (s.useFree n).hostrmw = s.hostrmw := rfl
@[simp] theorem State.useFree_hostlost (n : Nat) : (s.useFree n).hostlost = s.hostlost := rfl
@[simp] theorem State.useFree_pkts (n : Nat) : (s.useFree n).pkts = s.pkts := rfl
@[simp] theorem State.useFree_nextPkt (n : Nat) : (s.useFree n).nextPkt = s.nextPkt := rfl
@[simp] theorem State.useFree_rngStage (n : Nat) : (s.useFree n).rngStage = s.rngStage := rfl
@[simp] theorem State.useFree_rngLive (n : Nat) : (s.useFree n).rngLive = s.rngLive := rfl
@[simp] theorem State.useFree_committing (n : Nat) : (s.useFree n).committing = s.committing := rfl
@[simp] theorem State.useFree_dieTlb (n : Nat) : (s.useFree n).dieTlb = s.dieTlb := rfl
@[simp] theorem State.useFree_futs (n : Nat) : (s.useFree n).futs = s.futs := rfl
@[simp] theorem State.useFree_sleepers (n : Nat) : (s.useFree n).sleepers = s.sleepers := rfl
@[simp] theorem State.useFree_slices (n : Nat) : (s.useFree n).slices = s.slices := rfl
@[simp] theorem State.useFree_pbars (n : Nat) : (s.useFree n).pbars = s.pbars := rfl
@[simp] theorem State.useFree_graphs (n : Nat) : (s.useFree n).graphs = s.graphs := rfl
@[simp] theorem State.useFree_nextGraph (n : Nat) : (s.useFree n).nextGraph = s.nextGraph := rfl
@[simp] theorem State.useFree_late (n : Nat) : (s.useFree n).late = s.late := rfl
@[simp] theorem State.useFree_owed (n : Nat) : (s.useFree n).owed = s.owed := rfl
@[simp] theorem State.useFree_queues (n : Nat) : (s.useFree n).queues = s.queues := rfl
@[simp] theorem State.useFree_launches (n : Nat) : (s.useFree n).launches = s.launches := rfl
@[simp] theorem State.useFree_nextLaunch (n : Nat) : (s.useFree n).nextLaunch = s.nextLaunch := rfl
@[simp] theorem State.useFree_regions (n : Nat) : (s.useFree n).regions = s.regions := rfl
@[simp] theorem State.useFree_seq (n : Nat) : (s.useFree n).seq = s.seq := rfl
@[simp] theorem State.useFree_handlers (n : Nat) : (s.useFree n).handlers = s.handlers := rfl
@[simp] theorem State.useFree_drec (n : Nat) : (s.useFree n).drec = s.drec := rfl
@[simp] theorem State.useFree_dceLast (n : Nat) : (s.useFree n).dceLast = s.dceLast := rfl
@[simp] theorem State.useFree_dup (n : Nat) : (s.useFree n).dup = s.dup := rfl
@[simp] theorem State.useFree_topo (n : Nat) : (s.useFree n).topo = s.topo := rfl
@[simp] theorem State.useFree_ports (n : Nat) : (s.useFree n).ports = s.ports := rfl
@[simp] theorem State.useFree_unlocking (n : Nat) : (s.useFree n).unlocking = s.unlocking := rfl
@[simp] theorem State.useFree_mgmt (n : Nat) : (s.useFree n).mgmt = s.mgmt := rfl
@[simp] theorem State.useFree_fab (n : Nat) : (s.useFree n).fab = s.fab := rfl
@[simp] theorem State.useFree_hostLines (n : Nat) : (s.useFree n).hostLines = s.hostLines := rfl
@[simp] theorem State.useFree_snoops (n : Nat) : (s.useFree n).snoops = s.snoops := rfl
@[simp] theorem State.useFree_hits (n : Nat) : (s.useFree n).hits = s.hits := rfl
@[simp] theorem State.useFree_hostRmw (n : Nat) : (s.useFree n).hostRmw = s.hostRmw := rfl
@[simp] theorem State.useFree_tb (n : Nat) : (s.useFree n).tb = s.tb := rfl
@[simp] theorem State.useFree_cycle (n : Nat) : (s.useFree n).cycle = s.cycle := rfl
@[simp] theorem State.useFree_homeWrites (n : Nat) : (s.useFree n).homeWrites = s.homeWrites := rfl
@[simp] theorem State.useFree_cur (n : Nat) : (s.useFree n).cur = s.cur := rfl
@[simp] theorem State.useFree_agenda (n : Nat) : (s.useFree n).agenda = s.agenda := rfl
@[simp] theorem State.useFree_turnNo (n : Nat) : (s.useFree n).turnNo = s.turnNo := rfl
@[simp] theorem State.useFree_out (n : Nat) : (s.useFree n).out = s.out := rfl

/-! emit -/

@[simp] theorem State.emit_scs (o : Out) : (s.emit o).scs = s.scs := rfl
@[simp] theorem State.emit_mem (o : Out) : (s.emit o).mem = s.mem := rfl
@[simp] theorem State.emit_fmap (o : Out) : (s.emit o).fmap = s.fmap := rfl
@[simp] theorem State.emit_tags (o : Out) : (s.emit o).tags = s.tags := rfl
@[simp] theorem State.emit_ueSectors (o : Out) : (s.emit o).ueSectors = s.ueSectors := rfl
@[simp] theorem State.emit_ceSectors (o : Out) : (s.emit o).ceSectors = s.ceSectors := rfl
@[simp] theorem State.emit_ctr (o : Out) : (s.emit o).ctr = s.ctr := rfl
@[simp] theorem State.emit_hostrmw (o : Out) : (s.emit o).hostrmw = s.hostrmw := rfl
@[simp] theorem State.emit_hostlost (o : Out) : (s.emit o).hostlost = s.hostlost := rfl
@[simp] theorem State.emit_pkts (o : Out) : (s.emit o).pkts = s.pkts := rfl
@[simp] theorem State.emit_nextPkt (o : Out) : (s.emit o).nextPkt = s.nextPkt := rfl
@[simp] theorem State.emit_rngStage (o : Out) : (s.emit o).rngStage = s.rngStage := rfl
@[simp] theorem State.emit_rngLive (o : Out) : (s.emit o).rngLive = s.rngLive := rfl
@[simp] theorem State.emit_committing (o : Out) : (s.emit o).committing = s.committing := rfl
@[simp] theorem State.emit_dieTlb (o : Out) : (s.emit o).dieTlb = s.dieTlb := rfl
@[simp] theorem State.emit_futs (o : Out) : (s.emit o).futs = s.futs := rfl
@[simp] theorem State.emit_sleepers (o : Out) : (s.emit o).sleepers = s.sleepers := rfl
@[simp] theorem State.emit_slices (o : Out) : (s.emit o).slices = s.slices := rfl
@[simp] theorem State.emit_pbars (o : Out) : (s.emit o).pbars = s.pbars := rfl
@[simp] theorem State.emit_graphs (o : Out) : (s.emit o).graphs = s.graphs := rfl
@[simp] theorem State.emit_nextGraph (o : Out) : (s.emit o).nextGraph = s.nextGraph := rfl
@[simp] theorem State.emit_late (o : Out) : (s.emit o).late = s.late := rfl
@[simp] theorem State.emit_owed (o : Out) : (s.emit o).owed = s.owed := rfl
@[simp] theorem State.emit_queues (o : Out) : (s.emit o).queues = s.queues := rfl
@[simp] theorem State.emit_launches (o : Out) : (s.emit o).launches = s.launches := rfl
@[simp] theorem State.emit_nextLaunch (o : Out) : (s.emit o).nextLaunch = s.nextLaunch := rfl
@[simp] theorem State.emit_regions (o : Out) : (s.emit o).regions = s.regions := rfl
@[simp] theorem State.emit_seq (o : Out) : (s.emit o).seq = s.seq := rfl
@[simp] theorem State.emit_handlers (o : Out) : (s.emit o).handlers = s.handlers := rfl
@[simp] theorem State.emit_drec (o : Out) : (s.emit o).drec = s.drec := rfl
@[simp] theorem State.emit_dceLast (o : Out) : (s.emit o).dceLast = s.dceLast := rfl
@[simp] theorem State.emit_dup (o : Out) : (s.emit o).dup = s.dup := rfl
@[simp] theorem State.emit_topo (o : Out) : (s.emit o).topo = s.topo := rfl
@[simp] theorem State.emit_ports (o : Out) : (s.emit o).ports = s.ports := rfl
@[simp] theorem State.emit_unlocking (o : Out) : (s.emit o).unlocking = s.unlocking := rfl
@[simp] theorem State.emit_mgmt (o : Out) : (s.emit o).mgmt = s.mgmt := rfl
@[simp] theorem State.emit_fab (o : Out) : (s.emit o).fab = s.fab := rfl
@[simp] theorem State.emit_hostLines (o : Out) : (s.emit o).hostLines = s.hostLines := rfl
@[simp] theorem State.emit_snoops (o : Out) : (s.emit o).snoops = s.snoops := rfl
@[simp] theorem State.emit_hits (o : Out) : (s.emit o).hits = s.hits := rfl
@[simp] theorem State.emit_hostRmw (o : Out) : (s.emit o).hostRmw = s.hostRmw := rfl
@[simp] theorem State.emit_tb (o : Out) : (s.emit o).tb = s.tb := rfl
@[simp] theorem State.emit_cycle (o : Out) : (s.emit o).cycle = s.cycle := rfl
@[simp] theorem State.emit_homeWrites (o : Out) : (s.emit o).homeWrites = s.homeWrites := rfl
@[simp] theorem State.emit_cur (o : Out) : (s.emit o).cur = s.cur := rfl
@[simp] theorem State.emit_agenda (o : Out) : (s.emit o).agenda = s.agenda := rfl
@[simp] theorem State.emit_turnNo (o : Out) : (s.emit o).turnNo = s.turnNo := rfl
@[simp] theorem State.emit_free (o : Out) : (s.emit o).free = s.free := rfl

/-! modFut -/

@[simp] theorem State.modFut_scs (k : Nat) (f : Fut → Fut) : (s.modFut k f).scs = s.scs := rfl
@[simp] theorem State.modFut_mem (k : Nat) (f : Fut → Fut) : (s.modFut k f).mem = s.mem := rfl
@[simp] theorem State.modFut_fmap (k : Nat) (f : Fut → Fut) : (s.modFut k f).fmap = s.fmap := rfl
@[simp] theorem State.modFut_tags (k : Nat) (f : Fut → Fut) : (s.modFut k f).tags = s.tags := rfl
@[simp] theorem State.modFut_ueSectors (k : Nat) (f : Fut → Fut) : (s.modFut k f).ueSectors = s.ueSectors := rfl
@[simp] theorem State.modFut_ceSectors (k : Nat) (f : Fut → Fut) : (s.modFut k f).ceSectors = s.ceSectors := rfl
@[simp] theorem State.modFut_ctr (k : Nat) (f : Fut → Fut) : (s.modFut k f).ctr = s.ctr := rfl
@[simp] theorem State.modFut_hostrmw (k : Nat) (f : Fut → Fut) : (s.modFut k f).hostrmw = s.hostrmw := rfl
@[simp] theorem State.modFut_hostlost (k : Nat) (f : Fut → Fut) : (s.modFut k f).hostlost = s.hostlost := rfl
@[simp] theorem State.modFut_pkts (k : Nat) (f : Fut → Fut) : (s.modFut k f).pkts = s.pkts := rfl
@[simp] theorem State.modFut_nextPkt (k : Nat) (f : Fut → Fut) : (s.modFut k f).nextPkt = s.nextPkt := rfl
@[simp] theorem State.modFut_rngStage (k : Nat) (f : Fut → Fut) : (s.modFut k f).rngStage = s.rngStage := rfl
@[simp] theorem State.modFut_rngLive (k : Nat) (f : Fut → Fut) : (s.modFut k f).rngLive = s.rngLive := rfl
@[simp] theorem State.modFut_committing (k : Nat) (f : Fut → Fut) : (s.modFut k f).committing = s.committing := rfl
@[simp] theorem State.modFut_dieTlb (k : Nat) (f : Fut → Fut) : (s.modFut k f).dieTlb = s.dieTlb := rfl
@[simp] theorem State.modFut_sleepers (k : Nat) (f : Fut → Fut) : (s.modFut k f).sleepers = s.sleepers := rfl
@[simp] theorem State.modFut_slices (k : Nat) (f : Fut → Fut) : (s.modFut k f).slices = s.slices := rfl
@[simp] theorem State.modFut_pbars (k : Nat) (f : Fut → Fut) : (s.modFut k f).pbars = s.pbars := rfl
@[simp] theorem State.modFut_graphs (k : Nat) (f : Fut → Fut) : (s.modFut k f).graphs = s.graphs := rfl
@[simp] theorem State.modFut_nextGraph (k : Nat) (f : Fut → Fut) : (s.modFut k f).nextGraph = s.nextGraph := rfl
@[simp] theorem State.modFut_late (k : Nat) (f : Fut → Fut) : (s.modFut k f).late = s.late := rfl
@[simp] theorem State.modFut_owed (k : Nat) (f : Fut → Fut) : (s.modFut k f).owed = s.owed := rfl
@[simp] theorem State.modFut_queues (k : Nat) (f : Fut → Fut) : (s.modFut k f).queues = s.queues := rfl
@[simp] theorem State.modFut_launches (k : Nat) (f : Fut → Fut) : (s.modFut k f).launches = s.launches := rfl
@[simp] theorem State.modFut_nextLaunch (k : Nat) (f : Fut → Fut) : (s.modFut k f).nextLaunch = s.nextLaunch := rfl
@[simp] theorem State.modFut_regions (k : Nat) (f : Fut → Fut) : (s.modFut k f).regions = s.regions := rfl
@[simp] theorem State.modFut_seq (k : Nat) (f : Fut → Fut) : (s.modFut k f).seq = s.seq := rfl
@[simp] theorem State.modFut_handlers (k : Nat) (f : Fut → Fut) : (s.modFut k f).handlers = s.handlers := rfl
@[simp] theorem State.modFut_drec (k : Nat) (f : Fut → Fut) : (s.modFut k f).drec = s.drec := rfl
@[simp] theorem State.modFut_dceLast (k : Nat) (f : Fut → Fut) : (s.modFut k f).dceLast = s.dceLast := rfl
@[simp] theorem State.modFut_dup (k : Nat) (f : Fut → Fut) : (s.modFut k f).dup = s.dup := rfl
@[simp] theorem State.modFut_topo (k : Nat) (f : Fut → Fut) : (s.modFut k f).topo = s.topo := rfl
@[simp] theorem State.modFut_ports (k : Nat) (f : Fut → Fut) : (s.modFut k f).ports = s.ports := rfl
@[simp] theorem State.modFut_unlocking (k : Nat) (f : Fut → Fut) : (s.modFut k f).unlocking = s.unlocking := rfl
@[simp] theorem State.modFut_mgmt (k : Nat) (f : Fut → Fut) : (s.modFut k f).mgmt = s.mgmt := rfl
@[simp] theorem State.modFut_fab (k : Nat) (f : Fut → Fut) : (s.modFut k f).fab = s.fab := rfl
@[simp] theorem State.modFut_hostLines (k : Nat) (f : Fut → Fut) : (s.modFut k f).hostLines = s.hostLines := rfl
@[simp] theorem State.modFut_snoops (k : Nat) (f : Fut → Fut) : (s.modFut k f).snoops = s.snoops := rfl
@[simp] theorem State.modFut_hits (k : Nat) (f : Fut → Fut) : (s.modFut k f).hits = s.hits := rfl
@[simp] theorem State.modFut_hostRmw (k : Nat) (f : Fut → Fut) : (s.modFut k f).hostRmw = s.hostRmw := rfl
@[simp] theorem State.modFut_tb (k : Nat) (f : Fut → Fut) : (s.modFut k f).tb = s.tb := rfl
@[simp] theorem State.modFut_cycle (k : Nat) (f : Fut → Fut) : (s.modFut k f).cycle = s.cycle := rfl
@[simp] theorem State.modFut_homeWrites (k : Nat) (f : Fut → Fut) : (s.modFut k f).homeWrites = s.homeWrites := rfl
@[simp] theorem State.modFut_cur (k : Nat) (f : Fut → Fut) : (s.modFut k f).cur = s.cur := rfl
@[simp] theorem State.modFut_agenda (k : Nat) (f : Fut → Fut) : (s.modFut k f).agenda = s.agenda := rfl
@[simp] theorem State.modFut_turnNo (k : Nat) (f : Fut → Fut) : (s.modFut k f).turnNo = s.turnNo := rfl
@[simp] theorem State.modFut_free (k : Nat) (f : Fut → Fut) : (s.modFut k f).free = s.free := rfl
@[simp] theorem State.modFut_out (k : Nat) (f : Fut → Fut) : (s.modFut k f).out = s.out := rfl

/-! The changed fields. -/

@[simp] theorem State.setHlth_hlth (bits : List Nat) :
    (s.setHlth bits).mgmt.hlth = bits.foldl (fun (h : Word) b => h ||| (1 <<< b)) s.mgmt.hlth := rfl
@[simp] theorem State.useFree_free (n : Nat) : (s.useFree n).free = s.free + n := rfl
@[simp] theorem State.emit_out (o : Out) : (s.emit o).out = s.out ++ [o] := rfl
@[simp] theorem State.modFut_futs (k : Nat) (f : Fut → Fut) : (s.modFut k f).futs = tput s.futs k (f (s.fut k)) := rfl

end Sys2Proof.Machine
end

