-- ==== Sys2Proof/Laws/Tab.lean ====
section
/-!
SUPPORT. Lemmas of keyed tables: what a read gives after a write, a change and a removal.
-/

namespace Sys2Proof.Machine

variable {α : Type}

/-- A read at the key just written gives the value written. -/
@[simp] theorem tget_tput_self (t : List (Nat × α)) (k : Nat) (v : α) : tget (tput t k v) k = some v := by
  induction t with
  | nil => simp [tput, tget]
  | cons p t ih =>
    obtain ⟨a, b⟩ := p
    simp only [tput]
    split
    · simp [tget]
    · split
      · simp [tget]
      · rename_i h
        simp [tget, ih, h]

/-- A read at another key gives what it gave. -/
theorem tget_tput_of_ne (t : List (Nat × α)) {k x : Nat} (v : α) (h : x ≠ k) : tget (tput t k v) x = tget t x := by
  induction t with
  | nil => simp [tput, tget, h]
  | cons p t ih =>
    obtain ⟨a, b⟩ := p
    simp only [tput]
    split
    · simp [tget, h]
    · split
      · rename_i e
        subst e
        simp [tget, h]
      · simp [tget, ih]

/-- Both cases at once. -/
theorem tget_tput (t : List (Nat × α)) (k x : Nat) (v : α) :
    tget (tput t k v) x = if x = k then some v else tget t x := by
  by_cases h : x = k
  · simp [h]
  · simp [h, tget_tput_of_ne]

@[simp] theorem tgetD_tput_self (t : List (Nat × α)) (k : Nat) (v d : α) : tgetD (tput t k v) k d = v := by
  simp [tgetD]

theorem tgetD_tput_of_ne (t : List (Nat × α)) {k x : Nat} (v d : α) (h : x ≠ k) :
    tgetD (tput t k v) x d = tgetD t x d := by
  simp [tgetD, tget_tput_of_ne, h]

theorem tgetD_tput (t : List (Nat × α)) (k x : Nat) (v d : α) :
    tgetD (tput t k v) x d = if x = k then v else tgetD t x d := by
  by_cases h : x = k
  · simp [h]
  · simp [h, tgetD_tput_of_ne]

/-- Writing the same key twice is writing it once. -/
@[simp] theorem tput_tput_self (t : List (Nat × α)) (k : Nat) (v w : α) : tput (tput t k v) k w = tput t k w := by
  induction t with
  | nil => simp [tput]
  | cons p t ih =>
    obtain ⟨a, b⟩ := p
    by_cases h1 : k < a
    · simp [tput, h1]
    · by_cases h2 : a = k
      · subst h2; simp [tput]
      · have h3 : ¬k = a := fun e => h2 e.symm
        simp [tput, h1, h3, ih]

/-- A removed key is absent. -/
@[simp] theorem tget_tdel_self (t : List (Nat × α)) (k : Nat) : tget (tdel t k) k = none := by
  induction t with
  | nil => simp [tdel, tget]
  | cons p t ih =>
    obtain ⟨a, b⟩ := p
    simp only [tdel] at ih
    by_cases h : a = k
    · subst h; simp [tdel, ih]
    · simp [tdel, h, tget, ih, Ne.symm h]

/-- The other keys of a table stay when one is removed. -/
theorem tget_tdel_of_ne (t : List (Nat × α)) {k x : Nat} (h : x ≠ k) : tget (tdel t k) x = tget t x := by
  induction t with
  | nil => simp [tdel, tget]
  | cons p t ih =>
    obtain ⟨a, b⟩ := p
    simp only [tdel] at ih
    by_cases h2 : a = k
    · subst h2; simp [tdel, ih, tget, h]
    · simp [tdel, h2, tget, ih]

/-- A changed key reads as its changed value; others stay. -/
theorem tget_tmod (t : List (Nat × α)) (k x : Nat) (f : α → α) :
    tget (tmod t k f) x = if x = k then (tget t x).map f else tget t x := by
  induction t with
  | nil => simp [tmod, tget]
  | cons p t ih =>
    obtain ⟨a, b⟩ := p
    simp only [tmod] at ih
    by_cases h2 : a = k
    · subst h2
      by_cases h : x = a
      · subst h; simp [tmod, tget]
      · simp [tmod, ih, tget, h]
    · by_cases h : x = k
      · subst h; simp [tmod, h2, tget, ih, Ne.symm h2]
      · simp [tmod, h2, tget, ih, h]

end Sys2Proof.Machine
end

