-- ==== Sys2Proof/Laws/Ops.lean ====
section
/-!
SUPPORT. What a read of a cluster, context, register, run or stream gives after an update of one; what each update leaves of
memory as coherent agents read it; and the shapes of instructions and of taking a trap, each said once.
-/

namespace Sys2Proof.Machine

variable (s : State)

/-! ## Reads after updates -/

theorem State.sc_setSc (n m : Nat) (x : Sc) : (s.setSc n x).sc m = if m = n then x else s.sc m :=
  tgetD_tput s.scs n m x {}

@[simp] theorem State.sc_setSc_self (n : Nat) (x : Sc) : (s.setSc n x).sc n = x := by simp [State.sc_setSc]

theorem State.sc_modSc (n m : Nat) (f : Sc → Sc) : (s.modSc n f).sc m = if m = n then f (s.sc n) else s.sc m :=
  s.sc_setSc n m (f (s.sc n))

@[simp] theorem State.sc_modSc_self (n : Nat) (f : Sc → Sc) : (s.modSc n f).sc n = f (s.sc n) := by simp [State.sc_modSc]

/-- Two updates of one cluster are one. -/
@[simp] theorem State.setSc_setSc (n : Nat) (x y : Sc) : (s.setSc n x).setSc n y = s.setSc n y := by
  simp [State.setSc]

@[simp] theorem State.modSc_modSc (n : Nat) (f g : Sc → Sc) : (s.modSc n f).modSc n g = s.modSc n (fun t => g (f t)) := by
  simp [State.modSc]

theorem State.sc_setCtx (n c m : Nat) (x : Ctx) :
    (s.setCtx n c x).sc m = if m = n then { s.sc n with ctxs := tput (s.sc n).ctxs c x } else s.sc m := s.sc_modSc n m _

@[simp] theorem State.ctx_setCtx_self (n c : Nat) (x : Ctx) : (s.setCtx n c x).ctx n c = x := by
  simp [State.ctx, State.sc_setCtx]

theorem State.ctx_setCtx (n c m d : Nat) (x : Ctx) :
    (s.setCtx n c x).ctx m d = if m = n ∧ d = c then x else s.ctx m d := by
  by_cases h : m = n
  · subst h
    simp [State.ctx, State.sc_setCtx, tgetD_tput]
  · simp [State.ctx, State.sc_setCtx, h]

@[simp] theorem State.ctx_modCtx_self (n c : Nat) (f : Ctx → Ctx) : (s.modCtx n c f).ctx n c = f (s.ctx n c) :=
  s.ctx_setCtx_self n c _

theorem State.ctx_modCtx (n c m d : Nat) (f : Ctx → Ctx) :
    (s.modCtx n c f).ctx m d = if m = n ∧ d = c then f (s.ctx n c) else s.ctx m d := s.ctx_setCtx n c m d _

@[simp] theorem State.setCtx_setCtx (n c : Nat) (x y : Ctx) : (s.setCtx n c x).setCtx n c y = s.setCtx n c y := by
  simp [State.setCtx]

@[simp] theorem State.modCtx_modCtx (n c : Nat) (f g : Ctx → Ctx) :
    (s.modCtx n c f).modCtx n c g = s.modCtx n c (fun x => g (f x)) := by
  simp [State.modCtx]

@[simp] theorem State.me_modMe (f : Ctx → Ctx) : (s.modMe f).me = f s.me := s.ctx_modCtx_self s.cur.sc s.cur.ctx f

@[simp] theorem State.modMe_modMe (f g : Ctx → Ctx) : (s.modMe f).modMe g = s.modMe (fun x => g (f x)) :=
  s.modCtx_modCtx s.cur.sc s.cur.ctx f g

/-- A change of the executing context is the state with that context replaced. -/
theorem State.modMe_eq (f : Ctx → Ctx) : s.modMe f = s.setCtx s.cur.sc s.cur.ctx (f s.me) := rfl

@[simp] theorem State.run_setRun_self (n k : Nat) (x : Run) : (s.setRun n k x).run n k = x := by
  simp [State.run, State.setRun]

@[simp] theorem State.setRun_setRun (n k : Nat) (x y : Run) : (s.setRun n k x).setRun n k y = s.setRun n k y := by
  simp [State.setRun]

@[simp] theorem State.myRun_modMyRun (f : Run → Run) : (s.modMyRun f).myRun = f s.myRun :=
  s.run_setRun_self s.cur.sc s.cur.run _

@[simp] theorem State.stream_setStream_self (n d : Nat) (x : Stream) : (s.setStream n d x).stream n d = x := by
  simp [State.stream, State.setStream]

@[simp] theorem State.stream_setRun (n k d : Nat) (x : Run) : (s.setRun n k x).stream n d = s.stream n d := by
  simp [State.stream, State.setRun]

@[simp] theorem State.run_setStream (n k d : Nat) (x : Stream) : (s.setStream n d x).run n k = s.run n k := by
  simp [State.run, State.setStream]

/-! ## General registers -/

/-- A register after one is written; g0 stays zero. -/
theorem Ctx.reg_setReg (x : Ctx) (r q : Nat) (v : Word) :
    (x.setReg r v).reg q = if q = r ∧ r ≠ 0 then v else x.reg q := by
  unfold Ctx.setReg
  by_cases hr : r = 0
  · subst hr; simp
  · by_cases hq : q = 0
    · subst hq; simp [Ctx.reg, hr, Ne.symm hr]
    · simp [Ctx.reg, hr, hq, tgetD_tput]

@[simp] theorem Ctx.reg_zero (x : Ctx) : x.reg 0 = 0 := rfl
@[simp] theorem Ctx.reg_next (x : Ctx) (r : Nat) : x.next.reg r = x.reg r := rfl
@[simp] theorem Ctx.pc_setReg (x : Ctx) (r : Nat) (v : Word) : (x.setReg r v).pc = x.pc := by
  unfold Ctx.setReg; split <;> rfl
@[simp] theorem Ctx.pc_next (x : Ctx) : x.next.pc = x.pc + 4 := rfl

/-- A result written and the instruction done, as one change of the executing context. -/
theorem State.ret_eq (r : BitVec 5) (v : Word) : s.ret r v = s.modMe (fun x => (x.setReg r.toNat v).next) := by
  simp [State.ret, State.setG, State.fin]

/-! ## Memory -/

/-- Memory as coherent agents read it depends on the base dies and on the data caches alone. -/
theorem State.byte_congr {s t : State} (hmem : t.mem = s.mem) (htopo : t.topo = s.topo) (hfm : t.fmap = s.fmap)
    (htag : t.tags = s.tags) (hue : t.ueSectors = s.ueSectors) (hl : ∀ n, (t.sc n).lines = (s.sc n).lines) (a : Nat) :
    t.byte a = s.byte a := by
  have hst : ∀ b, t.stored b = s.stored b := by intro b; simp [State.stored, hmem]
  have hmode : ∀ k o, t.mode k o = s.mode k o := by intro k o; simp [State.mode, hfm]
  have ht : ∀ k o, t.tag k o = s.tag k o := by intro k o; simp [State.tag, htag]
  have hu : ∀ b, t.ueAt b = s.ueAt b := by intro b; simp [State.ueAt, htopo, hue]
  have hp : ∀ b, t.packed b = s.packed b := by intro b; simp [State.packed, htopo, hmode, ht]
  have hr : ∀ b n, t.readSpan b n = s.readSpan b n := by intro b n; simp [State.readSpan, htopo, hp, ht]
  have hi : ∀ b n, t.ueIn b n = s.ueIn b n := by intro b n; simp [State.ueIn, hu]
  have hb : ∀ b, t.block256 b = s.block256 b := by
    intro b; simp [State.block256, htopo, hmode, hr, hi, hst, ht]
  have hd : ∀ b, t.dieByte b = s.dieByte b := by
    intro b; simp [State.dieByte, htopo, hp, hb, hu, hmem]
  simp [State.byte, hl, hd]

@[simp] theorem State.lines_setCtx (n c m : Nat) (x : Ctx) : ((s.setCtx n c x).sc m).lines = (s.sc m).lines := by
  rw [State.sc_setCtx]
  split
  · rename_i h; subst h; rfl
  · rfl

/-- A change of a cluster that leaves its data cache leaves memory. -/
theorem State.byte_modSc (n : Nat) (f : Sc → Sc) (h : ∀ x, (f x).lines = x.lines) (a : Nat) :
    (s.modSc n f).byte a = s.byte a := by
  refine State.byte_congr (s := s) (t := s.modSc n f) rfl rfl rfl rfl rfl (fun m => ?_) a
  rw [State.sc_modSc]
  split
  · rename_i e
    rw [h, e]
  · rfl

@[simp] theorem State.byte_setCtx (n c : Nat) (x : Ctx) (a : Nat) : (s.setCtx n c x).byte a = s.byte a := by
  unfold State.setCtx
  apply State.byte_modSc
  intro _
  rfl

@[simp] theorem State.byte_modCtx (n c : Nat) (f : Ctx → Ctx) (a : Nat) : (s.modCtx n c f).byte a = s.byte a :=
  s.byte_setCtx n c _ a

@[simp] theorem State.byte_modMe (f : Ctx → Ctx) (a : Nat) : (s.modMe f).byte a = s.byte a := s.byte_setCtx _ _ _ a

@[simp] theorem State.byte_setRun (n k : Nat) (x : Run) (a : Nat) : (s.setRun n k x).byte a = s.byte a := by
  unfold State.setRun
  apply State.byte_modSc
  intro _
  rfl

@[simp] theorem State.byte_modMyRun (f : Run → Run) (a : Nat) : (s.modMyRun f).byte a = s.byte a := s.byte_setRun _ _ _ a

@[simp] theorem State.byte_setStream (n d : Nat) (x : Stream) (a : Nat) : (s.setStream n d x).byte a = s.byte a := by
  unfold State.setStream
  apply State.byte_modSc
  intro _
  rfl

/-! ## Shapes -/

/-- An instruction all of whose registers hold values has its effect. -/
theorem ctl_filled {rs : List (BitVec 5)} {s : State} (h : s.me.unfilledReg (rs.map BitVec.toNat) = none) (f : State → State) :
    ctl rs s f = .next (f s) := by
  simp [ctl, h]

/-- An instruction one of whose registers waits for a value blocks on it and does nothing else. -/
theorem ctl_unfilled {rs : List (BitVec 5)} {s : State} {r : Nat} (h : s.me.unfilledReg (rs.map BitVec.toNat) = some r)
    (f : State → State) : ctl rs s f = .next (s.block (.filled r) (s.me.unfilled.contains r)) := by
  simp [ctl, h]

/-- Everything `ctl` can do. -/
theorem ctl_next {rs : List (BitVec 5)} {s t : State} {f : State → State} (h : ctl rs s f = .next t) :
    (s.me.unfilledReg (rs.map BitVec.toNat) = none ∧ t = f s)
      ∨ ∃ r, s.me.unfilledReg (rs.map BitVec.toNat) = some r ∧ t = s.block (.filled r) (s.me.unfilled.contains r) := by
  unfold ctl at h
  split at h
  · rename_i r hr
    exact .inr ⟨r, hr, by simpa using h.symm⟩
  · rename_i hn
    exact .inl ⟨hn, by simpa using h.symm⟩

/-- A privileged instruction in a system context is an ordinary one. -/
theorem priv_system {w : Word} {rs : List (BitVec 5)} {s : State} (h : isSystem s.cur.ctx = true) (f : State → State) :
    priv w rs s f = ctl rs s f := by
  simp [priv, h]

/-- A privileged instruction elsewhere traps PRIV before any effect. -/
theorem priv_user {w : Word} {rs : List (BitVec 5)} {s : State} (h : isSystem s.cur.ctx = false) (f : State → State) :
    priv w rs s f = .next (s.trap causePriv w) := by
  simp [priv, h]

/-- What a trap leaves in the trapping context. -/
@[simp] theorem Ctx.trap_st (x : Ctx) (c : Nat) (a : Bool) (v p : Word) : (x.trap c a v p).st = .trapped := rfl
@[simp] theorem Ctx.trap_tval (x : Ctx) (c : Nat) (a : Bool) (v p : Word) : (x.trap c a v p).tval = v := rfl
@[simp] theorem Ctx.trap_tpc (x : Ctx) (c : Nat) (a : Bool) (v p : Word) : (x.trap c a v p).tpc = p := rfl
@[simp] theorem Ctx.trap_pc (x : Ctx) (c : Nat) (a : Bool) (v p : Word) : (x.trap c a v p).pc = x.pc := rfl
@[simp] theorem Ctx.trap_reg (x : Ctx) (c : Nat) (a : Bool) (v p : Word) (r : Nat) : (x.trap c a v p).reg r = x.reg r := rfl

/-- Taking a trap changes one cluster and HLTH, and in the cluster the trapping context and its trap queue. -/
theorem State.ctx_takeTrap (n c cause : Nat) (async : Bool) (v p : Word) :
    (s.takeTrap n c cause async v p).ctx n c = (s.ctx n c).trap cause async v p := by
  simp only [State.takeTrap]
  split <;> simp [State.ctx, State.sc, State.setHlth, State.modCtx, State.setCtx, State.modSc, State.setSc]

theorem State.mem_takeTrap (n c cause : Nat) (async : Bool) (v p : Word) :
    (s.takeTrap n c cause async v p).mem = s.mem := by
  simp only [State.takeTrap]
  split <;> rfl

end Sys2Proof.Machine
end

