-- ==== Sys2Proof/Laws/Coherent.lean ====
section
/-!
SUPPORT. Every operation over memory and the data caches keeps a state safe: memory stays in canonical form and every cached line
keeps its 64 bytes.
-/

namespace Sys2Proof.Machine

variable {s t : State}

/-- A state with the memory and the data caches of a safe one is safe. -/
theorem State.Safe.of_same (h : s.Safe) (hm : t.mem = s.mem) (hl : ∀ n, (t.sc n).lines = (s.sc n).lines) : t.Safe :=
  ⟨by rw [State.memOk, hm]; exact h.1, fun n k l e => h.2 n k l (by rw [← hl n]; exact e)⟩

/-- A state with the data caches of a safe one and a canonical memory is safe. -/
theorem State.Safe.of_mem (h : s.Safe) (hm : Memory.wf t.mem = true) (hl : t.scs = s.scs) : t.Safe :=
  ⟨hm, fun n k l e => h.2 n k l (by rw [State.sc, hl] at e; exact e)⟩

theorem State.Safe.modSc (h : s.Safe) (n : Nat) (f : Sc → Sc)
    (hf : ∀ k l, tget (f (s.sc n)).lines k = some l → l.data.length = 64) : (s.modSc n f).Safe := by
  refine ⟨h.1, fun m k l e => ?_⟩
  rw [State.sc_modSc] at e
  split at e
  · exact hf k l e
  · exact h.2 m k l e

theorem State.Safe.setTag (h : s.Safe) (st off v : Nat) : (s.setTag st off v).Safe := h.of_same rfl (fun _ => rfl)
theorem State.Safe.count (h : s.Safe) (st k n : Nat) : (s.count st k n).Safe := h.of_same rfl (fun _ => rfl)
theorem State.Safe.setHlth (h : s.Safe) (l : List Nat) : (s.setHlth l).Safe := h.of_same rfl (fun _ => rfl)
theorem State.Safe.cleared (h : s.Safe) (l : List Nat) : (s.cleared l).Safe := h.of_same rfl (fun _ => rfl)
theorem State.Safe.meetHost (h : s.Safe) (a n : Nat) (i : Bool) : (s.meetHost a n i).Safe := by
  unfold State.meetHost
  split
  · exact h
  · exact h.of_same rfl (fun _ => rfl)

theorem State.Safe.useFree (h : s.Safe) (n : Nat) : (s.useFree n).Safe := h.of_same rfl (fun _ => rfl)

theorem State.Safe.correct (h : s.Safe) (st : Nat) (bs : List Nat) : (s.correct st bs).Safe := h.of_same rfl (fun _ => rfl)

theorem State.Safe.spoiled (h : s.Safe) (st n : Nat) : (s.spoiled st n).Safe := by
  unfold State.spoiled
  split
  · exact h
  · exact (h.count _ _ _).setHlth _

theorem State.Safe.readEffect (h : s.Safe) (a n : Nat) : (s.readEffect a n).Safe := by
  unfold State.readEffect
  dsimp only
  have hm := h.meetHost a n false
  split
  · exact hm.setHlth _
  · exact ((hm.count _ _ _).correct _ _).spoiled _ _

theorem State.Safe.countReads (h : s.Safe) (fuel a n : Nat) : (State.countReads fuel s a n).Safe := by
  induction fuel generalizing s a n with
  | zero => exact h
  | succ fuel ih =>
    unfold State.countReads
    split
    · exact h
    · exact ih (h.readEffect _ _) _ _

theorem State.Safe.noteRead (h : s.Safe) (a n : Nat) : (s.noteRead a n).Safe := h.countReads _ _ _

/-- Bytes put into memory keep a state safe. -/
theorem State.Safe.puts (h : s.Safe) (a : Nat) (v : List Byte) (b : List (Nat × Nat)) :
    ({ s with mem := cellPuts s.mem a v, homeWrites := b } : State).Safe :=
  h.of_mem (wf_cellPuts _ _ h.1) rfl

/-- The read of a block that a write to it makes keeps a state safe. -/
theorem State.Safe.compRead (h : s.Safe) (a : Nat) (acc : Bool) : (s.compRead a acc).Safe := by
  unfold State.compRead
  dsimp only
  refine State.Safe.correct ?_ _ _
  split <;> exact h.count _ _ _

theorem State.Safe.compWrite (h : s.Safe) (a : Nat) (v : List (Option Byte)) (acc : Bool) : (s.compWrite a v acc).Safe := by
  unfold State.compWrite
  dsimp only
  split
  · exact (h.compRead _ _).spoiled _ _
  · refine State.Safe.setTag (State.Safe.cleared ?_ _) _ _ _
    exact ((h.compRead _ _).count _ _ _).puts _ _ _

/-- Masked bytes put into memory keep a state safe. -/
theorem State.Safe.put (h : s.Safe) (a : Nat) (v : List (Option Byte)) (b : List (Nat × Nat)) :
    ({ s with mem := putMasked s.mem a v, homeWrites := b } : State).Safe :=
  h.of_mem (wf_putMasked a v h.1) rfl

/-- A write to a plain frame keeps a state safe. -/
theorem State.Safe.plainWrite (h : s.Safe) (a : Nat) (v : List (Option Byte)) (acc : Bool) : (s.plainWrite a v acc).Safe := by
  unfold State.plainWrite
  dsimp only
  have h1 : (if !acc && !(readSectors a v acc).isEmpty then s.count (stackOf s.topo a).1 ctrRmw 1 else s).Safe := by
    split
    · exact h.count _ _ _
    · exact h
  generalize (if !acc && !(readSectors a v acc).isEmpty then s.count (stackOf s.topo a).1 ctrRmw 1 else s) = x at h1 ⊢
  have h2 := ((h1.correct (stackOf s.topo a).1 ((readSectors a v acc).filter x.fixable)).spoiled (stackOf s.topo a).1
    ((readSectors a v acc).filter x.ueAt).length).count (stackOf s.topo a).1 ctrWrb
    (32 * (maskedSectors a (s.takes a v acc)).length)
  split
  · refine State.Safe.cleared ?_ _
    exact h2.put _ _ _
  · refine State.Safe.setTag (State.Safe.cleared ?_ _) _ _ _
    exact h2.put _ _ _

theorem State.Safe.dieWriteIn (h : s.Safe) (a : Nat) (v : List (Option Byte)) (acc : Bool) : (s.dieWriteIn a v acc).Safe := by
  unfold State.dieWriteIn
  dsimp only
  have hm := h.meetHost a v.length true
  split
  · exact h.setHlth _
  · split
    · exact hm.spoiled _ _
    · split
      · exact hm.compWrite a v acc
      · exact hm.plainWrite a v acc

/-- A value read from a table whose values have all been changed alike. -/
theorem tget_map {α : Type} (l : List (Nat × α)) (f : α → α) (k : Nat) :
    tget (l.map (fun p => (p.1, f p.2))) k = (tget l k).map f := by
  induction l with
  | nil => rfl
  | cons p l ih =>
    obtain ⟨a, b⟩ := p
    simp only [List.map_cons, tget]
    split
    · rfl
    · exact ih

theorem State.Safe.copyByte (h : s.Safe) (a : Nat) (b : Byte) : (s.copyByte a b).Safe := by
  refine ⟨h.1, fun n k l e => ?_⟩
  have hsc : (s.copyByte a b).sc n =
      ((tget s.scs n).map (fun c => { c with lines := tmod c.lines (a / 64) (fun l => l.put (a % 64) b) })).getD {} := by
    unfold State.sc State.copyByte tgetD
    dsimp only
    rw [tget_map s.scs (fun c => { c with lines := tmod c.lines (a / 64) (fun l => l.put (a % 64) b) })]
  rw [hsc] at e
  cases hg : tget s.scs n with
  | none =>
    rw [hg] at e
    simp [tget] at e
  | some c =>
    have hc : s.sc n = c := by simp [State.sc, tgetD, hg]
    rw [hg] at e
    simp only [Option.map_some, Option.getD_some, tget_tmod] at e
    split at e
    · cases hl : tget c.lines k with
      | none => rw [hl] at e; cases e
      | some m =>
        rw [hl] at e
        simp only [Option.map_some, Option.some.injEq] at e
        have := h.2 n k m (by rw [hc]; exact hl)
        rw [← e]
        simpa [Line.put] using this
    · exact h.2 n k l (by rw [hc]; exact e)

theorem State.Safe.copyBytes (h : s.Safe) (a : Nat) (v : List (Option Byte)) : (s.copyBytes a v).Safe := by
  induction v generalizing s a with
  | nil => exact h
  | cons x v ih =>
    cases x with
    | none => exact ih h _
    | some b => exact ih (h.copyByte a b) _

/-- Everything a write does to one block keeps a state safe. -/
theorem State.Safe.dieWrite (h : s.Safe) (fuel a : Nat) (v : List (Option Byte)) (acc : Bool) :
    (State.dieWrite fuel s a v acc).Safe := by
  induction fuel generalizing s a v with
  | zero => exact h
  | succ fuel ih =>
    cases v with
    | nil => exact h
    | cons b bs => exact ih ((h.dieWriteIn _ _ _).copyBytes _ _) _ _

/-- An agent's write keeps a state safe. -/
theorem State.Safe.write (h : s.Safe) (a : Nat) (v : List Byte) (acc : Bool) : (s.write a v acc).Safe := h.dieWrite _ _ _ _

/-- A change of one line that keeps its length keeps a state safe. -/
theorem State.Safe.modLine (h : s.Safe) (n k : Nat) (f : Line → Line) (hf : ∀ l, (f l).data.length = l.data.length) :
    (s.modSc n (fun t => { t with lines := tmod t.lines k f })).Safe := by
  refine h.modSc n _ (fun j l e => ?_)
  simp only [tget_tmod] at e
  split at e
  · cases hl : tget (s.sc n).lines j with
    | none => rw [hl] at e; cases e
    | some m =>
      rw [hl] at e
      simp only [Option.map_some, Option.some.injEq] at e
      rw [← e, hf]
      exact h.2 n j m hl
  · exact h.2 n j l e

/-! ## Requests of the core's port -/

theorem State.Safe.replied (h : s.Safe) (id st : Nat) (bs : List Byte) : (s.replied id st bs).Safe := h.of_same rfl (fun _ => rfl)

theorem State.Safe.accCount (h : s.Safe) (a n : Nat) : (s.accCount a n).Safe := by
  unfold State.accCount
  dsimp only
  split
  · exact (h.count _ _ _).count _ _ _
  · exact h.count _ _ _

/-- A request that performs keeps a state safe. -/
theorem State.Safe.perform (h : s.Safe) (id : Nat) (p : Packet) : (s.perform id p).Safe := by
  have hw : ∀ v acc, ((s.dieWriteIn (s.pktAddr p) v acc).copyBytes (s.pktAddr p) (s.takes (s.pktAddr p) v acc)).Safe :=
    fun v acc => (h.dieWriteIn _ v acc).copyBytes _ _
  unfold State.perform
  cases p.ty
  · exact (h.readEffect _ _).replied _ _ _
  · exact (hw _ _).replied _ _ _
  · exact (hw _ _).replied _ _ _
  · exact (((h.accCount _ _).dieWriteIn _ _ _).copyBytes _ _).replied _ _ _

/-- The requests a port sent earlier keep a state safe. -/
theorem State.Safe.performEarlier (h : s.Safe) (port a n : Nat) : (s.performEarlier port a n).Safe := by
  have fold : ∀ (l : Tab Packet) {t : State}, t.Safe → (l.foldl (fun t q => t.perform q.1 q.2) t).Safe := by
    intro l
    induction l with
    | nil => exact fun ht => ht
    | cons q l ih => exact fun ht => ih (ht.perform q.1 q.2)
  exact fold _ h

/-- A request answered within one event keeps a state safe. -/
theorem State.Safe.atOnce (h : s.Safe) (p : Packet) : (s.atOnce p).2.Safe := by
  have h1 : ((s.performEarlier p.port (addrOf s.topo p.stack p.off) 64).send p).Safe :=
    (h.performEarlier _ _ _).of_same rfl (fun _ => rfl)
  exact (h1.perform _ p).of_same rfl (fun _ => rfl)

/-! ## The data cache -/

/-- A write made under a condition keeps a state safe. -/
theorem State.Safe.dieWriteIf (h : s.Safe) (c : Bool) (a : Nat) (v : List (Option Byte)) :
    (if c = true then s.dieWriteIn a v false else s).Safe := by
  split
  · exact h.dieWriteIn a v false
  · exact h

/-- A line written back keeps a state safe. -/
theorem State.Safe.writeBack (h : s.Safe) (n k : Nat) : (s.writeBack n k).Safe := by
  unfold State.writeBack
  cases tget (s.sc n).lines k with
  | none => exact h
  | some l =>
    have h0 : (if l.d0 || l.d1 then s.performEarlier (corePort n) (64 * k) 64 else s).Safe := by
      split
      · exact h.performEarlier _ _ _
      · exact h
    exact ((h0.dieWriteIf l.d0 _ _).dieWriteIf l.d1 _ _).modLine n k (fun l => { l with d0 := false, d1 := false }) (fun _ => rfl)

/-- A line removed keeps a state safe. -/
theorem State.Safe.delLine (h : s.Safe) (n k : Nat) : (s.modSc n (fun t => { t with lines := tdel t.lines k })).Safe := by
  refine h.modSc n _ (fun j l e => ?_)
  by_cases hj : j = k
  · subst hj; rw [tget_tdel_self] at e; cases e
  · rw [tget_tdel_of_ne _ hj] at e; exact h.2 n j l e

/-- A replaced line keeps a state safe. -/
theorem State.Safe.evict (h : s.Safe) (n k : Nat) : (s.evict n k).Safe := (h.writeBack n k).delLine n k

/-- A line put whole keeps a state safe. -/
theorem State.Safe.putLine (h : s.Safe) (n k : Nat) (m : Line) (hm : m.data.length = 64) :
    (s.modSc n (fun t => { t with lines := tput t.lines k m })).Safe := by
  refine h.modSc n _ (fun j l e => ?_)
  simp only [tget_tput] at e
  split at e
  · cases e; exact hm
  · exact h.2 n j l e

/-- Room made for one more line keeps a state safe. -/
theorem State.Safe.cacheRoom (h : s.Safe) (n : Nat) : (s.cacheRoom n).Safe := by
  unfold State.cacheRoom
  dsimp only
  split
  · exact h
  · exact (h.evict _ _).useFree _

/-- A filled line keeps a state safe. -/
theorem State.Safe.fillLine (h : s.Safe) (n a : Nat) : (s.fillLine n a).Safe := by
  unfold State.fillLine
  dsimp only
  have h1 := h.performEarlier (corePort n) (64 * (a / 64)) 64
  split
  · exact h1.meetHost _ _ _
  · exact ((h1.cacheRoom n).noteRead _ _).putLine n _ _ (by simp [State.bytes])

/-- A cached store keeps a state safe. -/
theorem State.Safe.cachedStore (h : s.Safe) (n a : Nat) (v : List Byte) : (s.cachedStore n a v).Safe :=
  (((h.fillLine n a).meetHost _ _ _).copyBytes _ _).modLine n _ _ (fun _ => rfl)

/-- DCZ keeps a state safe. -/
theorem State.Safe.zeroLine (h : s.Safe) (n a : Nat) : (s.zeroLine n a).Safe := by
  unfold State.zeroLine
  dsimp only
  have h1 := h.performEarlier (corePort n) (64 * (a / 64)) 64
  refine State.Safe.putLine (State.Safe.copyBytes (State.Safe.meetHost ?_ _ _ _) _ _) n _ _ (List.length_replicate ..)
  split
  · exact h1
  · exact h1.cacheRoom n

/-! ## Read-modify-writes -/

/-- An accumulation keeps a state safe. -/
theorem State.Safe.accumulate (h : s.Safe) (a op fmt src : Nat) : (s.accumulate a op fmt src).Safe :=
  (h.accCount _ _).write _ _ _

/-- A compare-and-swap keeps a state safe. -/
theorem State.Safe.compareSwap (h : s.Safe) (a n cmp new : Nat) : (s.compareSwap a n cmp new).Safe := by
  unfold State.compareSwap
  dsimp only
  split
  · exact (h.accCount _ _).write _ _ _
  · exact (h.accCount _ _).dieWriteIn _ _ _

/-- A change of a context keeps a state safe. -/
theorem State.Safe.setCtx (h : s.Safe) (n c : Nat) (x : Ctx) : (s.setCtx n c x).Safe :=
  h.of_same rfl (fun m => State.lines_setCtx s n c m x)

/-- The machine right after reset is safe. -/
theorem State.safe_reset_mem : State.reset.memOk = true := rfl

end Sys2Proof.Machine
end

