-- ==== Sys2Proof/Laws/Exec.lean ====
section
/-!
SUPPORT. The arm of every instruction: `exec` of it is its meaning.
-/

namespace Sys2Proof.Machine

@[simp] theorem exec_ctlNop s : exec (.ctlNop) s = execCtlNop s := rfl
@[simp] theorem exec_ctlHalt s : exec (.ctlHalt) s = execCtlHalt s := rfl
@[simp] theorem exec_ctlBr t s : exec (.ctlBr t) s = execCtlBr t s := rfl
@[simp] theorem exec_ctlBany p t s : exec (.ctlBany p t) s = execCtlBany p t s := rfl
@[simp] theorem exec_ctlBall p t s : exec (.ctlBall p t) s = execCtlBall p t s := rfl
@[simp] theorem exec_ctlBnone p t s : exec (.ctlBnone p t) s = execCtlBnone p t s := rfl
@[simp] theorem exec_ctlBnall p t s : exec (.ctlBnall p t) s = execCtlBnall p t s := rfl
@[simp] theorem exec_ctlLset c n s : exec (.ctlLset c n) s = execCtlLset c n s := rfl
@[simp] theorem exec_ctlLsetk c k s : exec (.ctlLsetk c k) s = execCtlLsetk c k s := rfl
@[simp] theorem exec_ctlLsetv c u s : exec (.ctlLsetv c u) s = execCtlLsetv c u s := rfl
@[simp] theorem exec_ctlLbnz c t s : exec (.ctlLbnz c t) s = execCtlLbnz c t s := rfl
@[simp] theorem exec_ctlBkz k t s : exec (.ctlBkz k t) s = execCtlBkz k t s := rfl
@[simp] theorem exec_ctlBknz k t s : exec (.ctlBknz k t) s = execCtlBknz k t s := rfl
@[simp] theorem exec_ctlKret l s1 s : exec (.ctlKret l s1) s = execCtlKret l s1 s := rfl
@[simp] theorem exec_ctlKretp p s : exec (.ctlKretp p) s = execCtlKretp p s := rfl
@[simp] theorem exec_ctlIdle n s : exec (.ctlIdle n) s = execCtlIdle n s := rfl
@[simp] theorem exec_hkChkeq h a b s : exec (.hkChkeq h a b) s = execHkChkeq h a b s := rfl
@[simp] theorem exec_hkChkz h a s : exec (.hkChkz h a) s = execHkChkz h a s := rfl
@[simp] theorem exec_hkChkovf h a s : exec (.hkChkovf h a) s = execHkChkovf h a s := rfl
@[simp] theorem exec_hkChkall h a s : exec (.hkChkall h a) s = execHkChkall h a s := rfl
@[simp] theorem exec_iAdd p d a b s : exec (.iAdd p d a b) s = execIAdd p d a b s := rfl
@[simp] theorem exec_iSub p d a b s : exec (.iSub p d a b) s = execISub p d a b s := rfl
@[simp] theorem exec_iMul p d a b s : exec (.iMul p d a b) s = execIMul p d a b s := rfl
@[simp] theorem exec_iMulhs p d a b s : exec (.iMulhs p d a b) s = execIMulhs p d a b s := rfl
@[simp] theorem exec_iMulhz p d a b s : exec (.iMulhz p d a b) s = execIMulhz p d a b s := rfl
@[simp] theorem exec_iAnd p d a b s : exec (.iAnd p d a b) s = execIAnd p d a b s := rfl
@[simp] theorem exec_iOr p d a b s : exec (.iOr p d a b) s = execIOr p d a b s := rfl
@[simp] theorem exec_iXor p d a b s : exec (.iXor p d a b) s = execIXor p d a b s := rfl
@[simp] theorem exec_iAndn p d a b s : exec (.iAndn p d a b) s = execIAndn p d a b s := rfl
@[simp] theorem exec_iShl p d a b s : exec (.iShl p d a b) s = execIShl p d a b s := rfl
@[simp] theorem exec_iShrz p d a b s : exec (.iShrz p d a b) s = execIShrz p d a b s := rfl
@[simp] theorem exec_iShrs p d a b s : exec (.iShrs p d a b) s = execIShrs p d a b s := rfl
@[simp] theorem exec_iRotl p d a b s : exec (.iRotl p d a b) s = execIRotl p d a b s := rfl
@[simp] theorem exec_iMins p d a b s : exec (.iMins p d a b) s = execIMins p d a b s := rfl
@[simp] theorem exec_iMaxs p d a b s : exec (.iMaxs p d a b) s = execIMaxs p d a b s := rfl
@[simp] theorem exec_iMinz p d a b s : exec (.iMinz p d a b) s = execIMinz p d a b s := rfl
@[simp] theorem exec_iMaxz p d a b s : exec (.iMaxz p d a b) s = execIMaxz p d a b s := rfl
@[simp] theorem exec_iAbs p d a s : exec (.iAbs p d a) s = execIAbs p d a s := rfl
@[simp] theorem exec_iAddss p d a b s : exec (.iAddss p d a b) s = execIAddss p d a b s := rfl
@[simp] theorem exec_iAddsz p d a b s : exec (.iAddsz p d a b) s = execIAddsz p d a b s := rfl
@[simp] theorem exec_iSubss p d a b s : exec (.iSubss p d a b) s = execISubss p d a b s := rfl
@[simp] theorem exec_iSubsz p d a b s : exec (.iSubsz p d a b) s = execISubsz p d a b s := rfl
@[simp] theorem exec_iAbsds p d a b s : exec (.iAbsds p d a b) s = execIAbsds p d a b s := rfl
@[simp] theorem exec_iAbsdz p d a b s : exec (.iAbsdz p d a b) s = execIAbsdz p d a b s := rfl
@[simp] theorem exec_iAvgs p d a b s : exec (.iAvgs p d a b) s = execIAvgs p d a b s := rfl
@[simp] theorem exec_iAvgz p d a b s : exec (.iAvgz p d a b) s = execIAvgz p d a b s := rfl
@[simp] theorem exec_iAddx2 p d a b s : exec (.iAddx2 p d a b) s = execIAddx2 p d a b s := rfl
@[simp] theorem exec_iAddx4 p d a b s : exec (.iAddx4 p d a b) s = execIAddx4 p d a b s := rfl
@[simp] theorem exec_iAddx8 p d a b s : exec (.iAddx8 p d a b) s = execIAddx8 p d a b s := rfl
@[simp] theorem exec_iHadd p d a b s : exec (.iHadd p d a b) s = execIHadd p d a b s := rfl
@[simp] theorem exec_iHsub p d a b s : exec (.iHsub p d a b) s = execIHsub p d a b s := rfl
@[simp] theorem exec_iHaddss p d a b s : exec (.iHaddss p d a b) s = execIHaddss p d a b s := rfl
@[simp] theorem exec_iHaddsz p d a b s : exec (.iHaddsz p d a b) s = execIHaddsz p d a b s := rfl
@[simp] theorem exec_iHsubss p d a b s : exec (.iHsubss p d a b) s = execIHsubss p d a b s := rfl
@[simp] theorem exec_iHsubsz p d a b s : exec (.iHsubsz p d a b) s = execIHsubsz p d a b s := rfl
@[simp] theorem exec_iHmul p d a b s : exec (.iHmul p d a b) s = execIHmul p d a b s := rfl
@[simp] theorem exec_iHmins p d a b s : exec (.iHmins p d a b) s = execIHmins p d a b s := rfl
@[simp] theorem exec_iHmaxs p d a b s : exec (.iHmaxs p d a b) s = execIHmaxs p d a b s := rfl
@[simp] theorem exec_iHminz p d a b s : exec (.iHminz p d a b) s = execIHminz p d a b s := rfl
@[simp] theorem exec_iHmaxz p d a b s : exec (.iHmaxz p d a b) s = execIHmaxz p d a b s := rfl
@[simp] theorem exec_iHabsds p d a b s : exec (.iHabsds p d a b) s = execIHabsds p d a b s := rfl
@[simp] theorem exec_iHabsdz p d a b s : exec (.iHabsdz p d a b) s = execIHabsdz p d a b s := rfl
@[simp] theorem exec_iHavgs p d a b s : exec (.iHavgs p d a b) s = execIHavgs p d a b s := rfl
@[simp] theorem exec_iHavgz p d a b s : exec (.iHavgz p d a b) s = execIHavgz p d a b s := rfl
@[simp] theorem exec_iFext p d a b s : exec (.iFext p d a b) s = execIFext p d a b s := rfl
@[simp] theorem exec_iFexts p d a b s : exec (.iFexts p d a b) s = execIFexts p d a b s := rfl
@[simp] theorem exec_iCeq p d a b s : exec (.iCeq p d a b) s = execICeq p d a b s := rfl
@[simp] theorem exec_iCne p d a b s : exec (.iCne p d a b) s = execICne p d a b s := rfl
@[simp] theorem exec_iClts p d a b s : exec (.iClts p d a b) s = execIClts p d a b s := rfl
@[simp] theorem exec_iCltz p d a b s : exec (.iCltz p d a b) s = execICltz p d a b s := rfl
@[simp] theorem exec_iCles p d a b s : exec (.iCles p d a b) s = execICles p d a b s := rfl
@[simp] theorem exec_iClez p d a b s : exec (.iClez p d a b) s = execIClez p d a b s := rfl
@[simp] theorem exec_iPand p d a b s : exec (.iPand p d a b) s = execIPand p d a b s := rfl
@[simp] theorem exec_iPor p d a b s : exec (.iPor p d a b) s = execIPor p d a b s := rfl
@[simp] theorem exec_iPxor p d a b s : exec (.iPxor p d a b) s = execIPxor p d a b s := rfl
@[simp] theorem exec_iSel p d a b s : exec (.iSel p d a b) s = execISel p d a b s := rfl
@[simp] theorem exec_iPcnt p d a s : exec (.iPcnt p d a) s = execIPcnt p d a s := rfl
@[simp] theorem exec_iClz p d a s : exec (.iClz p d a) s = execIClz p d a s := rfl
@[simp] theorem exec_iPget p d a s : exec (.iPget p d a) s = execIPget p d a s := rfl
@[simp] theorem exec_iMov p d a s : exec (.iMov p d a) s = execIMov p d a s := rfl
@[simp] theorem exec_fFadd p d a b s : exec (.fFadd p d a b) s = execFFadd p d a b s := rfl
@[simp] theorem exec_fFsub p d a b s : exec (.fFsub p d a b) s = execFFsub p d a b s := rfl
@[simp] theorem exec_fFmul p d a b s : exec (.fFmul p d a b) s = execFFmul p d a b s := rfl
@[simp] theorem exec_fFma p d a b s : exec (.fFma p d a b) s = execFFma p d a b s := rfl
@[simp] theorem exec_fFnma p d a b s : exec (.fFnma p d a b) s = execFFnma p d a b s := rfl
@[simp] theorem exec_fFmin p d a b s : exec (.fFmin p d a b) s = execFFmin p d a b s := rfl
@[simp] theorem exec_fFmax p d a b s : exec (.fFmax p d a b) s = execFFmax p d a b s := rfl
@[simp] theorem exec_fFabs p d a s : exec (.fFabs p d a) s = execFFabs p d a s := rfl
@[simp] theorem exec_fFneg p d a s : exec (.fFneg p d a) s = execFFneg p d a s := rfl
@[simp] theorem exec_fFcpsgn p d a b s : exec (.fFcpsgn p d a b) s = execFFcpsgn p d a b s := rfl
@[simp] theorem exec_fFceq p d a b s : exec (.fFceq p d a b) s = execFFceq p d a b s := rfl
@[simp] theorem exec_fFclt p d a b s : exec (.fFclt p d a b) s = execFFclt p d a b s := rfl
@[simp] theorem exec_fFcle p d a b s : exec (.fFcle p d a b) s = execFFcle p d a b s := rfl
@[simp] theorem exec_fFcun p d a b s : exec (.fFcun p d a b) s = execFFcun p d a b s := rfl
@[simp] theorem exec_fFrcp p d a s : exec (.fFrcp p d a) s = execFFrcp p d a s := rfl
@[simp] theorem exec_fFrsq p d a s : exec (.fFrsq p d a) s = execFFrsq p d a s := rfl
@[simp] theorem exec_fFexp2 p d a s : exec (.fFexp2 p d a) s = execFFexp2 p d a s := rfl
@[simp] theorem exec_fFlog2 p d a s : exec (.fFlog2 p d a) s = execFFlog2 p d a s := rfl
@[simp] theorem exec_fBadd p d a b s : exec (.fBadd p d a b) s = execFBadd p d a b s := rfl
@[simp] theorem exec_fBsub p d a b s : exec (.fBsub p d a b) s = execFBsub p d a b s := rfl
@[simp] theorem exec_fBmul p d a b s : exec (.fBmul p d a b) s = execFBmul p d a b s := rfl
@[simp] theorem exec_fBfma p d a b s : exec (.fBfma p d a b) s = execFBfma p d a b s := rfl
@[simp] theorem exec_fBmin p d a b s : exec (.fBmin p d a b) s = execFBmin p d a b s := rfl
@[simp] theorem exec_fBmax p d a b s : exec (.fBmax p d a b) s = execFBmax p d a b s := rfl
@[simp] theorem exec_fFdot2 p d a b s : exec (.fFdot2 p d a b) s = execFFdot2 p d a b s := rfl
@[simp] theorem exec_fFclamp p d a b s : exec (.fFclamp p d a b) s = execFFclamp p d a b s := rfl
@[simp] theorem exec_fFsat p d a s : exec (.fFsat p d a) s = execFFsat p d a s := rfl
@[simp] theorem exec_fFrnd p d a s : exec (.fFrnd p d a) s = execFFrnd p d a s := rfl
@[simp] theorem exec_fFscl p d a b s : exec (.fFscl p d a b) s = execFFscl p d a b s := rfl
@[simp] theorem exec_fCvtsf p d a s : exec (.fCvtsf p d a) s = execFCvtsf p d a s := rfl
@[simp] theorem exec_fCvtzf p d a s : exec (.fCvtzf p d a) s = execFCvtzf p d a s := rfl
@[simp] theorem exec_fCvtfs p d a s : exec (.fCvtfs p d a) s = execFCvtfs p d a s := rfl
@[simp] theorem exec_fCvtfz p d a s : exec (.fCvtfz p d a) s = execFCvtfz p d a s := rfl
@[simp] theorem exec_fCvtfb p d a b s : exec (.fCvtfb p d a b) s = execFCvtfb p d a b s := rfl
@[simp] theorem exec_fCvtbfl p d a s : exec (.fCvtbfl p d a) s = execFCvtbfl p d a s := rfl
@[simp] theorem exec_fCvtbfh p d a s : exec (.fCvtbfh p d a) s = execFCvtbfh p d a s := rfl
@[simp] theorem exec_fCvtlsf p d a s : exec (.fCvtlsf p d a) s = execFCvtlsf p d a s := rfl
@[simp] theorem exec_fCvthsf p d a s : exec (.fCvthsf p d a) s = execFCvthsf p d a s := rfl
@[simp] theorem exec_fCvtlzf p d a s : exec (.fCvtlzf p d a) s = execFCvtlzf p d a s := rfl
@[simp] theorem exec_fCvthzf p d a s : exec (.fCvthzf p d a) s = execFCvthzf p d a s := rfl
@[simp] theorem exec_tmTldw m s : exec (.tmTldw m) s = execTmTldw m s := rfl
@[simp] theorem exec_tmTldwt m s : exec (.tmTldwt m) s = execTmTldwt m s := rfl
@[simp] theorem exec_tmTmma k m n s : exec (.tmTmma k m n) s = execTmTmma k m n s := rfl
@[simp] theorem exec_tmTmmz k m n s : exec (.tmTmmz k m n) s = execTmTmmz k m n s := rfl
@[simp] theorem exec_tmTmmn k m n s : exec (.tmTmmn k m n) s = execTmTmmn k m n s := rfl
@[simp] theorem exec_tmTldx m s : exec (.tmTldx m) s = execTmTldx m s := rfl
@[simp] theorem exec_tmTdrn s : exec (.tmTdrn) s = execTmTdrn s := rfl
@[simp] theorem exec_tmTwclr s : exec (.tmTwclr) s = execTmTwclr s := rfl
@[simp] theorem exec_tmTstat p d s : exec (.tmTstat p d) s = execTmTstat p d s := rfl
@[simp] theorem exec_tmTscl k m s : exec (.tmTscl k m) s = execTmTscl k m s := rfl
@[simp] theorem exec_tmTbias k m s : exec (.tmTbias k m) s = execTmTbias k m s := rfl
@[simp] theorem exec_tmTamw k s1 r s : exec (.tmTamw k s1 r) s = execTmTamw k s1 r s := rfl
@[simp] theorem exec_tmTcvt d s1 s : exec (.tmTcvt d s1) s = execTmTcvt d s1 s := rfl
@[simp] theorem exec_tmTmmh k m n s : exec (.tmTmmh k m n) s = execTmTmmh k m n s := rfl
@[simp] theorem exec_ptPld4 m s : exec (.ptPld4 m) s = execPtPld4 m s := rfl
@[simp] theorem exec_ptPld8 m s : exec (.ptPld8 m) s = execPtPld8 m s := rfl
@[simp] theorem exec_ptPlds m s : exec (.ptPlds m) s = execPtPlds m s := rfl
@[simp] theorem exec_ptPpass k m n s : exec (.ptPpass k m n) s = execPtPpass k m n s := rfl
@[simp] theorem exec_ptPpassz k m n s : exec (.ptPpassz k m n) s = execPtPpassz k m n s := rfl
@[simp] theorem exec_ptPpassn k m n s : exec (.ptPpassn k m n) s = execPtPpassn k m n s := rfl
@[simp] theorem exec_ptPcvt d s1 m s : exec (.ptPcvt d s1 m) s = execPtPcvt d s1 m s := rfl
@[simp] theorem exec_ptPclro k s : exec (.ptPclro k) s = execPtPclro k s := rfl
@[simp] theorem exec_ptPstat p d s : exec (.ptPstat p d) s = execPtPstat p d s := rfl
@[simp] theorem exec_ptPtclr s : exec (.ptPtclr) s = execPtPtclr s := rfl
@[simp] theorem exec_ptPdrn s : exec (.ptPdrn) s = execPtPdrn s := rfl
@[simp] theorem exec_ptPscan p d s1 s : exec (.ptPscan p d s1) s = execPtPscan p d s1 s := rfl
@[simp] theorem exec_sSpop p d a k s : exec (.sSpop p d a k) s = execSSpop p d a k s := rfl
@[simp] theorem exec_sSpopc p d a s : exec (.sSpopc p d a) s = execSSpopc p d a s := rfl
@[simp] theorem exec_sSpush a s1 s : exec (.sSpush a s1) s = execSSpush a s1 s := rfl
@[simp] theorem exec_sSpushc p a s1 s : exec (.sSpushc p a s1) s = execSSpushc p a s1 s := rfl
@[simp] theorem exec_sSwaitf a n s : exec (.sSwaitf a n) s = execSSwaitf a n s := rfl
@[simp] theorem exec_sSwaite a n s : exec (.sSwaite a n) s = execSSwaite a n s := rfl
@[simp] theorem exec_sSadvr a n s : exec (.sSadvr a n) s = execSSadvr a n s := rfl
@[simp] theorem exec_sSadvw a n s : exec (.sSadvw a n) s = execSSadvw a n s := rfl
@[simp] theorem exec_sTfill m a f s : exec (.sTfill m a f) s = execSTfill m a f s := rfl
@[simp] theorem exec_sTfillx m a s : exec (.sTfillx m a) s = execSTfillx m a s := rfl
@[simp] theorem exec_sScnt a s : exec (.sScnt a) s = execSScnt a s := rfl
@[simp] theorem exec_sSflush a s : exec (.sSflush a) s = execSSflush a s := rfl
@[simp] theorem exec_sSptrr p d a s : exec (.sSptrr p d a) s = execSSptrr p d a s := rfl
@[simp] theorem exec_sSptrw p d a s : exec (.sSptrw p d a) s = execSSptrw p d a s := rfl
@[simp] theorem exec_sSavail p d a s : exec (.sSavail p d a) s = execSSavail p d a s := rfl
@[simp] theorem exec_sSspace p d a s : exec (.sSspace p d a) s = execSSspace p d a s := rfl
@[simp] theorem exec_xsXperm p d s1 i s : exec (.xsXperm p d s1 i) s = execXsXperm p d s1 i s := rfl
@[simp] theorem exec_xsXpermc p d s1 i s : exec (.xsXpermc p d s1 i) s = execXsXpermc p d s1 i s := rfl
@[simp] theorem exec_xsXbc p d s1 l s : exec (.xsXbc p d s1 l) s = execXsXbc p d s1 l s := rfl
@[simp] theorem exec_xsXbcc p d s1 n s : exec (.xsXbcc p d s1 n) s = execXsXbcc p d s1 n s := rfl
@[simp] theorem exec_xsXrot p d s1 n s : exec (.xsXrot p d s1 n) s = execXsXrot p d s1 n s := rfl
@[simp] theorem exec_xsXrotc p d s1 n s : exec (.xsXrotc p d s1 n) s = execXsXrotc p d s1 n s := rfl
@[simp] theorem exec_xsXcmp p d s1 s : exec (.xsXcmp p d s1) s = execXsXcmp p d s1 s := rfl
@[simp] theorem exec_xsXcmpc p d s1 s : exec (.xsXcmpc p d s1) s = execXsXcmpc p d s1 s := rfl
@[simp] theorem exec_xsXexp p d s1 s : exec (.xsXexp p d s1) s = execXsXexp p d s1 s := rfl
@[simp] theorem exec_xsXcnt p d s : exec (.xsXcnt p d) s = execXsXcnt p d s := rfl
@[simp] theorem exec_amAalloc k s : exec (.amAalloc k) s = execAmAalloc k s := rfl
@[simp] theorem exec_amAallocp k s : exec (.amAallocp k) s = execAmAallocp k s := rfl
@[simp] theorem exec_amAfree k s : exec (.amAfree k) s = execAmAfree k s := rfl
@[simp] theorem exec_amMclaim m s : exec (.amMclaim m) s = execAmMclaim m s := rfl
@[simp] theorem exec_amMrel m s : exec (.amMrel m) s = execAmMrel m s := rfl
@[simp] theorem exec_amArd p d k r s : exec (.amArd p d k r) s = execAmArd p d k r s := rfl
@[simp] theorem exec_amArdh p d k r s : exec (.amArdh p d k r) s = execAmArdh p d k r s := rfl
@[simp] theorem exec_amAclr k s : exec (.amAclr k) s = execAmAclr k s := rfl
@[simp] theorem exec_resultLanding sc run s : exec (.resultLanding sc run) s = execResultLanding sc run s := rfl
@[simp] theorem exec_tileRowEntry sc run s : exec (.tileRowEntry sc run) s = execTileRowEntry sc run s := rfl
@[simp] theorem exec_tileUpdateVisible sc run s : exec (.tileUpdateVisible sc run) s = execTileUpdateVisible sc run s := rfl
@[simp] theorem exec_partsUpdateVisible sc run s : exec (.partsUpdateVisible sc run) s = execPartsUpdateVisible sc run s := rfl
@[simp] theorem exec_tldxReadEnd sc run s : exec (.tldxReadEnd sc run) s = execTldxReadEnd sc run s := rfl
@[simp] theorem exec_kernelRunStart sc e s : exec (.kernelRunStart sc e) s = execKernelRunStart sc e s := rfl
@[simp] theorem exec_runCompletion sc run s : exec (.runCompletion sc run) s = execRunCompletion sc run s := rfl
@[simp] theorem exec_preemption sc run s : exec (.preemption sc run) s = execPreemption sc run s := rfl
@[simp] theorem exec_runRestore sc run s : exec (.runRestore sc run) s = execRunRestore sc run s := rfl
@[simp] theorem exec_runReclaimStop sc run s : exec (.runReclaimStop sc run) s = execRunReclaimStop sc run s := rfl
@[simp] theorem exec_pthrExpiry sc e s : exec (.pthrExpiry sc e) s = execPthrExpiry sc e s := rfl
@[simp] theorem exec_add d a b s : exec (.add d a b) s = execAdd d a b s := rfl
@[simp] theorem exec_sub d a b s : exec (.sub d a b) s = execSub d a b s := rfl
@[simp] theorem exec_mul d a b s : exec (.mul d a b) s = execMul d a b s := rfl
@[simp] theorem exec_mulhs d a b s : exec (.mulhs d a b) s = execMulhs d a b s := rfl
@[simp] theorem exec_mulhz d a b s : exec (.mulhz d a b) s = execMulhz d a b s := rfl
@[simp] theorem exec_divs d a b s : exec (.divs d a b) s = execDivs d a b s := rfl
@[simp] theorem exec_divz d a b s : exec (.divz d a b) s = execDivz d a b s := rfl
@[simp] theorem exec_rems d a b s : exec (.rems d a b) s = execRems d a b s := rfl
@[simp] theorem exec_remz d a b s : exec (.remz d a b) s = execRemz d a b s := rfl
@[simp] theorem exec_and d a b s : exec (.and d a b) s = execAnd d a b s := rfl
@[simp] theorem exec_or d a b s : exec (.or d a b) s = execOr d a b s := rfl
@[simp] theorem exec_xor d a b s : exec (.xor d a b) s = execXor d a b s := rfl
@[simp] theorem exec_andn d a b s : exec (.andn d a b) s = execAndn d a b s := rfl
@[simp] theorem exec_shl d a b s : exec (.shl d a b) s = execShl d a b s := rfl
@[simp] theorem exec_shrz d a b s : exec (.shrz d a b) s = execShrz d a b s := rfl
@[simp] theorem exec_shrs d a b s : exec (.shrs d a b) s = execShrs d a b s := rfl
@[simp] theorem exec_slts d a b s : exec (.slts d a b) s = execSlts d a b s := rfl
@[simp] theorem exec_sltz d a b s : exec (.sltz d a b) s = execSltz d a b s := rfl
@[simp] theorem exec_popc d a s : exec (.popc d a) s = execPopc d a s := rfl
@[simp] theorem exec_addi d a i s : exec (.addi d a i) s = execAddi d a i s := rfl
@[simp] theorem exec_andi d a i s : exec (.andi d a i) s = execAndi d a i s := rfl
@[simp] theorem exec_ori d a i s : exec (.ori d a i) s = execOri d a i s := rfl
@[simp] theorem exec_xori d a i s : exec (.xori d a i) s = execXori d a i s := rfl
@[simp] theorem exec_shli d a i s : exec (.shli d a i) s = execShli d a i s := rfl
@[simp] theorem exec_shrzi d a i s : exec (.shrzi d a i) s = execShrzi d a i s := rfl
@[simp] theorem exec_shrsi d a i s : exec (.shrsi d a i) s = execShrsi d a i s := rfl
@[simp] theorem exec_sltsi d a i s : exec (.sltsi d a i) s = execSltsi d a i s := rfl
@[simp] theorem exec_sltzi d a i s : exec (.sltzi d a i) s = execSltzi d a i s := rfl
@[simp] theorem exec_ldi d i s : exec (.ldi d i) s = execLdi d i s := rfl
@[simp] theorem exec_lsi d i s : exec (.lsi d i) s = execLsi d i s := rfl
@[simp] theorem exec_beq a b o s : exec (.beq a b o) s = execBeq a b o s := rfl
@[simp] theorem exec_bne a b o s : exec (.bne a b o) s = execBne a b o s := rfl
@[simp] theorem exec_blts a b o s : exec (.blts a b o) s = execBlts a b o s := rfl
@[simp] theorem exec_bges a b o s : exec (.bges a b o) s = execBges a b o s := rfl
@[simp] theorem exec_bltz a b o s : exec (.bltz a b o) s = execBltz a b o s := rfl
@[simp] theorem exec_bgez a b o s : exec (.bgez a b o) s = execBgez a b o s := rfl
@[simp] theorem exec_j o s : exec (.j o) s = execJ o s := rfl
@[simp] theorem exec_jal o s : exec (.jal o) s = execJal o s := rfl
@[simp] theorem exec_jr a s : exec (.jr a) s = execJr a s := rfl
@[simp] theorem exec_jalr d a s : exec (.jalr d a) s = execJalr d a s := rfl
@[simp] theorem exec_lb d a i s : exec (.lb d a i) s = execLb d a i s := rfl
@[simp] theorem exec_lbz d a i s : exec (.lbz d a i) s = execLbz d a i s := rfl
@[simp] theorem exec_lh d a i s : exec (.lh d a i) s = execLh d a i s := rfl
@[simp] theorem exec_lhz d a i s : exec (.lhz d a i) s = execLhz d a i s := rfl
@[simp] theorem exec_lw d a i s : exec (.lw d a i) s = execLw d a i s := rfl
@[simp] theorem exec_lwz d a i s : exec (.lwz d a i) s = execLwz d a i s := rfl
@[simp] theorem exec_ld d a i s : exec (.ld d a i) s = execLd d a i s := rfl
@[simp] theorem exec_ldx d a b s : exec (.ldx d a b) s = execLdx d a b s := rfl
@[simp] theorem exec_sb d a i s : exec (.sb d a i) s = execSb d a i s := rfl
@[simp] theorem exec_sh d a i s : exec (.sh d a i) s = execSh d a i s := rfl
@[simp] theorem exec_sw d a i s : exec (.sw d a i) s = execSw d a i s := rfl
@[simp] theorem exec_sd d a i s : exec (.sd d a i) s = execSd d a i s := rfl
@[simp] theorem exec_ldAcq d a i s : exec (.ldAcq d a i) s = execLdAcq d a i s := rfl
@[simp] theorem exec_stRel d a i s : exec (.stRel d a i) s = execStRel d a i s := rfl
@[simp] theorem exec_ldm d a n s : exec (.ldm d a n) s = execLdm d a n s := rfl
@[simp] theorem exec_stm d a n s : exec (.stm d a n) s = execStm d a n s := rfl
@[simp] theorem exec_nop s : exec (.nop) s = execNop s := rfl
@[simp] theorem exec_mfs d s1 s : exec (.mfs d s1) s = execMfs d s1 s := rfl
@[simp] theorem exec_mts a s1 s : exec (.mts a s1) s = execMts a s1 s := rfl
@[simp] theorem exec_fenceSc s : exec (.fenceSc) s = execFenceSc s := rfl
@[simp] theorem exec_fenceDie s : exec (.fenceDie) s = execFenceDie s := rfl
@[simp] theorem exec_fencePkg s : exec (.fencePkg) s = execFencePkg s := rfl
@[simp] theorem exec_fenceSys s : exec (.fenceSys) s = execFenceSys s := rfl
@[simp] theorem exec_trap n s : exec (.trap n) s = execTrap n s := rfl
@[simp] theorem exec_tret s : exec (.tret) s = execTret s := rfl
@[simp] theorem exec_brk n s : exec (.brk n) s = execBrk n s := rfl
@[simp] theorem exec_pause s : exec (.pause) s = execPause s := rfl
@[simp] theorem exec_dcfl a i s : exec (.dcfl a i) s = execDcfl a i s := rfl
@[simp] theorem exec_dcinv a i s : exec (.dcinv a i) s = execDcinv a i s := rfl
@[simp] theorem exec_dcz a i s : exec (.dcz a i) s = execDcz a i s := rfl
@[simp] theorem exec_idle s : exec (.idle) s = execIdle s := rfl
@[simp] theorem exec_csave a c s : exec (.csave a c) s = execCsave a c s := rfl
@[simp] theorem exec_cload a c s : exec (.cload a c) s = execCload a c s := rfl
@[simp] theorem exec_ctxkill c s : exec (.ctxkill c) s = execCtxkill c s := rfl
@[simp] theorem exec_ctxsig a c s : exec (.ctxsig a c) s = execCtxsig a c s := rfl
@[simp] theorem exec_salloc a h b g s : exec (.salloc a h b g) s = execSalloc a h b g s := rfl
@[simp] theorem exec_sfree h s : exec (.sfree h) s = execSfree h s := rfl
@[simp] theorem exec_sload a h k e s : exec (.sload a h k e) s = execSload a h k e s := rfl
@[simp] theorem exec_sstore a h k e s : exec (.sstore a h k e) s = execSstore a h k e s := rfl
@[simp] theorem exec_sgather a h k b s : exec (.sgather a h k b) s = execSgather a h k b s := rfl
@[simp] theorem exec_sscatter a h k b s : exec (.sscatter a h k b) s = execSscatter a h k b s := rfl
@[simp] theorem exec_sreset h s : exec (.sreset h) s = execSreset h s := rfl
@[simp] theorem exec_sptr a h w s : exec (.sptr a h w) s = execSptr a h w s := rfl
@[simp] theorem exec_srd a h b s : exec (.srd a h b) s = execSrd a h b s := rfl
@[simp] theorem exec_swr a h b s : exec (.swr a h b) s = execSwr a h b s := rfl
@[simp] theorem exec_sfill a h b p s : exec (.sfill a h b p) s = execSfill a h b p s := rfl
@[simp] theorem exec_smovh h k s : exec (.smovh h k) s = execSmovh h k s := rfl
@[simp] theorem exec_sinfo a h s : exec (.sinfo a h) s = execSinfo a h s := rfl
@[simp] theorem exec_kload a b s : exec (.kload a b) s = execKload a b s := rfl
@[simp] theorem exec_kfree a s : exec (.kfree a) s = execKfree a s := rfl
@[simp] theorem exec_kinfo a b s : exec (.kinfo a b) s = execKinfo a b s := rfl
@[simp] theorem exec_krun a b t d s : exec (.krun a b t d) s = execKrun a b t d s := rfl
@[simp] theorem exec_krq a b t s : exec (.krq a b t) s = execKrq a b t s := rfl
@[simp] theorem exec_scount a h s : exec (.scount a h) s = execScount a h s := rfl
@[simp] theorem exec_swait h q c m s : exec (.swait h q c m) s = execSwait h q c m s := rfl
@[simp] theorem exec_swaita s : exec (.swaita) s = execSwaita s := rfl
@[simp] theorem exec_stest a h q c m s : exec (.stest a h q c m) s = execStest a h q c m s := rfl
@[simp] theorem exec_sbar m s : exec (.sbar m) s = execSbar m s := rfl
@[simp] theorem exec_rfence s : exec (.rfence) s = execRfence s := rfl
@[simp] theorem exec_fspawn d a b s : exec (.fspawn d a b) s = execFspawn d a b s := rfl
@[simp] theorem exec_fspawnh d a b s1 s : exec (.fspawnh d a b s1) s = execFspawnh d a b s1 s := rfl
@[simp] theorem exec_fref a s : exec (.fref a) s = execFref a s := rfl
@[simp] theorem exec_fdrop a s : exec (.fdrop a) s = execFdrop a s := rfl
@[simp] theorem exec_fget d a s : exec (.fget d a) s = execFget d a s := rfl
@[simp] theorem exec_fgetd d a s : exec (.fgetd d a) s = execFgetd d a s := rfl
@[simp] theorem exec_fpoll d a s : exec (.fpoll d a) s = execFpoll d a s := rfl
@[simp] theorem exec_fret a s : exec (.fret a) s = execFret a s := rfl
@[simp] theorem exec_fretf a s : exec (.fretf a) s = execFretf a s := rfl
@[simp] theorem exec_fyield s : exec (.fyield) s = execFyield s := rfl
@[simp] theorem exec_fsig n s : exec (.fsig n) s = execFsig n s := rfl
@[simp] theorem exec_balloc d a b s : exec (.balloc d a b) s = execBalloc d a b s := rfl
@[simp] theorem exec_bfree a s : exec (.bfree a) s = execBfree a s := rfl
@[simp] theorem exec_barr a s : exec (.barr a) s = execBarr a s := rfl
@[simp] theorem exec_barrd a s : exec (.barrd a) s = execBarrd a s := rfl
@[simp] theorem exec_bwait a s : exec (.bwait a) s = execBwait a s := rfl
@[simp] theorem exec_bpoll d a s : exec (.bpoll d a) s = execBpoll d a s := rfl
@[simp] theorem exec_waitge a b s : exec (.waitge a b) s = execWaitge a b s := rfl
@[simp] theorem exec_glaunch d a s : exec (.glaunch d a) s = execGlaunch d a s := rfl
@[simp] theorem exec_gfree a s : exec (.gfree a) s = execGfree a s := rfl
@[simp] theorem exec_scopy a h k b t s1 s : exec (.scopy a h k b t s1) s = execScopy a h k b t s1 s := rfl
@[simp] theorem exec_sacc a h b o l s : exec (.sacc a h b o l) s = execSacc a h b o l s := rfl
@[simp] theorem exec_scas a h k b o t l s : exec (.scas a h k b o t l) s = execScas a h k b o t l s := rfl
@[simp] theorem exec_sscadd a h k b o s : exec (.sscadd a h k b o) s = execSscadd a h k b o s := rfl
@[simp] theorem exec_squant a b s : exec (.squant a b) s = execSquant a b s := rfl
@[simp] theorem exec_sdqnt a b s : exec (.sdqnt a b) s = execSdqnt a b s := rfl
@[simp] theorem exec_sdecomp a h b m s : exec (.sdecomp a h b m) s = execSdecomp a h b m s := rfl
@[simp] theorem exec_sread a b s : exec (.sread a b) s = execSread a b s := rfl
@[simp] theorem exec_sreads a h s : exec (.sreads a h) s = execSreads a h s := rfl
@[simp] theorem exec_rput a h b o s1 s : exec (.rput a h b o s1) s = execRput a h b o s1 s := rfl
@[simp] theorem exec_rputh a h b o c s1 s : exec (.rputh a h b o c s1) s = execRputh a h b o c s1 s := rfl
@[simp] theorem exec_rget a k b t s : exec (.rget a k b t) s = execRget a k b t s := rfl
@[simp] theorem exec_racc a h b o t l s : exec (.racc a h b o t l) s = execRacc a h b o t l s := rfl
@[simp] theorem exec_rsig a b c q s : exec (.rsig a b c q) s = execRsig a b c q s := rfl
@[simp] theorem exec_tlbinv a s : exec (.tlbinv a) s = execTlbinv a s := rfl
@[simp] theorem exec_tlbinva s : exec (.tlbinva) s = execTlbinva s := rfl
@[simp] theorem exec_xlat d a s : exec (.xlat d a) s = execXlat d a s := rfl
@[simp] theorem exec_rngset a r w s : exec (.rngset a r w) s = execRngset a r w s := rfl
@[simp] theorem exec_rngget d r l w s : exec (.rngget d r l w) s = execRngget d r l w s := rfl
@[simp] theorem exec_rngcommit s : exec (.rngcommit) s = execRngcommit s := rfl
@[simp] theorem exec_psplit a s : exec (.psplit a) s = execPsplit a s := rfl
@[simp] theorem exec_pown a b s : exec (.pown a b) s = execPown a b s := rfl
@[simp] theorem exec_pdup a b s : exec (.pdup a b) s = execPdup a b s := rfl
@[simp] theorem exec_pstat d a s : exec (.pstat d a) s = execPstat d a s := rfl
@[simp] theorem exec_asyncTrap sc c s : exec (.asyncTrap sc c) s = execAsyncTrap sc c s := rfl
@[simp] theorem exec_trapHandover sc s : exec (.trapHandover sc) s = execTrapHandover sc s := rfl
@[simp] theorem exec_pauseExpiry sc c s : exec (.pauseExpiry sc c) s = execPauseExpiry sc c s := rfl
@[simp] theorem exec_contextWake sc c s : exec (.contextWake sc c) s = execContextWake sc c s := rfl
@[simp] theorem exec_messageContextStart sc s : exec (.messageContextStart sc) s = execMessageContextStart sc s := rfl
@[simp] theorem exec_entryStart sc e s : exec (.entryStart sc e) s = execEntryStart sc e s := rfl
@[simp] theorem exec_streamAgentTransfer sc e s : exec (.streamAgentTransfer sc e) s = execStreamAgentTransfer sc e s := rfl
@[simp] theorem exec_entryRetire sc e s : exec (.entryRetire sc e) s = execEntryRetire sc e s := rfl
@[simp] theorem exec_entryComplete sc e s : exec (.entryComplete sc e) s = execEntryComplete sc e s := rfl
@[simp] theorem exec_kernelStoreRelease sc k s : exec (.kernelStoreRelease sc k) s = execKernelStoreRelease sc k s := rfl
@[simp] theorem exec_streamDeferredFree sc d s : exec (.streamDeferredFree sc d) s = execStreamDeferredFree sc d s := rfl
@[simp] theorem exec_taskDispatch s : exec (.taskDispatch) s = execTaskDispatch s := rfl
@[simp] theorem exec_reclamationPoint f s : exec (.reclamationPoint f) s = execReclamationPoint f s := rfl
@[simp] theorem exec_taskEnd sc c s : exec (.taskEnd sc c) s = execTaskEnd sc c s := rfl
@[simp] theorem exec_fsigDelivery sc c s : exec (.fsigDelivery sc c) s = execFsigDelivery sc c s := rfl
@[simp] theorem exec_graphNodeDispatch g n s : exec (.graphNodeDispatch g n) s = execGraphNodeDispatch g n s := rfl
@[simp] theorem exec_launchRead q s : exec (.launchRead q) s = execLaunchRead q s := rfl
@[simp] theorem exec_budgetExpiry sc c s : exec (.budgetExpiry sc c) s = execBudgetExpiry sc c s := rfl
@[simp] theorem exec_qcfgWrite q v s : exec (.qcfgWrite q v) s = execQcfgWrite q v s := rfl
@[simp] theorem exec_qtailWrite q v s : exec (.qtailWrite q v) s = execQtailWrite q v s := rfl
@[simp] theorem exec_qstatRefClear q v s : exec (.qstatRefClear q v) s = execQstatRefClear q v s := rfl
@[simp] theorem exec_drecValidate i v s : exec (.drecValidate i v) s = execDrecValidate i v s := rfl
@[simp] theorem exec_fidWrite v s : exec (.fidWrite v) s = execFidWrite v s := rfl
@[simp] theorem exec_kspWrite sc v s : exec (.kspWrite sc v) s = execKspWrite sc v s := rfl
@[simp] theorem exec_ptbWrite sc v s : exec (.ptbWrite sc v) s = execPtbWrite sc v s := rfl
@[simp] theorem exec_plimWrite v s : exec (.plimWrite v) s = execPlimWrite v s := rfl
@[simp] theorem exec_tthrWrite v s : exec (.tthrWrite v) s = execTthrWrite v s := rfl
@[simp] theorem exec_hlthClear v s : exec (.hlthClear v) s = execHlthClear v s := rfl
@[simp] theorem exec_tagStoreWrite off v s : exec (.tagStoreWrite off v) s = execTagStoreWrite off v s := rfl
@[simp] theorem exec_frameMapWrite off v s : exec (.frameMapWrite off v) s = execFrameMapWrite off v s := rfl
@[simp] theorem exec_portctlLock port s : exec (.portctlLock port) s = execPortctlLock port s := rfl
@[simp] theorem exec_portctlRun port s : exec (.portctlRun port) s = execPortctlRun port s := rfl
@[simp] theorem exec_portctlUnlock port s : exec (.portctlUnlock port) s = execPortctlUnlock port s := rfl
@[simp] theorem exec_registerWrite off v s : exec (.registerWrite off v) s = execRegisterWrite off v s := rfl
@[simp] theorem exec_baseDieRead id s : exec (.baseDieRead id) s = execBaseDieRead id s := rfl
@[simp] theorem exec_baseDieWrite id s : exec (.baseDieWrite id) s = execBaseDieWrite id s := rfl
@[simp] theorem exec_baseDieMaskedWrite id s : exec (.baseDieMaskedWrite id) s = execBaseDieMaskedWrite id s := rfl
@[simp] theorem exec_baseDieAccumulate id s : exec (.baseDieAccumulate id) s = execBaseDieAccumulate id s := rfl
@[simp] theorem exec_baseDieReply id s : exec (.baseDieReply id) s = execBaseDieReply id s := rfl
@[simp] theorem exec_pageWalk sc va s : exec (.pageWalk sc va) s = execPageWalk sc va s := rfl
@[simp] theorem exec_nvmeCompletion job cmd status data s : exec (.nvmeCompletion job cmd status data) s = execNvmeCompletion job cmd status data s := rfl
@[simp] theorem exec_nvmeTimeout job cmd s : exec (.nvmeTimeout job cmd) s = execNvmeTimeout job cmd s := rfl
@[simp] theorem exec_hostWrite r s : exec (.hostWrite r) s = execHostWrite r s := rfl
@[simp] theorem exec_hostRead r s : exec (.hostRead r) s = execHostRead r s := rfl
@[simp] theorem exec_hostAtomic r s : exec (.hostAtomic r) s = execHostAtomic r s := rfl
@[simp] theorem exec_cxlCacheRequest line excl s : exec (.cxlCacheRequest line excl) s = execCxlCacheRequest line excl s := rfl
@[simp] theorem exec_bisnpResponse line dirty s : exec (.bisnpResponse line dirty) s = execBisnpResponse line dirty s := rfl
@[simp] theorem exec_hostLinkTimeout s : exec (.hostLinkTimeout) s = execHostLinkTimeout s := rfl
@[simp] theorem exec_dieLoss die core s : exec (.dieLoss die core) s = execDieLoss die core s := rfl
@[simp] theorem exec_stackLoss stack s : exec (.stackLoss stack) s = execStackLoss stack s := rfl
@[simp] theorem exec_bridgeLinkFailure link s : exec (.bridgeLinkFailure link) s = execBridgeLinkFailure link s := rfl
@[simp] theorem exec_hubLoss hub s : exec (.hubLoss hub) s = execHubLoss hub s := rfl
@[simp] theorem exec_laneFailure lane s : exec (.laneFailure lane) s = execLaneFailure lane s := rfl
@[simp] theorem exec_slotStart s : exec (.slotStart) s = execSlotStart s := rfl
@[simp] theorem exec_framePosition lane rx s : exec (.framePosition lane rx) s = execFramePosition lane rx s := rfl
@[simp] theorem exec_payloadWindowEnd s : exec (.payloadWindowEnd) s = execPayloadWindowEnd s := rfl
@[simp] theorem exec_filler lane hop s : exec (.filler lane hop) s = execFiller lane hop s := rfl
@[simp] theorem exec_put f s : exec (.put f) s = execPut f s := rfl
@[simp] theorem exec_puth f s : exec (.puth f) s = execPuth f s := rfl
@[simp] theorem exec_getreq f s : exec (.getreq f) s = execGetreq f s := rfl
@[simp] theorem exec_getdata f s : exec (.getdata f) s = execGetdata f s := rfl
@[simp] theorem exec_acc f s : exec (.acc f) s = execAcc f s := rfl
@[simp] theorem exec_sig f s : exec (.sig f) s = execSig f s := rfl
@[simp] theorem exec_ack f s : exec (.ack f) s = execAck f s := rfl
@[simp] theorem exec_descriptorFrame f s : exec (.descriptorFrame f) s = execDescriptorFrame f s := rfl
@[simp] theorem exec_relayFrame lane f s : exec (.relayFrame lane f) s = execRelayFrame lane f s := rfl
@[simp] theorem exec_e2eTimeout dst op s : exec (.e2eTimeout dst op) s = execE2eTimeout dst op s := rfl
@[simp] theorem exec_livenessTimeout pkg s : exec (.livenessTimeout pkg) s = execLivenessTimeout pkg s := rfl
@[simp] theorem exec_getCertificate slot s : exec (.getCertificate slot) s = execGetCertificate slot s := rfl
@[simp] theorem exec_challenge nonce s : exec (.challenge nonce) s = execChallenge nonce s := rfl
@[simp] theorem exec_getMeasurements index s : exec (.getMeasurements index) s = execGetMeasurements index s := rfl
@[simp] theorem exec_keyUpdate peer s : exec (.keyUpdate peer) s = execKeyUpdate peer s := rfl
@[simp] theorem exec_moduleReset b s : exec (.moduleReset b) s = execModuleReset b s := rfl
@[simp] theorem exec_thermalTrip s : exec (.thermalTrip) s = execThermalTrip s := rfl
@[simp] theorem exec_powerSample p s : exec (.powerSample p) s = execPowerSample p s := rfl
@[simp] theorem exec_illegalInstruction w s : exec (.illegalInstruction w) s = execIllegalInstruction w s := rfl
@[simp] theorem exec_fetchFault va s : exec (.fetchFault va) s = execFetchFault va s := rfl
@[simp] theorem exec_copyEngineTransfer sc e s : exec (.copyEngineTransfer sc e) s = execCopyEngineTransfer sc e s := rfl
@[simp] theorem exec_dceBlockWrite sc e s : exec (.dceBlockWrite sc e) s = execDceBlockWrite sc e s := rfl
@[simp] theorem exec_portLinkFailure port s : exec (.portLinkFailure port) s = execPortLinkFailure port s := rfl
@[simp] theorem exec_configurationRequest port reg s : exec (.configurationRequest port reg) s = execConfigurationRequest port reg s := rfl
@[simp] theorem exec_spdmSession peer s : exec (.spdmSession peer) s = execSpdmSession peer s := rfl

end Sys2Proof.Machine
end

