-- ==== Sys2Proof/Laws/Shapes.lean ====
section
/-!
SUPPORT. The shapes that meanings take, said once: how a kernel operation that lands, makes or notes, and a control-core
instruction that writes, goes on, traps or blocks, meets the terms of `Safety`.
-/

namespace Sys2Proof.Machine

/-- A change of the run being issued is one of that run alone. -/
theorem onlyRun_modMyRun (s : State) (f : Run → Run) : OnlyRun s (s.modMyRun f) := by
  refine ⟨?_, fun a => s.byte_modMyRun f a⟩
  rw [State.myRun_modMyRun]; rfl

/-- An operation that appends one result in flight, and latches its inputs, lands. -/
theorem lands_of {i : Instr} {s : State} {lat : Nat} {e : Effect} {l : List (Nat × Row)} {g : Nat → Run → Run}
    (h : exec i s = kop i g s)
    (hg : ∀ (r : Run) (fs : List (Nat × Nat)), r = s.myRun → g s.cur.syl { r with faults := fs } =
      { r with faults := fs, pend := r.pend ++ [⟨lat, e⟩], marks := r.marks ++ marksOf e,
               latches := l.foldl (fun l p => tput l p.1 p.2) r.latches }) : Lands i s lat e l := by
  have hm : (s.modMyRun (fun r => g s.cur.syl (r.noteReads s.cur.syl i))).myRun = _ :=
    (State.myRun_modMyRun s _).trans (hg s.myRun _ rfl)
  refine ⟨_, h, onlyRun_modMyRun s _, ?_, ?_, ?_, ?_, ?_⟩ <;> rw [hm] <;> rfl

/-- An operation that makes one new run of the run being issued. -/
theorem makes_of {i : Instr} {s : State} {q : Run} {g : Nat → Run → Run}
    (h : exec i s = kop i g s)
    (hg : ∀ (r : Run) (fs : List (Nat × Nat)), r = s.myRun → g s.cur.syl { r with faults := fs } = { q with faults := fs }) : Makes i s q := by
  refine ⟨_, h, onlyRun_modMyRun s _, ?_⟩
  exact (State.myRun_modMyRun s _).trans (hg s.myRun _ rfl)

/-- An operation that only notes a fault in some cores. -/
theorem notes_of {i : Instr} {s : State} {code : Nat} {cs : List Nat} {g : Nat → Run → Run}
    (h : exec i s = kop i g s)
    (hg : ∀ (r : Run) (fs : List (Nat × Nat)), r = s.myRun → g s.cur.syl { r with faults := fs } =
      { r with faults := fs ++ cs.map (fun c => (c, code)) }) : NotesFault i s code cs := by
  refine ⟨_, h, onlyRun_modMyRun s _, ?_⟩
  exact (State.myRun_modMyRun s _).trans (hg s.myRun _ rfl)

/-- Noted faults change no input. -/
theorem Run.input_faults (r : Run) (fs : List (Nat × Nat)) (y : Nat) (b : Bool) (rd : Reading) (c : Nat) :
    Run.input { r with faults := fs } y b rd c = r.input y b rd c := rfl

/-- The two latches of a syllable are two. -/
theorem latchIx_ne (y : Nat) : latchIx y true ≠ latchIx y false := by
  unfold latchIx; simp

/-- Latching input A changes no input B. -/
theorem Run.input_takeLatch (r : Run) (y : Nat) (ra rb : Reading) (a b : Nat) :
    (r.takeLatch y false ra a).input y true rb b = r.input y true rb b := by
  have h : (r.takeLatch y false ra a).latch (latchIx y true) = r.latch (latchIx y true) := by
    unfold Run.latch Run.takeLatch
    exact tgetD_tput_of_ne _ _ _ (latchIx_ne y)
  unfold Run.input
  rw [h]; rfl

/-- Both inputs latched, as one update. -/
theorem Run.takeAB_eq (r : Run) (y : Nat) (ra rb : Reading) (a b : Nat) :
    (r.takeLatch y false ra a).takeLatch y true rb b =
      { r with latches := tput (tput r.latches (latchIx y false) (r.input y false ra a)) (latchIx y true) (r.input y true rb b) } := by
  unfold Run.takeLatch
  have := Run.input_takeLatch r y ra rb a b
  unfold Run.takeLatch at this
  rw [this]

/-- A lane operation of form V3 is right where its lane function is. -/
theorem laneOp_of {i : Instr} {s : State} {ra rb : Reading} {lat : Nat} {p : BitVec 2} {d a b : BitVec 8} {f : W32 → W32 → W32}
    {law : W32 → W32 → W32 → Prop}
    (h : exec i s = kop i (opV3' ra rb lat f p d a b) s) (hf : ∀ x y, law x y (f x y)) : LaneOp i s ra rb lat p d a b law := by
  refine ⟨List.zipWith f (s.inA ra a) (s.inB rb b), lands_of h ?_, ?_, ?_⟩
  · rintro r fs rfl
    simp only [opV3', Run.takeAB_eq]
    rfl
  · simp
  · intro k x y z hx hy hz
    simp [List.getElem?_zipWith, hx, hy] at hz
    subst hz; exact hf x y

/-- A lane operation of form V2 is right where its lane function is. -/
theorem laneOp1_of {i : Instr} {s : State} {rd : Reading} {lat : Nat} {p : BitVec 2} {d a : BitVec 8} {f : W32 → W32}
    {law : W32 → W32 → Prop}
    (h : exec i s = kop i (opV2 rd lat f p d a) s) (hf : ∀ x, law x (f x)) : LaneOp1 i s rd lat p d a law := by
  refine ⟨(s.inA rd a).map f, lands_of h ?_, ?_, ?_⟩
  · rintro r fs rfl
    rfl
  · simp
  · intro k x z hx hz
    simp [hx] at hz
    subst hz; exact hf x

/-- A lane operation of form VD is right where its lane function is. -/
theorem laneOpD_of {i : Instr} {s : State} {rd : Reading} {lat : Nat} {p : BitVec 2} {d a b : BitVec 8} {f : W32 → W32 → W32 → W32}
    {law : W32 → W32 → W32 → W32 → Prop}
    (h : exec i s = kop i (opVD rd lat f p d a b) s) (hf : ∀ x y z, law x y z (f x y z)) : LaneOpD i s rd lat p d a b law := by
  refine ⟨List.zipWith (fun x g => g x) (s.myRun.reg d.toNat)
      (List.zipWith (fun x y z => f z x y) (s.inA rd a) (s.inB rd b)), lands_of h ?_, ?_, ?_⟩
  · rintro r fs rfl
    simp only [opVD, Run.takeAB, Run.takeAB_eq]
    rfl
  · simp
  · intro k x y z hx hy hz
    rw [List.getElem?_zip_eq_some] at hy
    obtain ⟨hy1, hy2⟩ := hy
    simp [List.getElem?_zipWith, hx, hy1, hy2] at hz
    subst hz; exact hf x y.1 y.2

/-- A compare is right where its lane function is. -/
theorem laneCmp_of {i : Instr} {s : State} {rd : Reading} {lat : Nat} {p : BitVec 2} {d a b : BitVec 8} {f : W32 → W32 → Bool}
    {law : W32 → W32 → Bool → Prop}
    (h : exec i s = kop i (opPC rd lat f p d a b) s) (hf : ∀ x y, law x y (f x y)) : LaneCmp i s rd lat p d a b law := by
  refine ⟨List.zipWith f (s.inA rd a) (s.inB rd b), lands_of h ?_, ?_, ?_⟩
  · rintro r fs rfl
    simp only [marksOf, List.append_nil, opPC, Run.takeAB, Run.takeAB_eq]
    rfl
  · simp
  · intro k x y z hx hy hz
    rw [List.getElem?_zipWith, hx, hy] at hz
    simp only [Option.some.injEq] at hz
    subst hz; exact hf x y

/-- Where every register holds a value, none waits. -/
theorem State.Filled.none {s : State} {rs : List (BitVec 5)} (h : s.Filled rs) : s.me.unfilledReg (rs.map BitVec.toNat) = none := by
  unfold Ctx.unfilledReg
  rw [List.find?_eq_none]
  intro r hr
  obtain ⟨q, hq, rfl⟩ := List.mem_map.1 hr
  by_cases h0 : q = 0
  · subst h0; simp
  · obtain ⟨h1, h2⟩ := h q hq h0
    simp_all

/-- An instruction whose registers all hold values has its effect. -/
theorem State.Filled.ctl {s : State} {rs : List (BitVec 5)} (h : s.Filled rs) (f : State → State) : ctl rs s f = .next (f s) := ctl_filled (State.Filled.none h) f

/-- Fewer registers hold values where more do. -/
theorem State.Filled.mono {s : State} {rs qs : List (BitVec 5)} (h : s.Filled rs) (hs : ∀ r ∈ qs, r ∈ rs) : s.Filled qs :=
  fun r hr => h r (hs r hr)

/-- No registers hold values always. -/
@[simp] theorem State.Filled.nil (s : State) : s.Filled [] := fun r hr => by cases hr

/-- A change of the executing context is one of it alone. -/
theorem onlyMe_modMe (s : State) (f : Ctx → Ctx) : OnlyMe s (s.modMe f) :=
  ⟨by rw [State.me_modMe]; rfl, fun a => s.byte_modMe f a⟩

/-- An instruction whose effect is a result completes with it. -/
theorem writes_of {i : Instr} {s : State} {d : BitVec 5} {v : Word} (h : exec i s = .next (s.ret d v)) : Writes i s d v := by
  rw [State.ret_eq] at h
  refine ⟨_, h, onlyMe_modMe s _, ?_, ?_⟩
  · rw [State.me_modMe]; unfold Ctx.setReg; split <;> rfl
  · intro r; rw [State.me_modMe, Ctx.reg_next, Ctx.reg_setReg]
    by_cases h1 : r = d.toNat <;> by_cases h2 : r = 0 <;> simp_all

/-- An instruction whose effect is a new pc goes there. -/
theorem goesTo_of {i : Instr} {s : State} {a : Word} (h : exec i s = .next (s.modMe (fun x => { x with pc := a, wait := none }))) : GoesTo i s a :=
  ⟨_, h, onlyMe_modMe s _, by rw [State.me_modMe]⟩

/-- An instruction with no effect but its end goes on. -/
theorem goesTo_fin {i : Instr} {s : State} (h : exec i s = .next s.fin) : GoesTo i s (s.me.pc + 4) :=
  ⟨_, h, onlyMe_modMe s _, by unfold State.fin; rw [State.me_modMe]; rfl⟩

/-- A jump goes to its address. -/
theorem goesTo_jump {i : Instr} {s : State} {a : Word} (h : exec i s = .next (s.jump a)) : GoesTo i s a :=
  ⟨_, h, onlyMe_modMe s _, by unfold State.jump; rw [State.me_modMe]; rfl⟩

/-- Taking a trap leaves every byte. -/
theorem State.byte_takeTrap (s : State) (n c cause : Nat) (async : Bool) (v p : Word) (a : Nat) :
    (s.takeTrap n c cause async v p).byte a = s.byte a := by
  have h1 : ∀ t : State, (t.modSc n fun t => { t with trapQ := t.trapQ ++ [c] }).byte a = t.byte a := by
    intro t; apply State.byte_modSc; intro _; rfl
  have h2 : ∀ t : State, ((t.modSc n fun t => { t with stopped := true }).setHlth [hlthSysCtx]).byte a = t.byte a := by
    intro t
    refine Eq.trans (b := (t.modSc n fun t => { t with stopped := true }).byte a) ?_ ?_
    · exact State.byte_congr rfl rfl rfl rfl rfl (fun m => rfl) a
    · apply State.byte_modSc; intro _; rfl
  simp only [State.takeTrap]
  split
  · rw [h2, h1, State.byte_modCtx]
  · rw [h1, State.byte_modCtx]

/-- Taking a trap leaves what is executing. -/
@[simp] theorem State.cur_takeTrap (s : State) (n c cause : Nat) (async : Bool) (v p : Word) :
    (s.takeTrap n c cause async v p).cur = s.cur := by
  simp only [State.takeTrap]
  split <;> rfl

/-- An instruction that takes a trap of the executing context traps. -/
theorem traps_take {i : Instr} {s : State} {c : Nat} {v p : Word}
    (h : exec i s = .next (s.takeTrap s.cur.sc s.cur.ctx c false v p)) : Traps i s c v p := by
  refine ⟨_, h, fun a => State.byte_takeTrap _ _ _ _ _ _ _ a, ?_⟩
  unfold State.me
  rw [State.cur_takeTrap, State.ctx_takeTrap]
  rfl

/-- An instruction whose effect is a precise trap traps. -/
theorem traps_of {i : Instr} {s : State} {c : Nat} {v : Word} (h : exec i s = .next (s.trap c v)) : Traps i s c v s.me.pc := traps_take h

/-- An instruction whose effect is a wait blocks. -/
theorem blocks_of {i : Instr} {s : State} {w : Wait} {b : Bool} (h : exec i s = .next (s.block w b)) : Blocks i s w := by
  refine ⟨_, h, onlyMe_modMe s _, ?_⟩
  unfold State.block
  rw [State.me_modMe]
  exact ⟨rfl, rfl, rfl, fun r => rfl⟩

end Sys2Proof.Machine
end

