-- ==== Sys2Proof/Tests/Slice0.lean ====
section
/-!
SUPPORT. The model's own tests: words of the spec and what they decode to, ill-formed terms that each check refuses, single steps
whose results the spec's text gives, and a concrete state and operands for the hypotheses of every statement.
-/

namespace Sys2Proof.Tests

open Sys2Proof Sys2Proof.Machine

set_option Elab.async false
set_option synthInstance.maxSize 1000

/-! ## Decoding: a word for every instruction, composed from the encoding tables of the spec -/

def slotIs (sl : Slot) (l : List (W32 × Instr)) : Bool := l.all (fun p => decodeOk sl p.1 == some p.2)

noncomputable def decodedIs (l : List (W32 × Instr)) : Bool :=
  l.all (fun p => match decodeWord p.1 with | .ok i => i == p.2 | .error _ => false)

theorem test_decode_sequencerOperations : slotIs .ctl [
    (0x00000000, .ctlNop), (0x04000000, .ctlHalt), (0x080005A3, .ctlBr 0x5A3),
    (0x0E0005A3, .ctlBany 2 0x5A3), (0x120005A3, .ctlBall 2 0x5A3), (0x160005A3, .ctlBnone 2 0x5A3),
    (0x1A0005A3, .ctlBnall 2 0x5A3), (0x1F0ABCDE, .ctlLset 3 0xABCDE), (0x23000005, .ctlLsetk 3 5),
    (0x270000F7, .ctlLsetv 3 0xF7), (0x2B0005A3, .ctlLbnz 3 0x5A3), (0x2C0055A3, .ctlBkz 5 0x5A3),
    (0x300055A3, .ctlBknz 5 0x5A3), (0x34000921, .ctlKret 9 0x21), (0x3A000000, .ctlKretp 2),
    (0x3C000123, .ctlIdle 0x123)] = true := by decide +kernel

theorem test_decode_checkOperations : slotIs .hk [
    (0x400131F2, .hkChkeq 0x400 0x31 0xF2), (0x40023100, .hkChkz 0x400 0x31), (0x40032B00, .hkChkovf 0x400 0x2B),
    (0x40040200, .hkChkall 0x400 2)] = true := by decide +kernel

theorem test_decode_integerOperations1 : slotIs .i [
    (0x068731F2, .iAdd 2 0x87 0x31 0xF2), (0x0A8731F2, .iSub 2 0x87 0x31 0xF2), (0x0E8731F2, .iMul 2 0x87 0x31 0xF2),
    (0x128731F2, .iMulhs 2 0x87 0x31 0xF2), (0x168731F2, .iMulhz 2 0x87 0x31 0xF2), (0x1A8731F2, .iAnd 2 0x87 0x31 0xF2),
    (0x1E8731F2, .iOr 2 0x87 0x31 0xF2), (0x228731F2, .iXor 2 0x87 0x31 0xF2), (0x268731F2, .iAndn 2 0x87 0x31 0xF2),
    (0x2A8731F2, .iShl 2 0x87 0x31 0xF2), (0x2E8731F2, .iShrz 2 0x87 0x31 0xF2), (0x328731F2, .iShrs 2 0x87 0x31 0xF2),
    (0x368731F2, .iRotl 2 0x87 0x31 0xF2), (0x3A8731F2, .iMins 2 0x87 0x31 0xF2), (0x3E8731F2, .iMaxs 2 0x87 0x31 0xF2),
    (0x428731F2, .iMinz 2 0x87 0x31 0xF2), (0x468731F2, .iMaxz 2 0x87 0x31 0xF2), (0x4A873100, .iAbs 2 0x87 0x31),
    (0x4E8731F2, .iAddss 2 0x87 0x31 0xF2), (0x528731F2, .iAddsz 2 0x87 0x31 0xF2), (0x568731F2, .iSubss 2 0x87 0x31 0xF2),
    (0x5A8731F2, .iSubsz 2 0x87 0x31 0xF2)] = true := by decide +kernel

theorem test_decode_integerOperations2 : slotIs .i [
    (0x5E8731F2, .iAbsds 2 0x87 0x31 0xF2), (0x628731F2, .iAbsdz 2 0x87 0x31 0xF2), (0x668731F2, .iAvgs 2 0x87 0x31 0xF2),
    (0x6A8731F2, .iAvgz 2 0x87 0x31 0xF2), (0x6E8731F2, .iAddx2 2 0x87 0x31 0xF2), (0x728731F2, .iAddx4 2 0x87 0x31 0xF2),
    (0x768731F2, .iAddx8 2 0x87 0x31 0xF2), (0x7A8731F2, .iHadd 2 0x87 0x31 0xF2), (0x7E8731F2, .iHsub 2 0x87 0x31 0xF2),
    (0x828731F2, .iHaddss 2 0x87 0x31 0xF2), (0x868731F2, .iHaddsz 2 0x87 0x31 0xF2), (0x8A8731F2, .iHsubss 2 0x87 0x31 0xF2),
    (0x8E8731F2, .iHsubsz 2 0x87 0x31 0xF2), (0x928731F2, .iHmul 2 0x87 0x31 0xF2), (0x968731F2, .iHmins 2 0x87 0x31 0xF2),
    (0x9A8731F2, .iHmaxs 2 0x87 0x31 0xF2), (0x9E8731F2, .iHminz 2 0x87 0x31 0xF2), (0xA28731F2, .iHmaxz 2 0x87 0x31 0xF2),
    (0xA68731F2, .iHabsds 2 0x87 0x31 0xF2), (0xAA8731F2, .iHabsdz 2 0x87 0x31 0xF2), (0xAE8731F2, .iHavgs 2 0x87 0x31 0xF2),
    (0xB28731F2, .iHavgz 2 0x87 0x31 0xF2)] = true := by decide +kernel

theorem test_decode_integerOperations3 : slotIs .i [
    (0xB68731F2, .iFext 2 0x87 0x31 0xF2), (0xBA8731F2, .iFexts 2 0x87 0x31 0xF2), (0xBE0331F2, .iCeq 2 3 0x31 0xF2),
    (0xC20331F2, .iCne 2 3 0x31 0xF2), (0xC60331F2, .iClts 2 3 0x31 0xF2), (0xCA0331F2, .iCltz 2 3 0x31 0xF2),
    (0xCE0331F2, .iCles 2 3 0x31 0xF2), (0xD20331F2, .iClez 2 3 0x31 0xF2), (0xD6030102, .iPand 2 3 1 2),
    (0xDA030102, .iPor 2 3 1 2), (0xDE030102, .iPxor 2 3 1 2), (0xE28731F2, .iSel 2 0x87 0x31 0xF2),
    (0xE6873100, .iPcnt 2 0x87 0x31), (0xEA873100, .iClz 2 0x87 0x31), (0xEE870300, .iPget 2 0x87 3),
    (0xF2873100, .iMov 2 0x87 0x31)] = true := by decide +kernel

theorem test_decode_floatOperations1 : slotIs .f [
    (0x068731F2, .fFadd 2 0x87 0x31 0xF2), (0x0A8731F2, .fFsub 2 0x87 0x31 0xF2), (0x0E8731F2, .fFmul 2 0x87 0x31 0xF2),
    (0x128731F2, .fFma 2 0x87 0x31 0xF2), (0x168731F2, .fFnma 2 0x87 0x31 0xF2), (0x1A8731F2, .fFmin 2 0x87 0x31 0xF2),
    (0x1E8731F2, .fFmax 2 0x87 0x31 0xF2), (0x22873100, .fFabs 2 0x87 0x31), (0x26873100, .fFneg 2 0x87 0x31),
    (0x2A8731F2, .fFcpsgn 2 0x87 0x31 0xF2), (0x2E0331F2, .fFceq 2 3 0x31 0xF2), (0x320331F2, .fFclt 2 3 0x31 0xF2),
    (0x360331F2, .fFcle 2 3 0x31 0xF2), (0x3A0331F2, .fFcun 2 3 0x31 0xF2), (0x3E873100, .fFrcp 2 0x87 0x31),
    (0x42873100, .fFrsq 2 0x87 0x31), (0x46873100, .fFexp2 2 0x87 0x31), (0x4A873100, .fFlog2 2 0x87 0x31),
    (0x4E8731F2, .fBadd 2 0x87 0x31 0xF2), (0x528731F2, .fBsub 2 0x87 0x31 0xF2), (0x568731F2, .fBmul 2 0x87 0x31 0xF2),
    (0x5A8731F2, .fBfma 2 0x87 0x31 0xF2)] = true := by decide +kernel

theorem test_decode_floatOperations2 : slotIs .f [
    (0x5E8731F2, .fBmin 2 0x87 0x31 0xF2), (0x628731F2, .fBmax 2 0x87 0x31 0xF2), (0x668731F2, .fFdot2 2 0x87 0x31 0xF2),
    (0x6A8731F2, .fFclamp 2 0x87 0x31 0xF2), (0x6E873100, .fFsat 2 0x87 0x31), (0x72873100, .fFrnd 2 0x87 0x31),
    (0x768731F2, .fFscl 2 0x87 0x31 0xF2), (0x7A873100, .fCvtsf 2 0x87 0x31), (0x7E873100, .fCvtzf 2 0x87 0x31),
    (0x82873100, .fCvtfs 2 0x87 0x31), (0x86873100, .fCvtfz 2 0x87 0x31), (0x8A8731F2, .fCvtfb 2 0x87 0x31 0xF2),
    (0x8E873100, .fCvtbfl 2 0x87 0x31), (0x92873100, .fCvtbfh 2 0x87 0x31), (0x96873100, .fCvtlsf 2 0x87 0x31),
    (0x9A873100, .fCvthsf 2 0x87 0x31), (0x9E873100, .fCvtlzf 2 0x87 0x31), (0xA2873100, .fCvthzf 2 0x87 0x31)] = true := by decide +kernel

theorem test_decode_tileOperations : slotIs .tm [
    (0x040B0000, .tmTldw 0xB), (0x080B0000, .tmTldwt 0xB), (0x0C2D0BF6, .tmTmma 0x2D 0xB 0xF6),
    (0x102D0BF6, .tmTmmz 0x2D 0xB 0xF6), (0x142D0BF6, .tmTmmn 0x2D 0xB 0xF6), (0x180B0000, .tmTldx 0xB),
    (0x1C000000, .tmTdrn), (0x20000000, .tmTwclr), (0x26870000, .tmTstat 2 0x87),
    (0x282D0B00, .tmTscl 0x2D 0xB), (0x2C2D0B00, .tmTbias 0x2D 0xB), (0x302D31F6, .tmTamw 0x2D 0x31 0xF6),
    (0x342D1300, .tmTcvt 0x2D 0x13), (0x382D0BF6, .tmTmmh 0x2D 0xB 0xF6)] = true := by decide +kernel

theorem test_decode_partsOperations : slotIs .pt [
    (0x040B0000, .ptPld4 0xB), (0x080B0000, .ptPld8 0xB), (0x0C0B0000, .ptPlds 0xB),
    (0x102D0BF6, .ptPpass 0x2D 0xB 0xF6), (0x142D0BF6, .ptPpassz 0x2D 0xB 0xF6), (0x182D0BF6, .ptPpassn 0x2D 0xB 0xF6),
    (0x1C2D130B, .ptPcvt 0x2D 0x13 0xB), (0x202D0000, .ptPclro 0x2D), (0x26870000, .ptPstat 2 0x87),
    (0x28000000, .ptPtclr), (0x2C000000, .ptPdrn), (0x32873100, .ptPscan 2 0x87 0x31)] = true := by decide +kernel

theorem test_decode_streamOperations : slotIs .s [
    (0x068706F5, .sSpop 2 0x87 6 0xF5), (0x0A870600, .sSpopc 2 0x87 6), (0x0C000631, .sSpush 6 0x31),
    (0x12000631, .sSpushc 2 6 0x31), (0x140006F5, .sSwaitf 6 0xF5), (0x180006F5, .sSwaite 6 0xF5),
    (0x1C0006F5, .sSadvr 6 0xF5), (0x200006F5, .sSadvw 6 0xF5), (0x240B06F3, .sTfill 0xB 6 0xF3),
    (0x280B0600, .sTfillx 0xB 6), (0x2C000600, .sScnt 6), (0x30000600, .sSflush 6),
    (0x36870600, .sSptrr 2 0x87 6), (0x3A870600, .sSptrw 2 0x87 6), (0x3E870600, .sSavail 2 0x87 6),
    (0x42870600, .sSspace 2 0x87 6)] = true := by decide +kernel

theorem test_decode_switchOperations : slotIs .xs [
    (0x068731C0, .xsXperm 2 0x87 0x31 0xC0), (0x0A8731C0, .xsXpermc 2 0x87 0x31 0xC0), (0x0E8731F4, .xsXbc 2 0x87 0x31 0xF4),
    (0x128731F4, .xsXbcc 2 0x87 0x31 0xF4), (0x168731F4, .xsXrot 2 0x87 0x31 0xF4), (0x1A8731F4, .xsXrotc 2 0x87 0x31 0xF4),
    (0x1E873100, .xsXcmp 2 0x87 0x31), (0x22873100, .xsXcmpc 2 0x87 0x31), (0x26873100, .xsXexp 2 0x87 0x31),
    (0x2A870000, .xsXcnt 2 0x87)] = true := by decide +kernel

theorem test_decode_bankOperations : slotIs .am [
    (0x042D0000, .amAalloc 0x2D), (0x082D0000, .amAallocp 0x2D), (0x0C2D0000, .amAfree 0x2D),
    (0x100B0000, .amMclaim 0xB), (0x140B0000, .amMrel 0xB), (0x1A872DF6, .amArd 2 0x87 0x2D 0xF6),
    (0x1E872DF6, .amArdh 2 0x87 0x2D 0xF6), (0x202D0000, .amAclr 0x2D)] = true := by decide +kernel

theorem test_decode_integers1 : decodedIs [
    (0x01A99600, .add 0x15 6 0xB), (0x02A99600, .sub 0x15 6 0xB), (0x03A99600, .mul 0x15 6 0xB),
    (0x04A99600, .mulhs 0x15 6 0xB), (0x05A99600, .mulhz 0x15 6 0xB), (0x06A99600, .divs 0x15 6 0xB),
    (0x07A99600, .divz 0x15 6 0xB), (0x08A99600, .rems 0x15 6 0xB), (0x09A99600, .remz 0x15 6 0xB),
    (0x0AA99600, .and 0x15 6 0xB), (0x0BA99600, .or 0x15 6 0xB), (0x0CA99600, .xor 0x15 6 0xB),
    (0x0DA99600, .andn 0x15 6 0xB), (0x0EA99600, .shl 0x15 6 0xB), (0x0FA99600, .shrz 0x15 6 0xB),
    (0x10A99600, .shrs 0x15 6 0xB), (0x11A99600, .slts 0x15 6 0xB), (0x12A99600, .sltz 0x15 6 0xB),
    (0x13A98000, .popc 0x15 6), (0x14A9AF53, .addi 0x15 6 0x2F53), (0x15A9AF53, .andi 0x15 6 0x2F53),
    (0x16A9AF53, .ori 0x15 6 0x2F53)] = true := by decide +kernel

theorem test_decode_integers2 : decodedIs [
    (0x17A9AF53, .xori 0x15 6 0x2F53), (0x18A9AF53, .shli 0x15 6 0x2F53), (0x19A9AF53, .shrzi 0x15 6 0x2F53),
    (0x1AA9AF53, .shrsi 0x15 6 0x2F53), (0x1BA9AF53, .sltsi 0x15 6 0x2F53), (0x1CA9AF53, .sltzi 0x15 6 0x2F53),
    (0x1DAEBCDE, .ldi 0x15 0x6BCDE), (0x1EAEBCDE, .lsi 0x15 0x6BCDE)] = true := by decide +kernel

theorem test_decode_branchesAndMemory1 : decodedIs [
    (0x2032FA71, .beq 6 0xB 0x3A71), (0x2132FA71, .bne 6 0xB 0x3A71), (0x2232FA71, .blts 6 0xB 0x3A71),
    (0x2332FA71, .bges 6 0xB 0x3A71), (0x2432FA71, .bltz 6 0xB 0x3A71), (0x2532FA71, .bgez 6 0xB 0x3A71),
    (0x26D2C3B4, .j 0xD2C3B4), (0x27D2C3B4, .jal 0xD2C3B4), (0x28018000, .jr 6),
    (0x29A98000, .jalr 0x15 6), (0x30A9AF53, .lb 0x15 6 0x2F53), (0x31A9AF53, .lbz 0x15 6 0x2F53),
    (0x32A9AF53, .lh 0x15 6 0x2F53), (0x33A9AF53, .lhz 0x15 6 0x2F53), (0x34A9AF53, .lw 0x15 6 0x2F53),
    (0x35A9AF53, .lwz 0x15 6 0x2F53), (0x36A9AF53, .ld 0x15 6 0x2F53), (0x37A99600, .ldx 0x15 6 0xB),
    (0x38A9AF53, .sb 0x15 6 0x2F53), (0x39A9AF53, .sh 0x15 6 0x2F53), (0x3AA9AF53, .sw 0x15 6 0x2F53),
    (0x3BA9AF53, .sd 0x15 6 0x2F53)] = true := by decide +kernel

theorem test_decode_branchesAndMemory2 : decodedIs [
    (0x3CA9AF53, .ldAcq 0x15 6 0x2F53), (0x3DA9AF53, .stRel 0x15 6 0x2F53), (0x3EA98005, .ldm 0x15 6 5),
    (0x3FA98005, .stm 0x15 6 5)] = true := by decide +kernel

theorem test_decode_systemInstructions : decodedIs [
    (0x40000000, .nop), (0x41A80012, .mfs 0x15 0x12), (0x42018012, .mts 6 0x12),
    (0x43000000, .fenceSc), (0x43000001, .fenceDie), (0x43000002, .fencePkg),
    (0x43000003, .fenceSys), (0x44001357, .trap 0x1357), (0x45000000, .tret),
    (0x46001357, .brk 0x1357), (0x47000000, .pause), (0x4801AF53, .dcfl 6 0x2F53),
    (0x4901AF53, .dcinv 6 0x2F53), (0x4A01AF53, .dcz 6 0x2F53), (0x4B000000, .idle),
    (0x4C01800D, .csave 6 0xD), (0x4D01800D, .cload 6 0xD), (0x4E00000D, .ctxkill 0xD),
    (0x4F01800D, .ctxsig 6 0xD)] = true := by decide +kernel

theorem test_decode_streamInstructions1 : decodedIs [
    (0x503482C1, .salloc 6 9 0xB 1), (0x51048000, .sfree 9), (0x5234A801, .sload 6 9 5 1),
    (0x5334A801, .sstore 6 9 5 1), (0x5434AAC0, .sgather 6 9 5 0xB), (0x5534AAC0, .sscatter 6 9 5 0xB),
    (0x56048000, .sreset 9), (0x57348001, .sptr 6 9 1), (0x583482C0, .srd 6 9 0xB),
    (0x593482C0, .swr 6 9 0xB), (0x5A3482C1, .sfill 6 9 0xB 1), (0x5B04A800, .smovh 9 5),
    (0x5C348000, .sinfo 6 9), (0x5D3002C0, .kload 6 0xB), (0x5E300000, .kfree 6),
    (0x5F3002C0, .kinfo 6 0xB), (0x603002EB, .krun 6 0xB 0x15 1), (0x613002EA, .krq 6 0xB 0x15),
    (0x62348000, .scount 6 9), (0x6304801D, .swait 9 1 1 5), (0x64000000, .swaita),
    (0x6534801D, .stest 6 9 1 1 5)] = true := by decide +kernel

theorem test_decode_streamInstructions2 : decodedIs [
    (0x66000005, .sbar 5), (0x67000000, .rfence)] = true := by decide +kernel

theorem test_decode_taskInstructions : decodedIs [
    (0x70A99600, .fspawn 0x15 6 0xB), (0x71A99607, .fspawnh 0x15 6 0xB 7), (0x72018000, .fref 6),
    (0x73018000, .fdrop 6), (0x74A98000, .fget 0x15 6), (0x75A98000, .fgetd 0x15 6),
    (0x76A98000, .fpoll 0x15 6), (0x77018000, .fret 6), (0x78018000, .fretf 6),
    (0x79000000, .fyield), (0x7A001357, .fsig 0x1357), (0x7BA99600, .balloc 0x15 6 0xB),
    (0x7C018000, .bfree 6), (0x7D018000, .barr 6), (0x7E018000, .barrd 6),
    (0x7F018000, .bwait 6), (0x80A98000, .bpoll 0x15 6), (0x81019600, .waitge 6 0xB),
    (0x82A98000, .glaunch 0x15 6), (0x83018000, .gfree 6)] = true := by decide +kernel

theorem test_decode_copyInstructions : decodedIs [
    (0x9004A803, .scopy 0 9 5 0 1 1), (0x910482E9, .sacc 0 9 0xB 5 1), (0x9204AAE9, .scas 0 9 5 0xB 5 0 1),
    (0x9334AAE8, .sscadd 6 9 5 0xB 5), (0x943002C0, .squant 6 0xB), (0x953002C0, .sdqnt 6 0xB),
    (0x964C82C1, .sdecomp 9 9 0xB 1), (0x974802C0, .sread 9 0xB), (0x984C8000, .sreads 9 9),
    (0x990482E1, .rput 0 9 0xB 1 1), (0x9A0482FB, .rputh 0 9 0xB 1 0xD 1), (0x9B002AC2, .rget 0 5 0xB 1),
    (0x9C0482EB, .racc 0 9 0xB 5 1 1), (0x9D3002DB, .rsig 6 0xB 0xD 1)] = true := by decide +kernel

theorem test_decode_pageInstructions : decodedIs [
    (0xA0018000, .tlbinv 6), (0xA1000000, .tlbinva), (0xA2A98000, .xlat 0x15 6),
    (0xA301AA02, .rngset 6 0x2A 2), (0xA4A82A06, .rngget 0x15 0x2A 1 2), (0xA5000000, .rngcommit),
    (0xA6018000, .psplit 6), (0xA7019600, .pown 6 0xB), (0xA8019600, .pdup 6 0xB),
    (0xA9A98000, .pstat 0x15 6)] = true := by decide +kernel

/-- One word of each family bit by bit: R43, R49 (V3, V2, PC), R51, R124, R137, R155, R161, R131, R112, R54 (RR, RI, LI, BR, JJ, SY), R210. -/
theorem test_words_bit_by_bit :
    decodeOk .ctl 0b00001110000000000000000000000101 = some (.ctlBany 2 5)
    ∧ decodeOk .i 0b00000101000000110000000100000010 = some (.iAdd 1 3 1 2)
    ∧ decodeOk .i 0b11110000000011100000000100000000 = some (.iMov 0 14 1)
    ∧ decodeOk .f 0b00101100000000010000001000000011 = some (.fFceq 0 1 2 3)
    ∧ decodeOk .tm 0b00001100000000110000000111010000 = some (.tmTmma 3 1 0xD0)
    ∧ decodeOk .pt 0b00001000000001000000000000000000 = some (.ptPld8 4)
    ∧ decodeOk .s 0b00001100000000000000001000000101 = some (.sSpush 2 5)
    ∧ decodeOk .xs 0b00000100000001010000011011000000 = some (.xsXperm 0 5 6 0xC0)
    ∧ decodeOk .am 0b00000100001111110000000000000000 = some (.amAalloc 63)
    ∧ decodeOk .hk 0b00000000000000010000001111110000 = some (.hkChkeq 0 3 0xF0)
    ∧ decodedIs [(0b00000001000110000100010000000000, .add 3 1 2), (0b00010100000010001011111111111111, .addi 1 2 0x3FFF),
        (0b00011101000011000000000000000000, .ldi 1 0x40000), (0b00100000000010001000000000000010, .beq 1 2 2),
        (0b00100110111111111111111111111111, .j 0xFFFFFF), (0b01000100000000000000000000000101, .trap 5),
        (0b01010010001010010000000000000000, .sload 5 2 0 0), (0b01110000000110000100010000000000, .fspawn 3 1 2),
        (0b10010010001000000000000101010110, .scas 4 0 0 5 2 3 0), (0b10100010000110100100000000000000, .xlat 3 9)] = true := by
  decide +kernel

/-- Words that are no instruction: an op without a row, a non-zero unused field (R54), a register group past g31 (R201, R210), an odd
register of a pair (R227), a special or reserved operand code (R41), p0 as a destination (R41), idle of 0 (R43). -/
theorem test_undefined_words :
    ([0x00000000, 0x1F000000, 0xB0000000, 0x01000001, 0x40000001, 0x45080000, 0x3EF80007, 0x97F80000, 0x92080000].all
      (fun w => match decodeWord w with | .ok _ => false | .error _ => true)) = true
    ∧ decodeOk .i 0x04C00102 = none ∧ decodeOk .i 0x0400CE00 = none ∧ decodeOk .i 0xBC000102 = none
    ∧ decodeOk .ctl 0x3C000000 = none ∧ decodeOk .ctl 0x40000000 = none ∧ decodeOk .tm 0x04100000 = none
    ∧ decodeOk .am 0x04400000 = none ∧ decodeOk .s 0x0C000800 = none ∧ decodeOk .f 0xA4000000 = none := by
  decide +kernel

/-! ## Well-formedness: a term that each check refuses -/

theorem test_ill_formed_operations :
    ([.iAdd 0 192 0 0, .iAdd 0 0 206 0, .iAdd 0 0 0 210, .iCeq 0 0 1 2, .iCeq 0 4 1 2, .iPand 0 1 4 0, .iPand 0 1 0 4, .iPget 0 3 4,
      .ctlLsetv 0 3, .ctlKret 0 207, .ctlIdle 0, .hkChkz 0 223, .hkChkovf 0 64, .hkChkall 0 4, .tmTldw 16, .tmTmma 64 0 195,
      .tmTmma 0 16 195, .tmTmma 0 0 0, .tmTamw 0 210 195, .tmTcvt 0 64, .ptPcvt 0 0 16, .ptPstat 0 192, .sSpop 0 0 8 195,
      .sSpush 0 211, .sTfill 0 0 240, .sTfill 0 0 251, .sSadvr 0 193, .xsXperm 0 0 0 206, .xsXbc 0 0 0 5, .amAalloc 64, .amMclaim 16,
      .amArd 0 0 64 195] : List Instr).all (fun i => !wellFormed i) = true := by
  decide +kernel

theorem test_ill_formed_instructions :
    ([.csave 0 20, .cload 0 31, .ctxkill 20, .ctxsig 0 21, .ldm 25 0 7, .stm 31 0 1, .sload 0 0 1 0, .sstore 0 0 1 0, .swait 1 0 0 0,
      .stest 0 1 0 0 0, .scopy 0 1 0 0 1 0, .scopy 0 0 1 0 0 1, .scopy 1 0 0 0 0 1, .scopy 0 0 0 1 1 0, .sacc 0 1 0 0 0, .sacc 1 0 0 0 1,
      .scas 0 1 0 0 0 0 0, .scas 0 0 1 0 0 0 0, .scas 2 0 0 0 0 0 1, .scas 0 0 0 0 0 1 1, .scas 1 0 0 0 0 0 0, .sdecomp 31 0 0 0,
      .sread 29 0, .sreads 30 0, .rput 0 1 0 0 0, .rput 1 0 0 0 1, .rput 0 0 30 0 0, .rputh 0 0 28 0 0 0, .rget 1 0 0 1, .rget 0 1 0 0,
      .racc 0 0 30 0 0 0, .rsig 0 0 1 0, .rsig 0 30 0 1] : List Instr).all (fun i => !wellFormed i) = true := by
  decide +kernel

/-! ## Small states -/

/-- The state an answer goes on in. -/
def after : Result → State
  | .next t => t
  | _ => {}

/-- A run of SC 0 with 64 lanes: v1 holds 5, v2 holds 0xFFFFFFFF, v3 holds 1.5, and p1 the even lanes. -/
def aRun : Run :=
  { phase := .running, owner := .ctx 18, placed := true, g := 4, tomN := 16, amMax := 63,
    regs := [(1, List.replicate 64 5), (2, List.replicate 64 0xFFFFFFFF), (3, List.replicate 64 0x3FC00000)],
    preds := [(1, (List.range 64).map (fun k => k % 2 == 0))] }

def inRun (r : Run) : State := { scs := [(0, { runs := [(0, r)] })] }

/-- A page of 1 GiB that allows everything. -/
def page (va pa : Nat) (uc : Bool) : Xlat := { va := va, size := 2, pa := pa, uc := uc, x := true, w := true, r := true }

/-- Memory at 0, the same memory uncached at 1 GiB, and register space at 2 GiB. -/
def pages : List (Nat × Xlat) := [(0, page 0 0 false), (0, page (2 ^ 30) 0 true), (0, page (2 ^ 31) (2 ^ 40) true)]

/-- SC 0 with a page table written and those translations in its TLB. -/
def aSc (cs : Tab Ctx) : Sc := { ctxs := cs, ptbSet := true, tlb := pages }

/-- A READY context at 0x100 with some registers. -/
def aCtx (g : Tab Word) : Ctx := { st := .ready, pc := 0x100, g := g }

/-- Context c of SC 0 about to issue. -/
def inCtx (c : Nat) (x : Ctx) : State := { scs := [(0, aSc [(c, x)])], ports := bootPorts, cur := { ctx := c } }

/-- Its cluster changed. -/
def withSc (s : State) (f : Sc → Sc) : State := s.modSc 0 f

/-! ## One step of a kernel operation: results the spec's own tables give (R105, R106, R110, R114) -/

/-- The lane 0 of the result in flight. -/
def lane0 (r : Result) : Option W32 :=
  match (after r).myRun.pend with
  | [p] => match p.eff with
    | .reg _ v _ => v.head?
    | _ => none
  | _ => none

def binary (i : Instr) (a b : W32) : Option W32 := lane0 (exec i (inRun { aRun with regs := [(1, List.replicate 64 a), (2, List.replicate 64 b)] }))

theorem test_boundary_values :
    binary (.iAddss 0 0 1 2) 0x7FFFFFFF 1 = some 0x7FFFFFFF ∧ binary (.iAddsz 0 0 1 2) 0xFFFFFFFF 1 = some 0xFFFFFFFF
    ∧ binary (.iSubsz 0 0 1 2) 0 1 = some 0 ∧ binary (.iAbs 0 0 1) 0x80000000 0 = some 0x7FFFFFFF
    ∧ binary (.iAbsds 0 0 1 2) 0x7FFFFFFF 0x80000000 = some 0xFFFFFFFF ∧ binary (.iMulhs 0 0 1 2) 0x80000000 0x80000000 = some 0x40000000
    ∧ binary (.iMulhz 0 0 1 2) 0xFFFFFFFF 0xFFFFFFFF = some 0xFFFFFFFE ∧ binary (.iAvgs 0 0 1 2) 0xFFFFFFFE 0xFFFFFFFF = some 0xFFFFFFFF
    ∧ binary (.iAvgz 0 0 1 2) 0xFFFFFFFF 0xFFFFFFFF = some 0xFFFFFFFF ∧ binary (.iShrs 0 0 1 2) 0x80000000 40 = some 0xFFFFFFFF
    ∧ binary (.iRotl 0 0 1 2) 0x80000001 33 = some 3 ∧ binary (.iHaddss 0 0 1 2) 0x7FFF0001 0x0001FFFF = some 0x7FFF0000
    ∧ binary (.iHsubsz 0 0 1 2) 0x00030005 0x00040002 = some 3 ∧ binary (.iHabsds 0 0 1 2) 0x80007FFF 0x7FFF8000 = some 0xFFFFFFFF
    ∧ binary (.iHavgz 0 0 1 2) 0xFFFF0001 0xFFFF0002 = some 0xFFFF0002 ∧ binary (.iShl 0 0 1 2) 5 0xFFFFFFFF = some 0 := by
  decide +kernel

/-- R111's worked example: pixel 2 and pixel 5 of a px12 container. -/
theorem test_funnel : lane0 (exec (.iFext 0 1 2 3) (inRun { aRun with
      regs := [(1, List.replicate 64 0x55044033), (2, List.replicate 64 0x02201100), (3, List.replicate 64 0x0B18)] })) = some 0x302
    ∧ lane0 (exec (.iFext 0 1 2 3) (inRun { aRun with
      regs := [(1, List.replicate 64 0x80770660), (2, List.replicate 64 0x55044033), (3, List.replicate 64 0x0B1C)] })) = some 0x605 := by
  decide +kernel

/-- FP32 by hand: 1.5 + 1.5 = 3, 1.5 * 1.5 = 2.25, 1 / 4 = 0.25, 2^3 = 8, and the canonical NaN of inf - inf. -/
theorem test_floats :
    binary (.fFadd 0 0 1 2) 0x3FC00000 0x3FC00000 = some 0x40400000 ∧ binary (.fFmul 0 0 1 2) 0x3FC00000 0x3FC00000 = some 0x40100000
    ∧ binary (.fFrcp 0 0 1) 0x40800000 0 = some 0x3E800000 ∧ binary (.fFexp2 0 0 1) 0x40400000 0 = some 0x41000000
    ∧ binary (.fFsub 0 0 1 2) 0x7F800000 0x7F800000 = some 0x7FC00000 ∧ binary (.fCvtsf 0 0 1) 0xFFFFFFFE 0 = some 0xC0000000 := by
  decide +kernel

/-- A predicated result lands in its lanes alone (R15), after its latency (R17). -/
theorem test_landing :
    ((after (exec (.iAdd 1 3 1 1) (inRun aRun))).myRun.endBundle.endCycle.landAll.reg 3).take 2 = [10, 0x3FC00000] := by decide +kernel

/-! ## One step of the control core -/

def gOf (r : Result) (d : Nat) : Word := (after r).me.reg d

theorem test_integers :
    gOf (exec (.divs 1 2 3) (inCtx 0 (aCtx [(2, 7), (3, 0)]))) 1 = BitVec.allOnes 64
    ∧ gOf (exec (.divs 1 2 3) (inCtx 0 (aCtx [(2, 0x8000000000000000), (3, BitVec.allOnes 64)]))) 1 = 0x8000000000000000
    ∧ gOf (exec (.rems 1 2 3) (inCtx 0 (aCtx [(2, BitVec.ofInt 64 (-7)), (3, 2)]))) 1 = BitVec.allOnes 64
    ∧ gOf (exec (.sltzi 1 2 0x3FFE) (inCtx 0 (aCtx [(2, 5)]))) 1 = 1 ∧ gOf (exec (.shli 1 2 0x3FFF) (inCtx 0 (aCtx [(2, 5)]))) 1 = 0
    ∧ gOf (exec (.lsi 1 0x7FFFF) (inCtx 0 (aCtx [(1, 1)]))) 1 = 0xFFFFF ∧ gOf (exec (.add 0 2 2) (inCtx 0 (aCtx [(2, 5)]))) 0 = 0 := by
  decide +kernel

/-- JALR reads ga before it writes the link (R198); a load sees the store before it, little-endian (R4, R199). -/
theorem test_jump_and_memory :
    (let t := after (exec (.jalr 5 5) (inCtx 0 (aCtx [(5, 0x400)]))); (t.me.pc, t.me.reg 5)) = (0x400, 0x104)
    ∧ (let t := after (exec (.sw 2 1 8) (inCtx 0 (aCtx [(1, 0x1000), (2, 0x80FF0201)])))
       (gOf (exec (.lb 3 1 10) t) 3, gOf (exec (.lhz 3 1 10) t) 3, gOf (exec (.lw 3 1 8) t) 3))
      = (BitVec.allOnes 64, 0x80FF, 0xFFFFFFFF80FF0201) := by
  decide +kernel

/-- TRAP records SOFT, its number and the next instruction, and queues the context (R205, R209). -/
theorem test_trap :
    (let t := after (exec (.trap 5) (inCtx 3 (aCtx []))); (t.me.st, t.me.tcause, t.me.tval, t.me.tpc, t.mySc.trapQ))
      = (.trapped, 8, 5, 0x104, [3]) := by decide +kernel

/-! ## Hypotheses: a state and operands that meet those of every statement -/

/-- The rows that the lane laws speak of have all 64 lanes, as have a predicate and a result. -/
theorem witness_lanes :
    let s := inRun aRun
    ((s.inA .int 1)[63]? = some 5 ∧ (s.inB .int 2)[63]? = some 0xFFFFFFFF ∧ (s.inA .half 0xF1)[0]? = some 0x00010001)
    ∧ ((s.mask 1)[62]? = some true ∧ (s.mask 1)[63]? = some false ∧ (s.mask 0)[63]? = some true)
    ∧ (s.myRun.reg 1)[63]? = some 5 ∧ (s.myRun.predicate 1)[63]? = some false := by
  decide +kernel

theorem witness_SequencerOperations :
    (let r := (inRun aRun).myRun; r.banks = [] ∧ r.slots = [] ∧ r.rqRoom = true)
    ∧ (inRun { aRun with banks := [(63, {})] }).myRun.banks ≠ [] ∧ (inRun { aRun with slots := [(0, {})] }).myRun.slots ≠ []
    ∧ (inRun { aRun with rq := [(3, List.replicate 7 0)] }).myRun.rqRoom = true
    ∧ (inRun { aRun with rq := [(3, List.replicate 8 0)] }).myRun.rqRoom = false
    ∧ (inRun { aRun with lc := [(0, 2)] }).myRun.lc = [(0, 2)] := by
  decide +kernel

theorem witness_ChecksBanksAndSlots :
    (inRun aRun).myRun.tomN = 16 ∧ tget (inRun aRun).myRun.slots 15 = none ∧ ((15 : BitVec 8).toNat < 16) ∧ (16 : BitVec 8).toNat ≤ 16 + 0
    ∧ tget (inRun { aRun with slots := [(15, {})] }).myRun.slots 15 ≠ none := by
  decide +kernel

/-- A slot with the tag of a parts form whose records are all zero, which R95 does not allow: an index stands twice. -/
theorem witness_WeightsAndPasses :
    let r := (inRun { aRun with slots := [(0, { tag := 7 })] }).myRun
    ((inRun aRun).myRun.tldx = 0 ∧ (inRun { aRun with tldx := 1 }).myRun.tldx ≠ 0)
    ∧ ((inRun aRun).myRun.slotTag 0 ≠ 7 ∧ r.slotTag 0 = 7 ∧ badRecordCores { fmt := 7, area := r.slotArea 0 (partsSlots 7) } r.g ≠ [])
    ∧ (inRun { aRun with passes := List.replicate 3 {} }).myRun.passes.length < 4
    ∧ 4 ≤ (inRun { aRun with passes := List.replicate 4 {} }).myRun.passes.length := by
  decide +kernel

theorem witness_BankReadsAndArithmetic :
    tget (inRun { aRun with banks := [(63, {})] }).myRun.banks 63 = some {} ∧ ({} : Bank).part = false
    ∧ tget (inRun { aRun with banks := [(63, { part := true })] }).myRun.banks 63 = some { part := true }
    ∧ tget (inRun aRun).myRun.banks 63 = none
    ∧ ((inRun aRun).myRun.source .int 1).length = (inRun aRun).myRun.lanes
    ∧ ((inRun { aRun with banks := [(63, {})] }).myRun.fpRow 63 31)[63]? = some 0 := by
  decide +kernel

/-- A run with stream 0, of 4 positions, at port 0. -/
def onPort (st : Stream) (q : Port) : State :=
  { scs := [(0, { runs := [(0, { aRun with ports := [(0, q)] })], streams := [(0, st)] })] }

theorem witness_StreamPortOperations :
    let a := onPort { units := 4, wp := 1 } { dir := .inp, occ := 1 }
    let b := onPort { units := 4 } { dir := .out, occ := 1 }
    let full := onPort { units := 4, wp := 256 } { dir := .out, occ := 1 }
    let r := a.myRun
    let all := (inRun { aRun with preds := [(1, List.replicate 64 true)] }).mask 1
    let none' := (inRun { aRun with preds := [(1, List.replicate 64 false)] }).mask 1
    let cnt := min ((r.uniform .int 196).toNat) (1 / 1) * 1
    let need (m : Mask) : Nat := let n := (chosen m).length; if n = 0 then 0 else (0 + n - 1) / (b.stream 0 0).rowLen + 1
    -- spop, and spopc of half a row, of a whole one and of no lane
    ((r.uniform .int 195).toNat % 1 < (a.stream 0 0).filled ∧ (b.stream 0 0).filled ≤ (r.uniform .int 195).toNat % 1)
    ∧ (need (b.mask 1) ≤ (a.stream 0 0).filled ∧ need all ≤ (a.stream 0 0).filled ∧ need none' ≤ (b.stream 0 0).filled
      ∧ (b.stream 0 0).filled < need all)
    -- spush, and spushc that completes no row, one with a free position, one without
    ∧ (0 < (b.stream 0 0).space ∧ (full.stream 0 0).space ≤ 0)
    ∧ ((([] : List W32) ++ (chosen (b.mask 1)).map (fun g => (r.source .int 1).getD g 0)).length < (b.stream 0 0).rowLen
      ∧ (b.stream 0 0).rowLen ≤ (List.replicate 32 7 ++ (chosen (b.mask 1)).map (fun g => (r.source .int 1).getD g 0)).length)
    -- waits and advances by one granule
    ∧ (cnt = 1 ∧ cnt ≤ (a.stream 0 0).filled ∧ (b.stream 0 0).filled < cnt ∧ cnt ≤ (b.stream 0 0).space ∧ (full.stream 0 0).space < cnt)
    -- fills, scnt and sflush
    ∧ ((a.stream 0 0).filled ≠ 0 ∧ (b.stream 0 0).filled = 0 ∧ r.rqRoom = true
      ∧ (inRun { aRun with rq := [(3, List.replicate 8 0)] }).myRun.rqRoom = false
      ∧ ({ occ := 1 } : Port).staging = [] ∧ ({ occ := 1, staging := [9] } : Port).staging ≠ []) := by
  decide +kernel

/-- A run of context 18 in its entry, and what its bundle left of it. -/
theorem witness_ChecksBanksAndSlots_bundle :
    let s := { inRun aRun with scs := [(0, { aSc [(18, aCtx [])] with
      runs := [(0, { aRun with ports := [(0, { dir := .out })] })], entries := [{ work := .run }], streams := [(0, {})] })] }
    let t (f : List (Nat × Nat)) (b : Bool) : State := s.setRun 0 0 { s.run 0 0 with faults := f, stall := b }
    let h := futHandle 1 0
    let k := { s with scs := [(0, { s.sc 0 with ctxs := [(0, { aCtx [] with fut := BitVec.ofNat 64 h })] })],
                      futs := [(1, { st := .running, sc := some 0 })] }
    (((t [] true).run 0 0).stall = true ∧ ((t [] false).run 0 0).stall = false ∧ ((t [] false).run 0 0).faults = [])
    ∧ (((t [(3, 4), (1, 2), (1, 1)] false).run 0 0).faults = [(3, 4), (1, 2), (1, 1)] ∧ (s.sc 0).entry? 0 = some { work := .run })
    ∧ (s.ownerStands 0 (s.run 0 0).owner = true ∧ s.ownerStands 0 (.ctx 17) = false ∧ (s.ctx 0 18).st ≠ .free)
    ∧ (∀ p ∈ (s.run 0 0).ports, p.2.dir = .out ∧ p.2.stream ≠ 1 ∧ ∀ x ∈ (s.run 0 0).ports, x.2.stream = p.2.stream → x = p)
    ∧ (k.futLive h = true ∧ k.locate (futKey h) = .inCtx 0 0) := by
  decide +kernel

/-- Banks in both modes and none, room and none for a new one; slots claimed and free. -/
theorem witness_OperandsAndResults_landings :
    let r : Run := { aRun with banks := [(0, {}), (1, { part := true })], slots := [(3, {})] }
    (thas r.slots 3 = true ∧ tget r.slots 4 = none ∧ tget r.slots 3 = some {})
    ∧ (thas r.banks 0 = true ∧ thas r.banks 63 = false ∧ r.banks.length < r.amMax ∧ ({ r with amMax := 2 } : Run).amMax ≤ r.banks.length)
    ∧ (tget r.banks 0 = some {} ∧ ({} : Bank).part = false ∧ tget r.banks 1 = some { part := true } ∧ tget r.banks 63 = none)
    ∧ (((List.range 32).map (fun y => (y, r.reg 1))).map Prod.fst).Nodup := by
  decide +kernel

theorem witness_OperandsAndResults :
    aRun.held (latchIx 1 false) = false ∧ ({ aRun with bundle := List.replicate 13 0 ++ [0xFFFFFFFF] } : Run).held (latchIx 1 false) = true
    ∧ aRun.dbg = false ∧ (aRun.reg 1)[63]? = some 5 ∧ (aRun.predicate 1)[63]? = some false ∧ 63 < aRun.lanes := by
  decide +kernel

/-! ### The control core -/

/-- Every register of a context that waits for nothing is filled. -/
theorem witness_Filled : (inCtx 18 (aCtx [])).Filled [0, 1, 31] := by
  delta State.Filled; decide +kernel

theorem witness_ControlIntegerInstructions :
    (inCtx 0 (aCtx [(1, 0x8000000000000000), (2, BitVec.allOnes 64)])).Filled [3, 1, 2]
    ∧ (inCtx 0 (aCtx [(1, 1), (2, 0)])).Filled [31, 1, 2] := by
  delta State.Filled; decide +kernel

theorem witness_BranchesAndJumps :
    (inCtx 0 (aCtx [(1, 0x400)])).Filled [2, 1] ∧ ((inCtx 0 (aCtx [(1, 0x400)])).g 1).toNat % 4 = 0
    ∧ ((inCtx 0 (aCtx [(1, 0x403)])).g 1).toNat % 4 ≠ 0 ∧ (inCtx 0 (aCtx [])).Filled [31] := by
  delta State.Filled; decide +kernel

/-- A packet of SC 0's context 0 that has not been performed. -/
def aPacket : Packet := { port := 0, owner := .task 0 }

/-- The state with one request of SC 0's port. -/
def waiting (s : State) (p : Packet := aPacket) : State := { s with pkts := [(0, p)], nextPkt := 1 }

theorem witness_SoftwareTrapsPausesAndFences :
    let s := inCtx 0 (aCtx [])
    let u := withSc s (fun t => { t with entries := [{ id := 7, owner := s.myOwner, work := .rsig {} }] })
    s.performed s.cur.sc s.cur.ctx = true ∧ (waiting s).performed s.cur.sc s.cur.ctx = false
    ∧ (∀ j ∈ s.myRemotes, notComplete s.mySc j = false) ∧ (∃ j ∈ u.myRemotes, notComplete u.mySc j = true) := by
  decide +kernel

theorem witness_InstructionsThatDoNotIssue :
    (inCtx 0 { aCtx [] with unfilled := [5] }).me.unfilledReg [5, 1, 2] = some 5
    ∧ (inCtx 0 { aCtx [] with unfilled := [37] }).me.unfilledReg [1, 5, 2] = some 5
    ∧ ¬(inCtx 0 { aCtx [] with unfilled := [5] }).Filled [5, 1, 2] ∧ ¬(inCtx 18 { aCtx [] with unfilled := [31 + 32] }).Filled [31]
    ∧ ((inCtx 0 { aCtx [] with unfilled := [5] }).me.wait = none ∧ (inCtx 0 { aCtx [] with unfilled := [5] }).krunRegs 5 2 = []
      ∧ (19 : BitVec 5).toNat < 20)
    ∧ ({ inCtx 18 (aCtx []) with committing := [(0, 18)], rngStage := [(0, 0), (1, 0x1000D)] } : State).commitHits 0x1000 = true
    ∧ isSystem (inCtx 0 (aCtx [])).cur.ctx = false ∧ isSystem (inCtx 17 (aCtx [])).cur.ctx = false := by
  delta State.Filled; decide +kernel

/-- The translation of an address of the first page. -/
def plainAt (a : Nat) : Xlat := { page 0 0 false with pa := a }

theorem witness_CachedLoads :
    let s := inCtx 0 (aCtx [(1, 0x1000), (2, 8)])
    let loads (v : Word) (n a : Nat) : Prop := (s.walked v n).check false v n = .ok (plainAt a) ∧ (plainAt a).uc = false
      ∧ inRegs (localOf a) = false ∧ (s.walked v n).needsTag (plainAt a) = none ∧ s.Quiet (localOf a)
    s.acquiring = false ∧ s.Filled [3, 1, 2] ∧ s.cur.sc < 16 ∧ loads (s.g 1) 8 0x1000 ∧ loads (s.g 1 + s.g 2) 8 0x1008
    ∧ loads (s.g 1 + (0x3FFF : BitVec 14).signExtend 64) 1 0xFFF := by
  delta State.Filled State.Quiet; decide +kernel

/-- A state with an empty data cache and memory in canonical form is safe. -/
theorem safe_of (s : State) (h : s.memOk = true) (hl : s.scs.all (fun p => p.2.lines.isEmpty) = true) : s.Safe := by
  refine ⟨h, fun n k l e => ?_⟩
  have : (s.sc n).lines = [] := by
    unfold State.sc tgetD
    cases hg : tget s.scs n with
    | none => rfl
    | some c =>
      have hm : ∀ (t : Tab Sc), tget t n = some c → (n, c) ∈ t := by
        intro t
        induction t with
        | nil => intro h; cases h
        | cons p t ih =>
          intro h
          unfold tget at h
          split at h
          · rename_i he
            cases h
            rw [he]
            exact List.mem_cons_self ..
          · exact List.mem_cons_of_mem _ (ih h)
      have := List.all_eq_true.mp hl _ (hm _ hg)
      simpa using this
  rw [this] at e
  cases e

theorem witness_CachedStores :
    let s := inCtx 0 (aCtx [(1, 0x1038)])
    let v := s.g 1 + (0 : BitVec 14).signExtend 64
    s.Safe ∧ s.acquiring = false ∧ s.Filled [3, 1] ∧ (s.walked v 8).check true v 8 = .ok (plainAt 0x1038) ∧ s.cur.sc < 16
    ∧ (s.walked v 8).needsTag (plainAt 0x1038) = none ∧ localOf 0x1038 % 64 + 8 ≤ 64 ∧ s.Settled ∧ s.Quiet (localOf 0x1038) := by
  refine ⟨safe_of _ (by decide +kernel) (by decide +kernel), ?_⟩
  delta State.Filled State.Settled State.Quiet; decide +kernel

/-- The 8 packets of a port that hold every tag of stack 0. -/
def everyTag : Tab Packet := (List.range 8).map (fun k => (k, { tag := k }))

/-- A translation of the uncached page at 1 GiB. -/
def ucAt (a : Nat) : Xlat := { page (2 ^ 30) 0 true with pa := a }

/-- Context 18 with addresses of the uncached page and of register space, a misaligned one and one that does not translate. -/
def uncached (p : Tab Packet) : State :=
  { inCtx 18 (aCtx [(1, 0x40001000), (2, 0x80300000), (4, 0x1001), (5, 0xC0000000)]) with pkts := p }

/-- The check of an access by its first register, of n bytes, gives the uncached translation. -/
def okUc (s : State) (w : Bool) (n : Nat) (align : Bool) : Bool :=
  (s.walked (s.g 1) n align).check w (s.g 1) n align == .ok (ucAt 0x1000)

/-- A misaligned access, one that does not translate, accesses with a free tag and without one, after an LD.acq, and of registers. -/
theorem witness_AccessesThatTrapOrLeaveTheCache :
    let s := uncached []
    let full := uncached everyTag
    let q := uncached [(0, { port := 0, owner := .ctx 18, acq := true })]
    let reg := { page (2 ^ 31) (2 ^ 40) true with pa := 2 ^ 40 + 0x300000 }
    (s.Filled [3, 1, 2] ∧ (s.g 4).toNat % 2 ≠ 0 ∧ (s.g 5).toNat % 8 = 0 ∧ s.xlat 0 (s.g 5).toNat = none)
    ∧ (s.acquiring = false ∧ s.Settled ∧ okUc s false 8 true = true ∧ okUc s true 1 true = true ∧ okUc s true 64 false = true
      ∧ (s.walked (s.g 1) 64 false).needsTag (ucAt 0x1000) = none ∧ (ucAt 0x1000).uc = true ∧ inRegs (localOf 0x1000) = false)
    ∧ (full.acquiring = false ∧ okUc full false 8 true = true ∧ okUc full true 8 true = true
      ∧ (full.walked (s.g 1) 8).needsTag (ucAt 0x1000) = some 0)
    ∧ (q.acquiring = true ∧ okUc q false 8 true = true ∧ okUc q true 8 true = true)
    ∧ (s.walked (s.g 2) 8).check false (s.g 2) 8 = .ok reg ∧ (s.walked (s.g 2) 4).check true (s.g 2) 4 = .ok reg
    ∧ (s.walked (s.g 2) 64 false).check true (s.g 2) 64 false = .ok reg ∧ inRegs (localOf reg.pa) = true := by
  delta State.Filled State.Settled; decide +kernel

/-- The dwords of an uncached LDM or STM, all of whose tags are free; and one that waits in the middle. -/
theorem witness_AccessesThatTrapOrLeaveTheCache_multiple :
    let s := uncached []
    let ks := List.range 8
    let u := s.walkedAll (s.g 1) ks
    let xs := ks.map (fun k => ucAt (0x1000 + 8 * k))
    (s.acquiring = false ∧ s.Filled ((1 : BitVec 5) :: (regRange 24 7).map (BitVec.ofNat 5)) ∧ s.me.wait = none
      ∧ u.checkRange true (s.g 1) ks = .ok xs ∧ u.checkRange false (s.g 1) ks = .ok xs
      ∧ (∀ y ∈ xs, y.uc = true ∧ inRegs (localOf y.pa) = false) ∧ u.TagsFor xs)
    ∧ (uncached everyTag).needsTag (ucAt 0x1000) = some 0
    ∧ (inCtx 18 { aCtx [] with wait := some (.parts 0 0 [(24, ucAt 0x1000)] 0) }).me.wait = some (.parts 0 0 [(24, ucAt 0x1000)] 0) := by
  delta State.Filled State.TagsFor; decide +kernel

theorem witness_MultipleLoadsAndStores :
    let s := inCtx 0 (aCtx [(1, 0x1000)])
    let ks := List.range 8
    let u := s.walkedAll (s.g 1) ks
    let xs := ks.map (fun k => plainAt (0x1000 + 8 * k))
    s.Safe ∧ s.Filled ((1 : BitVec 5) :: (regRange 24 7).map (BitVec.ofNat 5)) ∧ (24 : BitVec 5).toNat + (7 : BitVec 3).toNat < 32
    ∧ s.me.wait = none ∧ s.acquiring = false ∧ u.checkRange false (s.g 1) ks = .ok xs ∧ u.checkRange true (s.g 1) ks = .ok xs
    ∧ u.TagsFor xs ∧ u.QuietAll xs
    ∧ (∀ x ∈ xs, x.uc = false ∧ inRegs (localOf x.pa) = false ∧ localOf x.pa % 64 + 8 ≤ 64)
    ∧ (inCtx 0 (aCtx [(1, 0x3FFFFFF8)])).checkRange false 0xFFFFFFF8 (List.range 2) = .error (5, 0xFFFFFFF8)
    ∧ (inCtx 0 (aCtx [])).checkRange true 0x1001 (List.range 2) = .error (3, 0x1001) := by
  refine ⟨safe_of _ (by decide +kernel) (by decide +kernel), ?_⟩
  delta State.Filled State.TagsFor State.QuietAll; decide +kernel

/-- Range register 0 maps the page at 0 to local address 0 of package 3. -/
def ranged (s : State) : State := { s with rngLive := [(0, 0), (1, 0x1000D), (2, 3 * 2 ^ 41), (3, 0)] }

theorem witness_DataCacheInstructions :
    let s := inCtx 18 (aCtx [(1, 0x1030), (5, 0xC0000000)])
    let f := (ranged s).touchMe 0
    let z := s.walked (s.g 1) 64 false
    s.Safe ∧ s.Filled [1] ∧ (s.touchMe (s.g 5).toNat).xlat 0 (s.g 5).toNat = none
    ∧ (s.touchMe (s.g 1).toNat).xlat 0 (s.g 1).toNat = some (plainAt 0x1030) ∧ z.far (plainAt 0x1030) = false
    ∧ (∃ x ∈ (f.xlat 0 0).toList, f.far x = true)
    ∧ z.check true (s.g 1) 64 false = .ok (plainAt 0x1030) ∧ isSystem s.cur.ctx = true ∧ s.acquiring = false
    ∧ s.Quiet (localOf 0x1030) := by
  refine ⟨safe_of _ (by decide +kernel) (by decide +kernel), ?_⟩
  delta State.Filled State.Quiet; decide +kernel

/-! ### Traps and contexts -/

/-- Context 3 of SC 0 is TRAPPED and queued. -/
def trapped (k : Nat) (x : Ctx) : State :=
  withSc (inCtx k x) (fun t => { t with
    ctxs := tput t.ctxs 3 { aCtx [(1, 9)] with st := .trapped, tcause := 8, tpc := 0x104 }, trapQ := [3], tvec := 0x800, tvecSet := true })

theorem witness_TrapsAndTheirHandOver :
    let both := withSc (trapped 18 (aCtx [])) (fun t => { t with ctxs := tput t.ctxs 19 { aCtx [] with st := .trapped } })
    (((trapped 0 (aCtx [])).sc 0).trapQ = 3 :: [] ∧ ((trapped 0 (aCtx [])).sc 0).tvecSet = true
      ∧ ((trapped 0 (aCtx [])).sc 0).stopped = false ∧ ((trapped 0 (aCtx [])).ctx 0 18).st = .free)
    ∧ ((trapped 18 (aCtx [])).ctx 0 18).st ≠ .free ∧ ((trapped 18 (aCtx [])).ctx 0 19).st = .free
    ∧ ((both.ctx 0 19).st = .trapped ∧ (both.ctx 0 18).st ≠ .trapped ∧ (both.sc 0).tvecSet = true)
    ∧ ((withSc (trapped 0 (aCtx [])) (fun t => { t with tvecSet := false })).sc 0).tvecSet = false
    ∧ ((withSc (trapped 18 (aCtx [])) (fun t => { t with ctxs := tput t.ctxs 19 (aCtx []) })).ctx 0 19).st ≠ .free
    ∧ ((inCtx 0 (aCtx [])).sc 0).tvecSet = false := by
  decide +kernel

theorem witness_LeavingAHandler :
    let s := trapped 18 { aCtx [(2, 0x40)] with owner := 3 }
    isSystem s.cur.ctx = true ∧ s.me.owner = 3 ∧ s.settledFor 0 18 (s.ownIds 0 s.myOwner) = true
    ∧ (s.endActivity 0 18).ctxReclaimed 0 3 = false ∧ (trapped 18 (aCtx [])).me.owner = 31
    ∧ (waiting s { port := 0, owner := .ctx 18 }).settledFor 0 18 [] = false
    ∧ s.isTrapped 3 = true ∧ s.ctxReclaimed 0 3 = false ∧ s.isFree 19 = true ∧ s.isTrapped 5 = false
    ∧ (withSc s (fun t => { t with ctxs := tput t.ctxs 16 { aCtx [] with st := .trapped } })).isTrapped 16 = true := by
  decide +kernel

theorem witness_LeavingAHandler_reclaimed (o : Nat) :
    ((trapped 18 { aCtx [(2, 0x40)] with owner := 3 }).endActivity 0 18).ctxReclaimed 0 o = false := by
  have h : ((trapped 18 { aCtx [(2, 0x40)] with owner := 3 }).endActivity 0 18).futs = [] := by decide +kernel
  unfold State.ctxReclaimed State.isReclaimed State.fut
  rw [h]
  simp [tgetD, tget]

/-- A task context and system contexts of SC 0 that handle context 3 or nothing; a value that makes KSP valid and one that does not;
ports that are locked, in RUN and busy, and in ERROR. -/
theorem witness_SpecialRegisters :
    let s := inCtx 18 (aCtx [(1, 0x1000001), (2, 0x1000002)])
    let area := (s.g 1).toNat / 2 ^ 24 % 2 ^ 29 * 2 ^ 24
    let h := trapped 18 { aCtx [] with owner := 3 }
    let busy := { s with hostRmw := [(default, 0)], ports := [(0, .run), (1, .locked), (2, .error)] }
    ((inCtx 0 (aCtx [])).Filled [1] ∧ s.Filled [1] ∧ isSystem s.cur.ctx = true ∧ isSystem (inCtx 0 (aCtx [])).cur.ctx = false)
    ∧ (s.mySc.saved = false ∧ (withSc s (fun t => { t with runs := [(0, { phase := .saved })] })).mySc.saved = true)
    ∧ ((s.g 1).toNat % 2 = 1 ∧ (s.g 1).toNat / 2 ^ 53 = 0 ∧ (s.g 1).toNat / 2 % 2 ^ 23 = 0
      ∧ area / 2 ^ 41 = s.fab.fid.toNat % 4096 ∧ area % 2 ^ 41 / 2 ^ 38 = 0 / 8 ∧ area % 2 ^ 38 + 2 ^ 24 ≤ offered s.topo (0 / 8)
      ∧ (∀ q ∈ s.scs, q.1 ≠ 0 → q.2.ksp.toNat % 2 = 1 → q.2.ksp.toNat / 2 ^ 24 % 2 ^ 17 ≠ (s.g 1).toNat / 2 ^ 24 % 2 ^ 17)
      ∧ (s.g 2).toNat % 2 ≠ 1)
    ∧ (h.me.owner ≠ 31 ∧ h.me.owner ≠ h.cur.ctx ∧ s.me.owner = 31)
    ∧ (Machine.portOk 0 = true ∧ Machine.portOk 7 = false ∧ s.port 8 = .unlocked ∧ busy.port 1 = .locked ∧ busy.port 2 = .error
      ∧ busy.port 0 = .run ∧ (busy.modMe (fun x => { x with portSel := 0 })).portBusy 0 = true
      ∧ (s.modMe (fun x => { x with portSel := 0 })).portBusy 0 = false) := by
  delta State.Filled; decide +kernel

/-- The translations of an area that `checkArea` allows. -/
def areaOf (r : Except (Nat × Nat) (List (Nat × Xlat))) : List (Nat × Xlat) :=
  match r with
  | .ok xs => xs
  | .error _ => []

/-- The dwords of an area find every tag they need free, and lie in memory that is cached. -/
def AreaFree (u : State) (zs : List (Nat × Xlat)) : Prop :=
  zs.findSome? (fun p => u.needsTag p.2) = none ∧ u.QuietAll (zs.map Prod.snd)
    ∧ ∀ p ∈ zs, inRegs (localOf p.2.pa) = false ∧ p.2.uc = false ∧ localOf p.2.pa % 64 + 8 ≤ 64

/-- An area on a cached page at 0x1400, and one that is not mapped. -/
theorem witness_ContextSaveAndLoad :
    let s := trapped 18 (aCtx [(1, 0x1400), (2, 0xC0000400)])
    let u := s.touchMe (s.g 1).toNat
    let ws := (s.saveWords 0 3).map Prod.fst
    let xs := areaOf (u.checkArea true 0x1400 ws)
    let ys := areaOf (u.checkArea false 0x1400 loadOffsets)
    s.Safe ∧ isSystem s.cur.ctx = true ∧ s.Filled [1, 2] ∧ s.isTrapped 3 = true ∧ (3 : Nat) ≠ s.cur.ctx ∧ s.isTrapped 5 = false
    ∧ (s.g 1).toNat % 1024 = 0 ∧ ((trapped 18 (aCtx [(1, 0x1200)])).g 1).toNat % 1024 ≠ 0 ∧ s.acquiring = false
    ∧ (u.checkArea true 0x1400 ws = .ok xs ∧ xs.length = 125 ∧ AreaFree u xs)
    ∧ (u.checkArea false 0x1400 loadOffsets = .ok ys ∧ ys.length = 33 ∧ AreaFree u ys)
    ∧ ((s.ctx 0 3).unfilled = [] ∧ ((withSc s (fun t => { t with ctxs := tmod t.ctxs 3 (fun y => { y with unfilled := [9] }) })).ctx 0 3).unfilled ≠ [])
    ∧ (s.touchMe 0xC0000400).checkArea true 0xC0000400 ws = .error (5, 0xC0000400)
    ∧ (s.touchMe 0xC0000400).checkArea false 0xC0000400 loadOffsets = .error (5, 0xC0000408) := by
  refine ⟨safe_of _ (by decide +kernel) (by decide +kernel), ?_⟩
  delta State.Filled AreaFree State.QuietAll; decide +kernel

/-- A READY future 0 with a slice, and a handler's arrival. -/
def aTask : State :=
  { inCtx 18 (aCtx []) with futs := [(0, { st := .ready, count := 1, entry := 0x200, arg := 7, rcb := 0x1000 })], slices := [{ fut := 0 }],
                            regions := [(0x1000, { ovr := 12, mask := 0xFFFF, ctxb := 4 })] }

theorem witness_GeneralRegisters :
    (aTask.pick aTask.cands).map (fun y => (y.fut, aTask.placeOf y)) = some (some 0, some 0) ∧ aTask.freeTask 0 = some 0
    ∧ tget aTask.sleepers 0 = none ∧ (aTask.fut 0).args = []
    ∧ ((withSc aTask (fun t => { t with arrivals := [{ pc := 0x40, arg := 1, src := 5 }] })).sc 0).arrivals = { pc := 0x40, arg := 1, src := 5 } :: []
    ∧ (aTask.ctx 0 16).st = .free ∧ (aTask.ctx 0 17).st = .free := by
  decide +kernel

/-! ### Stream instructions -/

/-- The 192 bytes of a record of one dimension at 0x3000 (R180): 32 elements of a format, eb bytes each. -/
def recBytes (fmt eb stride : Nat) : List Byte :=
  natBytes 8 0x3000 ++ natBytes 1 fmt ++ natBytes 1 1 ++ natBytes 2 0 ++ natBytes 4 eb ++ natBytes 24 32 ++ natBytes 48 stride
    ++ natBytes 24 0 ++ natBytes 24 32 ++ natBytes 8 0 ++ natBytes 8 0x3800 ++ natBytes 8 0 ++ natBytes 32 0

/-- What it holds. -/
def aRec (fmt eb stride : Nat) : Rec := recOf 0x1000 (recBytes fmt eb stride)

/-- Context 18 with handles for streams 0 and 1, and four records in the record cache: FP32, s32, bx8, FP32. -/
def aStream : State :=
  withSc (inCtx 18 { aCtx [(1, 0x1000), (2, 0x1100), (3, 0x1200), (4, 0x1300), (5, 4), (6, 0x5000), (7, 1), (8, 4)] with
      h := [(1, 0), (2, 1)] }) (fun t => { t with
    recs := [(0x1000, recBytes 1 4 4), (0x1100, recBytes 14 4 4), (0x1200, recBytes 3 1 1), (0x1300, recBytes 1 4 4)],
    streams := [(0, {}), (1, {})] })

def okRec (r : Except (Nat × Word) Rec) : Rec :=
  match r with
  | .ok x => x
  | .error _ => {}

/-- A handle that is not bound, and a context with a packet to come. -/
theorem witness_StreamIssueChecks :
    let w := waiting aStream { port := 0, owner := .ctx 18 }
    aStream.Filled [1, 5] ∧ aStream.Settled ∧ tget aStream.me.h (3 : BitVec 4).toNat = none ∧ w.Filled [1, 5] ∧ ¬w.Settled
    ∧ aStream.Filled ((1 : BitVec 5) :: groupRegs 5 5) ∧ w.Filled ((1 : BitVec 5) :: groupRegs 5 5)
    ∧ ({ ranges := [(0x1000, 8, false)] } : Issue).addresses.any
        ({ aStream with committing := [(0, 18)], rngStage := [(0, 0), (1, 0x1000D)] } : State).commitHits = true := by
  delta State.Settled State.Filled; decide +kernel

theorem witness_MemoryStreamsEnter :
    let s := aStream
    let r := okRec (s.myRecord 1)
    let x := okRec (s.myRecord 3)
    (s.Settled ∧ s.Filled [1, 5] ∧ tget s.me.h (1 : BitVec 4).toNat = some 0 ∧ tget s.me.h (2 : BitVec 4).toNat = some 1)
    ∧ (s.myRecord 1 = .ok r ∧ s.myRecord 3 = .ok x ∧ x.fmt = 3 ∧ r.fmt ≠ 3 ∧ r.fmt ≠ 4)
    ∧ s.MayIssue { wins := [(r, false)], ends := [producer 0] } ∧ s.MayIssue { wins := [(r, true)], ends := [consumer 0] }
    ∧ s.MayIssue { wins := [(x, false)], ends := [producer 0, producer 1] }
    ∧ s.MayIssue { wins := [(x, true)], ends := [consumer 0, consumer 1] }
    ∧ s.MayIssue { wins := [(r, false)], ends := [consumer 1, producer 0] }
    ∧ s.MayIssue { wins := [(r, true)], ends := [consumer 0, consumer 1] }
    ∧ (s.mySc.room s.myOwner = true ∧ (s.g 5).toNat = 4 ∧ 4 ≤ (s.stream s.cur.sc 0).cap) := by
  delta State.Settled State.Filled State.MayIssue; decide +kernel

theorem witness_StreamsInContext :
    let s := { aStream with regions := [(0, { srfb := 64 })] }
    (s.Filled [0, 5] ∧ (s.g 0).toNat < 16 ∧ (s.g 0).toNat % 4 = 0 ∧ (s.g 5).toNat = 4 ∧ tget s.me.h (3 : BitVec 4).toNat = none
      ∧ s.canCharge (4 * 4) = true ∧ s.freeDesc.isSome = true ∧ s.mySc.freeUnits 0 4 4 = some 1
      ∧ s.coresLive s.cur.sc 0 4 = true)
    ∧ (tget s.me.h (1 : BitVec 4).toNat = some 0 ∧ (s.g 5).toNat < (s.stream 0 0).rowLen * (s.stream 0 0).cap ∧ s.lengthOpen 0 = [])
    ∧ (withSc s (fun t => { t with entries := [{ work := .fill 0 0 false 1, owner := .ctx 18, ends := [producer 0] }] })).lengthOpen 0 ≠ [] := by
  delta State.Filled; decide +kernel

theorem witness_StreamWaitsAndBarriers :
    let s := aStream
    let u := withSc s (fun t => { t with entries := [{ owner := .ctx 18, ends := [producer 0], classes := 2 }] })
    (s.Filled [1] ∧ s.waitedFor none false 7 = [] ∧ s.waitedFor (some 0) true 7 = [] ∧ s.ownIds 0 s.myOwner = [])
    ∧ (tget s.me.h (1 : BitVec 4).toNat = some 0 ∧ u.waitedFor (some 0) false 7 = [0] ∧ u.waitedFor none false 2 = [0]
      ∧ u.waitedFor none true 2 = [0] ∧ u.ownIds 0 u.myOwner = [0]) := by
  delta State.Filled; decide +kernel

/-- The header of a kernel of one bundle (R65) and of some arguments, with an input port 0; and its bundle, a halt and nops. -/
def header (args : Nat) : List Byte :=
  natBytes 4 0x4B345647 ++ natBytes 4 1 ++ natBytes 2 1 ++ natBytes 6 (args * 2 ^ 32 + 0x104) ++ natBytes 4 0x00010001 ++ natBytes 44 0

def aHeader : List Byte := header 0

def aBundle : List Byte := natBytes 64 ((encode .ctlHalt).getD 0).toNat

/-- That image in memory at 0x5000, and another loaded at 0. -/
def aKernel : State :=
  withSc (aStream.write 0x5000 (aHeader ++ aBundle)) (fun t => { t with
    images := [(0, { count := 1, gen := 9, header := aHeader })], kgen := 10,
    ctxs := tput t.ctxs 18 { aCtx [(6, 0x5000), (7, 9 * 4096), (8, 1), (9, 0x5001), (10, 16)] with h := [(1, 0)] } })

theorem witness_KernelStore :
    let s := aKernel
    (s.Filled [1, 6] ∧ (s.g 6).toNat = 0x5000 ∧ s.pieceFault 0x5000 1 = none ∧ headerOk (s.piece 0x5000) = true
      ∧ s.pieceFault 0x5040 1 = none ∧ hdrCount (s.piece 0x5000) = 1
      ∧ imageFault (s.piece 0x5000) (bundlesOf 1 ((List.range 1).flatMap (fun i => s.piece (0x5000 + 64 + 64 * i)))) = none
      ∧ s.mySc.freeBundles 1 = some 1)
    ∧ ((s.g 9).toNat % 64 ≠ 0 ∧ (s.mySc.image (s.g 7).toNat).isSome = true ∧ s.mySc.image (s.g 6).toNat = none
      ∧ s.mySc.kernelBusy ((s.g 7).toNat % 4096) 9 = false ∧ s.PortQuiet)
    ∧ (s.acquiring = false ∧ (waiting s { port := 0, owner := s.myOwner, acq := true }).acquiring = true) := by
  delta State.Filled State.PortQuiet; decide +kernel

theorem witness_KernelRunsAndReturnQueues :
    let s := aKernel
    let i : Image := { count := 1, gen := 9, header := aHeader }
    let a : Run := { phase := .running, owner := .ctx 18, tag := 3, rq := [(1, [7, 8])] }
    let q := withSc s (fun t => { t with runs := [(4, a)] })
    let e := withSc s (fun t => { t with runs := [(4, { a with rq := [] })] })
    (s.Filled (7 :: 8 :: (s.krunRegs 7 8).map (BitVec.ofNat 5)) ∧ s.mySc.image (s.g 7).toNat = some i ∧ (∀ r ∈ s.krunRegs 7 8, r ≤ 31)
      ∧ bindingsOk i.header (s.g 8) = true ∧ s.krunRefused i.header (s.g 8) = none ∧ s.Settled ∧ s.mySc.room s.myOwner = true)
    ∧ ((s.krunRefused i.header (s.g 0)).isSome = true ∧ bindingsOk i.header (s.g 0) = true)
    ∧ (s.mySc.image (s.g 6).toNat = none ∧ ∀ r ∈ s.krunRegs 6 8, r ≤ 31)
    ∧ (q.krqRun 3 (q.g 8).toNat = some (4, a) ∧ (q.g 8).toNat < a.g ∧ tgetD a.rq 1 [] = 7 :: [8]
      ∧ e.krqRun 3 (e.g 8).toNat = some (4, { a with rq := [] }) ∧ tgetD ({ a with rq := [] } : Run).rq 1 [] = [])
    ∧ (16 ≤ (s.g 10).toNat ∧ s.krqRun 3 1 = none)
    ∧ (∃ r ∈ (withSc s (fun t => { t with images := [(0, { i with header := header 1 })] })).krunRegs 7 31, 31 < r) := by
  delta State.Settled State.Filled State.MayIssue; decide +kernel

theorem witness_CopiesEnter :
    let s := aStream
    let q := okRec (s.myRecord 1)
    let r := okRec (s.myRecord 4)
    let x := okRec (s.myRecord 3)
    let z := okRec (s.myRecord 2)
    (s.Settled ∧ s.Filled [5, 6, regAfter 5 1] ∧ (s.g 5).toNat = 4 ∧ tget s.me.h (1 : BitVec 4).toNat = some 0
      ∧ tget s.me.h (2 : BitVec 4).toNat = some 1 ∧ s.mySc.room s.myOwner = true)
    ∧ (s.myRecord 1 = .ok q ∧ s.myRecord 4 = .ok r ∧ s.myRecord 3 = .ok x ∧ s.myRecord 2 = .ok z)
    ∧ (q.fmt = r.fmt ∧ q.total = r.total ∧ accFmtOk z.fmt = true ∧ q.fmt = 1 ∧ x.fmt = 3 ∧ sameShape q x = true)
    ∧ s.MayIssue { wins := [(r, true)], ends := [consumer 0] } ∧ s.MayIssue { wins := [(q, false)], ends := [producer 1] }
    ∧ s.MayIssue { wins := [(z, true)], ends := [consumer 0] } ∧ s.MayIssue { wins := [(z, true)], ends := [consumer 0, producer 1] }
    ∧ s.MayIssue { wins := [(z, true)], ends := [consumer 0, consumer 1] } ∧ s.MayIssue { wins := [(q, false), (r, true)] }
    ∧ s.MayIssue { wins := [(z, false), (z, true)] } ∧ s.MayIssue { wins := [(q, false), (x, true)] }
    ∧ s.MayIssue { wins := [(x, false), (q, true)] } ∧ s.MayIssue (decompIssue 0 0x1000 1 0x5000)
    ∧ s.check true (s.g 6) (accBytes (tcFmt 0)) = .ok { page 0 0 false with pa := 0x5000 }
    ∧ s.MayIssue { ranges := [(0x5000, accBytes (tcFmt 0), true)] } := by
  delta State.Settled State.Filled State.MayIssue; decide +kernel

/-- A storage port in RUN, and a record of one block of 128 bytes; what the device and system software fix are hypotheses of their
own. -/
theorem witness_StorageReadsEnter (hn : Config.nvmeEnabled 0 1 0 = true) (hb : Config.lbaBytesPred 0 1 = 127) :
    let s := { withSc aStream (fun t => { t with ctxs := tput t.ctxs 18 { aCtx [(1, 1), (2, 64), (3, 1), (4, 0x6000), (7, 0x1000), (9, 2 ^ 34)]
      with h := [(1, 0)] } }) with ports := [(2, .run)] }
    let r := okRec (s.myRecord 7)
    Config.nvmeEnabled 0 ((s.g 1).toNat % 2 ^ 32) s.myRcb = true ∧ Config.lbaBytesPred 0 ((s.g 1).toNat % 2 ^ 32) = 127
    ∧ (s.Settled ∧ s.Filled (7 :: groupRegs 1 4) ∧ (s.g 1).toNat / 2 ^ 34 = 0 ∧ s.port 2 = .run ∧ (s.g 3).toNat = 1
      ∧ (s.g 4).toNat = 0x6000 ∧ (s.g 4).toNat % 16 = 0 ∧ s.myRecord 7 = .ok r ∧ r.size = 1 * (127 + 1)
      ∧ tget s.me.h (1 : BitVec 4).toNat = some 0 ∧ s.MayIssue { wins := [(r, true)], extra := [(0x6000, 16, true)] }
      ∧ s.MayIssue { ends := [producer 0], extra := [(0x6000, 16, true)] } ∧ (s.g 9).toNat / 2 ^ 34 ≠ 0) := by
  refine ⟨hn, hb, ?_⟩
  delta State.Settled State.Filled State.MayIssue; decide +kernel

theorem witness_RemoteOperationsEnter :
    let s := { withSc aStream (fun t => { t with ctxs := tput t.ctxs 18 { aCtx [(1, 2 ^ 41), (2, 0), (3, 8), (7, 0x1100), (8, 2 ^ 53)]
      with h := [(1, 0)] } }) with fab := { dead := [2] } }
    let r := okRec (s.myRecord 7)
    (s.Settled ∧ s.Filled (7 :: groupRegs 1 5) ∧ (s.g 1).toNat < 2 ^ 53 ∧ s.isDead (pkgOf (s.g 1).toNat) = false ∧ (s.g 1).toNat % 8 = 0
      ∧ (s.g 2).toNat = 0 ∧ (s.g 3).toNat = 8 ∧ s.mySc.room s.myOwner = true)
    ∧ (s.myRecord 7 = .ok r ∧ accFmtOk r.fmt = true ∧ (2 ^ 41) % accBytes r.fmt = 0 ∧ accFmtOk (tcFmt 0) = true
      ∧ tget s.me.h (1 : BitVec 4).toNat = some 0)
    ∧ s.MayIssue { wins := [(r, false)] } ∧ s.MayIssue { wins := [(r, true)] } ∧ (s.g 8).toNat / 2 ^ 53 ≠ 0
    ∧ s.isDead (pkgOf (2 ^ 42)) = true := by
  delta State.Settled State.Filled State.MayIssue; decide +kernel

/-! ### Tasks, futures, barriers, flags and graphs -/

/-- A future handle of index k, generation 0: R236 puts the hub at bit 31 and the index above the generation. -/
def aHandle (k : Nat) : Word := BitVec.ofNat 64 (futHandle k 0)

/-- Context 0 of SC 0 runs the task of future 1; future 2 is DONE, 3 RUNNING with COUNT 65,535, 4 READY, 5 a graph. -/
def futures (x : Ctx) : State :=
  { inCtx 0 { x with fut := aHandle 1 } with
    futs := [(1, { st := .running, count := 1, sc := some 0 }), (2, { st := .done, count := 2, result := 9 }),
             (3, { st := .running, count := 65535 }), (4, { st := .ready, count := 2 }), (5, { st := .running, count := 1, graph := true }),
             (6, { st := .done, count := 2, held := true, parent := .task (aHandle 1).toNat }), (7, { st := .faulted, count := 1 }),
             (8, { st := .ready, count := 1 }), (9, { st := .running, count := 1 })] }

theorem witness_Spawning :
    let s := futures (aCtx [(1, 0x200), (2, 7), (3, 0x201)])
    (s.Filled [4, 1, 2] ∧ (s.g 1).toNat % 4 = 0 ∧ (s.allocFut 0).isSome = true ∧ s.Settled) ∧ (s.g 3).toNat % 4 ≠ 0
    ∧ ({ s with topo := { s.topo with halves := 0 } } : State).allocFut 0 = none := by
  delta State.Filled State.Settled; decide +kernel

theorem witness_FutureReferences :
    let s := futures (aCtx [(2, aHandle 2), (3, aHandle 3), (4, aHandle 4), (6, 1 + aHandle 2)])
    (s.Filled [2, 1] ∧ s.Filled [3, 1] ∧ s.Filled [4, 1] ∧ s.Filled [6, 1])
    ∧ (s.futLive (s.g 2).toNat = true ∧ s.futLost (s.g 2).toNat = false ∧ (s.fut (futKey (s.g 2).toNat)).count = 2
      ∧ (s.fut (futKey (s.g 2).toNat)).held = false ∧ s.g 2 ≠ s.me.fut ∧ (s.fut (futKey (s.g 2).toNat)).st = .done)
    ∧ (s.futLive (s.g 3).toNat = true ∧ (s.fut (futKey (s.g 3).toNat)).count = 65535)
    ∧ (s.futLive (s.g 4).toNat = true ∧ (s.fut (futKey (s.g 4).toNat)).st = .ready ∧ s.g 4 ≠ s.me.fut)
    ∧ (s.futLive (s.g 6).toNat = false ∧ s.futLost (s.g 6).toNat = false) := by
  delta State.Filled; decide +kernel

/-- The task's own future, one that it holds, and the last reference to one that is FAULTED, READY or RUNNING. -/
theorem witness_FutureReferences_drops :
    let s := futures (aCtx [(1, aHandle 1), (6, aHandle 6), (7, aHandle 7), (8, aHandle 8), (9, aHandle 9)])
    let y := { inCtx 18 (aCtx [(6, aHandle 6)]) with futs := [(6, { st := .ready, count := 2, held := true, parent := .ctx 0 18 })] }
    (∀ r ∈ [1, 6, 7, 8, 9], s.Filled [r, 2] ∧ s.futLive (s.g r).toNat = true ∧ s.futLost (s.g r).toNat = false)
    ∧ (s.cur.ctx < 16 ∧ s.g 1 = s.me.fut ∧ s.g 7 ≠ s.me.fut ∧ s.futLive s.me.fut.toNat = true)
    ∧ ((s.fut (futKey (s.g 6).toNat)).held = true ∧ (s.fut (futKey (s.g 6).toNat)).parent = s.meHolder ∧ 1 < (s.fut (futKey (s.g 6).toNat)).count)
    ∧ (y.Filled [6, 2] ∧ y.futLive (y.g 6).toNat = true ∧ y.futLost (y.g 6).toNat = false ∧ (y.fut (futKey (y.g 6).toNat)).held = true
      ∧ (y.fut (futKey (y.g 6).toNat)).parent = y.meHolder ∧ 16 ≤ y.cur.ctx)
    ∧ (∀ p ∈ [((7 : BitVec 5), FutSt.faulted), (8, .ready), (9, .running)],
        (s.fut (futKey (s.g p.1).toNat)).st = p.2 ∧ (s.fut (futKey (s.g p.1).toNat)).count = 1) := by
  delta State.Filled; decide +kernel

/-- A graph of two nodes: a running TASK node whose task is future 1, with one edge to node 1. -/
def withGraph (s : State) : State :=
  { s.modFut 1 (fun f => { f with node := some (0, 0) }) with
    graphs := [(0, { nodes := [{ kind := 1, e0 := [1], st := .running, fut := some 1 }, { kind := 5, ndep := 1, ctr := 1 }], fut := 5 })] }

theorem witness_EndingAndYielding :
    let s := futures (aCtx [(1, 9)])
    let u := withSc s (fun t => { t with entries := [{ owner := s.myOwner }] })
    (s.Filled [1] ∧ s.settledFor 0 0 (s.ownIds 0 s.myOwner) = true ∧ s.cur.ctx < 16 ∧ 16 ≤ (inCtx 18 (aCtx [])).cur.ctx)
    ∧ u.settledFor 0 0 (u.ownIds 0 u.myOwner) = false
    ∧ s.toSignal (futKey s.me.fut.toNat) (0 : BitVec 14).toNat = none
    ∧ (withGraph s).toSignal (futKey (withGraph s).me.fut.toNat) (0 : BitVec 14).toNat = some (0, 0, [0])
    ∧ (withGraph s).settledFor 0 0 ((withGraph s).ownIds 0 (withGraph s).myOwner) = true
    ∧ (withGraph u).toSignal (futKey (withGraph u).me.fut.toNat) (16383 : BitVec 14).toNat = some (0, 0, [0])
    ∧ (withGraph u).settledFor 0 0 ((withGraph u).ownIds 0 (withGraph u).myOwner) = false := by
  delta State.Filled; decide +kernel

/-- The task of future 1 in context 0, with children 6 and 9, barrier 0, stream 0, one of two tasks of launch 0; and what its end
drops from. -/
def leaving : State :=
  let s := futures { aCtx [] with members := [{ h := 0 }] }
  withSc { s.modFut 1 (fun f => { f with launch := some 0, kids := [futHandle 6 0, futHandle 9 0] }) with launches := [(0, { count := 2 })] }
    (fun t => { t with bars := [(0, { used := true, exp := 2 })], streams := [(0, { owner := .task (futHandle 1 0) })] })

/-- The conditions on which the terms say more of the end of a task. -/
theorem witness_EndingAndYielding_over :
    let s := leaving
    let v := s.ending 0 0 .done 0 9
    let w := (s.modFut 1 (fun f => { f with launch := none })).ending 0 0 .done 0 9
    let one := ({ s with launches := [] } : State)
    ((s.fut 1).node = none ∧ ((s.fut 1).kids.map futKey).Nodup ∧ 1 ∉ (s.fut 1).kids.map futKey ∧ (w.fut 1).launch = none)
    ∧ (v.futLive (futHandle 6 0) = true ∧ (v.fut 6).held = true ∧ (v.fut 6).count ≠ 1
      ∧ ((v.modFut 6 (fun f => { f with count := 1 })).fut 6).st = .done
      ∧ ((v.modFut 9 (fun f => { f with held := true })).fut 9).st = .running ∧ (v.fut 9).count = 1)
    ∧ (((s.ctx 0 0).members.map Member.h).Nodup ∧ v.barOk 0 0 = true ∧ (v.barrier 0 0).exp ≠ 0 ∧ ({ h := 0 } : Member).dropped = false)
    ∧ (tget (v.sc 0).streams 0 = some { owner := .task (futHandle 1 0) } ∧ s.handleOf 1 = futHandle 1 0)
    ∧ ((v.fut 1).count = 1 ∧ (v.fut 1).st = .done ∧ one.launches = [])
    ∧ (tget v.launches 0 = some { count := 2 } ∧ ({ count := 2 } : Launch).ended + 1 < 2) := by
  decide +kernel

/-- Barriers 0, of two arrivals, and 1, of none, of SC 0. -/
def barriers (x : Barrier) : State :=
  withSc (inCtx 0 (aCtx [(1, 0), (2, 1), (3, 65535), (4, 2)])) (fun t => { t with
    bars := [(0, x), (1, { used := true })] })

theorem witness_Barriers :
    let s := barriers { used := true, exp := 2 }
    let u := barriers { used := true, exp := 2, arr := 1 }
    let m := withSc s (fun t => { t with ctxs := [(0, { aCtx [(1, 0)] with members := [{ h := 0, phase := 4 }] })] })
    (s.Filled [5, 1, 3] ∧ (s.g 1).toNat ≤ 1 ∧ (s.g 3).toNat = 65535 ∧ (s.pickBar 0 0).isSome = true ∧ s.Settled)
    ∧ ({ s with topo := { s.topo with halves := 0 } } : State).pickBar 0 1 = none
    ∧ ((s.g 2).toNat = 1 ∧ 1 < (s.g 3).toNat ∧ s.g 0 = 0)
    ∧ ((withSc s (fun t => { t with ctxs := [(0, { aCtx [] with members := List.replicate 4 { h := 5 } })] })).me.member 0 = none
      ∧ 4 ≤ (List.replicate 4 ({ h := 5 } : Member)).length)
    ∧ (s.barOk 0 0 = true ∧ (s.barrier 0 0).exp ≠ 0 ∧ s.me.members.length < 4 ∧ (s.barrier 0 0).arr + 1 < (s.barrier 0 0).exp
      ∧ (s.barrier 0 0).phase = s.me.waitsFor 0 (s.barrier 0 0))
    ∧ (u.barrier 0 0).exp ≤ (u.barrier 0 0).arr + 1 ∧ ((s.barOk 0 (barHandle 0 1 0) = true) ∧ (s.barrier 0 (barHandle 0 1 0)).exp = 0)
    ∧ (m.barOk 0 0 = true ∧ (m.barrier 0 0).phase ≠ m.me.waitsFor 0 (m.barrier 0 0)) ∧ s.barOk 0 (s.g 4).toNat = false := by
  delta State.Filled State.Settled; decide +kernel

/-- A graph of one BARRIER node in memory: its descriptor at 0x4000 and its node at 0x4100. -/
def graphMem : State :=
  (futures { aCtx [(1, 0x2000), (2, 5), (3, 0x4000), (4, aHandle 5), (5, aHandle 4)] with wait := none }).write 0x4000
    (natBytes 8 0x4100 ++ natBytes 8 0x4200 ++ natBytes 4 1 ++ natBytes 236 0 ++ natBytes 32 5)

def okGraph (s : State) (n c va m : Nat) : Bool :=
  match (s.readGraph n c va).1 with
  | .ok p => decide (m + p.1.n ≤ 65536)
  | .error _ => false

theorem graph_of (s : State) (n c va m : Nat) (h : okGraph s n c va m = true) :
    ∃ g ns, (s.readGraph n c va).1 = .ok (g, ns) ∧ m + g.n ≤ 65536 := by
  unfold okGraph at h
  cases e : (s.readGraph n c va).1 with
  | ok p => rw [e] at h; exact ⟨p.1, p.2, rfl, of_decide_eq_true h⟩
  | error _ => rw [e] at h; cases h

/-- How a read of a graph ends that gives none. -/
def badGraph (s : State) (c va : Nat) : Option Halt :=
  match (s.readGraph 0 c va).1 with
  | .ok _ => none
  | .error h => some h

/-- 65,536 nodes in the walker of hub 0. -/
def fullWalker : Tab Graph := (List.range 256).map (fun k => (k, { nodes := List.replicate 256 {} }))

/-- 4,096 contexts that watch a flag of half 0. -/
def watching : Tab Sc :=
  (List.range 16).map (fun n => (n + 1, { ctxs := (List.range 256).map (fun c => (c, { aCtx [] with
    st := .blocked, wait := some (.flag 0x2000 5 false) })) }))

theorem witness_FlagWatchesAndGraphs :
    let s := graphMem
    let x := plainAt 0x2000
    (∃ g ns, (s.readGraph 0 0 0x4000).1 = .ok (g, ns) ∧ s.residentNodes 0 + g.n ≤ 65536)
    ∧ (s.Filled [1, 2] ∧ s.Filled [1, 0] ∧ s.me.flagMet = false ∧ (s.walked (s.g 1) 8).check false (s.g 1) 8 = .ok x ∧ s.watches 0 < 4096
      ∧ s.flagValue 0x2000 = 0 ∧ (s.g 0).toNat = 0 ∧ (s.g 2).toNat = 5 ∧ s.me.wait = none)
    ∧ (withSc s (fun t => { t with ctxs := [(0, { aCtx [(1, 0x2000)] with wait := some (.flag 0x2000 0 true) })] })).me.flagMet = true
    ∧ (s.Filled [6, 3] ∧ (s.g 3).toNat = 0x4000 ∧ ((s.readGraph 0 0 0x4000).2.leaveTagQ.allocFut 0).isSome = true ∧ s.Settled ∧ s.PortQuiet
      ∧ s.mySc.lines = [])
    ∧ ({ s with topo := { s.topo with halves := 0 } } : State).allocFut 0 = none
    ∧ (badGraph s 0 0x4004 = some (.trap 3 0x4004) ∧ badGraph { s with pkts := everyTag } 0 0x4000 = some (.tag 0) ∧ s.cur.ctx < 20)
    ∧ ¬(waiting s { port := 0, owner := s.myOwner }).Settled
    ∧ (s.futLost (s.g 4).toNat = false ∧ s.futLive (s.g 4).toNat = true ∧ (s.fut (futKey (s.g 4).toNat)).graph = true)
    ∧ (s.futLost (s.g 5).toNat = false ∧ s.futLive (s.g 5).toNat = true ∧ (s.fut (futKey (s.g 5).toNat)).graph = false) := by
  refine ⟨graph_of _ _ _ _ _ (by decide +kernel), ?_⟩
  delta State.Filled State.Settled State.PortQuiet; decide +kernel

/-- The tables of hub 0 full. -/
theorem witness_FlagWatchesAndGraphs_full :
    4096 ≤ ({ scs := watching } : State).watches 0 ∧ 65536 < ({ graphs := fullWalker } : State).residentNodes 0 + 1 := by
  decide +kernel

/-! ### Translation and read-duplicate pages -/

/-- No pin, one over the address, one over what a commit changes; and a staging register that is not valid. -/
theorem witness_TranslationInstructions :
    let s := inCtx 18 (aCtx [(1, 0x1000), (2, 2 ^ 63)])
    let p := withSc s (fun t => { t with entries := [{ pins := [{ lo := 0x1000, hi := 0x1004 }] }] })
    let h := { p with rngStage := [(0, 0), (1, 0x1000D), (2, 0), (3, 0)] }
    (s.Filled [3, 1] ∧ s.Filled [3, 2] ∧ isSystem s.cur.ctx = true ∧ canonical (s.g 2).toNat = false ∧ canonical (s.g 1).toNat = true)
    ∧ (s.pinned s.myAsid (some 0x1000) = false ∧ p.pinned p.myAsid (some 0x1000) = true ∧ s.pinned s.myAsid none = false
      ∧ p.pinned p.myAsid none = true)
    ∧ ((∀ q, q < 64 → s.stageOk 0 q = true) ∧ s.committing = [] ∧ s.commitHeld 0 = false)
    ∧ ((∀ q, q < 64 → h.stageOk 0 q = true) ∧ h.commitHeld 0 = true)
    ∧ (∃ q, q < 64 ∧ ({ s with rngStage := [(1, 1)] } : State).stageOk 0 q = false) := by
  delta State.Filled; decide +kernel

/-- DUP record 0: frame 4 MiB, leaf table 0x7000, level-1 entry at 0x8000, holders this package (0) and package 3. -/
def dupPages (d : DupPage) (w : Option Wait := none) : State :=
  { inCtx 18 { aCtx [(1, 0x410000), (2, 0), (3, 3), (4, 2 ^ 41), (6, 1)] with wait := w } with
    drec := [(0, 2 ^ 63 + 0x400000), (1, 0x7000), (2, 0x8000), (3, 2), (4, 0x30000)], dup := [(0, d)] }

/-- The page of a page WHOLE; SPLIT, the other holder's part done or not; with block 1 owned by package 3, live or dead, or by this
package; an operation of another context ahead; and one whose home is package 3. -/
theorem witness_ReadDuplicatePages :
    let whole := dupPages {}
    let shared := dupPages { split := true }
    let acked := dupPages { split := true, acks := [3] }
    let owned := dupPages { split := true, owned := [(1, 3)] }
    let dead := { owned with fab := { dead := [3] } }
    let busy := dupPages { split := true, ops := [{ who := some (1, 19), act := .split }] }
    let away := { shared with drec := [(0, 2 ^ 63 + 0x400000), (1, 0x7000), (2, 0x8000), (3, 2), (4, 3)] }
    (∀ s ∈ [whole, shared, acked, owned, dead, busy, away], s.Filled [5, 1, 2] ∧ s.Filled [5, 1, 3] ∧ isSystem s.cur.ctx = true
      ∧ s.me.wait = none ∧ s.dupRec (s.g 1).toNat = some 0 ∧ s.isDead (s.dupHome 0) = false
      ∧ (s.holds 0).contains 3 = true ∧ (s.holds 0).contains 0 = true ∧ s.pkgid = 0 ∧ (s.g 1).toNat / 2 ^ 16 % 32 = 1
      ∧ (s.g 2).toNat = 0 ∧ (s.g 3).toNat = 3 ∧ (s.g 6).toNat = 1 ∧ (s.dupPage 0).mine = false)
    ∧ (∀ s ∈ [whole, shared, owned, dead], s.dupHome 0 = s.pkgid ∧ (s.dupPage 0).ops = [])
    ∧ ((whole.dupPage 0).split = false ∧ whole.othersDone 0 = false)
    ∧ (shared.dupOwner 0 1 = none ∧ shared.othersDone 0 = false ∧ acked.othersDone 0 = true ∧ (acked.dupPage 0).ops = [])
    ∧ (owned.dupOwner 0 1 = some 3 ∧ owned.isDead 3 = false ∧ (owned.dupPage 0).block = none)
    ∧ (dead.dupOwner 0 1 = some 3 ∧ dead.isDead 3 = true ∧ dead.othersDone 0 = true)
    ∧ ((busy.dupPage 0).ops = { who := some (1, 19), act := .split } :: [] ∧ some ((1 : Nat), (19 : Nat)) ≠ some (busy.cur.sc, busy.cur.ctx)
      ∧ busy.dupOwner 0 1 = none)
    ∧ (away.dupHome 0 ≠ away.pkgid ∧ (away.dupPage 0).ops = [] ∧ away.dupOwner 0 1 = none)
    ∧ ({ away with fab := { dead := [3] } } : State).isDead (away.dupHome 0) = true
    ∧ ((whole.holds 0).contains 1 = false ∧ whole.dupRec (whole.g 4).toNat = none) := by
  delta State.Filled; decide +kernel

/-- What a PDUP and a POWN here wait for has come from package 3, the owner; and one whose part is done. -/
theorem witness_ReadDuplicatePages_waits :
    let s (a : DupAct) (m : Bool) : State := dupPages { split := true, owned := [(1, 3)], ops := [{ who := some (0, 18), act := a }],
                                                        block := some (7, List.replicate 4 9), mine := m } (some (.page 0))
    ∀ a ∈ [DupAct.dup 1 true, .own 1 (s .split false).pkgid], ∀ m ∈ [true, false], (s a m).Filled [5, 1, 2] ∧ isSystem (s a m).cur.ctx = true
      ∧ (s a m).me.wait = some (.page 0)
      ∧ ((s a m).dupPage 0).ops = { who := some ((s a m).cur.sc, (s a m).cur.ctx), act := a } :: [] ∧ ((s a m).dupPage 0).split = true
      ∧ (s a m).dupOwner 0 1 = some 3 ∧ (3 : Nat) ≠ (s a m).pkgid ∧ (s a m).isDead 3 = false ∧ ((s a m).dupPage 0).mine = m
      ∧ ((s a m).dupPage 0).block = some (7, List.replicate 4 9) ∧ (s a m).dupRec ((s a m).g 1).toNat = some 0 := by
  delta State.Filled; decide +kernel

/-- The clause of POWN between two other holders: a third, 5, takes the block from 3; and the one that names the owner. -/
theorem witness_ReadDuplicatePages_others :
    let s := { dupPages { split := true, owned := [(1, 3)] } with
                 drec := [(0, 2 ^ 63 + 0x400000), (1, 0x7000), (2, 0x8000), (3, 3), (4, 0x500030000)] }
    (s.holds 0).contains 5 = true ∧ s.dupOwner 0 1 = some 3 ∧ (3 : Nat) ≠ 5 ∧ (3 : Nat) ≠ s.pkgid ∧ (5 : Nat) ≠ s.pkgid
    ∧ (s.dupPage 0).ops = [] ∧ (s.dupPage 0).split = true ∧ (s.g 3).toNat = 3 := by
  decide +kernel

/-! ### Events of the clusters -/

/-- SC 0 with a run 1 in its scoreboard and a kernel save area. -/
def waitingRun (x : Run) (rs : Tab Run) : State :=
  { scs := [(0, { entries := [{ id := 1, work := .run }], nextEntry := 2, runs := tput rs 1 x, ksp := 0x1000001, streams := [(0, {})] })] }

/-- A run that starts, completes, is stopped, is saved, comes back, and pre-empts another. -/
theorem witness_KernelRunLife :
    let s := waitingRun { phase := .waiting } []
    let c := waitingRun { phase := .running, halted := true, ports := [(0, { dir := .out, n := 7 })] } []
    let o := withSc { c with futs := [(4, { st := .running })] } (fun t => { t with runs := tmod t.runs 1 (fun r => { r with owner := .ctx 18 }),
                                                                                    ctxs := [(18, aCtx [])] })
    let m := waitingRun { phase := .running, preempt := true, by' := some 2 } [(2, { phase := .waiting })]
    let w := waitingRun { phase := .saved, by' := some 2 } [(2, {})]
    let e := waitingRun { phase := .waiting, cls := 1, g := 16 } [(2, { phase := .running, g := 16 })]
    (s.canStart 0 1 = some (0, 0) ∧ ∀ x ∈ (s.sc 0).entries, x.id < 1 → s.canStart 0 x.id = none)
    ∧ ((c.run 0 1).phase = .running ∧ (c.run 0 1).halted = true ∧ (c.run 0 1).drained = true ∧ (c.run 0 1).stop = false
      ∧ c.ownerStands 0 (c.run 0 1).owner = false ∧ o.ownerStands 0 (o.run 0 1).owner = true)
    ∧ ((waitingRun { phase := .saved, stop := true } []).run 0 1).stop = true
    ∧ ((m.run 0 1).phase = .running ∧ (m.run 0 1).preempt = true ∧ (m.run 0 1).stop = false ∧ (m.run 0 1).by' = some 2
      ∧ (m.run 0 2).phase = .waiting ∧ thas (m.sc 0).runs 2 = true ∧ (m.run 0 1).halted = false ∧ (m.run 0 1).tldx = 0 ∧ (m.run 0 1).idle = 0
      ∧ bitNat (m.sc 0).ksp.toNat 0 = true ∧ m.ueSectors = [])
    ∧ ((w.run 0 1).phase = .saved ∧ (w.run 0 1).stop = false ∧ (w.run 0 2).phase = .retired ∧ (w.sc 0).holding .running 0 4 = []
      ∧ (w.sc 0).freeSeq = some 0)
    ∧ (((e.sc 0).runs.map Prod.fst).Nodup ∧ (e.run 0 1).phase = .waiting ∧ e.preemptGroup 0 1 = some 0 ∧ e.pthrOver 0 1 = true
      ∧ ∀ p ∈ (e.sc 0).runs, e.pthrOver 0 p.1 = true → ¬(1 < p.2.cls ∨ (1 = p.2.cls ∧ p.1 < 1))) := by
  decide +kernel

/-- A marked run before its boundary, or with a weight read under way; marks that no longer hold; and a group that a run which issues
bundles shares with one that has halted. -/
theorem witness_KernelRunLife_marks :
    let m (x : Run) (rs : Tab Run) : State := waitingRun { x with phase := .running, preempt := true, by' := some 2 } rs
    let w : Tab Run := [(2, { phase := .waiting })]
    let e := waitingRun { phase := .waiting, cls := 1, g := 16 }
      [(2, { phase := .running, g := 8 }), (3, { phase := .running, g := 8, first := 8, halted := true })]
    (((m { idle := 3 } w).run 0 1).idle ≠ 0 ∧ ((m { tldx := 3 } w).run 0 1).tldx ≠ 0 ∧ ((m { tldx := 3 } w).run 0 1).idle = 0)
    ∧ (((m {} [(2, {})]).run 0 2).phase ≠ .waiting ∧ thas ((m {} []).sc 0).runs 2 = false ∧ ((m { halted := true } w).run 0 1).halted = true
      ∧ bitNat ((withSc (m {} w) (fun t => { t with ksp := 0 })).sc 0).ksp.toNat 0 = false)
    ∧ (((e.sc 0).runs.map Prod.fst).Nodup ∧ e.preemptGroup 0 1 = some 0 ∧ e.pthrOver 0 1 = true
      ∧ ((e.sc 0).holding .running 0 16).map (fun p => p.2.halted) = [false, true]) := by
  decide +kernel

/-- What the save area's clauses suppose of memory. -/
theorem witness_KernelRunLife_memory :
    let m := waitingRun { phase := .running, preempt := true, by' := some 2 } [(2, { phase := .waiting })]
    m.Safe ∧ ∀ st off, m.mode st off = 0 :=
  ⟨safe_of _ (by decide +kernel) (by decide +kernel), fun _ _ => rfl⟩

theorem witness_CycleEvents :
    let f : FlyRow := { n := 3 }
    let s := inRun { aRun with tldx := 1, halted := true, drain := true }
    let t := inRun { aRun with idle := 2, passes := [{ left := 2, row := 5 }, {}], fly := [f] }
    ((s.run 0 0).phase = .running ∧ (s.run 0 0).flyDue false = [] ∧ (s.run 0 0).flyDue true = [] ∧ (s.run 0 0).tldx = 1
      ∧ (s.run 0 0).between = true ∧ (s.run 0 0).entered = false ∧ (s.run 0 0).due = [] ∧ (s.run 0 0).drain = true)
    ∧ ((t.run 0 0).between = true ∧ (t.run 0 0).passes = { left := 2, row := 5 } :: [{}] ∧ (t.run 0 0).drain = false
      ∧ (t.run 0 0).flyDue false = [])
    ∧ ((inRun aRun).run 0 0).between = false := by
  decide +kernel

/-- Sums of every kind; weights and tags that meet and that do not; and banks in the mode of a row, in the other, and none. -/
theorem witness_CycleEvents_rows :
    let r (fmt tag : Nat) : Run := { aRun with active := { fmt := fmt }, slots := [(0, { tag := tag })], banks := [(0, {}), (1, { part := true })] }
    let one : FVal := .fin false 1 0
    ((FVal.nan ∈ [FVal.nan] ∧ FVal.inf true ∈ [FVal.inf false, .inf true] ∧ FVal.inf true ∉ [FVal.inf false]
        ∧ FVal.nan ∉ [FVal.inf false])
      ∧ (∃ b m e, FVal.fin b m e ∈ [one] ∧ m ≠ 0) ∧ ∃ b e, FVal.fin false 0 0 = FVal.fin b 0 e)
    ∧ (∀ p ∈ [(2, 2), (3, 3), (4, 4), (7, 5), (8, 6), (9, 5), (2, 3)], (r p.1 p.2).active.fmt = p.1 ∧ (r p.1 p.2).slotTag 0 = p.2)
    ∧ (tget (r 2 2).banks 0 = some {} ∧ tget (r 2 2).banks 1 = some { part := true } ∧ tget (r 2 2).banks 2 = none
      ∧ ({ sums := [List.replicate 64 1] } : FlyRow).parts = false ∧ ({ parts := true } : FlyRow).parts = true
      ∧ (([List.replicate 64 (1 : Int)] : List (List Int)).headD []).length / 16 = 4) := by
  refine ⟨⟨by decide, ⟨false, 1, 0, by decide⟩, ⟨false, 0, rfl⟩⟩, ?_, ?_⟩ <;> decide +kernel

theorem witness_ContextEvents :
    let s := inCtx 0 { aCtx [] with apend := [(0x10, 7), (0x22, 0)] }
    let b (w : Wait) := inCtx 0 { aCtx [] with st := .blocked, wait := some w }
    let a := withSc s (fun t => { t with arrivals := [{ pc := 0x40 }] })
    ((s.ctx 0 0).trapDue = true ∧ (s.ctx 0 0).apend = (0x10, 7) :: [(0x22, 0)])
    ∧ ((inCtx 0 { aCtx [] with pause := 1 }).ctx 0 0).pause = 1
    ∧ ((b .room).ctx 0 0).wait = some .room ∧ ((b .room).ctx 0 0).st = .blocked ∧ (b .room).waitOver 0 0 .room = true
    ∧ (withSc (b (.retired [3])) (fun t => { t with entries := [{ id := 3 }] })).waitOver 0 0 (.retired [3]) = false
    ∧ ((a.sc 0).arrivals = { pc := 0x40 } :: [] ∧ (a.ctx 0 16).st = .free)
    ∧ ((withSc a (fun t => { t with ctxs := tput t.ctxs 16 (aCtx []) })).ctx 0 16).st ≠ .free
    ∧ ((withSc a (fun t => { t with ctxs := tput t.ctxs 16 (aCtx []) })).ctx 0 17).st = .free := by
  decide +kernel

/-- SC 0 with one entry. -/
def entered (e : Entry) : State := { scs := [(0, { entries := [e], nextEntry := 4, streams := [(0, {})] })] }

/-- That entry is found. -/
def found (e : Entry) : Bool := ((entered e).sc 0).entry? 3 == some e

/-- The number of bytes that the step of its job moves. -/
def moved (e : Entry) : Option (List Nat) := ((entered e).jobStep 0 e).map (fun t => (t.sc 0).entries.map Entry.done)

/-- Entries that start, that move, that have finished, early or not, with a remote operation to come or none, and that complete; and
an image and a stream that go. -/
theorem witness_EntriesRunToCompletion :
    let w : Entry := { id := 3, work := .fill 0 5 true 2 }
    let g : Entry := { w with st := .started }
    let d : Entry := { id := 3, st := .started, work := .sreset 0 }
    let z : Entry := { g with idone := 2 }
    let l : Entry := { id := 3, st := .started, work := .load {} 0 none }
    let c : Entry := { id := 3, st := .started, work := .copy (.range 0x100 8) (.range 0x200 8) 8 }
    let q : Entry := { id := 3, st := .started, work := .decomp 0x1000 1 0 0x100 false }
    let e : Entry := { id := 3, st := .started, work := .rsig {} }
    let r : Entry := { id := 3, st := .retired, work := .rsig {}, sent := true }
    let u := withSc (entered r) (fun t => { t with images := [(5, { freed := true })], streams := [(0, { dying := true })] })
    ((∀ x ∈ [w, g, d, z, l, c, q, e, r, { r with remote := [1] }, { z with remote := [1] }], found x = true)
      ∧ ((entered w).sc 0).couldStart w = true)
    ∧ (g.work.engine = .agent ∧ moved g = some [0] ∧ g.idone < 2 ∧ ((entered g).stream 0 0).space ≠ 0 ∧ d.idone = 0)
    ∧ (c.work.engine = .copier ∧ moved c = some [8])
    ∧ (q.work.engine = .dce ∧ moved q = some [1] ∧ (entered q).dceWork (twin 0) = false ∧ ((entered q).sc 0).dceFirst = some 3)
    ∧ (e.finished = true ∧ e.work.early = true)
    ∧ (z.finished = true ∧ z.work.early = false ∧ z.remote = [] ∧ z.work.status = 0 ∧ l.finished = true ∧ l.work.early = false
      ∧ ({ z with remote := [1] } : Entry).remote ≠ [])
    ∧ (r.st = .retired ∧ r.sent = true ∧ r.remote = [] ∧ r.flag = none ∧ ({ r with flag := some 0x100 } : Entry).flag = some 0x100
      ∧ ({ r with remote := [1] } : Entry).remote ≠ [])
    ∧ (tget (u.sc 0).images 5 = some { freed := true } ∧ (∀ r ∈ (u.sc 0).runs, r.2.kernel = 5 → r.2.gen = 0 → r.2.phase = .retired)
       ∧ tget (u.sc 0).streams 0 = some { dying := true } ∧ ∀ z ∈ (u.sc 0).entries, z.uses 0 = true → z.st = .retired) := by
  decide +kernel

def isNext (r : Result) : Bool :=
  match r with
  | .next _ => true
  | .fault _ => false
  | .refused _ => false

/-! ### Events of tasks, launches and graphs -/

/-- Future 0 READY with a slice, in a region whose mask and context pool admit it; context 18 runs. -/
theorem witness_TaskEvents_dispatch :
    ∃ y, aTask.pick aTask.cands = some y ∧ y.fut = some 0 ∧ aTask.placeOf y = some 0 ∧ aTask.freeTask 0 = some 0
      ∧ tget aTask.sleepers 0 = none :=
  ⟨aTask.sliceCand { fut := 0 }, by decide +kernel⟩

theorem witness_TaskEvents :
    let s := futures { aCtx [] with bud := 0 }
    let e := futures { aCtx [] with st := .blocked, wait := some (.ending [] 0 3) }
    let f := withGraph (futures { aCtx [] with st := .blocked, wait := some (.early [] 0) })
    let r := { futures (aCtx []) with futs := [(1, { st := .reclaimed, sc := some 0 })] }
    ((s.ctx 0 0).st = .ready ∧ (s.ctx 0 0).bud = 0 ∧ (s.ctx 0 0).midway = false ∧ s.ctxReclaimed 0 0 = false)
    ∧ ((e.ctx 0 0).wait = some (.ending [] 0 3) ∧ e.settledFor 0 0 [] = true ∧ e.ctxReclaimed 0 0 = false)
    ∧ ((f.ctx 0 0).wait = some (.early [] 0) ∧ f.settledFor 0 0 [] = true
      ∧ f.toSignal (futKey (f.ctx 0 0).fut.toNat) 0 = some (0, 0, [0]) ∧ f.toSignal (futKey (f.ctx 0 0).fut.toNat) 1 = none)
    ∧ (r.isReclaimed 1 = true ∧ (r.fut 1).graph = false ∧ r.locate 1 = .inCtx 0 0 ∧ (r.ctx 0 0).st = .ready)
    ∧ (r.isReclaimed 1 = true ∧ ({ r with scs := [] } : State).locate 1 = .nowhere)
    ∧ ({ r with scs := [], sleepers := [(1, {})] } : State).locate 1 = .asleep 0
    ∧ ((inCtx 18 { aCtx [] with st := .blocked, wait := some (.ending [] 0x40 3) }).settledFor 0 18 [] = true
      ∧ (inCtx 18 { aCtx [] with st := .blocked, wait := some (.ending [] 0x40 3) }).ctxReclaimed 0 18 = false) := by
  decide +kernel

/-- A reclaimed task that is BLOCKED, or TRAPPED and still in the queue or handed over; with a run, a child, a barrier and a stream; and a
graph with two node tasks. -/
theorem witness_TaskEvents_reclaimed :
    let x (st : CtxSt) : Ctx := { aCtx [] with st := st, fut := aHandle 1, members := [{ h := 0 }] }
    let s (st : CtxSt) : State := { leaving with
      futs := tmod leaving.futs 1 (fun f => { f with st := .reclaimed, launch := none }),
      scs := [(0, { leaving.sc 0 with ctxs := [(0, x st)], runs := [(0, { phase := .running, owner := .task (futHandle 1 0) })] })] }
    let q := withSc (s .trapped) (fun t => { t with trapQ := [0] })
    let g : State := { futs := [(5, { st := .reclaimed, graph := true }), (1, { st := .running, count := 1 }), (2, { st := .running, count := 2 }),
                                (3, { st := .ready, count := 1 })],
                       graphs := [(0, { nodes := [{ fut := some 1 }, { fut := some 2 }, { fut := some 3 }, {}], fut := 5 })] }
    (∀ t ∈ [s .ready, s .blocked, s .trapped, q], t.isReclaimed 1 = true ∧ (t.fut 1).graph = false ∧ t.locate 1 = .inCtx 0 0
      ∧ futKey (t.ctx 0 0).fut.toNat = 1 ∧ t.handleOf 1 = futHandle 1 0)
    ∧ (((s .blocked).ctx 0 0).st = .blocked ∧ (q.ctx 0 0).st = .trapped ∧ 0 ∈ (q.sc 0).trapQ ∧ 0 ∉ ((s .trapped).sc 0).trapQ)
    ∧ (((s .blocked).fut 1).node = none ∧ 1 ∉ ((s .blocked).fut 1).kids.map futKey)
    ∧ (g.isReclaimed 5 = true ∧ (g.fut 5).graph = true ∧ (g.graphs.find? (fun p => p.2.fut == 5)).isSome = true
      ∧ ([1, 2, 3] : List Nat).Nodup ∧ 5 ∉ ([1, 2, 3] : List Nat) ∧ (g.fut 1).count = 1 ∧ (g.fut 1).st = .running ∧ (g.fut 2).count ≠ 1
      ∧ (g.fut 3).st = .ready ∧ (g.fut 3).count = 1)
    ∧ ((s .blocked).sc 0).runs = [(0, { phase := .running, owner := .task (futHandle 1 0) })] := by
  decide +kernel

/-- Queue 0, of two entries at 0x8000, one published: a TASK launch of one task in the region at 0x9000, which is resident. -/
def launches (kind flags count flag : Nat) (infl : Nat) : State :=
  ({ queues := [(0, { base := 0x8000, en := true, log2 := 1, tail := 1, infl := infl })],
     regions := [(0x9000, { ovr := 8, mask := 1 })] } : State).write 0x8000
    (natBytes 1 kind ++ natBytes 1 flags ++ natBytes 2 0 ++ natBytes 4 count ++ natBytes 8 0x400 ++ natBytes 8 7 ++ natBytes 8 0x9000
      ++ natBytes 16 0 ++ natBytes 8 flag ++ natBytes 8 0)

/-- What a launch in queue 0 reads and admits into the hub's table. -/
def regioned (s : State) (rcb : Nat) : State :=
  let v := s.cpRead 0 (s.nextAddr 0) 64
  (v.readRcbs 0 rcb).putRegions 0 ((v.readChain 8 rcb).getD [])

def descIn (s : State) : Desc := descOf (s.nextDesc 0)

/-- Hub 0's table with 2,049 regions, that of the launch among them. -/
def crowded : State :=
  { launches 1 0 1 0 0 with regions := (List.range 2049).map (fun k => (128 * (k + 1), { ovr := 8, mask := 1, hubs := [0] })) }

theorem witness_LaunchReads :
    let s := launches 1 0 1 0 0
    let z := launches 1 0 0 0 0
    let big := launches 1 0 (2 ^ 24 + 1) 0 0
    let o := launches 1 1 1 0 3
    ((s.queue 0).ready = true ∧ (s.queue 0).head < 2 ^ (s.queue 0).log2 ∧ 1 ≤ (s.queue 0).log2)
    ∧ flagOk' s.topo (descIn (launches 1 0 1 8 0)) = false
    ∧ (flagOk' big.topo (descIn big) = true ∧ 2 ^ 24 < (descIn big).count)
    ∧ (flagOk' o.topo (descIn o) = true ∧ (descIn o).count ≤ 2 ^ 24 ∧ bitNat (descIn o).flags 0 = true ∧ (o.queue 0).infl ≠ 0)
    ∧ (flagOk' z.topo (descIn z) = true ∧ (descIn z).count = 0)
    ∧ (flagOk' s.topo (descIn s) = true ∧ (descIn s).count = 1 ∧ (descIn s).shapeOk = true
      ∧ (descIn s).kind = 1 ∧ (descIn s).rcb = 0x9000 ∧ bitNat (descIn s).flags 0 = false)
    ∧ (((s.cpRead 0 (s.nextAddr 0) 64).readChain 8 0x9000).isSome = true
      ∧ (regioned s 0x9000).admitOk (descIn s) = true ∧ (regioned s 0x9000).regionCount 0 ≤ 2048)
    -- refusals: of the shape, of the RCB, of the mask
    ∧ ((descIn (launches 3 0 1 0 0)).shapeOk = false
      ∧ (({ s with regions := [] } : State).cpRead 0 (s.nextAddr 0) 64).readChain 8 0x9000 = none
      ∧ (regioned { s with regions := [(0x9000, { ovr := 8, mask := 0 })] } 0x9000).admitOk (descIn s) = false) := by
  decide +kernel

theorem witness_LaunchReads_full : (regioned crowded 0x9000).admitOk (descIn crowded) = true ∧ 2048 < (regioned crowded 0x9000).regionCount 0 := by
  decide +kernel

/-- A GRAPH launch of the graph of one BARRIER node at 0x4000. -/
def graphLaunch : State :=
  ({ graphMem with queues := [(0, { base := 0x8000, en := true, log2 := 1, tail := 1 })], regions := [(0x9000, { ovr := 8, mask := 1 })] }
    : State).write 0x8000
    (natBytes 1 2 ++ natBytes 3 0 ++ natBytes 4 1 ++ natBytes 8 0 ++ natBytes 8 0x4000 ++ natBytes 8 0x9000 ++ natBytes 32 0)

theorem witness_LaunchReads_graph :
    let s := graphLaunch
    let u := regioned s 0x9000
    let f := regioned { s with topo := { s.topo with halves := 0 } } 0x9000
    (∃ g ns, (u.readGraph (u.hubSc 0x9000) hubCtx 0x4000).1 = .ok (g, ns) ∧ u.residentNodes (hubOf (u.hubSc 0x9000)) + g.n ≤ 65536)
    ∧ ((descIn s).kind = 2 ∧ (descIn s).shapeOk = true ∧ (descIn s).arg = 0x4000 ∧ (descIn s).rcb = 0x9000 ∧ u.admitOk (descIn s) = true
      ∧ u.regionCount 0 ≤ 2048 ∧ (u.allocFut 0).isSome = true ∧ (s.queue 0).ready = true ∧ flagOk' s.topo (descIn s) = true)
    ∧ (f.allocFut 0 = none ∧ (∃ e, badGraph u hubCtx 0x4004 = some e)) := by
  refine ⟨graph_of _ _ _ _ _ (by decide +kernel), by decide +kernel, by decide +kernel, .trap 3 0x4004, by decide +kernel⟩

/-- A graph of some nodes in SC 0's half; the hub reads 0x2000 through the page at 0. -/
def graphOf (xs : List Node) : State := { inCtx 18 (aCtx []) with graphs := [(0, { nodes := xs, fut := 5 })] }

def oneNode (x : Node) : State := graphOf [x]

/-- Its node i and graph 0 stand, idle with its counter at zero. -/
def stands (s : State) (i : Nat) (x : Node) : Bool :=
  ((tget s.graphs 0).bind (fun g => g.nodes[i]?)) == some x && x.st == .idle && x.ctr == 0

theorem witness_GraphNodes :
    let t : Node := { kind := 1 }
    let c : Node := { kind := 3, p0 := 0x2000 }
    let w : Node := { kind := 4, p0 := 0x2000, cap := 1, iters := 1 }
    let bad : Node := { kind := 3, p0 := 2 ^ 40 }
    let p : Node := { poisoned := true }
    let k : Node := { ndep := 1 }
    let j : Node := { kind := 2, st := .running, jobs := [(0, 2)] }
    let free (y : Node) (i : Nat) (s : State) : Bool := ((tget s.graphs 0).map (fun g => g.behind i y)) == some false
    ((∀ x ∈ [t, c, w, bad, p, k], stands (oneNode x) 0 x = true ∧ free x 0 (oneNode x) = true) ∧ k.normal = false ∧ t.ndep = 0)
    ∧ ((oneNode t).allocFut 0).isSome = true
    ∧ { oneNode t with topo := { (oneNode t).topo with halves := 0 } }.allocFut 0 = none
    ∧ (∀ x ∈ [c, w], (oneNode x).hubWord ((oneNode x).hubSc 0) x.p0 = .ok 0) ∧ w.cap ≤ w.iters
    ∧ (∃ e, (oneNode bad).hubWord ((oneNode bad).hubSc 0) bad.p0 = .error e)
    ∧ (stands (graphOf [t, c]) 1 c = true ∧ free c 1 (graphOf [t, c]) = false)
    ∧ ((tget (oneNode j).graphs 0).bind (fun g => g.nodes[0]?) = some j ∧ ∀ x ∈ j.jobs, notComplete ((oneNode j).sc x.1) x.2 = false)
    ∧ ({ ctr := 1 } : Node).ctr ≠ 0 := by
  refine ⟨?_, ?_, ?_, ?_, ?_, ⟨0x05, ?_⟩, ?_, ?_, ?_⟩ <;> decide +kernel

/-- A JOIN, a WHILE that iterates, and ends of nodes with and without others left. -/
theorem witness_GraphNodes_others :
    let w : Node := { kind := 4, p0 := 0x2000, cap := 2, iters := 1, p1 := 1 }
    let s := (graphOf [w, {}]).write 0x2000 (natBytes 8 7)
    let e (ns : List Node) (l : Option Nat) : State :=
      { graphs := [(0, { nodes := ns, fut := 5, launch := l })], futs := [(5, { st := .running, count := 1, graph := true })],
        launches := [(2, {})] }
    (stands s 0 w = true ∧ s.hubWord (s.hubSc 0) w.p0 = .ok 7 ∧ w.iters < w.cap ∧ w.inBody 0 = false ∧ w.inBody 1 = true)
    ∧ stands (oneNode {}) 0 {} = true
    ∧ ((tget (e [{}, { st := .running }] none).graphs 0).bind (fun g => g.nodes[1]?) = some { st := .running })
    ∧ (((e [{}, { st := .ended }] (some 2)).fut 5).st = .running ∧ ((e [{}] (some 2)).fut 5).count = 1
      ∧ tget (e [{}] (some 2)).launches 2 = some {} ∧ (tget (e [{}] none).graphs 0).map (fun g => g.launch) = some none) := by
  refine ⟨?_, ?_, ?_, ?_⟩ <;> decide +kernel

/-- A record of 64 or fewer FP32 or bx8 elements at an address. -/
def recAt (base fmt eb n : Nat) : List Byte :=
  natBytes 8 base ++ natBytes 1 fmt ++ natBytes 1 1 ++ natBytes 2 0 ++ natBytes 4 eb ++ natBytes 24 n ++ natBytes 48 eb
    ++ natBytes 24 0 ++ natBytes 24 n ++ natBytes 8 0 ++ natBytes 8 0x3800 ++ natBytes 8 0 ++ natBytes 32 0

/-- A TRANSFORM node with those records at hand, and the four words of SDECOMP at 0x2000. -/
def transforming (x : Node) : State :=
  withSc ((oneNode x).write 0x2000 (natBytes 8 0x6000 ++ natBytes 8 1 ++ natBytes 8 1 ++ natBytes 8 0x7000)) (fun t => { t with
    recs := [(0x1000, recAt 0x3000 1 4 64), (0x1100, recAt 0x4000 1 4 64), (0x1200, recAt 0x5000 3 1 64), (0x1300, recAt (2 ^ 40) 1 4 64)] })

/-- The number of jobs, or the cause of the trap. -/
def jobsOf (x : Node) (d : Nat) : Except Nat Nat := ((transforming x).nodeIssues 0 d x).map List.length

/-- Do the window checks let them enter? -/
def lets (s : State) (x : Node) : Option (Nat × Nat) :=
  match s.nodeIssues 0 0 x with
  | .ok l => l.findSome? (s.windowTrap 0)
  | .error _ => none

theorem witness_GraphNodes_transform :
    let cp : Node := { kind := 2, xop := 0x90, p0 := 0x1000, p1 := 0x1100 }
    let qu : Node := { cp with xop := 0x94, p1 := 0x1200 }
    let de : Node := { cp with xop := 0x96, p0 := 0x2000 }
    let bad : Node := { cp with p1 := 0x1200 }
    let off : Node := { cp with p1 := 0x1300 }
    let s := transforming cp
    let full := withSc s (fun t => { t with entries := List.replicate 32 { owner := slotOwner 0 } })
    let wait := { s with committing := [(0, 18)], rngStage := [(0, 0), (1, 0x1000D)] }
    (stands s 0 cp = true ∧ jobsOf cp 0 = .ok 1 ∧ jobsOf qu 0 = .ok 1 ∧ jobsOf de 3 = .ok 2 ∧ jobsOf bad 0 = .error 0x15 ∧ s.hubSc 0 = 0)
    ∧ ((s.nodeStream 0 0).isSome = true ∧ ({ s with topo := { s.topo with cores := [] } } : State).nodeStream 0 0 = none)
    ∧ (lets s cp = none ∧ lets (transforming off) off = some (5, 2 ^ 40))
    ∧ ((s.sc 0).roomFor (slotOwner 0) 1 = true ∧ (full.sc 0).roomFor (slotOwner 0) 1 = false)
    ∧ ((s.nodeIssues 0 0 cp).toOption.map (fun l => l.any (fun y => y.addresses.any s.commitHits)) = some false
      ∧ (wait.nodeIssues 0 0 cp).toOption.map (fun l => l.any (fun y => y.addresses.any wait.commitHits)) = some true) := by
  refine ⟨?_, ?_, ?_, ?_, ?_⟩ <;> decide +kernel

/-! ### Events of registers, base dies, the host and storage -/

theorem witness_RegisterWrites :
    let s := State.reset
    let d : State := { drec := [(1, 0x7000), (2, 0x8000), (3, 2), (4, 0x30000)] }
    let p (x : LockSt) : State := { ports := [(0, x)] }
    ((bitNat (0x101 : Word).toNat 8 = true ∧ (s.queue 4095).en = false ∧ (0x101 : Word).toNat % 32 = 1)
    ∧ (s.ringOk 4095 (s.queue 4095).base 1 = true ∧ s.mgmt.dead = false ∧ bitNat (0 : Word).toNat 8 = false))
    ∧ ({ queues := [(0, { en := true })] } : State).queue 0 = { en := true }
    ∧ ((d.drecV 0 = false ∧ d.drecOk 0 0x8000000000400000 = true) ∧ (bitNat (0x8000000000400000 : Word).toNat 63 = true
      ∧ d.drecOk 0 0x8000000000400001 = false))
    ∧ (s.lanesUnlocked = true ∧ ({ ports := [(8, .locked)] } : State).lanesUnlocked = false)
    ∧ ((s.sc 15).anySaved = false ∧ tagOffset 0x170000000 = true ∧ frameOffset 0x21FFFF8 = true)
    ∧ ((Machine.portOk 0 = true ∧ (p .unlocked).port 0 = .unlocked ∧ (p .locked).port 0 = .locked ∧ (p .run).port 0 = .run)
      ∧ ((p .run).portBusy 0 = false ∧ { p .run with hostRmw := [(default, 0)] }.portBusy 0 = true) ∧ (1 : Nat) % 8 ≠ 0) := by
  refine ⟨⟨?_, ?_⟩, rfl, ⟨?_, ?_⟩, ?_, ?_, ?_, ?_, ?_⟩ <;> decide +kernel

/-- Packet 0 of SC 0's port, to the first sector of stack 0, whose first 64 KiB may be compressed. -/
def sent (p : Packet) (m : Nat := 0) : State :=
  { inCtx 0 { aCtx [] with unfilled := [35] } with pkts := [(0, p)], fmap := if m = 0 then [] else [(0, m)] }

theorem witness_BaseDieRequests :
    let w : Packet := { ty := .masked, mask := [true, false, true], data := [1, 2, 3] }
    let a : Packet := { ty := .acc, fmt := 14, mask := List.replicate 4 true, data := [1, 2, 3] }
    let c : Packet := { a with op := 7, data := List.replicate 32 0 ++ [9] }
    let d : Packet := { done := true, who := .reg 0 (.ctx 0) 3 8 false }
    (∀ x ∈ [{}, w, a, c], tget (sent x).pkts 0 = some x ∧ (sent x).pktDue 0 x = true)
    ∧ ((sent w).writeStatus ((sent w).pktAddr w) w.bytes false = 0 ∧ (sent w).pktAddr w % 64 + w.len ≤ 64)
    ∧ (∀ x ∈ [a, c], (sent x).writeStatus ((sent x).pktAddr x) (x.accNew ((sent x).bytes ((sent x).pktAddr x) x.len)) true = 0
        ∧ (sent x).pktAddr x % 64 + x.len ≤ 64 ∧ x.big = false ∧ accBytes x.accFmt = 4)
    ∧ (inMemory (sent w 1).topo ((sent w 1).pktAddr w) = true ∧ stackOf (sent w 1).topo 0 = (0, 0)
      ∧ bitNat (sent w 1).topo.stks.toNat 0 = true ∧ (sent w 1).mode 0 0 ≠ 0 ∧ ((sent w 1).block256 0).isSome = true)
    ∧ (d.done = true ∧ ((sent d).ctx 0 0).unfilled.contains (3 + 32) = true ∧ ({ done := true } : Packet).who = .none
      ∧ ({ done := true, who := .host 1 8 } : Packet).who = .host 1 8 ∧ ({} : Packet).done = false) := by
  refine ⟨?_, ?_, ?_, ?_, ?_⟩ <;> decide +kernel

theorem witness_BaseDieRequests_safe : (sent {}).Safe ∧ ∀ st off, (sent {}).mode st off = 0 :=
  ⟨safe_of _ (by decide +kernel) (by decide +kernel), fun _ _ => rfl⟩

/-- A leaf of 1 GiB at the entry for address 0 of a level-2 table that the tables above it point at. -/
def walked : State :=
  ((({ scs := [(0, { ptb := 0x10000, ptbSet := true })] } : State).write 0x10000 (natBytes 8 0x11001)).write 0x11000 (natBytes 8 0x12001)).write
    0x12000 (natBytes 8 31)

theorem witness_BaseDieRequests_walk : (walked.sc 0).root = some 0x10000 ∧ canonical 0 = true ∧ walked.rngFor 0 = none
    ∧ (walked.sc 0).tlbHit (ptbAsid 0x10000) 0 = none ∧ walked.dieHit 0 (ptbAsid 0x10000) 0 = none := by
  decide +kernel

theorem witness_BaseDieRequests_walk_leaf : (walked.walkPage (some 0x10000) 0).isSome = true := by
  decide +kernel

/-- A host port in RUN, with a range register that maps local address 0 as a SYSATOM page, or not. -/
def host (atom : Bool) : State :=
  { ports := [(0, .run)], rngLive := [(0, 0), (1, 0x10001 + (if atom then 0x20 else 0)), (2, 0), (3, 0)] }

theorem witness_HostAndStorage :
    let r : HostReq := { (default : HostReq) with port := 0, space := .bar2, addr := 0x100, size := 8 }
    let b : HostReq := { r with space := .bar0 }
    let g : State := { topo := { acthost := false }, mgmt := { hostDown := some 5 }, tb := 5 + 10 ^ 9 }
    (({} : State).servesReq r = false ∧ (host true).servesReq r = true ∧ r.space ≠ .bar0 ∧ r.space ≠ .cxl
      ∧ (host true).earlier (hostPort 0) 0x100 8 = [] ∧ (host true).hostRmw = [] ∧ (host true).hostLines = [])
    ∧ ((host true).hostTags r = true
      ∧ ({ host true with pkts := everyTag.map (fun (q : Nat × Packet) => (q.1, { q.2 with port := hostPort 0 })) } : State).hostTags r = false)
    ∧ ((host true).sysatomAt r.addr = true ∧ (host false).sysatomAt r.addr = false ∧ r.addr % r.size = 0)
    ∧ ({ host true with hostRmw := [(r, 3)] }.hostRmw.find? (fun p => p.1 == r) = some (r, 3))
    ∧ ((host true).servesReq b = true ∧ b.space = .bar0)
    ∧ ((host true).serves 0 = true ∧ inMemory (host true).topo (64 * 3) = true
      ∧ ((host true).hostLines.filter (fun p => lineHalf p.1 == lineHalf 3 && p.1 != 3)).length < dirLines)
    ∧ ((host true).port 0 = .run ∧ (3, true) ∈ { host true with snoops := [(3, true)] }.snoops ∧ (host true).snoops = [])
    ∧ (g.topo.acthost = false ∧ halfLost g.topo 1 = false ∧ g.hostGone = true ∧ (host true).hostGone = false) := by
  refine ⟨?_, ?_, ?_, ?_, ?_, ?_, ?_, ?_⟩ <;> decide +kernel

/-- The free bit may choose the second half of an equal atomic: the value is open, so it stands as a hypothesis. -/
theorem witness_HostAndStorage_split (h : Config.freeNat 0 % 2 = 0) : (host true).freeVal % 2 = 0 := h

/-- A storage job of one command sent at 0, into stream 0. -/
def storing : Entry := { id := 3, st := .started, sent := true, since := [(0, 0)], work := .nvme 0 1 0 1 0 512 (.str 0) }

theorem witness_HostAndStorage_storage :
    let s : State := { scs := (entered storing).scs, ports := [(2, .run)] }
    let j : StorageJob := { port := 0, count := 1, lb := 512, dst := .str 0 }
    storing.work.storage = some j ∧ ((s.sc (48 % 16)).entry? (48 / 16) = some storing ∧ storing.awaits 0 = true)
    ∧ (s.port (2 + j.port) = .run ∧ s.cmdLate storing 0 = false ∧ (entered storing).port (2 + j.port) ≠ .run
      ∧ { s with tb := 10 ^ 9 }.cmdLate storing 0 = true) := by
  refine ⟨rfl, ?_, ?_⟩ <;> decide +kernel

/-! ### Events of the module -/

theorem witness_Losses :
    let s := State.reset
    let t : State := { topo := { dies := 0xFE, stks := 0xFE, brg := 1, halves := 1 } }
    ((bitNat s.topo.dies.toNat 7 = true ∧ bitNat s.topo.stks.toNat 7 = true ∧ bitNat s.topo.brg.toNat 1 = true)
      ∧ (bitNat s.topo.brg.toNat (1 - 1) = true ∧ bitNat s.topo.halves.toNat 1 = true ∧ bitNat s.topo.halves.toNat (1 - 1) = true))
    ∧ ((bitNat t.topo.dies.toNat 0 = false ∧ bitNat t.topo.stks.toNat 0 = false ∧ bitNat t.topo.brg.toNat 0 = true
      ∧ bitNat t.topo.brg.toNat (1 - 0) = false) ∧ (bitNat t.topo.halves.toNat 0 = true ∧ bitNat t.topo.halves.toNat (1 - 0) = false
      ∧ ({ brg := 1 } : Topo).halves = 3)) := by
  refine ⟨⟨?_, ?_⟩, ?_, ?_⟩ <;> decide +kernel

/-- A sample of some power and a temperature of die 0. -/
def sample (mw : Nat) (t : BitVec 8) : PowerSample := { meanMW := mw, temps := [t] }

/-- An image whose header is not one is refused whatever the cryptographic functions are; which image they accept is open. -/
theorem witness_BootIdentityAndPower :
    (¬(imageOk State.reset.fused [] = true ∨ imageOk State.reset.fused [] = true))
    ∧ (State.reset.measured 1 = some Config.bootRom ∧ State.reset.measured 5 = none)
    ∧ State.reset.mgmt.sampled = none ∧ (∃ m : Mgmt, m.sampled = some 7 ∧ 7 + 100000 ≤ 100007 ∧ 100006 < 7 + 100000)
    ∧ ((1000 * State.reset.mgmt.plim < (sample 3200001 0).meanMW ∧ (State.reset.mgmt.why.getD 0 []).length < 7)
      ∧ State.reset.mgmt.tthr < ((sample 0 96).temps.getD 0 0).toNat ∧ 110 ≤ ((sample 0 110).temps.getD 0 0).toNat)
    ∧ ((sample 0 0).meanMW * 100 ≤ 95000 * State.reset.mgmt.plim
      ∧ (∀ e < 8, ((sample 0 0).temps.getD e 0).toNat + 5 ≤ State.reset.mgmt.tthr) ∧ ∃ m : Mgmt, m.calm = some 3 ∧ 3 + 1000000 ≤ 1000003) := by
  refine ⟨?_, ⟨rfl, rfl⟩, rfl, ⟨{ sampled := some 7 }, rfl, by decide, by decide⟩, ⟨⟨?_, ?_⟩, ?_, ?_⟩, ?_, ?_,
    { calm := some 3 }, rfl, by decide⟩
  · simp [imageOk]
  all_goals decide +kernel

/-- Every die at step 7, with a limit exceeded or none. -/
theorem witness_BootIdentityAndPower_held :
    let m : Mgmt := { steps := List.replicate 8 7, why := List.replicate 8 (List.replicate 7 (true, true)) }
    ((∀ d < 8, m.steps.getD d 0 = 7) ∧ 1000 * m.plim < (sample 3200001 0).meanMW ∧ (sample 0 96).meanMW ≤ 1000 * m.plim)
    ∧ (m.tthr < ((sample 0 96).temps.getD 0 0).toNat ∧ ∀ d < 8, ((sample 0 95).temps.getD d 0).toNat ≤ m.tthr)
    ∧ (({ m with tripped := true } : Mgmt).tripped = true ∧ m.tripped = false) := by
  decide +kernel

/-- A boot in which an image passes and a bridge link trains. -/
theorem witness_BootIdentityAndPower_good (img : List Byte) (h : imageOk State.reset.fused img = true) :
    let b : BootInput := { (default : BootInput) with imageA := img, bridges := 3 }
    (imageOk State.reset.fused b.imageA = true ∨ imageOk State.reset.fused b.imageB = true)
    ∧ ¬(b.bridges = 0 ∧ (bootTopo b).halves = 3) :=
  ⟨.inl h, fun e => nomatch (show (3 : BitVec 2) = 0 from e.1)⟩

/-- A slot's window with one link, on lane 0, at its first position. -/
def linked (x : Link) : State :=
  { ports := [(8, .run)], tb := 112, fab := { slot := 1, begun := 1, links := [(0, x)], silent := [(4, 0)] } }

def toFour : Frame := { (default : Frame) with dst := 4 }

theorem witness_Links :
    let x : Link := { partner := 4 }
    let y : Link := { partner := 4, pos := 1 }
    let l := linked x
    let r : State := { fab := { rx := [.relay 0 toFour], dead := [4] } }
    (({ l with tb := 1999 }.windowOver = true ∧ l.windowOver = false) ∧ (State.reset.fab.begun ≠ State.reset.slotNo + 1
      ∧ l.fab.begun = l.slotNo + 1))
    ∧ ((tget l.fab.links 0 = some x ∧ l.positionNow = some 0 ∧ x.pos ≤ 0) ∧ (l.laneLive 0 = true ∧ l.isDead x.partner = false)
      ∧ (x.resend = [] ∧ l.nextNew 0 x = none ∧ (default : Hop).livemap = 0 ∧ (default : RxFrame).crcOk = false))
    ∧ ({ l with tb := 113 }.positionNow = none ∧ (linked y).positionNow = some 0 ∧ 0 < y.pos)
    ∧ (r.fab.rx = .relay 0 toFour :: [] ∧ r.isDead toFour.dst.toNat = true ∧ l.isDead toFour.dst.toNat = false
      ∧ (l.fab.relay.filter (fun y => y.1 == 0 / 24)).length < relayCap)
    ∧ (tget l.fab.silent 4 = some 0 ∧ l.slotNo / l.calC < 0 + 2 ∧ 0 + 2 ≤ { l with tb := 200000 }.slotNo / l.calC)
    ∧ (State.reset.hopeless State.reset.slotNo = [] ∧ State.reset.fab.slot = 0 ∧ ({ ready := 5 } : QFrame).assigned = false
      ∧ 2000 * State.reset.slotNo ≤ ({ ready := 5 } : QFrame).ready) := by
  refine ⟨⟨?_, ?_⟩, ⟨?_, ?_, ?_⟩, ?_, ?_, ?_, ?_⟩ <;> decide +kernel

/-- A full relay store. -/
theorem witness_Links_full :
    relayCap ≤ ((List.replicate relayCap (0, toFour)).filter (fun y : Nat × Frame => y.1 == 0 / 24)).length := by
  rw [List.filter_replicate]; simp

/-- A session with package 3, an operation to it that has not been acknowledged, operation 2 from it, and a window that admits the
first 64 KiB to everything. -/
def peer (sends : Nat) (z : InOp := {}) : State :=
  { fab := { sessions := [(3, { high := 100000 })], ops := [(opKey 3 1, { sends := sends, since := 1, frames := [{ (default : Frame) with oplen := 8 }] })],
             inops := [(opKey 3 2, z)], fwin := [(0, 2 ^ 63), (1, 0x1000F)] } }

/-- A frame of an operation from package 3 to this one. -/
def from3 (op : BitVec 3) (k : Nat) : Frame := { (default : Frame) with src := 3, op := op, oplen := 4, opid := BitVec.ofNat 8 k, opaddr := 0x100 }

/-- What becomes of a frame under its key, which no definition gives a value, is a hypothesis here. -/
theorem witness_FramesAndSessions_open (bs : List Byte) (h : ∀ iv hd c t, Config.aesOpen [] iv hd c t = none)
    (k : ∀ iv hd c t, Config.aesOpen [(1 : Byte)] iv hd c t = some bs) :
    openFrame {} 0 (from3 0 1) = none ∧ openFrame { rxKey := [1] } 0 (from3 0 1) = some (bs, false) := by
  refine ⟨?_, ?_⟩ <;> delta openFrame
  · rw [h]; rfl
  · rw [k]

theorem witness_FramesAndSessions :
    let f := from3 0 1
    let g := from3 0 2
    let s := peer 1 { first := g }
    (f.dst.toNat = s.pkgid ∧ ({ f with dst := 9 } : Frame).dst.toNat ≠ s.pkgid ∧ s.session f.src.toNat = some { high := 100000 }
      ∧ s.session 7 = none ∧ f.iv.toNat + ivWindow < 100000 ∧ f.ord = false)
    ∧ (ivSort 100000 [] (50000 : BitVec 96).toNat = .fresh ∧ s.fab.rx.head? ≠ some (.frame f)
      ∧ ({ rx := [.frame f] } : Fabric).rx = .frame f :: [])
    ∧ (tget s.fab.inops (inKey g) = some { first := g } ∧ sameOp g g = true ∧ ({ first := g } : InOp).finished = false
      ∧ tget s.fab.inops (inKey f) = none) := by
  refine ⟨?_, ?_, ?_⟩ <;> decide +kernel

theorem witness_FramesAndSessions_operations :
    let d : List Byte := natBytes 8 0 ++ natBytes 24 0
    let g := from3 0 2
    let h : Frame := { g with desc := true }
    let s (z : InOp) : State := peer 1 { z with first := g }
    (∀ z ∈ [({ rejected := true } : InOp), { expect := true }, {}, { desc := some d }], (s z).inOp g = { z with first := g }
        ∧ (s z).rangeOk g = true)
    ∧ ((s {}).rangeOk { g with opaddr := 0x20000 } = false ∧ (s {}).flagOk h d = true
      ∧ (s {}).flagOk h (natBytes 8 0x20000) = false)
    ∧ (((s { parts := [(g, [7])] }).inOp h).parts = [(g, [7])] ∧ ((s { parts := [(g, [7])] }).inOp h).rejected = false ∧ g.op = 0)
    ∧ (({ bytes := 3 } : InOp).whole g = false ∧ ({ bytes := 4 } : InOp).whole g = true ∧ ({ bytes := 4, desc := some d } : InOp).whole g = true
      ∧ descWord d 0 = 0 ∧ descWord d 1 = 0 ∧ descWord d 2 = 0)
    ∧ (({ desc := none } : InOp).desc = none ∧ ({ g with op := 2 } : Frame).op = 2) := by
  refine ⟨?_, ?_, ?_, ?_, ?_⟩ <;> decide +kernel

theorem witness_FramesAndSessions_source :
    let s := peer 1
    let o : RemoteOp := { sends := 1, since := 1, frames := [{ (default : Frame) with oplen := 8 }] }
    ((tget s.fab.ops (opKey 3 1) = some o ∧ o.acked = false ∧ o.get = false)
    ∧ (1 + 4 * s.calC ≤ { s with tb := 400000 }.slotNo + 1 ∧ s.slotNo + 1 < 1 + 4 * s.calC)
    ∧ tget (peer 8).fab.ops (opKey 3 1) = some { o with sends := 8 })
    ∧ (∃ p : RemoteOp, p.get = true ∧ p.got.length < p.len ∧ p.acked = true)
    ∧ (inMemory s.topo 0x100 = true ∧ 0x100 % 32 + 8 ≤ 32 ∧ s.ueSectors = [] ∧ s.topo.stks = 0xFF) := by
  refine ⟨⟨?_, ?_, ?_⟩, ⟨{ get := true, acked := true, frames := [{ (default : Frame) with oplen := 8 }] }, ?_⟩, ?_⟩ <;> decide +kernel

theorem witness_FramesAndSessions_safe : (peer 1).Safe ∧ ∀ st off, (peer 1).mode st off = 0 :=
  ⟨safe_of _ (by decide +kernel) (by decide +kernel), fun _ _ => rfl⟩

/-! ### The data engines -/

/-- SC 0 with one started entry, and streams 0 and 2 with a row, and 1 with none; the first 64 KiB are mapped to memory. -/
def moving (x : Entry) : State :=
  { scs := [(0, { entries := [x], nextEntry := 4, streams := [(0, { wp := 1, data := [(0, [7])] }), (1, {}), (2, { wp := 1 })],
                  ctxs := [(1, { aCtx [] with unfilled := [5] })] })],
    rngLive := [(0, 0), (1, 0x1000D), (2, 0), (3, 0)] }

/-- Started work of context 1. -/
def job (w : Work) : Entry := { id := 3, owner := .ctx 1, st := .started, work := w }

def f32Rec : Rec := aRec 1 4 4
def bxRec : Rec := aRec 3 1 1

theorem moving_plain (x : Entry) : (moving x).Plain :=
  ⟨safe_of _ rfl rfl, fun _ _ => rfl, rfl, rfl⟩

/-- Do the addresses that an engine reaches lie in memory? -/
def nearB (s : State) (w : Bool) (vas : List (Option Nat)) : Bool :=
  vas.all (fun v => match v with
    | none => true
    | some va => match s.place 0 none w va with
      | .none => true
      | .here a => inMemory s.topo a
      | _ => false)

theorem near_of (s : State) (w : Bool) (vas : List (Option Nat)) (h : nearB s w vas = true) : s.Near 0 none w vas := by
  intro va hv
  have h1 := List.all_eq_true.mp h _ hv
  revert h1
  cases hp : s.place 0 none w va with
  | none => exact fun _ => .inl rfl
  | here a => exact fun h1 => .inr ⟨a, rfl, by simpa [hp] using h1⟩
  | far a => simp [hp]
  | lost => simp [hp]

/-- A job's view of its state. -/
def view (x : Entry) : State := (moving x).jobView x

/-- Are the addresses of an action near? -/
def nearMv (x : Entry) : Mv → Bool
  | .write f _ k l => nearB (view x) true (addrsFrom (x.flowAt f).ay k l)
  | .read f _ k l => nearB (view x) false (addrsFrom (x.flowAt f).ax k l)
  | .elem k =>
    match x.work with
    | .acc _ r _ => nearB (view x) true [some (r.elemAddr (k / r.eb))]
    | .casStream _ r _ _ => nearB (view x) true [some (r.elemAddr (k / r.eb))]
    | .scadd r _ _ _ _ => nearB (view x) true [some (r.elemAddr ((x.idx[k / r.eb]?).getD 0))]
    | _ => true
  | _ => true

/-- Entry 3 stands, started; it may do these actions, and every action that it may do is near. -/
def can (x : Entry) (ms : List Mv) : Bool :=
  ((moving x).sc 0).entry? 3 == some x && x.st == .started && x.movable && (moving x).pkts.isEmpty
    && ms.all (fun m => ((moving x).moves 0 x).contains m) && ((moving x).moves 0 x).all (nearMv x)

/-- Some bytes that have come. -/
def bytesOf (k n : Nat) : Tab Byte := tputs [] k (List.replicate n 1)

/-- SLOAD, SSTORE and SCOPY: a part or a sector read, a row published, a row consumed, parts written; and exponents. -/
theorem witness_EnginesMoveData_moves :
    let ld := job (.load f32Rec 1 none)
    let st := job (.store f32Rec 0 none)
    let cp := job (.copy (.range 0x100 64) (.range 0x200 64) 64)
    let lx := job (.load bxRec 0 (some 1))
    let sx := job (.store bxRec 1 (some 0))
    (can ld [.read false [0] 0 16, .read false [0, 16] 0 32] = true ∧ can { ld with done := 128, mid := bytesOf 0 128 } [.push false 1 128] = true)
    ∧ (can st [.row false 0] = true ∧ can { st with done := 128, mid := bytesOf 0 32 } [.write false [0] 0 16, .write false [0, 16] 0 32] = true)
    ∧ (can cp [.read false [16] 16 16] = true ∧ can { cp with mid := bytesOf 16 16 } [.write false [16] 16 16] = true)
    ∧ (can lx [.read true [0] 0 2] = true ∧ can { lx with xmid := bytesOf 0 2 } [.push true 1 2] = true)
    ∧ (can sx [.row true 0] = true ∧ can { sx with xmid := bytesOf 0 2 } [.write true [0] 0 2] = true) := by
  refine ⟨⟨?_, ?_⟩, ⟨?_, ?_⟩, ⟨?_, ?_⟩, ⟨?_, ?_⟩, ?_, ?_⟩ <;> decide +kernel

/-- SGATHER, SSCATTER, SSCADD, SACC and SCAS. -/
theorem witness_EnginesMoveData_elements :
    let four (x : Entry) : Entry := { x with idx := [0], mid := bytesOf 0 4 }
    let g := job (.gather f32Rec 1 2 1)
    let sc := job (.scatter f32Rec 0 2 1)
    let sa := job (.scadd f32Rec 0 2 1 0)
    let ac := job (.acc (.range 0x100 128) f32Rec 0)
    let cs := job (.casStream 0 f32Rec 1 7)
    let cr := job (.casReg 5 0x100 0 7 0 9)
    (can g [.index 2] = true ∧ can { g with idx := [0] } [.read false [0] 0 4] = true ∧ can (four g) [.push false 1 4] = true)
    ∧ (can sc [.index 2, .row false 0] = true ∧ can (four sc) [.write false [0] 0 4] = true)
    ∧ (can (four sa) [.elem 0] = true ∧ can { ac with mid := bytesOf 0 4 } [.elem 0] = true ∧ can { cs with mid := bytesOf 0 4 } [.elem 0] = true
      ∧ can { cs with xmid := bytesOf 0 128 } [.push true 1 128] = true)
    ∧ (f32Rec.total = 32 ∧ f32Rec.inside 0 = true ∧ f32Rec.elemAddr 0 % accBytes f32Rec.fmt = 0
      ∧ (view ac).place 0 none true (f32Rec.elemAddr 0) = .here 0x3000 ∧ ¬(32 < f32Rec.total))
    ∧ (can { cr with idone := 0 } [] = true ∧ cr.idone = 0 ∧ ((moving cr).ctx 0 1).unfilled.contains 5 = true
      ∧ (view cr).place 0 none true 0x100 = .here 0x100 ∧ inMemory (moving cr).topo 0x100 = true ∧ 0x100 % accBytes (tcFmt 0) = 0) := by
  refine ⟨⟨?_, ?_, ?_⟩, ⟨?_, ?_⟩, ⟨?_, ?_, ?_, ?_⟩, ?_, ?_⟩ <;> decide +kernel

/-- SQUANT, SDQNT and SDECOMP: what they read and write, and blocks that have come whole and that have not. -/
theorem witness_EnginesMoveData_blocks :
    let q := job (.quant f32Rec bxRec)
    let d := job (.dequant bxRec { f32Rec with base := 0x4000 })
    let x := job (.decomp 0x1000 1 1 0x100 false)
    let o := ((view x).agentRead (x.via 0) [some 0x100]).2
    let whole (y : Entry) (k n : Nat) : Bool := (List.range n).all (fun i => thas y.mid (k + i))
    (can q [.read false [0] 0 16] = true ∧ can { q with xmid := bytesOf 0 32 } [.write true [16] 16 16] = true
      ∧ whole { q with mid := bytesOf 0 128 } 0 128 = true ∧ whole { q with mid := bytesOf 0 127 } 0 128 = false)
    ∧ (can d [.read false [32] 32 2] = true ∧ can { d with xmid := bytesOf 0 128 } [.write true [0, 16] 0 32] = true ∧ bxRec.blockSize = 32
      ∧ whole { d with mid := bytesOf 0 34 } 0 32 = true ∧ whole { d with mid := bytesOf 0 34 } bxRec.size 2 = true
      ∧ whole { d with mid := bytesOf 0 33 } bxRec.size 2 = false)
    ∧ ((moving x).moves 0 x = [] ∧ x.done < 1 ∧ 256 * x.done < x.idone + ((moving x).stream 0 1).space * ((moving x).stream 0 1).rowSize
      ∧ nearB (view x) false [some 0x100] = true ∧ nearB o false (addrsFrom (fun k => some (0x1000 + k)) 0 32) = true
      ∧ ((moving x).sc 0).dceFirst = some 3 ∧ (moving x).dceWork (twin 0) = false
      ∧ blockSectors ((view x).engineByte 0 none (some 0x100)).toNat = 1
      ∧ can { x with done := 1, mid := bytesOf 0 256 } [.push false 1 256] = true) := by
  refine ⟨⟨?_, ?_, ?_⟩, ⟨?_, ?_, ?_⟩, ?_⟩ <;> decide +kernel


/-! ### The whole machine -/

/-- The state with a turn on its agenda. -/
def turned (s : State) (who : Agent) : State := { s with agenda := [{ who := who, ns := 1, cyc := 0 }] }

/-- The state when that turn begins. -/
def begun (s : State) : State :=
  (s.takeTurn.2.advance s.takeTurn.1.ns s.takeTurn.1.cyc).expireBlocked

/-- A turn of a context of SC 0: it may act, and context c is the next. -/
def turnOf (s : State) (c : Nat) : Bool :=
  let t := turned s (Agent.context 0)
  (begun t).mayAct t.takeTurn.1.who && (begun t).nextCtx 0 == some c

theorem witness_StepRunsTheDecodedInstruction :
    let r := { futures (aCtx []) with futs := [(1, { st := .reclaimed, sc := some 0 })] }
    let b := futures { aCtx [] with bud := 0 }
    let a := inCtx 18 { aCtx [] with apend := [(0x10, 7)] }
    ((∀ s ∈ [r, b], turnOf s 0 = true) ∧ turnOf a 18 = true)
    ∧ (begun (turned r (Agent.context 0))).ctxReclaimed 0 0 = true
    ∧ ((begun (turned b (Agent.context 0))).ctxReclaimed 0 0 = false ∧ ((begun (turned b (Agent.context 0))).ctx 0 0).bud = 0
      ∧ ((begun (turned b (Agent.context 0))).ctx 0 0).midway = false)
    ∧ ((begun (turned a (Agent.context 0))).ctxReclaimed 0 18 = false ∧ ((begun (turned a (Agent.context 0))).ctx 0 18).trapDue = true)
    ∧ (turned a (Agent.context 0)).agenda = { who := Agent.context 0, ns := 1, cyc := 0 } :: [] ∧ a.agenda = [] := by
  refine ⟨⟨?_, ?_⟩, ?_, ?_, ?_, ?_, ?_⟩ <;> decide +kernel

/-- An LDM of context 18 that has begun, with the word it goes on with; and a turn that a thermal trip has ended. -/
theorem witness_StepRunsTheDecodedInstruction_midway :
    let w : W32 := (encode (.ldm 24 1 7)).getD 0
    let s := inCtx 18 { aCtx [] with wait := some (.parts 0 0 [(24, ucAt 0x1000)] w) }
    (turnOf s 18 = true ∧ ((begun (turned s (Agent.context 0))).ctx 0 18).wait = some (.parts 0 0 [(24, ucAt 0x1000)] w)
      ∧ ((begun (turned s (Agent.context 0))).ctx 0 18).midway = true)
    ∧ decodedIs [(w, .ldm 24 1 7)] = true
    ∧ (({ s with mgmt := { s.mgmt with tripped := true } } : State).mgmt.tripped = true ∧ s.hits = []) := by
  refine ⟨?_, ?_, ?_⟩ <;> decide +kernel

/-- What a control word decodes to, if anything. -/
noncomputable def decodes (x : W32) : Option Instr :=
  match decodeWord x with
  | .ok i => some i
  | .error _ => none

/-- A word that decodes, one that does not, and fetches that fail: at an unmapped address and in a page without X. -/
theorem witness_StepRunsTheDecodedInstruction_fetch :
    let f (w pc : Nat) : State := (inCtx 18 { aCtx [] with pc := BitVec.ofNat 64 pc }).write 0x100 (natBytes 4 w)
    let u (w pc : Nat) : State := begun (turned (f w pc) (Agent.context 0))
    let nx := withSc (f 0 0) (fun t => { t with tlb := [(0, { page 0 0 false with x := false })] })
    let word (s : State) : W32 := BitVec.ofNat 32 (bytesNat (s.bytes 0x100 4))
    let good (s : State) : Bool := ((s.xlat 0 0x100).map (fun x => x.x && localOf x.pa == 0x100 && !inRegs (localOf x.pa))) == some true
    ((∀ w ∈ [0x44000005, 0xFFFFFFFF], turnOf (f w 0x100) 18 = true ∧ good (u w 0x100) = true)
      ∧ ((u 0 0x100).ctxReclaimed 0 18 = false ∧ ((u 0 0x100).ctx 0 18).trapDue = false))
    ∧ (decodes (word (u 0x44000005 0x100)) = some (.trap 5) ∧ decodes (word (u 0xFFFFFFFF 0x100)) = none)
    ∧ (turnOf (f 0 (2 ^ 56)) 18 = true ∧ (u 0 (2 ^ 56)).xlat 0 (2 ^ 56) = none)
    ∧ (turnOf nx 18 = true ∧ ((begun (turned nx (Agent.context 0))).xlat 0 0).map (fun x => x.x) = some false) := by
  refine ⟨⟨?_, ?_⟩, ?_, ?_, ?_⟩ <;> decide +kernel

theorem witness_StepRunsTheDecodedInstruction_others :
    let r := begun (turned (inRun aRun) (Agent.run 0 0))
    let m := r.markRipe 0
    let e := turned (inCtx 18 (aCtx [])) (Agent.event (.payloadWindowEnd))
    (r.mayAct (Agent.run 0 0) = true ∧ (m.run 0 0).phase = .running ∧ (m.run 0 0).preempt = false)
    ∧ ((m.run 0 0).stop = false ∧ (m.run 0 0).halted = false ∧ (m.run 0 0).idle = 0)
    ∧ ((begun e).mayAct e.takeTurn.1.who = true ∧ isEvent (.payloadWindowEnd) = true)
    ∧ ({ e with mgmt := { e.mgmt with tripped := true } } : State).mayAct (Agent.context 0) = false
    ∧ ({ inCtx 18 (aCtx []) with scs := [] } : State).nextCtx 0 = none := by
  refine ⟨?_, ?_, ?_, ?_, ?_⟩ <;> decide +kernel

/-- Reset is safe, and a state from which a step answers a next one. -/
theorem witness_StepKeepsSafe : State.reset.Safe ∧ (State.reset.withFetchWord 32 0x44000005).Safe
    ∧ ∃ t, step (State.reset.withFetchWord 32 0x44000005) = .next t := by
  refine ⟨safe_of _ (by decide +kernel) (by decide +kernel), safe_of _ (by decide +kernel) (by decide +kernel), ?_⟩
  have h : isNext (step (State.reset.withFetchWord 32 0x44000005)) = true := by decide +kernel
  revert h
  cases step (State.reset.withFetchWord 32 0x44000005) with
  | next t => exact fun _ => ⟨t, rfl⟩
  | fault f => exact fun h => nomatch h
  | refused r => exact fun h => nomatch h

/-! ## Steps of a word placed where the next step fetches it -/

/-- TRAP 5 of R209, the first instruction after reset: context 18 takes the trap with cause SOFT, TVAL 5 and the next address in TPC. -/
theorem test_step_trap :
    let t := after (step (State.reset.withFetchWord 32 0x44000005))
    (t.ctx 0 18).st = .trapped ∧ (t.ctx 0 18).tcause = 8 ∧ (t.ctx 0 18).tval = 5 ∧ (t.ctx 0 18).tpc = 4 := by
  decide +kernel

/-- mov v14, v1 of R111, the first operation of a run: its result is in flight. -/
theorem test_step_mov : ((after (step (State.reset.withFetchWord 32 0xF00E0100))).run 0 0).pend.length = 1 := by decide +kernel

/-- The decoder on the same words as the table numbers them. -/
theorem test_table_words : decodeTableWord 32 0x44000005 = some (.trap 5) ∧ decodeTableWord 32 0xF00E0100 = some (.iMov 0 14 1) := by
  decide +kernel

/-- Low dwords of headers of the first table of 17_program_base_die.md: requests 1, 9 and 10, from port 1. -/
theorem test_packet_headers :
    ({ port := 1, off := 0x1000 * 64, sec := 0 } : Packet).low = 0x1000000020
    ∧ ({ port := 1, tag := 5, off := 0x100E * 64, sec := 1 } : Packet).low = 0x100E001034
    ∧ ({ port := 1, ty := .write, off := 0x100E * 64, big := true } : Packet).low = 0x100E000821 := by
  decide +kernel
end Sys2Proof.Tests
end

section
/-!
SUPPORT. The lane functions of the F slots (R114-R119): the halves of a joined pair, the sign bit of a word, and the range of
a conversion to an integer; and the statement about them.
-/

namespace Sys2Proof.Machine

/-! ## Halves of a lane (R84) -/

@[simp] theorem elem0_append (h l : Half) : elem0 (h ++ l) = l := BitVec.extractLsb'_append_eq_right

@[simp] theorem elem1_append (h l : Half) : elem1 (h ++ l) = h := BitVec.extractLsb'_append_eq_left

/-- A law of elements holds of halves where the lane function works element by element (R106, R118). -/
theorem halves_onHalf {law : Half → Half → Half → Prop} {f : Half → Half → Half} (hf : ∀ u v, law u v (f u v)) (x y : W32) :
    Halves law x y (onHalf f x y) := by
  simp only [Halves, onHalf, elem0_append, elem1_append]
  exact ⟨hf _ _, hf _ _⟩

/-- A three-operand BF16 operation rounds each element once (R83, R118). -/
theorem elems_onB3 (f : FVal → FVal → FVal → FVal) (d a b : W32) :
    elem0 (onB3 f d a b) = roundBF16 (f (bf16 (elem0 d)) (bf16 (elem0 a)) (bf16 (elem0 b)))
      ∧ elem1 (onB3 f d a b) = roundBF16 (f (bf16 (elem1 d)) (bf16 (elem1 a)) (bf16 (elem1 b))) :=
  ⟨elem0_append _ _, elem1_append _ _⟩

/-! ## Sign operations (R115) -/

/-- What a sign operation makes of a word (R79, R115): the canonical NaN of a NaN, else the sign given and the magnitude it had. -/
def SetsSign (x z : W32) (neg : Bool) : Prop :=
  if (f32 x).isNan then z = 0x7FC00000 else z.getLsbD 31 = neg ∧ ∀ i, i < 31 → z.getLsbD i = x.getLsbD i

/-- A sign operation is right where it sets the sign and leaves the magnitude of a word that is no NaN. -/
theorem signOp_setsSign {f : W32 → W32} {x : W32} {neg : Bool} (hs : (f x).getLsbD 31 = neg)
    (hm : ∀ i, i < 31 → (f x).getLsbD i = x.getLsbD i) : SetsSign x (signOp f x) neg := by
  unfold SetsSign signOp
  split
  · rfl
  · exact ⟨hs, hm⟩

theorem getLsbD_magnitudeMask (i : Nat) : (0x7FFFFFFF#32).getLsbD i = decide (i < 31) := by
  have h : 0x7FFFFFFF#32 = BitVec.ofNat 32 (2 ^ 31 - 1) := rfl
  rw [h, BitVec.getLsbD_ofNat, Nat.testBit_two_pow_sub_one]
  by_cases hi : i < 31 <;> simp [hi]
  omega

theorem getLsbD_signMask (i : Nat) : (0x80000000#32).getLsbD i = decide (i = 31) := by
  have h : 0x80000000#32 = BitVec.twoPow 32 31 := rfl
  rw [h, BitVec.getLsbD_twoPow]
  simp [eq_comm]

theorem fabs_setsSign (x : W32) : SetsSign x (signOp (· &&& 0x7FFFFFFF) x) false := by
  refine signOp_setsSign ?_ fun i hi => ?_
  · simp
  · simp [getLsbD_magnitudeMask, hi]

theorem fneg_setsSign (x : W32) : SetsSign x (signOp (· ^^^ 0x80000000) x) (!x.getLsbD 31) := by
  refine signOp_setsSign ?_ fun i hi => ?_
  · simp
  · simp [getLsbD_signMask, Nat.ne_of_lt hi]

theorem fcpsgn_setsSign (x y : W32) :
    SetsSign x (signOp (fun v => (v &&& 0x7FFFFFFF) ||| (y &&& 0x80000000)) x) (y.getLsbD 31) := by
  refine signOp_setsSign ?_ fun i hi => ?_
  · simp
  · simp [getLsbD_magnitudeMask, getLsbD_signMask, hi, Nat.ne_of_lt hi]

/-! ## Conversions to integers (R81, R119) -/

/-- A saturating conversion to a range that holds 0 stays in it. -/
theorem FVal.toIntSat_mem {lo hi : Int} (hlo : lo ≤ 0) (hhi : 0 ≤ hi) (x : FVal) :
    lo ≤ x.toIntSat lo hi ∧ x.toIntSat lo hi ≤ hi := by
  have hsat : ∀ z, lo ≤ satInt z lo hi ∧ satInt z lo hi ≤ hi := by
    intro z; unfold satInt; split_ifs <;> omega
  cases x with
  | nan => exact ⟨hlo, hhi⟩
  | inf n => simp only [FVal.toIntSat]; split_ifs <;> omega
  | fin n m e =>
    simp only [FVal.toIntSat]
    split_ifs
    · omega
    · omega
    · exact hsat _

/-- An integer in a range is its own clamp. -/
theorem clamp_of_mem {x lo hi : Int} (h : lo ≤ x ∧ x ≤ hi) : clamp x lo hi = x := by
  rw [clamp, min_eq_right h.2, max_eq_right h.1]

/-- cvtfs gives the saturated integer as two's complement. -/
theorem toInt_cvtfs (x : FVal) :
    (w32 (x.toIntSat (-2147483648) 2147483647)).toInt = clamp (x.toIntSat (-2 ^ 31) (2 ^ 31 - 1)) (-2 ^ 31) (2 ^ 31 - 1) := by
  have h : (-2 ^ 31 : Int) ≤ x.toIntSat (-2 ^ 31) (2 ^ 31 - 1) ∧ x.toIntSat (-2 ^ 31) (2 ^ 31 - 1) ≤ 2 ^ 31 - 1 :=
    x.toIntSat_mem (by decide) (by decide)
  rw [clamp_of_mem h]
  exact BitVec.toInt_ofInt_eq_self (by decide) h.1 (Int.lt_of_le_sub_one h.2)

/-- cvtfz gives the saturated integer unsigned. -/
theorem toNat_cvtfz (x : FVal) :
    ((w32 (x.toIntSat 0 4294967295)).toNat : Int) = clamp (x.toIntSat 0 (2 ^ 32 - 1)) 0 (2 ^ 32 - 1) := by
  have h : 0 ≤ x.toIntSat 0 (2 ^ 32 - 1) ∧ x.toIntSat 0 (2 ^ 32 - 1) ≤ 2 ^ 32 - 1 := x.toIntSat_mem (by decide) (by decide)
  rw [clamp_of_mem h]
  change ((BitVec.ofInt 32 (x.toIntSat 0 (2 ^ 32 - 1))).toNat : Int) = _
  rw [BitVec.toNat_ofInt]
  omega

/-! ## The statement -/

/-- Settles O3: each operation has one of the operand forms (R49), so it is right where its lane function is; the sign
operations, the halves of a pair and the conversions to integers have their laws above. -/
theorem floatingPointOperations : Obligations.FloatingPointOperations := by
  refine ⟨fun s p d a b => ⟨?fadd, ?fsub, ?fmul, ?fma, ?fnma, ?fmin, ?fmax, ?fabs, ?fneg, ?fcpsgn, ?fceq, ?fclt, ?fcle, ?fcun,
      ?frcp, ?frsq, ?fexp2, ?flog2, ?fclamp, ?fsat, ?frnd, ?fscl⟩,
    fun s p d a b => ⟨?badd, ?bsub, ?bmul, ?bfma, ?bmin, ?bmax, ?fdot2, ?cvtsf, ?cvtzf, ?cvtfs, ?cvtfz, ?cvtfb, ?cvtbfl,
      ?cvtbfh, ?cvtlsf, ?cvthsf, ?cvtlzf, ?cvthzf⟩⟩
  case fadd | fsub | fmul | fmin | fmax | fscl => exact laneOp_of rfl fun _ _ => rfl
  case fma | fnma | fclamp | fdot2 => exact laneOpD_of rfl fun _ _ _ => rfl
  case fceq | fclt | fcle => exact laneCmp_of rfl fun _ _ => rfl
  case fcun => exact laneCmp_of rfl fun _ _ => Bool.or_eq_true_iff
  case frcp | frsq | fexp2 | flog2 | fsat | frnd => exact laneOp1_of rfl fun _ => rfl
  case fabs => exact laneOp1_of rfl fabs_setsSign
  case fneg => exact laneOp1_of rfl fneg_setsSign
  case fcpsgn => exact laneOp_of rfl fcpsgn_setsSign
  case badd | bsub | bmul | bmin | bmax => exact laneOp_of rfl (halves_onHalf fun _ _ => rfl)
  case bfma => exact laneOpD_of rfl (elems_onB3 _)
  case cvtfs => exact laneOp1_of rfl fun x => toInt_cvtfs (f32 x)
  case cvtfz => exact laneOp1_of rfl fun x => toNat_cvtfz (f32 x)
  case cvtfb => exact laneOp_of rfl fun _ _ => ⟨elem0_append _ _, elem1_append _ _⟩
  case cvtsf | cvtzf | cvtbfl | cvtbfh | cvtlsf | cvthsf | cvtlzf | cvthzf => exact laneOp1_of rfl fun _ => rfl

end Sys2Proof.Machine
end

section
/-!
SUPPORT. Writes of package registers and of port states (R317, R355): what each leaves, and what it writes; and the statement
about them.
-/

namespace Sys2Proof.Machine

variable {s : State} {q i n o p : Nat} {v : Word}

/-! ## What a register write leaves -/

/-- Memory and every context of the package stay. -/
def KeepsContexts (s t : State) : Prop := t.mem = s.mem ∧ ∀ m c, t.ctx m c = s.ctx m c

theorem keepsContexts_of_scs {t : State} (hmem : t.mem = s.mem) (hscs : t.scs = s.scs) : KeepsContexts s t :=
  ⟨hmem, fun m c => by simp only [State.ctx, State.sc, hscs]⟩

theorem KeepsContexts.trans {s t u : State} (h : KeepsContexts s t) (h' : KeepsContexts t u) : KeepsContexts s u :=
  ⟨h'.1.trans h.1, fun m c => (h'.2 m c).trans (h.2 m c)⟩

theorem keepsContexts_modSc (s : State) (n : Nat) (f : Sc → Sc) (hf : ∀ x, (f x).ctxs = x.ctxs) :
    KeepsContexts s (s.modSc n f) := by
  refine ⟨rfl, fun m c => ?_⟩
  rw [State.ctx, State.sc_modSc]
  split
  · next h => rw [hf, h]; rfl
  · rfl

/-! ## Tables and fields -/

/-- A bit of a word, as the registers' fields name it. -/
theorem bitNat_toNat {n : Nat} (v : BitVec n) (i : Nat) : bitNat v.toNat i = v.getLsbD i := by
  rw [bitNat, BitVec.getLsbD, Nat.testBit_eq_decide_div_mod_eq]
  rfl

/-- A word is put together again from its fields of `w` bits. -/
theorem ofNat_foldl_fields {b w n : Nat} (hb : b = 2 ^ w) (hn : w * n = 64) (v : Word) :
    BitVec.ofNat 64 ((List.range n).foldl (fun a i => a + bitsNat v.toNat (w * i) w * b ^ i) 0) = v := by
  subst hb
  have h : ∀ k, (List.range k).foldl (fun a i => a + bitsNat v.toNat (w * i) w * (2 ^ w) ^ i) 0 = v.toNat % (2 ^ w) ^ k := by
    intro k
    induction k with
    | zero => simp [Nat.mod_one]
    | succ k ih =>
      rw [List.range_succ, List.foldl_append, ih, Nat.mod_pow_succ, List.foldl_cons, List.foldl_nil, bitsNat, pow_mul,
        Nat.mul_comm]
  rw [h, ← pow_mul, hn, Nat.mod_eq_of_lt v.isLt, BitVec.ofNat_toNat, BitVec.setWidth_eq]

/-- Fields written at consecutive keys of a table, where one that equals the default is no entry, read as they were written. -/
theorem tgetD_foldl_fields (t : List (Nat × Nat)) (k d : Nat) (f : Nat → Nat) {n j : Nat} (hj : j < n) :
    tgetD ((List.range n).foldl (fun t i => if f i = d then tdel t (k + i) else tput t (k + i) (f i)) t) (k + j) d = f j := by
  induction n with
  | zero => omega
  | succ n ih =>
    rw [List.range_succ, List.foldl_append, List.foldl_cons, List.foldl_nil]
    by_cases h : j = n
    · subst h
      split
      · next hd => simp [tgetD, hd]
      · simp
    · have hne : k + j ≠ k + n := by omega
      rw [← ih (by omega)]
      split
      · simp [tgetD, tget_tdel_of_ne _ hne]
      · exact tgetD_tput_of_ne _ _ _ hne

/-! ## Queues (R318, R319) -/

@[simp] theorem State.queue_modQueue_self (s : State) (q : Nat) (f : Queue → Queue) : (s.modQueue q f).queue q = f (s.queue q) :=
  tgetD_tput_self _ _ _ _

theorem keepsContexts_modQueue (s : State) (q : Nat) (f : Queue → Queue) : KeepsContexts s (s.modQueue q f) :=
  keepsContexts_of_scs rfl rfl

theorem State.writeQcfg_of_clear (h : bitNat v.toNat 8 = false) :
    s.writeQcfg q v = s.modQueue q fun x => { x with en := false, log2 := v.toNat % 32 } := by
  simp [State.writeQcfg, h, bitsNat]

theorem State.writeQcfg_of_en (h : bitNat v.toNat 8 = true) (he : (s.queue q).en = true) : s.writeQcfg q v = s := by
  simp [State.writeQcfg, h, he]

theorem State.writeQcfg_of_ringOk (h : bitNat v.toNat 8 = true) (he : (s.queue q).en = false) (h1 : 1 ≤ v.toNat % 32)
    (h16 : v.toNat % 32 ≤ 16) (hr : s.ringOk q (s.queue q).base (v.toNat % 32) = true) (hd : s.mgmt.dead = false) :
    s.writeQcfg q v =
      s.modQueue q fun x => { x with en := true, log2 := v.toNat % 32, head := x.tail % 2 ^ (v.toNat % 32) } := by
  simp [State.writeQcfg, h, he, bitsNat, h1, h16, hr, hd]

theorem exec_qcfgWrite_of_lt (hq : q < 8192) : exec (.qcfgWrite q v) s = .next (s.writeQcfg q v) := by
  simp [execQcfgWrite, hq]

theorem exec_qtailWrite_of_lt (hq : q < 8192) : exec (.qtailWrite q v) s = .next (s.writeQtail q v) := by
  simp [execQtailWrite, hq]

theorem exec_qstatRefClear_of_lt (hq : q < 8192) : exec (.qstatRefClear q v) s = .next (s.writeQstat q v) := by
  simp [execQstatRefClear, hq]

theorem State.writeQstat_of_set (h : bitNat v.toNat 8 = true) :
    s.writeQstat q v = s.modQueue q fun x => { x with ref := x.fresh } := by
  simp [State.writeQstat, h]

theorem State.writeQstat_of_clear (h : bitNat v.toNat 8 = false) : s.writeQstat q v = s := by
  simp [State.writeQstat, h]

/-! ## DUP records (R339) -/

/-- A record is valid as the V of the value last put in its DREC0 says. -/
theorem State.drecV_of_get {x : Word} (h : tgetD s.drec (8 * i) 0 = x) : s.drecV i = bitNat x.toNat 63 := by
  subst h
  rfl

theorem exec_drecValidate_of_lt (hi : i < 256) : exec (.drecValidate i v) s = .next (s.writeDrec0 i v) := by
  simp [execDrecValidate, hi]

theorem State.writeDrec0_of_drecOk (hv : s.drecV i = false) (h : bitNat v.toNat 63 = true) (hok : s.drecOk i v = true) :
    s.writeDrec0 i v = { s with drec := tput s.drec (8 * i) v, dup := tput s.dup i {} } := by
  simp [State.writeDrec0, hv, h, hok]

theorem State.writeDrec0_of_not_drecOk (hv : s.drecV i = false) (h : bitNat v.toNat 63 = true) (hok : s.drecOk i v = false) :
    s.writeDrec0 i v = { s with drec := tput s.drec (8 * i) (v &&& 0x7FFFFFFFFFFFFFFF) } := by
  simp [State.writeDrec0, hv, h, hok]

/-- A value put without its V is not valid. -/
theorem bitNat_clearV (v : Word) : bitNat (v &&& 0x7FFFFFFFFFFFFFFF).toNat 63 = false := by
  rw [bitNat_toNat]
  simp

/-- A good record becomes valid, its page whole. -/
theorem exec_drecValidate_good (hi : i < 256) (hv : s.drecV i = false) (h : bitNat v.toNat 63 = true) (hok : s.drecOk i v = true) :
    ∃ t, exec (.drecValidate i v) s = .next t ∧ KeepsContexts s t ∧ t.drecV i = true
      ∧ (t.dupPage i).split = false ∧ (t.dupPage i).owned = [] := by
  refine ⟨_, exec_drecValidate_of_lt hi, ?_⟩
  rw [State.writeDrec0_of_drecOk hv h hok]
  refine ⟨keepsContexts_of_scs rfl rfl, (State.drecV_of_get (tgetD_tput_self _ _ _ _)).trans h, ?_⟩
  simp [State.dupPage]

/-- Any other stays without V. -/
theorem exec_drecValidate_bad (hi : i < 256) (hv : s.drecV i = false) (h : bitNat v.toNat 63 = true) (hok : s.drecOk i v = false) :
    ∃ t, exec (.drecValidate i v) s = .next t ∧ KeepsContexts s t ∧ t.drecV i = false := by
  refine ⟨_, exec_drecValidate_of_lt hi, ?_⟩
  rw [State.writeDrec0_of_not_drecOk hv h hok]
  exact ⟨keepsContexts_of_scs rfl rfl, (State.drecV_of_get (tgetD_tput_self _ _ _ _)).trans (bitNat_clearV v)⟩

/-! ## KSP and PTB (R208, R271) -/

/-- Dropping translations leaves all of a cluster but its TLB. -/
theorem State.sc_dropTlb (f : Nat → Xlat → Bool) (m : Nat) :
    (s.dropTlb f).sc m = { s.sc m with tlb := (s.sc m).tlb.filter fun e => !f e.1 e.2 } := by
  simp only [State.sc, State.dropTlb, tgetD]
  rw [tget_map s.scs (fun x => { x with tlb := x.tlb.filter fun e => !f e.1 e.2 })]
  cases tget s.scs m <;> rfl

theorem keepsContexts_dropTlb (f : Nat → Xlat → Bool) : KeepsContexts s (s.dropTlb f) :=
  ⟨rfl, fun m c => by rw [State.ctx, State.sc_dropTlb]; rfl⟩

theorem keepsContexts_writeKsp (s : State) (n : Nat) (v : Word) : KeepsContexts s (s.writeKsp n v) := by
  unfold State.writeKsp
  refine KeepsContexts.trans ?_ (keepsContexts_dropTlb _)
  exact keepsContexts_modSc s n _ fun _ => rfl

theorem State.ksp_writeKsp (s : State) (n : Nat) (v : Word) : ((s.writeKsp n v).sc n).ksp =
    (v &&& 0x1FFFFFFF000000) ||| (if bitNat v.toNat 0 = true ∧ s.kspOk n v = true then 1 else 0) := by
  simp only [State.writeKsp, State.sc_dropTlb, State.sc_modSc_self, Bool.and_eq_true]
  split <;> simp

theorem exec_kspWrite_of_none_saved (hn : n < 16) (h : (s.sc n).anySaved = false) :
    exec (.kspWrite n v) s = .next (s.writeKsp n v) := by
  simp [execKspWrite, hn, h]

theorem exec_ptbWrite_of_lt (hn : n < 16) : exec (.ptbWrite n v) s = .next (s.writePtb n v) := by
  simp [execPtbWrite, hn]

/-! ## Health (R13, R395) -/

/-- SYSCTX, AUTH and UE are the W1C bits. -/
theorem getLsbD_hlthW1c (k : Nat) : (0xB000 : Word).getLsbD k = decide (k = 12 ∨ k = 13 ∨ k = 15) := by
  by_cases hk : k < 64
  · exact (by decide : ∀ j : Fin 64, (0xB000 : Word).getLsbD j = decide (j.val = 12 ∨ j.val = 13 ∨ j.val = 15)) ⟨k, hk⟩
  · rw [BitVec.getLsbD_of_ge _ _ (by omega)]
    simp
    omega

theorem State.getLsbD_hlth_clearHlth (s : State) (v : Word) (k : Nat) : (s.clearHlth v).mgmt.hlth.getLsbD k =
    (s.mgmt.hlth.getLsbD k && !(v.getLsbD k && decide (k = 12 ∨ k = 13 ∨ k = 15) && !s.mgmt.fresh.getLsbD k)) := by
  by_cases hk : k < 64
  · simp only [State.clearHlth, BitVec.getLsbD_and, BitVec.getLsbD_not, getLsbD_hlthW1c, hk, decide_true, Bool.true_and]
  · simp [BitVec.getLsbD_of_ge _ k (Nat.le_of_not_lt hk)]

/-! ## Tag stores and frame maps (R297, R299) -/

theorem State.readTags_writeTags (s : State) (st o : Nat) (v : Word) : (s.writeTags st o v).readTags st o = v := by
  have h : ∀ i ∈ List.range 16, tgetD (s.writeTags st o v).tags (st * 2 ^ 28 + o * 2 + i) 15 = bitsNat v.toNat (4 * i) 4 :=
    fun i hi => tgetD_foldl_fields s.tags _ 15 (fun i => bitsNat v.toNat (4 * i) 4) (List.mem_range.1 hi)
  rw [State.readTags, List.foldl_ext _ _ _ fun a i hi => by rw [h i hi], ofNat_foldl_fields (by rfl) (by rfl)]

theorem State.readFrames_writeFrames (s : State) (st o : Nat) (v : Word) : (s.writeFrames st o v).readFrames st o = v := by
  have h : ∀ i ∈ List.range 32, tgetD (s.writeFrames st o v).fmap (st * 2 ^ 20 + o * 4 + i) 0 = bitsNat v.toNat (2 * i) 2 :=
    fun i hi => tgetD_foldl_fields s.fmap _ 0 (fun i => bitsNat v.toNat (2 * i) 2) (List.mem_range.1 hi)
  rw [State.readFrames, List.foldl_ext _ _ _ fun a i hi => by rw [h i hi], ofNat_foldl_fields (by rfl) (by rfl)]

theorem State.regRead_of_tagOffset (s : State) (h : tagOffset o = true) :
    s.regRead o = s.readTags ((o - 0x100000000) / 0x10000000) (o % 0x10000000) := by
  simp only [tagOffset, Bool.and_eq_true, beq_iff_eq, decide_eq_true_eq] at h
  obtain ⟨⟨⟨h8, hlo⟩, hhi⟩, hmod⟩ := h
  simp (disch := omega) only [State.regRead, Bool.and_eq_true, decide_eq_true_eq, if_neg, if_pos]

theorem State.regRead_of_frameOffset (s : State) (h : frameOffset o = true) :
    s.regRead o = s.readFrames ((o - 0x2000000) / 0x40000) (o % 0x40000) := by
  simp only [frameOffset, Bool.and_eq_true, beq_iff_eq, decide_eq_true_eq] at h
  obtain ⟨⟨h8, hlo⟩, hhi⟩ := h
  simp (disch := omega) only [State.regRead, Bool.and_eq_true, decide_eq_true_eq, if_neg, if_pos]

theorem exec_tagStoreWrite_of (h : tagOffset o = true) :
    exec (.tagStoreWrite o v) s = .next (s.writeTags ((o - 0x100000000) / 0x10000000) (o % 0x10000000) v) := by
  simp [execTagStoreWrite, h]

theorem exec_frameMapWrite_of (h : frameOffset o = true) :
    exec (.frameMapWrite o v) s = .next (s.writeFrames ((o - 0x2000000) / 0x40000) (o % 0x40000) v) := by
  simp [execFrameMapWrite, h]

/-! ## Ports (R355) -/

@[simp] theorem State.port_setPort_self (s : State) (p : Nat) (x : LockSt) : (s.setPort p x).port p = x :=
  tgetD_tput_self _ _ _ _

theorem keepsContexts_setPort (s : State) (p : Nat) (x : LockSt) : KeepsContexts s (s.setPort p x) :=
  keepsContexts_of_scs rfl rfl

theorem keepsContexts_measure3 (s : State) : KeepsContexts s s.measure3 := keepsContexts_of_scs rfl rfl

theorem keepsContexts_bringUp (s : State) : KeepsContexts s s.bringUp := keepsContexts_of_scs rfl rfl

theorem keepsContexts_useFree (s : State) (k : Nat) : KeepsContexts s (s.useFree k) := keepsContexts_of_scs rfl rfl

@[simp] theorem State.port_useFree (s : State) (k p : Nat) : (s.useFree k).port p = s.port p := rfl

theorem keepsContexts_lockLane (s : State) (p : Nat) : KeepsContexts s (s.lockLane p) := by
  unfold State.lockLane
  refine KeepsContexts.trans ?_
    ((keepsContexts_measure3 _).trans ((keepsContexts_setPort _ _ _).trans (keepsContexts_useFree _ _)))
  split
  · exact keepsContexts_bringUp s
  · exact keepsContexts_of_scs rfl rfl

/-- A lane that locks is LOCKED, or in ERROR where its partner reports another fabric version (R391). -/
theorem State.port_lockLane (s : State) (p : Nat) : (s.lockLane p).port p = if s.freeVal = 1 then .locked else .error := by
  simp only [State.lockLane, State.port_useFree, State.port_setPort_self]

theorem exec_portctlLock_unlocked (hp : portOk p = true) (h : s.port p = .unlocked) :
    ∃ t, exec (.portctlLock p) s = .next t ∧ KeepsContexts s t
      ∧ if p < 8 then t.port p = .locked else (t.port p = .locked ∨ t.port p = .error) := by
  refine ⟨_, rfl, ?_⟩
  by_cases h8 : p < 8
  · have e : s.lockPort p = s.setPort p .locked := by simp [State.lockPort, hp, h, h8]
    rw [e, if_pos h8]
    exact ⟨keepsContexts_setPort _ _ _, State.port_setPort_self _ _ _⟩
  · have e : s.lockPort p = s.lockLane p := by simp [State.lockPort, hp, h, Nat.le_of_not_lt h8]
    rw [e, if_neg h8]
    refine ⟨keepsContexts_lockLane s p, ?_⟩
    rw [State.port_lockLane]
    split
    · exact .inl rfl
    · exact .inr rfl

theorem exec_portctlLock_of_ne (h : s.port p ≠ .unlocked) : exec (.portctlLock p) s = .next s := by
  simp [execPortctlLock, State.lockPort, h]

theorem exec_portctlRun_locked (hp : portOk p = true) (h : s.port p = .locked) :
    ∃ t, exec (.portctlRun p) s = .next t ∧ KeepsContexts s t ∧ t.port p = .run := by
  refine ⟨_, rfl, ?_⟩
  simp only [State.runPort, hp, h, BEq.rfl, Bool.and_self, if_true]
  split
  · exact ⟨keepsContexts_of_scs rfl rfl, tgetD_tput_self _ _ _ _⟩
  · exact ⟨keepsContexts_setPort _ _ _, State.port_setPort_self _ _ _⟩

theorem exec_portctlRun_of_ne (h : s.port p ≠ .locked) : exec (.portctlRun p) s = .next s := by
  simp [execPortctlRun, State.runPort, h]

/-- A port that is not in RUN with traffic in flight unlocks at once. -/
theorem exec_portctlUnlock_drained (hp : portOk p = true) (hu : s.port p ≠ .unlocked)
    (hb : ¬(s.port p = .run ∧ s.portBusy p = true)) :
    ∃ t, exec (.portctlUnlock p) s = .next t ∧ KeepsContexts s t ∧ t.port p = .unlocked := by
  have e : s.unlockPort p = { s.setPort p .unlocked with unlocking := s.unlocking.filter (· != p) } := by
    simp [State.unlockPort, hp, hu, hb]
  refine ⟨_, rfl, ?_⟩
  rw [e]
  exact ⟨keepsContexts_of_scs rfl rfl, tgetD_tput_self _ _ _ _⟩

/-- One with traffic in flight stays in RUN and waits to unlock. -/
theorem exec_portctlUnlock_busy (hp : portOk p = true) (hr : s.port p = .run) (hb : s.portBusy p = true) :
    ∃ t, exec (.portctlUnlock p) s = .next t ∧ KeepsContexts s t ∧ t.port p = .run ∧ p ∈ t.unlocking := by
  have e : s.unlockPort p = { s with unlocking := s.unlocking ++ [p] } := by simp [State.unlockPort, hp, hr, hb]
  refine ⟨_, rfl, ?_⟩
  rw [e]
  exact ⟨keepsContexts_of_scs rfl rfl, hr, List.mem_append_right _ (List.mem_singleton_self p)⟩

theorem exec_portLinkFailure_port (hp : portOk p = true) :
    ∃ t, exec (.portLinkFailure p) s = .next t ∧ KeepsContexts s t ∧ t.port p = .error := by
  refine ⟨_, rfl, ?_⟩
  rw [State.failPort, if_pos hp]
  exact ⟨keepsContexts_of_scs rfl rfl, tgetD_tput_self _ _ _ _⟩

/-! ## Registers that ignore a write (R11, R317) -/

theorem State.regWrite_of_misaligned (s : State) (v : Word) (h : o % 8 ≠ 0) : s.regWrite o v = s := if_pos h

/-- The registers all of whose fields are RO. -/
theorem State.regWrite_readOnly (s : State) (v : Word) :
    ∀ r ∈ [0x200000, 0x200008, 0x300008, 0x300018, 0x300028, 0x400008, 0x400010], s.regWrite r v = s := by
  simp [State.regWrite]

/-! ## The statement -/

/-- Settles O47: each event is the write of one register or port above, and leaves memory and the contexts. -/
theorem registerWrites : Obligations.RegisterWrites := by
  intro s q n i p o v x rest
  refine ⟨fun hq => ⟨?qcfgClear, ?qcfgOn, ?qcfgEnable, ?qtail, ?qstatSet, ?qstatClear⟩, fun hi hv hb => ⟨?drecGood, ?drecBad⟩,
    ?fid, ?fidLocked, fun hn => ⟨?ksp, ?ptb⟩, ?plim, ?tthr, ?hlth, ?tag, ?frame,
    fun hp => ⟨?lock, ?lockNot, ?run, ?runNot, ?unlock, ?unlockBusy, ?fail⟩, ?misaligned, ?readOnly, ?hostlost⟩
  case qcfgClear =>
    intro h
    refine ⟨_, exec_qcfgWrite_of_lt hq, ?_⟩
    rw [State.writeQcfg_of_clear h]
    exact ⟨keepsContexts_modQueue _ _ _, by simp, by simp⟩
  case qcfgOn => exact fun h he => (exec_qcfgWrite_of_lt hq).trans (congrArg _ (State.writeQcfg_of_en h he))
  case qcfgEnable =>
    intro h he h1 h16 hr hd
    refine ⟨_, exec_qcfgWrite_of_lt hq, ?_⟩
    rw [State.writeQcfg_of_ringOk h he h1 h16 hr hd]
    exact ⟨keepsContexts_modQueue _ _ _, by simp, by simp [x]⟩
  case qtail =>
    refine ⟨_, exec_qtailWrite_of_lt hq, keepsContexts_modQueue _ _ _, ?_⟩
    simp [State.writeQtail, bitsNat, x]
  case qstatSet =>
    intro h
    refine ⟨_, exec_qstatRefClear_of_lt hq, ?_⟩
    rw [State.writeQstat_of_set h]
    exact ⟨keepsContexts_modQueue _ _ _, State.queue_modQueue_self _ _ _⟩
  case qstatClear => exact fun h => (exec_qstatRefClear_of_lt hq).trans (congrArg _ (State.writeQstat_of_clear h))
  case drecGood => exact exec_drecValidate_good hi hv hb
  case drecBad => exact exec_drecValidate_bad hi hv hb
  case fid =>
    intro h
    refine ⟨_, rfl, ?_⟩
    rw [State.writeFid, if_pos h]
    exact ⟨keepsContexts_of_scs rfl rfl, rfl⟩
  case fidLocked =>
    intro h
    simp [execFidWrite, State.writeFid, h]
  case ksp => exact fun h => ⟨_, exec_kspWrite_of_none_saved hn h, keepsContexts_writeKsp s n v, s.ksp_writeKsp n v⟩
  case ptb =>
    refine ⟨_, exec_ptbWrite_of_lt hn, keepsContexts_modSc s n _ fun _ => rfl, ?_⟩
    simp [State.writePtb]
  case plim => exact ⟨_, rfl, keepsContexts_of_scs rfl rfl, by simp [State.writePlim, clampNat, bitsNat]⟩
  case tthr => exact ⟨_, rfl, keepsContexts_of_scs rfl rfl, by simp [State.writeTthr, clampNat, bitsNat]⟩
  case hlth => exact ⟨_, rfl, keepsContexts_of_scs rfl rfl, s.getLsbD_hlth_clearHlth v⟩
  case tag =>
    exact fun h => ⟨_, exec_tagStoreWrite_of h, keepsContexts_of_scs rfl rfl,
      (State.regRead_of_tagOffset _ h).trans (s.readTags_writeTags _ _ v)⟩
  case frame =>
    exact fun h => ⟨_, exec_frameMapWrite_of h, keepsContexts_of_scs rfl rfl,
      (State.regRead_of_frameOffset _ h).trans (s.readFrames_writeFrames _ _ v)⟩
  case lock => exact exec_portctlLock_unlocked hp
  case lockNot => exact exec_portctlLock_of_ne
  case run => exact exec_portctlRun_locked hp
  case runNot => exact exec_portctlRun_of_ne
  case unlock => exact exec_portctlUnlock_drained hp
  case unlockBusy => exact exec_portctlUnlock_busy hp
  case fail => exact exec_portLinkFailure_port hp
  case misaligned => exact fun h => congrArg _ (s.regWrite_of_misaligned v h)
  case readOnly => exact fun r hr => congrArg _ (s.regWrite_readOnly v r hr)
  case hostlost => exact ⟨_, rfl, keepsContexts_of_scs rfl rfl, by simp [State.regWrite]⟩

end Sys2Proof.Machine
end

section
/-!
SUPPORT. The CTL operations (R98-R102): the bits of a predicate as a number, the return queues after an enqueue, and the
statement about them.
-/

namespace Sys2Proof.Machine

/-! ## Group conditions (R99) -/

theorem condAny_iff (m : Mask) : condAny m = true ↔ true ∈ m := by simp [condAny]
theorem condAll_iff (m : Mask) : condAll m = true ↔ false ∉ m := by simp [condAll]
theorem condNone_iff (m : Mask) : condNone m = true ↔ true ∉ m := by simp [condNone]
theorem condNall_iff (m : Mask) : condNall m = true ↔ false ∈ m := by simp [condNall]

/-! ## The bits of a predicate as a number (R40, R102) -/

/-- A sum of distinct powers of two below `n` has the bits that were chosen, and no other. -/
theorem testBit_foldl_pow (f : Nat → Bool) (n i : Nat) :
    ((List.range n).foldl (fun a l => if f l then a + 2 ^ l else a) 0).testBit i = (decide (i < n) && f i) := by
  have key : ∀ n, (List.range n).foldl (fun a l => if f l then a + 2 ^ l else a) 0 < 2 ^ n
      ∧ ((List.range n).foldl (fun a l => if f l then a + 2 ^ l else a) 0).testBit i = (decide (i < n) && f i) := by
    intro n
    induction n with
    | zero => simp
    | succ n ih =>
      obtain ⟨hlt, hbit⟩ := ih
      rw [List.range_succ, List.foldl_append, List.foldl_cons, List.foldl_nil]
      generalize (List.range n).foldl (fun a l => if f l then a + 2 ^ l else a) 0 = x at hlt hbit
      refine ⟨by split <;> omega, ?_⟩
      rcases Nat.lt_trichotomy i n with h | h | h
      · split
        · rw [Nat.add_comm, Nat.testBit_two_pow_add_gt h, hbit]
          simp [h, Nat.lt_succ_of_lt h]
        · rw [hbit]
          simp [h, Nat.lt_succ_of_lt h]
      · subst h
        split
        · next hf => rw [Nat.add_comm, Nat.testBit_two_pow_add_eq, hbit]; simp [hf]
        · next hf => rw [hbit]; simp [hf]
      · have hx : (if f n = true then x + 2 ^ n else x) < 2 ^ i := by
          have := Nat.pow_lt_pow_right (a := 2) (by omega) h
          have : 2 ^ (n + 1) ≤ 2 ^ i := Nat.pow_le_pow_right (by omega) h
          split <;> omega
        rw [Nat.testBit_lt_two_pow hx]
        simp [Nat.not_lt_of_ge h]
  exact (key n).2

/-- Bit i of the word kretp enqueues for core c (R102). -/
theorem getLsbD_maskBits (m : Mask) (c i : Nat) (hi : i < 32) :
    (BitVec.ofNat 32 (maskBits m c)).getLsbD i = (decide (i < 16) && m.getD (16 * c + i) false) := by
  rw [BitVec.getLsbD_ofNat, maskBits, testBit_foldl_pow]
  simp [hi]

/-! ## Return queues (R26) -/

/-- The queues after one word has been appended to that of each of the first `g` cores. -/
theorem tgetD_foldl_enqueue (q : Tab (List W32)) (f : Nat → W32) (g c : Nat) :
    tgetD ((List.range g).foldl (fun t c => tput t c (tgetD t c [] ++ [f c])) q) c [] =
      if c < g then tgetD q c [] ++ [f c] else tgetD q c [] := by
  induction g with
  | zero => simp
  | succ g ih =>
    rw [List.range_succ, List.foldl_append, List.foldl_cons, List.foldl_nil, tgetD_tput]
    by_cases h : c = g
    · subst h
      simp [ih]
    · have hlt : c < g + 1 ↔ c < g := by omega
      simp only [h, if_false, ih, hlt]

theorem Run.enqueue_of_room {r : Run} (h : r.rqRoom = true) (f : Nat → W32) :
    r.enqueue f = { r with rq := (List.range r.g).foldl (fun t c => tput t c (tgetD t c [] ++ [f c])) r.rq } := if_pos h

theorem Run.enqueue_of_full {r : Run} (h : r.rqRoom = false) (f : Nat → W32) : r.enqueue f = { r with stall := true } := by
  simp [Run.enqueue, h]

/-! ## Shapes -/

variable {i : Instr} {s : State}

/-- An operation that changes the run, and no noted fault, makes the run so changed. -/
theorem makes_map {f : Run → Run} (h : exec i s = kop i (fun _ => f) s)
    (hf : ∀ fs, f { s.myRun with faults := fs } = { f s.myRun with faults := fs }) : Makes i s (f s.myRun) := by
  refine makes_of h ?_
  rintro r fs rfl
  exact hf fs

/-- A branch is taken where its condition holds. -/
theorem makes_branch {b : Run → Bool} {t : BitVec 12} {c : Prop} [Decidable c]
    (h : exec i s = kop i (fun _ r => r.branch (b r) t) s) (hb : ∀ fs, b { s.myRun with faults := fs } = true ↔ c) :
    Makes i s (if c then { s.myRun with next := t.toNat } else s.myRun) := by
  refine makes_of h ?_
  rintro r fs rfl
  by_cases hc : c
  · simp only [Run.branch, (hb fs).2 hc, if_pos hc, if_true]
  · rw [if_neg hc, Run.branch, if_neg (mt (hb fs).1 hc)]

/-- A loop counter of 2 or more counts down and branches; one of 0 or 1 falls through at 0 (R100). -/
theorem makes_lbnz (s : State) (c : BitVec 2) (t : BitVec 12) : Makes (.ctlLbnz c t) s
    (if 2 ≤ (tgetD s.myRun.lc c.toNat 0).toNat then
      { s.myRun with lc := tput s.myRun.lc c.toNat (BitVec.ofNat 32 ((tgetD s.myRun.lc c.toNat 0).toNat - 1)), next := t.toNat }
    else { s.myRun with lc := tput s.myRun.lc c.toNat 0 }) := by
  refine makes_of (g := fun _ r => r.loop c t) rfl ?_
  rintro r fs rfl
  by_cases h : 2 ≤ (tgetD s.myRun.lc c.toNat 0).toNat
  · have hdec : tgetD s.myRun.lc c.toNat 0 - 1 = BitVec.ofNat 32 ((tgetD s.myRun.lc c.toNat 0).toNat - 1) := by
      bv_omega
    simp only [Run.loop, h, if_true, Run.setLc, hdec]
  · simp only [Run.loop, h, if_false, Run.setLc]

/-- halt ends issue once the run holds no bank and no slot (R27). -/
theorem makes_halt (hb : s.myRun.banks = []) (hs : s.myRun.slots = []) :
    Makes .ctlHalt s { s.myRun with halted := true } := by
  refine makes_of (g := fun _ r => r.doHalt) rfl ?_
  rintro r fs rfl
  simp [Run.doHalt, hb, hs]

/-- Otherwise it notes AM_HELD of the lowest core (R27, R34). -/
theorem notesFault_halt (h : s.myRun.banks ≠ [] ∨ s.myRun.slots ≠ []) : NotesFault .ctlHalt s 2 [0] := by
  refine notes_of (g := fun _ r => r.doHalt) rfl ?_
  rintro r fs rfl
  have hheld : ¬((s.myRun.banks.isEmpty && s.myRun.slots.isEmpty) = true) := by simpa [imp_iff_not_or] using h
  exact if_neg hheld

/-- An operation that returns a word to every core's queue enqueues it where all have room (R26). -/
theorem makes_enqueue {f : Run → Nat → W32} (h : exec i s = kop i (fun _ r => r.enqueue (f r)) s)
    (hf : ∀ fs, f { s.myRun with faults := fs } = f s.myRun) (hr : s.myRun.rqRoom = true) :
    ∃ q, Makes i s { s.myRun with rq := q } ∧ ∀ c, c < s.myRun.g → tgetD q c [] = tgetD s.myRun.rq c [] ++ [f s.myRun c] := by
  refine ⟨_, makes_of h ?_, fun c hc => (tgetD_foldl_enqueue s.myRun.rq (f s.myRun) s.myRun.g c).trans (if_pos hc)⟩
  rintro r fs rfl
  rw [hf]
  exact Run.enqueue_of_room (r := { s.myRun with faults := fs }) hr _

/-- And stalls the group where one is full. -/
theorem makes_stall_of_full {f : Run → Nat → W32} (h : exec i s = kop i (fun _ r => r.enqueue (f r)) s)
    (hr : s.myRun.rqRoom = false) : Makes i s { s.myRun with stall := true } := by
  refine makes_of h ?_
  rintro r fs rfl
  exact Run.enqueue_of_full (r := { s.myRun with faults := fs }) hr _

/-! ## The statement -/

/-- Settles O4: branches, loop counters, halt and the return queues each by their rule above. -/
theorem sequencerOperations : Obligations.SequencerOperations := by
  refine ⟨fun s p t c k n u => ⟨?nop, ?br, ?bany, ?ball, ?bnone, ?bnall, ?lset, ?lsetk, ?lsetv, ?lbnz, ?bkz, ?bknz⟩,
    fun s p n l x => ⟨?halt, ?held, ?idle, fun hr => ⟨?kret, ?kretp⟩, fun hr => ⟨?kretFull, ?kretpFull⟩⟩⟩
  case nop => exact makes_map (f := id) rfl fun _ => rfl
  case br => exact makes_map (f := (·.branch true t)) rfl fun _ => rfl
  case lset => exact makes_map (f := (·.setLc c (n.setWidth 32))) rfl fun _ => rfl
  case lsetk => exact makes_map (f := fun r => r.setLc c (r.arg k.toNat)) rfl fun _ => rfl
  case lsetv => exact makes_map (f := fun r => r.setLc c (r.uniform .int u.toNat)) rfl fun _ => rfl
  case idle => exact makes_map (f := fun r => { r with idle := n.toNat - 1 }) rfl fun _ => rfl
  case bany => exact makes_branch (b := fun r => condAny (r.predicate p.toNat)) rfl fun fs => condAny_iff _
  case ball => exact makes_branch (b := fun r => condAll (r.predicate p.toNat)) rfl fun fs => condAll_iff _
  case bnone => exact makes_branch (b := fun r => condNone (r.predicate p.toNat)) rfl fun fs => condNone_iff _
  case bnall => exact makes_branch (b := fun r => condNall (r.predicate p.toNat)) rfl fun fs => condNall_iff _
  case lbnz => exact makes_lbnz s c t
  case bkz => exact makes_branch (b := fun r => r.arg k.toNat == 0) rfl fun fs => beq_iff_eq
  case bknz => exact makes_branch (b := fun r => r.arg k.toNat != 0) rfl fun fs => bne_iff_ne
  case halt => exact makes_halt
  case held => exact notesFault_halt
  case kret => exact makes_enqueue (f := fun r c => (r.source .int x.toNat).getD (16 * c + l.toNat) 0) rfl (fun fs => rfl) hr
  case kretp =>
    obtain ⟨q, hm, hq⟩ :=
      makes_enqueue (i := .ctlKretp p) (f := fun r c => BitVec.ofNat 32 (maskBits (r.predicate p.toNat) c)) rfl (fun fs => rfl) hr
    exact ⟨q, hm, fun c hc => ⟨_, hq c hc, fun i hi => getLsbD_maskBits _ c i hi⟩⟩
  case kretFull => exact makes_stall_of_full (f := fun r c => (r.source .int x.toNat).getD (16 * c + l.toNat) 0) rfl hr
  case kretpFull => exact makes_stall_of_full (f := fun r c => BitVec.ofNat 32 (maskBits (r.predicate p.toNat) c)) rfl hr

end Sys2Proof.Machine
end

section
/-!
SUPPORT. Kernel runs and return queues (R25, R26, R220, R221): KRUN and KRQ by the outcome of their checks, the issue of an
entry that touches no memory, and the statement about them.
-/

namespace Sys2Proof.Machine

variable {s : State} {a b t : BitVec 5} {d : BitVec 1} {i : Image}

/-! ## Traps whose TVAL is the instruction (R204) -/

theorem zeroExtend_ofNat_of_lt {n : Nat} (h : n < 2 ^ 32) : (BitVec.ofNat 32 n).zeroExtend 64 = BitVec.ofNat 64 n := by
  apply BitVec.eq_of_toNat_eq
  simp only [BitVec.truncate_eq_setWidth, BitVec.toNat_setWidth, BitVec.toNat_ofNat]
  omega

/-- An instruction with a word that takes a trap whose TVAL is that word. -/
theorem traps_word {j : Instr} {n cause : Nat} (he : encode j = some (BitVec.ofNat 32 n)) (hn : n < 2 ^ 32)
    (hx : exec j s = .next (s.trap cause (BitVec.ofNat 64 n))) :
    ∃ w, encode j = some w ∧ Traps j s cause (w.zeroExtend 64) s.me.pc :=
  ⟨_, he, by rw [zeroExtend_ofNat_of_lt hn]; exact traps_of hx⟩

/-! ## What an update of a cluster leaves -/

theorem State.run_modSc_of (n : Nat) (f : Sc → Sc) (hf : ∀ x, (f x).runs = x.runs) (m k : Nat) :
    (s.modSc n f).run m k = s.run m k := by
  rw [State.run, State.sc_modSc]
  split
  · next h => rw [hf, h]; rfl
  · rfl

@[simp] theorem State.ctx_setRun (n k : Nat) (r : Run) (m c : Nat) : (s.setRun n k r).ctx m c = s.ctx m c :=
  (keepsContexts_modSc s n (fun t => { t with runs := tput t.runs k r }) fun _ => rfl).2 m c

@[simp] theorem State.run_setCtx (n c : Nat) (x : Ctx) (m k : Nat) : (s.setCtx n c x).run m k = s.run m k :=
  s.run_modSc_of n (fun t => { t with ctxs := tput t.ctxs c x }) (fun _ => rfl) m k

@[simp] theorem State.run_fin (m k : Nat) : s.fin.run m k = s.run m k := s.run_setCtx _ _ _ m k

@[simp] theorem State.me_setRun (n k : Nat) (r : Run) : (s.setRun n k r).me = s.me := s.ctx_setRun n k r _ _

@[simp] theorem State.me_fin : s.fin.me = s.me.next := s.me_modMe _

@[simp] theorem State.entries_setCtx (n c : Nat) (x : Ctx) (m : Nat) : ((s.setCtx n c x).sc m).entries = (s.sc m).entries := by
  rw [State.sc_setCtx]
  split
  · next h => rw [h]
  · rfl

@[simp] theorem State.entries_setRun (n k : Nat) (r : Run) (m : Nat) : ((s.setRun n k r).sc m).entries = (s.sc m).entries := by
  rw [State.setRun, State.sc_modSc]
  split
  · next h => rw [h]
  · rfl

@[simp] theorem State.entries_fin (m : Nat) : (s.fin.sc m).entries = (s.sc m).entries := s.entries_setCtx _ _ _ m

/-! ## The issue of an entry that touches no memory (R168, R187) -/

theorem State.afterAccesses_of_settled (h : s.Settled) (f : State → State) : s.afterAccesses f = f s := if_pos h

/-- Where there is room, work that touches no memory takes its entry. -/
theorem State.issue_of_room {w : Work} {ends : List End'} (hr : s.mySc.room s.myOwner = true) (f : State → State) :
    s.issue { work := w, ends := ends, mem := false } f =
      f (s.enter s.cur.sc s.myOwner s.me.sbars { work := w, ends := ends, mem := false }) := by
  simp [State.issue, State.windowWalk, State.windowTrap, State.touchAll, Issue.addresses, Issue.touches, Issue.exps,
    Issue.flagBytes, Issue.outOfBounds, leastOf, hullOf, hr]

@[simp] theorem State.cur_enter (n : Nat) (o : Owner) (bars : List (Nat × Nat)) (x : Issue) : (s.enter n o bars x).cur = s.cur := rfl

theorem State.sc_enter_self {n : Nat} {o : Owner} {bars : List (Nat × Nat)} {x : Issue} :
    (s.enter n o bars x).sc n = { s.sc n with
      entries := (s.sc n).entries ++ [{ (s.sc n).entryOf o bars x with seq := s.seq }],
      nextEntry := (s.sc n).nextEntry + 1 } := by
  simp [State.sc, State.enter, State.modSc, State.setSc]

theorem State.ctx_enter (n : Nat) (o : Owner) (bars : List (Nat × Nat)) (x : Issue) (m c : Nat) :
    (s.enter n o bars x).ctx m c = s.ctx m c :=
  (keepsContexts_modSc s n (fun t => { t with
    entries := t.entries ++ [{ t.entryOf o bars x with seq := s.seq }], nextEntry := t.nextEntry + 1 }) fun _ => rfl).2 m c

/-! ## KRUN (R25, R220) -/

/-- Once its registers hold values, none of them past g31, KRUN goes on to its checks (R210). -/
theorem krun_filled (hf : s.Filled (a :: b :: (s.krunRegs a b).map (BitVec.ofNat 5))) (hr : ∀ r ∈ s.krunRegs a b, r ≤ 31) :
    s.me.unfilledReg ([a, b].map BitVec.toNat) = none ∧ ((s.krunRegs a b).any fun r => 31 < r) = false
      ∧ s.me.unfilledReg (((s.krunRegs a b).map (BitVec.ofNat 5)).map BitVec.toNat) = none :=
  ⟨(hf.mono (by simp)).none, by simpa using hr, (hf.mono fun r h => by simp [List.mem_cons, h]).none⟩

/-- KRUN that needs a register past g31 traps ILLEGAL (R210). -/
theorem exec_krun_illegal (hf : s.Filled [a, b]) (hr : ∃ r ∈ s.krunRegs a b, 31 < r) :
    exec (.krun a b t d) s = .next (s.trap causeIllegal (wSX 0x60 a 0 0 b (t.toNat * 2 + d.toNat))) := by
  have hbeyond : ((s.krunRegs a b).any fun r => 31 < r) = true := by simpa using hr
  simp only [exec_krun, execKrun, ctlFirst, hf.none, hbeyond, if_true]

/-- KRUN of no loaded kernel traps KERNEL_HANDLE. -/
theorem exec_krun_noImage (hf : s.Filled (a :: b :: (s.krunRegs a b).map (BitVec.ofNat 5))) (hr : ∀ r ∈ s.krunRegs a b, r ≤ 31)
    (hi : s.mySc.image (s.g a).toNat = none) : exec (.krun a b t d) s = .next (s.trap causeKernelHandle (s.g a)) := by
  obtain ⟨hab, hbeyond, hrest⟩ := krun_filled hf hr
  simp only [exec_krun, execKrun, ctlFirst, ctl, hab, hbeyond, hrest, hi, Bool.false_eq_true, if_false]

/-- KRUN that a port refuses traps KRUN_REFUSED with the reason (R25). -/
theorem exec_krun_refused {v : Nat} (hf : s.Filled (a :: b :: (s.krunRegs a b).map (BitVec.ofNat 5)))
    (hr : ∀ r ∈ s.krunRegs a b, r ≤ 31) (hi : s.mySc.image (s.g a).toNat = some i) (hb : bindingsOk i.header (s.g b) = true)
    (hk : s.krunRefused i.header (s.g b) = some v) :
    exec (.krun a b t d) s = .next (s.trap causeKrunRefused (BitVec.ofNat 64 v)) := by
  obtain ⟨hab, hbeyond, hrest⟩ := krun_filled hf hr
  simp only [exec_krun, execKrun, ctlFirst, ctl, hab, hbeyond, hrest, hi, hb, hk, Bool.not_true, Bool.false_eq_true, if_false]

/-- KRUN of a loaded kernel that no port refuses takes an entry and makes the run (R176, R220). -/
theorem exec_krun_issues (hf : s.Filled (a :: b :: (s.krunRegs a b).map (BitVec.ofNat 5))) (hi : s.mySc.image (s.g a).toNat = some i)
    (hr : ∀ r ∈ s.krunRegs a b, r ≤ 31) (hb : bindingsOk i.header (s.g b) = true) (hk : s.krunRefused i.header (s.g b) = none)
    (hs : s.Settled) (hroom : s.mySc.room s.myOwner = true) :
    ∃ u e, exec (.krun a b t d) s = .next u ∧ u.mySc.entries = s.mySc.entries ++ [e] ∧ e.work = .run ∧ e.st = .waiting
      ∧ e.owner = s.myOwner ∧ u.me = s.me.next ∧ u.mem = s.mem
      ∧ u.run s.cur.sc s.mySc.nextEntry = s.newRun a b i t.toNat (d == 1) := by
  obtain ⟨hab, hbeyond, hrest⟩ := krun_filled hf hr
  simp only [exec_krun, execKrun, ctlFirst, ctl, hab, hbeyond, hrest, hi, hb, hk, Bool.not_true, Bool.false_eq_true, if_false,
    State.afterAccesses_of_settled hs, State.issue_of_room hroom]
  generalize hx : ({ work := .run, ends := runEnds (s.newRun a b i t.toNat (d == 1)).ports, mem := false } : Issue) = x
  refine ⟨_, { s.mySc.entryOf s.myOwner s.me.sbars x with seq := s.seq }, rfl, ?_, ?_⟩
  · refine (State.entries_fin _).trans ((State.entries_setRun _ _ _ _).trans ?_)
    exact congrArg Sc.entries State.sc_enter_self
  refine ⟨by rw [← hx]; rfl, rfl, rfl, ?_, rfl, ?_⟩
  · rw [State.me_fin, State.me_setRun]
    exact congrArg Ctx.next (State.ctx_enter _ _ _ _ _ _)
  · exact (State.run_fin _ _).trans (State.run_setRun_self _ _ _ _)

/-! ## KRQ (R26, R221) -/

/-- A result written and the instruction done, in the terms of `Safety`. -/
theorem Ctx.wrote_setReg_next (x : Ctx) (r : Nat) (v : Word) : x.Wrote (x.setReg r v).next r v := by
  refine ⟨by unfold Ctx.setReg; split <;> rfl, fun q => ?_⟩
  rw [Ctx.reg_next, Ctx.reg_setReg]
  by_cases h1 : q = r <;> by_cases h2 : q = 0 <;> simp_all

/-- KRQ gives the oldest word of the queue and removes it. -/
theorem exec_krq_reads {k : Nat} {r : Run} {x : W32} {q : List W32} (hf : s.Filled [a, b]) (hc : (s.g b).toNat < 16)
    (hk : s.krqRun t.toNat (s.g b).toNat = some (k, r)) (hg : (s.g b).toNat < r.g) (hq : tgetD r.rq (s.g b).toNat [] = x :: q) :
    ∃ u, exec (.krq a b t) s = .next u ∧ s.me.Wrote u.me a.toNat (BitVec.ofNat 64 x.toNat) ∧ u.mem = s.mem
      ∧ tgetD (u.run s.cur.sc k).rq (s.g b).toNat [] = q := by
  refine ⟨(s.setRun s.cur.sc k { r with rq := tput r.rq (s.g b).toNat q }).ret a (x.setWidth 64), ?_, ?_, rfl, ?_⟩
  · simp only [exec_krq, execKrq, hf.ctl, Nat.not_le.2 hc, Nat.not_le.2 hg, hk, hq, if_false]
  · rw [State.ret_eq, State.me_modMe, State.me_setRun, BitVec.ofNat_toNat]
    exact Ctx.wrote_setReg_next _ _ _
  · rw [State.ret_eq]
    have hrun := (State.run_setCtx (s := s.setRun s.cur.sc k { r with rq := tput r.rq (s.g b).toNat q }) s.cur.sc s.cur.ctx
      ((s.setRun s.cur.sc k { r with rq := tput r.rq (s.g b).toNat q }).me.setReg a.toNat (x.setWidth 64)).next s.cur.sc k).trans
      (State.run_setRun_self _ _ _ _)
    exact (congrArg (fun y : Run => tgetD y.rq (s.g b).toNat []) hrun).trans (tgetD_tput_self _ _ _ _)

/-- KRQ of an empty queue waits. -/
theorem blocks_krq {k : Nat} {r : Run} (hf : s.Filled [a, b]) (hc : (s.g b).toNat < 16)
    (hk : s.krqRun t.toNat (s.g b).toNat = some (k, r)) (hg : (s.g b).toNat < r.g) (hq : tgetD r.rq (s.g b).toNat [] = []) :
    Blocks (.krq a b t) s (.krq k (s.g b).toNat) := by
  refine blocks_of (b := true) ?_
  simp only [exec_krq, execKrq, hf.ctl, Nat.not_le.2 hc, Nat.not_le.2 hg, hk, hq, if_false]

/-- KRQ for a core or a run that is not there traps. -/
theorem exec_krq_absent (hf : s.Filled [a, b]) (h : 16 ≤ (s.g b).toNat ∨ s.krqRun t.toNat (s.g b).toNat = none) :
    exec (.krq a b t) s = .next (s.trap causeStreamArg (wSX 0x61 a 0 0 b (t.toNat * 2))) := by
  by_cases hc : 16 ≤ (s.g b).toNat
  · simp only [exec_krq, execKrq, hf.ctl, hc, if_true]
  · simp only [exec_krq, execKrq, hf.ctl, hc, if_false, h.resolve_left hc]

/-! ## The statement -/

/-- Settles O29: KRUN and KRQ by the outcome of their checks. -/
theorem kernelRunsAndReturnQueues : Obligations.KernelRunsAndReturnQueues := by
  intro s a b t d i
  refine ⟨?illegal, fun hf => ⟨?issues, ?noImage, ?refused, fun k r hk hg hc => ⟨?reads, ?waits⟩, ?absent⟩⟩
  case illegal =>
    intro hf hr
    refine traps_word (n := 1610612736 + a.toNat * 524288 + b.toNat * 64 + t.toNat * 2 + d.toNat) rfl (by omega) ?_
    rw [exec_krun_illegal hf hr, wSX]
    simp [causeIllegal, Nat.add_assoc]
  case issues =>
    intro hi hr hb hk hs hroom
    obtain ⟨u, e, hx, hent, hw, hst, ho, hme, hmem, hrun⟩ := exec_krun_issues (t := t) (d := d) hf hi hr hb hk hs hroom
    refine ⟨u, e, hx, hent, hw, hst, ho, by rw [hme]; rfl, fun r => by rw [hme]; rfl, hmem, ?_⟩
    rw [hrun]
    exact ⟨rfl, rfl, rfl, rfl, rfl, rfl⟩
  case noImage =>
    exact fun hi hr => traps_of (exec_krun_noImage hf hr hi)
  case refused =>
    exact fun v hi hr hb hk => traps_of (exec_krun_refused hf hr hi hb hk)
  case reads => exact fun x q hq => exec_krq_reads (hf.mono (by simp)) hc hk hg hq
  case waits => exact fun hq => blocks_krq (hf.mono (by simp)) hc hk hg hq
  case absent =>
    intro h
    refine traps_word (n := 1627389952 + a.toNat * 524288 + b.toNat * 64 + t.toNat * 2) rfl (by omega) ?_
    rw [exec_krq_absent (hf.mono (by simp)) h, wSX]
    simp [causeStreamArg]

end Sys2Proof.Machine
end

section
/-!
SUPPORT. One step (R15, R165, R247, R333): what an agent's turn does where execution stands, by the state of the context or run
whose turn it is; and the statement about it.
-/

namespace Sys2Proof.Machine

variable {s t u : State} {n c k : Nat}

/-! ## The turn -/

/-- The state when the next turn begins: its time has passed, and spent budgets of blocked tasks have acted. -/
def State.atTurn (s : State) : State := (s.takeTurn.2.advance s.takeTurn.1.ns s.takeTurn.1.cyc).expireBlocked

theorem State.takeTurn_cons {x : Turn} {rest : List Turn} (h : s.agenda = x :: rest) :
    s.takeTurn = (x, { s with agenda := rest }) := by
  simp only [State.takeTurn, h]

theorem State.takeTurn_nil (h : s.agenda = []) : s.takeTurn = (Config.turn s.turnNo, { s with turnNo := s.turnNo + 1 }) := by
  simp only [State.takeTurn, h]

/-- An agent that may not act does nothing. -/
theorem step_of_not_mayAct (h : s.atTurn.mayAct s.takeTurn.1.who = false) : step s = .next s.atTurn := by
  unfold State.atTurn at *
  simp only [step, h, Bool.false_eq_true, if_false]

/-- What an agent does that may act is followed by what it causes at once. -/
theorem step_of_act (hm : s.atTurn.mayAct s.takeTurn.1.who = true) (h : act s.takeTurn.1.who s.atTurn = .next t) :
    step s = .next (s.atTurn.afterTurn t) := by
  unfold State.atTurn at *
  simp only [step, hm, h, if_true]

/-- After a thermal trip nothing follows a turn (R394). -/
theorem State.afterTurn_tripped (h : t.mgmt.tripped = true) (hh : t.hits = []) : u.afterTurn t = t := by
  simp only [State.afterTurn, State.settle, h, hh, List.isEmpty_nil, if_true]

/-! ## Words -/

theorem decode_of_ok {w : W32} {i : Instr} (h : decodeWord w = .ok i) : decode w = i := by
  simp only [decode, h]

theorem decode_of_error {w : W32} {e : DecodeError} (h : decodeWord w = .error e) : decode w = .illegalInstruction w := by
  simp only [decode, h]

/-! ## Contexts (R165, R198, R203, R247, R333) -/

theorem issueContext_none (h : u.nextCtx n = none) : u.issueContext exec n = .next u := by
  simp only [State.issueContext, h]

/-- An LDM or STM that has begun goes on with the word it began with (R201). -/
theorem issueContext_parts {p q : Nat} {rest : List (Nat × Xlat)} {w : W32} {i : Instr} (hc : u.nextCtx n = some c)
    (hw : (u.ctx n c).wait = some (.parts p q rest w)) (hi : decodeWord w = .ok i) :
    u.issueContext exec n = exec i (u.atCtx n c) := by
  simp only [State.issueContext, hc, hw, decode_of_ok hi]

/-- At a boundary come a reclamation point, a spent budget, a due trap and the instruction, in that order (log 76). -/
theorem issueContext_of_boundary (hc : u.nextCtx n = some c) (hw : (u.ctx n c).midway = false) :
    u.issueContext exec n =
      if u.ctxReclaimed n c then exec (.reclamationPoint (futKey (u.ctx n c).fut.toNat)) u
      else if c < 16 ∧ (u.ctx n c).bud = 0 then exec (.budgetExpiry n c) u
      else if (u.ctx n c).trapDue then exec (.asyncTrap n c) u
      else exec (u.fetched n c) (u.afterFetch n c) := by
  have hnot : ∀ p q rest w, (u.ctx n c).wait ≠ some (.parts p q rest w) := by
    intro p q rest w h
    simp [Ctx.midway, h] at hw
  simp only [State.issueContext, hc, hw, and_true]

/-- The word at the pc, where the fetch succeeds (R198). -/
theorem State.fetched_of_xlat {x : Xlat} (hx : u.xlat n (u.ctx n c).pc.toNat = some x) (hX : x.x = true)
    (ha : (u.ctx n c).pc.toNat % 4 = 0) (hr : inRegs (localOf x.pa) = false) :
    u.fetched n c = decode (BitVec.ofNat 32 (bytesNat (u.bytes (localOf x.pa) 4))) := by
  simp [State.fetched, hx, hX, ha, State.fetchWord, hr, State.readNat]

theorem State.fetched_of_xlat_none (hx : u.xlat n (u.ctx n c).pc.toNat = none) : u.fetched n c = .fetchFault (u.ctx n c).pc := by
  simp only [State.fetched, hx]

theorem State.fetched_of_not_x {x : Xlat} (hx : u.xlat n (u.ctx n c).pc.toNat = some x) (hX : x.x = false) :
    u.fetched n c = .fetchFault (u.ctx n c).pc := by
  simp [State.fetched, hx, hX]

/-! ## Runs (R15, R20) -/

/-- A run that issues bundles, and stands unmarked at the boundary of its next, issues it. -/
theorem runCycle_of_issuing (hp : (u.run n k).phase = .running) (hm : (u.run n k).preempt = false) (hs : (u.run n k).stop = false)
    (hh : (u.run n k).halted = false) (hi : (u.run n k).idle = 0) :
    u.runCycle exec n k = (u.modRun n k (fun r => r.payStalls (u.bundleAt n r))).issueBundle exec n k := by
  simp [State.runCycle, hp, hm, hs, hh, hi]

/-- A bundle whose operations have all acted is closed. -/
theorem issueBundle_of_issueSyls (h : issueSyls exec (List.range 14)
      { u.setRun n k ((u.run n k).landAll.beginBundle (u.bundleAt n (u.run n k))) with cur := { u.cur with sc := n, run := k } }
        = .next t) :
    u.issueBundle exec n k = .next (u.closeBundle n k t) := by
  simp only [State.issueBundle, h]

/-- The operation of a syllable acts before those after it (log 90). -/
theorem issueSyls_cons {w : State} {j : Nat} {js : List Nat} {sl : Slot} {i : Instr} (hj : slotOf j = some sl)
    (hd : decodeSyllable sl (w.myRun.bundle.getD j 0) = some i)
    (hx : exec i { w with cur := { w.cur with syl := j } } = .next t) : issueSyls exec (j :: js) w = issueSyls exec js t := by
  have hop : ({ w with cur := { w.cur with syl := j } } : State).myRun.opAt j = some i := by
    simp only [Run.opAt, hj]
    exact hd
  simp only [issueSyls, hop, hx]

/-! ## The statement -/

/-- Settles O55: the turn, the context, the run and the event by their lemmas above. -/
theorem stepRunsTheDecodedInstruction : Obligations.StepRunsTheDecodedInstruction := by
  intro s turn u
  refine ⟨fun x rest => State.takeTurn_cons, State.takeTurn_nil, step_of_not_mayAct, fun hmay => ⟨?boundary, ?fetch, ?idle, ?run, ?event⟩,
    fun t => State.afterTurn_tripped⟩
  case boundary =>
    intro n c hwho hc
    have hstep : ∀ t, u.issueContext exec n = .next t → step s = .next (u.afterTurn t) := fun t h =>
      step_of_act hmay (by rw [hwho]; exact h)
    refine ⟨fun p k rest w i t hw hi hx => hstep t ((issueContext_parts hc hw hi).trans hx), fun hw hr t hx => hstep t ?_,
      fun hr h16 hb hw t hx => hstep t ?_, fun hw hr hb hd t hx => hstep t ?_⟩
    · rw [issueContext_of_boundary hc hw, if_pos hr, hx]
    · rw [issueContext_of_boundary hc hw, if_neg (by simp [hr]), if_pos ⟨h16, hb⟩, hx]
    · rw [issueContext_of_boundary hc hw, if_neg (by simp [hr]), if_neg hb, if_pos hd, hx]
  case fetch =>
    intro n c hwho hc hw hr hb hd pc v
    have hfetch : ∀ i, u.fetched n c = i → ∀ t, exec i v = .next t → step s = .next (u.afterTurn t) := by
      rintro i rfl t hx
      refine step_of_act hmay ?_
      rw [hwho]
      exact (issueContext_of_boundary hc hw).trans (by rw [if_neg (by simp [hr]), if_neg hb, if_neg (by simp [hd])]; exact hx)
    exact ⟨fun x i hx hX ha hg hi => hfetch i ((State.fetched_of_xlat hx hX ha hg).trans (decode_of_ok hi)),
      fun x e hx hX ha hg he => hfetch _ ((State.fetched_of_xlat hx hX ha hg).trans (decode_of_error he)),
      fun hx => hfetch _ (State.fetched_of_xlat_none hx), fun x hx hX => hfetch _ (State.fetched_of_not_x hx hX)⟩
  case idle =>
    intro n hwho hc
    exact step_of_act hmay (by rw [hwho]; exact issueContext_none hc)
  case run =>
    intro n k hwho m hp hpre hstop hhalt hidle w r v
    refine ⟨fun t hx => step_of_act hmay ?_, fun w t j js sl i => issueSyls_cons⟩
    rw [hwho]
    exact (runCycle_of_issuing hp hpre hstop hhalt hidle).trans (issueBundle_of_issueSyls hx)
  case event =>
    intro i t hwho he hx
    refine step_of_act hmay ?_
    rw [hwho]
    exact (if_pos he).trans hx

end Sys2Proof.Machine
end

section
/-!
SUPPORT. Checks (R112), and the posts of banks and slots (R131, R132, R145).
-/

namespace Sys2Proof.Machine

variable {s : State} {i : Instr}

/-! ## Checks (R112) -/

theorem mem_chosen {m : Mask} {k : Nat} : k ∈ chosen m ↔ m[k]? = some true := by
  simp only [chosen, List.mem_filter, List.mem_range, List.getD_eq_getElem?_getD]
  constructor
  · rintro ⟨hk, h⟩
    simpa [List.getElem?_eq_getElem hk] using h
  · intro h
    have hk : k < m.length := (List.getElem?_eq_some_iff.1 h).1
    simpa [hk] using h

/-- A check notes fault code 1 in the cores that hold a bad lane. -/
theorem notesFault_check {bad : Run → Mask} (h : exec i s = kop i (fun _ r => r.checkLanes (bad r)) s)
    (hb : ∀ fs, bad { s.myRun with faults := fs } = bad s.myRun) :
    ∃ cs, NotesFault i s 1 cs ∧ ∀ c, c ∈ cs ↔ ∃ k, (bad s.myRun)[k]? = some true ∧ c = k / 16 := by
  refine ⟨(chosen (bad s.myRun)).map (· / 16), notes_of h ?_, fun c => ?_⟩
  · rintro r fs rfl
    rw [hb]
    rfl
  · simp only [List.mem_map, mem_chosen, eq_comm]

theorem notesFault_chkeq (s : State) (h : BitVec 12) (a b : BitVec 8) :
    ∃ cs, NotesFault (.hkChkeq h a b) s 1 cs ∧ ∀ c, c ∈ cs ↔ ∃ (k : Nat) (x y : W32),
      (s.myRun.source .int a.toNat)[k]? = some x ∧ (s.myRun.source .int b.toNat)[k]? = some y ∧ x ≠ y ∧ c = k / 16 := by
  obtain ⟨cs, hn, hcs⟩ := notesFault_check (i := .hkChkeq h a b)
    (bad := fun r => List.zipWith (· != ·) (r.source .int a.toNat) (r.source .int b.toNat)) rfl fun _ => rfl
  refine ⟨cs, hn, fun c => (hcs c).trans (exists_congr fun k => ?_)⟩
  simp only [List.getElem?_zipWith_eq_some, bne_iff_ne, ← exists_and_right, and_assoc]

theorem notesFault_chkz (s : State) (h : BitVec 12) (a : BitVec 8) :
    ∃ cs, NotesFault (.hkChkz h a) s 1 cs ∧ ∀ c, c ∈ cs ↔ ∃ (k : Nat) (x : W32),
      (s.myRun.source .int a.toNat)[k]? = some x ∧ x ≠ 0 ∧ c = k / 16 := by
  obtain ⟨cs, hn, hcs⟩ := notesFault_check (i := .hkChkz h a) (bad := fun r => (r.source .int a.toNat).map (· != 0)) rfl fun _ => rfl
  refine ⟨cs, hn, fun c => (hcs c).trans (exists_congr fun k => ?_)⟩
  simp only [List.getElem?_map, Option.map_eq_some_iff, bne_iff_ne, ← exists_and_right, and_assoc]

theorem notesFault_chkovf (s : State) (h : BitVec 12) (a : BitVec 8) :
    ∃ cs, NotesFault (.hkChkovf h a) s 1 cs ∧ ∀ c, c ∈ cs ↔ ∃ b, tget s.myRun.banks a.toNat = some b ∧ c ∈ b.ovf := by
  refine ⟨((tget s.myRun.banks a.toNat).map Bank.ovf).getD [],
    notes_of (g := fun _ r => r.fault 1 (((tget r.banks a.toNat).map Bank.ovf).getD [])) rfl ?_, fun c => ?_⟩
  · rintro r fs rfl
    rfl
  · cases tget s.myRun.banks a.toNat <;> simp

theorem notesFault_chkall (s : State) (h : BitVec 12) (a : BitVec 8) :
    ∃ cs, NotesFault (.hkChkall h a) s 1 cs ∧ ∀ c, c ∈ cs ↔ ∃ k : Nat,
      (s.myRun.predicate a.toNat)[k]? = some false ∧ c = k / 16 := by
  obtain ⟨cs, hn, hcs⟩ := notesFault_check (i := .hkChkall h a) (bad := fun r => (r.predicate a.toNat).map (!·)) rfl fun _ => rfl
  refine ⟨cs, hn, fun c => (hcs c).trans (exists_congr fun k => ?_)⟩
  simp [List.getElem?_map]

/-! ## Posts of banks and slots (R131, R132, R145) -/

/-- An operation that only puts a result in flight, of no register, lands. -/
theorem lands_post {lat : Nat} {e : Effect} (he : marksOf e = []) (h : exec i s = kop i (fun _ r => r.post lat e) s) :
    Lands i s lat e [] := by
  refine lands_of h ?_
  rintro r fs rfl
  rw [he, List.append_nil]
  rfl

/-- A claim of a declared slot that is not claimed lands. -/
theorem lands_mclaim {m : BitVec 8} (hm : m.toNat < s.myRun.tomN) (hs : tget s.myRun.slots m.toNat = none) :
    Lands (.amMclaim m) s 1 (.claim m.toNat) [] := by
  refine lands_of (g := fun _ r => r.claimSlot m.toNat) rfl ?_
  rintro r fs rfl
  have hfree : ¬((decide (s.myRun.tomN ≤ m.toNat) || thas s.myRun.slots m.toNat) = true) := by simp [hm, thas, hs]
  rw [show marksOf (.claim m.toNat) = [] from rfl, List.append_nil]
  exact if_neg hfree

/-- Any other is TOM_SLOT_BAD of the lowest core (R34, R132). -/
theorem notesFault_mclaim {m : BitVec 8} (h : s.myRun.tomN ≤ m.toNat ∨ tget s.myRun.slots m.toNat ≠ none) :
    NotesFault (.amMclaim m) s 4 [0] := by
  refine notes_of (g := fun _ r => r.claimSlot m.toNat) rfl ?_
  rintro r fs rfl
  have hbad : (decide (s.myRun.tomN ≤ m.toNat) || thas s.myRun.slots m.toNat) = true := by
    simpa [thas, Option.isSome_iff_ne_none] using h
  exact if_pos hbad

end Sys2Proof.Machine
end

section
/-!
SUPPORT. The end of a run (R26, R27, R33, R34, R158): what the lengths of its streams, its retirement and the trap of its owner
change, and what they leave.
-/

namespace Sys2Proof.Machine

variable {s t u : State} {n k : Nat}

/-! ## What an update of clusters alone leaves -/

/-- `t` differs from `s` in the clusters alone, and there in no context and no data cache. -/
def KeepsCtxs (s t : State) : Prop :=
  t = { s with scs := t.scs } ∧ ∀ m, (t.sc m).ctxs = (s.sc m).ctxs ∧ (t.sc m).lines = (s.sc m).lines

theorem KeepsCtxs.refl (s : State) : KeepsCtxs s s := ⟨rfl, fun _ => ⟨rfl, rfl⟩⟩

theorem KeepsCtxs.trans (h : KeepsCtxs s t) (h' : KeepsCtxs t u) : KeepsCtxs s u :=
  ⟨h'.1.trans (by rw [h.1]), fun m => ⟨(h'.2 m).1.trans (h.2 m).1, (h'.2 m).2.trans (h.2 m).2⟩⟩

theorem keepsCtxs_modSc (s : State) (n : Nat) (f : Sc → Sc) (hf : ∀ x, (f x).ctxs = x.ctxs ∧ (f x).lines = x.lines) :
    KeepsCtxs s (s.modSc n f) := by
  refine ⟨rfl, fun m => ?_⟩
  rw [State.sc_modSc]
  split
  · next h => rw [h]; exact hf _
  · exact ⟨rfl, rfl⟩

theorem keepsCtxs_setRun (s : State) (n k : Nat) (r : Run) : KeepsCtxs s (s.setRun n k r) :=
  keepsCtxs_modSc s n _ fun _ => ⟨rfl, rfl⟩

theorem KeepsCtxs.ctx (h : KeepsCtxs s t) (m c : Nat) : t.ctx m c = s.ctx m c := by
  rw [State.ctx, State.ctx, (h.2 m).1]

theorem KeepsCtxs.mem (h : KeepsCtxs s t) : t.mem = s.mem := by rw [h.1]

theorem KeepsCtxs.sameBytes (h : KeepsCtxs s t) : SameBytes s t := by
  have heq := h.1
  exact fun a => State.byte_congr (by rw [heq]) (by rw [heq]) (by rw [heq]) (by rw [heq]) (by rw [heq]) (fun m => (h.2 m).2) a

theorem KeepsCtxs.futLive (h : KeepsCtxs s t) (x : Nat) : t.futLive x = s.futLive x := by
  rw [h.1]; rfl

theorem KeepsCtxs.locate (h : KeepsCtxs s t) (x : Nat) : t.locate x = s.locate x := by
  have hw : t.whereIs x = s.whereIs x := by simp only [State.whereIs, h.ctx]
  have hs : t.sleepers = s.sleepers := by rw [h.1]
  rw [State.locate, State.locate, hw, hs]

theorem KeepsCtxs.ownerStands (h : KeepsCtxs s t) (n : Nat) (o : Owner) : t.ownerStands n o = s.ownerStands n o := by
  cases o <;> simp only [State.ownerStands, h.futLive, h.locate, h.ctx]

/-! ## The lengths of a run's out streams (R158) -/

/-- The streams of a cluster with the length of each that is bound to an out port set. -/
def lengthsSet (r : Run) (f : Port → Stream → Nat) (t : Tab Stream) : Tab Stream :=
  r.ports.foldl (fun t p => if p.2.dir = .out then
    tput t p.2.stream { tgetD t p.2.stream {} with len := f p.2 (tgetD t p.2.stream {}) } else t) t

theorem State.sc_setLengths (s : State) (n : Nat) (r : Run) (f : Port → Stream → Nat) (m : Nat) :
    (s.setLengths n r f).sc m = if m = n then { s.sc n with streams := lengthsSet r f (s.sc n).streams } else s.sc m := by
  unfold State.setLengths lengthsSet
  induction r.ports generalizing s with
  | nil => split <;> simp_all
  | cons p ps ih =>
    rw [List.foldl_cons, List.foldl_cons, ih]
    by_cases ho : p.2.dir = .out
    · simp only [ho, if_true]
      split
      · simp [State.setStream, State.stream]
      · next hm => rw [State.setStream, State.sc_modSc, if_neg hm]
    · simp only [ho, if_false]

theorem keepsCtxs_setLengths (s : State) (n : Nat) (r : Run) (f : Port → Stream → Nat) : KeepsCtxs s (s.setLengths n r f) := by
  unfold State.setLengths
  induction r.ports generalizing s with
  | nil => exact KeepsCtxs.refl s
  | cons p ps ih =>
    rw [List.foldl_cons]
    refine KeepsCtxs.trans ?_ (ih _)
    split
    · exact keepsCtxs_modSc s n _ fun _ => ⟨rfl, rfl⟩
    · exact KeepsCtxs.refl s

/-- A stream that no out port is bound to keeps its length. -/
theorem tgetD_lengthsSet_of_unbound (r : Run) (f : Port → Stream → Nat) (t : Tab Stream) (d : Nat)
    (h : ∀ p ∈ r.ports, p.2.dir = .out → p.2.stream ≠ d) : tgetD (lengthsSet r f t) d {} = tgetD t d {} := by
  unfold lengthsSet
  generalize r.ports = ps at h
  induction ps generalizing t with
  | nil => rfl
  | cons p ps ih =>
    rw [List.foldl_cons, ih _ fun q hq => h q (List.mem_cons_of_mem _ hq)]
    split
    · next ho => exact tgetD_tput_of_ne _ _ _ (h p (List.mem_cons_self ..) ho).symm
    · rfl

/-- A stream that one out port alone is bound to has the length that port gives it. -/
theorem tgetD_lengthsSet_of_bound (r : Run) (f : Port → Stream → Nat) (t : Tab Stream) (p : Nat × Port)
    (hf : ∀ x l, f p.2 { x with len := l } = f p.2 x) (hp : p ∈ r.ports) (ho : p.2.dir = .out)
    (hu : ∀ q ∈ r.ports, q.2.dir = .out → q.2.stream = p.2.stream → q = p) :
    tgetD (lengthsSet r f t) p.2.stream {} =
      { tgetD t p.2.stream {} with len := f p.2 (tgetD t p.2.stream {}) } := by
  let st := tgetD t p.2.stream {}
  have key : ∀ (ps : List (Nat × Port)) (t : Tab Stream), (∀ q ∈ ps, q ∈ r.ports) →
      (tgetD t p.2.stream {} = { st with len := f p.2 st } ∨ tgetD t p.2.stream {} = st ∧ p ∈ ps) →
      tgetD (ps.foldl (fun t q => if q.2.dir = .out then
        tput t q.2.stream { tgetD t q.2.stream {} with len := f q.2 (tgetD t q.2.stream {}) } else t) t) p.2.stream {}
          = { st with len := f p.2 st } := by
    intro ps
    induction ps with
    | nil => exact fun t _ h => h.resolve_right (by simp)
    | cons q ps ih =>
      intro t hsub h
      rw [List.foldl_cons]
      refine ih _ (fun x hx => hsub x (List.mem_cons_of_mem _ hx)) ?_
      by_cases hq : q.2.dir = .out ∧ q.2.stream = p.2.stream
      · obtain rfl := hu q (hsub q (List.mem_cons_self ..)) hq.1 hq.2
        rw [if_pos hq.1, tgetD_tput_self]
        left
        rcases h with h | ⟨h, -⟩
        · rw [h]
          exact congrArg (fun l => { st with len := l }) (hf st _)
        · rw [h]
      · have hne : q ≠ p := by rintro rfl; exact hq ⟨ho, rfl⟩
        have hsame : tgetD (if q.2.dir = .out then
            tput t q.2.stream { tgetD t q.2.stream {} with len := f q.2 (tgetD t q.2.stream {}) } else t) p.2.stream {}
              = tgetD t p.2.stream {} := by
          split
          · next hd => exact tgetD_tput_of_ne _ _ _ fun e => hq ⟨hd, e.symm⟩
          · rfl
        rw [hsame]
        exact h.imp id fun h => ⟨h.1, (List.mem_cons.1 h.2).resolve_left hne.symm⟩
  exact key r.ports t (fun _ hq => hq) (.inr ⟨rfl, hp⟩)

/-! ## Retirement (R26, R27) -/

theorem keepsCtxs_retireRun (s : State) (n k : Nat) (r : Run) : KeepsCtxs s (s.retireRun n k r) := by
  have hdrop : KeepsCtxs s (s.modSc n fun t => t.dropEntry k) := keepsCtxs_modSc s n _ fun _ => ⟨rfl, rfl⟩
  unfold State.retireRun
  dsimp only
  split
  · exact hdrop.trans (keepsCtxs_setRun _ n k _)
  · exact hdrop.trans (keepsCtxs_modSc _ n _ fun _ => ⟨rfl, rfl⟩)

/-- The cluster of a run that has retired: its entry is gone, and the run stays while its owner stands. -/
theorem State.sc_retireRun (s : State) (n k : Nat) (r : Run) : (s.retireRun n k r).sc n =
    { s.sc n with
      entries := (s.sc n).entries.filter fun e => e.id != k,
      runs := if s.ownerStands n r.owner then tput (s.sc n).runs k r.retire else tdel (s.sc n).runs k } := by
  have hdrop : KeepsCtxs s (s.modSc n fun t => t.dropEntry k) := keepsCtxs_modSc s n _ fun _ => ⟨rfl, rfl⟩
  unfold State.retireRun
  dsimp only
  rw [hdrop.ownerStands]
  split
  · simp [State.setRun, Sc.dropEntry]
  · simp [Sc.dropEntry]

/-! ## The trap of an owner (R34, R203) -/

/-- What holds of every state that differs in a context, or in the tasks that sleep, holds where a trap has been set pending. -/
theorem State.pendTrap_induction {P : State → Prop} (s : State) (n : Nat) (o : Owner) (cause : Nat) (v : Word) (h0 : P s)
    (hc : ∀ m c f, P (s.modCtx m c f)) (hs : ∀ l, P { s with sleepers := l }) : P (s.pendTrap n o cause v) := by
  unfold State.pendTrap
  cases o with
  | ctx c =>
    dsimp only
    split
    · exact h0
    · exact hc _ _ _
  | task h =>
    dsimp only
    split
    · cases s.locate (futKey h) with
      | inCtx m c => exact hc _ _ _
      | asleep x => exact hs _
      | nowhere => exact h0
    · exact h0

theorem State.mem_pendTrap (s : State) (n : Nat) (o : Owner) (cause : Nat) (v : Word) : (s.pendTrap n o cause v).mem = s.mem :=
  s.pendTrap_induction (P := fun t => t.mem = s.mem) n o cause v rfl (fun _ _ _ => rfl) fun _ => rfl

theorem State.sameBytes_pendTrap (s : State) (n : Nat) (o : Owner) (cause : Nat) (v : Word) : SameBytes s (s.pendTrap n o cause v) :=
  s.pendTrap_induction (P := SameBytes s) n o cause v (fun _ => rfl) (fun m c f => s.byte_modCtx m c f)
    fun _ => State.byte_congr rfl rfl rfl rfl rfl fun _ => rfl

/-- A pending trap changes of a cluster at most its contexts. -/
theorem State.sc_pendTrap (s : State) (n : Nat) (o : Owner) (cause : Nat) (v : Word) (m : Nat) :
    (s.pendTrap n o cause v).sc m = { s.sc m with ctxs := ((s.pendTrap n o cause v).sc m).ctxs } := by
  refine s.pendTrap_induction (P := fun t => t.sc m = { s.sc m with ctxs := (t.sc m).ctxs }) n o cause v rfl (fun j c f => ?_) fun _ => rfl
  rw [State.modCtx, State.sc_setCtx]
  split
  · next h => rw [h]
  · rfl

theorem State.ctx_pendTrap_ctx {c : Nat} (cause : Nat) (v : Word) (h : (s.ctx n c).st ≠ .free) :
    (s.pendTrap n (.ctx c) cause v).ctx n c = { s.ctx n c with apend := (s.ctx n c).apend ++ [(cause, v)] } := by
  simp only [State.pendTrap, h, if_false, State.ctx_modCtx_self]

theorem State.ctx_pendTrap_task {h m c : Nat} (n cause : Nat) (v : Word) (hl : s.futLive h = true)
    (hw : s.locate (futKey h) = .inCtx m c) :
    (s.pendTrap n (.task h) cause v).ctx m c = { s.ctx m c with apend := (s.ctx m c).apend ++ [(cause, v)] } := by
  simp only [State.pendTrap, hl, hw, if_true, State.ctx_modCtx_self]

end Sys2Proof.Machine
end

section
/-!
SUPPORT. Landings leave the group of a run (R17); the fault a run reports (R34, R35); how a bundle ends.
-/

namespace Sys2Proof.Machine

variable {s t : State} {n k : Nat} {r q : Run}

/-! ## What landings leave -/

/-- `q` is `r` but for the state that landings write. -/
abbrev LandsOnly (r q : Run) : Prop :=
  q = { r with regs := q.regs, preds := q.preds, slots := q.slots, banks := q.banks, pend := q.pend, fly := q.fly,
               tmis := q.tmis, dbgBits := q.dbgBits }

theorem LandsOnly.trans {p : Run} (h : LandsOnly r q) (h' : LandsOnly q p) : LandsOnly r p :=
  Eq.trans h' (by rw [h])

theorem LandsOnly.owner (h : LandsOnly r q) : q.owner = r.owner := by rw [h]
theorem LandsOnly.ports (h : LandsOnly r q) : q.ports = r.ports := by rw [h]
theorem LandsOnly.rq (h : LandsOnly r q) : q.rq = r.rq := by rw [h]
theorem LandsOnly.tag (h : LandsOnly r q) : q.tag = r.tag := by rw [h]
theorem LandsOnly.seq (h : LandsOnly r q) : q.seq = r.seq := by rw [h]
theorem LandsOnly.pc (h : LandsOnly r q) : q.pc = r.pc := by rw [h]

theorem landsOnly_foldl {α : Type} {f : Run → α → Run} (hf : ∀ r a, LandsOnly r (f r a)) (l : List α) (r : Run) :
    LandsOnly r (l.foldl f r) := by
  induction l generalizing r with
  | nil => rfl
  | cons a l ih => exact (hf r a).trans (ih _)

theorem landsOnly_applyFly (r : Run) (f : FlyRow) : LandsOnly r (r.applyFly f) := by
  unfold Run.applyFly
  split
  · split <;> rfl
  · rfl

theorem landsOnly_clearMarks (r : Run) (d : Nat) (m : Mask) : LandsOnly r (r.clearMarks d m) := by
  unfold Run.clearMarks
  split <;> rfl

theorem landsOnly_putRows (r : Run) (k : Nat) (v : Tab Row) : LandsOnly r (r.putRows k v) := by
  unfold Run.putRows
  split
  · split <;> rfl
  · rfl

theorem landsOnly_putAmRow (r : Run) (k x : Nat) (v : Row) : LandsOnly r (r.putAmRow k x v) := by
  unfold Run.putAmRow
  split
  · split <;> rfl
  · rfl

theorem landsOnly_land (r : Run) (e : Effect) : LandsOnly r (r.land e) := by
  cases e with
  | reg d v m => exact LandsOnly.trans (q := { r with regs := tput r.regs d (merge (r.reg d) v m) }) rfl (landsOnly_clearMarks _ d m)
  | pred d v m => rfl
  | line m i v tag => unfold Run.land; dsimp only; split <;> rfl
  | claim m => rfl
  | release m => unfold Run.land; dsimp only; split <;> rfl
  | alloc k part => unfold Run.land; dsimp only; split <;> rfl
  | free k => rfl
  | clear k => unfold Run.land; dsimp only; split <;> rfl
  | clearOvf k => unfold Run.land; dsimp only; split <;> rfl
  | bankRows k v => exact landsOnly_putRows r k v
  | amRow k x v => exact landsOnly_putAmRow r k x v

theorem landsOnly_landRows (r : Run) (parts : Bool) : LandsOnly r (r.landRows parts) :=
  LandsOnly.trans (q := { r with fly := r.fly.filter (fun f => !(f.n == 0 && f.parts == parts)) }) rfl
    (landsOnly_foldl landsOnly_applyFly _ _)

theorem landsOnly_landDue (r : Run) : LandsOnly r r.landDue :=
  LandsOnly.trans (q := { r with pend := r.pend.filter (fun p => p.n != 0) }) rfl (landsOnly_foldl landsOnly_land _ _)

theorem landsOnly_landAll (r : Run) : LandsOnly r r.landAll :=
  ((landsOnly_landRows r false).trans (landsOnly_landRows _ true)).trans (landsOnly_landDue _)

/-! ## The fault reported (R34) -/

theorem foldl_min_le_init (l : List Nat) (a : Nat) : l.foldl min a ≤ a := by
  induction l generalizing a with
  | nil => exact Nat.le_refl a
  | cons b l ih => exact (ih _).trans (Nat.min_le_left a b)

theorem foldl_min_le {l : List Nat} {b : Nat} (a : Nat) (h : b ∈ l) : l.foldl min a ≤ b := by
  induction l generalizing a with
  | nil => cases h
  | cons c l ih =>
    rcases List.mem_cons.1 h with rfl | h
    · exact (foldl_min_le_init l _).trans (Nat.min_le_right a b)
    · exact ih _ h

/-- The least element of a list none of whose elements exceeds the initial value is in it. -/
theorem foldl_min_mem {l : List Nat} {a : Nat} (hne : l ≠ []) (h : ∀ b ∈ l, b ≤ a) : l.foldl min a ∈ l := by
  induction l generalizing a with
  | nil => exact absurd rfl hne
  | cons c l ih =>
    rw [List.foldl_cons, Nat.min_eq_right (h c (List.mem_cons_self ..))]
    have hmem : ∀ l : List Nat, l.foldl min c = c ∨ l.foldl min c ∈ l := by
      clear ih hne h
      intro l
      induction l generalizing c with
      | nil => exact .inl rfl
      | cons d l ih =>
        rw [List.foldl_cons]
        rcases Nat.le_total c d with hcd | hcd
        · rw [Nat.min_eq_left hcd]
          exact (ih c).imp id (List.mem_cons_of_mem d)
        · rw [Nat.min_eq_right hcd]
          exact .inr (List.mem_cons.2 (ih d))
    exact List.mem_cons.2 (hmem l)

/-- The fault reported is one noted, of the lowest core, and the lowest code of that core. -/
theorem leastFault_spec {fs : List (Nat × Nat)} (hne : fs ≠ []) (hb : ∀ p ∈ fs, p.1 < 16 ∧ p.2 < 16) :
    leastFault fs ∈ fs ∧ (∀ p ∈ fs, (leastFault fs).1 ≤ p.1) ∧ ∀ p ∈ fs, p.1 = (leastFault fs).1 → (leastFault fs).2 ≤ p.2 := by
  have hle (c : Nat) (p : Nat × Nat) (hp : p ∈ fs) (h : p.1 = c) : p.2 ∈ (fs.filter fun f => f.1 == c).map Prod.snd :=
    List.mem_map_of_mem (List.mem_filter.2 ⟨hp, by simpa using h⟩)
  have hcore : (leastFault fs).1 ∈ fs.map Prod.fst := foldl_min_mem (by simpa using hne) fun b hb' => by
    obtain ⟨p, hp, rfl⟩ := List.mem_map.1 hb'
    exact Nat.le_of_lt_succ (hb p hp).1
  obtain ⟨p, hp, hpc⟩ := List.mem_map.1 hcore
  have hcode : (leastFault fs).2 ∈ (fs.filter fun f => f.1 == (leastFault fs).1).map Prod.snd :=
    foldl_min_mem (List.ne_nil_of_mem (hle _ p hp hpc)) fun b hb' => by
      obtain ⟨x, hx, rfl⟩ := List.mem_map.1 hb'
      exact Nat.le_of_lt_succ (hb x (List.mem_filter.1 hx).1).2
  obtain ⟨x, hx, hxc⟩ := List.mem_map.1 hcode
  obtain ⟨hxm, hxe⟩ := List.mem_filter.1 hx
  refine ⟨?_, fun p hp => foldl_min_le 15 (List.mem_map_of_mem hp), fun p hp h => foldl_min_le 15 (hle _ p hp h)⟩
  rwa [← show x = leastFault fs from Prod.ext (by simpa using hxe) hxc]

/-! ## A run that ends in a stream fault (R34, R35, R158) -/

/-- The length a faulting run gives a stream: what its earlier bundles pushed and published. -/
def faultLen (p : Port) (st : Stream) : Nat := wrap32 (p.n + 2 ^ 32 - (p.staging.length + st.rowLen * p.u) % 2 ^ 32)

/-- The state whose owner's trap a fault then sets pending. -/
def State.faultRetired (s : State) (n k : Nat) (r : Run) : State := (s.setLengths n r faultLen).retireRun n k r

theorem State.faultRun_eq (s : State) (n k : Nat) (r : Run) (fs : List (Nat × Nat)) : s.faultRun n k r fs =
    (s.faultRetired n k r).pendTrap n r.owner causeStreamFault
      (faultTval (leastFault fs).1 (leastFault fs).2 ((((s.sc n).entry? k).map Entry.slot).getD 0) r.seq r.pc) := rfl

theorem keepsCtxs_faultRetired (s : State) (n k : Nat) (r : Run) : KeepsCtxs s (s.faultRetired n k r) :=
  (keepsCtxs_setLengths s n r _).trans (keepsCtxs_retireRun _ n k r)

theorem State.sameBytes_faultRun (s : State) (n k : Nat) (r : Run) (fs : List (Nat × Nat)) : SameBytes s (s.faultRun n k r fs) :=
  fun a => (State.sameBytes_pendTrap _ n r.owner _ _ a).trans ((keepsCtxs_faultRetired s n k r).sameBytes a)

theorem State.mem_faultRun (s : State) (n k : Nat) (r : Run) (fs : List (Nat × Nat)) : (s.faultRun n k r fs).mem = s.mem :=
  (State.mem_pendTrap _ n r.owner _ _).trans (keepsCtxs_faultRetired s n k r).mem

/-- The cluster of a run that ended in a stream fault, but for its contexts. -/
theorem State.sc_faultRun (s : State) (n k : Nat) (r : Run) (fs : List (Nat × Nat)) : (s.faultRun n k r fs).sc n =
    { s.sc n with
      ctxs := ((s.faultRun n k r fs).sc n).ctxs,
      streams := lengthsSet r faultLen (s.sc n).streams,
      entries := (s.sc n).entries.filter fun e => e.id != k,
      runs := if s.ownerStands n r.owner then tput (s.sc n).runs k r.retire else tdel (s.sc n).runs k } := by
  have hlen := keepsCtxs_setLengths s n r faultLen
  rw [State.faultRun_eq, State.sc_pendTrap, State.faultRetired, State.sc_retireRun, State.sc_setLengths, if_pos rfl, hlen.ownerStands]

theorem State.tget_runs_faultRun_of_ne (s : State) (r : Run) (fs : List (Nat × Nat)) {j : Nat} (h : j ≠ k) :
    tget ((s.faultRun n k r fs).sc n).runs j = tget (s.sc n).runs j := by
  rw [State.sc_faultRun]
  dsimp only
  split
  · exact tget_tput_of_ne _ _ h
  · exact tget_tdel_of_ne _ h

theorem State.run_faultRun (r : Run) (fs : List (Nat × Nat)) (h : s.ownerStands n r.owner = true) :
    (s.faultRun n k r fs).run n k = r.retire := by
  rw [State.run, State.sc_faultRun]
  simp [h]

theorem State.tget_runs_faultRun (r : Run) (fs : List (Nat × Nat)) (h : s.ownerStands n r.owner = false) :
    tget ((s.faultRun n k r fs).sc n).runs k = none := by
  rw [State.sc_faultRun]
  simp [h]

theorem State.stream_faultRun (s : State) (n k : Nat) (r : Run) (fs : List (Nat × Nat)) (d : Nat) :
    (s.faultRun n k r fs).stream n d = tgetD (lengthsSet r faultLen (s.sc n).streams) d {} := by
  rw [State.stream, State.sc_faultRun]

theorem State.ctx_faultRun_ctx {c : Nat} {e : Entry} (fs : List (Nat × Nat)) (ho : r.owner = .ctx c) (h : (s.ctx n c).st ≠ .free)
    (he : (s.sc n).entry? k = some e) : (s.faultRun n k r fs).ctx n c =
      { s.ctx n c with apend := (s.ctx n c).apend ++
          [(causeStreamFault, faultTval (leastFault fs).1 (leastFault fs).2 e.slot r.seq r.pc)] } := by
  have hc := (keepsCtxs_faultRetired s n k r).ctx n c
  rw [State.faultRun_eq, ho, State.ctx_pendTrap_ctx _ _ (by rwa [hc]), hc, he]
  rfl

theorem State.ctx_faultRun_task {h m c : Nat} {e : Entry} (fs : List (Nat × Nat)) (ho : r.owner = .task h) (hl : s.futLive h = true)
    (hw : s.locate (futKey h) = .inCtx m c) (he : (s.sc n).entry? k = some e) : (s.faultRun n k r fs).ctx m c =
      { s.ctx m c with apend := (s.ctx m c).apend ++
          [(causeStreamFault, faultTval (leastFault fs).1 (leastFault fs).2 e.slot r.seq r.pc)] } := by
  have hk := keepsCtxs_faultRetired s n k r
  rw [State.faultRun_eq, ho, State.ctx_pendTrap_task n _ _ (by rwa [hk.futLive]) (by rwa [hk.locate]), hk.ctx, he]
  rfl

/-! ## How a bundle ends -/

theorem State.closeBundle_of_stall (h : (t.run n k).stall = true) :
    s.closeBundle n k t = s.modRun n k fun x => x.spend 1 := by
  simp only [State.closeBundle, h, if_true]

theorem State.closeBundle_of_issue (h : (t.run n k).stall = false) (hf : (t.run n k).faults = []) :
    s.closeBundle n k t = t.setRun n k (t.run n k).endIssue := by
  simp [State.closeBundle, h, hf]

theorem State.closeBundle_of_fault (h : (t.run n k).stall = false) (hf : (t.run n k).faults ≠ []) :
    s.closeBundle n k t = s.faultRun n k (s.run n k).landAll (t.run n k).faults := by
  simp [State.closeBundle, h, hf]

/-- Settles O5: a check's bad lanes are those its sources name; a post is in flight; a faulting bundle ends its run over the
run as it stood before it, of which landings leave the group. -/
theorem checksBanksAndSlots : Obligations.ChecksBanksAndSlots := by
  unfold Obligations.ChecksBanksAndSlots
  refine ⟨fun s h a b => ⟨notesFault_chkeq s h a b, notesFault_chkz s h a, notesFault_chkovf s h a, notesFault_chkall s h a⟩,
    fun s k m => ⟨lands_post rfl rfl, lands_post rfl rfl, lands_post rfl rfl, lands_post rfl rfl, lands_post rfl rfl,
      lands_post rfl rfl, lands_mclaim, notesFault_mclaim⟩, fun s t n k => ⟨State.closeBundle_of_stall, State.closeBundle_of_issue, ?_⟩⟩
  intro hstall hfaults hbound
  have hl := landsOnly_landAll (s.run n k)
  have howner : (s.run n k).landAll.owner = (s.run n k).owner := hl.owner
  have hports : (s.run n k).landAll.ports = (s.run n k).ports := hl.ports
  have hrq : (s.run n k).landAll.rq = (s.run n k).rq := hl.rq
  have htag : (s.run n k).landAll.tag = (s.run n k).tag := hl.tag
  have hseq : (s.run n k).landAll.seq = (s.run n k).seq := hl.seq
  have hpc : (s.run n k).landAll.pc = (s.run n k).pc := hl.pc
  obtain ⟨hmem, hcore, hcode⟩ := leastFault_spec hfaults hbound
  rw [State.closeBundle_of_fault hstall hfaults]
  generalize (s.run n k).landAll = q at *
  refine ⟨s.sameBytes_faultRun n k q _, s.mem_faultRun n k q _, ?entries, fun j hj => s.tget_runs_faultRun_of_ne q _ hj,
    ?stands, ?gone, ?unbound, ?bound, _, _, hmem, hcore, hcode, ?trap⟩
  case entries => rw [State.sc_faultRun]
  case stands =>
    intro ho
    rw [State.run_faultRun q _ (howner ▸ ho)]
    exact ⟨rfl, hrq, htag⟩
  case gone => exact fun ho => State.tget_runs_faultRun q _ (howner ▸ ho)
  case unbound =>
    intro d hd
    rw [State.stream_faultRun, tgetD_lengthsSet_of_unbound _ _ _ _ (hports ▸ hd)]
    rfl
  case bound =>
    intro p hp ho hu
    rw [State.stream_faultRun, tgetD_lengthsSet_of_bound _ _ _ p (fun _ _ => rfl) (hports ▸ hp) ho (hports ▸ hu)]
    rfl
  case trap =>
    intro e he
    rw [← howner, ← hseq, ← hpc]
    exact ⟨fun c hc hst => State.ctx_faultRun_ctx _ hc hst he, fun h m c hc hl hw => State.ctx_faultRun_task _ hc hl hw he⟩

end Sys2Proof.Machine
end

section
/-!
SUPPORT. Operand codes and latches (R40, R44, R45), and what each result does as it lands (R17, R70, R72, R74, R75).
-/

namespace Sys2Proof.Machine

variable {r : Run} {rd : Reading}

/-! ## Operand codes (R40) -/

theorem Run.source_reg {c : Nat} (h : c < 192) : r.source rd c = r.reg c := by simp [Run.source, h]

theorem Run.source_lane {l : Nat} (h : l < r.lanes) : (r.source rd 192)[l]? = some (BitVec.ofNat 32 (l % 16)) := by
  simp [Run.source, Run.tabulate, h]

theorem Run.source_core {l : Nat} (h : l < r.lanes) : (r.source rd 193)[l]? = some (BitVec.ofNat 32 (l / 16)) := by
  simp [Run.source, Run.tabulate, h]

/-- The codes from 194 up give every lane one value. -/
theorem Run.source_uniform {c l : Nat} (hc : 194 ≤ c) (h : l < r.lanes) : (r.source rd c)[l]? = some (r.uniform rd c) := by
  have h1 : ¬c < 192 := by omega
  have h2 : c ≠ 192 := by omega
  have h3 : c ≠ 193 := by omega
  simp [Run.source, Run.splat, h, h1, h2, h3]

theorem Run.uniform_arg {k : Nat} (h : k < 8) : r.uniform rd (198 + k) = r.arg k := by
  have h1 : 198 + k ≠ 194 := by omega
  have h2 : 198 + k ≠ 195 := by omega
  have h3 : 198 + k ≠ 196 := by omega
  have h4 : 198 + k ≠ 197 := by omega
  have h5 : 198 + k < 206 := by omega
  simp [Run.uniform, h1, h2, h3, h4, h5]

theorem Run.uniform_immediate {c : Nat} (h : 224 ≤ c) : r.uniform rd c = immediate rd ((c : Int) - 240) := by
  have h1 : c ≠ 194 := by omega
  have h2 : c ≠ 195 := by omega
  have h3 : c ≠ 196 := by omega
  have h4 : c ≠ 197 := by omega
  have h5 : ¬c < 206 := by omega
  have h6 : c ≠ 208 := by omega
  have h7 : c ≠ 209 := by omega
  simp [Run.uniform, h1, h2, h3, h4, h5, h6, h7]

theorem Run.input_held {syl c : Nat} {b : Bool} (h : r.held (latchIx syl b) = true) :
    r.input syl b rd c = r.latch (latchIx syl b) := by simp [Run.input, h]

theorem Run.input_notHeld {syl c : Nat} {b : Bool} (h : r.held (latchIx syl b) = false) :
    r.input syl b rd c = r.source rd c := by simp [Run.input, h]

/-! ## Registers and predicates (R17, R68) -/

/-- The lanes a mask enables take the new value and the others keep theirs. -/
theorem merge_getElem? {α : Type} {os vs : List α} {ms : List Bool} {k : Nat} {o v : α} {b : Bool}
    (ho : os[k]? = some o) (hv : vs[k]? = some v) (hb : ms[k]? = some b) : (merge os vs ms)[k]? = some (if b then v else o) := by
  induction os generalizing vs ms k with
  | nil => simp at ho
  | cons o' os ih =>
    cases vs with
    | nil => simp at hv
    | cons v' vs =>
      cases ms with
      | nil => simp at hb
      | cons b' ms =>
        cases k with
        | zero =>
          obtain rfl : o' = o := by simpa using ho
          obtain rfl : v' = v := by simpa using hv
          obtain rfl : b' = b := by simpa using hb
          rfl
        | succ k => exact ih ho hv hb

theorem Run.land_reg (hd : r.dbg = false) (d : Nat) (v : Row) (m : Mask) :
    r.land (.reg d v m) = { r with regs := tput r.regs d (merge (r.reg d) v m) } := by
  simp [Run.land, Run.clearMarks, hd]

theorem Run.reg_land_reg (hd : r.dbg = false) (d : Nat) (v : Row) (m : Mask) :
    (r.land (.reg d v m)).reg d = merge (r.reg d) v m := by
  rw [Run.land_reg hd]
  exact tgetD_tput_self ..

theorem Run.predicate_land_pred {d : Nat} (hd : 0 < d) (v m : Mask) :
    (r.land (.pred d v m)).predicate d = merge (r.predicate d) v m := by
  rw [Run.predicate, if_neg (Nat.ne_of_gt hd)]
  exact tgetD_tput_self ..

/-! ## Slots (R70, R72, R132) -/

theorem linesWord_nil (c w : Nat) : linesWord [] c w = 0 := rfl

theorem Run.slotTag_of {m : Nat} {sl : TomSlot} (h : tget r.slots m = some sl) : r.slotTag m = sl.tag := by
  simp [Run.slotTag, h]

theorem Run.slotLines_of {m : Nat} {sl : TomSlot} (h : tget r.slots m = some sl) : r.slotLines m = sl.lines := by
  simp [Run.slotLines, h]

/-- A claimed slot is new: its tag is NONE and its lines read zero. -/
theorem Run.land_claim (r : Run) (m : Nat) : let q := r.land (.claim m)
    q = { r with slots := q.slots } ∧ (∀ x, x ≠ m → tget q.slots x = tget r.slots x) ∧ thas q.slots m = true ∧ q.slotTag m = 0
      ∧ ∀ c w, linesWord (q.slotLines m) c w = 0 := by
  have hm : tget (r.land (.claim m)).slots m = some {} := tget_tput_self ..
  refine ⟨rfl, fun x hx => tget_tput_of_ne _ _ hx, by simp [thas, hm], Run.slotTag_of hm, fun c w => ?_⟩
  rw [Run.slotLines_of hm]
  exact linesWord_nil c w

theorem Run.land_release_free {m : Nat} (h : tget r.slots m = none) : r.land (.release m) = r := by
  simp [Run.land, thas, h]

theorem Run.land_release {m : Nat} (h : thas r.slots m = true) : let q := r.land (.release m)
    q = { r with slots := tdel r.slots m, pend := q.pend } ∧ q.pend.Sublist r.pend := by
  simp only [Run.land, h, if_true]
  exact ⟨trivial, List.filter_sublist⟩

/-- A result in flight outlives the release of a slot unless it is a fill of that slot. -/
theorem mem_pend_land_release {m : Nat} (h : thas r.slots m = true) (p : Pend) :
    p ∈ (r.land (.release m)).pend ↔ p ∈ r.pend ∧ ∀ i v t, p.eff ≠ .line m i v t := by
  simp only [Run.land, h, if_true, List.mem_filter]
  refine and_congr_right fun _ => ?_
  split
  · next m' i v t he =>
    rw [bne_iff_ne, he]
    exact ⟨fun hm _ _ _ e => hm (Effect.line.inj e).1, fun hn e => hn i v t (by rw [e])⟩
  · next he => simpa using fun i v t => he m i v t

theorem Run.land_line {m : Nat} {sl : TomSlot} (h : tget r.slots m = some sl) (i : Nat) (v : Row) (t : Option Nat) :
    r.land (.line m i v t) = { r with slots := tput r.slots m { tag := t.getD sl.tag, lines := tput sl.lines i v } } := by
  simp [Run.land, h]

theorem Run.land_line_free {m : Nat} (h : tget r.slots m = none) (i : Nat) (v : Row) (t : Option Nat) :
    r.land (.line m i v t) = r := by
  simp [Run.land, h]

/-! ## Banks (R74, R129, R131, R145) -/

/-- A bank with nothing written reads zero. -/
theorem row_of_new (part : Bool) (lanes y : Nat) : ({ part := part } : Bank).row lanes y = List.replicate lanes 0
    ∧ ({ part := part } : Bank).cellRow lanes y = List.replicate lanes 0 := ⟨rfl, rfl⟩

theorem Run.land_alloc {k : Nat} (part : Bool) (h : thas r.banks k = true ∨ r.banks.length < r.amMax) :
    r.land (.alloc k part) = { r with banks := tput r.banks k { part := part } } := by
  simp [Run.land, h]

theorem Run.land_alloc_full {k : Nat} (part : Bool) (h : thas r.banks k = false) (hf : r.amMax ≤ r.banks.length) :
    r.land (.alloc k part) = r := by
  simp [Run.land, h, hf]

theorem Run.land_noBank {k : Nat} (h : tget r.banks k = none) (x : Nat) (v : Tab Row) (w : Row) :
    ∀ e ∈ [Effect.clear k, .clearOvf k, .bankRows k v, .amRow k x w], r.land e = r := by
  simp [Run.land, Run.putRows, Run.putAmRow, h]

theorem Run.land_clear {k : Nat} {b : Bank} (h : tget r.banks k = some b) :
    r.land (.clear k) = { r with banks := tput r.banks k { part := b.part } } := by simp [Run.land, h]

theorem Run.land_clearOvf {k : Nat} {b : Bank} (h : tget r.banks k = some b) :
    r.land (.clearOvf k) = { r with banks := tput r.banks k { b with ovf := [] } } := by simp [Run.land, h]

theorem tget_eq_none {α : Type} {t : Tab α} {k : Nat} (h : k ∉ t.map Prod.fst) : tget t k = none := by
  induction t with
  | nil => rfl
  | cons p t ih =>
    rw [List.map_cons, List.mem_cons, not_or] at h
    simp [tget, h.1, ih h.2]

/-- What a table holds after the writes of another, each key once: the other's value where it has one. -/
theorem tgetD_foldl_tput {α : Type} (v t : Tab α) (h : (v.map Prod.fst).Nodup) (y : Nat) (d : α) :
    tgetD (v.foldl (fun t p => tput t p.1 p.2) t) y d = tgetD v y (tgetD t y d) := by
  induction v generalizing t with
  | nil => rfl
  | cons p v ih =>
    obtain ⟨hp, hv⟩ := List.nodup_cons.1 h
    rw [List.foldl_cons, ih _ hv]
    by_cases hy : y = p.1
    · subst hy
      have hnone : tget v p.1 = none := tget_eq_none hp
      simp [tgetD, tget, hnone]
    · simp [tgetD, tget, tget_tput_of_ne _ _ hy, hy]

theorem Run.land_bankRows_part {k : Nat} {b : Bank} (h : tget r.banks k = some b) (hp : b.part = true) (v : Tab Row) :
    r.land (.bankRows k v) = r := by simp [Run.land, Run.putRows, h, hp]

theorem Run.land_bankRows {k : Nat} {b : Bank} (h : tget r.banks k = some b) (hp : b.part = false) (v : Tab Row) :
    r.land (.bankRows k v) =
      { r with banks := tput r.banks k { b with rows := v.foldl (fun t p => tput t p.1 p.2) b.rows } } := by
  simp [Run.land, Run.putRows, h, hp]

theorem Run.land_amRow_part {k : Nat} {b : Bank} (h : tget r.banks k = some b) (hp : b.part = true) (x : Nat) (v : Row) :
    r.land (.amRow k x v) =
      { r with banks := tput r.banks k { b with cells := tput b.cells (x % 16) (v.map fun w => w.signExtend 64) } } := by
  simp [Run.land, Run.putAmRow, h, hp]

theorem Run.land_amRow {k : Nat} {b : Bank} (h : tget r.banks k = some b) (hp : b.part = false) (x : Nat) (v : Row) :
    r.land (.amRow k x v) = { r with banks := tput r.banks k { b with rows := tput b.rows (x % 32) v } } := by
  simp [Run.land, Run.putAmRow, h, hp]

/-! ## The obligation -/

theorem Run.source_spec (r : Run) (rd : Reading) (c l : Nat) (h : l < r.lanes) :
    (r.source rd 192)[l]? = some (BitVec.ofNat 32 (l % 16))
      ∧ (r.source rd 193)[l]? = some (BitVec.ofNat 32 (l / 16))
      ∧ (r.source rd 194)[l]? = some (BitVec.ofNat 32 r.g)
      ∧ (r.source rd 195)[l]? = some 0 ∧ (r.source rd 196)[l]? = some 1 ∧ (r.source rd 197)[l]? = some 0x3F800000
      ∧ (∀ k, k < 8 → (r.source rd (198 + k))[l]? = some (r.arg k))
      ∧ (r.source rd 208)[l]? = some (r.bundle.getD 14 0) ∧ (r.source rd 209)[l]? = some (r.bundle.getD 15 0)
      ∧ (224 ≤ c → c < 256 →
          (r.source .int c)[l]? = some (BitVec.ofInt 32 (c - 240))
          ∧ (r.source .f32 c)[l]? = some (roundFP32 (.ofInt (c - 240)))
          ∧ (∃ z, (r.source .bf16 c)[l]? = some z ∧ elem0 z = roundBF16 (.ofInt (c - 240)) ∧ elem1 z = roundBF16 (.ofInt (c - 240)))
          ∧ ∃ z, (r.source .half c)[l]? = some z ∧ elem0 z = BitVec.ofInt 16 (c - 240) ∧ elem1 z = BitVec.ofInt 16 (c - 240)) := by
  refine ⟨Run.source_lane h, Run.source_core h, Run.source_uniform (by decide) h, Run.source_uniform (by decide) h,
    Run.source_uniform (by decide) h, Run.source_uniform (by decide) h, fun k hk => ?_, Run.source_uniform (by decide) h,
    Run.source_uniform (by decide) h, fun hc _ => ?_⟩
  · rw [Run.source_uniform (by omega) h, Run.uniform_arg hk]
  · have himm (rd : Reading) : (r.source rd c)[l]? = some (immediate rd ((c : Int) - 240)) := by
      rw [Run.source_uniform (by omega) h, Run.uniform_immediate hc]
    exact ⟨himm .int, himm .f32, ⟨_, himm .bf16, elem0_append _ _, elem1_append _ _⟩, _, himm .half, elem0_append _ _, elem1_append _ _⟩

/-- Settles O10: an operand code is a case of R40; a result's landing writes the one entry of its table that its equation
names. -/
theorem operandsAndResults : Obligations.OperandsAndResults := by
  unfold Obligations.OperandsAndResults
  refine ⟨fun r rd c => ⟨Run.source_reg, r.source_spec rd c, fun _ _ => Run.input_held, fun _ _ => Run.input_notHeld⟩,
    fun r d m hdbg => ⟨fun v => ⟨?regs, ?regVal⟩, fun v hd => ⟨?preds, ?predVal⟩⟩,
    fun r m k => ⟨r.land_claim m, ⟨Run.land_release_free, ?release⟩, fun part => ⟨?alloc, Run.land_alloc_full part⟩,
      ⟨rfl, fun x hx => tget_tdel_of_ne _ hx, tget_tdel_self _ _⟩, ?noBank, fun b hb => ⟨?clear, Run.land_clearOvf hb, ?rows, ?amRow⟩,
      ?line⟩⟩
  case regs => rw [Run.reg_land_reg hdbg, Run.land_reg hdbg]
  case regVal =>
    intro k o x b ho hx hb
    rw [Run.reg_land_reg hdbg]
    exact merge_getElem? ho hx hb
  case preds =>
    rw [Run.predicate_land_pred hd]
    rfl
  case predVal =>
    intro k o x b ho hx hb
    rw [Run.predicate_land_pred hd]
    exact merge_getElem? ho hx hb
  case release =>
    intro h
    obtain ⟨hq, hsub⟩ := Run.land_release h
    have hslots : (r.land (.release m)).slots = tdel r.slots m := by rw [hq]
    exact ⟨hslots ▸ hq, fun x hx => hslots ▸ tget_tdel_of_ne _ hx, hslots ▸ tget_tdel_self _ _, hsub, mem_pend_land_release h⟩
  case alloc =>
    intro h
    rw [Run.land_alloc part h]
    exact ⟨rfl, fun x hx => tget_tput_of_ne _ _ hx, _, tget_tput_self .., rfl, rfl, row_of_new part _⟩
  case noBank =>
    intro h i x v w
    exact ⟨List.all_eq_true.2 fun e he => beq_iff_eq.2 (Run.land_noBank h x v w e he), fun hm t => Run.land_line_free hm i w t⟩
  case clear => exact ⟨_, Run.land_clear hb, rfl, rfl, row_of_new b.part _⟩
  case rows =>
    exact fun v hv => ⟨fun hp => Run.land_bankRows_part hb hp v, fun hp => ⟨_, Run.land_bankRows hb hp v, rfl,
      fun y => tgetD_foldl_tput v b.rows hv y _⟩⟩
  case amRow =>
    exact fun x v => ⟨fun hp => ⟨_, Run.land_amRow_part hb hp x v, rfl, fun y => tgetD_tput _ _ _ _ _⟩,
      fun hp => ⟨_, Run.land_amRow hb hp x v, rfl, fun y => tgetD_tput _ _ _ _ _⟩⟩
  case line =>
    intro sl hsl i v t
    have hm : tget (r.land (.line m i v t)).slots m = some { tag := t.getD sl.tag, lines := tput sl.lines i v } := by
      rw [Run.land_line hsl]
      exact tget_tput_self ..
    refine ⟨by rw [Run.land_line hsl], fun x hx => ?_, Run.slotTag_of hm, fun j => ?_⟩
    · rw [Run.land_line hsl]
      exact tget_tput_of_ne _ _ hx
    · rw [Run.slotLines_of hm]
      exact tget_tput _ _ _ _

end Sys2Proof.Machine
end

section
/-!
SUPPORT. The sum of a column of a pass (R91), and the rows that meet the array (R96, R124, R127, R139, R140, R143).
-/

namespace Sys2Proof.Machine

variable {r : Run} {p : Pass} {ps : List FVal}

/-! ## The sum of one column (R91) -/

theorem any_isNan (ps : List FVal) : ps.any FVal.isNan = decide (FVal.nan ∈ ps) := by
  rw [Bool.eq_iff_iff, List.any_eq_true, decide_eq_true_iff]
  constructor
  · rintro ⟨x, hx, h⟩
    cases x with
    | nan => exact hx
    | inf b => cases h
    | fin b m e => cases h
  · exact fun h => ⟨_, h, rfl⟩

theorem any_beq (ps : List FVal) (v : FVal) : ps.any (fun x => x == v) = decide (v ∈ ps) := by
  rw [Bool.eq_iff_iff, List.any_eq_true, decide_eq_true_iff]
  exact ⟨fun ⟨x, hx, h⟩ => beq_iff_eq.1 h ▸ hx, fun h => ⟨v, h, beq_self_eq_true v⟩⟩

/-- A pass with a NaN, or with infinities of both signs, gives a NaN. -/
theorem sumPass_nan (h : FVal.nan ∈ ps ∨ (FVal.inf false ∈ ps ∧ FVal.inf true ∈ ps)) : sumPass ps = roundFP32 .nan := by
  simp [sumPass, any_isNan, any_beq, h]

theorem sumPass_inf {b : Bool} (hn : FVal.nan ∉ ps) (h : FVal.inf b ∈ ps) (h' : FVal.inf (!b) ∉ ps) :
    sumPass ps = roundFP32 (.inf b) := by
  cases b <;> simp only [Bool.not_false, Bool.not_true] at h' <;> simp [sumPass, any_isNan, any_beq, hn, h, h']

/-- The sum of finite products, `em` being the greatest exponent among those that are not zero. -/
theorem sumPass_finite (h : ∀ x ∈ ps, ∃ b m e, x = FVal.fin b m e) : sumPass ps = (maxExp ps).elim 0 fun em =>
    let T := (ps.map (truncTo (em - 56))).sum
    roundFP32 (.fin (T < 0) T.natAbs (em - 56)) := by
  have hn : FVal.nan ∉ ps := fun hx => by obtain ⟨_, _, _, e⟩ := h _ hx; cases e
  have hi (b : Bool) : FVal.inf b ∉ ps := fun hx => by obtain ⟨_, _, _, e⟩ := h _ hx; cases e
  simp only [sumPass, any_isNan, any_beq, hn, hi, decide_false, Bool.and_self, Bool.or_self, Bool.false_eq_true, if_false]
  cases maxExp ps with
  | none => rfl
  | some em => simp only [Option.elim, List.sum_eq_foldl, List.foldl_map]

theorem maxExp_eq_none (h : ∀ b m e, FVal.fin b m e ∈ ps → m = 0) : maxExp ps = none := by
  induction ps with
  | nil => rfl
  | cons x ps ih =>
    have ih := ih fun b m e hx => h b m e (List.mem_cons_of_mem _ hx)
    cases x with
    | nan => exact ih
    | inf b => exact ih
    | fin b m e => rw [maxExp, if_pos (h b m e (List.mem_cons_self ..)), ih]

/-- The exponent of a product that is not zero. -/
def HasExp (ps : List FVal) (x : Int) : Prop := ∃ b m e, FVal.fin b m e ∈ ps ∧ m ≠ 0 ∧ floorLog2 m e = x

theorem hasExp_cons_fin {b : Bool} {m : Nat} {e x : Int} :
    HasExp (.fin b m e :: ps) x ↔ (m ≠ 0 ∧ floorLog2 m e = x) ∨ HasExp ps x := by
  constructor
  · rintro ⟨b', m', e', hx, hm, he⟩
    rcases List.mem_cons.1 hx with h | h
    · cases h
      exact .inl ⟨hm, he⟩
    · exact .inr ⟨b', m', e', h, hm, he⟩
  · rintro (⟨hm, he⟩ | ⟨b', m', e', hx, hm, he⟩)
    · exact ⟨b, m, e, List.mem_cons_self .., hm, he⟩
    · exact ⟨b', m', e', List.mem_cons_of_mem _ hx, hm, he⟩

theorem hasExp_cons_of_not_fin {v : FVal} {x : Int} (hv : ∀ b m e, v ≠ .fin b m e) : HasExp (v :: ps) x ↔ HasExp ps x := by
  constructor
  · rintro ⟨b, m, e, hx, h⟩
    exact ⟨b, m, e, (List.mem_cons.1 hx).resolve_left fun h => hv b m e h.symm, h⟩
  · rintro ⟨b, m, e, hx, h⟩
    exact ⟨b, m, e, List.mem_cons_of_mem _ hx, h⟩

/-- Where some product is not zero, the greatest exponent is one of theirs and bounds them all. -/
theorem maxExp_eq_some {x : Int} (h : HasExp ps x) : ∃ em, maxExp ps = some em ∧ HasExp ps em ∧ ∀ y, HasExp ps y → y ≤ em := by
  induction ps generalizing x with
  | nil => obtain ⟨_, _, _, hx, _⟩ := h; cases hx
  | cons v ps ih =>
    cases v with
    | nan =>
      have hv : ∀ b' m e, FVal.nan ≠ .fin b' m e := fun _ _ _ h => by cases h
      simp only [hasExp_cons_of_not_fin hv] at h ⊢
      exact ih h
    | inf b =>
      have hv : ∀ b' m e, FVal.inf b ≠ .fin b' m e := fun _ _ _ h => by cases h
      simp only [hasExp_cons_of_not_fin hv] at h ⊢
      exact ih h
    | fin b m e =>
      simp only [hasExp_cons_fin] at h ⊢
      by_cases hm : m = 0
      · obtain ⟨em, he, hmem, hle⟩ := ih (h.resolve_left fun h => h.1 hm)
        exact ⟨em, by rw [maxExp, if_pos hm, he], .inr hmem, fun y hy => hle y (hy.resolve_left fun h => h.1 hm)⟩
      · by_cases hps : ∃ z, HasExp ps z
        · obtain ⟨z, hz⟩ := hps
          obtain ⟨em, he, hmem, hle⟩ := ih hz
          refine ⟨max em (floorLog2 m e), by rw [maxExp, if_neg hm, he], ?_, ?_⟩
          · rcases max_choice em (floorLog2 m e) with h | h <;> rw [h]
            · exact .inr hmem
            · exact .inl ⟨hm, rfl⟩
          · rintro y (⟨-, rfl⟩ | hy)
            · exact le_max_right ..
            · exact (hle y hy).trans (le_max_left ..)
        · have hnone : maxExp ps = none := maxExp_eq_none fun b m e hx => by
            by_contra hm
            exact hps ⟨_, b, m, e, hx, hm, rfl⟩
          refine ⟨floorLog2 m e, by rw [maxExp, if_neg hm, hnone], .inl ⟨hm, rfl⟩, ?_⟩
          rintro y (⟨-, rfl⟩ | hy)
          · exact Int.le_refl _
          · exact absurd ⟨y, hy⟩ hps

theorem sumPass_zero (h : ∀ x ∈ ps, ∃ b e, x = FVal.fin b 0 e) : sumPass ps = 0 := by
  rw [sumPass_finite fun x hx => (h x hx).imp fun b ⟨e, he⟩ => ⟨0, e, he⟩, maxExp_eq_none]
  · rfl
  · rintro b m e hx
    obtain ⟨_, _, he⟩ := h _ hx
    injection he

theorem sumPass_sum (h : ∀ x ∈ ps, ∃ b m e, x = FVal.fin b m e) (hne : ∃ b m e, FVal.fin b m e ∈ ps ∧ m ≠ 0) :
    ∃ em, (∃ b m e, FVal.fin b m e ∈ ps ∧ m ≠ 0 ∧ floorLog2 m e = em)
      ∧ (∀ b m e, FVal.fin b m e ∈ ps → m ≠ 0 → floorLog2 m e ≤ em)
      ∧ (let T := (ps.map (truncTo (em - 56))).sum
         sumPass ps = roundFP32 (.fin (T < 0) T.natAbs (em - 56))) := by
  obtain ⟨b, m, e, hx, hm⟩ := hne
  obtain ⟨em, he, hmem, hle⟩ := maxExp_eq_some ⟨b, m, e, hx, hm, rfl⟩
  exact ⟨em, hmem, fun b m e hx hm => hle _ ⟨b, m, e, hx, hm, rfl⟩, by rw [sumPass_finite h, he]; rfl⟩

/-! ## Dense rows (R124, R127) -/

theorem isDense_iff {fmt : Nat} : isDense fmt = true ↔ fmt = 2 ∨ fmt = 3 ∨ fmt = 4 := by simp [isDense, or_assoc]

theorem isParts_iff {fmt : Nat} : isParts fmt = true ↔ fmt = 7 ∨ fmt = 8 ∨ fmt = 9 := by simp [isParts, or_assoc]

theorem Run.rowOf_dense (hp : p.parts = false) (hf : isDense r.active.fmt = true) (ht : r.slotTag p.m = r.active.fmt) :
    r.rowOf p = { r with fly := r.fly ++ [
      { n := 16, op := p.op, bank := p.bank, cap := denseCap r.active.fmt, q := p.q % (32 / denseCap r.active.fmt),
        sums := (List.range r.g).map fun c => denseSums r.active p.op [r.slotLines p.m] c p.row }] } := by
  simp [Run.rowOf, hp, hf, ht]

theorem Run.rowOf_parts (hp : p.parts = true) (hf : isParts r.active.fmt = true) (ht : r.slotTag p.m = 5 ∨ r.slotTag p.m = 6) :
    r.rowOf p = { r with fly := r.fly ++ [
      { n := 24, parts := true, op := p.op, bank := p.bank, q := p.q % 2,
        sums := (List.range r.g).map fun c => partsSums r.active (r.slotTag p.m) [r.slotLines p.m] c p.row }] } := by
  simp [Run.rowOf, hp, hf, ht]

/-- A row that does not meet weights of its kind is skipped. -/
theorem Run.rowOf_skip (h : (p.parts = false ∧ ¬((r.active.fmt = 2 ∨ r.active.fmt = 3 ∨ r.active.fmt = 4) ∧ r.slotTag p.m = r.active.fmt))
      ∨ (p.parts = true ∧ ¬((r.active.fmt = 7 ∨ r.active.fmt = 8 ∨ r.active.fmt = 9) ∧ (r.slotTag p.m = 5 ∨ r.slotTag p.m = 6)))) :
    r.rowOf p = { r with tmis := r.tmis || !r.newClr } := by
  rcases h with ⟨hp, h⟩ | ⟨hp, h⟩
  · rw [← isDense_iff] at h
    have : (isDense r.active.fmt && r.slotTag p.m == r.active.fmt) = false := by simpa using h
    simp only [Run.rowOf, hp, this, Bool.false_eq_true, if_false]
  · rw [← isParts_iff] at h
    have : (isParts r.active.fmt && (r.slotTag p.m == 5 || r.slotTag p.m == 6)) = false := by simpa using h
    simp only [Run.rowOf, hp, this, Bool.false_eq_true, if_false, if_true]

theorem length_denseSums (w : Weights) (op : PassOp) (sl : List (Tab Row)) (core x : Nat) :
    (denseSums w op sl core x).length = denseN w.fmt := by simp [denseSums]

/-- The products of a column, `tmmh` taking the second half of K as zero. -/
theorem denseSums_getD (w : Weights) (op : PassOp) (sl : List (Tab Row)) (core x : Nat) {j : Nat} (hj : j < denseN w.fmt) :
    BitVec.ofInt 32 ((denseSums w op sl core x).getD j 0) = sumPass ((List.range (denseK w.fmt)).map fun k =>
      if op = .half ∧ denseK w.fmt / 2 ≤ k then .fin false 0 0 else (w.elem core k j).mul (actElem w.fmt sl core x k)) := by
  have hps : (((List.range (denseK w.fmt)).map fun k => actElem w.fmt sl core x k).zipIdx).map (fun p =>
        if op == .half && denseK w.fmt / 2 ≤ p.2 then FVal.fin false 0 0 else (w.elem core p.2 j).mul p.1)
      = (List.range (denseK w.fmt)).map fun k =>
        if op = .half ∧ denseK w.fmt / 2 ≤ k then .fin false 0 0 else (w.elem core k j).mul (actElem w.fmt sl core x k) := by
    refine List.ext_getElem (by simp) fun k h _ => ?_
    simp
  rw [denseSums, List.getD_eq_getElem?_getD, List.getElem?_map, List.getElem?_range hj, Option.map_some, Option.getD_some, hps,
    BitVec.ofInt_natCast, BitVec.ofNat_toNat, BitVec.setWidth_eq]

/-! ## Parts rows (R96, R139, R140) -/

theorem length_dp4Diffs (x : Nat) (ks : List Nat) (j : Nat) : (dp4Diffs x ks j).length = ks.length := by
  induction ks generalizing j with
  | nil => rfl
  | cons k ks ih =>
    rw [dp4Diffs]
    split <;> simp [ih]

/-- The weights of a record: its base and the sums of its first differences. -/
theorem getElem?_sortedWeights (base : Int) (ds : List Nat) {k : Nat} (h : k ≤ ds.length) :
    (sortedWeights base ds)[k]? = some (base + ((ds.take k).map fun d => (d : Int)).sum) := by
  induction ds generalizing base k with
  | nil =>
    obtain rfl : k = 0 := Nat.le_zero.1 h
    simp [sortedWeights]
  | cons d ds ih =>
    cases k with
    | zero => simp [sortedWeights]
    | succ k => simp [sortedWeights, ih (base + d) (Nat.le_of_succ_le_succ h), Int.add_assoc]

theorem length_sortedWeights (base : Int) (ds : List Nat) : (sortedWeights base ds).length = ds.length + 1 := by
  induction ds generalizing base with
  | nil => rfl
  | cons d ds ih => simp [sortedWeights, ih]

/-- A group result is the sum of the products of a record's weights with the activations its indices name. -/
theorem groupResult_eq (rc : PartsRec) (a : List Int) (h : rc.idx.length = rc.ds.length + 1) :
    groupResult rc a = ((List.range rc.idx.length).map fun k =>
      (rc.base + ((rc.ds.take k).map fun d => (d : Int)).sum) * a.getD (rc.idx.getD k 0) 0).sum := by
  rw [groupResult, ← List.sum_eq_foldl]
  congr 1
  refine List.ext_getElem? fun k => ?_
  by_cases hk : k < rc.idx.length
  · simp [List.getElem?_zipWith, getElem?_sortedWeights rc.base rc.ds (k := k) (by omega), hk]
  · simp [hk]

/-- The indices of a group of a record (R92-R94). -/
def partsIdx (fmt : Nat) : Nat := if fmt = 9 then 8 else 24

theorem length_partsRec_idx {w : Weights} (hf : w.fmt = 7 ∨ w.fmt = 8 ∨ w.fmt = 9) (core j g : Nat) :
    (partsRec w core j g).idx.length = partsIdx w.fmt := by
  rcases hf with h | h | h <;> simp [partsRec, partsIdx, h, dp4Rec, dp8Rec, dpsRec]

theorem length_partsRec_ds {w : Weights} (hf : w.fmt = 7 ∨ w.fmt = 8 ∨ w.fmt = 9) (core j g : Nat) :
    (partsRec w core j g).idx.length = (partsRec w core j g).ds.length + 1 := by
  rcases hf with h | h | h <;> simp [partsRec, h, dp4Rec, dp8Rec, dpsRec, length_dp4Diffs]

/-- The activation an index names in a group: zero beyond its 24. -/
theorem getD_groupActs {tag fmt : Nat} {sl : List (Tab Row)} {core x g : Nat} (hg : g < partsGroups fmt) (i : Nat) :
    (((List.range (partsK fmt)).map fun k => partsAct tag fmt sl core x k).drop (24 * g) |>.take 24).getD i 0 =
      if i ≤ 23 then partsAct tag fmt sl core x (24 * g + i) else 0 := by
  have hK : partsK fmt = 24 * partsGroups fmt := rfl
  split
  · next hi =>
    have hlt : 24 * g + i < partsK fmt := by omega
    simp [hlt, show i < 24 by omega]
  · next hi => simp [show ¬i < 24 by omega]

theorem length_partsSums (w : Weights) (tag : Nat) (sl : List (Tab Row)) (core x : Nat) :
    (partsSums w tag sl core x).length = 128 := by simp [partsSums]

theorem partsSums_getD {w : Weights} (hf : w.fmt = 7 ∨ w.fmt = 8 ∨ w.fmt = 9) (tag : Nat) (sl : List (Tab Row)) (core x : Nat)
    {j : Nat} (hj : j < 128) : (partsSums w tag sl core x).getD j 0 = ((List.range (partsGroups w.fmt)).map fun g =>
      let rc := partsRec w core j g
      ((List.range (partsIdx w.fmt)).map fun k => (rc.base + ((rc.ds.take k).map fun d => (d : Int)).sum) *
        (if rc.idx.getD k 0 ≤ 23 then partsAct tag w.fmt sl core x (24 * g + rc.idx.getD k 0) else 0)).sum).sum := by
  rw [partsSums, List.getD_eq_getElem?_getD, List.getElem?_map, List.getElem?_range hj, Option.map_some, Option.getD_some,
    ← List.sum_eq_foldl]
  congr 1
  refine List.map_congr_left fun g hg => ?_
  rw [groupResult_eq _ _ (length_partsRec_ds hf core j g), length_partsRec_idx hf]
  simp only [getD_groupActs (List.mem_range.1 hg)]

end Sys2Proof.Machine
end

section
/-!
SUPPORT. What a row in flight gives its bank as it becomes visible (R97, R124, R126, R127, R140, R143), and the events of a
running group within a cycle (R17, R29, R123, R125, R141).
-/

namespace Sys2Proof.Machine

variable {s : State} {n k : Nat} {r : Run} {f : FlyRow} {b : Bank}

/-! ## Tables written at consecutive keys -/

/-- A table after the keys from `top` on have been written, each from what the table then holds there. -/
theorem tget_foldl_tput_range {α : Type} (t : Tab α) (top m : Nat) (g : Tab α → Nat → α)
    (hg : ∀ t t' j, tget t (top + j) = tget t' (top + j) → g t j = g t' j) (y : Nat) :
    tget ((List.range m).foldl (fun t j => tput t (top + j) (g t j)) t) y =
      if top ≤ y ∧ y < top + m then some (g t (y - top)) else tget t y := by
  induction m with
  | zero => rw [if_neg (by omega)]; rfl
  | succ m ih =>
    rw [List.range_succ, List.foldl_append, List.foldl_cons, List.foldl_nil, tget_tput]
    by_cases hy : y = top + m
    · subst hy
      rw [if_pos rfl, if_pos (by omega), Nat.add_sub_cancel_left]
      exact congrArg some (hg _ _ _ (ih.trans (if_neg (by omega))))
    · rw [if_neg hy, ih]
      exact if_congr (by omega) rfl rfl

/-! ## Updates (R97, R124, R126) -/

theorem row_eq (b : Bank) (lanes y : Nat) : b.row lanes y = (tget b.rows y).getD (List.replicate lanes 0) := rfl

theorem cellRow_eq (b : Bank) (lanes y : Nat) : b.cellRow lanes y = (tget b.cells y).getD (List.replicate lanes 0) := rfl

/-- The column sum a row in flight holds for lane `x` of block `y` of its output row. -/
def FlyRow.sum (f : FlyRow) (y x : Nat) : Int := (f.sums.getD (x / 16) []).getD (16 * y + x % 16) 0

/-- The rows of a bank after a dense update: the output row updated lane by lane, the others as they were. -/
theorem row_applyDense (g : Nat) (f : FlyRow) (b : Bank) (y : Nat) : (applyDense g f b).row (16 * g) y =
    if f.cap * f.q ≤ y ∧ y < f.cap * f.q + (f.sums.headD []).length / 16 then
      (List.range (16 * g)).map fun x =>
        denseUpd f.op ((b.row (16 * g) y).getD x 0) (BitVec.ofInt 32 (f.sum (y - f.cap * f.q) x))
    else b.row (16 * g) y := by
  have h := tget_foldl_tput_range b.rows (f.cap * f.q) ((f.sums.headD []).length / 16) (fun t jb =>
    (List.range (16 * g)).map fun x => denseUpd f.op ((tgetD t (f.cap * f.q + jb) (List.replicate (16 * g) 0)).getD x 0)
      (BitVec.ofInt 32 (f.sum jb x))) (fun t t' j e => by simp only [tgetD, e]) y
  rw [row_eq, applyDense]
  refine (congrArg (Option.getD · (List.replicate (16 * g) 0)) h).trans ?_
  split
  · next hy => rw [Option.getD_some, Nat.add_sub_cancel' hy.1]; rfl
  · rfl

theorem getElem?_row_applyDense {g y x : Nat} (b : Bank) (hy : y < (f.sums.headD []).length / 16) (hx : x < 16 * g) :
    ((applyDense g f b).row (16 * g) (f.cap * f.q + y))[x]? =
      some (denseUpd f.op ((b.row (16 * g) (f.cap * f.q + y)).getD x 0) (BitVec.ofInt 32 (f.sum y x))) := by
  rw [row_applyDense, if_pos (by omega), Nat.add_sub_cancel_left]
  simp [hx]

/-- The exact value of a container after a parts update. -/
def FlyRow.cell (f : FlyRow) (g : Nat) (b : Bank) (y x : Nat) : Int :=
  partsVal f.op ((b.cellRow (16 * g) (8 * f.q + y)).getD x 0).toInt (f.sum y x)

theorem getElem?_partsExact {g y x : Nat} (hx : x < 16 * g) : (partsExact g f b y)[x]? = some (f.cell g b y x) := by
  simp [partsExact, hx, FlyRow.cell, FlyRow.sum]

theorem cellRow_applyParts (g : Nat) (f : FlyRow) (b : Bank) (y : Nat) : (applyParts g f b).cellRow (16 * g) y =
    if 8 * f.q ≤ y ∧ y < 8 * f.q + 8 then (partsExact g f b (y - 8 * f.q)).map wrap48 else b.cellRow (16 * g) y := by
  have h := tget_foldl_tput_range b.cells (8 * f.q) 8 (fun _ jb => (((List.range 8).map (partsExact g f b)).getD jb []).map wrap48)
    (fun _ _ _ _ => rfl) y
  rw [cellRow_eq, applyParts]
  refine (congrArg (Option.getD · (List.replicate (16 * g) 0)) h).trans ?_
  split
  · next hy =>
    have hlt : y - 8 * f.q < 8 := by omega
    simp [hlt]
  · rfl

theorem toInt_wrap48 (x : Int) : (wrap48 x).toInt = x.bmod (2 ^ 48) := by simp [wrap48, BitVec.toInt_signExtend]

/-- A wrapped container holds its value modulo 2^48, as a signed 48-bit number (R97). -/
theorem wrap48_spec (x : Int) : (wrap48 x).toInt % 2 ^ 48 = x % 2 ^ 48 ∧ -2 ^ 47 ≤ (wrap48 x).toInt ∧ (wrap48 x).toInt < 2 ^ 47 := by
  rw [toInt_wrap48]
  exact ⟨Int.bmod_emod, Int.le_bmod (by decide), Int.bmod_lt (by decide)⟩

theorem ovf48_iff {x : Int} : ovf48 x = true ↔ x < -2 ^ 47 ∨ 2 ^ 47 ≤ x := by
  simp only [ovf48, Bool.or_eq_true, decide_eq_true_eq]
  omega

/-- A core's OVF after a parts update: as it was, or a container of its lanes left the range (R97). -/
theorem mem_ovf_applyParts {g c : Nat} : c ∈ (applyParts g f b).ovf ↔ c < g ∧ (c ∈ b.ovf
    ∨ ∃ y < 8, ∃ l < 16, f.cell g b y (16 * c + l) < -2 ^ 47 ∨ 2 ^ 47 ≤ f.cell g b y (16 * c + l)) := by
  have hlane (hc : c < g) (y : Nat) : (((partsExact g f b y).drop (16 * c)).take 16).any ovf48 = true ↔
      ∃ l < 16, f.cell g b y (16 * c + l) < -2 ^ 47 ∨ 2 ^ 47 ≤ f.cell g b y (16 * c + l) := by
    rw [List.any_eq_true]
    constructor
    · rintro ⟨v, hv, ho⟩
      obtain ⟨l, hl⟩ := List.mem_iff_getElem?.1 hv
      rw [List.getElem?_take, List.getElem?_drop] at hl
      split at hl
      · next hlt =>
        rw [getElem?_partsExact (by omega)] at hl
        exact ⟨l, hlt, ovf48_iff.1 (Option.some.inj hl ▸ ho)⟩
      · cases hl
    · rintro ⟨l, hl, ho⟩
      refine ⟨_, List.mem_iff_getElem?.2 ⟨l, ?_⟩, ovf48_iff.2 ho⟩
      rw [List.getElem?_take, if_pos hl, List.getElem?_drop, getElem?_partsExact (by omega)]
  simp only [applyParts, List.mem_filter, List.mem_range, Bool.or_eq_true, List.contains_iff_mem]
  refine and_congr_right fun hc => or_congr_right ?_
  rw [List.any_eq_true]
  simp only [List.mem_map, List.mem_range, exists_exists_and_eq_and, hlane hc]

theorem Run.applyFly_of (hb : tget r.banks f.bank = some b) (hm : b.part = f.parts) : r.applyFly f =
    { r with banks := tput r.banks f.bank (if f.parts then applyParts r.g f b else applyDense r.g f b) } := by
  simp [Run.applyFly, hb, hm]

theorem Run.applyFly_discard (h : ∀ b, tget r.banks f.bank = some b → b.part ≠ f.parts) : r.applyFly f = { r with tmis := true } := by
  unfold Run.applyFly
  split
  · next b hb => rw [if_neg (by simpa using h b hb)]
  · rfl

/-! ## Events (R17, R29, R123, R125, R141) -/

/-- An event whose result is another run of the same place. -/
theorem on_setRun {i : Instr} {q : Run} (h : exec i s = .next (s.setRun n k q)) :
    ∃ t, exec i s = .next t ∧ t = s.setRun n k q ∧ SameBytes s t := ⟨_, h, rfl, s.byte_setRun n k q⟩

theorem exec_resultLanding_of (hp : (s.run n k).phase = .running) (hb : (s.run n k).between = true)
    (hf : (s.run n k).flyDue false = []) (ht : (s.run n k).flyDue true = []) :
    exec (.resultLanding n k) s = .next (s.setRun n k (s.run n k).landDue) := by
  simp [execResultLanding, hp, hb, hf, ht, State.modRun]

theorem exec_tileUpdateVisible_of (hp : (s.run n k).phase = .running) (hb : (s.run n k).between = true) :
    exec (.tileUpdateVisible n k) s = .next (s.setRun n k ((s.run n k).landRows false)) := by
  simp [execTileUpdateVisible, hp, hb, State.modRun]

theorem exec_partsUpdateVisible_of (hp : (s.run n k).phase = .running) (hb : (s.run n k).between = true)
    (hf : (s.run n k).flyDue false = []) : exec (.partsUpdateVisible n k) s = .next (s.setRun n k ((s.run n k).landRows true)) := by
  simp [execPartsUpdateVisible, hp, hb, hf, State.modRun]

theorem exec_tldxReadEnd_of (h : (s.run n k).tldx = 1) :
    exec (.tldxReadEnd n k) s = .next (s.setRun n k { s.run n k with tldx := 0 }) := by
  simp [execTldxReadEnd, h, State.modRun]

theorem exec_tileRowEntry_of (hp : (s.run n k).phase = .running) (hb : (s.run n k).between = true) (he : (s.run n k).entered = false)
    (hd : (s.run n k).due = []) (hf : (s.run n k).flyDue false = []) (ht : (s.run n k).flyDue true = []) :
    exec (.tileRowEntry n k) s = .next (s.setRun n k { (s.run n k).enterRow with entered := true }) := by
  simp [execTileRowEntry, hp, hb, he, hd, hf, ht, State.modRun]

/-- At a bundle boundary the bundle lands what is due, and the events do nothing. -/
theorem exec_of_boundary (hb : (s.run n k).between = false) :
    ∀ i ∈ [Instr.resultLanding n k, .tileUpdateVisible n k, .partsUpdateVisible n k, .tileRowEntry n k], exec i s = .next s := by
  simp [execResultLanding, execTileUpdateVisible, execPartsUpdateVisible, execTileRowEntry, hb]

theorem Run.enterRow_drain (h : r.drain = true) : r.enterRow = { r with drain := false } := by simp [Run.enterRow, h]

theorem Run.passes_enterRow {p : Pass} {ps : List Pass} (h : r.drain = false) (hp : r.passes = p :: ps) : r.enterRow.passes =
    if p.left ≤ 1 then ps else { p with row := p.row + 1, left := p.left - 1, q := p.q + 1 } :: ps := by
  simp [Run.enterRow, h, hp]

/-! ## The obligation -/

theorem Run.rowOf_dense_spec (r : Run) (p : Pass) :
    let w := r.active
    let tag := r.slotTag p.m
    let K := if w.fmt = 2 then 128 else if w.fmt = 3 then 256 else 512
    let C := if w.fmt = 2 then 4 else 8
    p.parts = false → (w.fmt = 2 ∨ w.fmt = 3 ∨ w.fmt = 4) → tag = w.fmt → ∃ S,
      r.rowOf p = { r with fly := r.fly ++ [{ n := 16, op := p.op, bank := p.bank, cap := C, q := p.q % (32 / C), sums := S }] }
      ∧ S.length = r.g ∧ ∀ c, c < r.g → (S.getD c []).length = (if w.fmt = 2 then 64 else 128)
        ∧ ∀ j, j < (S.getD c []).length → BitVec.ofInt 32 ((S.getD c []).getD j 0) = sumPass ((List.range K).map (fun k =>
            if p.op = .half ∧ K / 2 ≤ k then .fin false 0 0 else (w.elem c k j).mul (actElem tag [r.slotLines p.m] c p.row k))) := by
  intro w tag K C hp hf ht
  refine ⟨_, Run.rowOf_dense hp (isDense_iff.2 hf) ht, by simp, fun c hc => ?_⟩
  have hS : ((List.range r.g).map fun c => denseSums w p.op [r.slotLines p.m] c p.row).getD c [] =
      denseSums w p.op [r.slotLines p.m] c p.row := by simp [hc]
  rw [hS, length_denseSums]
  exact ⟨rfl, fun j hj => ht ▸ denseSums_getD w p.op _ c p.row hj⟩

theorem Run.rowOf_parts_spec (r : Run) (p : Pass) :
    let w := r.active
    let tag := r.slotTag p.m
    let Ng := if w.fmt = 9 then 48 else 16
    let G := if w.fmt = 9 then 8 else 24
    p.parts = true → (w.fmt = 7 ∨ w.fmt = 8 ∨ w.fmt = 9) → (tag = 5 ∨ tag = 6) → ∃ S,
      r.rowOf p = { r with fly := r.fly ++ [{ n := 24, parts := true, op := p.op, bank := p.bank, q := p.q % 2, sums := S }] }
      ∧ S.length = r.g ∧ ∀ c, c < r.g → (S.getD c []).length = 128 ∧ ∀ j, j < 128 →
          (S.getD c []).getD j 0 = ((List.range Ng).map (fun g =>
            let rc := partsRec w c j g
            ((List.range G).map (fun k =>
              (rc.base + (((rc.ds.take k).map (fun d => (d : Int))).sum)) *
                (if rc.idx.getD k 0 ≤ 23 then partsAct tag w.fmt [r.slotLines p.m] c p.row (24 * g + rc.idx.getD k 0) else 0))).sum)).sum := by
  intro w tag Ng G hp hf ht
  refine ⟨_, Run.rowOf_parts hp (isParts_iff.2 hf) ht, by simp, fun c hc => ?_⟩
  have hS : ((List.range r.g).map fun c => partsSums w tag [r.slotLines p.m] c p.row).getD c [] =
      partsSums w tag [r.slotLines p.m] c p.row := by simp [hc]
  rw [hS]
  exact ⟨length_partsSums .., fun j hj => partsSums_getD hf tag _ c p.row hj⟩

/-- Settles O41: an event writes the run its equation names; a row's sums are those of R91 and R96, and its update writes the
blocks of its output row alone. -/
theorem cycleEvents : Obligations.CycleEvents := by
  unfold Obligations.CycleEvents
  refine ⟨fun s n k hp => ⟨fun hb => ⟨fun hf ht => on_setRun (exec_resultLanding_of hp hb hf ht),
      on_setRun (exec_tileUpdateVisible_of hp hb), fun hf => on_setRun (exec_partsUpdateVisible_of hp hb hf)⟩,
      exec_of_boundary, fun h => on_setRun (exec_tldxReadEnd_of h), ?entry⟩,
    fun ps => ⟨sumPass_nan, fun b => sumPass_inf, sumPass_zero, sumPass_sum⟩,
    fun r p => ⟨r.rowOf_dense_spec p, r.rowOf_parts_spec p, Run.rowOf_skip⟩,
    fun r f => ⟨?dense, ?parts, Run.applyFly_discard⟩⟩
  case entry =>
    intro hb he hd hf ht
    refine ⟨_, exec_tileRowEntry_of hp hb he hd hf ht, ?_, s.byte_setRun n k _, ?_⟩ <;> simp only [State.run_setRun_self]
    refine ⟨trivial, fun h => ?_, fun p ps h hps => Run.passes_enterRow h hps⟩
    rw [Run.enterRow_drain h]
    exact ⟨rfl, rfl⟩
  case dense =>
    intro b hb hpart hf
    refine ⟨applyDense r.g f b, by rw [Run.applyFly_of hb (hpart.trans hf.symm), hf]; rfl, rfl, fun y hy x hx => ?_, fun y hy => ?_⟩
    · rw [Run.lanes, getElem?_row_applyDense b hy hx]
      cases f.op <;> rfl
    · rw [Run.lanes, row_applyDense, if_neg (by omega)]
  case parts =>
    intro b hb hpart hf X
    have hX (y x : Nat) : X y x = f.cell r.g b y x := by
      simp only [X, FlyRow.cell]
      cases f.op <;> rfl
    refine ⟨applyParts r.g f b, by rw [Run.applyFly_of hb (hpart.trans hf.symm), hf]; rfl, rfl, fun y x hy hx => ?_, fun y hy => ?_,
      fun c => ?_⟩
    · rw [hX, Run.lanes, cellRow_applyParts, if_pos (by omega), Nat.add_sub_cancel_left, List.getD_eq_getElem?_getD,
        List.getElem?_map, getElem?_partsExact hx]
      exact wrap48_spec _
    · rw [Run.lanes, cellRow_applyParts, if_neg (by omega)]
    · simp only [hX]
      exact mem_ovf_applyParts

end Sys2Proof.Machine
end

section
/-!
SUPPORT. Where a local address lies (R268): blocks and sectors. What counting at the stacks leaves, and what a write to plain
frames gives and leaves (R285, R302, R396).
-/

namespace Sys2Proof.Machine

variable {s t u : State} {a b : Nat}

/-! ## Blocks and sectors of the address map (R268) -/

theorem offered_mod (t : Topo) (h : Nat) : offered t h % 256 = 0 := by
  unfold offered halfSize
  split
  · rfl
  · split <;> rfl

/-- A block of 256 bytes lies within offered memory or outside it. -/
theorem inMemory_block (t : Topo) (h : a / 256 = b / 256) : inMemory t a = inMemory t b := by
  have hh : a / halfSize = b / halfSize := by simp only [halfSize]; omega
  have ho := offered_mod t (b / halfSize)
  unfold inMemory
  rw [hh, Bool.eq_iff_iff, decide_eq_true_iff, decide_eq_true_iff]
  generalize offered t (b / halfSize) = o at ho
  simp only [halfSize]
  omega

/-- A block of 256 bytes lies in one stack. -/
theorem stackOf_block (t : Topo) (h : a / 256 = b / 256) : (stackOf t a).1 = (stackOf t b).1 := by
  have hh : a / halfSize = b / halfSize := by simp only [halfSize]; omega
  unfold stackOf
  simp only [hh, bitsNat]
  split <;> omega

theorem stackOf_half (t : Topo) (a : Nat) : (stackOf t a).1 / 4 = a / halfSize := by
  unfold stackOf
  simp only [bitsNat]
  split <;> omega

theorem stackOf_offset_lt (t : Topo) (a : Nat) : (stackOf t a).2 / 32 < 2 ^ 31 := by
  unfold stackOf
  simp only [bitsNat]
  split <;> omega

/-- Of a half that has lost both pairs nothing is offered. -/
theorem pairLost_of_inMemory {t : Topo} (h : inMemory t a = true) (h0 : pairLost t (a / halfSize) 0 = true) :
    pairLost t (a / halfSize) 1 = false := by
  have h := of_decide_eq_true h
  simp only [offered, h0] at h
  split at h
  · omega
  · cases h1 : pairLost t (a / halfSize) 1 with
    | false => rfl
    | true => simp [h1] at h

/-- Of a half that has lost one pair the lower part is offered. -/
theorem low_of_inMemory {t : Topo} (h : inMemory t a = true)
    (hl : pairLost t (a / halfSize) 0 = true ∨ pairLost t (a / halfSize) 1 = true) : a % halfSize < 2 ^ 37 := by
  have h := of_decide_eq_true h
  unfold offered at h
  split at h
  · omega
  · cases h0 : pairLost t (a / halfSize) 0 <;> cases h1 : pairLost t (a / halfSize) 1 <;> simp_all [halfSize]

/-- In memory, a sector is known by its number among the sectors of all stacks. -/
theorem sector_of_key {t : Topo} (ha : inMemory t a = true) (hb : inMemory t b = true) (h : sectorKey t a = sectorKey t b) :
    a / 32 = b / 32 := by
  have hla := stackOf_offset_lt t a
  have hlb := stackOf_offset_lt t b
  unfold sectorKey at h
  have h1 : (stackOf t a).1 = (stackOf t b).1 := by omega
  have h2 : (stackOf t a).2 / 32 = (stackOf t b).2 / 32 := by omega
  have hh : a / halfSize = b / halfSize := by rw [← stackOf_half t a, ← stackOf_half t b, h1]
  have hlow := low_of_inMemory ha
  have hlow' := low_of_inMemory hb
  have hboth := pairLost_of_inMemory hb
  rw [hh] at hlow
  simp only [stackOf, hh, bitsNat] at h1 h2
  simp only [halfSize] at hh hlow hlow' hboth h1 h2
  cases hj : pairLost t (b / 2 ^ 38) 0 with
  | false =>
    cases hk : pairLost t (b / 2 ^ 38) 1 with
    | false =>
      simp only [hj, hk] at h1 h2
      omega
    | true =>
      have := hlow (.inr hk)
      have := hlow' (.inr hk)
      simp only [hj, hk] at h1 h2
      omega
  | true =>
    have := hlow (.inl hj)
    have := hlow' (.inl hj)
    simp only [hj, hboth hj] at h1 h2
    omega

end Sys2Proof.Machine
end

section
/-!
SUPPORT. What counting at the stacks leaves (R286), and what a write to plain frames gives and leaves (R285, R302, R396).
-/

namespace Sys2Proof.Machine

variable {s t u : State} {a b : Nat}

/-! ## What counting leaves -/

/-- The memory base dies and the clusters are the same. -/
structure SameStore (s t : State) : Prop where
  mem : t.mem = s.mem
  topo : t.topo = s.topo
  fmap : t.fmap = s.fmap
  tags : t.tags = s.tags
  ue : t.ueSectors = s.ueSectors
  scs : t.scs = s.scs

theorem SameStore.refl (s : State) : SameStore s s := ⟨rfl, rfl, rfl, rfl, rfl, rfl⟩

theorem SameStore.trans (h : SameStore s t) (h' : SameStore t u) : SameStore s u :=
  ⟨h'.mem.trans h.mem, h'.topo.trans h.topo, h'.fmap.trans h.fmap, h'.tags.trans h.tags, h'.ue.trans h.ue, h'.scs.trans h.scs⟩

theorem SameStore.sc (h : SameStore s t) (n : Nat) : t.sc n = s.sc n := by rw [State.sc, State.sc, h.scs]

theorem SameStore.ctx (h : SameStore s t) (n c : Nat) : t.ctx n c = s.ctx n c := by rw [State.ctx, State.ctx, h.sc]

theorem SameStore.sameBytes (h : SameStore s t) : SameBytes s t :=
  fun a => State.byte_congr h.mem h.topo h.fmap h.tags h.ue (fun n => by rw [h.sc]) a

theorem SameStore.ueAt (h : SameStore s t) (a : Nat) : t.ueAt a = s.ueAt a := by simp only [State.ueAt, h.topo, h.ue]

theorem sameStore_count (s : State) (st k n : Nat) : SameStore s (s.count st k n) := ⟨rfl, rfl, rfl, rfl, rfl, rfl⟩

theorem sameStore_setHlth (s : State) (l : List Nat) : SameStore s (s.setHlth l) := ⟨rfl, rfl, rfl, rfl, rfl, rfl⟩

theorem sameStore_correct (s : State) (st : Nat) (bs : List Nat) : SameStore s (s.correct st bs) := ⟨rfl, rfl, rfl, rfl, rfl, rfl⟩

theorem sameStore_useFree (s : State) (n : Nat) : SameStore s (s.useFree n) := ⟨rfl, rfl, rfl, rfl, rfl, rfl⟩

theorem sameStore_spoiled (s : State) (st n : Nat) : SameStore s (s.spoiled st n) := by
  unfold State.spoiled
  split
  · exact .refl s
  · exact (sameStore_count s st ctrUe n).trans (sameStore_setHlth _ _)

theorem sameStore_meetHost (s : State) (a n : Nat) (i : Bool) : SameStore s (s.meetHost a n i) := by
  unfold State.meetHost
  split
  · exact .refl s
  · exact ⟨rfl, rfl, rfl, rfl, rfl, rfl⟩

theorem sameStore_readEffect (s : State) (a n : Nat) : SameStore s (s.readEffect a n) := by
  unfold State.readEffect
  dsimp only
  refine (sameStore_meetHost s a n false).trans ?_
  split
  · exact sameStore_setHlth _ _
  · exact ((sameStore_count _ _ _ _).trans (sameStore_correct _ _ _)).trans (sameStore_spoiled _ _ _)

theorem sameStore_countReads (fuel : Nat) (s : State) (a n : Nat) : SameStore s (State.countReads fuel s a n) := by
  induction fuel generalizing s a n with
  | zero => exact .refl s
  | succ fuel ih =>
    unfold State.countReads
    split
    · exact .refl s
    · exact (sameStore_readEffect s _ _).trans (ih _ _ _)

theorem sameStore_noteRead (s : State) (a n : Nat) : SameStore s (s.noteRead a n) := sameStore_countReads _ s a n

/-! ## Masked bytes in the cells -/

/-- The byte that masked bytes from address `a` on have for an address. -/
def maskAt (a : Nat) (w : List (Option Byte)) (b : Nat) : Option Byte := if a ≤ b then w.getD (b - a) none else none

theorem maskAt_cons (a : Nat) (x : Option Byte) (w : List (Option Byte)) (b : Nat) :
    maskAt a (x :: w) b = if b = a then x else maskAt (a + 1) w b := by
  unfold maskAt
  by_cases hb : b = a
  · simp [hb]
  · by_cases hle : a ≤ b
    · rw [if_pos hle, if_neg hb, if_pos (by omega), show b - a = (b - (a + 1)) + 1 by omega]
      rfl
    · rw [if_neg hle, if_neg hb, if_neg (by omega)]

theorem maskAt_of_outside {w : List (Option Byte)} (h : b < a ∨ a + w.length ≤ b) : maskAt a w b = none := by
  unfold maskAt
  split
  · rw [List.getD_eq_default _ _ (by omega)]
  · rfl

theorem maskAt_inside (a : Nat) (w : List (Option Byte)) (i : Nat) : maskAt a w (a + i) = w.getD i none := by simp [maskAt]

theorem cellGet_cellPut_of_ne (m : List Host.Cell) (v : Byte) (h : b ≠ a) : cellGet (cellPut m a v) b = cellGet m b := by
  induction m with
  | nil => unfold cellPut; split <;> simp [cellGet, h]
  | cons c m ih =>
    obtain ⟨k, x⟩ := c
    unfold cellPut
    split
    · split <;> simp [cellGet, h]
    · split
      · next hk =>
        subst hk
        split <;> simp [cellGet, h]
      · simp [cellGet, ih]

theorem cellGet_putMasked_of_none {w : List (Option Byte)} (m : List Host.Cell) (h : maskAt a w b = none) :
    cellGet (putMasked m a w) b = cellGet m b := by
  induction w generalizing a m with
  | nil => rfl
  | cons x w ih =>
    rw [maskAt_cons] at h
    cases x with
    | none =>
      split at h
      · next hb => exact ih m (maskAt_of_outside (.inl (by omega)))
      · exact ih m h
    | some y =>
      split at h
      · cases h
      · next hb => exact (ih _ h).trans (cellGet_cellPut_of_ne m y hb)

theorem cellGet_putMasked_of_some {w : List (Option Byte)} {m : List Host.Cell} {y : Byte} (hm : Memory.wf m = true)
    (h : maskAt a w b = some y) : cellGet (putMasked m a w) b = y := by
  induction w generalizing a m with
  | nil => simp [maskAt] at h
  | cons x w ih =>
    rw [maskAt_cons] at h
    split at h
    · next hb =>
      subst hb h
      have hlow : maskAt (b + 1) w b = none := maskAt_of_outside (.inl (Nat.lt_succ_self b))
      exact (cellGet_putMasked_of_none _ hlow).trans ((cellGet_cellPut _ _ _ hm).trans (if_pos rfl))
    · cases x with
      | none => exact ih hm h
      | some z => exact ih (wf_cellPut a z hm) h

/-! ## Masked bytes in the data caches -/

/-- A byte as the data caches hold it. -/
def State.cached (s : State) (b : Nat) : Option Byte :=
  ((List.range 16).findSome? fun n => tget (s.sc n).lines (b / 64)).map fun l => l.data.getD (b % 64) 0

theorem State.byte_eq (s : State) (b : Nat) : s.byte b = (s.cached b).getD (s.dieByte b) := by
  unfold State.byte State.cached
  cases (List.range 16).findSome? fun n => tget (s.sc n).lines (b / 64) <;> rfl

theorem State.sc_copyByte (s : State) (a : Nat) (x : Byte) (n : Nat) : (s.copyByte a x).sc n =
    { s.sc n with lines := tmod (s.sc n).lines (a / 64) fun l => l.put (a % 64) x } := by
  unfold State.sc State.copyByte tgetD
  dsimp only
  rw [tget_map s.scs fun c => { c with lines := tmod c.lines (a / 64) fun l => l.put (a % 64) x }]
  cases tget s.scs n <;> rfl

theorem State.cached_copyByte (s : State) (a : Nat) (x : Byte) (b : Nat) : (s.copyByte a x).cached b =
    if b / 64 = a / 64 then
      ((List.range 16).findSome? fun n => tget (s.sc n).lines (b / 64)).map fun l => (l.put (a % 64) x).data.getD (b % 64) 0
    else s.cached b := by
  simp only [State.cached, State.sc_copyByte, tget_tmod]
  split
  · next h =>
    have hmap := List.map_findSome? (f := fun n => tget (s.sc n).lines (b / 64)) (g := fun l : Line => l.put (a % 64) x) (l := List.range 16)
    rw [show (fun n => (tget (s.sc n).lines (b / 64)).map fun l : Line => l.put (a % 64) x) =
      Option.map (fun l : Line => l.put (a % 64) x) ∘ fun n => tget (s.sc n).lines (b / 64) from rfl, ← hmap, Option.map_map]
    rfl
  · rfl

theorem State.cached_copyByte_of_ne (s : State) (x : Byte) (h : b ≠ a) : (s.copyByte a x).cached b = s.cached b := by
  rw [State.cached_copyByte]
  split
  · next hl =>
    have hne : a % 64 ≠ b % 64 := by omega
    simp [State.cached, Line.put, List.getElem?_set_ne hne]
  · rfl

theorem State.cached_copyByte_self (h : s.Safe) (a : Nat) (x : Byte) : (s.copyByte a x).cached a = (s.cached a).map fun _ => x := by
  rw [State.cached_copyByte, if_pos rfl, State.cached, Option.map_map]
  cases hf : (List.range 16).findSome? fun n => tget (s.sc n).lines (a / 64) with
  | none => rfl
  | some l =>
    obtain ⟨n, -, hn⟩ := List.exists_of_findSome?_eq_some hf
    have hlen : l.data.length = 64 := h.2 n _ l hn
    have hlt : a % 64 < 64 := Nat.mod_lt _ (by decide)
    simp [Line.put, hlen, hlt]

theorem State.cached_copyBytes_of_none {w : List (Option Byte)} (s : State) (h : maskAt a w b = none) :
    (s.copyBytes a w).cached b = s.cached b := by
  induction w generalizing a s with
  | nil => rfl
  | cons x w ih =>
    rw [maskAt_cons] at h
    cases x with
    | none =>
      split at h
      · next hb => exact ih s (maskAt_of_outside (.inl (by omega)))
      · exact ih s h
    | some y =>
      split at h
      · cases h
      · next hb => exact (ih _ h).trans (s.cached_copyByte_of_ne y hb)

theorem State.cached_copyBytes_of_some {w : List (Option Byte)} {y : Byte} (hs : s.Safe) (h : maskAt a w b = some y) :
    (s.copyBytes a w).cached b = (s.cached b).map fun _ => y := by
  induction w generalizing a s with
  | nil => simp [maskAt] at h
  | cons x w ih =>
    rw [maskAt_cons] at h
    split at h
    · next hb =>
      subst hb h
      have hlow : maskAt (b + 1) w b = none := maskAt_of_outside (.inl (Nat.lt_succ_self b))
      exact (State.cached_copyBytes_of_none _ hlow).trans (State.cached_copyByte_self hs b y)
    · next hb =>
      cases x with
      | none => exact ih hs h
      | some z =>
        refine (ih (hs.copyByte a z) h).trans ?_
        rw [State.cached_copyByte_of_ne s z hb]

/-! ## Clusters but for their data caches -/

/-- Every cluster is the same but for the lines of its data cache. -/
def SameButLines (s t : State) : Prop := ∀ n, t.sc n = { s.sc n with lines := (t.sc n).lines }

theorem SameButLines.refl (s : State) : SameButLines s s := fun _ => rfl

theorem SameButLines.trans (h : SameButLines s t) (h' : SameButLines t u) : SameButLines s u :=
  fun n => (h' n).trans (by rw [h n])

theorem SameStore.sameButLines (h : SameStore s t) : SameButLines s t := fun n => by rw [h.sc]

theorem sameButLines_copyBytes (s : State) (a : Nat) (w : List (Option Byte)) : SameButLines s (s.copyBytes a w) := by
  induction w generalizing s a with
  | nil => exact .refl s
  | cons x w ih =>
    cases x with
    | none => exact ih s _
    | some y => exact SameButLines.trans (t := s.copyByte a y) (fun n => by rw [State.sc_copyByte]) (ih _ _)

theorem SameButLines.ctx (h : SameButLines s t) (n c : Nat) : t.ctx n c = s.ctx n c := by rw [State.ctx, State.ctx, h n]

theorem SameButLines.run (h : SameButLines s t) (n k : Nat) : t.run n k = s.run n k := by rw [State.run, State.run, h n]

end Sys2Proof.Machine
end

section
/-!
SUPPORT. An agent's write to memory whose frames are all plain (R285, R302): the bytes it gives, and those it leaves.
-/

namespace Sys2Proof.Machine

variable {s t u : State} {a b : Nat} {v : List (Option Byte)} {acc : Bool}

/-- Every frame is plain (R297). -/
def State.AllPlain (s : State) : Prop := ∀ st off, s.mode st off = 0

theorem State.AllPlain.of_fmap (h : s.AllPlain) (hf : t.fmap = s.fmap) : t.AllPlain := fun st off => by
  rw [← h st off, State.mode, State.mode, hf]

theorem State.AllPlain.packed (h : s.AllPlain) (a : Nat) : s.packed a = false := by simp [State.packed, h _ _]

/-- A byte of a plain frame as its base die returns it. -/
theorem State.AllPlain.dieByte (h : s.AllPlain) (a : Nat) :
    s.dieByte a = if inMemory s.topo a = true ∧ s.ueAt a = false then cellGet s.mem a else 0xFF := by
  unfold State.dieByte
  rw [h.packed]
  cases inMemory s.topo a <;> cases s.ueAt a <;> rfl

/-! ## What one block takes (R285, R353) -/

/-- The stack of an address answers. -/
def State.alive (s : State) (a : Nat) : Bool := bitNat s.topo.stks.toNat (stackOf s.topo a).1

theorem State.ueAt_eq (s : State) (a : Nat) : s.ueAt a = (s.ueSectors.contains (sectorKey s.topo a) || !s.alive a) := rfl

/-- The sectors that a write reads first and cannot correct. -/
def State.badSectors (s : State) (a : Nat) (v : List (Option Byte)) (acc : Bool) : List Nat := (readSectors a v acc).filter s.ueAt

theorem State.AllPlain.takes (h : s.AllPlain) (a : Nat) (v : List (Option Byte)) (acc : Bool) : s.takes a v acc =
    if inMemory s.topo a = true ∧ s.alive a = true then
      if s.badSectors a v acc = [] then v
      else v.zipIdx.map fun x => if (s.badSectors a v acc).contains ((a + x.2) / 32 * 32) then none else x.1
    else v.map fun _ => none := by
  unfold State.takes State.alive State.badSectors
  simp only [h _ _, bne_self_eq_false, Bool.false_eq_true, if_false, List.isEmpty_iff]
  cases inMemory s.topo a <;> cases bitNat s.topo.stks.toNat (stackOf s.topo a).1 <;> rfl

theorem State.AllPlain.length_takes (h : s.AllPlain) (a : Nat) (v : List (Option Byte)) (acc : Bool) :
    (s.takes a v acc).length = v.length := by
  rw [h.takes]
  split
  · split <;> simp
  · simp

/-- A byte taken is one the write has, in a block that answers, outside the sectors that are not taken. -/
theorem State.AllPlain.takes_isSome (h : s.AllPlain) {j : Nat} (hj : ((s.takes a v acc).getD j none).isSome = true) :
    inMemory s.topo a = true ∧ j < v.length ∧ (v.getD j none).isSome = true
      ∧ (s.badSectors a v acc).contains ((a + j) / 32 * 32) = false := by
  have hlt : j < v.length := by
    by_contra hge
    rw [← h.length_takes a v acc] at hge
    rw [List.getD_eq_default _ _ (by omega)] at hj
    cases hj
  rw [h.takes] at hj
  split at hj
  · next hin =>
    split at hj
    · next hbad => exact ⟨hin.1, hlt, hj, by rw [hbad]; rfl⟩
    · rw [List.getD_eq_getElem?_getD, List.getElem?_map, List.getElem?_zipIdx, List.getElem?_eq_getElem hlt] at hj
      simp only [Option.map_some, Option.getD_some, Nat.zero_add] at hj
      split at hj
      · cases hj
      · next hbad => exact ⟨hin.1, hlt, by simpa [hlt] using hj, by simpa using hbad⟩
  · simp [hlt] at hj

/-! ## A write within one block -/

/-- Masked bytes stand in the cells, the errors of the sectors written gone. -/
structure Wrote (s t : State) (a : Nat) (w : List (Option Byte)) : Prop where
  mem : t.mem = putMasked s.mem a w
  topo : t.topo = s.topo
  fmap : t.fmap = s.fmap
  ue : t.ueSectors = s.ueSectors.filter fun x => !((maskedSectors a w).map (sectorKey s.topo)).contains x
  scs : t.scs = s.scs

theorem putMasked_none (m : List Host.Cell) (a : Nat) (v : List (Option Byte)) : putMasked m a (v.map fun _ => none) = m := by
  induction v generalizing a with
  | nil => rfl
  | cons x v ih => exact ih (a + 1)

theorem maskedSectors_none (a : Nat) (v : List (Option Byte)) : maskedSectors a (v.map fun _ => none) = [] := by
  simp [maskedSectors, sectorMask]

/-- A write of which nothing is taken leaves the cells. -/
theorem SameStore.wrote_none (h : SameStore s t) (a : Nat) (v : List (Option Byte)) : Wrote s t a (v.map fun _ => none) :=
  ⟨by rw [putMasked_none, h.mem], h.topo, h.fmap, by rw [maskedSectors_none, h.ue]; simp, h.scs⟩

theorem wrote_plainWrite (s : State) (a : Nat) (v : List (Option Byte)) (acc : Bool) :
    Wrote s (s.plainWrite a v acc) a (s.takes a v acc) := by
  unfold State.plainWrite
  dsimp only
  have h1 : SameStore s (if !acc && !(readSectors a v acc).isEmpty then s.count (stackOf s.topo a).1 ctrRmw 1 else s) := by
    split
    · exact sameStore_count ..
    · exact .refl s
  generalize (if !acc && !(readSectors a v acc).isEmpty then s.count (stackOf s.topo a).1 ctrRmw 1 else s) = x at h1 ⊢
  have h2 := ((h1.trans (sameStore_correct x (stackOf s.topo a).1 ((readSectors a v acc).filter x.fixable))).trans
    (sameStore_spoiled _ (stackOf s.topo a).1 ((readSectors a v acc).filter x.ueAt).length)).trans
    (sameStore_count _ (stackOf s.topo a).1 ctrWrb (32 * (maskedSectors a (s.takes a v acc)).length))
  generalize State.count _ _ ctrWrb _ = y at h2 ⊢
  have h3 : Wrote s ({ y with mem := putMasked y.mem a (s.takes a v acc), homeWrites := y.homeWrites ++ [(a, v.length)] }.cleared
      (maskedSectors a (s.takes a v acc))) a (s.takes a v acc) := by
    refine ⟨?_, h2.topo, h2.fmap, ?_, h2.scs⟩
    · rw [← h2.mem]; rfl
    · rw [← h2.ue, ← h2.topo]; rfl
  split
  · exact h3
  · exact ⟨h3.mem, h3.topo, h3.fmap, h3.ue, h3.scs⟩

/-- A write within one block of plain frames puts the bytes that its base die takes. -/
theorem State.AllPlain.wrote_dieWriteIn (h : s.AllPlain) (a : Nat) (v : List (Option Byte)) (acc : Bool) :
    Wrote s (s.dieWriteIn a v acc) a (s.takes a v acc) := by
  have hm := sameStore_meetHost s a v.length true
  have hp : (s.meetHost a v.length true).AllPlain := h.of_fmap hm.fmap
  have htake : (s.meetHost a v.length true).takes a v acc = s.takes a v acc := by
    have hbad : (s.meetHost a v.length true).badSectors a v acc = s.badSectors a v acc :=
      List.filter_congr fun x _ => hm.ueAt x
    rw [h.takes, hp.takes, hbad, State.alive, State.alive, hm.topo]
  unfold State.dieWriteIn
  dsimp only
  by_cases hin : inMemory s.topo a = true
  · rw [hin, Bool.not_true, if_neg (by decide)]
    by_cases hal : s.alive a = true
    · have hal' : bitNat (s.meetHost a v.length true).topo.stks.toNat (stackOf s.topo a).1 = true := by rw [hm.topo]; exact hal
      rw [hal', Bool.not_true, if_neg (by decide), hp, bne_self_eq_false, if_neg (by decide), ← htake]
      have hw := wrote_plainWrite (s.meetHost a v.length true) a v acc
      exact ⟨hw.mem.trans (by rw [hm.mem]), hw.topo.trans hm.topo, hw.fmap.trans hm.fmap, hw.ue.trans (by rw [hm.ue, hm.topo]),
        hw.scs.trans hm.scs⟩
    · have hal' : bitNat (s.meetHost a v.length true).topo.stks.toNat (stackOf s.topo a).1 = false := by
        rw [hm.topo]; exact Bool.eq_false_iff.2 hal
      rw [hal', Bool.not_false, if_pos rfl, h.takes, if_neg fun h => hal h.2]
      exact (hm.trans (sameStore_spoiled _ _ _)).wrote_none a v
  · rw [Bool.eq_false_iff.2 hin, Bool.not_false, if_pos rfl, h.takes, if_neg fun h => hin h.1]
    exact (sameStore_setHlth _ _).wrote_none a v

theorem Wrote.plain {w : List (Option Byte)} (h : Wrote s t a w) (hp : s.AllPlain) : t.AllPlain := hp.of_fmap h.fmap

theorem mem_sectorAddrs {n x : Nat} (h : x ∈ sectorAddrs a n) : 0 < n ∧ x % 32 = 0 ∧ a / 32 ≤ x / 32 ∧ x / 32 ≤ (a + n - 1) / 32 := by
  obtain ⟨i, hi, rfl⟩ := List.mem_map.1 h
  rw [List.mem_range, sectorsOf] at hi
  split at hi
  · omega
  · omega

/-- The sectors of masked bytes: those with a byte of them. -/
theorem mem_maskedSectors {w : List (Option Byte)} {x : Nat} :
    x ∈ maskedSectors a w ↔ x ∈ sectorAddrs a w.length ∧ ∃ i < 32, a ≤ x + i ∧ (w.getD (x + i - a) none).isSome = true := by
  simp only [maskedSectors, sectorMask, List.mem_filter, List.any_map, List.any_eq_true, List.mem_range, Function.comp_apply, id,
    Bool.and_eq_true, decide_eq_true_eq]

/-- A sector that a write has a byte for, with a byte outside the write, is read first. -/
theorem mem_readSectors_of_outside {x : Nat} (hx : x ∈ maskedSectors a v) (hb : b / 32 * 32 = x)
    (ho : b < a ∨ a + v.length ≤ b) : x ∈ readSectors a v acc := by
  unfold readSectors
  split
  · exact hx
  · refine List.mem_filter.2 ⟨hx, ?_⟩
    simp only [sectorMask, List.all_map, Bool.not_eq_true', List.all_eq_false, List.mem_range, Function.comp_apply, id,
      Bool.not_eq_true, Bool.and_eq_false_iff, decide_eq_false_iff_not]
    refine ⟨b % 32, by omega, ?_⟩
    rw [show x + b % 32 = b by omega]
    rcases ho with ho | ho
    · exact .inl (by omega)
    · right
      rw [List.getD_eq_default _ _ (by omega)]
      rfl

/-- A write within one block leaves the bytes outside it: of a sector it covers in part it takes nothing where that sector has an
error. -/
theorem State.AllPlain.dieByte_dieWriteIn_of_outside (h : s.AllPlain) (hlen : a % 256 + v.length ≤ 256)
    (ho : b < a ∨ a + v.length ≤ b) : (s.dieWriteIn a v acc).dieByte b = s.dieByte b := by
  have hw := h.wrote_dieWriteIn a v acc
  have hnone : maskAt a (s.takes a v acc) b = none := maskAt_of_outside (by rwa [h.length_takes])
  rw [h.dieByte, (hw.plain h).dieByte, hw.mem, hw.topo, cellGet_putMasked_of_none _ hnone]
  by_cases hb : inMemory s.topo b = true
  swap
  · simp [hb]
  have hue : (s.dieWriteIn a v acc).ueAt b = s.ueAt b := by
    rw [State.ueAt_eq, State.ueAt_eq, State.alive, State.alive, hw.topo]
    congr 1
    rw [hw.ue, Bool.eq_iff_iff, List.contains_iff_mem, List.contains_iff_mem, List.mem_filter, and_iff_left_iff_imp]
    intro hkey
    rw [Bool.not_eq_true', ← Bool.not_eq_true, List.contains_iff_mem]
    rintro hput
    obtain ⟨x, hx, hxk⟩ := List.mem_map.1 hput
    obtain ⟨hxa, i, hi, hle, hsome⟩ := mem_maskedSectors.1 hx
    rw [h.length_takes] at hxa
    obtain ⟨hpos, hx32, hlo, hhi⟩ := mem_sectorAddrs hxa
    obtain ⟨hin, hj, hv, hgood⟩ := h.takes_isSome hsome
    have hxin : inMemory s.topo x = true := by rw [← inMemory_block s.topo (a := a) (by omega), hin]
    have hsec := sector_of_key hxin hb hxk
    have hread := mem_readSectors_of_outside (acc := acc) (mem_maskedSectors.2 ⟨hxa, i, hi, hle, hv⟩) (b := b) (by omega) ho
    have hbad : x ∈ s.badSectors a v acc := by
      refine List.mem_filter.2 ⟨hread, ?_⟩
      rw [State.ueAt_eq, hxk, List.contains_iff_mem.2 hkey]
      rfl
    rw [show (a + (x + i - a)) / 32 * 32 = x by omega, ← Bool.not_eq_true, List.contains_iff_mem] at hgood
    exact hgood hbad
  rw [hue]

/-- A byte of a write within one block of a stack that answers, without errors, is what its base die then returns. -/
theorem State.AllPlain.dieByte_dieWriteIn_of_inside (h : s.AllPlain) (hs : s.Safe) (hue : s.ueSectors = [])
    (hin : inMemory s.topo b = true) {y : Byte} (hy : maskAt a (s.takes a v acc) b = some y) (hal : s.alive b = true) :
    (s.dieWriteIn a v acc).dieByte b = y := by
  have hw := h.wrote_dieWriteIn a v acc
  have hok : (s.dieWriteIn a v acc).ueAt b = false := by
    rw [State.alive] at hal
    rw [State.ueAt_eq, State.alive, hw.topo, hal, hw.ue, hue]
    rfl
  rw [(hw.plain h).dieByte, hw.topo, hin, hok, if_pos ⟨rfl, rfl⟩, hw.mem]
  exact cellGet_putMasked_of_some hs.1 hy

/-- Without errors a block of a stack that answers takes the whole write. -/
theorem State.AllPlain.takes_of_alive (h : s.AllPlain) (hue : s.ueSectors = []) (hlen : a % 256 + v.length ≤ 256)
    (hin : inMemory s.topo a = true) (hal : s.alive a = true) : s.takes a v acc = v := by
  rw [h.takes, if_pos ⟨hin, hal⟩, if_pos]
  refine List.filter_eq_nil_iff.2 fun x hx => ?_
  have hmem : x ∈ sectorAddrs a v.length := by
    unfold readSectors partSectors at hx
    split at hx
    · exact (mem_maskedSectors.1 hx).1
    · exact (mem_maskedSectors.1 (List.mem_filter.1 hx).1).1
  obtain ⟨hpos, hx32, hlo, hhi⟩ := mem_sectorAddrs hmem
  have hx' : s.alive x = true := by rw [State.alive, ← stackOf_block s.topo (a := a) (by omega)]; exact hal
  rw [State.ueAt_eq, hue, hx']
  simp

/-! ## A write of any length -/

/-- One block of a write, with the cached copies that follow it. -/
def State.blockWrite (s : State) (a : Nat) (v : List (Option Byte)) (acc : Bool) : State :=
  (s.dieWriteIn a v acc).copyBytes a (s.takes a v acc)

/-- Cached copies are not seen by the base dies. -/
theorem sameDies_copyBytes (s : State) (a : Nat) (w : List (Option Byte)) : (s.copyBytes a w) = { s with scs := (s.copyBytes a w).scs } := by
  induction w generalizing s a with
  | nil => rfl
  | cons x w ih =>
    cases x with
    | none => exact ih s _
    | some y => exact ih (s.copyByte a y) _

theorem dieByte_copyBytes (s : State) (a : Nat) (w : List (Option Byte)) (b : Nat) : (s.copyBytes a w).dieByte b = s.dieByte b := by
  rw [sameDies_copyBytes]
  rfl

/-- What a write leaves of the rest of the machine. -/
structure Follows (s t : State) : Prop where
  topo : t.topo = s.topo
  fmap : t.fmap = s.fmap
  ue : s.ueSectors = [] → t.ueSectors = []
  safe : s.Safe → t.Safe
  scs : SameButLines s t

theorem Follows.refl (s : State) : Follows s s := ⟨rfl, rfl, id, id, .refl s⟩

theorem Follows.trans (h : Follows s t) (h' : Follows t u) : Follows s u :=
  ⟨h'.topo.trans h.topo, h'.fmap.trans h.fmap, fun e => h'.ue (h.ue e), fun e => h'.safe (h.safe e), h.scs.trans h'.scs⟩

theorem Follows.plain (h : Follows s t) (hp : s.AllPlain) : t.AllPlain := hp.of_fmap h.fmap

theorem State.AllPlain.follows_blockWrite (h : s.AllPlain) (a : Nat) (v : List (Option Byte)) (acc : Bool) :
    Follows s (s.blockWrite a v acc) := by
  have hw := h.wrote_dieWriteIn a v acc
  have hc := sameDies_copyBytes (s.dieWriteIn a v acc) a (s.takes a v acc)
  have hl : SameButLines s (s.dieWriteIn a v acc) := fun n => by rw [State.sc, State.sc, hw.scs]
  refine ⟨?_, ?_, fun e => ?_, fun e => (e.dieWriteIn a v acc).copyBytes a _, hl.trans (sameButLines_copyBytes _ _ _)⟩
  · rw [State.blockWrite, hc]; exact hw.topo
  · rw [State.blockWrite, hc]; exact hw.fmap
  · rw [State.blockWrite, hc]; exact hw.ue.trans (by rw [e]; rfl)

theorem State.AllPlain.byte_blockWrite_of_outside (h : s.AllPlain) (hlen : a % 256 + v.length ≤ 256)
    (ho : b < a ∨ a + v.length ≤ b) : (s.blockWrite a v acc).byte b = s.byte b := by
  have hnone : maskAt a (s.takes a v acc) b = none := maskAt_of_outside (by rwa [h.length_takes])
  have hw := h.wrote_dieWriteIn a v acc
  rw [State.byte_eq, State.byte_eq, State.blockWrite, dieByte_copyBytes, State.cached_copyBytes_of_none _ hnone,
    h.dieByte_dieWriteIn_of_outside hlen ho]
  simp only [State.cached, State.sc, hw.scs]

theorem State.AllPlain.byte_blockWrite_of_inside (h : s.AllPlain) (hs : s.Safe) (hue : s.ueSectors = []) (hlen : a % 256 + v.length ≤ 256)
    {i : Nat} {y : Byte} (hy : v[i]? = some (some y)) (hin : inMemory s.topo (a + i) = true) (hal : s.alive (a + i) = true) :
    (s.blockWrite a v acc).byte (a + i) = y := by
  have hlt : i < v.length := (List.getElem?_eq_some_iff.1 hy).1
  have hblk : a / 256 = (a + i) / 256 := by omega
  have htake : s.takes a v acc = v := by
    refine h.takes_of_alive hue hlen ?_ ?_
    · rw [inMemory_block s.topo hblk, hin]
    · rw [State.alive, stackOf_block s.topo hblk]; exact hal
  have hmask : maskAt a (s.takes a v acc) (a + i) = some y := by
    rw [htake, maskAt_inside, List.getD_eq_getElem?_getD, hy]
    rfl
  rw [State.byte_eq, State.blockWrite, dieByte_copyBytes, State.cached_copyBytes_of_some (hs.dieWriteIn a v acc) hmask,
    h.dieByte_dieWriteIn_of_inside hs hue hin hmask hal]
  cases (s.dieWriteIn a v acc).cached (a + i) <;> rfl

theorem dieWrite_cons (fuel : Nat) (s : State) (a : Nat) (x : Option Byte) (v : List (Option Byte)) (acc : Bool) :
    State.dieWrite (fuel + 1) s a (x :: v) acc =
      State.dieWrite fuel (s.blockWrite a ((x :: v).take (256 - a % 256)) acc) (a + (256 - a % 256)) ((x :: v).drop (256 - a % 256)) acc :=
  rfl

theorem length_blockPart (a : Nat) (v : List (Option Byte)) : a % 256 + (v.take (256 - a % 256)).length ≤ 256 := by
  have := Nat.mod_lt a (show 0 < 256 by decide)
  rw [List.length_take]
  omega

theorem State.AllPlain.follows_dieWrite (h : s.AllPlain) (fuel a : Nat) (v : List (Option Byte)) (acc : Bool) :
    Follows s (State.dieWrite fuel s a v acc) := by
  induction fuel generalizing s a v with
  | zero => exact .refl s
  | succ fuel ih =>
    cases v with
    | nil => exact .refl s
    | cons x v =>
      rw [dieWrite_cons]
      have hf := h.follows_blockWrite a ((x :: v).take (256 - a % 256)) acc
      exact hf.trans (ih (hf.plain h) _ _)

theorem State.AllPlain.byte_dieWrite_of_outside (h : s.AllPlain) (fuel : Nat) (ho : b < a ∨ a + v.length ≤ b) :
    (State.dieWrite fuel s a v acc).byte b = s.byte b := by
  induction fuel generalizing s a v with
  | zero => rfl
  | succ fuel ih =>
    cases v with
    | nil => rfl
    | cons x v =>
      rw [dieWrite_cons, ih ((h.follows_blockWrite a _ acc).plain h)]
      · refine h.byte_blockWrite_of_outside (length_blockPart a _) ?_
        rw [List.length_take]
        omega
      · rw [List.length_drop]
        omega

theorem State.AllPlain.byte_dieWrite_of_inside (h : s.AllPlain) (hs : s.Safe) (hue : s.ueSectors = []) {fuel i : Nat} {y : Byte}
    (hfuel : a % 256 + v.length ≤ 256 * fuel) (hy : v[i]? = some (some y)) (hin : inMemory s.topo (a + i) = true)
    (hal : s.alive (a + i) = true) : (State.dieWrite fuel s a v acc).byte (a + i) = y := by
  induction fuel generalizing s a v i with
  | zero =>
    obtain rfl : v = [] := List.length_eq_zero_iff.1 (by omega)
    cases hy
  | succ fuel ih =>
    cases v with
    | nil => cases hy
    | cons x v =>
      rw [dieWrite_cons]
      have hlen := length_blockPart a (x :: v)
      have hf := h.follows_blockWrite a ((x :: v).take (256 - a % 256)) acc
      generalize hn : 256 - a % 256 = n at *
      by_cases hi : i < n
      · rw [(hf.plain h).byte_dieWrite_of_outside fuel (.inl (by omega))]
        exact h.byte_blockWrite_of_inside hs hue hlen (by rw [List.getElem?_take, if_pos hi, hy]) hin hal
      · have hai : a + i = a + n + (i - n) := by omega
        rw [hai] at hin hal ⊢
        refine ih (hf.plain h) (hf.safe hs) (hf.ue hue) ?_ ?_ (by rw [hf.topo]; exact hin) ?_
        · rw [List.length_drop]
          omega
        · rw [List.getElem?_drop, show n + (i - n) = i by omega, hy]
        · rw [State.alive, hf.topo]
          exact hal

/-! ## An agent's write -/

theorem State.AllPlain.follows_write (h : s.AllPlain) (a : Nat) (v : List Byte) : Follows s (s.write a v) := h.follows_dieWrite _ _ _ _

theorem State.AllPlain.byte_write_of_outside (h : s.AllPlain) {v : List Byte} (ho : b < a ∨ a + v.length ≤ b) :
    (s.write a v).byte b = s.byte b :=
  h.byte_dieWrite_of_outside _ (by rwa [List.length_map])

theorem State.AllPlain.byte_write_of_inside (h : s.AllPlain) (hs : s.Safe) (hue : s.ueSectors = []) {v : List Byte} {i : Nat} {y : Byte}
    (hy : v[i]? = some y) (hin : inMemory s.topo (a + i) = true) (hal : s.alive (a + i) = true) : (s.write a v).byte (a + i) = y :=
  h.byte_dieWrite_of_inside hs hue (by rw [List.length_map]; omega) (by rw [List.getElem?_map, hy]; rfl) hin hal

end Sys2Proof.Machine
end

section
/-!
SUPPORT. The save of a run (R28, R29, R208): what it leaves of the machine, and where its bytes stand.
-/

namespace Sys2Proof.Machine

variable {s t : State} {n k b : Nat} {r : Run}

/-! ## What a write leaves of the clusters, in frames of any kind -/

theorem scs_compWrite (s : State) (a : Nat) (v : List (Option Byte)) (acc : Bool) : (s.compWrite a v acc).scs = s.scs := by
  have hread : (s.compRead (a - a % 256) acc).scs = s.scs := by
    unfold State.compRead
    dsimp only
    refine (sameStore_correct _ _ _).scs.trans ?_
    split <;> rfl
  unfold State.compWrite
  dsimp only
  split
  · exact (sameStore_spoiled _ _ _).scs.trans hread
  · exact hread

theorem scs_dieWriteIn (s : State) (a : Nat) (v : List (Option Byte)) (acc : Bool) : (s.dieWriteIn a v acc).scs = s.scs := by
  have hm := (sameStore_meetHost s a v.length true).scs
  unfold State.dieWriteIn
  dsimp only
  split
  · rfl
  · split
    · exact (sameStore_spoiled _ _ _).scs.trans hm
    · split
      · exact (scs_compWrite _ a v acc).trans hm
      · exact (wrote_plainWrite _ a v acc).scs.trans hm

theorem sameButLines_dieWrite (fuel : Nat) (s : State) (a : Nat) (v : List (Option Byte)) (acc : Bool) :
    SameButLines s (State.dieWrite fuel s a v acc) := by
  induction fuel generalizing s a v with
  | zero => exact .refl s
  | succ fuel ih =>
    cases v with
    | nil => exact .refl s
    | cons x v =>
      rw [dieWrite_cons]
      refine SameButLines.trans ?_ (ih _ _ _)
      refine SameButLines.trans (t := s.dieWriteIn a ((x :: v).take (256 - a % 256)) acc) (fun n => ?_) (sameButLines_copyBytes _ _ _)
      rw [State.sc, State.sc, scs_dieWriteIn]

theorem sameButLines_write (s : State) (a : Nat) (v : List Byte) : SameButLines s (s.write a v) := sameButLines_dieWrite _ s a _ _

/-! ## Writes one after the other -/

theorem sameButLines_foldl {α : Type} {f : State → α → State} (hf : ∀ s x, SameButLines s (f s x)) (l : List α) (s : State) :
    SameButLines s (l.foldl f s) := by
  induction l generalizing s with
  | nil => exact .refl s
  | cons x l ih => exact (hf s x).trans (ih _)

/-- A step that, in plain frames, writes bytes alone. -/
def Stores {α : Type} (f : State → α → State) : Prop := ∀ s x, s.AllPlain → Follows s (f s x)

theorem Stores.foldl {α : Type} {f : State → α → State} (hf : Stores f) (l : List α) (h : s.AllPlain) : Follows s (l.foldl f s) := by
  induction l generalizing s with
  | nil => exact .refl s
  | cons x l ih => exact (hf s x h).trans (ih ((hf s x h).plain h))

/-- A byte that no step writes stays. -/
theorem Stores.byte_foldl {α : Type} {f : State → α → State} (hf : Stores f) {l : List α}
    (hb : ∀ x ∈ l, ∀ s, s.AllPlain → (f s x).byte b = s.byte b) (h : s.AllPlain) : (l.foldl f s).byte b = s.byte b := by
  induction l generalizing s with
  | nil => rfl
  | cons x l ih =>
    exact (ih (fun y hy => hb y (List.mem_cons_of_mem _ hy)) ((hf s x h).plain h)).trans (hb x (List.mem_cons_self ..) s h)

/-- A byte that one step writes, and no later one, is the byte it wrote. -/
theorem Stores.byte_foldl_of_mem {α : Type} {f : State → α → State} (hf : Stores f) {R : α → α → Prop} {l : List α}
    (hl : l.Pairwise R) {x : α} (hx : x ∈ l) {y : Byte}
    (hwrite : ∀ t, t.AllPlain → Follows s t → (f t x).byte b = y)
    (hlater : ∀ z ∈ l, R x z → ∀ t, t.AllPlain → (f t z).byte b = t.byte b) (h : s.AllPlain) : (l.foldl f s).byte b = y := by
  obtain ⟨l₁, l₂, rfl⟩ := List.append_of_mem hx
  obtain ⟨-, hl₂, -⟩ := List.pairwise_append.1 hl
  have h₁ := hf.foldl l₁ h
  rw [List.foldl_append, List.foldl_cons, hf.byte_foldl (fun z hz => hlater z (by simp [hz]) ((List.pairwise_cons.1 hl₂).1 z hz))
    ((hf _ x (h₁.plain h)).plain (h₁.plain h))]
  exact hwrite _ (h₁.plain h) h₁

/-! ## The parts of a save (R208) -/

/-- The sections of one core that R208 lays out, written from a base on. -/
def State.saveSections (A : Nat) (ps : List (Nat × List Byte)) (t : State) : State := ps.foldl (fun t p => t.write (A + p.1) p.2) t

/-- The internal sections of one core, written from a base on. -/
def State.saveInternals (A : Nat) (ps : List (Nat × Nat)) (t : State) : State := ps.foldl (fun t p => t.writeInternal (A + p.1) p.2) t

/-- The save of one core of run `r` of cluster `n`, as the state `s` stands. -/
def State.saveCore (s : State) (n : Nat) (r : Run) (t : State) (c : Nat) : State :=
  (t.saveSections (s.saveBase n (r.first + c)) (r.saveOf (s.runRegs n r) c)).saveInternals (s.saveBase n (r.first + c)) (internals c)

theorem State.writeSave_eq (s : State) (n : Nat) (r : Run) : s.writeSave n r = (List.range r.g).foldl (s.saveCore n r) s := rfl

theorem sameButLines_writeInternal (s : State) (a size : Nat) : SameButLines s (s.writeInternal a size) :=
  (sameButLines_write s _ _).trans (sameStore_useFree _ _).sameButLines

theorem sameButLines_writeSave (s : State) (n : Nat) (r : Run) : SameButLines s (s.writeSave n r) :=
  sameButLines_foldl (fun t _ => (sameButLines_foldl (fun t _ => sameButLines_write t _ _) _ t).trans
    (sameButLines_foldl (fun t _ => sameButLines_writeInternal t _ _) _ _)) _ s

theorem SameStore.follows (h : SameStore s t) (hs : s.Safe → t.Safe) : Follows s t :=
  ⟨h.topo, h.fmap, fun e => h.ue.trans e, hs, h.sameButLines⟩

theorem stores_write (A : Nat) : Stores fun (t : State) (p : Nat × List Byte) => t.write (A + p.1) p.2 := fun _ _ h => h.follows_write _ _

theorem stores_writeInternal (A : Nat) : Stores fun (t : State) (p : Nat × Nat) => t.writeInternal (A + p.1) p.2 :=
  fun _ _ h => (h.follows_write _ _).trans ((sameStore_useFree _ _).follows fun h => h.useFree _)

/-- An internal section holds at most the bytes of its size. -/
theorem State.AllPlain.byte_writeInternal (h : s.AllPlain) {a size : Nat} (ho : b < a ∨ a + size ≤ b) :
    (s.writeInternal a size).byte b = s.byte b := by
  have hlt : s.freeVal % (size + 1) < size + 1 := Nat.mod_lt _ (Nat.succ_pos _)
  refine ((sameStore_useFree _ _).sameBytes b).trans (h.byte_write_of_outside ?_)
  rw [List.length_map, List.length_range]
  omega

theorem State.AllPlain.byte_saveSections (h : s.AllPlain) {A : Nat} {ps : List (Nat × List Byte)}
    (ho : ∀ p ∈ ps, b < A + p.1 ∨ A + p.1 + p.2.length ≤ b) : (s.saveSections A ps).byte b = s.byte b :=
  (stores_write A).byte_foldl (fun p hp _ ht => ht.byte_write_of_outside (ho p hp)) h

theorem State.AllPlain.byte_saveInternals (h : s.AllPlain) {A : Nat} {ps : List (Nat × Nat)}
    (ho : ∀ p ∈ ps, b < A + p.1 ∨ A + p.1 + p.2 ≤ b) : (s.saveInternals A ps).byte b = s.byte b :=
  (stores_writeInternal A).byte_foldl (fun p hp _ ht => ht.byte_writeInternal (ho p hp)) h

theorem stores_saveCore (s : State) (n : Nat) (r : Run) : Stores (s.saveCore n r) := fun t c h => by
  have hf := (stores_write (s.saveBase n (r.first + c))).foldl (r.saveOf (s.runRegs n r) c) h
  exact hf.trans ((stores_writeInternal _).foldl _ (hf.plain h))

/-- The save of a core leaves the bytes outside its sections. -/
theorem State.AllPlain.byte_saveCore (h : t.AllPlain) {c : Nat}
    (hs : ∀ p ∈ r.saveOf (s.runRegs n r) c,
      b < s.saveBase n (r.first + c) + p.1 ∨ s.saveBase n (r.first + c) + p.1 + p.2.length ≤ b)
    (hi : ∀ p ∈ internals c, b < s.saveBase n (r.first + c) + p.1 ∨ s.saveBase n (r.first + c) + p.1 + p.2 ≤ b) :
    (s.saveCore n r t c).byte b = t.byte b := by
  have hf := (stores_write (s.saveBase n (r.first + c))).foldl (r.saveOf (s.runRegs n r) c) h
  exact (State.AllPlain.byte_saveInternals (hf.plain h) hi).trans (h.byte_saveSections hs)

/-- A save leaves the bytes outside the sections of its cores. -/
theorem State.AllPlain.byte_writeSave_of_outside (h : s.AllPlain)
    (hs : ∀ c < r.g, ∀ p ∈ r.saveOf (s.runRegs n r) c,
      ¬(s.saveBase n (r.first + c) + p.1 ≤ b ∧ b < s.saveBase n (r.first + c) + p.1 + p.2.length))
    (hi : ∀ c < r.g, ∀ p ∈ internals c, ¬(s.saveBase n (r.first + c) + p.1 ≤ b ∧ b < s.saveBase n (r.first + c) + p.1 + p.2)) :
    (s.writeSave n r).byte b = s.byte b := by
  rw [State.writeSave_eq]
  refine (stores_saveCore s n r).byte_foldl (fun c hc t ht => ht.byte_saveCore (fun p hp => ?_) fun p hp => ?_) h
  · have := hs c (List.mem_range.1 hc) p hp
    omega
  · have := hi c (List.mem_range.1 hc) p hp
    omega

/-! ## Where a section's bytes stand -/

/-- The sections below 0x4000 stand in the order of their offsets, before all others. -/
theorem pairwise_saveOf (r : Run) (regs c : Nat) : (r.saveOf regs c).Pairwise fun p q => p.1 < 0x4000 → p.1 < q.1 := by
  have hslots : ∀ p ∈ r.slots.map (fun p => (0x10000 + 0x4000 * p.1, linesBytes p.2.lines c)), 0x4000 ≤ p.1 := by
    simp only [List.mem_map]
    rintro _ ⟨x, -, rfl⟩
    dsimp only
    omega
  have hbanks : ∀ p ∈ r.banks.map (fun p => (0x50000 + 0x800 * p.1, bankBytes r p.2 c)), 0x4000 ≤ p.1 := by
    simp only [List.mem_map]
    rintro _ ⟨x, -, rfl⟩
    dsimp only
    omega
  have hparts : ∀ p ∈ (if isParts r.active.fmt then [(0x70000, r.active.area.flatMap fun t => linesBytes t c)] else []), 0x4000 ≤ p.1 := by
    split <;> simp
  have hhigh : ∀ l : List (Nat × List Byte), (∀ p ∈ l, 0x4000 ≤ p.1) → l.Pairwise fun p q => p.1 < 0x4000 → p.1 < q.1 := by
    intro l hl
    exact List.pairwise_of_forall_mem_list fun p hp q _ h => absurd (hl p hp) (by omega)
  unfold Run.saveOf
  rw [List.append_assoc, List.append_assoc, List.pairwise_append]
  refine ⟨by simp, hhigh _ fun p hp => ?_, fun p _ q hq hp => ?_⟩
  · rcases List.mem_append.1 hp with hp | hp
    · exact hslots p hp
    · exact (List.mem_append.1 hp).elim (hbanks p) (hparts p)
  · refine Nat.lt_of_lt_of_le hp ?_
    rcases List.mem_append.1 hq with hq | hq
    · exact hslots q hq
    · exact (List.mem_append.1 hq).elim (hbanks q) (hparts q)

/-- The last section below 0x4000 describes the 64 banks. -/
theorem bankSection_mem (r : Run) (regs c : Nat) : (0x3880, (List.range 64).map fun a => bankByte r a c) ∈ r.saveOf regs c := by
  simp [Run.saveOf]

/-- A byte of a section below 0x4000, before the next section, is below 0x4000 itself. -/
theorem lt_of_mem_saveOf {regs c i : Nat} {p : Nat × List Byte} (hp : p ∈ r.saveOf regs c) (hlow : p.1 < 0x4000) (hi : i < p.2.length)
    (hnext : ∀ q ∈ r.saveOf regs c, p.1 < q.1 → p.1 + i < q.1) : p.1 + i < 0x4000 := by
  by_cases h : p.1 < 0x3880
  · have := hnext _ (bankSection_mem r regs c) h
    dsimp only at this
    omega
  · have hlast : p.1 = 0x3880 ∧ p.2.length = 64 := by
      simp only [Run.saveOf, List.mem_append, List.mem_cons, List.mem_map, List.not_mem_nil, or_false] at hp
      rcases hp with ((hp | ⟨x, -, rfl⟩) | ⟨x, -, rfl⟩) | hp
      · rcases hp with rfl | rfl | rfl | rfl | rfl | rfl | rfl <;> simp_all
      · dsimp only at hlow
        omega
      · dsimp only at hlow
        omega
      · split at hp
        · obtain rfl := List.mem_singleton.1 hp
          dsimp only at hlow
          omega
        · cases hp
    omega

/-- The internal sections lie from 0x4000 on. -/
theorem le_of_mem_internals {c : Nat} {p : Nat × Nat} (hp : p ∈ internals c) : 0x4000 ≤ p.1 := by
  unfold internals at hp
  split at hp
  · simp only [List.cons_append, List.nil_append, List.mem_cons, List.not_mem_nil, or_false] at hp
    rcases hp with rfl | rfl | rfl <;> decide
  · simp only [List.append_nil, List.mem_cons, List.not_mem_nil, or_false] at hp
    rcases hp with rfl | rfl <;> decide

theorem saveBase_lt (s : State) (n first : Nat) {c d : Nat} (h : c < d) : s.saveBase n (first + c) + 2 ^ 20 ≤ s.saveBase n (first + d) := by
  unfold State.saveBase
  omega

/-- A byte of a section below 0x4000 that no later section covers stands in memory after the save of its core. -/
theorem State.AllPlain.byte_saveCore_of_mem (h : t.AllPlain) (hs : t.Safe) (hue : t.ueSectors = []) {c i : Nat}
    {p : Nat × List Byte} {v : Byte} (hp : p ∈ r.saveOf (s.runRegs n r) c) (hlow : p.1 < 0x4000) (hv : p.2[i]? = some v)
    (hnext : ∀ q ∈ r.saveOf (s.runRegs n r) c, p.1 < q.1 → p.1 + i < q.1)
    (hin : inMemory t.topo (s.saveBase n (r.first + c) + p.1 + i) = true) (hal : t.alive (s.saveBase n (r.first + c) + p.1 + i) = true) :
    (s.saveCore n r t c).byte (s.saveBase n (r.first + c) + p.1 + i) = v := by
  have hi : i < p.2.length := (List.getElem?_eq_some_iff.1 hv).1
  have hlt := lt_of_mem_saveOf hp hlow hi hnext
  have hf := (stores_write (s.saveBase n (r.first + c))).foldl (r.saveOf (s.runRegs n r) c) h
  refine (State.AllPlain.byte_saveInternals (hf.plain h) fun q hq => .inl ?_).trans ?_
  · have := le_of_mem_internals hq
    omega
  refine (stores_write _).byte_foldl_of_mem (pairwise_saveOf r _ c) hp (fun u hu hfu => ?_) (fun q hq hlater u hu => ?_) h
  · refine hu.byte_write_of_inside (hfu.safe hs) (hfu.ue hue) hv ?_ ?_
    · rwa [hfu.topo]
    · rw [State.alive, hfu.topo]
      exact hal
  · have := hnext q hq (hlater hlow)
    exact hu.byte_write_of_outside (.inl (by omega))

/-- The same after the save of all cores: the save area of a later core lies beyond. -/
theorem State.AllPlain.byte_writeSave_of_mem (h : s.AllPlain) (hs : s.Safe) (hue : s.ueSectors = []) {c i : Nat} (hc : c < r.g)
    {p : Nat × List Byte} {v : Byte} (hp : p ∈ r.saveOf (s.runRegs n r) c) (hlow : p.1 < 0x4000) (hv : p.2[i]? = some v)
    (hnext : ∀ q ∈ r.saveOf (s.runRegs n r) c, p.1 < q.1 → p.1 + i < q.1)
    (hin : inMemory s.topo (s.saveBase n (r.first + c) + p.1 + i) = true) (hal : s.alive (s.saveBase n (r.first + c) + p.1 + i) = true) :
    (s.writeSave n r).byte (s.saveBase n (r.first + c) + p.1 + i) = v := by
  have hlt := lt_of_mem_saveOf hp hlow (List.getElem?_eq_some_iff.1 hv).1 hnext
  rw [State.writeSave_eq]
  refine (stores_saveCore s n r).byte_foldl_of_mem List.pairwise_lt_range (List.mem_range.2 hc) (fun t ht hft => ?_)
    (fun d _ hcd t ht => ?_) h
  · refine ht.byte_saveCore_of_mem (hft.safe hs) (hft.ue hue) hp hlow hv hnext ?_ ?_
    · rwa [hft.topo]
    · rw [State.alive, hft.topo]
      exact hal
  · have hbase := saveBase_lt s n r.first hcd
    exact ht.byte_saveCore (fun q _ => .inl (by omega)) fun q _ => .inl (by omega)

/-! ## The reads of a restore (R208, R264) -/

theorem sameStore_foldl {α : Type} {f : State → α → State} (hf : ∀ s x, SameStore s (f s x)) (l : List α) (s : State) :
    SameStore s (l.foldl f s) := by
  induction l generalizing s with
  | nil => exact .refl s
  | cons x l ih => exact (hf s x).trans (ih _)

theorem sameStore_readSave (s : State) (n : Nat) (r : Run) : SameStore s (s.readSave n r) :=
  sameStore_foldl (fun t _ => (sameStore_foldl (fun t _ => sameStore_noteRead t _ _) _ t).trans
    (sameStore_foldl (fun t _ => (sameStore_noteRead t _ _).trans (sameStore_useFree _ _)) _ _)) _ s

end Sys2Proof.Machine
end

section
/-!
SUPPORT. The life of a run (R27, R28-R33, R176, R334): its start, its end, its reclamation, its pre-emption and its restore.
-/

namespace Sys2Proof.Machine

variable {s t u : State} {n k : Nat}

/-! ## Changes of one cluster -/

theorem OnlySc.trans (h : OnlySc n s t) (h' : OnlySc n t u) : OnlySc n s u := by
  unfold OnlySc at *
  exact h'.trans (by rw [h, State.setSc_setSc])

theorem onlySc_modSc (s : State) (n : Nat) (f : Sc → Sc) : OnlySc n s (s.modSc n f) := by
  unfold OnlySc
  rw [State.sc_modSc_self]
  rfl

/-- `t` differs from `s` in the runs of cluster `n` alone. -/
structure RunsOnly (n : Nat) (s t : State) : Prop where
  sc : OnlySc n s t
  bytes : SameBytes s t
  ctx : ∀ c, t.ctx n c = s.ctx n c

theorem RunsOnly.trans (h : RunsOnly n s t) (h' : RunsOnly n t u) : RunsOnly n s u :=
  ⟨h.sc.trans h'.sc, fun a => (h'.bytes a).trans (h.bytes a), fun c => (h'.ctx c).trans (h.ctx c)⟩

theorem runsOnly_setRun (s : State) (n k : Nat) (r : Run) : RunsOnly n s (s.setRun n k r) :=
  ⟨onlySc_modSc s n _, s.byte_setRun n k r, fun c => s.ctx_setRun n k r n c⟩

theorem State.run_setRun_of_ne (s : State) (r : Run) {j : Nat} (h : j ≠ k) : (s.setRun n k r).run n j = s.run n j := by
  simp [State.run, State.setRun, tgetD_tput_of_ne _ _ _ h]

/-- A run in the table is the one read at its key, where each key stands once. -/
theorem tget_of_mem {α : Type} {l : Tab α} (hl : (l.map Prod.fst).Nodup) {p : Nat × α} (hp : p ∈ l) : tget l p.1 = some p.2 := by
  induction l with
  | nil => cases hp
  | cons q l ih =>
    obtain ⟨hq, hl⟩ := List.nodup_cons.1 hl
    rcases List.mem_cons.1 hp with rfl | hp
    · simp [tget]
    · have hne : p.1 ≠ q.1 := fun e => hq (e ▸ List.mem_map_of_mem hp)
      simp [tget, hne, ih hl hp]

theorem mem_of_tget {α : Type} {l : Tab α} {k : Nat} {x : α} (h : tget l k = some x) : (k, x) ∈ l := by
  induction l with
  | nil => cases h
  | cons q l ih =>
    obtain ⟨j, y⟩ := q
    rw [tget] at h
    split at h
    · next hk => simp_all
    · exact List.mem_cons_of_mem _ (ih h)

theorem run_of_mem (hl : ((s.sc n).runs.map Prod.fst).Nodup) {p : Nat × Run} (hp : p ∈ (s.sc n).runs) : s.run n p.1 = p.2 := by
  rw [State.run, tgetD, tget_of_mem hl hp]
  rfl

/-! ## Start (R171, R176) -/

theorem exec_kernelRunStart_of {f q : Nat} (h : s.canStart n k = some (f, q))
    (hfirst : ∀ x ∈ (s.sc n).entries, x.id < k → s.canStart n x.id = none) :
    exec (.kernelRunStart n k) s = .next (s.startRun n k f q) := by
  have hany : ((s.sc n).entries.any fun x => x.id < k && (s.canStart n x.id).isSome) = false := by
    rw [List.any_eq_false]
    intro x hx
    by_cases hid : x.id < k
    · simp [hfirst x hx hid]
    · simp [hid]
  rw [exec_kernelRunStart, execKernelRunStart, h]
  simp only [hany, Bool.false_eq_true, if_false]

theorem keepsCtxs_startRun (s : State) (n k f q : Nat) : KeepsCtxs s (s.startRun n k f q) :=
  (keepsCtxs_setRun s n k _).trans (keepsCtxs_modSc _ n _ fun _ => ⟨rfl, rfl⟩)

theorem State.run_startRun (s : State) (n k f q : Nat) : (s.startRun n k f q).run n k =
    { s.run n k with phase := .running, first := f, seq := q, placed := true, since := none } := by
  rw [State.startRun, State.run_modSc_of n (fun t => t.start k) fun _ => rfl]
  exact State.run_setRun_self ..

theorem State.entries_startRun (s : State) (n k f q : Nat) : ((s.startRun n k f q).sc n).entries =
    (s.sc n).entries.map fun e => if e.id = k then { e with st := .started } else e := by
  rw [State.startRun, State.sc_modSc_self, Sc.start, State.modRun, State.entries_setRun]

theorem State.entry_startRun {f q : Nat} {e : Entry} (h : ((s.startRun n k f q).sc n).entry? k = some e) : e.st = .started := by
  have hid : e.id = k := by simpa using List.find?_some h
  have hmem := List.mem_of_find?_eq_some h
  rw [State.entries_startRun] at hmem
  obtain ⟨x, -, rfl⟩ := List.mem_map.1 hmem
  split at hid
  · next hx => rw [if_pos hx]
  · next hx => exact absurd hid hx

/-! ## Completion and reclamation (R27, R33, R158) -/

theorem exec_runCompletion_of (hp : (s.run n k).phase = .running) (hh : (s.run n k).halted = true)
    (hd : (s.run n k).drained = true) (hs : (s.run n k).stop = false) :
    exec (.runCompletion n k) s = .next ((s.setLengths n (s.run n k) fun p _ => p.n).retireRun n k (s.run n k)) := by
  simp [execRunCompletion, hp, hh, hd, hs]

/-- The cluster of a run that has completed. -/
theorem State.sc_completed (s : State) (n k : Nat) (r : Run) : ((s.setLengths n r fun p _ => p.n).retireRun n k r).sc n =
    { s.sc n with
      streams := lengthsSet r (fun p _ => p.n) (s.sc n).streams,
      entries := (s.sc n).entries.filter fun e => e.id != k,
      runs := if s.ownerStands n r.owner then tput (s.sc n).runs k r.retire else tdel (s.sc n).runs k } := by
  rw [State.sc_retireRun, State.sc_setLengths, if_pos rfl, (keepsCtxs_setLengths s n r _).ownerStands]

theorem exec_runReclaimStop_of (hs : (s.run n k).stop = true) (hp : (s.run n k).phase = .running ∨ (s.run n k).phase = .saved) :
    exec (.runReclaimStop n k) s = .next (s.discardRun n k) := by
  simp [execRunReclaimStop, hs, hp]

/-! ## Pre-emption (R28, R130, R334) -/

theorem State.stillWaits_some (s : State) (n x : Nat) : s.stillWaits n (some x) = true ↔
    (s.run n x).phase = .waiting ∧ thas (s.sc n).runs x = true := by simp [State.stillWaits]

/-- A marked run whose mark no longer holds loses it; one whose mark holds waits for its boundary, then for the weight read under
way, and is saved. -/
theorem exec_preemption_of (hp : (s.run n k).phase = .running) (hm : (s.run n k).preempt = true) (hs : (s.run n k).stop = false) :
    exec (.preemption n k) s = .next
      (if s.stillWaits n (s.run n k).by' = false ∨ (s.run n k).halted = true ∨ bitNat (s.sc n).ksp.toNat 0 = false then s.dropMark n k
      else if (s.run n k).idle ≠ 0 then s
      else if (s.run n k).tldx ≠ 0 then s.setRun n k ((s.run n k).spend 1)
      else ((s.writeSave n (s.run n k)).setRun n k
        { s.run n k with phase := .saved, preempt := false, paid := false }).hasPreempted n (s.run n k).by') := by
  simp [execPreemption, hp, hm, hs, or_assoc]

theorem State.run_hasPreempted_of_ne (s : State) {x : Nat} (h : k ≠ x) : (s.hasPreempted n (some x)).run n k = s.run n k :=
  s.run_setRun_of_ne _ h

theorem State.preemptor_hasPreempted (s : State) (n x : Nat) : ((s.hasPreempted n (some x)).run n x).preemptor = true := by
  simp [State.hasPreempted, State.modRun]

/-- The run that made a mark, where it binds no stream and has marked no other, again has no group. -/
theorem runsOnly_dropMark (s : State) (n k : Nat) : RunsOnly n s (s.dropMark n k) := by
  unfold State.dropMark
  split
  · split
    · exact (runsOnly_setRun s n _ _).trans (runsOnly_setRun _ n k _)
    · exact runsOnly_setRun s n k _
  · exact runsOnly_setRun s n k _

theorem State.run_dropMark {x j : Nat} (hx : (s.run n k).by' = some x) (hj : j ≠ x) :
    (s.dropMark n k).run n j = if j = k then { s.run n k with preempt := false, by' := none } else s.run n j := by
  have hfirst (b : Bool) (g : Run → Run) {i : Nat} (hi : i ≠ x) : (if b then s.modRun n x g else s).run n i = s.run n i := by
    cases b
    · rfl
    · exact s.run_setRun_of_ne _ hi
  unfold State.dropMark
  simp only [hx]
  by_cases hk : j = k
  · subst hk
    rw [if_pos rfl, State.modRun, State.run_setRun_self, hfirst _ _ hj]
  · rw [if_neg hk, State.modRun, State.run_setRun_of_ne _ _ hk, hfirst _ _ hj]

/-! ## Restore (R31) -/

theorem exec_runRestore_of {q : Nat} (hp : (s.run n k).phase = .saved) (hs : (s.run n k).stop = false)
    (hg : (s.run n k).by' = none ∨ ∃ x, (s.run n k).by' = some x ∧ (s.run n x).phase = .retired)
    (hh : (s.sc n).holding .running (s.run n k).first (s.run n k).g = []) (hq : (s.sc n).freeSeq = some q) :
    exec (.runRestore n k) s = .next ((s.readSave n (s.run n k)).setRun n k
      { s.run n k with phase := .running, seq := q, by' := none }) := by
  rcases hg with hg | ⟨x, hg, hx⟩
  · simp [execRunRestore, hp, hs, hg, hh, hq]
  · simp [execRunRestore, hp, hs, hg, hx, hh, hq]

/-! ## The mark of a group (R334) -/

theorem RunsOnly.foldl_modRun (h : RunsOnly n s t) (f : Run → Run) (l : Tab Run) :
    RunsOnly n s (l.foldl (fun t p => t.modRun n p.1 f) t) := by
  induction l generalizing t with
  | nil => exact h
  | cons p l ih => exact ih (h.trans (runsOnly_setRun t n p.1 _))

theorem run_foldl_modRun_of_not_mem (f : Run → Run) {l : Tab Run} {j : Nat} (h : j ∉ l.map Prod.fst) (s : State) :
    (l.foldl (fun t p => t.modRun n p.1 f) s).run n j = s.run n j := by
  induction l generalizing s with
  | nil => rfl
  | cons p l ih =>
    rw [List.map_cons, List.mem_cons, not_or] at h
    exact (ih h.2 _).trans (s.run_setRun_of_ne _ h.1)

theorem run_foldl_modRun_of_mem (f : Run → Run) {l : Tab Run} (hl : (l.map Prod.fst).Nodup) {p : Nat × Run} (hp : p ∈ l) (s : State) :
    (l.foldl (fun t p => t.modRun n p.1 f) s).run n p.1 = f (s.run n p.1) := by
  induction l generalizing s with
  | nil => cases hp
  | cons q l ih =>
    obtain ⟨hq, hl⟩ := List.nodup_cons.1 hl
    rw [List.foldl_cons]
    rcases List.mem_cons.1 hp with rfl | hp
    · rw [run_foldl_modRun_of_not_mem f hq]
      exact State.run_setRun_self ..
    · rw [ih hl hp]
      exact congrArg f (s.run_setRun_of_ne _ fun e => hq (e ▸ List.mem_map_of_mem hp))

theorem mem_holding {t : Sc} {ph : RunPhase} {f g : Nat} {p : Nat × Run} (h : p ∈ t.holding ph f g) : p ∈ t.runs ∧ p.2.phase = ph := by
  obtain ⟨hm, hb⟩ := List.mem_filter.1 h
  rw [Bool.and_eq_true, beq_iff_eq] at hb
  exact ⟨hm, hb.1⟩

/-- The waiting run whose time is up, none that precedes it being ripe, is the one that pre-empts. -/
theorem State.ripeRun_of (hk : tget (s.sc n).runs k = some (s.run n k))
    (ho : s.pthrOver n k = true)
    (hbest : ∀ p ∈ (s.sc n).runs, s.pthrOver n p.1 = true → ¬((s.run n k).cls < p.2.cls ∨ ((s.run n k).cls = p.2.cls ∧ p.1 < k))) :
    s.ripeRun n = some k := by
  have hmem : (k, s.run n k) ∈ (s.sc n).runs.filter fun p => s.pthrOver n p.1 := List.mem_filter.2 ⟨mem_of_tget hk, ho⟩
  unfold State.ripeRun
  dsimp only
  generalize hL : ((s.sc n).runs.filter fun p => s.pthrOver n p.1) = L at hmem ⊢
  have hfirst : ∀ p, L.find? (fun p => !L.any fun q => decide (p.2.cls < q.2.cls) || (p.2.cls == q.2.cls && decide (q.1 < p.1))) = some p →
      p.1 = k := by
    intro p hp
    have hpL := List.mem_of_find?_eq_some hp
    have hnone := List.find?_some hp
    rw [Bool.not_eq_true', List.any_eq_false] at hnone
    have hkp := hnone _ hmem
    rw [← hL] at hpL
    obtain ⟨hpm, hpo⟩ := List.mem_filter.1 hpL
    have hpk := hbest p hpm hpo
    simp only [Bool.or_eq_true, Bool.and_eq_true, decide_eq_true_eq, beq_iff_eq] at hkp
    omega
  cases hf : L.find? fun p => !L.any fun q => decide (p.2.cls < q.2.cls) || (p.2.cls == q.2.cls && decide (q.1 < p.1)) with
  | some p => exact congrArg some (hfirst p hf)
  | none =>
    have hk' := List.find?_eq_none.1 hf _ hmem
    rw [Bool.not_eq_true, Bool.not_eq_false', List.any_eq_true] at hk'
    obtain ⟨q, hq, hb⟩ := hk'
    rw [← hL] at hq
    obtain ⟨hqm, hqo⟩ := List.mem_filter.1 hq
    refine absurd ?_ (hbest q hqm hqo)
    simpa only [Bool.or_eq_true, Bool.and_eq_true, decide_eq_true_eq, beq_iff_eq] using hb

theorem State.markGroup_of {f : Nat} (h : s.preemptGroup n k = some f) : s.markGroup n k =
    ((s.sc n).markable f (s.run n k).g).foldl (fun t p => t.modRun n p.1 fun r => { r with preempt := true, by' := some k })
      (s.setRun n k { s.run n k with placed := true, first := f, since := none }) := by
  simp only [State.markGroup, h]

/-! ## The obligation -/

theorem kernelRunStarts (s : State) (n k f q : Nat) (h : s.canStart n k = some (f, q))
    (hfirst : ∀ x ∈ (s.sc n).entries, x.id < k → s.canStart n x.id = none) :
    ∃ t, exec (.kernelRunStart n k) s = .next t ∧ SameBytes s t ∧ (∀ c, t.ctx n c = s.ctx n c)
      ∧ t.run n k = { s.run n k with phase := .running, first := f, seq := q, placed := true, since := none }
      ∧ (∀ x, (t.sc n).entry? k = some x → x.st = .started)
      ∧ (t.sc n).entries.map Entry.id = (s.sc n).entries.map Entry.id := by
  have hk := keepsCtxs_startRun s n k f q
  refine ⟨_, exec_kernelRunStart_of h hfirst, hk.sameBytes, hk.ctx n, s.run_startRun n k f q, fun _ => State.entry_startRun, ?_⟩
  rw [State.entries_startRun, List.map_map]
  refine List.map_congr_left fun x _ => ?_
  dsimp only [Function.comp_apply]
  split <;> rfl

theorem kernelRunCompletes (s : State) (n k : Nat) (hp : (s.run n k).phase = .running) (hh : (s.run n k).halted = true)
    (hd : (s.run n k).drained = true) (hs : (s.run n k).stop = false) :
    ∃ t, exec (.runCompletion n k) s = .next t ∧ SameBytes s t ∧ (∀ c, t.ctx n c = s.ctx n c)
      ∧ (t.sc n).entries = (s.sc n).entries.filter (fun x => x.id != k)
      ∧ (s.ownerStands n (s.run n k).owner = true →
          (t.run n k).phase = .retired ∧ (t.run n k).rq = (s.run n k).rq ∧ (t.run n k).tag = (s.run n k).tag)
      ∧ (s.ownerStands n (s.run n k).owner = false → tget (t.sc n).runs k = none)
      ∧ ∀ p ∈ (s.run n k).ports, p.2.dir = .out →
          (∀ q ∈ (s.run n k).ports, q.2.dir = .out → q.2.stream = p.2.stream → q = p) → (t.stream n p.2.stream).len = p.2.n := by
  have hkeeps := (keepsCtxs_setLengths s n (s.run n k) fun p _ => p.n).trans (keepsCtxs_retireRun _ n k (s.run n k))
  refine ⟨_, exec_runCompletion_of hp hh hd hs, hkeeps.sameBytes, hkeeps.ctx n, ?_, fun ho => ?_, fun ho => ?_, fun p hpp hout hu => ?_⟩
  · rw [State.sc_completed]
  · rw [State.run, State.sc_completed]
    simp only [ho, if_true, tgetD_tput_self]
    exact ⟨rfl, rfl, rfl⟩
  · rw [State.sc_completed]
    simp [ho]
  · rw [State.stream, State.sc_completed]
    exact congrArg Stream.len (tgetD_lengthsSet_of_bound _ (fun p _ => p.n) _ p (fun _ _ => rfl) hpp hout hu)

/-- A marked run at its boundary is saved: its sections stand at their offsets, and no other byte of plain frames changes. -/
theorem kernelRunSaved (s : State) (n k x : Nat) (hp : (s.run n k).phase = .running) (hm : (s.run n k).preempt = true)
    (hs : (s.run n k).stop = false) (hby : (s.run n k).by' = some x) (hxk : x ≠ k) (hw : (s.run n x).phase = .waiting)
    (hx : thas (s.sc n).runs x = true) (hh : (s.run n k).halted = false) (hi : (s.run n k).idle = 0) (ht : (s.run n k).tldx = 0)
    (hksp : bitNat (s.sc n).ksp.toNat 0 = true) :
    let r := s.run n k
    ∃ t, exec (.preemption n k) s = .next t ∧ t.run n k = { r with phase := .saved, preempt := false, paid := false }
      ∧ (t.run n x).preemptor = true
      ∧ (∀ c, t.ctx n c = s.ctx n c) ∧ (t.sc n).entries = (s.sc n).entries
      ∧ ((∀ st off, s.mode st off = 0) → ∀ a,
          (∀ c < r.g, ∀ p ∈ r.saveOf (s.runRegs n r) c,
            ¬(s.saveBase n (r.first + c) + p.1 ≤ a ∧ a < s.saveBase n (r.first + c) + p.1 + p.2.length)) →
          (∀ c < r.g, ∀ p ∈ internals c, ¬(s.saveBase n (r.first + c) + p.1 ≤ a ∧ a < s.saveBase n (r.first + c) + p.1 + p.2)) →
          t.byte a = s.byte a)
      ∧ (s.Safe → s.ueSectors = [] → (∀ st off, s.mode st off = 0) → ∀ c < r.g, ∀ p ∈ r.saveOf (s.runRegs n r) c, p.1 < 0x4000 →
          let A := s.saveBase n (r.first + c) + p.1
          ∀ (i : Nat) v, p.2[i]? = some v → (∀ q ∈ r.saveOf (s.runRegs n r) c, p.1 < q.1 → p.1 + i < q.1) →
            inMemory s.topo (A + i) = true → bitNat s.topo.stks.toNat (stackOf s.topo (A + i)).1 = true → t.byte (A + i) = v) := by
  intro r
  have hlines := sameButLines_writeSave s n r
  have hwaits : s.stillWaits n (some x) = true := (s.stillWaits_some n x).2 ⟨hw, hx⟩
  have hexec := exec_preemption_of hp hm hs
  rw [if_neg (by simp [hby, hwaits, hh, hksp]), if_neg (by simp [hi]), if_neg (by simp [ht]), hby] at hexec
  have hbytes (b : Nat) : (((s.writeSave n r).setRun n k { r with phase := .saved, preempt := false, paid := false }).hasPreempted n
      (some x)).byte b = (s.writeSave n r).byte b :=
    (State.byte_setRun _ _ _ _ b).trans (State.byte_setRun _ _ _ _ b)
  refine ⟨_, hexec, ?_, State.preemptor_hasPreempted _ n x, fun c => ?_, ?_, fun hplain a hsec hint => ?_,
    fun hsafe hue hplain c hc p hpm hlow i v hv hnext hin hal => ?_⟩
  · rw [State.run_hasPreempted_of_ne _ hxk.symm, State.run_setRun_self]
  · rw [State.hasPreempted, State.modRun, State.ctx_setRun, State.ctx_setRun, hlines.ctx]
  · rw [State.hasPreempted, State.modRun, State.entries_setRun, State.entries_setRun, hlines n]
  · rw [hbytes]
    exact State.AllPlain.byte_writeSave_of_outside hplain hsec hint
  · rw [hbytes]
    exact State.AllPlain.byte_writeSave_of_mem hplain hsafe hue hc hpm hlow hv hnext hin hal

/-- The runs that hold the group of the waiting run whose time is up are marked, but for those that have halted. -/
theorem groupMarked (s : State) (n k f : Nat) (hl : ((s.sc n).runs.map Prod.fst).Nodup) (hp : (s.run n k).phase = .waiting)
    (hg : s.preemptGroup n k = some f) (ho : s.pthrOver n k = true)
    (hbest : ∀ p ∈ (s.sc n).runs, s.pthrOver n p.1 = true → ¬((s.run n k).cls < p.2.cls ∨ ((s.run n k).cls = p.2.cls ∧ p.1 < k))) :
    ∃ t, exec (.pthrExpiry n k) s = .next t ∧ OnlySc n s t ∧ SameBytes s t ∧ (∀ c, t.ctx n c = s.ctx n c)
      ∧ t.run n k = { s.run n k with placed := true, first := f, since := none }
      ∧ ∀ p ∈ (s.sc n).holding .running f (s.run n k).g, t.run n p.1 =
          if p.2.halted = true then p.2 else { p.2 with preempt := true, by' := some k } := by
  have hk : tget (s.sc n).runs k = some (s.run n k) := by
    unfold State.run tgetD at hp ⊢
    cases hr : tget (s.sc n).runs k with
    | none => rw [hr] at hp; cases hp
    | some r => rfl
  have hexec : exec (.pthrExpiry n k) s = .next (s.markGroup n k) := by
    simp [execPthrExpiry, State.ripeRun_of hk ho hbest]
  have hne : ∀ p ∈ (s.sc n).holding .running f (s.run n k).g, p.1 ≠ k := by
    rintro p hpm rfl
    obtain ⟨hmem, hph⟩ := mem_holding hpm
    rw [run_of_mem hl hmem, hph] at hp
    cases hp
  have hsub : ∀ p ∈ (s.sc n).markable f (s.run n k).g, p ∈ (s.sc n).holding .running f (s.run n k).g := fun p h =>
    (List.mem_filter.1 h).1
  have hnodup : (((s.sc n).markable f (s.run n k).g).map Prod.fst).Nodup :=
    hl.sublist ((List.filter_sublist.trans List.filter_sublist).map _)
  have honly : RunsOnly n s (s.markGroup n k) := by
    rw [State.markGroup_of hg]
    exact (runsOnly_setRun s n k _).foldl_modRun _ _
  refine ⟨_, hexec, honly.sc, honly.bytes, honly.ctx, ?_, fun p hpm => ?_⟩
  · rw [State.markGroup_of hg, run_foldl_modRun_of_not_mem, State.run_setRun_self]
    intro hmem
    obtain ⟨p, hpm, hpk⟩ := List.mem_map.1 hmem
    exact hne p (hsub p hpm) hpk
  · have hrun : s.run n p.1 = p.2 := run_of_mem hl (mem_holding hpm).1
    rw [State.markGroup_of hg]
    by_cases hh : p.2.halted = true
    · rw [if_pos hh, run_foldl_modRun_of_not_mem, State.run_setRun_of_ne _ _ (hne p hpm), hrun]
      intro hmem
      obtain ⟨q, hqm, hqp⟩ := List.mem_map.1 hmem
      obtain ⟨hqh, hqn⟩ := List.mem_filter.1 hqm
      have hq : q.2 = p.2 := by rw [← hrun, ← hqp, run_of_mem hl (mem_holding hqh).1]
      simp [hq, hh] at hqn
    · rw [if_neg hh, run_foldl_modRun_of_mem _ hnodup (List.mem_filter.2 ⟨hpm, by simpa using hh⟩),
        State.run_setRun_of_ne _ _ (hne p hpm), hrun]

/-- Settles O40: each event of a run's life writes the runs, entries and stream lengths its equation names; a save writes its
sections, and a later section or core lies beyond an earlier one. -/
theorem kernelRunLife : Obligations.KernelRunLife := by
  unfold Obligations.KernelRunLife
  intro s n k
  refine ⟨kernelRunStarts s n k, kernelRunCompletes s n k, ?stop, ?save, ?wait, ?drop, ?restore, groupMarked s n k⟩
  case stop =>
    intro hs hp
    refine ⟨_, exec_runReclaimStop_of hs hp, onlySc_modSc s n _, s.byte_modSc n _ fun _ => rfl, ?_⟩
    rw [State.discardRun, State.sc_modSc_self]
    exact ⟨tget_tdel_self _ _, rfl, rfl⟩
  case save => exact fun x => kernelRunSaved s n k x
  case wait =>
    intro x hp hm hs hby hw hx hh hksp
    have hwaits : s.stillWaits n (some x) = true := (s.stillWaits_some n x).2 ⟨hw, hx⟩
    have hexec := exec_preemption_of hp hm hs
    rw [if_neg (by simp [hby, hwaits, hh, hksp])] at hexec
    refine ⟨fun hi => by rw [hexec, if_pos hi], fun hi ht => ?_⟩
    rw [hexec, if_neg (by simp [hi]), if_pos ht]
    rfl
  case drop =>
    intro x hp hm hs hby hxk hnot
    have hexec := exec_preemption_of hp hm hs
    have hcond : s.stillWaits n (s.run n k).by' = false ∨ (s.run n k).halted = true ∨ bitNat (s.sc n).ksp.toNat 0 = false := by
      rw [hby, ← Bool.not_eq_true, State.stillWaits_some, not_and_or, Bool.not_eq_true, or_assoc]
      exact hnot
    rw [if_pos hcond] at hexec
    have honly := runsOnly_dropMark s n k
    refine ⟨_, hexec, honly.sc, honly.bytes, honly.ctx, ?_, fun j hjk hjx => ?_⟩
    · rw [State.run_dropMark hby hxk.symm, if_pos rfl]
    · rw [State.run_dropMark hby hjx, if_neg hjk]
  case restore =>
    intro q hp hs hg hh hq
    have hread := sameStore_readSave s n (s.run n k)
    refine ⟨_, exec_runRestore_of hp hs hg hh hq, State.run_setRun_self .., fun a => ?_, fun c => ?_⟩
    · rw [State.byte_setRun, hread.sameBytes]
    · rw [State.ctx_setRun, hread.ctx]

end Sys2Proof.Machine
end

section
/-!
SUPPORT. Software traps, pauses, words that are no instruction, failed fetches and fences (R55, R202, R209), and the
statement about them.
-/

namespace Sys2Proof.Machine

variable {s : State}

/-! ## Fences (R202) -/

/-- A fence waits for the context's accesses and for the entries it names. -/
theorem State.settledFor_iff {n c : Nat} {ids : List Nat} :
    s.settledFor n c ids = true ↔ s.performed n c = true ∧ ∀ j ∈ ids, notComplete (s.sc n) j = false := by
  simp [State.settledFor]

/-- A fence whose accesses and entries are done moves on. -/
theorem goesTo_fence {i : Instr} {ids : State → List Nat} (hx : exec i s = fence ids s) (hp : s.performed s.cur.sc s.cur.ctx = true)
    (hc : ∀ j ∈ ids s, notComplete s.mySc j = false) : GoesTo i s (s.me.pc + 4) :=
  goesTo_fin (by rw [hx, fence, if_pos (State.settledFor_iff.2 ⟨hp, hc⟩)])

/-- A fence with an access or an entry still to come blocks. -/
theorem blocks_fence {i : Instr} {ids : State → List Nat} (hx : exec i s = fence ids s)
    (h : s.performed s.cur.sc s.cur.ctx = false ∨ ∃ j ∈ ids s, notComplete s.mySc j = true) : Blocks i s (.fence (ids s)) := by
  have hopen : ¬s.settledFor s.cur.sc s.cur.ctx (ids s) = true := by
    rw [State.settledFor_iff]
    rintro ⟨hp, hc⟩
    obtain hn | ⟨j, hj, hn⟩ := h
    · simp [hp] at hn
    · exact absurd (hc j hj) (by simpa [State.mySc] using hn)
  exact blocks_of (b := false) (by rw [hx, fence, if_neg hopen])

/-! ## The statement -/

/-- PAUSE moves on and keeps the context from issuing for the rest of this wall cycle and 32 more. -/
theorem exec_pause_next : exec .pause s = .next (s.modMe fun x => { x.next with pause := 33 }) := by
  rw [exec_pause, execPause, (State.Filled.nil s).ctl, State.fin, State.modMe_modMe]

/-- Settles O13: the software traps, NOP and PAUSE read no register, and a fence is decided by what it waits for. -/
theorem softwareTrapsPausesAndFences : Obligations.SoftwareTrapsPausesAndFences := by
  unfold Obligations.SoftwareTrapsPausesAndFences
  refine ⟨fun s n w va => ⟨?nop, ?pause, ?trap, ?brk, ?illegal, ?fetch⟩, fun s => ⟨?fences, ?sysGoes, ?sysBlocks⟩⟩
  case nop => exact goesTo_fin rfl
  case pause => exact ⟨_, exec_pause_next, onlyMe_modMe s _, State.me_modMe s _⟩
  case trap => exact traps_take rfl
  case brk => exact traps_take rfl
  case illegal => exact traps_of rfl
  case fetch => exact traps_take rfl
  case fences =>
    have hfence : ∀ i ∈ [Instr.fenceSc, .fenceDie, .fencePkg], exec i s = fence (fun _ => []) s := by
      simp only [List.forall_mem_cons]
      exact ⟨rfl, rfl, rfl, List.forall_mem_nil _⟩
    exact fun i hi => ⟨fun hp => goesTo_fence (hfence i hi) hp (List.forall_mem_nil _), fun hp => blocks_fence (hfence i hi) (.inl hp)⟩
  case sysGoes => exact goesTo_fence rfl
  case sysBlocks => exact blocks_fence rfl

end Sys2Proof.Machine
end

section
/-!
SUPPORT. What stops an instruction before any effect (R55, R164, R188, R211, R213, R279, R315): registers that wait for a value,
missing privilege, handles that are not bound and accesses that have not performed; and the statement about them.
-/

namespace Sys2Proof.Machine

variable {s : State} {i : Instr} {rs : List (BitVec 5)}

/-! ## Registers that wait for a value (R188, R315) -/

/-- An instruction with this result blocks, on one of the registers, where not all of them hold values. -/
def Awaits (res : Result) (rs : List (BitVec 5)) (s : State) : Prop :=
  ¬s.Filled rs → ∃ r ∈ rs, res = .next (s.block (.filled r.toNat) (s.me.unfilled.contains r.toNat))

/-- Where not every register holds a value, the first that does not is one of them. -/
theorem State.unfilledReg_of_not_filled (h : ¬s.Filled rs) : ∃ r ∈ rs, s.me.unfilledReg (rs.map BitVec.toNat) = some r.toNat := by
  cases hf : s.me.unfilledReg (rs.map BitVec.toNat) with
  | some q =>
    obtain ⟨r, hr, rfl⟩ := List.mem_map.1 (List.mem_of_find?_eq_some hf)
    exact ⟨r, hr, rfl⟩
  | none =>
    refine absurd (fun r hr h0 => ?_) h
    have hnone := List.find?_eq_none.1 hf r.toNat (List.mem_map_of_mem hr)
    have hpos : r.toNat ≠ 0 := fun e => h0 (BitVec.eq_of_toNat_eq e)
    simpa [hpos] using hnone

@[simp] theorem awaits_ctl (f : State → State) : Awaits (ctl rs s f) rs s := fun h => by
  obtain ⟨r, hr, hq⟩ := State.unfilledReg_of_not_filled h
  exact ⟨r, hr, ctl_unfilled hq f⟩

/-- The order of two registers is no matter. -/
theorem Awaits.swap {res : Result} {a d : BitVec 5} (h : Awaits res [a, d] s) : Awaits res [d, a] s := by
  have hmem (r : BitVec 5) : r ∈ [a, d] ↔ r ∈ [d, a] := by simp [or_comm]
  intro hn
  obtain ⟨r, hr, hx⟩ := h fun hf => hn (hf.mono fun r hr => (hmem r).2 hr)
  exact ⟨r, (hmem r).1 hr, hx⟩

/-- It blocks with no other effect, and counts a loss of decoupling where an SCAS owes the value and it did not wait yet. -/
theorem Awaits.blocks (h : Awaits (exec i s) rs s) (hn : ¬s.Filled rs) : ∃ r ∈ rs, Blocks i s (.filled r.toNat) ∧
    ∃ t, exec i s = .next t ∧ t.me.lodc =
      if s.me.unfilled.contains r.toNat && s.me.wait.isNone then (s.me.lodc + 1) &&& 0xFFFFFFFF else s.me.lodc := by
  obtain ⟨r, hr, hx⟩ := h hn
  exact ⟨r, hr, blocks_of hx, _, hx, by rw [State.block, State.me_modMe]; rfl⟩

/-! ## The shapes of instructions all await their registers first -/

@[simp] theorem awaits_rr (f : Word → Word → Word) (d a b : BitVec 5) : Awaits (rr f d a b s) [d, a, b] s := awaits_ctl _
@[simp] theorem awaits_ri (f : Word → Word → Word) (d a : BitVec 5) (o : BitVec 14) : Awaits (ri f d a o s) [d, a] s := awaits_ctl _
@[simp] theorem awaits_br (f : Word → Word → Bool) (a b : BitVec 5) (o : BitVec 14) : Awaits (br f a b o s) [a, b] s := awaits_ctl _
@[simp] theorem awaits_load (d a : BitVec 5) (f : State → Word) (n : Nat) (e : Bool) : Awaits (load d a f n e rs s) (d :: a :: rs) s :=
  awaits_ctl _
@[simp] theorem awaits_store (d a : BitVec 5) (o : BitVec 14) (n : Nat) : Awaits (store d a o n s) [d, a] s := awaits_ctl _
@[simp] theorem awaits_streamOp (g f : State → State) (p : State → Except (Nat × Word) Issue) : Awaits (streamOp rs g p f s) rs s :=
  awaits_ctl _
@[simp] theorem awaits_onStream (w : Word) (h : BitVec 4) (f : Nat → State → State) : Awaits (onStream w h rs s f) rs s := awaits_ctl _
@[simp] theorem awaits_onFuture (a : BitVec 5) (g : State → State) (f : Nat → State → State) : Awaits (onFuture a rs s g f) (a :: rs) s :=
  awaits_ctl _
@[simp] theorem awaits_onBarrier (a : BitVec 5) (f : Nat → Barrier → State → State) : Awaits (onBarrier a rs s f) (a :: rs) s :=
  awaits_ctl _
@[simp] theorem awaits_arriveOp (a : BitVec 5) (e : Bool) : Awaits (arriveOp a e s) [a] s := awaits_onBarrier a _
@[simp] theorem awaits_onFuture_pair (a d : BitVec 5) (g : State → State) (f : Nat → State → State) :
    Awaits (onFuture a [d] s g f) [d, a] s := (awaits_onFuture a g f).swap
@[simp] theorem awaits_getOp (a d : BitVec 5) (f : Nat → State → State) : Awaits (getOp d a f s) [d, a] s := awaits_onFuture_pair a d _ _
@[simp] theorem awaits_onBarrier_pair (a d : BitVec 5) (f : Nat → Barrier → State → State) : Awaits (onBarrier a [d] s f) [d, a] s :=
  (awaits_onBarrier a f).swap
@[simp] theorem awaits_endOp (a : BitVec 5) (n : Nat) : Awaits (endOp a n s) [a] s := awaits_ctl _
@[simp] theorem awaits_spawnOp (d a b : BitVec 5) (h : Option Nat) : Awaits (spawnOp d a b h s) [d, a, b] s := awaits_ctl _

/-- In a system context a privileged instruction awaits its registers as others do. -/
theorem awaits_priv (hc : isSystem s.cur.ctx = true) (w : Word) (f : State → State) : Awaits (priv w rs s f) rs s := by
  rw [priv_system hc]
  exact awaits_ctl f

/-- An LDM or STM that has not begun awaits its address and every register of its range. -/
theorem awaits_multiple (hw : ∀ p k rest w, s.me.wait ≠ some (.parts p k rest w)) (v : W32) (e : Bool) (d a : BitVec 5)
    (n : BitVec 3) (f : Nat → Xlat → State → State) :
    Awaits (multiple v e d a n f s) (a :: (regRange d n).map (BitVec.ofNat 5)) s := by
  unfold multiple
  split
  · next p k rest w h => exact absurd h (hw p k rest w)
  · exact awaits_ctl _

/-- KRUN awaits its two operands, and then the registers of its kernel's arguments. -/
theorem awaits_krun {a b : BitVec 5} (hr : ∀ r ∈ s.krunRegs a b, r ≤ 31) (t : BitVec 5) (q : BitVec 1) :
    Awaits (exec (.krun a b t q) s) (a :: b :: (s.krunRegs a b).map (BitVec.ofNat 5)) s := by
  intro h
  have hbeyond : ((s.krunRegs a b).any fun r => 31 < r) = false := by simpa using hr
  simp only [exec_krun, execKrun, ctlFirst]
  by_cases hab : s.Filled [a, b]
  · have hrest : ¬s.Filled ((s.krunRegs a b).map (BitVec.ofNat 5)) := fun hrest => h fun r hm => by
      obtain rfl | rfl | hm := by simpa only [List.mem_cons] using hm
      · exact hab r (by simp)
      · exact hab r (by simp)
      · exact hrest r hm
    simp only [hab.none, hbeyond, Bool.false_eq_true, if_false]
    obtain ⟨r, hm, hx⟩ := awaits_ctl (s := s) _ hrest
    exact ⟨r, by simp only [List.mem_cons, hm, or_true], hx⟩
  · obtain ⟨r, hm, hq⟩ := State.unfilledReg_of_not_filled hab
    exact ⟨r, List.mem_append_left _ hm, by rw [hq]⟩

/-! ## Words of instructions in traps (R204) -/

/-- `w` is the word of an instruction, as TVAL shows it. -/
def HasWord (i : Instr) (w : Word) : Prop := ∃ v, encode i = some v ∧ v.zeroExtend 64 = w

/-- The fields of the word that `encode` gives and of the one that a trap names add up to one number. -/
theorem hasWord_ofNat {n m : Nat} (he : encode i = some (BitVec.ofNat 32 n)) (h : n = m ∧ m < 2 ^ 32 := by omega) :
    HasWord i (BitVec.ofNat 64 m) :=
  ⟨_, he, by rw [h.1, zeroExtend_ofNat_of_lt h.2]⟩

theorem HasWord.traps {w : Word} {cause : Nat} (hw : HasWord i w) (hx : exec i s = .next (s.trap cause w)) :
    ∃ v, encode i = some v ∧ Traps i s cause (v.zeroExtend 64) s.me.pc := by
  obtain ⟨v, he, rfl⟩ := hw
  exact ⟨v, he, traps_of hx⟩

/-- Outside a system context a privileged instruction traps PRIV with its word. -/
theorem traps_priv {w : Word} {f : State → State} (hc : isSystem s.cur.ctx = false) (hx : exec i s = priv w rs s f) (hw : HasWord i w) :
    ∃ v, encode i = some v ∧ Traps i s causePriv (v.zeroExtend 64) s.me.pc :=
  hw.traps (hx.trans (priv_user hc f))

/-- The privileged instructions with words trap PRIV with them outside a system context (R55, R164). -/
theorem traps_priv_of_privileged {d a b c : BitVec 5} {o : BitVec 14} {r : BitVec 6} {l : BitVec 1} {w : BitVec 2}
    (hc : isSystem s.cur.ctx = false) : ∀ j ∈ [Instr.tret, .idle, .dcinv a o, .ctxsig a c, .ctxkill c, .csave a c, .cload a c,
      .tlbinv a, .tlbinva, .rngset a r w, .rngget d r l w, .rngcommit, .psplit a, .pown a b, .pdup a b, .pstat d a],
    ∃ x, encode j = some x ∧ Traps j s causePriv (x.zeroExtend 64) s.me.pc := by
  have hzero : (0 : BitVec 5).toNat = 0 := rfl
  simp only [List.forall_mem_cons]
  exact ⟨traps_priv hc (exec_tret s) (hasWord_ofNat rfl),
    traps_priv hc (exec_idle s) (hasWord_ofNat rfl),
    traps_priv hc (exec_dcinv a o s) (hasWord_ofNat rfl),
    traps_priv hc (exec_ctxsig a c s) (hasWord_ofNat rfl),
    traps_priv hc (exec_ctxkill c s) (hasWord_ofNat rfl),
    traps_priv hc (exec_csave a c s) (hasWord_ofNat rfl),
    traps_priv hc (exec_cload a c s) (hasWord_ofNat rfl),
    traps_priv hc (exec_tlbinv a s) (hasWord_ofNat rfl),
    traps_priv hc (exec_tlbinva s) (hasWord_ofNat rfl),
    traps_priv hc (exec_rngset a r w s) (hasWord_ofNat rfl),
    traps_priv hc (exec_rngget d r l w s) (hasWord_ofNat rfl),
    traps_priv hc (exec_rngcommit s) (hasWord_ofNat rfl),
    traps_priv hc (exec_psplit a s) (hasWord_ofNat rfl),
    traps_priv hc (exec_pown a b s) (hasWord_ofNat rfl),
    traps_priv hc (exec_pdup a b s) (hasWord_ofNat rfl),
    traps_priv hc (exec_pstat d a s) (hasWord_ofNat rfl),
    List.forall_mem_nil _⟩

/-! ## Handles (R211, R213) -/

theorem State.handle_of_unbound {h : BitVec 4} (hb : tget s.me.h h.toNat = none) (w : Word) :
    s.handle w h = .error (causeStreamHandle, w) := by
  rw [State.handle, hb]

@[simp] theorem State.handleIf_true (w : Word) (h : BitVec 4) : s.handleIf w true h = s.handle w h := if_pos rfl

/-- A use of two handles fails where either is not bound. -/
theorem State.handles_of_unbound {α : Type} {h k : BitVec 4} (hb : tget s.me.h h.toNat = none ∨ tget s.me.h k.toNat = none) (w : Word)
    (f : Nat → Nat → Except (Nat × Word) α) :
    (s.handle w h >>= fun d => s.handle w k >>= f d) = .error (causeStreamHandle, w) := by
  cases hh : tget s.me.h h.toNat with
  | none => rw [s.handle_of_unbound hh]; rfl
  | some d => rw [State.handle, hh, s.handle_of_unbound (hb.resolve_left (by simp [hh]))]; rfl

/-- A stream instruction in the steps of R211, on registers and handles: where a handle is not bound, STREAM_HANDLE with the word is all
that its preparation gives. -/
def StreamForm (i : Instr) (rs : List (BitVec 5)) (hs : List (BitVec 4)) (s : State) : Prop :=
  ∃ reads prep f, exec i s = streamOp rs reads prep f s
    ∧ ((∃ x ∈ hs, tget s.me.h x.toNat = none) → ∃ w, HasWord i w ∧ prep s = .error (causeStreamHandle, w))

variable {reads f : State → State} {prep : State → Except (Nat × Word) Issue} {h k : BitVec 4} {w : Word} {a b : BitVec 5}

/-! Three ways the preparation of a stream instruction uses handles: none, one first of all, two first of all. -/

theorem streamForm_noHandle (hx : exec i s = streamOp rs reads prep f s) : StreamForm i rs [] s :=
  ⟨reads, prep, f, hx, by simp⟩

theorem streamForm_of_error (hx : exec i s = streamOp rs reads prep f s) (hw : HasWord i w)
    (hp : tget s.me.h h.toNat = none → prep s = .error (causeStreamHandle, w)) : StreamForm i rs [h] s :=
  ⟨reads, prep, f, hx, fun hb => ⟨w, hw, hp (by simpa using hb)⟩⟩

theorem streamForm_handle {g : Nat → Except (Nat × Word) Issue} (hx : exec i s = streamOp rs reads prep f s) (hw : HasWord i w)
    (hp : prep s = s.handle w h >>= g) : StreamForm i rs [h] s :=
  streamForm_of_error hx hw fun hb => by rw [hp, s.handle_of_unbound hb]; rfl

theorem streamForm_handles {g : Nat → Nat → Except (Nat × Word) Issue} (hx : exec i s = streamOp rs reads prep f s) (hw : HasWord i w)
    (hp : prep s = s.handle w h >>= fun d => s.handle w k >>= g d) : StreamForm i rs [h, k] s :=
  ⟨reads, prep, f, hx, fun hb => ⟨w, hw, hp.trans (s.handles_of_unbound (by simpa using hb) w g)⟩⟩

/-- The source of a put or an accumulation is a stream's where its handle says so. -/
theorem streamForm_putSource {g : Side × Nat × Issue → Except (Nat × Word) Issue} (hx : exec i s = streamOp rs reads prep f s)
    (hw : HasWord i w) (hp : prep s = s.putSource w a h b true >>= g) : StreamForm i rs [h] s :=
  streamForm_of_error hx hw fun hb => by
    rw [hp, State.putSource, State.handleIf_true, s.handle_of_unbound hb]
    rfl

/-- Once its registers hold values and earlier accesses have performed, an unbound handle traps with the word (R211, R213). -/
theorem StreamForm.traps {hs : List (BitVec 4)} (h : StreamForm i rs hs s) (hp : s.Settled) (hf : s.Filled rs)
    (hb : ∃ x ∈ hs, tget s.me.h x.toNat = none) : ∃ v, encode i = some v ∧ Traps i s causeStreamHandle (v.zeroExtend 64) s.me.pc := by
  obtain ⟨reads, prep, f, hx, he⟩ := h
  obtain ⟨w, hw, he⟩ := he hb
  refine hw.traps (hx.trans ?_)
  rw [streamOp, hf.ctl, State.afterAccesses_of_settled hp, he]
  rfl

theorem State.afterAccesses_of_unsettled (h : ¬s.Settled) (f : State → State) : s.afterAccesses f = s.block (.settled []) := if_neg h

/-- Until its earlier accesses have performed, it waits for them (R306). -/
theorem StreamForm.blocks {hs : List (BitVec 4)} (h : StreamForm i rs hs s) (hp : ¬s.Settled) (hf : s.Filled rs) :
    Blocks i s (.settled []) := by
  obtain ⟨reads, prep, f, hx, -⟩ := h
  refine blocks_of (b := false) (hx.trans ?_)
  rw [streamOp, hf.ctl, State.afterAccesses_of_unsettled hp]

variable {c : BitVec 4} {p e : BitVec 1} {o : BitVec 3} {t : BitVec 2}

/-- The stream instructions that take an entry with streams, each with its registers and the handles it uses. -/
theorem streamForm_of_streams : ∀ j ∈ [(Instr.sload a h k 0, [a], [h]), (.sstore a h k 0, [a], [h]),
    (.sload a h k 1, [a], [h, k]), (.sstore a h k 1, [a], [h, k]),
    (.sgather a h k b, [a, b], [h, k]), (.sscatter a h k b, [a, b], [h, k]), (.sscadd a h k b o, [a, b], [h, k]),
    (.scopy a h k b 1 1, [a, b], [h, k]), (.sfree h, [], [h]), (.sreset h, [], [h]), (.sfill a h b p, [a, b], [h]),
    (.scopy a h k b 0 1, [a, b], [h]), (.sacc a h b o 1, [a, b], [h]), (.scopy a h k b 1 0, [a, b], [k]),
    (.scas a h k b o t 1, [b], [h, k]), (.sdecomp a h b p, [a, regAfter a 1, b], [h]), (.sreads a h, groupRegs a 4, [h]),
    (.rput a h b p 1, a :: groupRegs b 3, [h]), (.racc a h b o t 1, a :: groupRegs b 3, [h]), (.rget a k b 1, a :: groupRegs b 3, [k]),
    (.rputh a h b p c 1, a :: groupRegs b 5, [h])], StreamForm j.1 j.2.1 j.2.2 s := by
  have hreg : (0 : BitVec 5).toNat = 0 := rfl
  have hhandle : (0 : BitVec 4).toNat = 0 := rfl
  have hclear : (0 : BitVec 1).toNat = 0 := rfl
  have hset : (1 : BitVec 1).toNat = 1 := rfl
  simp only [List.forall_mem_cons]
  exact ⟨streamForm_handle (exec_sload a h k 0 s) (hasWord_ofNat rfl) rfl,
    streamForm_handle (exec_sstore a h k 0 s) (hasWord_ofNat rfl) rfl,
    streamForm_handles (exec_sload a h k 1 s) (hasWord_ofNat rfl) rfl,
    streamForm_handles (exec_sstore a h k 1 s) (hasWord_ofNat rfl) rfl,
    streamForm_handles (exec_sgather a h k b s) (hasWord_ofNat rfl) rfl,
    streamForm_handles (exec_sscatter a h k b s) (hasWord_ofNat rfl) rfl,
    streamForm_handles (exec_sscadd a h k b o s) (hasWord_ofNat rfl) rfl,
    streamForm_handles (exec_scopy a h k b 1 1 s) (hasWord_ofNat rfl) rfl,
    streamForm_handle (exec_sfree h s) (hasWord_ofNat rfl) rfl,
    streamForm_handle (exec_sreset h s) (hasWord_ofNat rfl) rfl,
    streamForm_handle (exec_sfill a h b p s) (hasWord_ofNat rfl) rfl,
    streamForm_handle (exec_scopy a h k b 0 1 s) (hasWord_ofNat rfl) rfl,
    streamForm_handle (exec_sacc a h b o 1 s) (hasWord_ofNat rfl) rfl,
    streamForm_handle (exec_scopy a h k b 1 0 s) (hasWord_ofNat rfl) rfl,
    streamForm_handles (exec_scas a h k b o t 1 s) (hasWord_ofNat rfl) rfl,
    streamForm_handle (exec_sdecomp a h b p s) (hasWord_ofNat rfl) rfl,
    streamForm_handle (exec_sreads a h s) (hasWord_ofNat rfl) rfl,
    streamForm_putSource (exec_rput a h b p 1 s) (hasWord_ofNat rfl) rfl,
    streamForm_putSource (exec_racc a h b o t 1 s) (hasWord_ofNat rfl) rfl,
    streamForm_handle (exec_rget a k b 1 s) (hasWord_ofNat rfl) rfl,
    streamForm_putSource (exec_rputh a h b p c 1 s) (hasWord_ofNat rfl) rfl,
    List.forall_mem_nil _⟩

/-- The forms between windows and registers alone use no handle. -/
theorem streamForm_of_windows : ∀ j ∈ [(Instr.scopy a h k b 0 0, [a, b], ([] : List (BitVec 4))), (.sacc a h b o 0, [a, b], []),
    (.squant a b, [a, b], []), (.sdqnt a b, [a, b], []), (.scas a h k b o t 0, [a, regAfter a 1, b], []),
    (.sread a b, b :: groupRegs a 4, []), (.rput a h b p 0, a :: groupRegs b 3, []), (.racc a h b o t 0, a :: groupRegs b 3, []),
    (.rget a k b 0, a :: groupRegs b 3, []), (.rsig a b c 1, a :: groupRegs b 3, []), (.rputh a h b p c 0, a :: groupRegs b 5, []),
    (.rsig a b c 0, a :: groupRegs b 1, [])], StreamForm j.1 j.2.1 j.2.2 s := by
  simp only [List.forall_mem_cons]
  exact ⟨streamForm_noHandle (exec_scopy a h k b 0 0 s), streamForm_noHandle (exec_sacc a h b o 0 s),
    streamForm_noHandle (exec_squant a b s), streamForm_noHandle (exec_sdqnt a b s), streamForm_noHandle (exec_scas a h k b o t 0 s),
    streamForm_noHandle (exec_sread a b s), streamForm_noHandle (exec_rput a h b p 0 s), streamForm_noHandle (exec_racc a h b o t 0 s),
    streamForm_noHandle (exec_rget a k b 0 s), streamForm_noHandle (exec_rsig a b c 1 s), streamForm_noHandle (exec_rputh a h b p c 0 s),
    streamForm_noHandle (exec_rsig a b c 0 s), List.forall_mem_nil _⟩

/-! ## Instructions on a stream that take no entry (R213, R214, R223) -/

theorem exec_onStream_unbound {f : Nat → State → State} (hx : exec i s = onStream w h rs s f) (hf : s.Filled rs)
    (hb : tget s.me.h h.toNat = none) : exec i s = .next (s.trap causeStreamHandle w) := by
  rw [hx, onStream, hf.ctl, hb]

theorem exec_stest_unbound (hf : s.Filled [a]) (hb : tget s.me.h h.toNat = none) :
    exec (.stest a h 1 e o) s = .next (s.trap causeStreamHandle (wSX 0x65 a h 0 0 ((1 : BitVec 1).toNat * 16 + e.toNat * 8 + o.toNat))) := by
  rw [exec_stest, execStest, hf.ctl, beq_self_eq_true, State.handleIf_true, s.handle_of_unbound hb]

theorem exec_swait_unbound (hb : tget s.me.h h.toNat = none) :
    exec (.swait h 1 e o) s = .next (s.trap causeStreamHandle (wSX 0x63 0 h 0 0 ((1 : BitVec 1).toNat * 16 + e.toNat * 8 + o.toNat))) := by
  rw [exec_swait, execSwait, (State.Filled.nil s).ctl, beq_self_eq_true, State.handleIf_true, s.handle_of_unbound hb]

/-- Each traps STREAM_HANDLE with its word where the handle it uses is not bound. -/
theorem traps_of_unbound : ∀ j ∈ [(Instr.sptr a h p, [a], [h]), (.scount a h, [a], [h]), (.stest a h 1 e o, [a], [h]),
    (.srd a h b, [a, b], [h]), (.swr a h b, [a, b], [h]), (.smovh h k, [], [k]), (.swait h 1 e o, [], [h])],
    s.Filled j.2.1 → (∃ x ∈ j.2.2, tget s.me.h x.toNat = none) →
      ∃ v, encode j.1 = some v ∧ Traps j.1 s causeStreamHandle (v.zeroExtend 64) s.me.pc := by
  have hreg : (0 : BitVec 5).toNat = 0 := rfl
  have hhandle : (0 : BitVec 4).toNat = 0 := rfl
  have hset : (1 : BitVec 1).toNat = 1 := rfl
  simp only [List.forall_mem_cons, List.exists_mem_cons_iff, List.not_mem_nil, false_and, exists_false, or_false]
  exact ⟨fun hf hb => (hasWord_ofNat rfl).traps (exec_onStream_unbound (exec_sptr a h p s) hf hb),
    fun hf hb => (hasWord_ofNat rfl).traps (exec_onStream_unbound (exec_scount a h s) hf hb),
    fun hf hb => (hasWord_ofNat rfl).traps (exec_stest_unbound hf hb),
    fun hf hb => (hasWord_ofNat rfl).traps (exec_onStream_unbound (exec_srd a h b s) hf hb),
    fun hf hb => (hasWord_ofNat rfl).traps (exec_onStream_unbound (exec_swr a h b s) hf hb),
    fun hf hb => (hasWord_ofNat rfl).traps (exec_onStream_unbound (exec_smovh h k s) hf hb),
    fun _ hb => (hasWord_ofNat rfl).traps (exec_swait_unbound hb),
    fun _ hj => nomatch hj⟩

/-! ## The statement -/

/-- Settles O14: every form begins with the registers of its operands (R188), a stream instruction then with its accesses and
handles (R211), and a privileged one with its privilege (R164). -/
theorem instructionsThatDoNotIssue : Obligations.InstructionsThatDoNotIssue := by
  unfold Obligations.InstructionsThatDoNotIssue
  refine ⟨fun s d a b t i o k n h x c q e l g w y m ct => ⟨?forms, ?system, fun hw => ⟨?ldm, ?stm⟩, ?krun⟩,
    fun s a b h k c p e o t => ?handles, fun s d a b c i r l w hc _ => traps_priv_of_privileged hc⟩
  case forms =>
    -- One case per list of registers: each form is one of the shapes above on that list.
    refine fun j hj => Awaits.blocks ?_
    revert j
    simp only [List.forall_mem_append, List.forall_mem_map]
    refine ⟨⟨⟨⟨⟨⟨⟨⟨⟨⟨⟨⟨?destinationAndTwo, ?destinationAndOne⟩, ?two⟩, ?one⟩, ?destination⟩, ?link⟩, ?pair⟩,
      ?scas⟩, ?sread⟩, ?sreads⟩, ?rput⟩, ?rputh⟩, ?rsig⟩
    case destinationAndTwo =>
      simp [execAdd, execSub, execMul, execMulhs, execMulhz, execDivs, execDivz, execRems, execRemz, execAnd, execOr, execXor, execAndn,
        execShl, execShrz, execShrs, execSlts, execSltz, execLdx, execFspawn, execFspawnh, execBalloc]
    case destinationAndOne =>
      simp [execPopc, execAddi, execAndi, execOri, execXori, execShli, execShrzi, execShrsi, execSltsi, execSltzi, execJalr, execLb,
        execLbz, execLh, execLhz, execLw, execLwz, execLd, execSb, execSh, execSw, execSd, execLdAcq, execStRel, execFget, execFgetd,
        execFpoll, execBpoll, execGlaunch, execXlat]
    case two =>
      simp [execBeq, execBne, execBlts, execBges, execBltz, execBgez, execSalloc, execSrd, execSwr, execKload, execKinfo, execKrq,
        execWaitge, execSgather, execSscatter, execSfill, execScopy, execSacc, execSscadd, execSquant, execSdqnt]
    case one =>
      simp [execJr, execMts, execDcfl, execDcz, execSptr, execSinfo, execKfree, execScount, execStest, execFref, execFdrop, execFret,
        execFretf, execBfree, execBarr, execBarrd, execBwait, execGfree, execSload, execSstore]
    case destination => simp [execLdi, execLsi, execMfs]
    case link => simp [execJal]
    case pair => simp [execScas, execSdecomp]
    case scas => simp [execScas]
    case sread => simp [execSread]
    case sreads => simp [execSreads]
    case rput => simp [execRput, execRget, execRacc, execRsig]
    case rputh => simp [execRputh]
    case rsig => simp [execRsig]
  case system =>
    refine fun hc j hj _ => Awaits.blocks ?_
    revert j
    simp [awaits_priv hc, execPown, execPdup, execPstat, execRngget, execDcinv, execCsave, execCload, execCtxsig, execTlbinv,
      execRngset, execPsplit]
  case ldm => exact Awaits.blocks (awaits_multiple hw _ _ _ _ _ _)
  case stm => exact Awaits.blocks (awaits_multiple hw _ _ _ _ _ _)
  case krun => exact fun hr => Awaits.blocks (awaits_krun hr t q)
  case handles =>
    intro of enters others inPlace unbound
    have henters : ∀ j ∈ enters, StreamForm j.1 j.2.1 j.2.2 s := streamForm_of_streams
    have hothers : ∀ j ∈ others, StreamForm j.1 j.2.1 j.2.2 s := streamForm_of_windows
    refine ⟨fun hp j hj hf hb => (henters j hj).traps hp hf hb, traps_of_unbound, fun hp j hj hf => ?unsettled, fun i f hi => if_pos hi⟩
    case unsettled =>
      obtain hj | hj := List.mem_append.1 hj
      · exact (henters j hj).blocks hp hf
      · exact (hothers j hj).blocks hp hf

end Sys2Proof.Machine
end

section
/-!
SUPPORT. The word operations, compares and predicate operations of the I slots (R104, R107-R110): exact integers stored in a
width that holds them, for words and halfwords alike; predicate logic, sel and pget; and the statement about them.
-/

namespace Sys2Proof.Machine

/-! ## Exact integers stored in w bits (R9, R103) -/

section Elements

variable {w : Nat}

/-- A natural number below 2^w is stored as itself. -/
theorem toNat_ofInt_of_eq {v : Int} {n : Nat} (hv : v = n) (hn : n < 2 ^ w) : (BitVec.ofInt w v).toNat = n := by
  rw [hv, BitVec.ofInt_natCast, BitVec.toNat_ofNat, Nat.mod_eq_of_lt hn]

/-- The functions that give a value between lo and hi for any two such values. -/
def KeepsRange (f : Int → Int → Int) (lo hi : Int) : Prop :=
  ∀ x y, lo ≤ x ∧ x ≤ hi → lo ≤ y ∧ y ≤ hi → lo ≤ f x y ∧ f x y ≤ hi

theorem keepsRange_min (lo hi : Int) : KeepsRange min lo hi := fun _ _ ⟨hx, hx'⟩ ⟨hy, _⟩ =>
  ⟨le_min hx hy, min_le_of_left_le hx'⟩

theorem keepsRange_max (lo hi : Int) : KeepsRange max lo hi := fun _ _ ⟨hx, hx'⟩ ⟨_, hy'⟩ =>
  ⟨le_max_of_le_left hx, max_le hx' hy'⟩

theorem keepsRange_avgUp (lo hi : Int) : KeepsRange avgUp lo hi := by
  intro x y hx hy
  unfold avgUp
  omega

/-- A function that keeps the signed range of a width is stored exactly. -/
theorem KeepsRange.toInt_ofInt {f : Int → Int → Int} (hf : KeepsRange f (-2 ^ (w - 1)) (2 ^ (w - 1) - 1)) (hw : 0 < w)
    (x y : BitVec w) : (BitVec.ofInt w (f x.toInt y.toInt)).toInt = f x.toInt y.toInt := by
  obtain ⟨hlo, hhi⟩ := hf x.toInt y.toInt ⟨x.le_toInt, Int.le_sub_one_of_lt x.toInt_lt⟩ ⟨y.le_toInt, Int.le_sub_one_of_lt y.toInt_lt⟩
  exact BitVec.toInt_ofInt_eq_self hw hlo (Int.lt_of_le_sub_one hhi)

/-- A saturated value is the exact one clamped (R103). -/
theorem satInt_eq_clamp {lo hi : Int} (h : lo ≤ hi) (v : Int) : satInt v lo hi = clamp v lo hi := by
  unfold satInt clamp
  split_ifs <;> omega

/-- A value saturated to the signed range of a width. -/
theorem toInt_ofInt_satInt (hw : 0 < w) (v : Int) :
    (BitVec.ofInt w (satInt v (-2 ^ (w - 1)) (2 ^ (w - 1) - 1))).toInt = clamp v (-2 ^ (w - 1)) (2 ^ (w - 1) - 1) := by
  have hpos : (0 : Int) < 2 ^ (w - 1) := by positivity
  rw [satInt_eq_clamp (by omega)]
  refine BitVec.toInt_ofInt_eq_self hw ?_ ?_ <;> unfold clamp <;> omega

variable (x y : BitVec w)

/-- An unsigned sum saturated to the width. -/
theorem toNat_ofInt_satInt_add :
    (BitVec.ofInt w (satInt (x.toNat + y.toNat) 0 ((2 ^ w - 1 : Nat) : Int))).toNat = min (x.toNat + y.toNat) (2 ^ w - 1) := by
  have := x.isLt
  refine toNat_ofInt_of_eq ?_ (by omega)
  unfold satInt
  split_ifs <;> omega

/-- An unsigned difference saturated at 0. -/
theorem toNat_ofInt_satInt_sub :
    (BitVec.ofInt w (satInt (x.toNat - y.toNat) 0 ((2 ^ w - 1 : Nat) : Int))).toNat = x.toNat - y.toNat := by
  have := x.isLt
  refine toNat_ofInt_of_eq ?_ (by omega)
  unfold satInt
  split_ifs <;> omega

theorem toNat_ofInt_min : (BitVec.ofInt w (min (x.toNat : Int) y.toNat)).toNat = min x.toNat y.toNat :=
  toNat_ofInt_of_eq (Nat.cast_min _ _).symm (Nat.lt_of_le_of_lt (Nat.min_le_left _ _) x.isLt)

theorem toNat_ofInt_max : (BitVec.ofInt w (max (x.toNat : Int) y.toNat)).toNat = max x.toNat y.toNat :=
  toNat_ofInt_of_eq (Nat.cast_max _ _).symm (Nat.max_lt.2 ⟨x.isLt, y.isLt⟩)

theorem toNat_ofInt_avgUp : (BitVec.ofInt w (avgUp x.toNat y.toNat)).toNat = (x.toNat + y.toNat + 1) / 2 := by
  have := x.isLt
  have := y.isLt
  refine toNat_ofInt_of_eq ?_ (by omega)
  simp [avgUp]

/-- The distance of two signed values fits the width unsigned. -/
theorem toNat_ofInt_absDiff_toInt (hw : 0 < w) : ((BitVec.ofInt w (absDiff x.toInt y.toInt)).toNat : Int) = |x.toInt - y.toInt| := by
  have hx := x.le_toInt
  have hx' := x.toInt_lt
  have hy := y.le_toInt
  have hy' := y.toInt_lt
  have hpow : 2 ^ w = 2 * 2 ^ (w - 1) := by rw [← pow_succ', Nat.sub_add_cancel hw]
  rw [absDiff, toNat_ofInt_of_eq rfl, Int.natCast_natAbs]
  zify at hpow ⊢
  rw [hpow, abs_lt]
  omega

/-- The distance of two unsigned values. -/
theorem toNat_ofInt_absDiff_toNat : ((BitVec.ofInt w (absDiff x.toNat y.toNat)).toNat : Int) = |(x.toNat : Int) - y.toNat| := by
  have := x.isLt
  have := y.isLt
  rw [absDiff, toNat_ofInt_of_eq rfl (by omega), Int.natCast_natAbs]

/-- A difference modulo 2^w is what added to the subtrahend gives the minuend. -/
theorem toNat_sub_add_mod : ((x - y).toNat + y.toNat) % 2 ^ w = x.toNat := by
  rw [← BitVec.toNat_add, BitVec.sub_add_cancel]

/-- A sum with a multiple, modulo 2^w. -/
theorem toNat_add_mul_ofNat (k : Nat) : (x + y * BitVec.ofNat w k).toNat = (x.toNat + y.toNat * k) % 2 ^ w := by
  simp [BitVec.toNat_add, BitVec.toNat_mul]

theorem getLsbD_and_not (i : Nat) : (x &&& ~~~y).getLsbD i = (x.getLsbD i && !y.getLsbD i) := by
  rw [BitVec.getLsbD_and, BitVec.getLsbD_not]
  by_cases hi : i < w
  · simp [hi]
  · simp [BitVec.getLsbD_of_ge x i (Nat.le_of_not_lt hi)]

end Elements

/-! ## Word operations (R104) -/

/-- The high word of a signed product. -/
theorem toInt_mulhs (x y : W32) : (onInt sInt (fun x y => x * y / 2 ^ 32) x y).toInt = x.toInt * y.toInt / 2 ^ 32 := by
  have hlo : -(2 ^ 62) ≤ x.toInt * y.toInt := BitVec.le_toInt_mul_toInt
  have hhi : x.toInt * y.toInt ≤ 2 ^ 62 := BitVec.toInt_mul_toInt_le
  exact BitVec.toInt_ofInt_eq_self (by decide) (by simp only [sInt]; omega) (by simp only [sInt]; omega)

/-- The high word of an unsigned product. -/
theorem toNat_mulhz (x y : W32) : (onInt zInt (fun x y => x * y / 2 ^ 32) x y).toNat = x.toNat * y.toNat / 2 ^ 32 := by
  refine toNat_ofInt_of_eq (by simp [zInt]) (Nat.div_lt_of_lt_mul ?_)
  exact Nat.mul_lt_mul'' x.isLt y.isLt

/-- abs saturates the absolute value of the least number. -/
theorem toNat_abs (x : W32) :
    ((w32 (satInt x.toInt.natAbs 0 2147483647)).toNat : Int) = clamp |x.toInt| 0 (2 ^ 31 - 1) := by
  rw [satInt_eq_clamp (by decide), Int.natCast_natAbs, w32, BitVec.toNat_ofInt]
  unfold clamp
  omega

/-! ## Predicates and selection (R108-R110) -/

section Predicates

variable {s : State} {p : BitVec 2} {d a b : BitVec 8}

/-- Predicate logic is right where its function of two bits is. -/
theorem predLogic_of {i : Instr} {f : Bool → Bool → Bool} {law : Bool → Bool → Bool → Prop}
    (h : exec i s = kop i (opPL f p d a b) s) (hf : ∀ x y, law x y (f x y)) :
    ∃ v, Lands i s 1 (.pred d.toNat v (s.mask p)) []
      ∧ Lanes2 (s.myRun.predicate a.toNat) (s.myRun.predicate b.toNat) v law := by
  refine ⟨List.zipWith f (s.myRun.predicate a.toNat) (s.myRun.predicate b.toNat), lands_of h ?_, List.length_zipWith, ?_⟩
  · rintro r fs rfl
    simp only [marksOf, List.append_nil]
    rfl
  · intro k x y z hx hy hz
    rw [List.getElem?_zipWith, hx, hy] at hz
    obtain rfl : f x y = z := Option.some.inj hz
    exact hf x y

/-- sel merges its inputs under the predicate and writes every lane. -/
theorem lands_sel : Lands (.iSel p d a b) s 1
    (.reg d.toNat (merge (s.inB .int b) (s.inA .int a) (s.mask p)) (List.replicate s.myRun.lanes true)) (s.latchAB .int .int a b) := by
  refine lands_of (g := opSel p d a b) rfl ?_
  rintro r fs rfl
  simp only [opSel, Run.takeAB, Run.takeAB_eq]
  rfl

/-- pget writes the predicate's bits of each core in its lanes. -/
theorem lands_pget : Lands (.iPget p d a) s 1
    (.reg d.toNat (s.myRun.tabulate fun k => BitVec.ofNat 32 (maskBits (s.myRun.predicate a.toNat) (k / 16))) (s.mask p)) [] := by
  refine lands_of (g := opPget p d a) rfl ?_
  rintro r fs rfl
  rfl

end Predicates

theorem Run.length_tabulate (r : Run) (f : Nat → W32) : (r.tabulate f).length = r.lanes := by simp [Run.tabulate]

theorem Run.eq_of_getElem?_tabulate {r : Run} {f : Nat → W32} {k : Nat} {x : W32} (h : (r.tabulate f)[k]? = some x) : x = f k := by
  rw [Run.tabulate, List.getElem?_map, Option.map_eq_some_iff] at h
  obtain ⟨j, hj, rfl⟩ := h
  obtain ⟨_, rfl⟩ := List.getElem?_eq_some_iff.1 hj
  rw [List.getElem_range]

/-! ## The statement -/

/-- Settles O1: each word operation and compare has one of the operand forms (R49), so it is right where its lane function is;
predicate logic, sel and pget land as the lemmas above say. -/
theorem integerAndPredicateOperations : Obligations.IntegerAndPredicateOperations := by
  refine ⟨fun s p d a b => ⟨?add, ?sub, ?mul, ?mulhs, ?mulhz, ?and, ?or, ?xor, ?andn, ?mins, ?maxs, ?minz, ?maxz, ?abs, ?addss,
      ?addsz, ?subss, ?subsz, ?absds, ?absdz, ?avgs, ?avgz, ?addx2, ?addx4, ?addx8, ?mov⟩,
    fun s p d a b => ⟨?ceq, ?cne, ?clts, ?cltz, ?cles, ?clez, ?pand, ?por, ?pxor, ?sel, ?pget⟩⟩
  case add => exact laneOp_of rfl BitVec.toNat_add
  case sub => exact laneOp_of rfl toNat_sub_add_mod
  case mul => exact laneOp_of rfl BitVec.toNat_mul
  case mulhs => exact laneOp_of rfl toInt_mulhs
  case mulhz => exact laneOp_of rfl toNat_mulhz
  case and => exact laneOp_of rfl fun _ _ _ => BitVec.getLsbD_and
  case or => exact laneOp_of rfl fun _ _ _ => BitVec.getLsbD_or
  case xor => exact laneOp_of rfl fun _ _ _ => BitVec.getLsbD_xor
  case andn => exact laneOp_of rfl getLsbD_and_not
  case mins => exact laneOp_of rfl ((keepsRange_min _ _).toInt_ofInt (by decide))
  case maxs => exact laneOp_of rfl ((keepsRange_max _ _).toInt_ofInt (by decide))
  case minz => exact laneOp_of rfl toNat_ofInt_min
  case maxz => exact laneOp_of rfl toNat_ofInt_max
  case abs => exact laneOp1_of rfl toNat_abs
  case addss | subss => exact laneOp_of rfl fun _ _ => toInt_ofInt_satInt (by decide) _
  case addsz => exact laneOp_of rfl toNat_ofInt_satInt_add
  case subsz => exact laneOp_of rfl toNat_ofInt_satInt_sub
  case absds => exact laneOp_of rfl fun x y => toNat_ofInt_absDiff_toInt x y (by decide)
  case absdz => exact laneOp_of rfl toNat_ofInt_absDiff_toNat
  case avgs => exact laneOp_of rfl ((keepsRange_avgUp _ _).toInt_ofInt (by decide))
  case avgz => exact laneOp_of rfl toNat_ofInt_avgUp
  case addx2 => exact laneOp_of rfl fun x y => toNat_add_mul_ofNat x y 2
  case addx4 => exact laneOp_of rfl fun x y => toNat_add_mul_ofNat x y 4
  case addx8 => exact laneOp_of rfl fun x y => toNat_add_mul_ofNat x y 8
  case mov => exact laneOp1_of rfl fun _ => rfl
  case ceq => exact laneCmp_of rfl fun _ _ => beq_iff_eq
  case cne => exact laneCmp_of rfl fun _ _ => bne_iff_ne
  case clts | cltz | cles | clez => exact laneCmp_of rfl fun _ _ => decide_eq_true_iff
  case pand => exact predLogic_of rfl fun _ _ => Bool.and_eq_true_iff
  case por => exact predLogic_of rfl fun _ _ => Bool.or_eq_true_iff
  case pxor => exact predLogic_of rfl fun _ _ => bne_iff_ne
  case sel => exact ⟨_, lands_sel, fun k x y m hx hy hm => merge_getElem? hy hx hm⟩
  case pget =>
    refine ⟨_, lands_pget, Run.length_tabulate _ _, fun k i x hx hi => ?_⟩
    rw [Run.eq_of_getElem?_tabulate hx]
    exact getLsbD_maskBits _ _ i hi

end Sys2Proof.Machine
end

section
/-!
SUPPORT. The shifts, counts and funnel extracts of the I slots (R105, R111); and the statement about them and the halfword-pair
operations (R106).
-/

namespace Sys2Proof.Machine

/-! ## Shifts and counts (R105) -/

theorem toNat_shl32 (x y : W32) : (shl32 x y).toNat = x.toNat * 2 ^ min y.toNat 32 % 2 ^ 32 := by
  unfold shl32
  split_ifs with h
  · rw [Nat.min_eq_right h, Nat.mul_mod_left]
    rfl
  · rw [Nat.min_eq_left (by omega), BitVec.toNat_shiftLeft, Nat.shiftLeft_eq]

theorem toNat_shrz32 (x y : W32) : (shrz32 x y).toNat = x.toNat / 2 ^ min y.toNat 32 := by
  unfold shrz32
  split_ifs with h
  · rw [Nat.min_eq_right h, Nat.div_eq_of_lt x.isLt]
    rfl
  · rw [Nat.min_eq_left (by omega), BitVec.toNat_ushiftRight, Nat.shiftRight_eq_div_pow]

theorem toInt_shrs32 (x y : W32) : (shrs32 x y).toInt = x.toInt / 2 ^ min y.toNat 31 := by
  rw [shrs32, BitVec.toInt_sshiftRight, Int.shiftRight_eq_div_pow]
  norm_cast

/-- Bit i of a word stands at bit (i + n) mod 32 of its rotation by n. -/
theorem getLsbD_rotl32 (x y : W32) (i : Nat) (hi : i < 32) : (rotl32 x y).getLsbD ((i + y.toNat) % 32) = x.getLsbD i := by
  rw [rotl32, BitVec.getLsbD_rotateLeft_of_le (Nat.mod_lt _ (by decide))]
  by_cases h : i + y.toNat % 32 < 32
  · -- The bit does not pass the end of the word.
    have hpos : (i + y.toNat) % 32 = i + y.toNat % 32 := by omega
    rw [hpos]
    simp [h]
  · -- The bit comes in again at the low end.
    have hpos : (i + y.toNat) % 32 = i + y.toNat % 32 - 32 := by omega
    have hlow : i + y.toNat % 32 - 32 < y.toNat % 32 := by omega
    have hsrc : 32 - y.toNat % 32 + (i + y.toNat % 32 - 32) = i := by omega
    rw [hpos, decide_eq_true hlow, cond_true, hsrc]

/-- The count of 1 bits is the number of bit positions below n that hold one. -/
theorem popNat_eq_length_filter (n x : Nat) : popNat n x = ((List.range n).filter x.testBit).length := by
  induction n generalizing x with
  | zero => rfl
  | succ n ih =>
    have hshift : x.testBit ∘ Nat.succ = (x / 2).testBit := funext fun i => Nat.testBit_succ x i
    rw [popNat, ih, List.range_succ_eq_map, List.filter_cons, List.filter_map, hshift]
    by_cases h : x % 2 = 1
    · simp [Nat.testBit_zero, h, Nat.add_comm]
    · simp [Nat.testBit_zero, Nat.mod_two_ne_one.1 h]

theorem toNat_pcnt32 (x : W32) : (pcnt32 x).toNat = ((List.range 32).filter (fun i => x.getLsbD i)).length := by
  have hle := List.length_filter_le x.toNat.testBit (List.range 32)
  rw [List.length_range] at hle
  rw [pcnt32, popNat_eq_length_filter, BitVec.toNat_ofNat, Nat.mod_eq_of_lt (by omega)]
  rfl

/-- A count z of leading zeros puts the highest 1 bit of the word at 31 - z; a word without one has 32 (R105). -/
theorem toNat_clz32 (x : W32) : (clz32 x).toNat ≤ 32 ∧ x.toNat < 2 ^ (32 - (clz32 x).toNat)
    ∧ (x ≠ 0 → 2 ^ (31 - (clz32 x).toNat) ≤ x.toNat) ∧ (x = 0 → (clz32 x).toNat = 32) := by
  by_cases h : x = 0
  · subst h
    decide
  · have hne : x.toNat ≠ 0 := fun h0 => h (BitVec.eq_of_toNat_eq h0)
    have hlog : x.toNat.log2 < 32 := (Nat.log2_lt hne).2 x.isLt
    have hz : (clz32 x).toNat = 31 - x.toNat.log2 := by
      rw [clz32, if_neg h, BitVec.toNat_ofNat, Nat.mod_eq_of_lt (by omega)]
    have htop : 32 - (31 - x.toNat.log2) = x.toNat.log2 + 1 := by omega
    have hbit : 31 - (31 - x.toNat.log2) = x.toNat.log2 := by omega
    rw [hz, htop, hbit]
    exact ⟨by omega, Nat.lt_log2_self, fun _ => Nat.log2_self_le hne, fun h0 => absurd h0 h⟩

/-! ## Funnel extracts (R111) -/

theorem toNat_fext32 (x y c : W32) : (fext32 x y c).toNat =
    (x.toNat * 2 ^ 32 + y.toNat) / 2 ^ (c.toNat % 64) % 2 ^ (c.toNat / 256 % 32 + 1) := by
  have hlt : (x.toNat * 2 ^ 32 + y.toNat) / 2 ^ (c.toNat % 64) % 2 ^ (c.toNat / 256 % 32 + 1) < 2 ^ 32 :=
    Nat.lt_of_lt_of_le (Nat.mod_lt _ (Nat.two_pow_pos _)) (Nat.pow_le_pow_right (by decide) (by omega))
  rw [fext32, BitVec.toNat_ofNat]
  exact Nat.mod_eq_of_lt hlt

/-- The two's-complement reading of the low k + 1 bits of a number. -/
def signedField (v k : Nat) : Int :=
  if v % 2 ^ (k + 1) / 2 ^ k % 2 = 1 then (v % 2 ^ (k + 1) : Nat) - 2 ^ (k + 1) else (v % 2 ^ (k + 1) : Nat)

theorem signedField_mem (v k : Nat) : -2 ^ k ≤ signedField v k ∧ signedField v k < 2 ^ k := by
  have hlt : v % 2 ^ (k + 1) < 2 ^ k * 2 := Nat.mod_lt _ (Nat.two_pow_pos _)
  unfold signedField
  generalize v % 2 ^ (k + 1) = m at hlt ⊢
  have htop : m / 2 ^ k < 2 := Nat.div_lt_of_lt_mul hlt
  have hsplit : m / 2 ^ k = 0 ↔ m < 2 ^ k := Nat.div_eq_zero_iff_lt (Nat.two_pow_pos k)
  generalize m / 2 ^ k = q at htop hsplit ⊢
  rw [pow_succ]
  zify at hlt hsplit
  split_ifs <;> omega

theorem signedField_sub_emod (v k : Nat) : (signedField v k - v) % 2 ^ (k + 1) = 0 := by
  have hmod : ((v % 2 ^ (k + 1) : Nat) : Int) = (v : Int) % 2 ^ (k + 1) := by push_cast; rfl
  refine Int.emod_eq_zero_of_dvd ?_
  have hself : (2 ^ (k + 1) : Int) ∣ (v % 2 ^ (k + 1) : Nat) - v := hmod ▸ Int.dvd_emod_sub_self
  unfold signedField
  split_ifs
  · rw [sub_right_comm]
    exact dvd_sub_self_right.2 hself
  · exact hself

/-- A field of at most 32 bits is stored exactly in its two's-complement reading. -/
theorem toInt_w32_signedField (v : Nat) {k : Nat} (hk : k < 32) : (w32 (signedField v k)).toInt = signedField v k := by
  obtain ⟨hlo, hhi⟩ := signedField_mem v k
  have hpow : (2 : Int) ^ k ≤ 2 ^ 31 := pow_le_pow_right₀ (by decide) (by omega)
  exact BitVec.toInt_ofInt_eq_self (by decide) (le_trans (neg_le_neg hpow) hlo) (lt_of_lt_of_le hhi hpow)

/-- fexts stores the two's-complement reading of the field that the funnel cuts. -/
theorem fexts32_of_funnel {x y c : W32} {v k : Nat} (h : funnel x y c = (v % 2 ^ (k + 1), k + 1)) :
    fexts32 x y c = w32 (signedField v k) := by
  unfold fexts32 signedField
  rw [h, apply_ite w32]
  rfl

theorem fexts32_eq (x y c : W32) : fexts32 x y c =
    w32 (signedField ((x.toNat * 2 ^ 32 + y.toNat) / 2 ^ (c.toNat % 64)) (c.toNat / 256 % 32)) :=
  fexts32_of_funnel rfl

/-! ## The statement -/

/-- Settles O2: shifts, counts and funnel extracts by their laws above; a halfword-pair operation works element by element, so
it is right where its element function is. -/
theorem shiftAndHalfwordOperations : Obligations.ShiftAndHalfwordOperations := by
  refine ⟨fun s p d a b => ⟨?shl, ?shrz, ?shrs, ?rotl, ?pcnt, ?clz, ?fext, ?fexts⟩,
    fun s p d a b => ⟨?hadd, ?hsub, ?haddss, ?haddsz, ?hsubss, ?hsubsz, ?hmul, ?hmins, ?hmaxs, ?hminz, ?hmaxz, ?habsds, ?habsdz,
      ?havgs, ?havgz⟩⟩
  case shl => exact laneOp_of rfl toNat_shl32
  case shrz => exact laneOp_of rfl toNat_shrz32
  case shrs => exact laneOp_of rfl toInt_shrs32
  case rotl => exact laneOp_of rfl getLsbD_rotl32
  case pcnt => exact laneOp1_of rfl toNat_pcnt32
  case clz => exact laneOp1_of rfl toNat_clz32
  case fext => exact laneOpD_of rfl toNat_fext32
  case fexts =>
    refine laneOpD_of rfl fun x y c => ?_
    rw [fexts32_eq, toInt_w32_signedField _ (Nat.mod_lt _ (by decide))]
    exact ⟨signedField_sub_emod _ _, signedField_mem _ _⟩
  case hadd => exact laneOp_of rfl (halves_onHalf BitVec.toNat_add)
  case hsub => exact laneOp_of rfl (halves_onHalf toNat_sub_add_mod)
  case hmul => exact laneOp_of rfl (halves_onHalf BitVec.toNat_mul)
  case haddss | hsubss => exact laneOp_of rfl (halves_onHalf fun _ _ => toInt_ofInt_satInt (by decide) _)
  case haddsz => exact laneOp_of rfl (halves_onHalf toNat_ofInt_satInt_add)
  case hsubsz => exact laneOp_of rfl (halves_onHalf toNat_ofInt_satInt_sub)
  case hmins => exact laneOp_of rfl (halves_onHalf ((keepsRange_min _ _).toInt_ofInt (by decide)))
  case hmaxs => exact laneOp_of rfl (halves_onHalf ((keepsRange_max _ _).toInt_ofInt (by decide)))
  case hminz => exact laneOp_of rfl (halves_onHalf toNat_ofInt_min)
  case hmaxz => exact laneOp_of rfl (halves_onHalf toNat_ofInt_max)
  case habsds => exact laneOp_of rfl (halves_onHalf fun x y => toNat_ofInt_absDiff_toInt x y (by decide))
  case habsdz => exact laneOp_of rfl (halves_onHalf toNat_ofInt_absDiff_toNat)
  case havgs => exact laneOp_of rfl (halves_onHalf ((keepsRange_avgUp _ _).toInt_ofInt (by decide)))
  case havgz => exact laneOp_of rfl (halves_onHalf toNat_ofInt_avgUp)

end Sys2Proof.Machine
end

section
/-!
SUPPORT. Words that the spec writes out: what the round trip of an instruction says of a word, and the statement about them.
-/

namespace Sys2Proof.Machine

/-! ## Decoding an encoded word (R43, R54) -/

theorem decodeOk_of_roundTrip {i : Instr} {w : W32} (h : Laws.RoundTrip.Statement i) (sl : Slot) (hi : wellFormed i = true)
    (he : encode i = some w) (hs : sl ∈ Laws.RoundTrip.slots i) : decodeOk sl w = some i :=
  (h hi w he).2 sl hs

theorem decodeWord_of_roundTrip {i : Instr} {w : W32} (h : Laws.RoundTrip.Statement i) (hi : wellFormed i = true)
    (he : encode i = some w) (hs : Laws.RoundTrip.slots i = []) (hl : ∀ x, i ≠ .illegalInstruction x) : decodeWord w = .ok i :=
  (h hi w he).1 hs hl

/-! ## The statement -/

/-- Settles O56: each written word is the encoding of what it decodes to, and the round trip of that instruction gives the rest. -/
theorem writtenWordsDecode : Obligations.WrittenWordsDecode := by
  refine ⟨?bany, ?kret, ?mov, ?fext, ?chkeq, ?tmma, ?fencePkg, ?trap, ?barrd, ?waitge, ?xlat, ?rngset⟩
  case bany => exact decodeOk_of_roundTrip (Laws.RoundTrip.ctlBany 2 5) .ctl rfl rfl (by decide)
  case kret => exact decodeOk_of_roundTrip (Laws.RoundTrip.ctlKret 7 3) .ctl rfl rfl (by decide)
  case mov => exact decodeOk_of_roundTrip (Laws.RoundTrip.iMov 0 14 1) .i rfl rfl (by decide)
  case fext => exact decodeOk_of_roundTrip (Laws.RoundTrip.iFext 0 14 0 0xD0) .i rfl rfl (by decide)
  case chkeq => exact decodeOk_of_roundTrip (Laws.RoundTrip.hkChkeq 0 3 0xF0) .hk rfl rfl (by decide)
  case tmma => exact decodeOk_of_roundTrip (Laws.RoundTrip.tmTmma 3 1 0xD0) .tm rfl rfl (by decide)
  case fencePkg => exact decodeWord_of_roundTrip Laws.RoundTrip.fencePkg rfl rfl rfl nofun
  case trap => exact decodeWord_of_roundTrip (Laws.RoundTrip.trap 5) rfl rfl rfl nofun
  case barrd => exact decodeWord_of_roundTrip (Laws.RoundTrip.barrd 7) rfl rfl rfl nofun
  case waitge => exact decodeWord_of_roundTrip (Laws.RoundTrip.waitge 4 9) rfl rfl rfl nofun
  case xlat => exact decodeWord_of_roundTrip (Laws.RoundTrip.xlat 3 9) rfl rfl rfl nofun
  case rngset => exact decodeWord_of_roundTrip (Laws.RoundTrip.rngset 4 2 1) rfl rfl rfl nofun

end Sys2Proof.Machine
end

section
/-!
SUPPORT. Weight loads, clears and drains (R120-R122, R135, R137, R138), and the queue of passes (R124, R125, R140).
-/

namespace Sys2Proof.Machine

/-! ## The three outcomes of a parts load (R137) -/

section PartsLoads

variable {r : Run} {fmt m : Nat}

theorem Run.loadParts_of_tag_ne (h0 : r.tldx = 0) (ht : r.slotTag m ≠ fmt) :
    r.loadParts fmt m = { r with newActive := some {}, newDrain := true, tmis := true } := by
  rw [Run.loadParts, Run.whenRead, if_pos h0, if_pos ht]

theorem Run.loadParts_of_valid (h0 : r.tldx = 0) (ht : r.slotTag m = fmt)
    (hb : badRecordCores { fmt := fmt, area := r.slotArea m (partsSlots fmt) } r.g = []) :
    r.loadParts fmt m =
      { r with newActive := some { fmt := fmt, area := r.slotArea m (partsSlots fmt) }, newDrain := true } := by
  rw [Run.loadParts, Run.whenRead, if_pos h0, if_neg (not_not_intro ht)]
  exact if_pos (List.isEmpty_iff.2 hb)

theorem Run.loadParts_of_invalid (h0 : r.tldx = 0) (ht : r.slotTag m = fmt)
    (hb : badRecordCores { fmt := fmt, area := r.slotArea m (partsSlots fmt) } r.g ≠ []) :
    r.loadParts fmt m = r.fault 3 (badRecordCores { fmt := fmt, area := r.slotArea m (partsSlots fmt) } r.g) := by
  rw [Run.loadParts, Run.whenRead, if_pos h0, if_neg (not_not_intro ht)]
  exact if_neg (mt List.isEmpty_iff.1 hb)

end PartsLoads

/-! ## Operations that read weights -/

variable {s : State} {i : Instr}

/-- While no tldx of an earlier bundle reads, a load has its effect. -/
theorem makes_whenRead {f : Run → Run} (h : exec i s = kop i (fun _ r => r.whenRead f) s) (h0 : s.myRun.tldx = 0)
    (hf : ∀ fs, f { s.myRun with faults := fs } = { f s.myRun with faults := fs }) : Makes i s (f s.myRun) := by
  refine makes_of h ?_
  rintro r fs rfl
  exact (if_pos h0).trans (hf fs)

/-- While one reads, it stalls the group (R123). -/
theorem makes_stall_of_reading {f : Run → Run} (h : exec i s = kop i (fun _ r => r.whenRead f) s) (h0 : s.myRun.tldx ≠ 0) :
    Makes i s { s.myRun with stall := true } := by
  refine makes_of h ?_
  rintro r fs rfl
  exact if_neg h0

/-- A parts load clears the array on another tag, takes the slots where their records are valid, and faults where not. -/
theorem loadParts_outcomes {fmt m : Nat} (h : exec i s = kop i (fun _ r => r.loadParts fmt m) s) (h0 : s.myRun.tldx = 0) :
    let r := s.myRun
    let w : Weights := { fmt := fmt, area := r.slotArea m (partsSlots fmt) }
    (r.slotTag m ≠ fmt → Makes i s { r with newActive := some {}, newDrain := true, tmis := true })
    ∧ (r.slotTag m = fmt → badRecordCores w r.g = [] → Makes i s { r with newActive := some w, newDrain := true })
    ∧ (r.slotTag m = fmt → badRecordCores w r.g ≠ [] → NotesFault i s 3 (badRecordCores w r.g)) := by
  refine ⟨fun ht => makes_of h ?_, fun ht hb => makes_of h ?_, fun ht hb => notes_of h ?_⟩
  all_goals rintro r fs rfl
  · exact Run.loadParts_of_tag_ne h0 ht
  · exact Run.loadParts_of_valid h0 ht hb
  · exact Run.loadParts_of_invalid h0 ht hb

/-! ## The queue of passes (R124, R125, R140) -/

/-- A pass joins a queue of fewer than four; a fifth is dropped and sets OVR. -/
theorem queuePass_outcomes {parts : Bool} {op : PassOp} {k m n : BitVec 8}
    (h : exec i s = kop i (fun _ r => r.queuePass (passOf parts op k.toNat m.toNat (r.uniform .int n.toNat))) s) :
    let r := s.myRun
    (r.passes.length < 4 →
      Makes i s { r with passes := r.passes ++ [passOf parts op k.toNat m.toNat (r.uniform .int n.toNat)] })
    ∧ (4 ≤ r.passes.length → Makes i s { r with tovr := true }) := by
  refine ⟨fun hroom => makes_of h ?_, fun hfull => makes_of h ?_⟩
  all_goals rintro r fs rfl
  · exact if_neg (Nat.not_le.2 hroom)
  · exact if_pos hfull

/-! ## The statement -/

/-- Settles O6: a load has its effect where no tldx reads and stalls where one does; the parts loads and the passes have the
outcomes above. -/
theorem weightsAndPasses : Obligations.WeightsAndPasses := by
  refine ⟨fun s m => ⟨fun h0 => ⟨?tldw, ?tldwt, ?tldx, ?tdrn, ?pld4, ?pld8, ?plds⟩, fun h0 => ?stalls, ?twclr, ?ptclr, ?pdrn⟩,
    fun s k m n => ⟨?tmma, ?tmmz, ?tmmn, ?tmmh, ?ppass, ?ppassz, ?ppassn⟩⟩
  case tldw =>
    exact makes_whenRead (f := fun r => { r with newActive := some (r.weightsAt false m.toNat), newDrain := true }) rfl h0 fun _ => rfl
  case tldwt =>
    exact makes_whenRead (f := fun r => { r with newActive := some (r.weightsAt true m.toNat), newDrain := true }) rfl h0 fun _ => rfl
  case tldx =>
    exact makes_whenRead (f := fun r => { r with shadow := r.weightsAt false m.toNat, newTldx := some (loadCycles r m.toNat 3) })
      rfl h0 fun _ => rfl
  case tdrn => exact makes_whenRead (f := fun r => { r with newActive := some r.shadow, newDrain := true }) rfl h0 fun _ => rfl
  case pld4 | pld8 | plds => exact loadParts_outcomes rfl h0
  case stalls =>
    simp only [List.forall_mem_cons, List.not_mem_nil, false_imp_iff, implies_true, and_true]
    refine ⟨?_, ?_, ?_, ?_, ?_, ?_, ?_⟩
    all_goals exact makes_stall_of_reading rfl h0
  case twclr => exact makes_map (f := Run.clearWeights) rfl fun _ => rfl
  case ptclr => exact makes_map (f := fun r => { r with newActive := some {}, newDrain := true }) rfl fun _ => rfl
  case pdrn => exact makes_map (f := fun r => { r with newDrain := true }) rfl fun _ => rfl
  case tmma | tmmz | tmmn | tmmh | ppass | ppassz | ppassn => exact queuePass_outcomes rfl

end Sys2Proof.Machine
end

section
/-!
SUPPORT. The status words and the scan (R128, R146, R147), reads of a bank (R133), and the arithmetic on whole banks (R129, R144).
-/

namespace Sys2Proof.Machine

/-! ## Results that depend on the run -/

section Results

variable {s : State} {i : Instr}

/-- A register result lands under the mask of its predicate. -/
theorem lands_writeReg {lat : Nat} {p : BitVec 2} {d : BitVec 8} {v : Run → Row}
    (h : exec i s = kop i (fun _ r => r.writeReg d lat (v r) (r.predicate p.toNat)) s)
    (hv : ∀ fs, v { s.myRun with faults := fs } = v s.myRun) : Lands i s lat (.reg d.toNat (v s.myRun) (s.mask p)) [] := by
  refine lands_of h ?_
  rintro r fs rfl
  rw [hv]
  rfl

/-- An operation that only puts a result in flight, of no register, lands, the result being one of the run as it stands. -/
theorem lands_post_of {lat : Nat} {e : Effect} {f : Run → Run} (h : exec i s = kop i (fun _ => f) s)
    (hf : ∀ fs, f { s.myRun with faults := fs } = Run.post { s.myRun with faults := fs } lat e) (he : marksOf e = []) :
    Lands i s lat e [] := by
  refine lands_of h ?_
  rintro r fs rfl
  rw [hf, he, List.append_nil]
  rfl

end Results

theorem Run.getElem?_tabulate {r : Run} {l : Nat} (f : Nat → W32) (h : l < r.lanes) : (r.tabulate f)[l]? = some (f l) := by
  simp [Run.tabulate, h]

/-! ## Tables of the rows 0 to n - 1 -/

/-- The new rows of a bank, as an operation on the whole bank posts them. -/
def rowTable (n : Nat) (f : Nat → Row) : Tab Row := (List.range n).map fun x => (x, f x)

theorem map_fst_rowTable (n : Nat) (f : Nat → Row) : (rowTable n f).map Prod.fst = List.range n := by
  rw [rowTable, List.map_map]
  exact List.map_id _

theorem tgetD_rowTable {n y : Nat} (f : Nat → Row) (h : y < n) (d : Row) : tgetD (rowTable n f) y d = f y := by
  have hkeys : ((rowTable n f).map Prod.fst).Nodup := by
    rw [map_fst_rowTable]
    exact List.nodup_range
  have hmem : (y, f y) ∈ rowTable n f := List.mem_map_of_mem (List.mem_range.2 h)
  rw [tgetD, tget_of_mem hkeys hmem]
  rfl

/-! ## The scan (R147) -/

/-- Words added up are their sum modulo 2^32. -/
theorem toNat_foldl_add (x : List W32) (a : W32) :
    (x.foldl (· + ·) a).toNat = (a.toNat + (x.map BitVec.toNat).sum) % 2 ^ 32 := by
  induction x generalizing a with
  | nil => exact (Nat.mod_eq_of_lt a.isLt).symm
  | cons w x ih =>
    rw [List.foldl_cons, ih, BitVec.toNat_add, Nat.mod_add_mod, List.map_cons, List.sum_cons, Nat.add_assoc]

/-- The sum of a stretch of a row, entry by entry, an entry past its end counting 0. -/
theorem sum_map_toNat_take_drop (x : List W32) (l n : Nat) :
    (((x.drop l).take n).map BitVec.toNat).sum = ((List.range n).map fun j => (x.getD (l + j) 0).toNat).sum := by
  induction n with
  | zero => rfl
  | succ n ih =>
    rw [List.take_add_one, List.map_append, List.sum_append, ih, List.range_succ, List.map_append, List.sum_append,
      List.getElem?_drop, List.map_singleton, List.getD_eq_getElem?_getD]
    cases x[l + n]? <;> rfl

theorem Run.toNat_suffixSums {r : Run} {x : Row} {l : Nat} (h : l < r.lanes) :
    ((r.suffixSums x).getD l 0).toNat = ((List.range (16 - l % 16)).map fun j => (x.getD (l + j) 0).toNat).sum % 2 ^ 32 := by
  rw [List.getD_eq_getElem?_getD, Run.suffixSums, Run.getElem?_tabulate _ h, Option.getD_some, toNat_foldl_add,
    sum_map_toNat_take_drop]
  simp

/-! ## Reads of a bank (R133) -/

section BankReads

variable {r : Run} {b : Bank} {k x : Nat}

theorem Run.readBank_fp (h : tget r.banks k = some b) (hp : b.part = false) (high : Bool) :
    r.readBank high k x = b.row r.lanes (x % 32) := by
  simp [Run.readBank, h, hp]

theorem Run.readBank_low (h : tget r.banks k = some b) (hp : b.part = true) :
    r.readBank false k x = (b.cellRow r.lanes (x % 16)).map fun w => BitVec.ofNat 32 w.toNat := by
  simp only [Run.readBank, h, hp, if_true]
  exact List.map_congr_left fun w _ => rfl

theorem Run.readBank_high (h : tget r.banks k = some b) (hp : b.part = true) :
    r.readBank true k x = (b.cellRow r.lanes (x % 16)).map fun w => BitVec.ofNat 32 (w.toNat / 2 ^ 32) := by
  simp only [Run.readBank, h, hp, if_true]
  refine List.map_congr_left fun w _ => ?_
  rw [← Nat.shiftRight_eq_div_pow]
  rfl

theorem Run.readBank_none (h : tget r.banks k = none) (high : Bool) : r.readBank high k x = List.replicate r.lanes 0 := by
  simp [Run.readBank, h, Run.splat]

end BankReads

theorem lands_ard (s : State) (p : BitVec 2) (d k x : BitVec 8) : Lands (.amArd p d k x) s 2
    (.reg d.toNat (s.myRun.readBank false k.toNat (s.myRun.uniform .int x.toNat).toNat) (s.mask p)) [] :=
  lands_writeReg (v := fun r => r.readBank false k.toNat (r.uniform .int x.toNat).toNat) rfl fun _ => rfl

theorem lands_ardh (s : State) (p : BitVec 2) (d k x : BitVec 8) : Lands (.amArdh p d k x) s 2
    (.reg d.toNat (s.myRun.readBank true k.toNat (s.myRun.uniform .int x.toNat).toNat) (s.mask p)) [] :=
  lands_writeReg (v := fun r => r.readBank true k.toNat (r.uniform .int x.toNat).toNat) rfl fun _ => rfl

/-! ## Arithmetic on whole banks (R129, R144) -/

section BankArithmetic

variable {r : Run} {s : State} {i : Instr} {f : W32 → W32 → W32} {k m : Nat}

/-- Row y of a bank, each element with the word of its column (tscl and tbias). -/
def Run.scaledRow (r : Run) (f : W32 → W32 → W32) (b : Bank) (m y : Nat) : Row :=
  r.tabulate fun l => f ((b.row r.lanes y).getD l 0) (linesWord (r.slotLines m) (l / 16) (16 * (y % 8) + l % 16))

/-- Row y of tcvt: a pair of rows rounded to BF16, or zeros from row 16 on. -/
def Run.pairedRow (r : Run) (k y : Nat) : Row :=
  if y < 16 then
    List.zipWith (fun lo hi => roundBF16 (f32 hi) ++ roundBF16 (f32 lo)) (r.fpRow k (2 * y)) (r.fpRow k (2 * y + 1))
  else r.splat 0

/-- Row y of pcvt: part sums times the words of their columns, rounded once. -/
def Run.scaledSums (r : Run) (k m y : Nat) : Row :=
  r.tabulate fun l => roundFP32 ((FVal.ofInt (r.partVal k y l)).mul (f32 (linesWord (r.slotLines m) (l / 16) (16 * (y % 8) + l % 16))))

theorem Run.scaleBank_fp {b : Bank} (h : tget r.banks k = some b) (hp : b.part = false) :
    r.scaleBank f k m = r.post 4 (.bankRows k (rowTable 32 (r.scaledRow f b m))) := by
  simp only [Run.scaleBank, h, hp, Bool.false_eq_true, if_false]
  rfl

theorem Run.scaleBank_of_not_fp (h : ¬∃ b, tget r.banks k = some b ∧ b.part = false) : r.scaleBank f k m = r := by
  cases hb : tget r.banks k with
  | none => simp only [Run.scaleBank, hb]
  | some b =>
    have hp : b.part = true := by simpa using fun hp => h ⟨b, hb, hp⟩
    simp only [Run.scaleBank, hb, hp, if_true]

theorem Run.convertParts_of_ne {d : Nat} (h : d ≠ k) :
    r.convertParts d k m = r.post 4 (.bankRows d (rowTable 16 (r.scaledSums k m))) := if_neg h

theorem Run.convertParts_self : r.convertParts k k m = r := if_pos rfl

/-- tscl and tbias post the new rows of an FP32 bank. -/
theorem lands_scaleBank {b : Bank} (h : exec i s = kop i (fun _ r => r.scaleBank f k m) s) (hk : tget s.myRun.banks k = some b)
    (hp : b.part = false) : Lands i s 4 (.bankRows k (rowTable 32 (s.myRun.scaledRow f b m))) [] :=
  lands_post_of h (fun _ => Run.scaleBank_fp hk hp) rfl

/-- They leave the run where the bank is not in FP32 mode. -/
theorem makes_scaleBank_of_not_fp (h : exec i s = kop i (fun _ r => r.scaleBank f k m) s)
    (hk : ¬∃ b, tget s.myRun.banks k = some b ∧ b.part = false) : Makes i s s.myRun := by
  refine makes_of h ?_
  rintro r fs rfl
  exact Run.scaleBank_of_not_fp hk

theorem getElem?_rowTable_scaledRow {b : Bank} {y l : Nat} (hy : y < 32) (hl : l < r.lanes) :
    (tgetD (rowTable 32 (r.scaledRow f b m)) y [])[l]? =
      some (f ((b.row r.lanes y).getD l 0) (linesWord (r.slotLines m) (l / 16) (16 * (y % 8) + l % 16))) := by
  rw [tgetD_rowTable _ hy, Run.scaledRow, Run.getElem?_tabulate _ hl]

/-- A lane of tcvt's rows holds the two elements of the pair, each rounded. -/
theorem getElem?_rowTable_pairedRow {y l : Nat} {lo hi : W32} (hy : y < 16) (hlo : (r.fpRow k (2 * y))[l]? = some lo)
    (hhi : (r.fpRow k (2 * y + 1))[l]? = some hi) :
    ∃ z, (tgetD (rowTable 32 (r.pairedRow k)) y [])[l]? = some z ∧ elem0 z = roundBF16 (f32 lo) ∧ elem1 z = roundBF16 (f32 hi) := by
  rw [tgetD_rowTable _ (Nat.lt_trans hy (by decide)), Run.pairedRow, if_pos hy, List.getElem?_zipWith, hlo, hhi]
  exact ⟨_, rfl, elem0_append _ _, elem1_append _ _⟩

theorem rowTable_pairedRow_upper {y : Nat} (hy : 16 ≤ y) (hy' : y < 32) :
    tgetD (rowTable 32 (r.pairedRow k)) y [] = List.replicate r.lanes 0 := by
  rw [tgetD_rowTable _ hy', Run.pairedRow, if_neg (Nat.not_lt.2 hy), Run.splat]

theorem getElem?_rowTable_scaledSums {y l : Nat} (hy : y < 16) (hl : l < r.lanes) :
    (tgetD (rowTable 16 (r.scaledSums k m)) y [])[l]? = some (roundFP32 ((FVal.ofInt (r.partVal k y l)).mul
      (f32 (linesWord (r.slotLines m) (l / 16) (16 * (y % 8) + l % 16))))) := by
  rw [tgetD_rowTable _ hy, Run.scaledSums, Run.getElem?_tabulate _ hl]

end BankArithmetic

/-! ## The statement -/

/-- Settles O7: the register results land by one rule, with the scan and the bank reads as above; the arithmetic on banks posts
the table of its new rows. -/
theorem bankReadsAndArithmetic : Obligations.BankReadsAndArithmetic := by
  refine ⟨fun s p d k x => ⟨?tstat, ?pstat, ?pscan, fun b hb hp => ⟨?ardFp, ?ardhFp⟩, fun b hb hp => ⟨?ardParts, ?ardhParts⟩,
      fun hn => ⟨?ardNone, ?ardhNone⟩⟩,
    fun s d k m x => ⟨fun b hb hp => ⟨?tscl, ?tbias⟩, fun hk => ⟨?tsclNone, ?tbiasNone⟩, ?tamw, ?tcvt, ?pcvtSelf, fun hne => ?pcvt⟩⟩
  case tstat => exact lands_writeReg (v := fun r => r.splat r.tstat) rfl fun _ => rfl
  case pstat =>
    exact ⟨_, lands_writeReg (v := fun r => r.tabulate fun g => r.pstat (g / 16)) rfl fun _ => rfl, Run.length_tabulate _ _,
      fun l hl => Run.getElem?_tabulate _ hl⟩
  case pscan =>
    exact ⟨_, lands_writeReg (v := fun r => r.suffixSums (r.source .int x.toNat)) rfl fun _ => rfl, Run.length_tabulate _ _,
      fun l hl _ => Run.toNat_suffixSums hl⟩
  case ardFp => exact Run.readBank_fp hb hp false ▸ lands_ard s p d k x
  case ardhFp => exact Run.readBank_fp hb hp true ▸ lands_ardh s p d k x
  case ardParts => exact Run.readBank_low hb hp ▸ lands_ard s p d k x
  case ardhParts => exact Run.readBank_high hb hp ▸ lands_ardh s p d k x
  case ardNone => exact Run.readBank_none hn false ▸ lands_ard s p d k x
  case ardhNone => exact Run.readBank_none hn true ▸ lands_ardh s p d k x
  case tscl | tbias =>
    exact ⟨_, lands_scaleBank rfl hb hp, map_fst_rowTable 32 _, fun y l => getElem?_rowTable_scaledRow⟩
  case tsclNone | tbiasNone => exact makes_scaleBank_of_not_fp rfl hk
  case tamw =>
    exact lands_post_of (f := fun r => r.post 1 (.amRow k.toNat (r.uniform .int x.toNat).toNat (r.source .int d.toNat)))
      rfl (fun _ => rfl) rfl
  case tcvt =>
    exact ⟨rowTable 32 (s.myRun.pairedRow k.toNat), lands_post_of (f := fun r => r.convertBank d.toNat k.toNat) rfl (fun _ => rfl) rfl,
      map_fst_rowTable 32 _, fun y l lo hi => getElem?_rowTable_pairedRow, fun y => rowTable_pairedRow_upper⟩
  case pcvtSelf =>
    rintro rfl
    refine makes_of (g := fun _ r => r.convertParts d.toNat d.toNat m.toNat) rfl ?_
    rintro r fs rfl
    exact Run.convertParts_self
  case pcvt =>
    have hne' : d.toNat ≠ k.toNat := mt BitVec.eq_of_toNat_eq hne
    exact ⟨_, lands_post_of (f := fun r => r.convertParts d.toNat k.toNat m.toNat) rfl (fun _ => Run.convertParts_of_ne hne') rfl,
      map_fst_rowTable 16 _, fun y l => getElem?_rowTable_scaledSums⟩

end Sys2Proof.Machine
end

section
/-!
SUPPORT. The switch (R161): every operation writes a row that permutes the lanes of its source.
-/

namespace Sys2Proof.Machine

variable {s : State} {i : Instr} {d : BitVec 8}

/-- A register result lands under a mask of the run's own; the faults noted before it change neither. -/
theorem lands_writeReg_under {lat : Nat} {v : Run → Row} {m : Run → Mask}
    (h : exec i s = kop i (fun _ r => r.writeReg d lat (v r) (m r)) s) (hv : ∀ fs, v { s.myRun with faults := fs } = v s.myRun)
    (hm : ∀ fs, m { s.myRun with faults := fs } = m s.myRun) : Lands i s lat (.reg d.toNat (v s.myRun) (m s.myRun)) [] := by
  refine lands_of h ?_
  rintro r fs rfl
  rw [hv, hm]
  rfl

/-- A lane of a permuted row holds the lane of the source that its function names, or 0. -/
theorem getElem?_permute {r : Run} {l : Nat} (x : Row) (f : Nat → Option Nat) (h : l < r.lanes) :
    (permute r x f)[l]? = some (match f l with | some k => x.getD k 0 | none => 0) :=
  Run.getElem?_tabulate _ h

/-- An operation that writes a permuted row lands it, lane by lane as its function says. -/
theorem lands_permute {x : BitVec 8} {f : Run → Nat → Option Nat} {m : Run → Mask}
    (h : exec i s = kop i (fun _ r => r.writeReg d 4 (permute r (r.source .int x.toNat) (f r)) (m r)) s)
    (hf : ∀ fs, f { s.myRun with faults := fs } = f s.myRun) (hm : ∀ fs, m { s.myRun with faults := fs } = m s.myRun) :
    ∃ v, Lands i s 4 (.reg d.toNat v (m s.myRun)) [] ∧ v.length = s.myRun.lanes ∧ ∀ l : Nat, l < s.myRun.lanes →
      v[l]? = some (match f s.myRun l with | some k => (s.myRun.source .int x.toNat).getD k 0 | none => 0) := by
  refine ⟨_, lands_writeReg_under h (fun fs => ?_) hm, Run.length_tabulate _ _, fun l hl => getElem?_permute _ _ hl⟩
  rw [hf]
  rfl

/-- xcnt's word counts the selected lanes in its high half and those below the lane in its low half. -/
theorem toNat_getD_xcntWord {r : Run} {l : Nat} (sel : Mask) (h : l < r.lanes) : ((r.tabulate (xcntWord sel)).getD l 0).toNat =
    ((chosen sel).length * 2 ^ 16 + ((chosen sel).filter (fun x => x < l)).length) % 2 ^ 32 := by
  rw [List.getD_eq_getElem?_getD, Run.getElem?_tabulate _ h, Option.getD_some, xcntWord, BitVec.toNat_ofNat]

/-- Settles O8: each operation but xcnt writes a permuted row, under its predicate or, where that selects, in every lane. -/
theorem switchOperations : Obligations.SwitchOperations := by
  refine fun s p d x i n => ⟨?xperm, ?xpermc, ?xbc, ?xbcc, ?xrot, ?xrotc, ?xcmp, ?xcmpc, ?xexp, ?xcnt⟩
  case xperm => exact (lands_permute (exec_xsXperm p d x i s) (fun _ => rfl) fun _ => rfl :)
  case xpermc => exact (lands_permute (exec_xsXpermc p d x i s) (fun _ => rfl) fun _ => rfl :)
  case xbc => exact (lands_permute (exec_xsXbc p d x n s) (fun _ => rfl) fun _ => rfl :)
  case xbcc => exact (lands_permute (exec_xsXbcc p d x n s) (fun _ => rfl) fun _ => rfl :)
  case xrot => exact (lands_permute (exec_xsXrot p d x n s) (fun _ => rfl) fun _ => rfl :)
  case xrotc => exact (lands_permute (exec_xsXrotc p d x n s) (fun _ => rfl) fun _ => rfl :)
  case xcmp => exact (lands_permute (exec_xsXcmp p d x s) (fun _ => rfl) fun _ => rfl :)
  case xcmpc => exact (lands_permute (exec_xsXcmpc p d x s) (fun _ => rfl) fun _ => rfl :)
  case xexp => exact (lands_permute (exec_xsXexp p d x s) (fun _ => rfl) fun _ => rfl :)
  case xcnt =>
    exact ⟨_, lands_writeReg_under (v := fun r => r.tabulate (xcntWord (r.predicate p.toNat)))
      (m := fun r => List.replicate r.lanes true) rfl (fun _ => rfl) fun _ => rfl, Run.length_tabulate _ _,
      fun l hl => toNat_getD_xcntWord _ hl⟩

end Sys2Proof.Machine
end

section
/-!
SUPPORT. What an operation on a stream port does to the view of its port (R155-R160), outcome by outcome, and that it puts this
view back.
-/

namespace Sys2Proof.Machine

/-! ## The view of a port (R154) -/

section Views

variable {s : State} {i : Instr} {a : Nat}

/-- What an operation on port `a` of the run being issued works on: the run with its reads noted, the port and its stream. -/
def State.view (s : State) (i : Instr) (a : Nat) : PortView where
  run := s.myRun.noteReads s.cur.syl i
  port := tgetD s.myRun.ports a {}
  st := s.stream s.cur.sc (tgetD s.myRun.ports a {}).stream

/-- A stream operation puts back what it makes of the view. -/
theorem exec_of_view {f : Nat → PortView → PortView} {w : PortView} (h : exec i s = kport i a f s)
    (hf : f s.cur.syl (s.view i a) = w) : exec i s = .next (s.putView a w) := by
  subst hf
  exact h

end Views

/-! ## Streams (R150, R151) -/

theorem wrap32_wrap32 (x : Nat) : wrap32 (wrap32 x) = wrap32 x := Nat.mod_mod _ _

/-- A position counter names the same position modulo 2^32. -/
theorem Stream.putRow_wrap32 (st : Stream) (x : Nat) (v : Row) : st.putRow (wrap32 x) v = st.putRow x v := by
  rw [Stream.putRow, wrap32_wrap32, Stream.putRow]

/-! ## Pops (R155, R157) -/

section Outcomes

variable {v : PortView} {p : BitVec 2} {d : BitVec 8} {k : W32} {x : Row}

theorem doSpop_of_filled (h : k.toNat % v.port.occ < v.st.filled) : doSpop p d k v =
    { v with run := v.run.writeReg d 3 (v.st.row (v.st.rp + k.toNat % v.port.occ)) (v.run.predicate p.toNat),
             port := { v.port with cr := max v.port.cr (k.toNat % v.port.occ + 1) } } := if_neg (Nat.not_le.2 h)

theorem doSpop_of_unfilled (h : v.st.filled ≤ k.toNat % v.port.occ) : doSpop p d k v = v.wait := if_pos h

/-- The lanes that a predicate selects. -/
def PortView.selected (v : PortView) (p : BitVec 2) : Nat := (chosen (v.run.predicate p.toNat)).length

/-- The rows from rp that a spopc reaches: none where it selects no lane (log 87). -/
def PortView.reached (v : PortView) (p : BitVec 2) : Nat :=
  if v.selected p = 0 then 0 else (v.port.r + v.selected p - 1) / v.st.rowLen + 1

theorem doSpopc_of_filled (h : v.reached p ≤ v.st.filled) : doSpopc p d v =
    { run := v.run.writeReg d 4 (popLanes v.st (v.run.predicate p.toNat) v.port.r) (List.replicate v.run.lanes true),
      port := { v.port with r := (v.port.r + v.selected p) % v.st.rowLen,
                            cr := v.port.cr - (v.port.r + v.selected p) / v.st.rowLen },
      st := v.st.consume ((v.port.r + v.selected p) / v.st.rowLen) } := if_neg (Nat.not_lt.2 h)

theorem doSpopc_of_unfilled (h : v.st.filled < v.reached p) : doSpopc p d v = v.wait := if_pos h

/-! ## Pushes and flushes (R155, R156) -/

theorem doSpush_of_free (h : v.port.u < v.st.space) : doSpush x v =
    { v with port := { v.port with u := (v.port.u + 1) % v.port.occ, n := wrap32 (v.port.n + v.st.rowLen),
                                   written := wrap32 (v.st.wp + v.port.u) :: v.port.written },
             st := v.st.putRow (wrap32 (v.st.wp + v.port.u)) x } := if_neg (Nat.not_le.2 h)

theorem doSpush_of_full (h : v.st.space ≤ v.port.u) : doSpush x v = v.wait := if_pos h

/-- The words of the lanes of a row that a predicate selects. -/
def PortView.picked (v : PortView) (p : BitVec 2) (x : Row) : List W32 :=
  (chosen (v.run.predicate p.toNat)).map fun g => x.getD g 0

/-- The staging row with these words appended. -/
def PortView.staged (v : PortView) (p : BitVec 2) (x : Row) : List W32 := v.port.staging ++ v.picked p x

/-- A spushc that completes no row stages its words. -/
theorem doSpushc_of_partial (h : (v.staged p x).length < v.st.rowLen) : doSpushc p x v =
    { v with port := { v.port with staging := v.staged p x, n := wrap32 (v.port.n + (v.picked p x).length) } } := if_pos h

/-- One that completes a row publishes it, with the plain pushes before it, and stages what is left. -/
theorem doSpushc_of_free (h : v.st.rowLen ≤ (v.staged p x).length) (hu : v.port.u < v.st.space) : doSpushc p x v =
    { v with port := { v.port.unmark v.st.wp (v.port.u + 1) with
                         cr := v.port.cr - (v.port.u + 1), u := 0, staging := (v.staged p x).drop v.st.rowLen,
                         n := wrap32 (v.port.n + (v.picked p x).length) },
             st := (v.st.putRow (wrap32 (v.st.wp + v.port.u)) ((v.staged p x).take v.st.rowLen)).publish (v.port.u + 1) } := by
  rw [Stream.putRow_wrap32]
  exact (if_neg (Nat.not_lt.2 h)).trans (if_neg (Nat.not_le.2 hu))

theorem doSpushc_of_full (h : v.st.rowLen ≤ (v.staged p x).length) (hu : v.st.space ≤ v.port.u) : doSpushc p x v = v.wait :=
  (if_neg (Nat.not_lt.2 h)).trans (if_pos hu)

theorem doSflush_of_empty (h : v.port.staging = []) : doSflush v =
    { v with port := { v.port.unmark v.st.wp v.port.u with cr := v.port.cr - v.port.u, u := 0 },
             st := v.st.publish v.port.u } := if_pos (List.isEmpty_iff.2 h)

theorem doSflush_of_free (h : v.port.staging ≠ []) (hu : v.port.u < v.st.space) : doSflush v =
    { v with port := { v.port.unmark v.st.wp (v.port.u + 1) with cr := v.port.cr - (v.port.u + 1), u := 0, staging := [] },
             st := (v.st.putRow (wrap32 (v.st.wp + v.port.u))
               (v.port.staging ++ List.replicate (v.st.rowLen - v.port.staging.length) 0)).publish (v.port.u + 1) } := by
  rw [Stream.putRow_wrap32]
  exact (if_neg (mt List.isEmpty_iff.1 h)).trans (if_neg (Nat.not_le.2 hu))

theorem doSflush_of_full (h : v.port.staging ≠ []) (hu : v.st.space ≤ v.port.u) : doSflush v = v.wait :=
  (if_neg (mt List.isEmpty_iff.1 h)).trans (if_pos hu)

/-! ## Waits and advances (R155) -/

theorem doWait_of_filled (h : v.port.count k ≤ v.st.filled) : doWait false k v =
    { v with port := { v.port with cr := max v.port.cr (v.port.count k) } } := by
  simp only [doWait, Bool.false_eq_true, if_false, Nat.not_lt.2 h]

theorem doWait_of_unfilled (h : v.st.filled < v.port.count k) : doWait false k v = v.wait := by
  simp only [doWait, Bool.false_eq_true, if_false, h, if_true]

theorem doWait_of_free (h : v.port.count k ≤ v.st.space) : doWait true k v =
    { v with port := { v.port with cr := max v.port.cr (v.port.count k) } } := by
  simp only [doWait, if_true, Nat.not_lt.2 h, if_false]

theorem doWait_of_full (h : v.st.space < v.port.count k) : doWait true k v = v.wait := by
  simp only [doWait, h, if_true]

theorem doSadvr_of_filled (h : v.port.count k ≤ v.st.filled) : doSadvr k v =
    { v with port := { v.port with r := 0, cr := v.port.cr - v.port.count k }, st := v.st.consume (v.port.count k) } :=
  if_neg (Nat.not_lt.2 h)

theorem doSadvr_of_unfilled (h : v.st.filled < v.port.count k) : doSadvr k v = v.wait := if_pos h

theorem doSadvw_of_full (h : v.st.space < v.port.count k) : doSadvw k v = v.wait := if_pos h

/-! ## Fills and counts (R158, R159) -/

theorem doTfill_of_unfilled {m : Nat} {fmt : Option Nat} (h : v.st.filled = 0) : doTfill m fmt v = v.wait := if_pos h

/-- tfill fills line 0 and names the slot's format. -/
theorem doTfill_of_format {m fmt : Nat} (h : v.st.filled ≠ 0) : doTfill m (some fmt) v =
    { run := v.run.post 3 (.line m 0 (v.st.row v.st.rp) (some fmt)),
      port := { v.port with f := 1, r := 0, cr := v.port.cr - 1 }, st := v.st.consume 1 } := if_neg h

/-- tfillx fills the line of the cursor. -/
theorem doTfill_of_cursor {m : Nat} (h : v.st.filled ≠ 0) : doTfill m none v =
    { run := v.run.post 3 (.line m v.port.f (v.st.row v.st.rp) none),
      port := { v.port with f := (v.port.f + 1) % 256, r := 0, cr := v.port.cr - 1 }, st := v.st.consume 1 } := if_neg h

theorem doScnt_of_full (h : v.run.rqRoom = false) : doScnt v = v.wait :=
  congrArg (fun r => { v with run := r }) (Run.enqueue_of_full h _)

theorem doScnt_of_room (h : v.run.rqRoom = true) : ∃ rq, doScnt v = { v with run := { v.run with rq := rq } } ∧
    ∀ c, tgetD rq c [] = if c < v.run.g then tgetD v.run.rq c [] ++ [BitVec.ofNat 32 v.port.n] else tgetD v.run.rq c [] :=
  ⟨_, congrArg (fun r => { v with run := r }) (Run.enqueue_of_room h _), tgetD_foldl_enqueue _ _ _⟩

end Outcomes

/-! ## Positions that an advance passes unwritten (R155) -/

section Unwritten

variable (q : Port) (st : Stream)

/-- Position wp + j has not been written by a push, and lies at ring index y. -/
def UnwrittenAt (y j : Nat) : Prop := (st.wp + j) % 2 ^ 32 ∉ q.written ∧ (st.wp + j) % 2 ^ 32 % st.cap = y

theorem zeroUnwritten_succ (n : Nat) : zeroUnwritten q st (n + 1) =
    if wrap32 (st.wp + n) ∈ q.written then zeroUnwritten q st n
    else (zeroUnwritten q st n).putRow (wrap32 (st.wp + n)) (List.replicate st.rowLen 0) := by
  simp only [zeroUnwritten, List.range_succ, List.foldl_append, List.foldl_cons, List.foldl_nil, List.contains_iff_mem]

/-- Only the blocks of the stream change. -/
theorem zeroUnwritten_eq (n : Nat) : zeroUnwritten q st n = { st with data := (zeroUnwritten q st n).data } := by
  induction n with
  | zero => rfl
  | succ n ih =>
    rw [zeroUnwritten_succ]
    split
    · exact ih
    · rw [ih]
      rfl

theorem cap_zeroUnwritten (n : Nat) : (zeroUnwritten q st n).cap = st.cap := by
  rw [zeroUnwritten_eq]
  rfl

/-- A ring index reads zero where an unwritten position lies at it, and as before elsewhere. -/
theorem tgetD_zeroUnwritten (n y : Nat) :
    (∃ j < n, UnwrittenAt q st y j) ∧ tgetD (zeroUnwritten q st n).data y (List.replicate st.rowLen 0) = List.replicate st.rowLen 0
    ∨ (¬∃ j < n, UnwrittenAt q st y j) ∧
      tgetD (zeroUnwritten q st n).data y (List.replicate st.rowLen 0) = tgetD st.data y (List.replicate st.rowLen 0) := by
  induction n with
  | zero => exact .inr ⟨by simp, rfl⟩
  | succ n ih =>
    rw [Nat.exists_lt_succ_right, zeroUnwritten_succ]
    by_cases hw : wrap32 (st.wp + n) ∈ q.written
    · have hn : ¬UnwrittenAt q st y n := fun h => h.1 hw
      simpa only [if_pos hw, hn, or_false] using ih
    · rw [if_neg hw, Stream.putRow_wrap32, Stream.putRow, cap_zeroUnwritten, tgetD_tput]
      by_cases hy : y = wrap32 (st.wp + n) % st.cap
      · exact .inl ⟨.inr ⟨hw, hy.symm⟩, if_pos hy⟩
      · have hn : ¬UnwrittenAt q st y n := fun h => hy h.2.symm
        simpa only [if_neg hy, hn, or_false] using ih

/-- sadvw publishes the positions passed, those that no push has written as zero rows. -/
theorem doSadvw_of_free {v : PortView} {k : W32} (h : v.port.count k ≤ v.st.space) : doSadvw k v =
    { v with port := { v.port.unmark v.st.wp (v.port.count k) with
                         u := v.port.u - v.port.count k, cr := v.port.cr - v.port.count k },
             st := { v.st with data := (zeroUnwritten v.port v.st (v.port.count k)).data,
                               wp := wrap32 (v.st.wp + v.port.count k) } } := by
  refine (if_neg (Nat.not_lt.2 h)).trans ?_
  rw [zeroUnwritten_eq]
  rfl

end Unwritten

/-! ## The statement -/

/-- Settles O9: each operation puts back what its outcome above makes of the view of its port.  The outcome says which view that
is, so each proof is read before it is compared with the run, the port and the stream that the statement writes out. -/
theorem streamPortOperations : Obligations.StreamPortOperations := by
  refine fun s p d a k m f b => ⟨fun h => ?spop, fun h => ?spopWaits, fun h => ?spopc, fun h => ?spopcWaits, fun h => ?spush,
    fun h => ?spushWaits, fun h => ?spushcStages, fun h => ⟨fun hu => ?spushc, fun hu => ?spushcWaits⟩, fun h => ?swaitf,
    fun h => ?swaitfWaits, fun h => ?swaite, fun h => ?swaiteWaits, fun h => ?sadvr, fun h => ?sadvrWaits, fun h => ?sadvwWaits,
    fun h => ?sadvw, fun h => ?tfill, fun h => ?tfillx, fun h => ⟨?tfillWaits, ?tfillxWaits⟩, fun h => ?scnt, fun h => ?scntWaits,
    fun h => ?sflush, fun h hu => ?sflushPads, fun h hu => ?sflushWaits, ?sptrr, ?sptrw, ?savail, ?sspace⟩
  case spop => exact (exec_of_view (exec_sSpop p d a k s) (doSpop_of_filled h) :)
  case spopWaits => exact (exec_of_view (exec_sSpop p d a k s) (doSpop_of_unfilled h) :)
  case spopc => exact (exec_of_view (exec_sSpopc p d a s) (doSpopc_of_filled h) :)
  case spopcWaits => exact (exec_of_view (exec_sSpopc p d a s) (doSpopc_of_unfilled h) :)
  case spush => exact (exec_of_view (exec_sSpush a b s) (doSpush_of_free h) :)
  case spushWaits => exact (exec_of_view (exec_sSpush a b s) (doSpush_of_full h) :)
  case spushcStages => exact (exec_of_view (exec_sSpushc p a b s) (doSpushc_of_partial h) :)
  case spushc => exact (exec_of_view (exec_sSpushc p a b s) (doSpushc_of_free h hu) :)
  case spushcWaits => exact (exec_of_view (exec_sSpushc p a b s) (doSpushc_of_full h hu) :)
  case swaitf => exact (exec_of_view (exec_sSwaitf a k s) (doWait_of_filled h) :)
  case swaitfWaits => exact (exec_of_view (exec_sSwaitf a k s) (doWait_of_unfilled h) :)
  case swaite => exact (exec_of_view (exec_sSwaite a k s) (doWait_of_free h) :)
  case swaiteWaits => exact (exec_of_view (exec_sSwaite a k s) (doWait_of_full h) :)
  case sadvr => exact (exec_of_view (exec_sSadvr a k s) (doSadvr_of_filled h) :)
  case sadvrWaits => exact (exec_of_view (exec_sSadvr a k s) (doSadvr_of_unfilled h) :)
  case sadvwWaits => exact (exec_of_view (exec_sSadvw a k s) (doSadvw_of_full h) :)
  case sadvw =>
    refine ⟨_, (exec_of_view (exec_sSadvw a k s) (doSadvw_of_free h) :), fun y => ?_⟩
    obtain ⟨hj, hz⟩ | ⟨hj, hz⟩ := tgetD_zeroUnwritten (tgetD s.myRun.ports a.toNat {}) _ _ y
    · exact hz.trans (if_pos hj).symm
    · exact hz.trans (if_neg hj).symm
  case tfill => exact (exec_of_view (exec_sTfill m a f s) (doTfill_of_format h) :)
  case tfillx => exact (exec_of_view (exec_sTfillx m a s) (doTfill_of_cursor h) :)
  case tfillWaits => exact (exec_of_view (exec_sTfill m a f s) (doTfill_of_unfilled h) :)
  case tfillxWaits => exact (exec_of_view (exec_sTfillx m a s) (doTfill_of_unfilled h) :)
  case scnt =>
    obtain ⟨rq, hv, hrq⟩ := doScnt_of_room (v := s.view (.sScnt a) a.toNat) h
    exact ⟨rq, (exec_of_view (exec_sScnt a s) hv :), hrq⟩
  case scntWaits => exact (exec_of_view (exec_sScnt a s) (doScnt_of_full h) :)
  case sflush => exact (exec_of_view (exec_sSflush a s) (doSflush_of_empty h) :)
  case sflushPads => exact (exec_of_view (exec_sSflush a s) (doSflush_of_free h hu) :)
  case sflushWaits => exact (exec_of_view (exec_sSflush a s) (doSflush_of_full h hu) :)
  case sptrr => exact (exec_of_view (exec_sSptrr p d a s) rfl :)
  case sptrw => exact (exec_of_view (exec_sSptrw p d a s) rfl :)
  case savail => exact (exec_of_view (exec_sSavail p d a s) rfl :)
  case sspace => exact (exec_of_view (exec_sSspace p d a s) rfl :)

end Sys2Proof.Machine
end

section
/-!
SUPPORT. What a walk performs (R278, R284).  A translation that no TLB holds sends its requests on its hub's port for walks, and what
that port sent earlier to the same units performs first.  Three statements let an access translate and exclude requests still to
perform at the port of the core or the engine alone; a write that stands at the walkers' port refutes them.
-/

namespace Sys2Proof.Machine

/-- An answer that goes on, in a state of which `p` holds. -/
def goesOnWith (r : Result) (p : State → Bool) : Bool :=
  match r with
  | .next t => p t
  | _ => false

theorem of_goesOnWith {r : Result} {t : State} {p : State → Bool} (h : r = .next t) (hp : goesOnWith r p = true) : p t = true := by
  subst h
  exact hp

/-- Context 18 of SC 0 under a page table at 0x1000, which maps the first GiB to memory and no TLB holds anything of.  The port of hub
0's walkers has sent a write of the byte at 0x1008, in the unit of the first PTE of every walk, that has yet to perform. -/
def walkPending (u : Sc) (m : List Host.Cell) : State :=
  { scs := [(0, { u with ptb := 0x1000, ptbSet := true })], mem := placeTables m 0 0,
    pkts := [(0, maskedPacket {} (walkPort 0) (.ctx 18) 0x1008 [1])], cur := { ctx := 18 } }

/-! ## SLOAD -/

/-- A record of one FP32 element at address 0 (R180), as its 192 bytes. -/
def oneWordRecord : List Byte :=
  natBytes 8 0 ++ natBytes 1 1 ++ natBytes 1 1 ++ natBytes 2 0 ++ natBytes 4 4 ++ natBytes 24 1 ++ natBytes 48 4 ++ natBytes 24 0
    ++ natBytes 24 1 ++ natBytes 56 0

/-- A stream in h1, and the record that g1 names in the record cache. -/
def loadPending : State :=
  walkPending { ctxs := [(18, { st := .ready, g := [(1, 0x8000)], h := [(1, 0)] })], streams := [(0, {})],
                recs := [(0x8000, oneWordRecord)] } []

theorem loadPending_settled : loadPending.Settled ∧ loadPending.Filled [1, 0] ∧ tget loadPending.me.h (1 : BitVec 4).toNat = some 0
    ∧ loadPending.PortQuiet := by
  delta State.Settled State.Filled State.PortQuiet
  decide +kernel

theorem loadPending_record : loadPending.myRecord 1 = .ok (recOf 0x8000 oneWordRecord) := by decide +kernel

theorem loadPending_mayIssue :
    loadPending.MayIssue { wins := [(recOf 0x8000 oneWordRecord, false)], ends := [producer 0], flag := none } := by
  delta State.MayIssue
  decide +kernel

theorem sload_performs_walkWrite : goesOnWith (exec (.sload 1 1 0 0) loadPending) (fun t => t.mem != loadPending.mem) = true := by
  decide +kernel

/-- Refutes O25: the window check of SLOAD walks the page table, and a write that the port for walks still owes to the line of a PTE
performs before, which changes memory though the core's own port owes nothing. -/
theorem not_memoryStreamsEnter : ¬ Obligations.MemoryStreamsEnter := by
  intro h
  obtain ⟨hsettled, hfilled, hbound, hquiet⟩ := loadPending_settled
  obtain ⟨hload, -⟩ := h loadPending 1 0 1 0 0 0 (recOf 0x8000 oneWordRecord) hsettled hfilled hbound
  obtain ⟨t, e, hx, -, -, -, -, -, -, -, -, -, hmem⟩ := hload loadPending_record loadPending_mayIssue
  have hne := of_goesOnWith hx sload_performs_walkWrite
  exact bne_iff_ne.1 hne (hmem hquiet)

/-! ## KLOAD -/

/-- The image of a kernel of one bundle, a halt, with no ports and no arguments (R65). -/
def haltImage : List Byte :=
  natBytes 4 0x4B345647 ++ natBytes 4 1 ++ natBytes 2 1 ++ natBytes 6 0x104 ++ natBytes 48 0
    ++ natBytes 64 ((encode .ctlHalt).getD 0).toNat

/-- That image in memory where g2 says. -/
def kloadPending : State :=
  walkPending { ctxs := [(18, { st := .ready, g := [(2, 0x5000)] })] } (cellPuts [] 0x5000 haltImage)

theorem kloadPending_quiet : kloadPending.Filled [1, 2] ∧ kloadPending.acquiring = false ∧ (kloadPending.g 2).toNat = 0x5000
    ∧ kloadPending.PortQuiet := by
  delta State.Filled State.PortQuiet
  decide +kernel

theorem kloadPending_image : kloadPending.pieceFault 0x5000 1 = none ∧ kloadPending.piece 0x5000 = haltImage.take 64
    ∧ kloadPending.pieceFault (0x5000 + 64) 1 = none
    ∧ (List.range 1).flatMap (fun i => kloadPending.piece (0x5000 + 64 + 64 * i)) = haltImage.drop 64 := by
  decide +kernel

theorem haltImage_ok : headerOk (haltImage.take 64) = true ∧ hdrCount (haltImage.take 64) = 1
    ∧ imageFault (haltImage.take 64) (bundlesOf 1 (haltImage.drop 64)) = none := by
  decide +kernel

theorem kload_performs_walkWrite : goesOnWith (exec (.kload 1 2) kloadPending) (fun t => t.mem != kloadPending.mem) = true := by
  decide +kernel

/-- Refutes O28: the loads of KLOAD walk the page table, and a write that the port for walks still owes to the line of a PTE performs
before, which changes memory though the core's own port owes nothing. -/
theorem not_kernelStore : ¬ Obligations.KernelStore := by
  intro h
  obtain ⟨hfilled, hacq, haddr, hquiet⟩ := kloadPending_quiet
  obtain ⟨hheader, hfirst, hbundles, hbytes⟩ := kloadPending_image
  obtain ⟨hok, hcount, himage⟩ := haltImage_ok
  obtain ⟨hload, -⟩ := h kloadPending 1 2 0 hfilled
  simp only [haddr, hfirst, hcount, hbytes] at hload
  obtain ⟨t, hx, -, hmem, -⟩ := hload hacq (by decide) hheader hok hbundles himage (by decide +kernel)
  have hne := of_goesOnWith hx kload_performs_walkWrite
  exact bne_iff_ne.1 hne (hmem hquiet)

/-! ## A copy engine -/

/-- A started copy of one byte under that page table. -/
def oneByteCopy : Entry :=
  { id := 3, owner := .ctx 18, st := .started, work := .copy (.range 0x100 1) (.range 0x200 1) 1, ptb := some 0x1000 }

def copyPending : State := walkPending { entries := [oneByteCopy] } []

theorem copyPending_entry : (copyPending.sc 0).entry? 3 = some oneByteCopy := by decide +kernel

theorem copyPending_quiet : ∀ p ∈ copyPending.pkts, p.2.port = oneByteCopy.work.port 0 → p.2.done = true := by decide +kernel

theorem copyPending_moves : copyPending.moves 0 oneByteCopy = [.read false [0] 0 1] := by decide +kernel

theorem copyPending_place : (copyPending.jobView oneByteCopy).place 0 oneByteCopy.ptb false 0x100 = .here 0x100
    ∧ inMemory (copyPending.jobView oneByteCopy).topo 0x100 = true := by
  decide +kernel

theorem read_performs_walkWrite :
    goesOnWith (exec (.copyEngineTransfer 0 3) copyPending) (fun t => t.byte 0x1008 != copyPending.byte 0x1008) = true := by
  decide +kernel

/-- Refutes O60: a part that a copy engine reads is translated by a walk, and a write that the port for walks still owes to the line of
a PTE performs before, so that a byte of memory changes though the engine's own port owes nothing. -/
theorem not_enginesMoveData : ¬ Obligations.EnginesMoveData := by
  rintro ⟨-, h⟩
  obtain ⟨hmove, -⟩ := h copyPending 0 3 oneByteCopy copyPending_entry rfl copyPending_quiet
  rw [copyPending_moves] at hmove
  obtain ⟨mv, hmv, t, ⟨-, hx, -⟩, heffect⟩ := hmove rfl (List.cons_ne_nil _ _) (by
    rw [List.forall_mem_singleton]
    intro va hva
    obtain rfl : va = 0x100 := by simpa [addrsFrom, Entry.flowAt, Entry.flow, oneByteCopy, pairFlow, Side.addr] using hva
    exact .inr ⟨0x100, copyPending_place⟩)
  obtain rfl := List.mem_singleton.1 hmv
  have hne := of_goesOnWith (hx rfl) read_performs_walkWrite
  exact bne_iff_ne.1 hne (heffect.2 0x1008)

end Sys2Proof.Machine
end

section
/-!
SUPPORT. What an update of the executing context leaves of its cluster, and what one of the cluster leaves of the contexts.
-/

namespace Sys2Proof.Machine

variable (s : State)

@[simp] theorem State.mySc_modMe (f : Ctx → Ctx) : (s.modMe f).mySc = { s.mySc with ctxs := tput s.mySc.ctxs s.cur.ctx (f s.me) } :=
  (s.sc_setCtx _ _ _ _).trans (if_pos rfl)

@[simp] theorem State.mySc_fin : s.fin.mySc = { s.mySc with ctxs := tput s.mySc.ctxs s.cur.ctx s.me.next } := s.mySc_modMe _

@[simp] theorem State.mySc_modMySc (f : Sc → Sc) : (s.modMySc f).mySc = f s.mySc := s.sc_modSc_self _ f

theorem State.ctx_modSc_of (n : Nat) (f : Sc → Sc) (hf : ∀ x, (f x).ctxs = x.ctxs) (m c : Nat) : (s.modSc n f).ctx m c = s.ctx m c :=
  (keepsContexts_modSc s n f hf).2 m c

theorem State.me_modMySc_of (f : Sc → Sc) (hf : ∀ x, (f x).ctxs = x.ctxs) : (s.modMySc f).me = s.me := s.ctx_modSc_of _ f hf _ _

end Sys2Proof.Machine
end

section
/-!
SUPPORT. Waits for scoreboard entries, orders and the record cache (R172, R186, R223), and the statement about them.
-/

namespace Sys2Proof.Machine

variable {s : State} {a : BitVec 5} {h : BitVec 4} {q c : BitVec 1} {m : BitVec 3} {d : Option Nat}

/-- The fields of an instruction on entries name `d`: no stream with H = 0, and the one that the handle is bound to with H = 1. -/
def State.Names (s : State) (q : BitVec 1) (h : BitVec 4) (d : Option Nat) : Prop :=
  (q = 0 → d = none) ∧ (q = 1 → d.isSome = true ∧ tget s.me.h h.toNat = d)

theorem State.Names.handleIf (hd : s.Names q h d) (w : Word) :
    ∃ x, s.handleIf w (q == 1) h = .ok x ∧ (if q = 1 then some x else none) = d := by
  obtain ⟨hnone, hsome⟩ := hd
  rcases BitVec.eq_zero_or_eq_one q with rfl | rfl
  · exact ⟨0, rfl, (hnone rfl).symm⟩
  · obtain ⟨hd, hb⟩ := hsome rfl
    obtain ⟨x, rfl⟩ := Option.isSome_iff_exists.1 hd
    exact ⟨x, (s.handleIf_true w h).trans (by rw [State.handle, hb]), rfl⟩

theorem exec_swait_of_nil (hd : s.Names q h d) (he : s.waitedFor d (c == 1) m.toNat = []) :
    exec (.swait h q c m) s = .next s.fin := by
  obtain ⟨x, hx, rfl⟩ := hd.handleIf (wSX 0x63 0 h 0 0 (q.toNat * 16 + c.toNat * 8 + m.toNat))
  rw [exec_swait, execSwait, (State.Filled.nil s).ctl]
  simp only [hx, he]

theorem exec_swait_of_ne_nil (hd : s.Names q h d) (he : s.waitedFor d (c == 1) m.toNat ≠ []) :
    exec (.swait h q c m) s = .next (s.block (waitOn (c == 1) (s.waitedFor d (c == 1) m.toNat))) := by
  obtain ⟨x, hx, rfl⟩ := hd.handleIf (wSX 0x63 0 h 0 0 (q.toNat * 16 + c.toNat * 8 + m.toNat))
  rw [exec_swait, execSwait, (State.Filled.nil s).ctl]
  simp only [hx]

theorem waitOn_beq (c : BitVec 1) (ids : List Nat) : waitOn (c == 1) ids = if c = 1 then .complete ids else .retired ids := by
  simp only [waitOn, beq_iff_eq]

theorem exec_stest_of (hd : s.Names q h d) (hf : s.Filled [a]) : exec (.stest a h q c m) s =
    .next (s.ret a (if s.waitedFor d (c == 1) m.toNat = [] then 1 else 0)) := by
  obtain ⟨x, hx, rfl⟩ := hd.handleIf (wSX 0x65 a h 0 0 (q.toNat * 16 + c.toNat * 8 + m.toNat))
  rw [exec_stest, execStest, hf.ctl]
  simp only [hx, List.isEmpty_iff]

theorem exec_swaita_of_nil (he : s.ownIds s.cur.sc s.myOwner = []) : exec .swaita s = .next s.fin := by
  rw [exec_swaita, execSwaita, (State.Filled.nil s).ctl]
  simp only [he]

theorem exec_swaita_of_ne_nil (he : s.ownIds s.cur.sc s.myOwner ≠ []) :
    exec .swaita s = .next (s.block (.complete (s.ownIds s.cur.sc s.myOwner))) := by
  rw [exec_swaita, execSwaita, (State.Filled.nil s).ctl]
  simp only

theorem exec_sbar_of_nil (he : s.waitedFor none false m.toNat = []) : exec (.sbar m) s = .next s.fin := by
  simp only [exec_sbar, execSbar, (State.Filled.nil s).ctl, he, List.isEmpty_nil, if_true]

theorem exec_sbar_of_ne_nil (he : s.waitedFor none false m.toNat ≠ []) : exec (.sbar m) s =
    .next (s.modMe fun x => { x with sbars := x.sbars ++ [(m.toNat, s.mySc.nextEntry)] }).fin := by
  simp only [exec_sbar, execSbar, (State.Filled.nil s).ctl, List.isEmpty_iff, he, if_false]

theorem exec_rfence_eq : exec .rfence s = .next (s.modMySc fun t => { t with recs := [] }).fin := by
  rw [exec_rfence, execRfence, (State.Filled.nil s).ctl]

/-- Settles O27: each waits for the entries its fields name, and moves on where there are none. -/
theorem streamWaitsAndBarriers : Obligations.StreamWaitsAndBarriers := by
  intro s a h q c m d hq0 hq1 ids all
  have hd : s.Names q h d := ⟨fun e => (hq0 e).1, hq1⟩
  refine ⟨?swaitMoves, ?swaitWaits, ?swaitaMoves, ?swaitaWaits, ?stest, ?sbarMoves, ?sbarOrders, ?rfence⟩
  case swaitMoves => exact fun he => goesTo_fin (exec_swait_of_nil hd he)
  case swaitWaits =>
    intro he
    rw [← waitOn_beq]
    exact blocks_of (exec_swait_of_ne_nil hd he)
  case swaitaMoves => exact fun he => goesTo_fin (exec_swaita_of_nil he)
  case swaitaWaits => exact fun he => blocks_of (exec_swaita_of_ne_nil he)
  case stest => exact fun hf => writes_of (exec_stest_of hd hf)
  case sbarMoves => exact fun he => goesTo_fin (exec_sbar_of_nil he)
  case sbarOrders =>
    intro he
    refine ⟨_, exec_sbar_of_ne_nil he, ?_⟩
    rw [State.fin, State.modMe_modMe]
    exact ⟨onlyMe_modMe s _, s.me_modMe _⟩
  case rfence =>
    refine ⟨_, exec_rfence_eq, ?_⟩
    have hme := s.me_modMySc_of (fun t => { t with recs := [] }) fun _ => rfl
    rw [State.me_fin, hme, State.mySc_fin, State.mySc_modMySc]
    exact ⟨rfl, rfl, rfl, rfl⟩

end Sys2Proof.Machine
end

section
/-!
SUPPORT. Contexts: their general registers (R190, R198), what starts one (R167, R241), asynchronous traps (R203), and the ends of a PAUSE
and of a wait (R165, R202); and the two statements about them.
-/

namespace Sys2Proof.Machine

variable {s : State} {n c k : Nat} {a : Arrival} {rest : List Arrival}

/-! ## Registers at a start -/

theorem tgetD_cons {β : Type} (j : Nat) (v : β) (l : Tab β) (r : Nat) (d : β) :
    tgetD ((j, v) :: l) r d = if r = j then v else tgetD l r d := by
  rw [tgetD, tget]
  split <;> rfl

theorem tgetD_of_not_mem {β : Type} {l : Tab β} {j : Nat} (h : j ∉ l.map Prod.fst) (d : β) : tgetD l j d = d := by
  cases hg : tget l j with
  | none => rw [tgetD, hg]; rfl
  | some v => exact absurd (List.mem_map_of_mem (f := Prod.fst) (mem_of_tget hg)) h

/-- A table of registers that leaves out those that are 0 reads as the whole table. -/
theorem tgetD_filter_ne_zero {l : Tab Word} (h : (l.map Prod.fst).Nodup) (r : Nat) :
    tgetD (l.filter fun p => p.2 != 0) r 0 = tgetD l r 0 := by
  induction l with
  | nil => rfl
  | cons p l ih =>
    obtain ⟨j, v⟩ := p
    obtain ⟨hj, hl⟩ := List.nodup_cons.1 h
    rw [tgetD_cons]
    by_cases hv : v = 0
    · rw [List.filter_cons_of_neg (by simpa using hv), ih hl]
      split
      · next hr => rw [hr, hv, tgetD_of_not_mem hj]
      · rfl
    · rw [List.filter_cons_of_pos (by simpa using hv), tgetD_cons, ih hl]

theorem Ctx.reg_eq (x : Ctx) {l : Tab Word} (hg : x.g = l.filter fun p => p.2 != 0) (hl : (l.map Prod.fst).Nodup) (r : Nat) :
    x.reg r = if r = 0 then 0 else tgetD l r 0 := by
  rw [Ctx.reg, hg, tgetD_filter_ne_zero hl]

theorem reg_handlerCtx (a : Arrival) (r : Nat) :
    (handlerCtx a).reg r = if r = 1 then a.arg else if r = 2 then BitVec.ofNat 64 a.src else 0 := by
  rw [Ctx.reg_eq (handlerCtx a) (l := [(1, a.arg), (2, BitVec.ofNat 64 a.src)]) rfl (by simp)]
  simp only [tgetD, tget]
  split
  · next h => subst h; rfl
  · split
    · rfl
    · split <;> rfl

theorem reg_startCtx {f : Fut} (hf : f.args = []) (h r : Nat) : (startCtx f h).reg r = if r = 1 then f.arg else 0 := by
  rw [Ctx.reg_eq (startCtx f h) (l := [(1, f.arg)]) (by simp [startCtx, startRegs, hf]) (by simp)]
  simp only [tgetD, tget]
  split
  · next h => subst h; rfl
  · split <;> rfl

/-! ## Message contexts (R167) -/

/-- The lower-numbered message context that is FREE. -/
theorem freeMessage_of (hk : (s.ctx n k).st = .free) (hlow : k = 16 ∨ (k = 17 ∧ (s.ctx n 16).st ≠ .free)) :
    s.freeMessage n = some k := by
  rcases hlow with rfl | ⟨rfl, h16⟩
  · simp [State.freeMessage, hk]
  · simp [State.freeMessage, hk, h16]

/-- The oldest arrival starts it. -/
theorem exec_messageContextStart_of (ha : (s.sc n).arrivals = a :: rest) (hk : s.freeMessage n = some k) :
    exec (.messageContextStart n) s = .next ((s.setCtx n k (handlerCtx a)).modSc n fun t => { t with arrivals := rest }) := by
  rw [exec_messageContextStart, execMessageContextStart, ha, hk]

theorem State.ctx_messageStart (m d : Nat) : ((s.setCtx n k (handlerCtx a)).modSc n fun t => { t with arrivals := rest }).ctx m d =
    if m = n ∧ d = k then handlerCtx a else s.ctx m d :=
  (State.ctx_modSc_of _ n (fun t => { t with arrivals := rest }) (fun _ => rfl) m d).trans (s.ctx_setCtx n k m d _)

theorem State.sameBytes_messageStart :
    SameBytes s ((s.setCtx n k (handlerCtx a)).modSc n fun t => { t with arrivals := rest }) := fun b =>
  (State.byte_modSc _ n (fun t => { t with arrivals := rest }) (fun _ => rfl) b).trans (s.byte_setCtx n k _ b)

/-! ## Dispatch (R241, R332) -/

/-- The context of a task that has not run before, as dispatch starts it. -/
theorem ctx_taskDispatch {y : Cand} (hy : s.pick s.cands = some y) (hk : y.fut = some k) (hn : s.placeOf y = some n)
    (hc : s.freeTask n = some c) (hs : tget s.sleepers k = none) :
    ∃ t, exec .taskDispatch s = .next t ∧ t.ctx n c = { startCtx (s.fut k) (s.handleOf k) with
      dln := BitVec.ofNat 64 y.deadline, bud := budWord y.budget } := by
  have hf : s.candFut y = some k := by rw [State.candFut, hk]
  have hcreate : s.createTask k y = s := by simp only [State.createTask, hk]
  refine ⟨s.runSlice k n c y.deadline y.budget, ?_, ?_⟩
  · simp only [exec_taskDispatch, execTaskDispatch, hy, hn, hf, hc, hcreate]
  · simp only [State.runSlice, hs]
    exact s.ctx_setCtx_self n c _

/-! ## Links (R198) -/

theorem State.reg_me_setG (s : State) (r : BitVec 5) (v : Word) : (s.setG r v).me.reg r.toNat = if r = 0 then 0 else v := by
  rw [State.setG, State.me_modMe, Ctx.reg_setReg]
  by_cases hr : r = 0
  · rw [if_pos hr, hr, if_neg fun h => h.2 rfl]
    exact if_pos rfl
  · rw [if_neg hr, if_pos ⟨rfl, fun h => hr (BitVec.eq_of_toNat_eq h)⟩]

theorem State.Filled.exec_jal (hf : s.Filled [31]) (j : BitVec 24) :
    exec (.jal j) s = .next ((s.setG 31 (s.pc + 4)).jump (s.pc + j.signExtend 64 * 4)) := by
  rw [Machine.exec_jal, execJal, hf.ctl]

/-! ## The statement about registers -/

/-- Settles O24: a register write is one of its table; a start lists the registers that are not 0. -/
theorem generalRegisters : Obligations.GeneralRegisters := by
  refine ⟨fun x r q v => ⟨rfl, rfl, ?write⟩, fun s n c m d r v h => ?others, fun s j hf => ?jal,
    fun s n c k y hy hk hn hc hs ha => ?task, fun s n k a rest ha hk hlow => ?message⟩
  case write => exact x.reg_setReg r q v
  case others => rw [s.ctx_setCtx, if_neg h]
  case jal =>
    refine ⟨_, hf.exec_jal j, ?_⟩
    rw [State.jump, State.me_modMe]
    exact State.reg_me_setG s 31 (s.pc + 4)
  case task =>
    obtain ⟨t, hx, hctx⟩ := ctx_taskDispatch hy hk hn hc hs
    refine ⟨t, hx, fun r => ?_⟩
    rw [hctx]
    exact reg_startCtx ha (s.handleOf k) r
  case message =>
    refine ⟨_, exec_messageContextStart_of ha (freeMessage_of hk hlow), fun r => ?_⟩
    rw [State.ctx_messageStart, if_pos ⟨rfl, rfl⟩]
    exact reg_handlerCtx a r

/-! ## Asynchronous traps (R203) -/

theorem State.trapQ_takeTrap (s : State) (n c cause : Nat) (async : Bool) (v p : Word) :
    ((s.takeTrap n c cause async v p).sc n).trapQ = (s.sc n).trapQ ++ [c] := by
  simp only [State.takeTrap]
  split <;> simp [State.sc, State.setHlth, State.modCtx, State.setCtx, State.modSc, State.setSc]

theorem State.ctx_takeTrap_of_ne (s : State) {n c d : Nat} (cause : Nat) (async : Bool) (v p : Word) (h : d ≠ c) :
    (s.takeTrap n c cause async v p).ctx n d = s.ctx n d := by
  simp only [State.takeTrap]
  split <;> simp [State.ctx, State.sc, State.setHlth, State.modCtx, State.setCtx, State.modSc, State.setSc, tgetD_tput_of_ne _ _ _ h]

theorem exec_asyncTrap_of {cause : Nat} {v : Word} {l : List (Nat × Word)} (hdue : (s.ctx n c).trapDue = true)
    (hp : (s.ctx n c).apend = (cause, v) :: l) : exec (.asyncTrap n c) s =
      .next ((s.takeTrap n c cause true v (s.ctx n c).pc).modCtx n c fun x => { x with apend := l }) := by
  rw [exec_asyncTrap, execAsyncTrap, if_pos hdue, State.takeAsync, hp]

/-! ## The statement about events -/

/-- Settles O42: each event changes the context it names, and a trap or an arrival the queue of its cluster. -/
theorem contextEvents : Obligations.ContextEvents := by
  intro s n c x
  refine ⟨fun cause v l hdue hp => ?trap, fun hp => ?pause, fun w hw hst ho => ?wake, fun w hw ho => ?sleep,
    fun a rest k ha hk hlow => ?message⟩
  case trap =>
    refine ⟨_, exec_asyncTrap_of hdue hp, fun b => ?_, ?_, ?_, fun d hd => ?_⟩
    · rw [State.byte_modCtx, State.byte_takeTrap]
    · rw [State.ctx_modCtx_self, State.ctx_takeTrap]
      rfl
    · rw [State.modCtx, State.sc_setCtx, if_pos rfl]
      exact s.trapQ_takeTrap n c cause true v x.pc
    · rw [State.ctx_modCtx, if_neg fun h => hd h.2, State.ctx_takeTrap_of_ne _ _ _ _ _ hd]
  case pause =>
    rw [exec_pauseExpiry, execPauseExpiry, if_pos hp]
    rfl
  case wake =>
    rw [exec_contextWake, execContextWake, hw]
    exact congrArg _ (if_pos ⟨hst, ho⟩)
  case sleep =>
    rw [exec_contextWake, execContextWake, hw]
    exact congrArg _ (if_neg fun h => Bool.false_ne_true (ho.symm.trans h.2))
  case message =>
    refine ⟨_, exec_messageContextStart_of ha (freeMessage_of hk hlow), State.sameBytes_messageStart, ?_, ?_, ?_, fun d hd => ?_,
      fun r => ?_⟩
    · rw [State.ctx_messageStart, if_pos ⟨rfl, rfl⟩]; rfl
    · rw [State.ctx_messageStart, if_pos ⟨rfl, rfl⟩]; rfl
    · rw [State.sc_modSc_self]
    · rw [State.ctx_messageStart, if_neg fun h => hd h.2]
    · rw [State.ctx_messageStart, if_pos ⟨rfl, rfl⟩]
      exact reg_handlerCtx a r

end Sys2Proof.Machine
end

section
/-!
SUPPORT. Streams in the context (R178, R213-R215), and the statement about them.
-/

namespace Sys2Proof.Machine

variable {s : State} {a b : BitVec 5} {h k : BitVec 4} {w : BitVec 1} {d : Nat}

/-! ## Free descriptors and handles -/

theorem tget_of_thas {α : Type} {t : Tab α} {i : Nat} (h : thas t i = false) : tget t i = none :=
  Option.not_isSome_iff_eq_none.1 (Bool.eq_false_iff.1 h)

theorem State.anyFree_ok {n i : Nat} {ok : Nat → Bool} (hi : ok i = true) : ok (s.anyFree n ok i) = true := by
  unfold State.anyFree
  split
  · assumption
  · exact hi

/-- A free descriptor names no stream (R178). -/
theorem State.tget_streams_freeDesc (hd : s.freeDesc = some d) : tget s.mySc.streams d = none := by
  obtain ⟨i, hi, rfl⟩ := Option.map_eq_some_iff.1 hd
  exact tget_of_thas (by simpa using s.anyFree_ok (n := 128) (List.find?_some hi))

theorem State.newHandle_of (h0 : h ≠ 0) (hb : tget s.me.h h.toNat = none) : s.newHandle h = true := by
  rw [State.newHandle, thas, hb, bne_iff_ne.2 h0]
  rfl

/-- A charge of SRF units touches the budgets of regions and the reservation of the task. -/
theorem State.scs_takeSrf (s : State) (n : Nat) : (s.takeSrf n).scs = s.scs := by
  unfold State.takeSrf
  split <;> rfl

theorem State.cur_takeSrf (s : State) (n : Nat) : (s.takeSrf n).cur = s.cur := by
  unfold State.takeSrf
  split <;> rfl

theorem State.mem_takeSrf (s : State) (n : Nat) : (s.takeSrf n).mem = s.mem := by
  unfold State.takeSrf
  split <;> rfl

/-! ## What an update of the context or of a stream leaves -/

theorem State.stream_modMe (s : State) (f : Ctx → Ctx) (n x : Nat) : (s.modMe f).stream n x = s.stream n x := by
  unfold State.stream State.modMe State.modCtx
  rw [State.sc_setCtx]
  split
  · next h => rw [h]
  · rfl

theorem State.me_setStream (s : State) (n x : Nat) (st : Stream) : (s.setStream n x st).me = s.me :=
  s.ctx_modSc_of n (fun t => { t with streams := tput t.streams x st }) (fun _ => rfl) _ _

theorem groupOfCode_of_ne {g : BitVec 2} (hg : g ≠ 3) : groupOfCode g = if g = 0 then 4 else if g = 1 then 8 else 16 := by
  revert hg; revert g; decide

theorem groupOfCode_ne_zero {g : BitVec 2} (hg : g ≠ 3) : groupOfCode g ≠ 0 := by
  revert hg; revert g; decide

/-! ## What each instruction does -/

/-- The stream that SALLOC makes at an offset: empty, and the executing context's. -/
def State.sallocStream (s : State) (a b : BitVec 5) (g : BitVec 2) (off : Nat) : Stream :=
  { first := (s.g a).toNat, g := groupOfCode g, units := (s.g b).toNat, off := off, owner := s.myOwner, region := s.myRcb }

/-- SALLOC done: the charge made, the stream made, and its handle bound. -/
def State.salloc (s : State) (a b : BitVec 5) (h : BitVec 4) (g : BitVec 2) (d off : Nat) : State :=
  ((((s.takeSrf (groupOfCode g * (s.g b).toNat)).setStream s.cur.sc d (s.sallocStream a b g off)).bind h d).useFree 1).fin

theorem exec_salloc_of {g : BitVec 2} {off : Nat} (hf : s.Filled [a, b]) (hg : g ≠ 3) (hfirst : (s.g a).toNat < 16)
    (hal : (s.g a).toNat % groupOfCode g = 0) (h1 : 1 ≤ (s.g b).toNat) (h2 : (s.g b).toNat ≤ 512) (hn : s.newHandle h = true)
    (hc : s.canCharge (groupOfCode g * (s.g b).toNat) = true) (hd : s.freeDesc = some d)
    (ho : s.mySc.freeUnits (s.g a).toNat (groupOfCode g) (s.g b).toNat = some off)
    (hl : s.coresLive s.cur.sc (s.g a).toNat (groupOfCode g) = true) : exec (.salloc a h b g) s = .next (s.salloc a b h g d off) := by
  have hgg := groupOfCode_ne_zero hg
  have hok : ¬(groupOfCode g = 0 ∨ 16 ≤ (s.g a).toNat ∨ (s.g a).toNat % groupOfCode g ≠ 0 ∨ (s.g b).toNat = 0 ∨
      512 < (s.g b).toNat ∨ s.newHandle h = false) := by
    rw [hn]; simp only [Bool.true_eq_false, or_false]; omega
  rw [exec_salloc, execSalloc, hf.ctl]
  simp only [if_neg hok, hc, Bool.true_eq_false, if_false, hd, ho, hl, if_true]
  rfl

theorem State.me_salloc (s : State) (g : BitVec 2) (d off : Nat) :
    (s.salloc a b h g d off).me = { s.me with h := tput s.me.h h.toNat d, pc := s.me.pc + 4, wait := none } := by
  have hme : (s.takeSrf (groupOfCode g * (s.g b).toNat)).me = s.me := by
    unfold State.me State.ctx State.sc
    rw [State.scs_takeSrf, State.cur_takeSrf]
  rw [State.salloc, State.me_fin]
  change ((State.setStream _ s.cur.sc d _).bind h d).me.next = _
  rw [State.bind, State.me_modMe, State.me_setStream, hme]
  rfl

theorem State.stream_salloc (s : State) (g : BitVec 2) (d off : Nat) :
    (s.salloc a b h g d off).stream s.cur.sc d = s.sallocStream a b g off := by
  rw [State.salloc, State.fin, State.stream_modMe]
  change ((State.setStream _ s.cur.sc d _).bind h d).stream s.cur.sc d = _
  rw [State.bind, State.stream_modMe, State.stream_setStream_self]

theorem onStream_of {x : Word} {rs : List (BitVec 5)} {f : Nat → State → State} (hf : s.Filled rs) (hd : tget s.me.h h.toNat = some d) :
    onStream x h rs s f = .next (f d s) := by
  rw [onStream, hf.ctl, hd]

theorem exec_swr_of (hf : s.Filled [a, b]) (hd : tget s.me.h h.toNat = some d)
    (hi : (s.g b).toNat < (s.str d).rowLen * (s.str d).cap) : exec (.swr a h b) s =
      .next (s.setStream s.cur.sc d ((s.str d).putRow ((s.str d).wp + (s.g b).toNat / (s.str d).rowLen)
        (((s.str d).row ((s.str d).wp + (s.g b).toNat / (s.str d).rowLen)).set ((s.g b).toNat % (s.str d).rowLen)
          ((s.g a).setWidth 32)))).fin := by
  rw [exec_swr, execSwr, onStream_of hf hd]
  simp only [if_neg (Nat.not_le.2 hi)]

theorem exec_smovh_of (hd : tget s.me.h k.toNat = some d) (hne : h ≠ k) (hn : s.newHandle h = true) :
    exec (.smovh h k) s = .next ((s.unbind k).bind h d).fin := by
  rw [exec_smovh, execSmovh, onStream_of (State.Filled.nil s) hd]
  simp only [if_neg hne, hn, if_true]

theorem writes_sptr (hf : s.Filled [a]) (hd : tget s.me.h h.toNat = some d) :
    Writes (.sptr a h w) s a (BitVec.ofNat 64 (if w = 1 then (s.str d).wp else (s.str d).rp)) :=
  writes_of (by rw [exec_sptr, execSptr, onStream_of hf hd])

theorem writes_srd (hf : s.Filled [a, b]) (hd : tget s.me.h h.toNat = some d)
    (hi : (s.g b).toNat < (s.str d).rowLen * (s.str d).cap) :
    Writes (.srd a h b) s a (BitVec.ofNat 64 (((s.str d).row ((s.str d).rp + (s.g b).toNat / (s.str d).rowLen)).getD
      ((s.g b).toNat % (s.str d).rowLen) 0).toNat) :=
  writes_of (by rw [exec_srd, execSrd, onStream_of hf hd, BitVec.ofNat_toNat]; simp only [if_neg (Nat.not_le.2 hi)])

theorem writes_sinfo_bound (hf : s.Filled [a]) (hd : tget s.me.h h.toNat = some d) : Writes (.sinfo a h) s a (s.infoWord d) :=
  writes_of (by rw [exec_sinfo, execSinfo, hf.ctl, hd])

theorem writes_sinfo_unbound (hf : s.Filled [a]) (hd : tget s.me.h h.toNat = none) : Writes (.sinfo a h) s a 0 :=
  writes_of (by rw [exec_sinfo, execSinfo, hf.ctl, hd])

theorem writes_scount (hf : s.Filled [a]) (hd : tget s.me.h h.toNat = some d) (ho : s.lengthOpen d = []) :
    Writes (.scount a h) s a (BitVec.ofNat 64 ((s.str d).len % 2 ^ 32)) :=
  writes_of (by rw [exec_scount, execScount, onStream_of hf hd]; simp only [ho])

theorem blocks_scount (hf : s.Filled [a]) (hd : tget s.me.h h.toNat = some d) (ho : s.lengthOpen d ≠ []) :
    Blocks (.scount a h) s (.retired (s.lengthOpen d)) :=
  blocks_of (b := true) (by rw [exec_scount, execScount, onStream_of hf hd]; simp only)

/-- Settles O26: each instruction runs once its handle is bound and its arguments are good. -/
theorem streamsInContext : Obligations.StreamsInContext := by
  intro s a b h k g w d off hf n i gg st
  have ha : s.Filled [a] := hf.mono (by simp)
  refine ⟨?salloc, fun hd => ⟨writes_sptr ha hd, fun hi => ⟨writes_srd hf hd hi, ?swr⟩, writes_sinfo_bound ha hd,
    writes_scount ha hd, blocks_scount ha hd⟩, ?smovh, writes_sinfo_unbound ha⟩
  case salloc =>
    intro hg hfirst hal h1 h2 h0 hb hc hd ho hl
    have hgg : groupOfCode g = gg := groupOfCode_of_ne hg
    rw [← hgg] at hal hc ho hl ⊢
    refine ⟨_, exec_salloc_of hf hg hfirst hal h1 h2 (State.newHandle_of h0 hb) hc hd ho hl, State.tget_streams_freeDesc hd, ?_, ?_,
      State.mem_takeSrf _ _, State.stream_salloc s g d off⟩
    · rw [State.me_salloc]
      exact tget_tput_self _ _ _
    · rw [State.me_salloc]
  case swr =>
    refine ⟨_, exec_swr_of hf hd hi, ?_, rfl, ?_⟩
    · rw [State.me_fin, State.me_setStream]
      rfl
    · rw [State.fin, State.stream_modMe]
      exact s.stream_setStream_self _ _ _
  case smovh =>
    intro hd h0 hne hb
    refine ⟨_, exec_smovh_of hd hne (State.newHandle_of h0 hb), ?_⟩
    have hk : k.toNat ≠ h.toNat := fun e => hne (BitVec.eq_of_toNat_eq e.symm)
    simp only [State.fin, State.bind, State.unbind, State.modMe_modMe, State.me_modMe]
    refine ⟨tget_tput_self _ _ _, ?_, rfl, rfl, fun r => rfl⟩
    exact (tget_tput_of_ne _ _ hk).trans (tget_tdel_self _ _)
end Sys2Proof.Machine
end

section
/-!
SUPPORT. The completion flag of an entry (R212): what incrementing it leaves of the clusters.
-/

namespace Sys2Proof.Machine

variable {s t u : State}

/-- The scoreboards and the streams of every cluster are those of `s`. -/
def SameJobs (s t : State) : Prop := ∀ n, (t.sc n).entries = (s.sc n).entries ∧ (t.sc n).streams = (s.sc n).streams

theorem SameJobs.refl (s : State) : SameJobs s s := fun _ => ⟨rfl, rfl⟩

theorem SameJobs.trans (h : SameJobs s t) (h' : SameJobs t u) : SameJobs s u :=
  fun n => ⟨(h' n).1.trans (h n).1, (h' n).2.trans (h n).2⟩

theorem SameButLines.sameJobs (h : SameButLines s t) : SameJobs s t := fun n => by rw [h n]; exact ⟨rfl, rfl⟩

theorem SameStore.sameJobs (h : SameStore s t) : SameJobs s t := h.sameButLines.sameJobs

theorem sameJobs_of_scs (h : t.scs = s.scs) : SameJobs s t := fun n => by unfold State.sc; rw [h]; exact ⟨rfl, rfl⟩

theorem SameJobs.stream (h : SameJobs s t) (n d : Nat) : t.stream n d = s.stream n d := by
  rw [State.stream, State.stream, (h n).2]

theorem sameJobs_foldl {α : Type} {f : State → α → State} (hf : ∀ s x, SameJobs s (f s x)) (l : List α) (s : State) :
    SameJobs s (l.foldl f s) := by
  induction l generalizing s with
  | nil => exact .refl s
  | cons x l ih => exact (hf s x).trans (ih _)

theorem sameJobs_modSc (s : State) (n : Nat) (f : Sc → Sc) (hf : ∀ x, (f x).entries = x.entries ∧ (f x).streams = x.streams) :
    SameJobs s (s.modSc n f) := fun m => by
  rw [State.sc_modSc]
  split
  · next h => rw [h]; exact hf _
  · exact ⟨rfl, rfl⟩

/-! ## Requests at the base dies (R284) -/

theorem sameJobs_accCount (s : State) (a n : Nat) : SameJobs s (s.accCount a n) := by
  unfold State.accCount
  dsimp only
  split <;> exact sameJobs_of_scs rfl

/-- A masked write of one block, with the cached copies. -/
theorem sameJobs_blockWrite (s : State) (a : Nat) (v : List (Option Byte)) (acc : Bool) (w : List (Option Byte)) :
    SameJobs s ((s.dieWriteIn a v acc).copyBytes a w) :=
  (sameJobs_of_scs (scs_dieWriteIn s a v acc)).trans (sameButLines_copyBytes _ _ _).sameJobs

theorem sameJobs_replied (s : State) (id st : Nat) (bs : List Byte) : SameJobs s (s.replied id st bs) := sameJobs_of_scs rfl

theorem sameJobs_perform (s : State) (id : Nat) (p : Packet) : SameJobs s (s.perform id p) := by
  unfold State.perform
  split
  · exact (sameStore_readEffect _ _ _).sameJobs.trans (sameJobs_replied _ _ _ _)
  · exact (sameJobs_blockWrite _ _ _ _ _).trans (sameJobs_replied _ _ _ _)
  · exact (sameJobs_blockWrite _ _ _ _ _).trans (sameJobs_replied _ _ _ _)
  · exact ((sameJobs_accCount _ _ _).trans (sameJobs_blockWrite _ _ _ _ _)).trans (sameJobs_replied _ _ _ _)

theorem sameJobs_performEarlier (s : State) (port a n : Nat) : SameJobs s (s.performEarlier port a n) :=
  sameJobs_foldl (f := fun t (q : Nat × Packet) => t.perform q.1 q.2) (fun t q => sameJobs_perform t q.1 q.2) _ s

theorem sameJobs_accumulate (s : State) (a op fmt src : Nat) : SameJobs s (s.accumulate a op fmt src) :=
  (sameJobs_accCount _ _ _).trans (sameButLines_dieWrite _ _ _ _ _).sameJobs

/-! ## Translations (R280) -/

theorem sameJobs_countWalk (s : State) (n : Nat) (l : List Nat) : SameJobs s (s.countWalk n l) :=
  sameJobs_foldl (fun s a => (sameJobs_performEarlier s _ a 8).trans (sameStore_readEffect _ a 8).sameJobs) l s

theorem sameJobs_useScTlb (s : State) (n asid : Nat) (x : Xlat) : SameJobs s (s.useScTlb n asid x) :=
  sameJobs_modSc s n _ fun _ => ⟨rfl, rfl⟩

theorem sameJobs_holdXlat (s : State) (n asid : Nat) (sc : Bool) (x : Xlat) :
    SameJobs s (if sc = true then (s.useDieTlb n asid x).useScTlb n asid x else s.useDieTlb n asid x) := by
  have hdie : SameJobs s (s.useDieTlb n asid x) := sameJobs_of_scs rfl
  split
  · exact hdie.trans (sameJobs_useScTlb _ _ _ _)
  · exact hdie

theorem sameJobs_touch (s : State) (n : Nat) (sc : Bool) (root : Option Word) (va : Nat) : SameJobs s (s.touch n sc root va) := by
  unfold State.touch
  split
  · exact .refl s
  · dsimp only
    split
    · exact .refl s
    · split
      · exact sameJobs_useScTlb _ _ _ _
      · split
        · exact sameJobs_holdXlat _ _ _ _ _
        · split
          · exact sameJobs_countWalk _ _ _
          · exact (sameJobs_countWalk _ _ _).trans (sameJobs_holdXlat _ _ _ _ _)

theorem sameJobs_touchAll (s : State) (n : Nat) (sc : Bool) (root : Option Word) (vas : List Nat) :
    SameJobs s (s.touchAll n sc root vas) :=
  sameJobs_foldl (fun s _ => sameJobs_touch s n sc root _) _ s

/-! ## Flags (R212) -/

theorem sameJobs_agentAcc (s : State) (v : Via) (va op fmt src : Nat) : SameJobs s (s.agentAcc v va op fmt src).2 := by
  have ht := sameJobs_touchAll s v.sc (!v.dce) v.root [va]
  unfold State.agentAcc
  dsimp only
  split
  · split
    · exact ht
    · exact (ht.trans (sameJobs_performEarlier _ _ _ _)).trans (sameJobs_accumulate _ _ _ _ _)
  · exact ht.trans (sameJobs_of_scs rfl)
  · exact ht.trans (sameJobs_of_scs rfl)
  · exact ht.trans (sameJobs_of_scs rfl)

theorem sameJobs_incFlag (s : State) (n : Nat) (root : Option Word) (a : Nat) : SameJobs s (s.incFlag n root a) :=
  sameJobs_agentAcc s _ a 0 16 1

end Sys2Proof.Machine
end

section
/-!
SUPPORT. Scoreboard entries: how one starts, does the step of its job, retires and completes (R171, R174, R213, R222), what is freed
later (R177, R179), and the statement about them.
-/

namespace Sys2Proof.Machine

variable {s t : State} {n e d k : Nat} {x y : Entry}

/-! ## Entries by their number -/

theorem Sc.id_of_entry? {u : Sc} (h : u.entry? e = some x) : x.id = e := by simpa using List.find?_some h

theorem State.entries_modEntry (s : State) (n e : Nat) (f : Entry → Entry) :
    ((s.modEntry n e f).sc n).entries = (s.sc n).entries.map (fun y => if y.id = e then f y else y) := by
  rw [State.modEntry, State.sc_modSc_self]

theorem State.stream_modEntry (s : State) (n e : Nat) (f : Entry → Entry) (m d : Nat) :
    (s.modEntry n e f).stream m d = s.stream m d := by
  unfold State.stream State.modEntry
  rw [State.sc_modSc]
  split
  · next h => rw [h]
  · rfl

theorem keepsCtxs_modEntry (s : State) (n e : Nat) (f : Entry → Entry) : KeepsCtxs s (s.modEntry n e f) :=
  keepsCtxs_modSc s n _ fun _ => ⟨rfl, rfl⟩

theorem keepsCtxs_setStream (s : State) (n d : Nat) (v : Stream) : KeepsCtxs s (s.setStream n d v) :=
  keepsCtxs_modSc s n _ fun _ => ⟨rfl, rfl⟩

/-- An update that keeps numbers reaches the entry of its number. -/
theorem State.entry?_modEntry (h : (s.sc n).entry? e = some x) {f : Entry → Entry} (hf : ∀ y, (f y).id = y.id) :
    ((s.modEntry n e f).sc n).entry? e = some (f x) := by
  have hid : (fun z : Entry => z.id == e) ∘ (fun y => if y.id = e then f y else y) = fun z => z.id == e := by
    funext y
    simp only [Function.comp]
    split <;> simp [hf]
  rw [Sc.entry?, State.entries_modEntry, List.find?_map, hid]
  exact (congrArg _ h).trans (congrArg some (if_pos (Sc.id_of_entry? h)))

/-- Entries that differ in those of a number are the same without these. -/
theorem filter_map_id {l : List Entry} {f : Entry → Entry} (hf : ∀ y, (f y).id = y.id) :
    (l.map fun y => if y.id = e then f y else y).filter (fun y => y.id != e) = l.filter fun y => y.id != e := by
  induction l with
  | nil => rfl
  | cons y l ih =>
    by_cases hy : y.id = e
    · simp [hf, hy, ih]
    · simp [hy, ih]

/-! ## Starts (R171) -/

theorem exec_entryStart_of (hx : (s.sc n).entry? e = some x) (hc : (s.sc n).couldStart x = true)
    (ho : ∀ y ∈ (s.sc n).entries, y.id < e → y.work.engine = x.work.engine → (s.sc n).couldStart y = false) :
    exec (.entryStart n e) s = .next (s.modSc n fun u => u.start e) := by
  have hno : (s.sc n).entries.any (fun y => y.id < e && y.work.engine == x.work.engine && (s.sc n).couldStart y) = false := by
    refine List.any_eq_false.2 fun y hy => ?_
    simp only [Bool.and_eq_true, decide_eq_true_eq, beq_iff_eq, not_and, and_imp]
    intro hlt heq hcould
    exact Bool.false_ne_true ((ho y hy hlt heq).symm.trans hcould)
  rw [exec_entryStart, execEntryStart]
  simp only [hx, hc, hno, Bool.not_false, Bool.and_self, if_true]

/-! ## Steps of a job (R189, R276, R288, R397) -/

theorem State.engineTurn_of (hx : (s.sc n).entry? e = some x) (hst : x.st = .started) (hj : s.jobStep n x = some t) :
    s.engineTurn x.work.engine n e = t := by
  have hgo : x.st ≠ .waiting := by rw [hst]; decide
  simp only [State.engineTurn, hx, ne_eq, hgo, not_false_iff, and_self, if_true, hj, Option.getD_some]

theorem exec_streamAgentTransfer_of (hx : (s.sc n).entry? e = some x) (hst : x.st = .started) (hj : s.jobStep n x = some t)
    (hg : x.work.engine = .agent) : exec (.streamAgentTransfer n e) s = .next t := by
  rw [exec_streamAgentTransfer, execStreamAgentTransfer, ← hg, State.engineTurn_of hx hst hj]

theorem exec_copyEngineTransfer_of (hx : (s.sc n).entry? e = some x) (hst : x.st = .started) (hj : s.jobStep n x = some t)
    (hg : x.work.engine = .copier) : exec (.copyEngineTransfer n e) s = .next t := by
  rw [exec_copyEngineTransfer, execCopyEngineTransfer, ← hg, State.engineTurn_of hx hst hj]

/-- The DCE's first job steps where the other SC of its die has no work. -/
theorem exec_dceBlockWrite_of (hx : (s.sc n).entry? e = some x) (hst : x.st = .started) (hj : s.jobStep n x = some t)
    (hg : x.work.engine = .dce) (hne : t ≠ s) (htwin : s.dceWork (twin n) = false) (hfirst : (s.sc n).dceFirst = some e) :
    exec (.dceBlockWrite n e) s = .next { t with dceLast := tput t.dceLast (n / 2) n } := by
  have hturn := State.engineTurn_of hx hst hj
  rw [hg] at hturn
  simp only [exec_dceBlockWrite, execDceBlockWrite, htwin, hfirst, bne_self_eq_false, Bool.false_and, Bool.or_self,
    Bool.false_eq_true, if_false, hturn, beq_iff_eq, hne]

/-- What a step leaves of the accesses of other packages that it made: none (R276). -/
def Fabric.noFar (b : Fabric) : Fabric := { b with farGot := [], farMiss := [], farOps := [] }

/-- A step of a job that reached no other package, done. -/
def State.stepped (s : State) (n e : Nat) : State := (s.modEntry n e fun y => { y with far := [] }).modFab Fabric.noFar

theorem State.farStep_local {f : State → Option State} (hf : f (s.jobView x) = some t) (hm : t.fab.farMiss = [])
    (ho : t.fab.farOps = []) : s.farStep n x f = some (t.stepped n x.id) := by
  simp only [State.farStep, hf, hm, ho, List.isEmpty_nil, if_true, State.sendFars, Option.map_some]
  rfl

theorem sameStore_modFab (s : State) (f : Fabric → Fabric) : SameStore s (s.modFab f) := ⟨rfl, rfl, rfl, rfl, rfl, rfl⟩

theorem State.sameBytes_stepped (s : State) (n e : Nat) : SameBytes s (s.stepped n e) := fun a =>
  ((sameStore_modFab _ _).sameBytes a).trans ((keepsCtxs_modEntry s n e _).sameBytes a)

theorem State.ctx_stepped (s : State) (n e m c : Nat) : (s.stepped n e).ctx m c = s.ctx m c :=
  ((sameStore_modFab _ _).ctx m c).trans ((keepsCtxs_modEntry s n e _).ctx m c)

theorem State.stream_stepped (s : State) (n e m d : Nat) : (s.stepped n e).stream m d = s.stream m d :=
  s.stream_modEntry n e _ m d

theorem State.entries_stepped (s : State) (n e : Nat) :
    ((s.stepped n e).sc n).entries = (s.sc n).entries.map (fun y => if y.id = e then { y with far := [] } else y) :=
  s.entries_modEntry n e _

/-! ## Entries that move no data -/

/-- The next action of an entry with no flow and no index is what it does besides. -/
theorem State.moveJob_of_empty (h1 : x.flow = {}) (h2 : x.flow2 = {}) (hi : x.index = none) : s.moveJob n x = s.moveElse n x := by
  have hm : s.moves n x = [] := by
    simp [State.moves, State.flowMoves, h1, h2, hi, Flow.unsent, Flow.uncombined, Flow.unread, requests]
  rw [State.moveJob, State.moveData, hm]
  split <;> rfl

/-- A step of a stream that moves no data: one end of the stream, and the entry's count. -/
def State.streamStep (s : State) (n d : Nat) (x : Entry) (v : Stream) (f : Entry → Entry) : State :=
  (((s.jobView x).setStream n d v).modEntry n x.id f).stepped n x.id

theorem State.stream_streamStep (s : State) (n d : Nat) (x : Entry) (v : Stream) (f : Entry → Entry) :
    (s.streamStep n d x v f).stream n d = v := by
  rw [State.streamStep, State.stream_stepped, State.stream_modEntry, State.stream_setStream_self]

theorem State.sameBytes_streamStep (s : State) (n d : Nat) (x : Entry) (v : Stream) (f : Entry → Entry) :
    SameBytes s (s.streamStep n d x v f) := fun a => by
  rw [State.streamStep, State.sameBytes_stepped, (keepsCtxs_modEntry _ n x.id f).sameBytes a, (keepsCtxs_setStream _ n d v).sameBytes a]
  exact (sameStore_modFab _ _).sameBytes a

/-- One position of a fill that keeps what stands there (R213). -/
theorem State.jobStep_fill {v : W32} (hw : x.work = .fill d v true k) (hk : x.idone < k) (hsp : (s.stream n d).space ≠ 0) :
    s.jobStep n x = some (s.streamStep n d x ((s.stream n d).publish 1) fun y => { y with idone := y.idone + 1 }) := by
  refine State.farStep_local ?_ rfl rfl
  rw [State.moveJob_of_empty (by rw [Entry.flow, hw]) (by rw [Entry.flow2, hw]) (by rw [Entry.index, hw])]
  have hgo : ¬(decide (k ≤ x.idone) || decide ((s.stream n d).space = 0)) = true := by
    simp only [Bool.or_eq_true, decide_eq_true_eq]; omega
  rw [State.moveElse, hw]
  exact (if_neg hgo).trans rfl

/-- The step of a reset (R213). -/
theorem State.jobStep_sreset (hw : x.work = .sreset d) (hi : x.idone = 0) :
    s.jobStep n x = some (s.streamStep n d x { s.stream n d with rp := 0, wp := 0, len := 0, data := [] }
      fun y => { y with idone := 1 }) := by
  refine State.farStep_local ?_ rfl rfl
  rw [State.moveJob_of_empty (by rw [Entry.flow, hw]) (by rw [Entry.flow2, hw]) (by rw [Entry.index, hw]), State.moveElse, hw]
  exact (if_pos hi).trans rfl

/-! ## Lengths (R222) -/

theorem State.entries_setStream (s : State) (n d : Nat) (v : Stream) (m : Nat) :
    ((s.setStream n d v).sc m).entries = (s.sc m).entries := by
  rw [State.setStream, State.sc_modSc]
  split
  · next h => rw [h]
  · rfl

/-- The lengths are set by replacing streams alone. -/
theorem State.retireLens_of {P : State → Prop} (hP : ∀ t d v, P t → P (t.setStream n d v)) (h : P s) (w : Work) :
    P (s.retireLens n w) := by
  have hside : ∀ (y : Side) (b : Nat), P (s.sideLen n y b) := fun y b => by
    unfold State.sideLen
    split
    · exact hP _ _ _ h
    · exact h
  cases w with
  | fill => exact hP _ _ _ h
  | load r d o =>
    cases o with
    | none => exact hP _ _ _ h
    | some y => exact hP _ _ _ (hP _ _ _ h)
  | gather => exact hP _ _ _ h
  | copy x y k => exact hside y k
  | casStream => exact hP _ _ _ h
  | decomp => exact hP _ _ _ h
  | nvme port ns lba k st lb dst => exact hside dst (k * lb)
  | rget y k r => exact hside y k
  | _ => exact h

theorem keepsCtxs_retireLens (s : State) (n : Nat) (w : Work) : KeepsCtxs s (s.retireLens n w) :=
  State.retireLens_of (P := KeepsCtxs s) (fun _ _ _ h => h.trans (keepsCtxs_setStream _ _ _ _)) (.refl s) w

theorem State.entries_retireLens (s : State) (n : Nat) (w : Work) : ((s.retireLens n w).sc n).entries = (s.sc n).entries :=
  State.retireLens_of (P := fun t => (t.sc n).entries = (s.sc n).entries) (fun t _ _ h => (t.entries_setStream _ _ _ _).trans h) rfl w

theorem State.len_setLen (s : State) (n d k : Nat) : ((s.setLen n d k).stream n d).len = wrap32 k := by
  rw [State.setLen, State.stream_setStream_self]

/-! ## Retiring and completing (R174) -/

theorem exec_entryRetire_of (hx : (s.sc n).entry? e = some x) (hst : x.st = .started) (hf : x.finished = true) :
    exec (.entryRetire n e) s = .next (s.retireEntry n x) := by
  rw [exec_entryRetire, execEntryRetire]
  simp only [hx, if_pos (And.intro hst hf)]

theorem State.retireEntry_early (hw : x.work.early = true) :
    s.retireEntry n x = s.modEntry n x.id fun y => { y with st := .retired } := if_pos hw

theorem State.retireEntry_remote (hw : x.work.early = false) (hr : x.remote ≠ []) : s.retireEntry n x = s := by
  simp [State.retireEntry, hw, hr]

/-- An entry with no status to write retires and completes at once. -/
theorem State.retireEntry_completes (hx : (s.sc n).entry? e = some x) (hw : x.work.early = false) (hr : x.remote = [])
    (hs : x.work.status = 0) :
    s.retireEntry n x = (((s.jobView x).stepped n x.id).retireLens n x.work).completeEntry n x := by
  obtain rfl := Sc.id_of_entry? hx
  have hstatus : (s.jobView x).storageStatus n x = s.jobView x := by
    unfold State.storageStatus
    split
    · next h => rw [h] at hs; exact if_pos hs
    · rfl
  have hfar : s.farStep n x (fun t => some (t.storageStatus n x)) = some ((s.jobView x).stepped n x.id) :=
    State.farStep_local (congrArg some hstatus) rfl rfl
  have hentry : (((s.jobView x).stepped n x.id).sc n).entry? x.id = some { x with far := [] } :=
    State.entry?_modEntry (s := s.jobView x) (f := fun y => { y with far := [] }) hx fun _ => rfl
  simp only [State.retireEntry, hw, hr, hfar, hentry, List.isEmpty_nil, Bool.false_eq_true, Bool.not_true, if_true, if_false]

theorem exec_entryComplete_of (hx : (s.sc n).entry? e = some x) (hst : x.st = .retired) (hs : x.sent = true) (hr : x.remote = []) :
    exec (.entryComplete n e) s = .next (s.completeEntry n x) := by
  rw [exec_entryComplete, execEntryComplete]
  simp only [hx, if_pos (And.intro hst (And.intro hs hr))]

theorem exec_entryComplete_wait (hx : (s.sc n).entry? e = some x) (hw : x.sent = false ∨ x.remote ≠ []) :
    exec (.entryComplete n e) s = .next s := by
  have hno : ¬(x.st = .retired ∧ x.sent = true ∧ x.remote = []) := fun ⟨_, hs, hr⟩ =>
    hw.elim (fun h => Bool.false_ne_true (h.symm.trans hs)) fun h => h hr
  rw [exec_entryComplete, execEntryComplete]
  simp only [hx, if_neg hno]

theorem sameJobs_flag (s : State) (n : Nat) (x : Entry) :
    SameJobs s (match x.flag with | some a => s.incFlag n x.ptb a | none => s) := by
  split
  · exact sameJobs_incFlag _ _ _ _
  · exact .refl s

theorem State.entries_completeEntry (s : State) (n : Nat) (x : Entry) :
    ((s.completeEntry n x).sc n).entries = (s.sc n).entries.filter fun y => y.id != x.id := by
  rw [State.completeEntry, State.sc_modSc_self, Sc.dropEntry]
  exact congrArg _ (sameJobs_flag s n x n).1

theorem State.stream_completeEntry (s : State) (n : Nat) (x : Entry) (d : Nat) :
    (s.completeEntry n x).stream n d = s.stream n d := by
  rw [← (sameJobs_flag s n x).stream n d, State.completeEntry, State.stream, State.sc_modSc_self]
  rfl

/-! ## What is freed later (R177, R179) -/

theorem exec_kernelStoreRelease_of {i : Image} (hi : tget (s.sc n).images k = some i) (hf : i.freed = true)
    (hr : ∀ r ∈ (s.sc n).runs, r.2.kernel = k → r.2.gen = i.gen → r.2.phase = .retired) :
    exec (.kernelStoreRelease n k) s = .next (s.modSc n fun u => { u with images := tdel u.images k }) := by
  have hno : (s.sc n).runs.any (fun r => r.2.kernel == k && r.2.gen == i.gen && r.2.phase != .retired) = false := by
    refine List.any_eq_false.2 fun r hm => ?_
    simp only [Bool.and_eq_true, beq_iff_eq, bne_iff_ne, not_and, and_imp, ne_eq, not_not]
    exact hr r hm
  rw [exec_kernelStoreRelease, execKernelStoreRelease]
  simp only [hi, hf, hno, Bool.not_false, Bool.and_self, if_true]

theorem exec_streamDeferredFree_of {v : Stream} (hv : tget (s.sc n).streams d = some v) (hd : v.dying = true)
    (hu : ∀ z ∈ (s.sc n).entries, z.uses d = true → z.st = .retired) :
    exec (.streamDeferredFree n d) s = .next (s.freeStream n d) := by
  have hno : (s.sc n).entries.any (fun z => z.uses d && z.st != .retired) = false := by
    refine List.any_eq_false.2 fun z hz => ?_
    simp only [Bool.and_eq_true, bne_iff_ne, not_and, ne_eq, not_not]
    exact hu z hz
  rw [exec_streamDeferredFree, execStreamDeferredFree]
  simp only [hv, hd, hno, Bool.not_false, Bool.and_self, if_true]

theorem State.sc_freeStream (s : State) (n d : Nat) :
    (s.freeStream n d).sc n = { s.sc n with streams := tdel (s.sc n).streams d } := by
  rw [State.freeStream, State.sc_modSc_self]
  rfl

theorem State.sameBytes_freeStream (s : State) (n d : Nat) : SameBytes s (s.freeStream n d) := fun a =>
  (State.byte_modSc _ n (fun u => { u with streams := tdel u.streams d }) (fun _ => rfl) a).trans
    (State.byte_congr rfl rfl rfl rfl rfl (fun _ => rfl) a)

/-- Settles O43: one lemma for each event. -/
theorem entriesRunToCompletion : Obligations.EntriesRunToCompletion := by
  intro s n e x hx u
  have hid : x.id = e := Sc.id_of_entry? hx
  refine ⟨?start, fun t hst hj => ⟨exec_streamAgentTransfer_of hx hst hj, exec_copyEngineTransfer_of hx hst hj,
    exec_dceBlockWrite_of hx hst hj⟩, ?fill, ?reset, ?early, ?retire, ?remote, ?complete,
    fun _ hw => exec_entryComplete_wait hx hw, ?release, ?free⟩
  case start =>
    intro hc ho
    refine ⟨_, exec_entryStart_of hx hc ho, onlySc_modSc s n _, s.byte_modSc n _ fun _ => rfl, ?_⟩
    rw [State.sc_modSc_self]
    exact ⟨rfl, rfl, rfl⟩
  case fill =>
    intro d v k hst hw hk hsp
    exact ⟨_, exec_streamAgentTransfer_of hx hst (State.jobStep_fill hw hk hsp) (by rw [hw]; rfl), s.stream_streamStep n d x _ _,
      s.sameBytes_streamStep n d x _ _⟩
  case reset =>
    intro d hst hw hi
    refine ⟨_, exec_streamAgentTransfer_of hx hst (State.jobStep_sreset hw hi) (by rw [hw]; rfl), ?_⟩
    rw [State.stream_streamStep]
    exact ⟨rfl, rfl, rfl, s.sameBytes_streamStep n d x _ _⟩
  case early =>
    intro hst hf hw
    refine ⟨_, exec_entryRetire_of hx hst hf, ?_⟩
    rw [State.retireEntry_early hw, hid]
    exact ⟨onlySc_modSc s n _, (keepsCtxs_modEntry s n e _).sameBytes, s.entries_modEntry n e _⟩
  case retire =>
    intro hst hf hw hr hs
    refine ⟨((s.jobView x).stepped n x.id).retireLens n x.work, _, exec_entryRetire_of hx hst hf, fun a => ?bytes, fun m c => ?ctxs, ?_⟩
    case bytes =>
      rw [(keepsCtxs_retireLens _ n x.work).sameBytes a, State.sameBytes_stepped]
      exact (sameStore_modFab _ _).sameBytes a
    case ctxs =>
      rw [(keepsCtxs_retireLens _ n x.work).ctx m c, State.ctx_stepped]
      exact (sameStore_modFab _ _).ctx m c
    rw [State.retireEntry_completes hx hw hr hs]
    refine ⟨by subst hid; rfl, ?entries, fun d w b k hfill => ?fillLen, fun r d hload => ?loadLen⟩
    case entries =>
      rw [State.entries_completeEntry, State.entries_retireLens, State.entries_stepped, hid]
      exact filter_map_id fun _ => rfl
    case fillLen =>
      rw [State.stream_completeEntry, hfill, State.retireLens, State.len_setLen, State.stream_stepped]
      rfl
    case loadLen =>
      rw [State.stream_completeEntry, hload]
      exact State.len_setLen _ _ _ _
  case remote =>
    intro hst hf hw hr
    rw [exec_entryRetire_of hx hst hf, State.retireEntry_remote hw hr]
  case complete =>
    intro hst hs hr
    have hexec := exec_entryComplete_of hx hst hs hr
    rw [State.completeEntry, hid] at hexec
    refine ⟨fun hflag => ?none, fun a hflag => ?some⟩
    case none =>
      simp only [hflag] at hexec
      refine ⟨_, hexec, onlySc_modSc s n _, s.byte_modSc n _ fun _ => rfl, ?_⟩
      rw [State.sc_modSc_self]
      rfl
    case some =>
      simp only [hflag] at hexec
      exact hexec
  case release =>
    intro k i hi hf hr
    refine ⟨_, exec_kernelStoreRelease_of hi hf hr, onlySc_modSc s n _, s.byte_modSc n _ fun _ => rfl, ?_⟩
    rw [State.sc_modSc_self]
    exact ⟨tget_tdel_self _ _, rfl⟩
  case free =>
    intro d v hv hd hu
    refine ⟨_, exec_streamDeferredFree_of hv hd hu, s.sameBytes_freeStream n d, ?_⟩
    rw [State.sc_freeStream]
    exact ⟨tget_tdel_self _ _, rfl⟩

end Sys2Proof.Machine
end

section
/-!
SUPPORT. What a walk performs (R278, R284), for the accesses of the control core.  Six statements say that an access leaves the bytes of
memory, and exclude requests still to perform at the core's own port alone; the write that stands at the walkers' port in `walkPending`
refutes them: the access translates, the walk reads a PTE of that write's unit, and the write performs before (R284).
-/

namespace Sys2Proof.Machine

/-- The state of `walkPending` with context 18 READY and an address in its g1; context 1 is TRAPPED. -/
def accessPending (v : Word) : State :=
  walkPending { ctxs := [(1, { st := .trapped }), (18, { st := .ready, g := [(1, v)] })] } []

/-- The translation of address 0x100 under that page table. -/
def firstPage : Xlat := { size := 2, pa := 0x100, x := true, w := true, r := true }

/-- An instruction that walks the page table of `accessPending`: the byte that the port for walks owes has been written. -/
def WalksIn (v : Word) (i : Instr) : Prop := goesOnWith (exec i (accessPending v)) (fun t => t.byte 0x1008 != 0) = true

theorem accessPending_lines (v : Word) (n : Nat) : ((accessPending v).sc n).lines = [] := by
  by_cases hn : n = 0
  · subst hn; rfl
  · simp [State.sc, tgetD, accessPending, walkPending, tget, hn]

theorem accessPending_byte (v : Word) : (accessPending v).byte 0x1008 = 0 := by
  rw [State.byte_congr (s := accessPending 0) (t := accessPending v) rfl rfl rfl rfl rfl fun n => by
    rw [accessPending_lines, accessPending_lines]]
  decide

/-- Such an instruction does not leave every byte. -/
theorem WalksIn.not_sameBytes {v : Word} {i : Instr} {t : State} (hw : WalksIn v i) (hx : exec i (accessPending v) = .next t) :
    ¬SameBytes (accessPending v) t := fun hb => by
  have hne := of_goesOnWith (p := fun t => t.byte 0x1008 != 0) hx hw
  exact bne_iff_ne.1 hne ((hb 0x1008).trans (accessPending_byte v))

/-- Such an instruction does not trap as R203 says, which leaves memory. -/
theorem WalksIn.not_traps {v w p : Word} {i : Instr} {cause : Nat} (hw : WalksIn v i) : ¬Traps i (accessPending v) cause w p :=
  fun ⟨_, hx, hb, _⟩ => hw.not_sameBytes hx hb

/-! ## Accesses that translate -/

theorem accessPending_filled (v : Word) : (accessPending v).Filled [2, 1] := by
  show (accessPending 0).Filled [2, 1]
  delta State.Filled
  decide

theorem accessPending_quiet : (accessPending 0x100).Quiet 0x100 := by
  delta State.Quiet
  decide

theorem accessPending_check (store : Bool) : ((accessPending 0x100).walked 0x100 8).check store 0x100 8 = .ok firstPage
    ∧ ((accessPending 0x100).walked 0x100 8).needsTag firstPage = none := by
  cases store <;> decide

theorem accessPending_safe : (accessPending 0x100).Safe := by
  refine ⟨by decide, fun n k l hl => ?_⟩
  rw [accessPending_lines] at hl
  cases hl

theorem ld_walks : WalksIn 0x100 (.ld 2 1 0) := by unfold WalksIn; decide

/-- Refutes O15: the walk of a load's address performs a write that the port for walks still owes to the unit of a PTE, which changes
memory though the core's own port owes nothing and no line is replaced. -/
theorem not_cachedLoads : ¬ Obligations.CachedLoads := by
  intro h
  obtain ⟨hcheck, htag⟩ := accessPending_check false
  obtain ⟨hloads, -⟩ := h (accessPending 0x100) 2 1 0 0 firstPage (by decide)
  obtain ⟨-, -, -, -, -, -, hld, -⟩ := hloads (accessPending_filled _)
  obtain ⟨t, w, hx, -, -, -, -, hquiet⟩ := hld hcheck rfl (by decide) htag (by decide)
  exact ld_walks.not_sameBytes hx (hquiet accessPending_quiet).1

/-- Refutes O16: the walk of a store's address performs a write that the port for walks still owes to the unit of a PTE, so that with
the line filled another byte than the store's reads otherwise than before. -/
theorem not_cachedStores : ¬ Obligations.CachedStores := by
  intro h
  obtain ⟨hcheck, htag⟩ := accessPending_check true
  obtain ⟨-, -, -, hsd, -⟩ := h (accessPending 0x100) 2 1 0 firstPage (accessPending_filled _) accessPending_safe (by decide)
  obtain ⟨t, -, -, -, hquiet⟩ := hsd hcheck rfl (by decide) htag (by decide) (by decide)
  have hbyte : (((accessPending 0x100).walked 0x100 8).leaveTagQ.fillLine 0 0x100).byte 0x1008 = 1 := by decide
  have hsame := hquiet accessPending_quiet 0x1008
  exact absurd (hbyte.symm.trans (hsame.trans (accessPending_byte _))) (by decide)

/-- Refutes O19: the walk of the address of a data-cache instruction performs a write that the port for walks still owes to the unit of
a PTE. -/
theorem not_dataCacheInstructions : ¬ Obligations.DataCacheInstructions := by
  intro h
  obtain ⟨-, hsame, -⟩ := h (accessPending 0x100) 1 0 ((accessPending_filled _).mono (by simp))
  have hbyte : ((accessPending 0x100).touchMe 0x100).byte 0x1008 = 1 := by decide
  exact absurd (hbyte.symm.trans ((hsame 0x1008).trans (accessPending_byte _))) (by decide)

/-! ## Accesses that trap PAGE_FAULT at an address that no page holds -/

theorem lb_walks : WalksIn 0x40000000 (.lb 2 1 0) := by unfold WalksIn; decide
theorem ldm_walks : WalksIn 0x40000000 (.ldm 2 1 0) := by unfold WalksIn; decide
theorem csave_walks : WalksIn 0x40000000 (.csave 1 1) := by unfold WalksIn; decide +kernel

/-- Refutes O17: a load whose address does not translate walks the page table before it traps PAGE_FAULT, and the walk performs a write
that the port for walks still owes to the unit of a PTE. -/
theorem not_accessesThatTrapOrLeaveTheCache : ¬ Obligations.AccessesThatTrapOrLeaveTheCache := by
  rintro ⟨h, -⟩
  obtain ⟨-, hfault⟩ := h (accessPending 0x40000000) 2 1 0 (accessPending_filled _) (.lb 2 1 0, 1) (List.mem_cons_self ..)
  exact lb_walks.not_traps (hfault (by decide) (by decide))

/-- Refutes O18: an LDM whose first dword does not translate walks the page table before it traps, and the walk performs a write that
the port for walks still owes to the unit of a PTE, so that a byte changes. -/
theorem not_multipleLoadsAndStores : ¬ Obligations.MultipleLoadsAndStores := by
  intro h
  have hwait : (accessPending 0x40000000).me.wait = none := rfl
  obtain ⟨-, -, hfault, -⟩ := h (accessPending 0x40000000) 2 1 0 ((accessPending_filled _).mono (by decide)) (by decide)
    (fun _ _ _ _ hparts => by rw [hwait] at hparts; cases hparts)
  exact ldm_walks.not_traps (hfault (5, 0x40000000) (by decide))

/-- Refutes O23: a CSAVE to an area that does not translate walks the page table before it traps, and the walk performs a write that
the port for walks still owes to the unit of a PTE, so that a byte changes. -/
theorem not_contextSaveAndLoad : ¬ Obligations.ContextSaveAndLoad := by
  intro h
  obtain ⟨-, -, -, harea⟩ := h (accessPending 0x40000000) 1 1 (by decide) ((accessPending_filled _).mono (by simp)) (by decide)
  obtain ⟨-, hfault, -⟩ := harea (by decide) (by decide) (by decide) (by decide)
  exact csave_walks.not_traps (hfault (5, 0x40000000) (by decide)).1

end Sys2Proof.Machine
end

section
/-!
SUPPORT. The integer instructions of the control core (R196, R197), and the statement about them.
-/

namespace Sys2Proof.Machine

/-! ## Products, quotients and remainders (R196) -/

section Words

variable (x y : Word)

theorem toInt_mulHs : (mulHs x y).toInt = x.toInt * y.toInt / 2 ^ 64 := by
  have hlo : -(2 ^ 126) ≤ x.toInt * y.toInt := BitVec.le_toInt_mul_toInt
  have hhi : x.toInt * y.toInt ≤ 2 ^ 126 := BitVec.toInt_mul_toInt_le
  exact BitVec.toInt_ofInt_eq_self (by decide) (by omega) (by omega)

theorem toNat_mulHz : (mulHz x y).toNat = x.toNat * y.toNat / 2 ^ 64 := by
  rw [mulHz, BitVec.toNat_ofNat, Nat.mod_eq_of_lt (Nat.div_lt_of_lt_mul (Nat.mul_lt_mul'' x.isLt y.isLt))]

/-- The quotient of the least number by -1 is no signed word, and stays the dividend. -/
theorem divS_spec : (y = 0 → (divS x y).toInt = -1)
    ∧ (y ≠ 0 → ¬(x.toInt = -2 ^ 63 ∧ y.toInt = -1) → (divS x y).toInt = x.toInt.tdiv y.toInt)
    ∧ (x.toInt = -2 ^ 63 ∧ y.toInt = -1 → divS x y = x) := by
  refine ⟨?zero, ?quotient, ?overflow⟩
  case zero =>
    rintro rfl
    rfl
  case quotient =>
    intro hy hov
    rw [divS, if_neg hy, BitVec.toInt_ofInt, ← BitVec.toInt_sdiv]
    refine BitVec.toInt_sdiv_of_ne_or_ne x y (not_and_or.1 fun ⟨hx, hy'⟩ => hov ?_)
    rw [hx, hy']
    decide
  case overflow =>
    rintro ⟨hx, hy⟩
    obtain rfl : x = BitVec.intMin 64 := BitVec.eq_of_toInt_eq hx
    obtain rfl : y = -1 := BitVec.eq_of_toInt_eq hy
    decide

theorem divZ_spec : (y = 0 → (divZ x y).toNat = 2 ^ 64 - 1) ∧ (y ≠ 0 → (divZ x y).toNat = x.toNat / y.toNat) := by
  refine ⟨fun hy => ?_, fun hy => ?_⟩
  · rw [divZ, if_pos hy]
    rfl
  · rw [divZ, if_neg hy, BitVec.toNat_ofNat, Nat.mod_eq_of_lt (Nat.lt_of_le_of_lt (Nat.div_le_self ..) x.isLt)]

theorem remS_spec : (y = 0 → remS x y = x) ∧ (y ≠ 0 → (remS x y).toInt = x.toInt.tmod y.toInt) := by
  refine ⟨fun hy => if_pos hy, fun hy => ?_⟩
  rw [remS, if_neg hy, ← BitVec.toInt_srem, BitVec.ofInt_toInt]

theorem remZ_spec : (y = 0 → remZ x y = x) ∧ (y ≠ 0 → (remZ x y).toNat = x.toNat % y.toNat) := by
  refine ⟨fun hy => if_pos hy, fun hy => ?_⟩
  rw [remZ, if_neg hy, BitVec.toNat_ofNat, Nat.mod_eq_of_lt (Nat.lt_of_le_of_lt (Nat.mod_le ..) x.isLt)]

/-! ## Shifts, comparisons and counts (R196) -/

theorem toNat_shl64 : (shl64 x y).toNat = x.toNat * 2 ^ min y.toNat 64 % 2 ^ 64 := by
  unfold shl64
  split_ifs with h
  · rw [Nat.min_eq_right h, Nat.mul_mod_left]
    rfl
  · rw [Nat.min_eq_left (by omega), BitVec.toNat_shiftLeft, Nat.shiftLeft_eq]

theorem toNat_shrz64 : (shrz64 x y).toNat = x.toNat / 2 ^ min y.toNat 64 := by
  unfold shrz64
  split_ifs with h
  · rw [Nat.min_eq_right h, Nat.div_eq_of_lt x.isLt]
    rfl
  · rw [Nat.min_eq_left (by omega), BitVec.toNat_ushiftRight, Nat.shiftRight_eq_div_pow]

theorem toInt_shrs64 : (shrs64 x y).toInt = x.toInt / 2 ^ min y.toNat 63 := by
  rw [shrs64, BitVec.toInt_sshiftRight, Int.shiftRight_eq_div_pow]
  norm_cast

theorem toNat_bit64 (p : Prop) [Decidable p] : (bit64 (decide p)).toNat = if p then 1 else 0 := by
  by_cases h : p <;> simp [bit64, h]

theorem toNat_popc64 : (popc64 x).toNat = ((List.range 64).filter (fun i => x.getLsbD i)).length := by
  have hle := List.length_filter_le x.toNat.testBit (List.range 64)
  rw [List.length_range] at hle
  rw [popc64, popNat_eq_length_filter, BitVec.toNat_ofNat, Nat.mod_eq_of_lt (by omega)]
  rfl

end Words

/-! ## Immediates (R196, R197) -/

section Immediates

variable (x : Word) (i : BitVec 14)

theorem toInt_imm14 : (i.signExtend 64).toInt = i.toInt := BitVec.toInt_signExtend_of_le (by decide)

theorem getLsbD_imm14 {j : Nat} (hj : j < 64) : (i.signExtend 64).getLsbD j = if j < 14 then i.getLsbD j else i.msb := by
  rw [BitVec.getLsbD_signExtend, decide_eq_true hj, Bool.true_and]

/-- As a shift count, an immediate that is not negative is itself, and any other exceeds the width. -/
theorem toNat_imm14 : (0 ≤ i.toInt → (i.signExtend 64).toNat = i.toInt.toNat) ∧ (i.toInt < 0 → 64 ≤ (i.signExtend 64).toNat) := by
  have hse := toInt_imm14 i
  rw [BitVec.toInt_eq_toNat_cond] at hse
  have hlo : -2 ^ 13 ≤ i.toInt := i.le_toInt
  have hhi : i.toInt < 2 ^ 13 := i.toInt_lt
  split_ifs at hse <;> omega

theorem toInt_addImm14 : ((x + i.signExtend 64).toInt - (x.toInt + i.toInt)) % 2 ^ 64 = 0 := by
  rw [BitVec.toInt_add, toInt_imm14]
  exact Int.emod_eq_zero_of_dvd (Int.dvd_bmod_sub_self ..)

theorem shlImm14_spec : (0 ≤ i.toInt → (shl64 x (i.signExtend 64)).toNat = x.toNat * 2 ^ min i.toInt.toNat 64 % 2 ^ 64)
    ∧ (i.toInt < 0 → shl64 x (i.signExtend 64) = 0) := by
  obtain ⟨hpos, hneg⟩ := toNat_imm14 i
  exact ⟨fun h => by rw [toNat_shl64, hpos h], fun h => if_pos (hneg h)⟩

theorem shrzImm14_spec : (0 ≤ i.toInt → (shrz64 x (i.signExtend 64)).toNat = x.toNat / 2 ^ min i.toInt.toNat 64)
    ∧ (i.toInt < 0 → shrz64 x (i.signExtend 64) = 0) := by
  obtain ⟨hpos, hneg⟩ := toNat_imm14 i
  exact ⟨fun h => by rw [toNat_shrz64, hpos h], fun h => if_pos (hneg h)⟩

theorem shrsImm14_spec : (0 ≤ i.toInt → (shrs64 x (i.signExtend 64)).toInt = x.toInt / 2 ^ min i.toInt.toNat 63)
    ∧ (i.toInt < 0 → (shrs64 x (i.signExtend 64)).toInt = x.toInt / 2 ^ 63) := by
  obtain ⟨hpos, hneg⟩ := toNat_imm14 i
  refine ⟨fun h => by rw [toInt_shrs64, hpos h], fun h => ?_⟩
  rw [toInt_shrs64, Nat.min_eq_right (Nat.le_trans (by decide) (hneg h))]

/-- LSI puts 19 bits under the register shifted left by 19. -/
theorem toNat_lsi (k : BitVec 19) : ((x <<< 19) ||| k.zeroExtend 64).toNat = x.toNat * 2 ^ 19 % 2 ^ 64 + k.toNat := by
  have hshift : x.toNat * 2 ^ 19 % 2 ^ 64 = (x.toNat % 2 ^ 45) <<< 19 := by
    rw [Nat.shiftLeft_eq]
    omega
  have hk : k.toNat % 2 ^ 64 = k.toNat := Nat.mod_eq_of_lt (Nat.lt_trans k.isLt (by decide))
  rw [BitVec.toNat_or, BitVec.toNat_shiftLeft, Nat.shiftLeft_eq, BitVec.zeroExtend_eq_setWidth, BitVec.toNat_setWidth, hk, hshift,
    Nat.shiftLeft_add_eq_or_of_lt k.isLt]

end Immediates

/-! ## The statement -/

section Shapes

variable {i : Instr} {s : State} {d a b : BitVec 5} {law : Word → Prop}

/-- An instruction that ends with a result writes a value of which what is said of that result holds. -/
theorem gives_ctl {rs : List (BitVec 5)} {f : State → Word} (hx : exec i s = ctl rs s fun s => s.ret d (f s)) (hf : s.Filled rs)
    (hv : law (f s)) : ∃ v, Writes i s d v ∧ law v := ⟨f s, writes_of (hx.trans (hf.ctl _)), hv⟩

theorem gives_rr {f : Word → Word → Word} (hx : exec i s = rr f d a b s) (hf : s.Filled [d, a, b]) (hv : law (f (s.g a) (s.g b))) :
    ∃ v, Writes i s d v ∧ law v := gives_ctl hx hf hv

theorem gives_ri {f : Word → Word → Word} {o : BitVec 14} (hx : exec i s = ri f d a o s) (hf : s.Filled [d, a])
    (hv : law (f (s.g a) (o.signExtend 64))) : ∃ v, Writes i s d v ∧ law v := gives_ctl hx hf hv

end Shapes

/-- Settles O11: each instruction writes the word its function gives, of which the law above holds. -/
theorem controlIntegerInstructions : Obligations.ControlIntegerInstructions := by
  refine ⟨fun s d a b hf => ?registers, fun s d a i k hf => ?immediates⟩
  case registers =>
    exact ⟨gives_rr (exec_add d a b s) hf (BitVec.toNat_add ..), gives_rr (exec_sub d a b s) hf (toNat_sub_add_mod ..),
      gives_rr (exec_mul d a b s) hf (BitVec.toNat_mul ..), gives_rr (exec_mulhs d a b s) hf (toInt_mulHs ..),
      gives_rr (exec_mulhz d a b s) hf (toNat_mulHz ..), gives_rr (exec_divs d a b s) hf (divS_spec ..),
      gives_rr (exec_divz d a b s) hf (divZ_spec ..), gives_rr (exec_rems d a b s) hf (remS_spec ..),
      gives_rr (exec_remz d a b s) hf (remZ_spec ..), gives_rr (exec_and d a b s) hf fun _ => BitVec.getLsbD_and,
      gives_rr (exec_or d a b s) hf fun _ => BitVec.getLsbD_or, gives_rr (exec_xor d a b s) hf fun _ => BitVec.getLsbD_xor,
      gives_rr (exec_andn d a b s) hf (getLsbD_and_not _ _), gives_rr (exec_shl d a b s) hf (toNat_shl64 ..),
      gives_rr (exec_shrz d a b s) hf (toNat_shrz64 ..), gives_rr (exec_shrs d a b s) hf (toInt_shrs64 ..),
      gives_rr (exec_slts d a b s) hf (toNat_bit64 _), gives_rr (exec_sltz d a b s) hf (toNat_bit64 _),
      gives_ctl (exec_popc d a s) (hf.mono (by simp)) (toNat_popc64 _)⟩
  case immediates =>
    have hd : s.Filled [d] := hf.mono (by simp)
    refine ⟨gives_ri (exec_addi d a i s) hf (toInt_addImm14 ..), gives_ri (exec_andi d a i s) hf fun j hj => ?_,
      gives_ri (exec_ori d a i s) hf fun j hj => ?_, gives_ri (exec_xori d a i s) hf fun j hj => ?_,
      gives_ri (exec_shli d a i s) hf (shlImm14_spec ..), gives_ri (exec_shrzi d a i s) hf (shrzImm14_spec ..),
      gives_ri (exec_shrsi d a i s) hf (shrsImm14_spec ..), gives_ri (exec_sltsi d a i s) hf ?_,
      gives_ri (exec_sltzi d a i s) hf (toNat_bit64 _), gives_ctl (exec_ldi d k s) hd (BitVec.toInt_signExtend_of_le (by decide)),
      gives_ctl (exec_lsi d k s) hd (toNat_lsi ..)⟩
    · rw [BitVec.getLsbD_and, getLsbD_imm14 i hj]
    · rw [BitVec.getLsbD_or, getLsbD_imm14 i hj]
    · rw [BitVec.getLsbD_xor, getLsbD_imm14 i hj]
    · rw [← toInt_imm14 i]
      exact toNat_bit64 _

end Sys2Proof.Machine
end

section
/-!
SUPPORT. Branches and jumps of the control core (R198), and the statement about them.
-/

namespace Sys2Proof.Machine

variable {i : Instr} {s : State} {a b d : BitVec 5}

/-- An offset in instructions, as bytes. -/
theorem signExtend_mul_four {w : Nat} (o : BitVec w) : o.signExtend 64 * 4 = BitVec.ofInt 64 (4 * o.toInt) := by
  rw [BitVec.ofInt_mul, BitVec.mul_comm]
  rfl

theorem goesTo_br {f : Word → Word → Bool} {o : BitVec 14} {c : Prop} [Decidable c] (hx : exec i s = br f a b o s) (hf : s.Filled [a, b])
    (hc : f (s.g a) (s.g b) = true ↔ c) : GoesTo i s (if c then s.me.pc + BitVec.ofInt 64 (4 * o.toInt) else s.me.pc + 4) := by
  rw [br, hf.ctl, signExtend_mul_four] at hx
  split_ifs with h
  · rw [if_pos (hc.2 h)] at hx
    exact goesTo_jump hx
  · rw [if_neg fun h' => h (hc.1 h')] at hx
    exact goesTo_fin hx

theorem State.setG_jump (r : BitVec 5) (v t : Word) :
    (s.setG r v).jump t = s.modMe fun x => { x.setReg r.toNat v with pc := t, wait := none } := s.modMe_modMe _ _

/-- A jump that links changes the link register, the pc and a wait of the executing context. -/
theorem links_of {r : BitVec 5} {target : Word} (hx : exec i s = .next ((s.setG r (s.pc + 4)).jump target)) :
    ∃ t, exec i s = .next t ∧ OnlyMe s t ∧ t.me = { s.me with g := t.me.g, pc := target, wait := none }
      ∧ ∀ q, t.me.reg q = if q = r.toNat ∧ q ≠ 0 then s.me.pc + 4 else s.me.reg q := by
  rw [State.setG_jump] at hx
  refine ⟨_, hx, onlyMe_modMe s _, ?_, fun q => ?_⟩
  · rw [State.me_modMe]
    unfold Ctx.setReg
    split <;> rfl
  · rw [State.me_modMe]
    refine (Ctx.reg_setReg s.me r.toNat q _).trans ?_
    by_cases hq : q = r.toNat
    · rw [hq]
      rfl
    · rw [if_neg fun h => hq h.1, if_neg fun h => hq h.1]

theorem State.Filled.exec_jr (hf : s.Filled [a]) :
    exec (.jr a) s = .next (if (s.g a).toNat % 4 = 0 then s.jump (s.g a) else s.trap causeFetch (s.g a)) := by
  rw [Machine.exec_jr, execJr, hf.ctl]

theorem State.Filled.exec_jalr (hf : s.Filled [d, a]) : exec (.jalr d a) s =
    .next (if (s.g a).toNat % 4 = 0 then (s.setG d (s.pc + 4)).jump (s.g a) else s.trap causeFetch (s.g a)) := by
  rw [Machine.exec_jalr, execJalr, hf.ctl]

theorem exec_j_eq (o : BitVec 24) : exec (.j o) s = .next (s.jump (s.pc + o.signExtend 64 * 4)) := by
  rw [exec_j, execJ, (State.Filled.nil s).ctl]

/-- Settles O12: a branch is one `br`, and JR and JALR test their target before they write the link. -/
theorem branchesAndJumps : Obligations.BranchesAndJumps := by
  refine ⟨fun s a b o j hf => ?branches, fun s d a j => ⟨fun hf => ?jal, fun hf ht => ?jr, fun hf ht => ?jrTraps, fun hf ht => ?jalr,
    fun hf ht => ?jalrTraps⟩⟩
  case branches =>
    refine ⟨goesTo_br (exec_beq a b o s) hf beq_iff_eq, goesTo_br (exec_bne a b o s) hf bne_iff_ne,
      goesTo_br (exec_blts a b o s) hf decide_eq_true_iff, goesTo_br (exec_bges a b o s) hf decide_eq_true_iff,
      goesTo_br (exec_bltz a b o s) hf decide_eq_true_iff, goesTo_br (exec_bgez a b o s) hf decide_eq_true_iff, ?_⟩
    rw [← signExtend_mul_four]
    exact goesTo_jump (exec_j_eq j)
  case jal =>
    rw [← signExtend_mul_four]
    exact links_of (hf.exec_jal j)
  case jr => exact goesTo_jump (hf.exec_jr.trans (congrArg _ (if_pos ht)))
  case jrTraps => exact traps_of (hf.exec_jr.trans (congrArg _ (if_neg ht)))
  case jalr => exact links_of (hf.exec_jalr.trans (congrArg _ (if_pos ht)))
  case jalrTraps => exact traps_of (hf.exec_jalr.trans (congrArg _ (if_neg ht)))

end Sys2Proof.Machine
end

section
/-!
SUPPORT. Taking a trap and its hand-over (R203, R205), and the statement about them.
-/

namespace Sys2Proof.Machine

variable {s : State} {n c k : Nat} {rest : List Nat}

/-! ## Taking a trap (R205) -/

theorem isSystem_eq (c : Nat) : isSystem c = decide (c = 18 ∨ c = 19) := (Bool.decide_or ..).symm

/-- Does the core stop as context c of an SC traps? -/
def State.stopsAt (s : State) (n c : Nat) : Bool :=
  decide ((c = 18 ∨ c = 19)
    ∧ ((s.sc n).tvecSet = false ∨ (c = 18 ∧ (s.ctx n 19).st = .trapped) ∨ (c = 19 ∧ (s.ctx n 18).st = .trapped)))

/-- The model's own test, once context c is TRAPPED. -/
theorem stopsCore_eq {u : Sc} {x : Ctx} (hv : u.tvecSet = (s.sc n).tvecSet) (hc : u.ctxs = tput (s.sc n).ctxs c x)
    (hx : x.st = .trapped) : stopsCore u c = s.stopsAt n c := by
  rw [Bool.eq_iff_iff, stopsCore, State.stopsAt, hv, hc, Bool.and_eq_true, isSystem_eq, Bool.or_eq_true, Bool.and_eq_true,
    decide_eq_true_iff, decide_eq_true_iff, decide_eq_true_iff, decide_eq_true_iff, Bool.not_eq_true']
  refine and_congr_right fun h => or_congr_right ?_
  rcases h with rfl | rfl <;> simp [State.ctx, tgetD_tput, hx]

section Take

variable (s : State) (n c cause : Nat) (async : Bool) (v p : Word)

/-- The cluster after a trap of its context c. -/
def State.trapSc : Sc :=
  { s.sc n with ctxs := tput (s.sc n).ctxs c ((s.ctx n c).trap cause async v p), trapQ := (s.sc n).trapQ ++ [c],
                stopped := (s.sc n).stopped || s.stopsAt n c }

/-- A trap changes its cluster, and HLTH where the core stops. -/
theorem State.takeTrap_eq : s.takeTrap n c cause async v p =
    if s.stopsAt n c then (s.setSc n (s.trapSc n c cause async v p)).setHlth [hlthSysCtx] else s.setSc n (s.trapSc n c cause async v p) := by
  have ht := State.modSc_modSc s n (fun u => { u with ctxs := tput u.ctxs c ((s.ctx n c).trap cause async v p) })
    (fun u => { u with trapQ := u.trapQ ++ [c] })
  have hstop : stopsCore ((s.modSc n fun u =>
      { u with ctxs := tput u.ctxs c ((s.ctx n c).trap cause async v p), trapQ := u.trapQ ++ [c] }).sc n) c = s.stopsAt n c := by
    rw [State.sc_modSc_self]
    exact stopsCore_eq rfl rfl rfl
  rw [State.takeTrap, State.modCtx, State.setCtx, ht, hstop, State.modSc_modSc, State.trapSc]
  split
  · next h => rw [h, Bool.or_true]; rfl
  · next h => rw [Bool.eq_false_of_not_eq_true h, Bool.or_false]; rfl

theorem State.sc_takeTrap (m : Nat) :
    (s.takeTrap n c cause async v p).sc m = if m = n then s.trapSc n c cause async v p else s.sc m := by
  rw [State.takeTrap_eq]
  split
  · exact s.sc_setSc n m _
  · exact s.sc_setSc n m _

/-- What a trap leaves of the module outside its cluster: all but HLTH, and that too unless the core stops. -/
theorem State.frame_takeTrap : let t := s.takeTrap n c cause async v p
    t.mem = s.mem ∧ t.tb = s.tb ∧ t.futs = s.futs
      ∧ (s.stopsAt n c = true → t.mgmt.hlth = s.mgmt.hlth ||| (1 <<< 15)) ∧ (s.stopsAt n c = false → t.mgmt = s.mgmt) := by
  rw [State.takeTrap_eq]
  split
  · next h => exact ⟨rfl, rfl, rfl, fun _ => rfl, fun h' => Bool.noConfusion (h.symm.trans h')⟩
  · next h => exact ⟨rfl, rfl, rfl, fun h' => absurd h' h, fun _ => rfl⟩

end Take

/-! ## The hand-over (R205) -/

/-- The registers of a handler as it starts. -/
theorem reg_startHandler (x o : Ctx) (tvec : Word) (c r : Nat) : (startHandler x tvec c o).reg r =
    if r = 1 then BitVec.ofNat 64 c else if r = 2 then o.tcause else if r = 3 then o.tval else if r = 4 then o.tpc else 0 := by
  rw [Ctx.reg_eq (startHandler x tvec c o) (l := [(1, BitVec.ofNat 64 c), (2, o.tcause), (3, o.tval), (4, o.tpc)]) rfl (by simp)]
  simp only [tgetD_cons]
  by_cases hr : r = 0
  · subst hr; rfl
  · rw [if_neg hr]; rfl

/-- The lower-numbered FREE system context other than c. -/
theorem handler?_of (hc : c ≠ k) (hk : (s.ctx n k).st = .free) (hlow : k = 18 ∨ (k = 19 ∧ ¬(c ≠ 18 ∧ (s.ctx n 18).st = .free))) :
    handler? (s.sc n) c = some k := by
  rcases hlow with rfl | ⟨rfl, h18⟩
  · exact if_pos ⟨hc.symm, hk⟩
  · rw [handler?, if_neg fun h => h18 ⟨h.1.symm, h.2⟩]
    exact if_pos ⟨hc.symm, hk⟩

theorem handler?_eq_none (h18 : c = 18 ∨ (s.ctx n 18).st ≠ .free) (h19 : c = 19 ∨ (s.ctx n 19).st ≠ .free) :
    handler? (s.sc n) c = none := by
  rw [handler?, if_neg fun h => h18.elim (fun e => h.1 e.symm) fun e => e h.2, if_neg fun h => h19.elim (fun e => h.1 e.symm) fun e => e h.2]

/-- Context k has been started to handle the trap of context c, and the trap queue is what was behind it. -/
def State.handedOver (s : State) (n k c : Nat) (rest : List Nat) : State :=
  (s.modCtx n k fun x => startHandler x (s.sc n).tvec c (s.ctx n c)).modSc n fun t => { t with trapQ := rest }

theorem State.ctx_handedOver (s : State) {n k : Nat} (c : Nat) (rest : List Nat) (m d : Nat) : (s.handedOver n k c rest).ctx m d =
    if m = n ∧ d = k then startHandler (s.ctx n k) (s.sc n).tvec c (s.ctx n c) else s.ctx m d :=
  (State.ctx_modSc_of _ n (fun t => { t with trapQ := rest }) (fun _ => rfl) m d).trans (s.ctx_modCtx n k m d _)

theorem State.handOver_of (hq : (s.sc n).trapQ = c :: rest) (hk : handler? (s.sc n) c = some k) (hv : (s.sc n).tvecSet = true)
    (hs : (s.sc n).stopped = false) : s.handOver n = s.handedOver n k c rest := by
  simp only [State.handOver, hq, hk, hv, hs]
  rfl

theorem State.handOver_none (hq : (s.sc n).trapQ = c :: rest) (hk : handler? (s.sc n) c = none) : s.handOver n = s := by
  simp only [State.handOver, hq, hk]

theorem State.handOver_shut (h : (s.sc n).tvecSet = false ∨ (s.sc n).stopped = true) : s.handOver n = s := by
  rw [State.handOver]
  split
  · rfl
  · split
    · rfl
    · rcases h with h | h <;> simp [h]

/-! ## The statement -/

/-- Settles O20: a trap changes its own cluster and HLTH, and a hand-over the handler and the trap queue. -/
theorem trapsAndTheirHandOver : Obligations.TrapsAndTheirHandOver := by
  refine ⟨fun s n c cause async v p => ?take, fun s n c k rest hq => ⟨rfl, fun hv hs hck hk hlow _ => ?start, State.handOver_shut,
    fun h18 h19 => State.handOver_none hq (handler?_eq_none h18 h19)⟩⟩
  case take =>
    obtain ⟨hmem, htb, hfuts, hstop, hgo⟩ := s.frame_takeTrap n c cause async v p
    have hsc : (s.takeTrap n c cause async v p).sc n = s.trapSc n c cause async v p := (s.sc_takeTrap ..).trans (if_pos rfl)
    refine ⟨s.ctx_takeTrap n c cause async v p, s.trapQ_takeTrap n c cause async v p, fun d hd => s.ctx_takeTrap_of_ne cause async v p hd,
      fun m hm => (s.sc_takeTrap ..).trans (if_neg hm), ?stopped, fun hc hv => hstop (decide_eq_true ⟨hc, .inl hv⟩),
      fun hc h19 => hstop (decide_eq_true ⟨.inl hc, .inr (.inl ⟨hc, h19⟩)⟩), fun hc h18 => hstop (decide_eq_true ⟨.inr hc, .inr (.inr ⟨hc, h18⟩)⟩),
      fun hv h18 h19 => hgo (decide_eq_false ?_), fun h18 h19 => hgo (decide_eq_false fun h => h.1.elim h18 h19), ?_, ?_, ?_, hmem,
      s.byte_takeTrap n c cause async v p, htb, hfuts⟩
    case stopped =>
      have hat := stopsCore_eq (s := s) (n := n) (c := c) (u := s.trapSc n c cause async v p) rfl rfl rfl
      rw [State.ctx, State.ctx, hsc, ← isSystem_eq]
      exact congrArg ((s.sc n).stopped || ·) hat.symm
    · rintro ⟨-, h | h | h⟩
      · exact Bool.noConfusion (hv.symm.trans h)
      · exact h18 h.1 h.2
      · exact h19 h.1 h.2
    all_goals rw [hsc]; rfl
  case start =>
    rw [State.handOver_of hq (handler?_of hck hk hlow) hv hs]
    have hstarts := (s.ctx_handedOver c rest n k).trans (if_pos ⟨rfl, rfl⟩)
    refine ⟨?_, ?_, ?_, fun r => ?_, ?_, ?_, congrArg Sc.trapQ (State.sc_modSc_self _ n _),
      fun d hd => (s.ctx_handedOver c rest n d).trans (if_neg fun h => hd h.2), rfl⟩ <;> rw [hstarts]
    case refine_4 => exact reg_startHandler ..
    all_goals rfl

end Sys2Proof.Machine
end

section
/-!
SUPPORT. MTS of a register that it cannot write (R208), by a handler whose OWNER is a context the model holds no record of.
-/

namespace Sys2Proof.Machine

/-- A handler in context 18 whose OWNER is context 5, of which the state holds no record: it is as at reset. -/
def unrecordedOwner : State :=
  { scs := [(0, { ctxs := [(18, { st := .ready, owner := 5 })] })], cur := { ctx := 18 } }

theorem unrecordedOwner_filled : unrecordedOwner.Filled [0] := by
  delta State.Filled
  decide

/-- MTS of TIX, which it leaves, gives context 5 a record of its own: the state is not `State.fin` of the one before. -/
theorem mts_tix_records_owner :
    goesOnWith (exec (.mts 0 0) unrecordedOwner) (fun t => (tget (t.sc 0).ctxs 5).isSome) = true := by decide

/-- Refutes O22: MTS of a register that R208 leaves as it is, in a handler whose OWNER is a context with no record, writes that
context's reset values as a record; the statement has nothing change but the pc. -/
theorem not_specialRegisters : ¬ Obligations.SpecialRegisters := by
  unfold Obligations.SpecialRegisters
  intro h
  obtain ⟨-, -, -, -, -, -, hregs⟩ := h unrecordedOwner 0 0 0
  obtain ⟨t, hx, -, -, -, -, -, -, -, -, -, -, -, -, hfin⟩ :=
    hregs unrecordedOwner_filled (.inl (by decide)) (fun hr => absurd hr (by decide))
  have hrec := of_goesOnWith (p := fun t : State => (tget (t.sc 0).ctxs 5).isSome) hx mts_tix_records_owner
  rw [hfin (.inl (by decide))] at hrec
  exact absurd hrec (by decide)

end Sys2Proof.Machine
end

section
/-!
SUPPORT. What accesses of agents leave of the machine's tables (R212, R284, R335): the flag of a graph and the completion block of a
launch are written at the end of a task.
-/

namespace Sys2Proof.Machine

variable {s t u : State}

/-- A cluster but for what an access changes of it: the lines of its cache and its TLB. -/
def Sc.office (x : Sc) : Sc := { x with lines := [], tlb := [] }

/-- Who executes, the futures, the launches, the package's barriers, and every cluster but for its lines and its TLB. -/
structure Tables where
  cur : Cur
  futs : Tab Fut
  launches : Tab Launch
  pbars : Tab Barrier
  offices : Nat → Sc

def State.tables (s : State) : Tables := ⟨s.cur, s.futs, s.launches, s.pbars, fun n => (s.sc n).office⟩

/-- Folding a step that leaves the tables leaves them. -/
theorem tables_foldl {α : Type} {f : State → α → State} (hf : ∀ s x, (f s x).tables = s.tables) (l : List α) (s : State) :
    (l.foldl f s).tables = s.tables := by
  induction l generalizing s with
  | nil => rfl
  | cons x l ih => exact (ih _).trans (hf s x)

/-! ## One base die -/

@[simp] theorem tables_count (s : State) (st k n : Nat) : (s.count st k n).tables = s.tables := rfl

@[simp] theorem tables_correct (s : State) (st : Nat) (bs : List Nat) : (s.correct st bs).tables = s.tables := rfl

@[simp] theorem tables_cleared (s : State) (bs : List Nat) : (s.cleared bs).tables = s.tables := rfl

@[simp] theorem tables_setTag (s : State) (st off v : Nat) : (s.setTag st off v).tables = s.tables := rfl

@[simp] theorem tables_setHlth (s : State) (bits : List Nat) : (s.setHlth bits).tables = s.tables := rfl

@[simp] theorem tables_spoiled (s : State) (st n : Nat) : (s.spoiled st n).tables = s.tables := by
  unfold State.spoiled
  split <;> rfl

@[simp] theorem tables_meetHost (s : State) (a n : Nat) (inv : Bool) : (s.meetHost a n inv).tables = s.tables := by
  unfold State.meetHost
  split <;> rfl

@[simp] theorem tables_readEffect (s : State) (a n : Nat) : (s.readEffect a n).tables = s.tables := by
  unfold State.readEffect
  dsimp only
  split <;> simp

theorem tables_compRead (s : State) (blk : Nat) (acc : Bool) : (s.compRead blk acc).tables = s.tables := by
  unfold State.compRead
  dsimp only
  split <;> rfl

theorem tables_compWrite (s : State) (a : Nat) (v : List (Option Byte)) (acc : Bool) : (s.compWrite a v acc).tables = s.tables := by
  have hread := tables_compRead s (a - a % 256) acc
  unfold State.compWrite
  dsimp only
  split
  · exact (tables_spoiled _ _ _).trans hread
  · exact hread

theorem tables_plainWrite (s : State) (a : Nat) (v : List (Option Byte)) (acc : Bool) : (s.plainWrite a v acc).tables = s.tables := by
  have hread : (if (!acc && !(readSectors a v acc).isEmpty) = true then s.count (stackOf s.topo a).1 ctrRmw 1 else s).tables = s.tables := by
    split <;> rfl
  unfold State.plainWrite
  dsimp only
  split
  · exact (tables_spoiled _ _ _).trans hread
  · exact (tables_spoiled _ _ _).trans hread

@[simp] theorem tables_dieWriteIn (s : State) (a : Nat) (v : List (Option Byte)) (acc : Bool) :
    (s.dieWriteIn a v acc).tables = s.tables := by
  unfold State.dieWriteIn
  dsimp only
  split
  · rfl
  · split
    · simp
    · split
      · exact (tables_compWrite _ _ _ _).trans (tables_meetHost _ _ _ _)
      · exact (tables_plainWrite _ _ _ _).trans (tables_meetHost _ _ _ _)

/-! ## Writes that cached copies follow -/

theorem tables_copyByte (s : State) (a : Nat) (b : Byte) : (s.copyByte a b).tables = s.tables := by
  have h : ∀ n, ((s.copyByte a b).sc n).office = (s.sc n).office := fun n => by rw [State.sc_copyByte]; rfl
  simp only [State.tables, Tables.mk.injEq]
  exact ⟨rfl, rfl, rfl, rfl, funext h⟩

@[simp] theorem tables_copyBytes (s : State) (a : Nat) (w : List (Option Byte)) : (s.copyBytes a w).tables = s.tables := by
  induction w generalizing s a with
  | nil => rfl
  | cons x w ih =>
    cases x with
    | none => exact ih s _
    | some b => exact (ih _ _).trans (tables_copyByte s a b)

theorem tables_dieWrite (fuel : Nat) (s : State) (a : Nat) (v : List (Option Byte)) (acc : Bool) :
    (State.dieWrite fuel s a v acc).tables = s.tables := by
  induction fuel generalizing s a v with
  | zero => rfl
  | succ fuel ih =>
    cases v with
    | nil => rfl
    | cons x v => exact (ih _ _ _).trans (by simp)

@[simp] theorem tables_write (s : State) (a : Nat) (v : List Byte) (acc : Bool) : (s.write a v acc).tables = s.tables :=
  tables_dieWrite _ s a _ acc

/-! ## Requests and translations -/

@[simp] theorem tables_accCount (s : State) (a n : Nat) : (s.accCount a n).tables = s.tables := by
  unfold State.accCount
  dsimp only
  split <;> rfl

@[simp] theorem tables_replied (s : State) (id st : Nat) (bs : List Byte) : (s.replied id st bs).tables = s.tables := rfl

theorem tables_perform (s : State) (id : Nat) (p : Packet) : (s.perform id p).tables = s.tables := by
  cases hty : p.ty <;> simp [State.perform, hty, State.pktRead, State.pktWrite, State.pktAcc]

@[simp] theorem tables_performEarlier (s : State) (port a n : Nat) : (s.performEarlier port a n).tables = s.tables :=
  tables_foldl (f := fun t (q : Nat × Packet) => t.perform q.1 q.2) (fun t q => tables_perform t q.1 q.2) _ s

@[simp] theorem tables_accumulate (s : State) (a op fmt src : Nat) : (s.accumulate a op fmt src).tables = s.tables := by
  simp [State.accumulate]

@[simp] theorem tables_countWalk (s : State) (n : Nat) (l : List Nat) : (s.countWalk n l).tables = s.tables :=
  tables_foldl (fun s a => by simp) l s

@[simp] theorem tables_useDieTlb (s : State) (n asid : Nat) (x : Xlat) : (s.useDieTlb n asid x).tables = s.tables := rfl

@[simp] theorem tables_useScTlb (s : State) (n asid : Nat) (x : Xlat) : (s.useScTlb n asid x).tables = s.tables := by
  have h : ∀ m, ((s.useScTlb n asid x).sc m).office = (s.sc m).office := fun m => by
    rw [State.useScTlb, State.sc_modSc]
    split
    · next h => rw [h]; rfl
    · rfl
  simp only [State.tables, Tables.mk.injEq]
  exact ⟨rfl, rfl, rfl, rfl, funext h⟩

theorem tables_touch (s : State) (n : Nat) (sc : Bool) (root : Option Word) (va : Nat) : (s.touch n sc root va).tables = s.tables := by
  have hhold : ∀ (t : State) (asid : Nat) (x : Xlat),
      (if sc = true then (t.useDieTlb n asid x).useScTlb n asid x else t.useDieTlb n asid x).tables = t.tables := fun t asid x => by
    split <;> simp
  unfold State.touch
  split
  · rfl
  · dsimp only
    split
    · rfl
    · split
      · simp
      · split
        · exact hhold _ _ _
        · split
          · simp
          · exact (hhold _ _ _).trans (by simp)

@[simp] theorem tables_touchAll (s : State) (n : Nat) (sc : Bool) (root : Option Word) (vas : List Nat) :
    (s.touchAll n sc root vas).tables = s.tables :=
  tables_foldl (fun s _ => tables_touch s n sc root _) _ s

/-! ## Flags and completion blocks -/

@[simp] theorem tables_incFlag (s : State) (n : Nat) (root : Option Word) (a : Nat) : (s.incFlag n root a).tables = s.tables := by
  have htouch := tables_touchAll s n (!false) root [a]
  unfold State.incFlag State.agentAcc
  dsimp only
  split
  · split
    · exact htouch
    · simp
  · exact htouch
  · exact htouch
  · exact htouch

@[simp] theorem tables_writeBlock (s : State) (flag value status done lost faulted firstLost firstFault : Nat) :
    (s.writeBlock flag value status done lost faulted firstLost firstFault).tables = s.tables := by
  unfold State.writeBlock
  split
  · rfl
  · simp

end Sys2Proof.Machine
end

section
/-!
SUPPORT. What the end of an activity leaves (R246, R253): contexts but for what they hold, barriers, scoreboards and streams.
-/

namespace Sys2Proof.Machine

variable {s t u : State}

/-- The same context executes, and every context stands at its pc. -/
structure SamePcs (s t : State) : Prop where
  cur : t.cur = s.cur
  pcs : ∀ n c, (t.ctx n c).pc = (s.ctx n c).pc

/-- The barriers are those of `s`. -/
structure SameBars (s t : State) : Prop where
  pbars : t.pbars = s.pbars
  bars : ∀ n, (t.sc n).bars = (s.sc n).bars

/-- The pcs, the barriers, the scoreboards and the streams are those of `s`. -/
structure SameUse (s t : State) : Prop where
  pcs : SamePcs s t
  bars : SameBars s t
  jobs : SameJobs s t

theorem SamePcs.refl (s : State) : SamePcs s s := ⟨rfl, fun _ _ => rfl⟩

theorem SamePcs.trans (h : SamePcs s t) (h' : SamePcs t u) : SamePcs s u :=
  ⟨h'.cur.trans h.cur, fun n c => (h'.pcs n c).trans (h.pcs n c)⟩

theorem SamePcs.me_pc (h : SamePcs s t) : t.me.pc = s.me.pc := by
  rw [State.me, h.cur, h.pcs]
  rfl

theorem SameBars.refl (s : State) : SameBars s s := ⟨rfl, fun _ => rfl⟩

theorem SameBars.trans (h : SameBars s t) (h' : SameBars t u) : SameBars s u :=
  ⟨h'.pbars.trans h.pbars, fun n => (h'.bars n).trans (h.bars n)⟩

theorem SameBars.barrier (h : SameBars s t) (n m : Nat) : t.barrier n m = s.barrier n m := by
  unfold State.barrier
  rw [h.bars, h.pbars]

theorem SameUse.refl (s : State) : SameUse s s := ⟨.refl s, .refl s, .refl s⟩

theorem SameUse.trans (h : SameUse s t) (h' : SameUse t u) : SameUse s u :=
  ⟨h.pcs.trans h'.pcs, h.bars.trans h'.bars, h.jobs.trans h'.jobs⟩

theorem sameUse_foldl {α : Type} {f : State → α → State} (hf : ∀ s x, SameUse s (f s x)) (l : List α) (s : State) :
    SameUse s (l.foldl f s) := by
  induction l generalizing s with
  | nil => exact .refl s
  | cons x l ih => exact (hf s x).trans (ih _)

/-- What keeps the clusters, the package's barriers and who executes. -/
theorem sameUse_of_scs (hscs : t.scs = s.scs) (hcur : t.cur = s.cur) (hpbars : t.pbars = s.pbars) : SameUse s t := by
  have hsc : ∀ n, t.sc n = s.sc n := fun n => by unfold State.sc; rw [hscs]
  exact ⟨⟨hcur, fun n c => by rw [State.ctx, State.ctx, hsc]⟩, ⟨hpbars, fun n => by rw [hsc]⟩, sameJobs_of_scs hscs⟩

/-- What keeps the tables. -/
theorem sameUse_of_tables (h : t.tables = s.tables) : SameUse s t := by
  have hkeep : ∀ {β : Type} (f : Sc → β) (n : Nat), f (t.sc n).office = f (s.sc n).office := fun f n =>
    congrArg f (congrFun (congrArg Tables.offices h) n)
  exact ⟨⟨congrArg Tables.cur h, fun n c => hkeep (fun x => (tgetD x.ctxs c {}).pc) n⟩,
    ⟨congrArg Tables.pbars h, hkeep Sc.bars⟩, fun n => ⟨hkeep Sc.entries n, hkeep Sc.streams n⟩⟩

/-! ## Updates of a cluster or a context -/

theorem samePcs_modSc (s : State) (n : Nat) (f : Sc → Sc) (hf : ∀ x, (f x).ctxs = x.ctxs) : SamePcs s (s.modSc n f) :=
  ⟨rfl, fun m c => by rw [State.ctx_modSc_of s n f hf]⟩

theorem sameBars_modSc (s : State) (n : Nat) (f : Sc → Sc) (hf : ∀ x, (f x).bars = x.bars) : SameBars s (s.modSc n f) := by
  refine ⟨rfl, fun m => ?_⟩
  rw [State.sc_modSc]
  split
  · next h => rw [hf, h]
  · rfl

theorem sameBars_modCtx (s : State) (n c : Nat) (f : Ctx → Ctx) : SameBars s (s.modCtx n c f) :=
  sameBars_modSc s n (fun t => { t with ctxs := tput t.ctxs c (f (s.ctx n c)) }) fun _ => rfl

theorem sameJobs_modCtx (s : State) (n c : Nat) (f : Ctx → Ctx) : SameJobs s (s.modCtx n c f) :=
  sameJobs_modSc s n (fun t => { t with ctxs := tput t.ctxs c (f (s.ctx n c)) }) fun _ => ⟨rfl, rfl⟩

theorem samePcs_modCtx (s : State) (n c : Nat) (f : Ctx → Ctx) (hf : ∀ x, (f x).pc = x.pc) : SamePcs s (s.modCtx n c f) := by
  refine ⟨rfl, fun m d => ?_⟩
  rw [State.ctx_modCtx]
  split
  · next h => rw [hf, h.1, h.2]
  · rfl

theorem sameUse_modFut (s : State) (k : Nat) (f : Fut → Fut) : SameUse s (s.modFut k f) := sameUse_of_scs rfl rfl rfl

/-! ## Drops (R243, R246) -/

theorem sameUse_unlinkKid (s : State) (h : Nat) (p : Holder) : SameUse s (s.unlinkKid h p) := by
  cases p with
  | nobody => exact .refl s
  | task p =>
    rw [State.unlinkKid]
    split
    · exact sameUse_modFut _ _ _
    · exact .refl s
  | ctx n c =>
    rw [State.unlinkKid]
    exact ⟨samePcs_modCtx _ _ _ _ fun _ => rfl, sameBars_modCtx _ _ _ _, sameJobs_modCtx _ _ _ _⟩

theorem sameUse_unhold (s : State) (k : Nat) : SameUse s (s.unhold k) := by
  unfold State.unhold
  exact (sameUse_unlinkKid s _ _).trans (sameUse_modFut _ _ _)

theorem sameUse_freeFut (s : State) (k : Nat) : SameUse s (s.freeFut k) := (sameUse_unhold s k).trans (sameUse_of_scs rfl rfl rfl)

theorem sameUse_dropCount (s : State) (k : Nat) : SameUse s (s.dropCount k) := by
  have hcount := sameUse_modFut s k fun x => { x with count := x.count - 1 }
  unfold State.dropCount
  dsimp only
  split
  · exact hcount
  · split
    · exact hcount.trans (sameUse_freeFut _ k)
    · split
      · exact hcount.trans ((sameUse_freeFut _ k).trans (sameUse_of_scs rfl rfl rfl))
      · split
        · exact hcount.trans (sameUse_modFut _ _ _)
        · exact hcount

theorem sameUse_dropKids (s : State) (kids : List Nat) : SameUse s (s.dropKids kids) :=
  sameUse_foldl (fun s h => by
    split
    · exact (sameUse_unhold s _).trans (sameUse_dropCount _ _)
    · exact .refl s) kids s

/-! ## Launches and graphs (R257, R259, R335) -/

theorem sameUse_tryLaunch (s : State) (l : Nat) : SameUse s (s.tryLaunch l) := by
  unfold State.tryLaunch
  split
  · exact .refl s
  · split
    · exact .refl s
    · exact (sameUse_of_tables (tables_writeBlock s _ _ _ _ _ _ _ _)).trans (sameUse_of_scs rfl rfl rfl)

theorem sameUse_launchEnd (s : State) (f : Fut) (how : Ended) : SameUse s (s.launchEnd f how) := by
  unfold State.launchEnd
  split
  · exact .refl s
  · refine SameUse.trans ?_ (sameUse_tryLaunch _ _)
    exact sameUse_of_scs rfl rfl rfl

theorem sameUse_graphLaunchDone (s : State) (l k result : Nat) : SameUse s (s.graphLaunchDone l k result) := by
  unfold State.graphLaunchDone
  split
  · exact .refl s
  · refine SameUse.trans ?_ (sameUse_dropCount _ k)
    exact (sameUse_of_tables (tables_writeBlock s _ _ _ _ _ _ _ _)).trans (sameUse_of_scs rfl rfl rfl)

theorem sameUse_payGraph (s : State) (o : Owed) : SameUse s (s.payGraph o) := by
  have hflag : SameUse s (if o.flag = 0 then s else s.incFlag o.sc (s.sc o.sc).root o.flag) := by
    split
    · exact .refl s
    · exact sameUse_of_tables (tables_incFlag _ _ _ _)
  unfold State.payGraph
  dsimp only
  split
  · exact hflag.trans (sameUse_graphLaunchDone _ _ _ _)
  · exact hflag

theorem sameUse_finishGraph (s : State) (g : Nat) : SameUse s (s.finishGraph g) := by
  unfold State.finishGraph
  split
  · exact .refl s
  · dsimp only
    split
    · split
      · exact (sameUse_modFut _ _ _).trans (sameUse_payGraph _ _)
      · exact sameUse_of_scs rfl rfl rfl
    · exact .refl s

theorem sameUse_sendEdges (s : State) (g : Nat) (ns : List Nat) (k : EdgeKind) : SameUse s (s.sendEdges g ns k) :=
  sameUse_foldl (f := fun t i => t.modNode g i fun x => x.receive s.cycle k) (fun _ _ => sameUse_of_scs rfl rfl rfl) ns s

theorem sameUse_endNode (s : State) (g i : Nat) (k0 : EdgeKind) (k1 : Option EdgeKind) (fault : Option Nat) :
    SameUse s (s.endNode g i k0 k1 fault) := by
  unfold State.endNode
  dsimp only
  refine SameUse.trans ?_ (sameUse_finishGraph _ g)
  cases k1 with
  | none =>
    refine SameUse.trans ?_ (sameUse_sendEdges _ _ _ _)
    exact sameUse_of_scs rfl rfl rfl
  | some k =>
    refine SameUse.trans (SameUse.trans ?_ (sameUse_sendEdges _ _ _ _)) (sameUse_sendEdges _ _ _ _)
    exact sameUse_of_scs rfl rfl rfl

theorem sameUse_nodeEnd (s : State) (f : Fut) (fault : Option Nat) : SameUse s (s.nodeEnd f fault) := by
  unfold State.nodeEnd
  split
  · exact .refl s
  · split
    · exact sameUse_endNode _ _ _ _ _ _
    · exact .refl s

theorem sameUse_leaveMotion (s : State) (n : Nat) (o : Owner) (f : Fut) : SameUse s (s.leaveMotion n o f) := by
  unfold State.leaveMotion
  dsimp only
  split
  · exact .refl s
  · exact sameUse_of_scs rfl rfl rfl

/-! ## Queues, replies and charges (R246, R325) -/

theorem sameUse_dropQueues (s : State) (n : Nat) (o : Owner) : SameUse s (s.dropQueues n o) :=
  ⟨samePcs_modSc s n _ fun _ => rfl, sameBars_modSc s n _ fun _ => rfl, sameJobs_modSc s n _ fun _ => ⟨rfl, rfl⟩⟩

theorem sameUse_dropReplies (s : State) (n : Nat) (o : Owner) : SameUse s (s.dropReplies n o) := sameUse_of_scs rfl rfl rfl

theorem sameUse_uncharge (s : State) (k : Nat) : SameUse s (s.uncharge k) := by
  unfold State.uncharge
  dsimp only
  split
  · split <;> exact sameUse_of_scs rfl rfl rfl
  · exact .refl s

theorem sameUse_refundTask (s : State) (k : Nat) : SameUse s (s.refundTask k) := by
  unfold State.refundTask
  refine SameUse.trans ?_ (sameUse_uncharge _ k)
  exact sameUse_of_scs rfl rfl rfl

end Sys2Proof.Machine
end

section
/-!
SUPPORT. Futures under drops and ends (R243, R246, R259): what each leaves of every entry of the tables, but for the children a task has
listed and what it is charged.
-/

namespace Sys2Proof.Machine

variable {s t u : State} {k j : Nat}

/-- A future but for the children that its task holds and for its charges. -/
def Fut.core (f : Fut) : Fut := { f with kids := [], psrf := 0, charged := false }

/-- A future whose spawn reference nobody holds. -/
def Fut.unheld (f : Fut) : Fut := { f with held := false, parent := .nobody }

/-- A future whose COUNT is lowered by 1 (R243, R247). -/
def Fut.dropped (f : Fut) : Fut :=
  if f.count ≠ 1 then { f with count := f.count - 1 }
  else if f.st = .done ∨ f.st = .faulted ∨ f.st = .ready then { gen := (f.gen + 1) % 16384 }
  else if f.st = .running then { f with count := 0, st := .reclaimed }
  else { f with count := 0 }

@[simp] theorem Fut.core_st (f : Fut) : f.core.st = f.st := rfl
@[simp] theorem Fut.core_gen (f : Fut) : f.core.gen = f.gen := rfl
@[simp] theorem Fut.core_count (f : Fut) : f.core.count = f.count := rfl
@[simp] theorem Fut.core_held (f : Fut) : f.core.held = f.held := rfl
@[simp] theorem Fut.core_status (f : Fut) : f.core.status = f.status := rfl
@[simp] theorem Fut.core_result (f : Fut) : f.core.result = f.result := rfl

theorem Fut.dropped_of_shared {f : Fut} (h : f.count ≠ 1) : f.dropped = { f with count := f.count - 1 } := if_pos h

theorem Fut.dropped_of_over {f : Fut} (h : f.count = 1) (hst : f.st = .done ∨ f.st = .faulted ∨ f.st = .ready) :
    f.dropped = { gen := (f.gen + 1) % 16384 } := (if_neg (not_not.2 h)).trans (if_pos hst)

theorem Fut.dropped_of_running {f : Fut} (h : f.count = 1) (hst : f.st = .running) :
    f.dropped = { f with count := 0, st := .reclaimed } := by
  simp [Fut.dropped, h, hst]

/-- Every future is, in its core, that of `s`. -/
def SameCores (s t : State) : Prop := ∀ j, (t.fut j).core = (s.fut j).core

theorem SameCores.refl (s : State) : SameCores s s := fun _ => rfl

theorem SameCores.trans (h : SameCores s t) (h' : SameCores t u) : SameCores s u := fun j => (h' j).trans (h j)

theorem sameCores_of_futs (h : t.futs = s.futs) : SameCores s t := fun j => by rw [State.fut, State.fut, h]

theorem State.fut_modFut (s : State) (k j : Nat) (f : Fut → Fut) : (s.modFut k f).fut j = if j = k then f (s.fut k) else s.fut j :=
  tgetD_tput _ _ _ _ _

theorem sameCores_modFut (s : State) (k : Nat) (f : Fut → Fut) (hf : ∀ x, (f x).core = x.core) : SameCores s (s.modFut k f) := fun j => by
  rw [State.fut_modFut]
  split
  · next h => rw [hf, h]
  · rfl

theorem futLive_of_core {h : Nat} (hc : (t.fut (futKey h)).core = (s.fut (futKey h)).core) : t.futLive h = s.futLive h := by
  have hgen : (t.fut (futKey h)).gen = (s.fut (futKey h)).gen := by simpa using congrArg Fut.gen hc
  have hst : (t.fut (futKey h)).st = (s.fut (futKey h)).st := by simpa using congrArg Fut.st hc
  rw [State.futLive, State.futLive, hgen, hst]

/-! ## One future -/

theorem sameCores_unlinkKid (s : State) (h : Nat) (p : Holder) : SameCores s (s.unlinkKid h p) := by
  cases p with
  | nobody => exact .refl s
  | task p =>
    rw [State.unlinkKid]
    split
    · exact sameCores_modFut _ _ _ fun _ => rfl
    · exact .refl s
  | ctx n c => exact .refl s

theorem core_unhold (s : State) (k j : Nat) : ((s.unhold k).fut j).core = if j = k then (s.fut k).core.unheld else (s.fut j).core := by
  unfold State.unhold
  dsimp only
  rw [State.fut_modFut]
  split
  · exact congrArg Fut.unheld (sameCores_unlinkKid s _ _ k)
  · exact sameCores_unlinkKid s _ _ j

theorem core_freeFut (s : State) (k j : Nat) :
    ((s.freeFut k).fut j).core = if j = k then { gen := ((s.fut k).gen + 1) % 16384 } else (s.fut j).core := by
  have hunhold : ((s.unhold k).fut k).gen = (s.fut k).gen := by
    have h := core_unhold s k k
    rw [if_pos rfl] at h
    simpa [Fut.unheld] using congrArg Fut.gen h
  have hfut : (s.freeFut k).fut j = ((s.unhold k).modFut k fun x => { gen := (x.gen + 1) % 16384 }).fut j := rfl
  rw [hfut, State.fut_modFut]
  split
  · rw [hunhold]; rfl
  · next h => exact (core_unhold s k j).trans (if_neg h)

theorem core_dropCount_of_ne (s : State) (h : j ≠ k) : ((s.dropCount k).fut j).core = (s.fut j).core := by
  have hcount : ((s.modFut k fun x => { x with count := x.count - 1 }).fut j).core = (s.fut j).core := by
    rw [State.fut_modFut, if_neg h]
  have hfree : (((s.modFut k fun x => { x with count := x.count - 1 }).freeFut k).fut j).core = (s.fut j).core := by
    rw [core_freeFut, if_neg h, hcount]
  unfold State.dropCount
  dsimp only
  split
  · exact hcount
  · split
    · exact hfree
    · split
      · exact hfree
      · split
        · rw [State.fut_modFut, if_neg h, hcount]
        · exact hcount

theorem core_dropCount_self (s : State) (k : Nat) : ((s.dropCount k).fut k).core = (s.fut k).core.dropped := by
  have hcount : ((s.modFut k fun x => { x with count := x.count - 1 }).fut k).core
      = { (s.fut k).core with count := (s.fut k).core.count - 1 } := by
    rw [State.fut_modFut, if_pos rfl]
    rfl
  have hfree : (((s.modFut k fun x => { x with count := x.count - 1 }).freeFut k).fut k).core = { gen := ((s.fut k).gen + 1) % 16384 } := by
    rw [core_freeFut, if_pos rfl, State.fut_modFut, if_pos rfl]
  unfold State.dropCount Fut.dropped
  dsimp only
  by_cases h1 : (s.fut k).count = 1
  · by_cases hend : (s.fut k).st = .done ∨ (s.fut k).st = .faulted ∨ (s.fut k).st = .ready
    · simp only [Fut.core_count, h1, ne_eq, not_true, if_false, Fut.core_st, hend, if_true, Fut.core_gen]
      split
      · exact hfree
      · next hover => rw [if_pos ((or_assoc.2 hend).resolve_left hover)]; exact hfree
    · obtain ⟨hdone, hfaulted, hready⟩ : _ ∧ _ ∧ _ := by simpa only [not_or] using hend
      by_cases hrun : (s.fut k).st = .running
      · simp [h1, hrun, State.fut_modFut, Fut.core]
      · simp [h1, hdone, hfaulted, hready, hrun, State.fut_modFut, Fut.core]
  · rw [if_pos h1, Fut.core_count, if_pos h1, hcount]
    rfl

/-! ## Children (R246) -/

/-- A child dropped, where it is live and held. -/
def State.dropKid (s : State) (h : Nat) : State :=
  if s.futLive h && (s.fut (futKey h)).held then (s.unhold (futKey h)).dropCount (futKey h) else s

theorem State.dropKids_cons (s : State) (h : Nat) (kids : List Nat) : s.dropKids (h :: kids) = (s.dropKid h).dropKids kids := rfl

theorem core_dropKid_of_ne (s : State) {h : Nat} (hj : j ≠ futKey h) : ((s.dropKid h).fut j).core = (s.fut j).core := by
  unfold State.dropKid
  split
  · rw [core_dropCount_of_ne _ hj, core_unhold, if_neg hj]
  · rfl

theorem core_dropKid_self (s : State) {h : Nat} (hlive : s.futLive h = true) (hheld : (s.fut (futKey h)).held = true) :
    ((s.dropKid h).fut (futKey h)).core = (s.fut (futKey h)).core.unheld.dropped := by
  unfold State.dropKid
  rw [if_pos (by rw [hlive, hheld]; rfl), core_dropCount_self, core_unhold, if_pos rfl]

theorem core_dropKids_of_not_mem (s : State) {kids : List Nat} (hj : j ∉ kids.map futKey) :
    ((s.dropKids kids).fut j).core = (s.fut j).core := by
  induction kids generalizing s with
  | nil => rfl
  | cons h kids ih =>
    rw [List.map_cons, List.mem_cons, not_or] at hj
    rw [State.dropKids_cons, ih _ hj.2, core_dropKid_of_ne s hj.1]

theorem core_dropKids_of_mem (s : State) {kids : List Nat} (hnd : (kids.map futKey).Nodup) {h : Nat} (hm : h ∈ kids)
    (hlive : s.futLive h = true) (hheld : (s.fut (futKey h)).held = true) :
    ((s.dropKids kids).fut (futKey h)).core = (s.fut (futKey h)).core.unheld.dropped := by
  induction kids generalizing s with
  | nil => cases hm
  | cons x kids ih =>
    rw [List.map_cons, List.nodup_cons] at hnd
    obtain ⟨hx, hnd⟩ := hnd
    rw [State.dropKids_cons]
    rcases List.mem_cons.1 hm with rfl | hm
    · rw [core_dropKids_of_not_mem _ hx, core_dropKid_self s hlive hheld]
    · have hne : futKey h ≠ futKey x := fun he => hx (he ▸ List.mem_map_of_mem hm)
      have hsame := core_dropKid_of_ne s hne
      rw [ih _ hnd hm ((futLive_of_core hsame).trans hlive) (by simpa [hheld] using congrArg Fut.held hsame), hsame]

/-- The children of a list are dropped in a state whose futures are those after the drops, by their cores. -/
theorem dropsKids_of_core {v w : State} {kids : List Nat} (hv : SameCores v w)
    (hcore : ∀ h ∈ kids, (t.fut (futKey h)).core = ((w.dropKids kids).fut (futKey h)).core) : DropsKids v t kids := by
  intro hnd h hm hlive hheld
  have hsame := hv (futKey h)
  have hlive' : w.futLive h = true := (futLive_of_core hsame).trans hlive
  have hheld' : (w.fut (futKey h)).held = true := by simpa [hheld] using congrArg Fut.held hsame
  have hc := ((hcore h hm).trans (core_dropKids_of_mem w hnd hm hlive' hheld')).trans (by rw [hsame])
  generalize t.fut (futKey h) = g at hc
  generalize v.fut (futKey h) = f at hc
  refine ⟨fun h1 => ?_, fun h1 hend => ?_, fun h1 hrun => ?_⟩
  · rw [Fut.dropped_of_shared (f := f.core.unheld) h1] at hc
    exact ⟨by simpa [Fut.unheld] using congrArg Fut.st hc, by simpa [Fut.unheld] using congrArg Fut.count hc,
      by simpa [Fut.unheld] using congrArg Fut.held hc⟩
  · rw [Fut.dropped_of_over (f := f.core.unheld) h1 hend] at hc
    exact ⟨by simpa using congrArg Fut.st hc, by simpa [Fut.unheld] using congrArg Fut.gen hc⟩
  · rw [Fut.dropped_of_running (f := f.core.unheld) h1 hrun] at hc
    exact ⟨by simpa using congrArg Fut.st hc, by simpa using congrArg Fut.count hc, by simpa [Fut.unheld] using congrArg Fut.held hc⟩

end Sys2Proof.Machine
end

section
/-!
SUPPORT. The end of memberships (R253) and of streams (R179), one after the other.
-/

namespace Sys2Proof.Machine

variable {s t u : State} {n h k : Nat}

/-! ## Barriers -/

/-- Two handles of one entry of one table of barriers. -/
def SameBarrier (h k : Nat) : Prop := barScope h = barScope k ∧ barIndex h = barIndex k

theorem State.barrier_setBarrier_of_same (s : State) (n : Nat) (b : Barrier) (hs : SameBarrier h k) : (s.setBarrier n h b).barrier n k = b := by
  obtain ⟨hscope, hindex⟩ := hs
  unfold State.setBarrier State.barrier
  rw [hscope, hindex]
  split
  · rw [State.sc_modSc_self, tgetD_tput_self]
  · exact tgetD_tput_self _ _ _ _

theorem State.barrier_setBarrier_of_ne (s : State) (n : Nat) (b : Barrier) (hs : ¬SameBarrier h k) :
    (s.setBarrier n h b).barrier n k = s.barrier n k := by
  unfold State.setBarrier State.barrier
  by_cases hh : barScope h = 0 <;> by_cases hk : barScope k = 0
  · have hne : barIndex k ≠ barIndex h := fun he => hs ⟨hh.trans hk.symm, he.symm⟩
    rw [if_pos hh, if_pos hk, if_pos hk, State.sc_modSc_self, tgetD_tput_of_ne _ _ _ hne]
  · rw [if_pos hh, if_neg hk, if_neg hk]
    rfl
  · rw [if_neg hh, if_pos hk, if_pos hk]
    rfl
  · have hne : (barScope k - 1) * 1024 + barIndex k ≠ (barScope h - 1) * 1024 + barIndex h := fun he => hs (by
      unfold SameBarrier
      unfold barIndex bitsNat at *
      omega)
    rw [if_neg hh, if_neg hk, if_neg hk]
    exact tgetD_tput_of_ne _ _ _ hne

/-- The handles of an entry in use, which its generation makes one. -/
theorem eq_of_barOk (hs : SameBarrier h k) (hh : s.barOk n h = true) (hk : s.barOk n k = true) : h = k := by
  have hb : s.barrier n h = s.barrier n k := by
    unfold State.barrier
    rw [hs.1, hs.2]
  simp only [State.barOk, Bool.and_eq_true, decide_eq_true_eq, beq_iff_eq, hb] at hh hk
  obtain ⟨⟨⟨⟨⟨hh32, -⟩, -⟩, -⟩, hhgen⟩, -⟩ := hh
  obtain ⟨⟨⟨⟨⟨hk32, -⟩, -⟩, -⟩, hkgen⟩, -⟩ := hk
  have hgen := hhgen.symm.trans hkgen
  obtain ⟨hscope, hindex⟩ := hs
  unfold barScope barIndex bitsNat at *
  omega

/-- A live handle stays live where its entry is in use under its generation. -/
theorem barOk_of_barrier (htopo : t.topo = s.topo) (hused : (t.barrier n h).used = (s.barrier n h).used)
    (hgen : (t.barrier n h).gen = (s.barrier n h).gen) : t.barOk n h = s.barOk n h := by
  rw [State.barOk, State.barOk, hused, hgen, htopo]

/-- What the end of a membership makes of its barrier. -/
def Member.ended (m : Member) (b : Barrier) : Barrier := if m.phase = b.phase then { b with drops := b.drops + 1 } else b.arrive true

theorem Member.ended_used (m : Member) (b : Barrier) : (m.ended b).used = b.used := by
  unfold Member.ended Barrier.arrive
  dsimp only
  split
  · rfl
  · split <;> rfl

theorem Member.ended_gen (m : Member) (b : Barrier) : (m.ended b).gen = b.gen := by
  unfold Member.ended Barrier.arrive
  dsimp only
  split
  · rfl
  · split <;> rfl

/-- The end of a membership does nothing, or changes the entry of its live handle. -/
theorem State.endMember_cases (s : State) (n : Nat) (m : Member) :
    s.endMember n m = s ∨ (s.barOk n m.h = true ∧ s.endMember n m = s.setBarrier n m.h (m.ended (s.barrier n m.h))) := by
  unfold State.endMember Member.ended
  split
  · exact .inl rfl
  · next hm =>
    have hok : s.barOk n m.h = true := by
      simp only [Bool.or_eq_true, Bool.not_eq_true', not_or, Bool.not_eq_false] at hm
      exact hm.2
    dsimp only
    split
    · exact .inl rfl
    · refine .inr ⟨hok, ?_⟩
      split <;> rfl

theorem State.endMember_live (s : State) (n : Nat) {m : Member} (hd : m.dropped = false) (hok : s.barOk n m.h = true)
    (he : (s.barrier n m.h).exp ≠ 0) : s.endMember n m = s.setBarrier n m.h (m.ended (s.barrier n m.h)) := by
  unfold State.endMember Member.ended
  rw [hd, hok]
  dsimp only
  rw [if_neg (by decide), if_neg he]
  split <;> rfl

theorem topo_setBarrier (s : State) (n h : Nat) (b : Barrier) : (s.setBarrier n h b).topo = s.topo := by
  unfold State.setBarrier
  split <;> rfl

/-- The end of a membership leaves the entry of every other live handle. -/
theorem endMember_of_ne {m : Member} (hok : s.barOk n k = true) (hne : m.h ≠ k) :
    (s.endMember n m).barrier n k = s.barrier n k ∧ (s.endMember n m).barOk n k = true := by
  rcases s.endMember_cases n m with he | ⟨hm, he⟩
  · rw [he]
    exact ⟨rfl, hok⟩
  · have hsame : ¬SameBarrier m.h k := fun hs => hne (eq_of_barOk hs hm hok)
    have hb := s.barrier_setBarrier_of_ne n (m.ended (s.barrier n m.h)) hsame
    rw [he]
    exact ⟨hb, (barOk_of_barrier (topo_setBarrier _ _ _ _) (by rw [hb]) (by rw [hb])).trans hok⟩

theorem endMembers_cons (s : State) (n : Nat) (m : Member) (ms : List Member) :
    s.endMembers n (m :: ms) = (s.endMember n m).endMembers n ms := rfl

theorem barrier_endMembers_of_not_mem {ms : List Member} (hok : s.barOk n k = true) (hk : k ∉ ms.map Member.h) :
    (s.endMembers n ms).barrier n k = s.barrier n k := by
  induction ms generalizing s with
  | nil => rfl
  | cons m ms ih =>
    rw [List.map_cons, List.mem_cons, not_or] at hk
    obtain ⟨hb, hok'⟩ := endMember_of_ne hok (Ne.symm hk.1)
    rw [endMembers_cons, ih hok' hk.2, hb]

/-- Memberships end one after the other, each on a barrier of its own. -/
theorem endsMembers_endMembers (v : State) (n : Nat) (ms : List Member) : EndsMembers v (v.endMembers n ms) n ms := by
  intro hnd m hm hd hok he
  show (v.endMembers n ms).barrier n m.h = m.ended (v.barrier n m.h)
  induction ms generalizing v with
  | nil => cases hm
  | cons x ms ih =>
    rw [List.map_cons, List.nodup_cons] at hnd
    obtain ⟨hx, hnd⟩ := hnd
    rw [endMembers_cons]
    rcases List.mem_cons.1 hm with rfl | hm
    · have hlive := v.endMember_live n hd hok he
      have hb : (v.endMember n m).barrier n m.h = m.ended (v.barrier n m.h) := by
        rw [hlive, v.barrier_setBarrier_of_same n _ ⟨rfl, rfl⟩]
      have hok' : (v.endMember n m).barOk n m.h = true := by
        refine (barOk_of_barrier ?_ ?_ ?_).trans hok
        · rw [hlive, topo_setBarrier]
        · rw [hb, Member.ended_used]
        · rw [hb, Member.ended_gen]
      rw [barrier_endMembers_of_not_mem hok' hx, hb]
    · have hne : x.h ≠ m.h := fun he => hx (he ▸ List.mem_map_of_mem hm)
      obtain ⟨hb, hok'⟩ := endMember_of_ne hok hne
      rw [ih _ hnd hm hok' (by rw [hb]; exact he), hb]

/-! ## Streams -/

/-- The stream of a key, released: it goes once no entry uses it. -/
def releasedStream (es : List Entry) (d : Nat) (x : Option Stream) : Option Stream :=
  if es.any (fun e => e.uses d && e.st != .retired) then x.map fun y => { y with dying := true } else none

theorem State.entries_releaseStream (s : State) (n d : Nat) : ((s.releaseStream n d).sc n).entries = (s.sc n).entries := by
  unfold State.releaseStream
  split
  · rw [State.sc_modSc_self]
  · rw [State.freeStream, State.sc_modSc_self]
    rfl

theorem State.tget_releaseStream_self (s : State) (n d : Nat) :
    tget ((s.releaseStream n d).sc n).streams d = releasedStream (s.sc n).entries d (tget (s.sc n).streams d) := by
  unfold State.releaseStream releasedStream
  split
  · rw [State.sc_modSc_self]
    dsimp only
    rw [tget_tmod, if_pos rfl]
  · rw [State.freeStream, State.sc_modSc_self]
    exact tget_tdel_self _ _

theorem State.tget_releaseStream_of_ne (s : State) (n : Nat) {d e : Nat} (he : e ≠ d) :
    tget ((s.releaseStream n d).sc n).streams e = tget (s.sc n).streams e := by
  unfold State.releaseStream
  split
  · rw [State.sc_modSc_self]
    dsimp only
    rw [tget_tmod, if_neg he]
  · rw [State.freeStream, State.sc_modSc_self]
    exact tget_tdel_of_ne _ he

theorem releasedStream_twice (es : List Entry) (d : Nat) (x : Option Stream) :
    releasedStream es d (releasedStream es d x) = releasedStream es d x := by
  unfold releasedStream
  split
  · cases x <;> rfl
  · rfl

/-- Streams released one after the other. -/
theorem tget_foldl_releaseStream (s : State) (n d : Nat) (ds : List Nat) :
    tget ((ds.foldl (fun t d => t.releaseStream n d) s).sc n).streams d =
      if d ∈ ds then releasedStream (s.sc n).entries d (tget (s.sc n).streams d) else tget (s.sc n).streams d := by
  induction ds generalizing s with
  | nil => rfl
  | cons e ds ih =>
    rw [List.foldl_cons, ih, s.entries_releaseStream n e]
    by_cases he : d = e
    · subst he
      rw [s.tget_releaseStream_self n d, releasedStream_twice, if_pos List.mem_cons_self, ite_self]
    · rw [s.tget_releaseStream_of_ne n he]
      simp only [List.mem_cons, he, false_or]

theorem mem_ownStreams {x : Sc} {o : Owner} {d : Nat} {y : Stream} (hd : tget x.streams d = some y) (ho : y.owner = o)
    (hy : y.dying = false) : d ∈ ownStreams x o := by
  have hmem : (d, y) ∈ x.streams := mem_of_tget hd
  exact List.mem_map.2 ⟨(d, y), List.mem_filter.2 ⟨hmem, by simp [ho, hy]⟩, rfl⟩

/-- The streams of an owner are freed, where the scoreboard and the streams of the cluster are those of `v`. -/
theorem freesStreams_releaseStreams {v : State} (hv : SameJobs v s) (n : Nat) (o : Owner) : FreesStreams v (s.releaseStreams n o) n o := by
  intro d x hd ho hx
  have hown : d ∈ ownStreams (s.sc n) o := mem_ownStreams (by rw [(hv n).2]; exact hd) ho hx
  rw [State.releaseStreams, tget_foldl_releaseStream, if_pos hown, (hv n).1, (hv n).2, hd]
  rfl

end Sys2Proof.Machine
end

section
/-!
SUPPORT. The end of the activity of a message or system context (R206, R246).
-/

namespace Sys2Proof.Machine

variable {s t u : State} {n c : Nat}

/-! ## What its steps leave -/

theorem futs_setBarrier (s : State) (n h : Nat) (b : Barrier) : (s.setBarrier n h b).futs = s.futs := by
  unfold State.setBarrier
  split <;> rfl

theorem launches_setBarrier (s : State) (n h : Nat) (b : Barrier) : (s.setBarrier n h b).launches = s.launches := by
  unfold State.setBarrier
  split <;> rfl

theorem samePcs_setBarrier (s : State) (n h : Nat) (b : Barrier) : SamePcs s (s.setBarrier n h b) := by
  unfold State.setBarrier
  split
  · exact samePcs_modSc _ _ _ fun _ => rfl
  · exact ⟨rfl, fun _ _ => rfl⟩

theorem sameJobs_setBarrier (s : State) (n h : Nat) (b : Barrier) : SameJobs s (s.setBarrier n h b) := by
  unfold State.setBarrier
  split
  · exact sameJobs_modSc _ _ _ fun _ => ⟨rfl, rfl⟩
  · exact sameJobs_of_scs rfl

/-- The end of memberships changes barriers alone. -/
theorem endMembers_leaves (s : State) (n : Nat) (ms : List Member) :
    (s.endMembers n ms).futs = s.futs ∧ (s.endMembers n ms).launches = s.launches ∧ SamePcs s (s.endMembers n ms)
      ∧ SameJobs s (s.endMembers n ms) := by
  induction ms generalizing s with
  | nil => exact ⟨rfl, rfl, .refl s, .refl s⟩
  | cons m ms ih =>
    obtain ⟨hfuts, hlaunches, hpcs, hjobs⟩ := ih (s.endMember n m)
    rw [endMembers_cons]
    rcases s.endMember_cases n m with he | ⟨-, he⟩
    · rw [he] at hfuts hlaunches hpcs hjobs ⊢
      exact ⟨hfuts, hlaunches, hpcs, hjobs⟩
    · rw [he] at hfuts hlaunches hpcs hjobs ⊢
      exact ⟨hfuts.trans (futs_setBarrier _ _ _ _), hlaunches.trans (launches_setBarrier _ _ _ _),
        (samePcs_setBarrier _ _ _ _).trans hpcs, (sameJobs_setBarrier _ _ _ _).trans hjobs⟩

theorem releaseStream_leaves (s : State) (n d : Nat) :
    (s.releaseStream n d).futs = s.futs ∧ (s.releaseStream n d).launches = s.launches ∧ SamePcs s (s.releaseStream n d)
      ∧ SameBars s (s.releaseStream n d) := by
  unfold State.releaseStream
  split
  · exact ⟨rfl, rfl, samePcs_modSc _ _ _ fun _ => rfl, sameBars_modSc _ _ _ fun _ => rfl⟩
  · unfold State.freeStream
    have hrefund : SameUse s (s.refundSrf (s.stream n d).region (s.stream n d).charge) := sameUse_of_scs rfl rfl rfl
    exact ⟨rfl, rfl, hrefund.pcs.trans (samePcs_modSc _ _ _ fun _ => rfl), hrefund.bars.trans (sameBars_modSc _ _ _ fun _ => rfl)⟩

/-- The release of streams changes them alone, and what regions are charged. -/
theorem releaseStreams_leaves (s : State) (n : Nat) (o : Owner) :
    (s.releaseStreams n o).futs = s.futs ∧ (s.releaseStreams n o).launches = s.launches ∧ SamePcs s (s.releaseStreams n o)
      ∧ SameBars s (s.releaseStreams n o) := by
  unfold State.releaseStreams
  generalize ownStreams (s.sc n) o = ds
  induction ds generalizing s with
  | nil => exact ⟨rfl, rfl, .refl s, .refl s⟩
  | cons d ds ih =>
    obtain ⟨hfuts, hlaunches, hpcs, hbars⟩ := ih (s.releaseStream n d)
    obtain ⟨hfuts', hlaunches', hpcs', hbars'⟩ := releaseStream_leaves s n d
    exact ⟨hfuts.trans hfuts', hlaunches.trans hlaunches', hpcs'.trans hpcs, hbars'.trans hbars⟩

theorem samePcs_cancelWaiting (s : State) (n : Nat) (o : Owner) : SamePcs s (s.cancelWaiting n o) := samePcs_modSc s n _ fun _ => rfl

/-- No WAITING entry of an owner is left once they are cancelled. -/
theorem not_waiting_of_cancelWaiting (s : State) (n : Nat) (o : Owner) :
    ∀ e ∈ ((s.cancelWaiting n o).sc n).entries, e.owner = o → e.st ≠ .waiting := by
  intro e he ho hw
  rw [State.cancelWaiting, State.sc_modSc_self] at he
  obtain ⟨hmem, hkept⟩ := List.mem_filter.1 he
  have hgone : e.id ∈ ((s.sc n).entries.filter fun e => e.owner == o && e.st == .waiting).map Entry.id :=
    List.mem_map_of_mem (List.mem_filter.2 ⟨hmem, by simp [ho, hw]⟩)
  rw [List.contains_iff_mem.2 hgone] at hkept
  cases hkept

/-! ## Leaving the context -/

theorem State.sc_orphan (s : State) (n c m : Nat) : ∃ es rs, (s.orphan n c).sc m = { s.sc m with entries := es, runs := rs } := by
  unfold State.orphan State.modSc State.setSc State.sc
  dsimp only
  rw [tgetD_tput]
  split
  · next h => rw [h]; exact ⟨_, _, rfl⟩
  · exact ⟨_, _, rfl⟩

theorem State.streams_orphan (s : State) (n c : Nat) : ((s.orphan n c).sc n).streams = (s.sc n).streams := by
  obtain ⟨es, rs, h⟩ := s.sc_orphan n c n
  rw [h]

theorem sameBars_orphan (s : State) (n c : Nat) : SameBars s (s.orphan n c) := by
  refine ⟨rfl, fun m => ?_⟩
  obtain ⟨es, rs, h⟩ := s.sc_orphan n c m
  rw [h]

theorem samePcs_orphan (s : State) (n c : Nat) : SamePcs s (s.orphan n c) := by
  refine ⟨rfl, fun m d => ?_⟩
  obtain ⟨es, rs, h⟩ := s.sc_orphan n c m
  rw [State.ctx, h]
  rfl

/-- A context whose OWNER is no longer c. -/
def Ctx.disowned (c : Nat) (x : Ctx) : Ctx := if x.owner = c then { x with owner := 31 } else x

theorem State.disown_eq (s : State) (n c : Nat) :
    s.disown n c = (s.modCtx n 18 (Ctx.disowned c)).modCtx n 19 (Ctx.disowned c) := rfl

theorem Ctx.disowned_but_owner (c : Nat) (x : Ctx) : ∃ o, x.disowned c = { x with owner := o } := by
  unfold Ctx.disowned
  split
  · exact ⟨31, rfl⟩
  · exact ⟨x.owner, rfl⟩

theorem sameUse_disown (s : State) (n c : Nat) : SameUse s (s.disown n c) := by
  have hpc : ∀ x : Ctx, (x.disowned c).pc = x.pc := fun x => by
    obtain ⟨o, ho⟩ := x.disowned_but_owner c
    rw [ho]
  rw [State.disown_eq]
  exact ⟨(samePcs_modCtx s n 18 _ hpc).trans (samePcs_modCtx _ n 19 _ hpc),
    (sameBars_modCtx s n 18 _).trans (sameBars_modCtx _ n 19 _), (sameJobs_modCtx s n 18 _).trans (sameJobs_modCtx _ n 19 _)⟩

theorem State.ctx_modCtx_disowned (s : State) (n e c m d : Nat) :
    ∃ o, (s.modCtx n e (Ctx.disowned c)).ctx m d = { s.ctx m d with owner := o } := by
  rw [State.ctx_modCtx]
  split
  · next h => rw [h.1, h.2]; exact Ctx.disowned_but_owner _ _
  · exact ⟨(s.ctx m d).owner, rfl⟩

theorem State.ctx_disown (s : State) (n c m d : Nat) : ∃ o, (s.disown n c).ctx m d = { s.ctx m d with owner := o } := by
  obtain ⟨o, ho⟩ := s.ctx_modCtx_disowned n 18 c m d
  obtain ⟨o', ho'⟩ := (s.modCtx n 18 (Ctx.disowned c)).ctx_modCtx_disowned n 19 c m d
  exact ⟨o', by rw [State.disown_eq, ho', ho]⟩

/-- A cluster whose queues context c has left. -/
def Sc.left (c : Nat) (x : Sc) : Sc := { x with trapQ := x.trapQ.filter (· != c), tagQ := x.tagQ.filter fun e => e.1 != c }

theorem State.vacate_eq (s : State) (n c : Nat) : s.vacate n c = ((s.modCtx n c freeCtx).modSc n (Sc.left c)).disown n c := rfl

theorem sameJobs_vacate (s : State) (n c : Nat) : SameJobs s (s.vacate n c) :=
  ((sameJobs_modCtx s n c freeCtx).trans (sameJobs_modSc _ n (Sc.left c) fun _ => ⟨rfl, rfl⟩)).trans (sameUse_disown _ n c).jobs

theorem sameBars_vacate (s : State) (n c : Nat) : SameBars s (s.vacate n c) :=
  ((sameBars_modCtx s n c freeCtx).trans (sameBars_modSc _ n (Sc.left c) fun _ => rfl)).trans (sameUse_disown _ n c).bars

theorem State.st_vacate (s : State) (n c : Nat) : ((s.vacate n c).ctx n c).st = .free := by
  obtain ⟨o, ho⟩ := ((s.modCtx n c freeCtx).modSc n (Sc.left c)).ctx_disown n c n c
  rw [State.vacate_eq, ho, State.ctx_modSc_of _ n (Sc.left c) fun _ => rfl, State.ctx_modCtx_self]
  rfl

/-- A context that leaves moves no other. -/
theorem State.me_pc_vacate (s : State) (n : Nat) {c : Nat} (hc : c ≠ s.cur.ctx) : (s.vacate n c).me.pc = s.me.pc := by
  have hother : ((s.modCtx n c freeCtx).modSc n (Sc.left c)).me = s.me := by
    unfold State.me
    rw [State.ctx_modSc_of _ n (Sc.left c) fun _ => rfl]
    exact (s.ctx_modCtx n c s.cur.sc s.cur.ctx freeCtx).trans (if_neg fun h => hc h.2.symm)
  rw [State.vacate_eq, (sameUse_disown _ _ _).pcs.me_pc, hother]

/-! ## The end -/

theorem EndsMembers.congr {v : State} {ms : List Member} (h : EndsMembers v s n ms) (hst : SameBars s t) : EndsMembers v t n ms :=
  fun hnd m hm hd hok he => (hst.barrier n m.h).trans (h hnd m hm hd hok he)

theorem FreesStreams.congr {v : State} {o : Owner} (h : FreesStreams v s n o) (hst : (t.sc n).streams = (s.sc n).streams) :
    FreesStreams v t n o := fun d x hd ho hx => by rw [hst]; exact h d x hd ho hx

/-- What follows the end of an activity on its cluster and leaves futures, barriers and streams alone. -/
theorem ActivityOver.congr (h : ActivityOver s t n c) (hst : (u.ctx n c).st = (t.ctx n c).st) (hfuts : u.futs = t.futs) (hbars : SameBars t u)
    (hjobs : SameJobs t u) : ActivityOver s u n c := by
  obtain ⟨hfree, hwait, hkids, hmembers, hstreams⟩ := h
  refine ⟨hst.trans hfree, hwait, ?_, hmembers.congr hbars, hstreams.congr (hjobs n).2⟩
  have hfut : ∀ k, u.fut k = t.fut k := fun k => by rw [State.fut, State.fut, hfuts]
  intro hnd x hx hlive hheld
  rw [hfut]
  exact hkids hnd x hx hlive hheld

theorem activityOver_endActivity (s : State) (n c : Nat) : ActivityOver s (s.endActivity n c) n c := by
  unfold ActivityOver State.endActivity
  dsimp only
  generalize hv : s.cancelWaiting n (.ctx c) = v
  obtain ⟨hfuts1, -, -, hjobs1⟩ := endMembers_leaves v n (s.ctx n c).members
  generalize hw : v.endMembers n (s.ctx n c).members = w at *
  have hkids := sameUse_dropKids w (s.ctx n c).kids
  generalize hx : w.dropKids (s.ctx n c).kids = x at *
  obtain ⟨hfuts2, -, -, hbars2⟩ := releaseStreams_leaves x n (.ctx c)
  have hfrees := freesStreams_releaseStreams (hjobs1.trans hkids.jobs) n (.ctx c)
  generalize x.releaseStreams n (.ctx c) = y at *
  have hreplies := sameUse_dropReplies y n (.ctx c)
  have hbars : SameBars w (((y.dropReplies n (.ctx c)).orphan n c).vacate n c) :=
    (((hkids.bars.trans hbars2).trans hreplies.bars).trans (sameBars_orphan _ n c)).trans (sameBars_vacate _ n c)
  have hstreams : ((((y.dropReplies n (.ctx c)).orphan n c).vacate n c).sc n).streams = (y.sc n).streams :=
    ((sameJobs_vacate _ n c n).2.trans (State.streams_orphan _ n c)).trans (hreplies.jobs n).2
  refine ⟨State.st_vacate _ n c, ?_, ?_, ?_, hfrees.congr hstreams⟩
  · rw [← hv]
    exact not_waiting_of_cancelWaiting s n (.ctx c)
  · refine dropsKids_of_core (sameCores_of_futs hfuts1) fun h _ => ?_
    rw [hx]
    exact sameCores_of_futs (t := ((y.dropReplies n (.ctx c)).orphan n c).vacate n c) hfuts2 _
  · rw [← hw] at hbars
    exact (endsMembers_endMembers v n _).congr hbars

/-- The end of another context's activity moves the executing context no further. -/
theorem State.me_pc_endActivity (s : State) (n : Nat) {c : Nat} (hc : c ≠ s.cur.ctx) : (s.endActivity n c).me.pc = s.me.pc := by
  unfold State.endActivity
  dsimp only
  have hcancel := samePcs_cancelWaiting s n (.ctx c)
  generalize s.cancelWaiting n (.ctx c) = v at *
  obtain ⟨-, -, hmembers, -⟩ := endMembers_leaves v n (s.ctx n c).members
  generalize v.endMembers n (s.ctx n c).members = w at *
  have hkids := (sameUse_dropKids w (s.ctx n c).kids).pcs
  generalize w.dropKids (s.ctx n c).kids = x at *
  obtain ⟨-, -, hstreams, -⟩ := releaseStreams_leaves x n (.ctx c)
  generalize x.releaseStreams n (.ctx c) = y at *
  have hall := ((((hcancel.trans hmembers).trans hkids).trans hstreams).trans (sameUse_dropReplies y n (.ctx c)).pcs).trans
    (samePcs_orphan _ n c)
  rw [State.me_pc_vacate _ n (by rw [hall.cur]; exact hc), hall.me_pc]

end Sys2Proof.Machine
end

section
/-!
SUPPORT. The end of a task (R238, R242, R246, R259, R335).
-/

namespace Sys2Proof.Machine

variable {s t u : State} {j k n : Nat}

/-! ## The node of a task (R259) -/

/-- The future that stands for a graph. -/
def State.graphFut (s : State) (g : Nat) : Option Nat := (tget s.graphs g).map Graph.fut

/-- The futures, and which of them stand for graphs, are those of `s`. -/
structure SameGraphs (s t : State) : Prop where
  futs : t.futs = s.futs
  graphFut : ∀ g, t.graphFut g = s.graphFut g

theorem SameGraphs.refl (s : State) : SameGraphs s s := ⟨rfl, fun _ => rfl⟩

theorem SameGraphs.trans (h : SameGraphs s t) (h' : SameGraphs t u) : SameGraphs s u :=
  ⟨h'.futs.trans h.futs, fun g => (h'.graphFut g).trans (h.graphFut g)⟩

theorem sameGraphs_of_tmod {g : Nat} {f : Graph → Graph} (hfuts : t.futs = s.futs) (hgraphs : t.graphs = tmod s.graphs g f)
    (hf : ∀ x, (f x).fut = x.fut) : SameGraphs s t := by
  refine ⟨hfuts, fun i => ?_⟩
  rw [State.graphFut, State.graphFut, hgraphs, tget_tmod]
  split
  · cases tget s.graphs i with
    | none => rfl
    | some x => exact congrArg some (hf x)
  · rfl

theorem sameGraphs_modNode (s : State) (g i : Nat) (f : Node → Node) : SameGraphs s (s.modNode g i f) :=
  sameGraphs_of_tmod (f := fun x => { x with nodes := x.nodes.modify i f }) rfl rfl fun _ => rfl

theorem sameGraphs_sendEdges (s : State) (g : Nat) (ns : List Nat) (e : EdgeKind) : SameGraphs s (s.sendEdges g ns e) := by
  unfold State.sendEdges
  generalize s.cycle = now
  induction ns generalizing s with
  | nil => exact .refl s
  | cons i ns ih => exact (sameGraphs_modNode s g i _).trans (ih _)

theorem sameGraphs_leaveMotion (s : State) (n : Nat) (o : Owner) (f : Fut) : SameGraphs s (s.leaveMotion n o f) := by
  unfold State.leaveMotion
  dsimp only
  split
  · exact .refl s
  · cases f.node with
    | none => exact ⟨rfl, fun _ => rfl⟩
    | some p => exact sameGraphs_of_tmod (f := fun x => { x with motion := x.motion ++ [s.motionOf n o] }) rfl rfl fun _ => rfl

theorem core_graphLaunchDone_of_ne (s : State) {l result : Nat} (hj : j ≠ k) :
    ((s.graphLaunchDone l k result).fut j).core = (s.fut j).core := by
  unfold State.graphLaunchDone
  split
  · rfl
  · dsimp only
    rw [core_dropCount_of_ne _ hj]
    exact sameCores_of_futs (congrArg Tables.futs (tables_writeBlock s _ _ _ _ _ _ _ _)) j

theorem core_payGraph_of_ne (s : State) {o : Owed} (hj : j ≠ o.fut) : ((s.payGraph o).fut j).core = (s.fut j).core := by
  have hflag : SameCores s (if o.flag = 0 then s else s.incFlag o.sc (s.sc o.sc).root o.flag) := by
    split
    · exact .refl s
    · exact sameCores_of_futs (congrArg Tables.futs (tables_incFlag _ _ _ _))
  unfold State.payGraph
  dsimp only
  split
  · exact (core_graphLaunchDone_of_ne _ hj).trans (hflag j)
  · exact hflag j

theorem core_finishGraph_of_ne (s : State) {g : Nat} (hg : s.graphFut g ≠ some j) : ((s.finishGraph g).fut j).core = (s.fut j).core := by
  unfold State.finishGraph
  split
  · rfl
  · next x hx =>
    have hj : j ≠ x.fut := fun he => hg (by rw [State.graphFut, hx, he]; rfl)
    have hother : ∀ f, (s.modFut x.fut f).fut j = s.fut j := fun f => (s.fut_modFut _ _ f).trans (if_neg hj)
    dsimp only
    split
    · split
      · exact (core_payGraph_of_ne _ hj).trans (congrArg Fut.core (hother _))
      · exact congrArg Fut.core (tgetD_tput_of_ne s.futs _ _ hj)
    · rfl

theorem core_endNode_of_ne (s : State) {g i : Nat} {k0 : EdgeKind} {k1 : Option EdgeKind} {fault : Option Nat}
    (hg : s.graphFut g ≠ some j) : ((s.endNode g i k0 k1 fault).fut j).core = (s.fut j).core := by
  have hend : ∀ t, SameGraphs s t → ((t.finishGraph g).fut j).core = (s.fut j).core := fun t ht =>
    (core_finishGraph_of_ne t (by rw [ht.graphFut]; exact hg)).trans (sameCores_of_futs ht.futs j)
  have hcount : ∀ t f, (∀ x, (f x).fut = x.fut) → SameGraphs t { t with graphs := tmod t.graphs g f } := fun t f hf =>
    sameGraphs_of_tmod rfl rfl hf
  unfold State.endNode
  dsimp only
  refine hend _ ?_
  cases k1 with
  | none =>
    refine SameGraphs.trans ?_ (sameGraphs_sendEdges _ _ _ _)
    exact (sameGraphs_modNode s g i _).trans (hcount _ _ fun _ => rfl)
  | some e =>
    refine (SameGraphs.trans ?_ (sameGraphs_sendEdges _ _ _ _)).trans (sameGraphs_sendEdges _ _ _ _)
    exact (sameGraphs_modNode s g i _).trans (hcount _ _ fun _ => rfl)

/-- The end of a task's node leaves every future but the graph's. -/
theorem core_nodeEnd_of_ne (s : State) {f : Fut} {fault : Option Nat} (hg : ∀ p, f.node = some p → s.graphFut p.1 ≠ some j) :
    ((s.nodeEnd f fault).fut j).core = (s.fut j).core := by
  unfold State.nodeEnd
  split
  · rfl
  · next g i hnode =>
    split
    · exact core_endNode_of_ne s (hg (g, i) hnode)
    · rfl

/-- The future of a task that ends, where it stands for no graph of its node: what it was, with its state, STATUS and RESULT. -/
theorem core_ending (s : State) (n c : Nat) (st : FutSt) (status : Nat) (result : Word)
    (hg : ∀ p, (s.fut (futKey (s.ctx n c).fut.toNat)).node = some p → (tgetD s.graphs p.1 {}).fut ≠ futKey (s.ctx n c).fut.toNat) :
    ((s.ending n c st status result).fut (futKey (s.ctx n c).fut.toNat)).core =
      { (s.fut (futKey (s.ctx n c).fut.toNat)).core with st := st, status := status, result := result } := by
  unfold State.ending
  dsimp only
  generalize futKey (s.ctx n c).fut.toNat = k at *
  have hmotion := sameGraphs_leaveMotion ((s.modFut k fun y => { y with st := st, status := status, result := result }).cancelWaiting n
    (.task (s.handleOf k))) n (.task (s.handleOf k)) (s.fut k)
  refine (core_nodeEnd_of_ne _ fun p hp hk => ?_).trans ?_
  · rw [hmotion.graphFut] at hk
    obtain ⟨x, hx, hfut⟩ := Option.map_eq_some_iff.1 hk
    have hget : tget s.graphs p.1 = some x := hx
    exact hg p hp (by rw [tgetD, hget]; exact hfut)
  · refine (sameCores_of_futs hmotion.futs k).trans ?_
    have hfut := State.fut_modFut s k k fun y => { y with st := st, status := status, result := result }
    rw [if_pos rfl] at hfut
    exact congrArg Fut.core hfut

/-! ## The launch of a task (R335) -/

/-- Every launch of `s` is there, but for how many tasks of it hold a context. -/
def SameLaunches (s t : State) : Prop := ∀ l y, tget s.launches l = some y → ∃ r, tget t.launches l = some { y with running := r }

theorem sameLaunches_of_launches (h : t.launches = s.launches) : SameLaunches s t := fun l y hy => ⟨y.running, by rw [h]; exact hy⟩

theorem SameLaunches.trans (h : SameLaunches s t) (h' : SameLaunches t u) : SameLaunches s u := fun l y hy => by
  obtain ⟨r, hr⟩ := h l y hy
  obtain ⟨r', hr'⟩ := h' l _ hr
  exact ⟨r', hr'⟩

theorem launches_unhold (s : State) (k : Nat) : (s.unhold k).launches = s.launches := by
  unfold State.unhold
  dsimp only
  cases (s.fut k).parent with
  | nobody => rfl
  | task p =>
    rw [State.unlinkKid]
    split <;> rfl
  | ctx n c => rfl

theorem launches_freeFut (s : State) (k : Nat) : (s.freeFut k).launches = s.launches := launches_unhold s k

theorem launches_dropCount (s : State) (k : Nat) : (s.dropCount k).launches = s.launches := by
  unfold State.dropCount
  dsimp only
  split
  · rfl
  · split
    · exact launches_freeFut _ k
    · split
      · exact launches_freeFut _ k
      · split <;> rfl

theorem launches_dropKids (s : State) (kids : List Nat) : (s.dropKids kids).launches = s.launches := by
  induction kids generalizing s with
  | nil => rfl
  | cons h kids ih =>
    rw [State.dropKids_cons, ih, State.dropKid]
    split
    · rw [launches_dropCount, launches_unhold]
    · rfl

theorem sameLaunches_uncharge (s : State) (k : Nat) : SameLaunches s (s.uncharge k) := by
  unfold State.uncharge
  dsimp only
  split
  · split
    · next l hl =>
      intro i y hy
      dsimp only
      rw [tget_tmod]
      have hget : tget ((s.refundCtx (s.fut k).rcb).modFut k fun x => { x with charged := false }).launches i = some y := hy
      split
      · exact ⟨y.running - 1, by rw [hget]; rfl⟩
      · exact ⟨y.running, hget⟩
    · exact sameLaunches_of_launches rfl
  · exact sameLaunches_of_launches rfl

theorem sameCores_uncharge (s : State) (k : Nat) : SameCores s (s.uncharge k) := by
  have hcharged := sameCores_modFut (s.refundCtx (s.fut k).rcb) k (fun x => { x with charged := false }) fun _ => rfl
  unfold State.uncharge
  dsimp only
  split
  · split
    · exact hcharged
    · exact hcharged
  · exact .refl s

theorem sameCores_refundTask (s : State) (k : Nat) : SameCores s (s.refundTask k) := by
  have hpsrf := sameCores_modFut (s.refundSrf (s.fut k).rcb (s.fut k).psrf) k (fun x => { x with psrf := 0 }) fun _ => rfl
  exact SameCores.trans hpsrf (sameCores_uncharge _ k)

theorem sameLaunches_refundTask (s : State) (k : Nat) : SameLaunches s (s.refundTask k) := by
  unfold State.refundTask
  refine SameLaunches.trans ?_ (sameLaunches_uncharge _ k)
  exact sameLaunches_of_launches rfl

theorem futs_tryLaunch (s : State) (l : Nat) : (s.tryLaunch l).futs = s.futs := by
  unfold State.tryLaunch
  split
  · rfl
  · split
    · rfl
    · exact congrArg Tables.futs (tables_writeBlock s _ _ _ _ _ _ _ _)

theorem futs_launchEnd (s : State) (f : Fut) (how : Ended) : (s.launchEnd f how).futs = s.futs := by
  unfold State.launchEnd
  split
  · rfl
  · exact futs_tryLaunch _ _

/-- How a launch counts a task that is DONE, and one that is FAULTED. -/
theorem Launch.tally_ended (y : Launch) (tix : Nat) {how : Ended} {st : FutSt} (hhow : how = if st = .done then .done else .faulted) :
    (y.tally how tix).ended = y.ended + 1 ∧ (y.tally how tix).done = y.done + (if st = .done then 1 else 0)
      ∧ (y.tally how tix).faulted = y.faulted + (if st = .done then 0 else 1) := by
  rw [hhow]
  by_cases hst : st = .done
  · rw [if_pos hst, if_pos hst, if_pos hst]
    exact ⟨rfl, rfl, rfl⟩
  · rw [if_neg hst, if_neg hst, if_neg hst]
    exact ⟨rfl, rfl, rfl⟩

/-- A launch some of whose tasks have yet to end counts the one that ends. -/
theorem tget_launches_launchEnd (s : State) {f : Fut} {how : Ended} {l : Nat} {y : Launch} (hl : f.launch = some l)
    (hy : tget s.launches l = some y) (hleft : y.ended + 1 < y.count) :
    tget (s.launchEnd f how).launches l = some (y.tally how f.tix) := by
  have htally : (y.tally how f.tix).ended = y.ended + 1 ∧ (y.tally how f.tix).count = y.count := by cases how <;> exact ⟨rfl, rfl⟩
  have hget : tget (tmod s.launches l fun x => x.tally how f.tix) l = some (y.tally how f.tix) := by
    rw [tget_tmod, if_pos rfl, hy]
    rfl
  have hwait : (y.tally how f.tix).ended < (y.tally how f.tix).count := by
    rw [htally.1, htally.2]
    exact hleft
  unfold State.launchEnd
  rw [hl]
  unfold State.tryLaunch
  dsimp only
  rw [hget]
  dsimp only
  rw [if_pos (by simp [hwait])]
  exact hget

/-! ## The end -/

/-- What a task leaves is given up: its memberships, its children, its streams, its queues, its replies and its charges. -/
def State.givenUp (v : State) (k n : Nat) (x : Ctx) (o : Owner) (f : Fut) : State :=
  ((((((v.endMembers n x.members).dropKids f.kids).releaseStreams n o).dropQueues n o).dropReplies n o)).refundTask k

/-- Does a launch, a graph or the package hold the reference of a task (R238, R242)? -/
def Fut.machineHeld (f : Fut) : Bool := f.launch.isSome || f.node.isSome || f.unlimited

/-- That reference dropped. -/
def State.dropOwn (s : State) (k : Nat) (f : Fut) : State := if f.machineHeld then (s.unhold k).dropCount k else s

theorem State.endTaskAt_eq (s : State) (n c : Nat) (st : FutSt) (status : Nat) (result : Word) (how : Ended) :
    let x := s.ctx n c
    let k := futKey x.fut.toNat
    s.endTaskAt n c st status result how =
      ((((s.ending n c st status result).givenUp k n x (.task (s.handleOf k)) (s.fut k)).dropOwn k (s.fut k)).launchEnd (s.fut k)
        how).vacate n c := rfl

theorem Fut.machineHeld_eq_false (f : Fut) : f.machineHeld = false ↔ f.launch = none ∧ f.node = none ∧ f.unlimited = false := by
  simp [Fut.machineHeld, and_assoc]

theorem sameUse_dropOwn (s : State) (k : Nat) (f : Fut) : SameUse s (s.dropOwn k f) := by
  unfold State.dropOwn
  split
  · exact (sameUse_unhold s k).trans (sameUse_dropCount _ k)
  · exact .refl s

theorem launches_dropOwn (s : State) (k : Nat) (f : Fut) : (s.dropOwn k f).launches = s.launches := by
  unfold State.dropOwn
  split
  · rw [launches_dropCount, launches_unhold]
  · rfl

theorem core_dropOwn_of_ne (s : State) {f : Fut} (hj : j ≠ k) : ((s.dropOwn k f).fut j).core = (s.fut j).core := by
  unfold State.dropOwn
  split
  · rw [core_dropCount_of_ne _ hj, core_unhold, if_neg hj]
  · rfl

theorem core_dropOwn_self (s : State) (k : Nat) (f : Fut) :
    ((s.dropOwn k f).fut k).core = if f.machineHeld then (s.fut k).core.unheld.dropped else (s.fut k).core := by
  unfold State.dropOwn
  split
  · rw [core_dropCount_self, core_unhold, if_pos rfl]
  · rfl

section
variable (v : State) (x : Ctx) (o : Owner) (f : Fut)

theorem givenUp_leaves (k n : Nat) : SamePcs v (v.givenUp k n x o f) ∧ SameLaunches v (v.givenUp k n x o f)
    ∧ ∀ j, ((v.givenUp k n x o f).fut j).core = (((v.endMembers n x.members).dropKids f.kids).fut j).core := by
  unfold State.givenUp
  obtain ⟨-, hlaunches1, hpcs1, -⟩ := endMembers_leaves v n x.members
  generalize v.endMembers n x.members = w at *
  have hkids := sameUse_dropKids w f.kids
  have hlaunches2 := launches_dropKids w f.kids
  generalize w.dropKids f.kids = y at *
  obtain ⟨hfuts3, hlaunches3, hpcs3, -⟩ := releaseStreams_leaves y n o
  generalize y.releaseStreams n o = z at *
  have hqueues := (sameUse_dropQueues z n o).trans (sameUse_dropReplies _ n o)
  have hrefund := sameUse_refundTask ((z.dropQueues n o).dropReplies n o) k
  refine ⟨(((hpcs1.trans hkids.pcs).trans hpcs3).trans hqueues.pcs).trans hrefund.pcs, ?_, fun j => ?_⟩
  · have hz : SameLaunches v ((z.dropQueues n o).dropReplies n o) :=
      sameLaunches_of_launches (hlaunches3.trans (hlaunches2.trans hlaunches1))
    exact hz.trans (sameLaunches_refundTask _ k)
  · exact (sameCores_refundTask _ k j).trans (sameCores_of_futs (t := (z.dropQueues n o).dropReplies n o) hfuts3 j)

theorem givenUp_ends (k n : Nat) : EndsMembers v (v.givenUp k n x o f) n x.members ∧ FreesStreams v (v.givenUp k n x o f) n o := by
  unfold State.givenUp
  obtain ⟨-, -, -, hjobs1⟩ := endMembers_leaves v n x.members
  have hmembers := endsMembers_endMembers v n x.members
  generalize v.endMembers n x.members = w at *
  have hkids := sameUse_dropKids w f.kids
  generalize w.dropKids f.kids = y at *
  obtain ⟨-, -, -, hbars3⟩ := releaseStreams_leaves y n o
  have hfrees := freesStreams_releaseStreams (hjobs1.trans hkids.jobs) n o
  generalize y.releaseStreams n o = z at *
  have hrest := ((sameUse_dropQueues z n o).trans (sameUse_dropReplies _ n o)).trans (sameUse_refundTask _ k)
  exact ⟨hmembers.congr ((hkids.bars.trans hbars3).trans hrest.bars), hfrees.congr (hrest.jobs n).2⟩

end

/-- The end of the task in a context, where its launch counts what its state says. -/
theorem taskOver_endTaskAt (s : State) (n c : Nat) (st : FutSt) (status : Nat) (result : Word) {how : Ended}
    (hhow : how = if st = .done then .done else .faulted) :
    TaskOver s (s.endTaskAt n c st status result how) n c st status result := by
  have hover := s.endTaskAt_eq n c st status result how
  have hending := core_ending s n c st status result
  unfold TaskOver
  dsimp only at hover ⊢
  rw [hover]
  clear hover
  generalize s.ending n c st status result = v at *
  generalize s.ctx n c = x at *
  generalize futKey x.fut.toNat = k at *
  generalize Owner.task (s.handleOf k) = o
  generalize s.fut k = f at *
  obtain ⟨-, hlaunches, hcores⟩ := givenUp_leaves v x o f k n
  obtain ⟨hmembers, hstreams⟩ := givenUp_ends v x o f k n
  have hfuts0 := (endMembers_leaves v n x.members).1
  generalize v.endMembers n x.members = w at *
  generalize v.givenUp k n x o f = y at *
  have hown := sameUse_dropOwn y k f
  have hend := sameUse_launchEnd (y.dropOwn k f) f how
  have huse := hown.trans hend
  have hfut : ∀ j, ((((y.dropOwn k f).launchEnd f how).vacate n c).fut j).core = ((y.dropOwn k f).fut j).core :=
    sameCores_of_futs (t := ((y.dropOwn k f).launchEnd f how).vacate n c) (futs_launchEnd _ f how)
  have hself : k ∉ f.kids.map futKey → ((y.dropOwn k f).fut k).core =
      if f.machineHeld = true then (v.fut k).core.unheld.dropped else (v.fut k).core := fun hk => by
    rw [core_dropOwn_self, hcores, core_dropKids_of_not_mem w hk, sameCores_of_futs hfuts0 k]
  have hheld : ¬(f.launch = none ∧ f.node = none ∧ f.unlimited = false) → f.machineHeld = true := fun hkept =>
    Bool.eq_true_of_not_eq_false fun h => hkept (f.machineHeld_eq_false.1 h)
  refine ⟨State.st_vacate _ n c, fun hg => ?_, hmembers.congr (huse.bars.trans (sameBars_vacate _ n c)),
    hstreams.congr ((sameJobs_vacate _ n c n).2.trans (huse.jobs n).2), fun hk => ⟨?_, fun hkept => ?_, fun hkept hone => ?_,
    fun hkept hone hst hfinal => ?_⟩, fun l z hl hz hleft => ?_⟩
  · have hcore := hending hg
    exact ⟨by simpa using congrArg Fut.st hcore, by simpa using congrArg Fut.status hcore, by simpa using congrArg Fut.result hcore,
      by simpa using congrArg Fut.count hcore, by simpa using congrArg Fut.gen hcore⟩
  · refine dropsKids_of_core (sameCores_of_futs hfuts0) fun h hh => ?_
    have hne : futKey h ≠ k := fun he => hk (he ▸ List.mem_map_of_mem hh)
    rw [hfut, core_dropOwn_of_ne _ hne, hcores]
  · have hcore := (hfut k).trans (hself hk)
    rw [(f.machineHeld_eq_false).2 hkept] at hcore
    exact ⟨by simpa using congrArg Fut.st hcore, by simpa using congrArg Fut.status hcore, by simpa using congrArg Fut.result hcore,
      by simpa using congrArg Fut.gen hcore, by simpa using congrArg Fut.count hcore, by simpa using congrArg Fut.held hcore⟩
  · have hcore := (hfut k).trans (hself hk)
    rw [hheld hkept, if_pos rfl, Fut.dropped_of_shared (f := (v.fut k).core.unheld) hone] at hcore
    exact ⟨by simpa [Fut.unheld] using congrArg Fut.st hcore, by simpa [Fut.unheld] using congrArg Fut.status hcore,
      by simpa [Fut.unheld] using congrArg Fut.result hcore, by simpa [Fut.unheld] using congrArg Fut.gen hcore,
      by simpa [Fut.unheld] using congrArg Fut.count hcore⟩
  · have hcore := (hfut k).trans (hself hk)
    have hterminal : (v.fut k).st = .done ∨ (v.fut k).st = .faulted ∨ (v.fut k).st = .ready := by
      rw [hst]
      exact hfinal.imp_right .inl
    rw [hheld hkept, if_pos rfl, Fut.dropped_of_over (f := (v.fut k).core.unheld) hone hterminal] at hcore
    exact ⟨by simpa using congrArg Fut.st hcore, by simpa [Fut.unheld] using congrArg Fut.gen hcore⟩
  · obtain ⟨r, hr⟩ := hlaunches l z hz
    rw [← launches_dropOwn y k f] at hr
    obtain ⟨htally, hdone, hfaulted⟩ := Launch.tally_ended { z with running := r } f.tix hhow
    exact ⟨_, tget_launches_launchEnd (y.dropOwn k f) hl hr hleft, htally, hdone, hfaulted⟩

theorem samePcs_ending (s : State) (n c : Nat) (st : FutSt) (status : Nat) (result : Word) :
    SamePcs s (s.ending n c st status result) := by
  unfold State.ending
  dsimp only
  refine SamePcs.trans (SamePcs.trans ?_ (sameUse_leaveMotion _ _ _ _).pcs) (sameUse_nodeEnd _ _ _).pcs
  exact (sameUse_modFut s _ _).pcs.trans (samePcs_cancelWaiting _ _ _)

/-- The end of another context's task moves the executing context no further. -/
theorem State.me_pc_endTaskAt (s : State) (n : Nat) {c : Nat} (hc : c ≠ s.cur.ctx) (st : FutSt) (status : Nat) (result : Word)
    (how : Ended) : (s.endTaskAt n c st status result how).me.pc = s.me.pc := by
  have heq := s.endTaskAt_eq n c st status result how
  have hending := samePcs_ending s n c st status result
  dsimp only at heq
  rw [heq]
  clear heq
  generalize s.ending n c st status result = v at *
  generalize s.ctx n c = x
  generalize futKey x.fut.toNat = k
  generalize Owner.task (s.handleOf k) = o
  generalize s.fut k = f
  have hall := ((hending.trans (givenUp_leaves v x o f k n).1).trans (sameUse_dropOwn _ k f).pcs).trans (sameUse_launchEnd _ f how).pcs
  rw [State.me_pc_vacate _ n (by rw [hall.cur]; exact hc), hall.me_pc]

end Sys2Proof.Machine
end

section
/-!
SUPPORT. How handlers end (R206): the context that resumes, and the instructions TRET, IDLE, CTXSIG and CTXKILL.
-/

namespace Sys2Proof.Machine

variable {s : State} {n o c : Nat}

/-! ## A context that resumes -/

/-- A cluster whose trap queue context c has left. -/
def Sc.resumed (c : Nat) (x : Sc) : Sc := { x with trapQ := x.trapQ.filter (· != c) }

theorem State.resumeAt_eq (s : State) (n c : Nat) (a : Word) :
    s.resumeAt n c a = (s.modCtx n c fun x => x.resume a).modSc n (Sc.resumed c) := rfl

theorem State.ctx_resumeAt (s : State) (n c : Nat) (a : Word) (m d : Nat) :
    (s.resumeAt n c a).ctx m d = if m = n ∧ d = c then (s.ctx n c).resume a else s.ctx m d := by
  rw [State.resumeAt_eq, State.ctx_modSc_of _ n (Sc.resumed c) fun _ => rfl, State.ctx_modCtx]

theorem sameBars_resumeAt (s : State) (n c : Nat) (a : Word) : SameBars s (s.resumeAt n c a) :=
  (sameBars_modCtx s n c fun x => x.resume a).trans (sameBars_modSc _ n (Sc.resumed c) fun _ => rfl)

theorem sameJobs_resumeAt (s : State) (n c : Nat) (a : Word) : SameJobs s (s.resumeAt n c a) :=
  (sameJobs_modCtx s n c fun x => x.resume a).trans (sameJobs_modSc _ n (Sc.resumed c) fun _ => ⟨rfl, rfl⟩)

theorem State.trapQ_modCtx (s : State) (n c : Nat) (f : Ctx → Ctx) (m : Nat) : ((s.modCtx n c f).sc m).trapQ = (s.sc m).trapQ := by
  rw [State.modCtx, State.sc_setCtx]
  split
  · next h => rw [h]
  · rfl

theorem State.not_mem_trapQ_resumeAt (s : State) (n c : Nat) (a : Word) : c ∉ ((s.resumeAt n c a).sc n).trapQ := by
  rw [State.resumeAt_eq, State.sc_modSc_self]
  intro h
  exact absurd (List.mem_filter.1 h).2 (by simp)

theorem State.trapQ_disown (s : State) (n c : Nat) : ((s.disown n c).sc n).trapQ = (s.sc n).trapQ := by
  rw [State.disown_eq, State.trapQ_modCtx, State.trapQ_modCtx]

/-- A context resumes, where its task was not reclaimed: READY at the address, with its registers, out of the trap queue. -/
theorem State.resumeOwner_resumes (h : s.ctxReclaimed n o = false) (a : Word) :
    ((s.resumeOwner n o a).ctx n o).st = .ready ∧ ((s.resumeOwner n o a).ctx n o).pc = a
      ∧ (∀ r, ((s.resumeOwner n o a).ctx n o).reg r = (s.ctx n o).reg r) ∧ o ∉ ((s.resumeOwner n o a).sc n).trapQ := by
  have heq : s.resumeOwner n o a = (s.resumeAt n o a).disown n o := by rw [State.resumeOwner, h]; rfl
  obtain ⟨w, hw⟩ := (s.resumeAt n o a).ctx_disown n o n o
  rw [heq, hw, State.ctx_resumeAt, if_pos ⟨rfl, rfl⟩, State.trapQ_disown]
  exact ⟨rfl, rfl, fun _ => rfl, s.not_mem_trapQ_resumeAt n o a⟩

/-- The other contexts stand as they did. -/
theorem State.resumeOwner_of_ne (h : s.ctxReclaimed n o = false) (a : Word) {m d : Nat} (hd : d ≠ o) :
    ∃ w, (s.resumeOwner n o a).ctx m d = { s.ctx m d with owner := w } := by
  have heq : s.resumeOwner n o a = (s.resumeAt n o a).disown n o := by rw [State.resumeOwner, h]; rfl
  obtain ⟨w, hw⟩ := (s.resumeAt n o a).ctx_disown n o m d
  exact ⟨w, by rw [heq, hw, State.ctx_resumeAt, if_neg fun h => hd h.2]⟩

theorem State.cur_resumeOwner (h : s.ctxReclaimed n o = false) (a : Word) : (s.resumeOwner n o a).cur = s.cur := by
  rw [State.resumeOwner, h]
  rfl

/-- The end of an activity stays as it was while another context resumes. -/
theorem ActivityOver.resumeOwner {t : State} (hover : ActivityOver s t n c) (h : t.ctxReclaimed n o = false) (a : Word) (hc : c ≠ o) :
    ActivityOver s (t.resumeOwner n o a) n c := by
  obtain ⟨w, hw⟩ := State.resumeOwner_of_ne (m := n) h a hc
  have heq : t.resumeOwner n o a = (t.resumeAt n o a).disown n o := by rw [State.resumeOwner, h]; rfl
  refine hover.congr (by rw [hw]) ?_ ?_ ?_
  · rw [heq]
    rfl
  · rw [heq]
    exact (sameBars_resumeAt t n o a).trans (sameUse_disown _ n o).bars
  · rw [heq]
    exact (sameJobs_resumeAt t n o a).trans (sameUse_disown _ n o).jobs

/-! ## The executing context moves on -/

theorem State.ctx_fin_of_ne (s : State) (n : Nat) {d : Nat} (hd : d ≠ s.cur.ctx) : s.fin.ctx n d = s.ctx n d :=
  (s.ctx_modCtx _ _ n d Ctx.next).trans (if_neg fun h => hd h.2)

theorem State.ctxReclaimed_fin (s : State) (n : Nat) {d : Nat} (hd : d ≠ s.cur.ctx) : s.fin.ctxReclaimed n d = s.ctxReclaimed n d := by
  unfold State.ctxReclaimed
  rw [s.ctx_fin_of_ne n hd]
  rfl

theorem ne_of_isSystem {k : Nat} (hk : isSystem k = true) (hc : isSystem c = false) : c ≠ k := fun h => by
  rw [h, hk] at hc
  cases hc

theorem isSystem_of_lt (hc : c < 18) : isSystem c = false := by
  unfold isSystem
  simp
  omega

/-! ## The instructions -/

theorem endSystem_settled (h : s.settledFor s.cur.sc s.cur.ctx (s.ownIds s.cur.sc s.myOwner) = true) (f : State → State) :
    s.endSystem f = f (s.endActivity s.cur.sc s.cur.ctx) := if_pos h

theorem endSystem_unsettled (h : s.settledFor s.cur.sc s.cur.ctx (s.ownIds s.cur.sc s.myOwner) = false) (f : State → State) :
    s.endSystem f = s.block (.settled (s.ownIds s.cur.sc s.myOwner)) := if_neg (by rw [h]; decide)

theorem exec_tret_system (hsys : isSystem s.cur.ctx = true) :
    exec .tret s = .next (if s.me.owner = 31 then s.trap causeCtxState (BitVec.ofNat 64 s.cur.ctx)
      else s.endSystem fun t => t.resumeOwner s.cur.sc s.me.owner (t.ctx s.cur.sc s.me.owner).tpc) :=
  (priv_system hsys _).trans ((State.Filled.nil s).ctl _)

theorem exec_idle_system (hsys : isSystem s.cur.ctx = true) :
    exec .idle s = .next (s.endSystem fun t =>
      if s.me.owner < 31 ∧ t.ctxReclaimed s.cur.sc s.me.owner then t.reclaimAt s.cur.sc s.me.owner else t) :=
  (priv_system hsys _).trans ((State.Filled.nil s).ctl _)

section
variable {a b : BitVec 5}

theorem exec_ctxsig_trapped (hsys : isSystem s.cur.ctx = true) (hf : s.Filled [a]) (ht : s.isTrapped b.toNat = true) :
    exec (.ctxsig a b) s = .next (s.fin.resumeOwner s.cur.sc b.toNat (s.g a)) :=
  ((priv_system hsys _).trans (hf.ctl _)).trans (congrArg _ (if_pos ht))

theorem exec_ctxsig_free (hsys : isSystem s.cur.ctx = true) (hf : s.Filled [a]) (ht : s.isTrapped b.toNat = false)
    (hfree : isSystem b.toNat = true ∧ s.isFree b.toNat = true) :
    exec (.ctxsig a b) s =
      .next ((s.fin.modCtx s.cur.sc b.toNat fun x => { freeCtx x with st := .ready, pc := s.g a }).disown s.cur.sc b.toNat) :=
  ((priv_system hsys _).trans (hf.ctl _)).trans (congrArg _ ((if_neg (by rw [ht]; decide)).trans (if_pos (by rw [hfree.1, hfree.2]; rfl))))

theorem exec_ctxsig_other (hsys : isSystem s.cur.ctx = true) (hf : s.Filled [a]) (ht : s.isTrapped b.toNat = false)
    (hfree : ¬(isSystem b.toNat = true ∧ s.isFree b.toNat = true)) :
    exec (.ctxsig a b) s = .next (s.trap causeCtxState (BitVec.ofNat 64 b.toNat)) :=
  ((priv_system hsys _).trans (hf.ctl _)).trans
    (congrArg _ ((if_neg (by rw [ht]; decide)).trans (if_neg (by rw [Bool.and_eq_true]; exact hfree))))

theorem exec_ctxkill_other (hsys : isSystem s.cur.ctx = true) (h : s.isTrapped b.toNat = false ∨ isSystem b.toNat = true) :
    exec (.ctxkill b) s = .next (s.trap causeCtxState (BitVec.ofNat 64 b.toNat)) :=
  ((priv_system hsys _).trans ((State.Filled.nil s).ctl _)).trans (congrArg _ (if_pos (by rcases h with h | h <;> rw [h] <;> simp)))

theorem exec_ctxkill_task (hsys : isSystem s.cur.ctx = true) (hb : b.toNat < 16) (ht : s.isTrapped b.toNat = true)
    (hr : s.ctxReclaimed s.cur.sc b.toNat = false) :
    exec (.ctxkill b) s = .next (s.fin.endTaskAt s.cur.sc b.toNat .faulted ((s.ctx s.cur.sc b.toNat).tcause.toNat % 256)
      (s.ctx s.cur.sc b.toNat).tval .faulted) := by
  have hcode : bitsNat (s.ctx s.cur.sc b.toNat).tcause.toNat 0 8 = (s.ctx s.cur.sc b.toNat).tcause.toNat % 256 := by
    rw [bitsNat, Nat.pow_zero, Nat.div_one]
    rfl
  rw [← hcode]
  refine ((priv_system hsys _).trans ((State.Filled.nil s).ctl _)).trans (congrArg _ ?_)
  exact (if_neg (by rw [ht, isSystem_of_lt (by omega)]; decide)).trans ((if_neg (by rw [hr]; decide)).trans (if_pos hb))

theorem exec_ctxkill_message (hsys : isSystem s.cur.ctx = true) (hb : b.toNat = 16 ∨ b.toNat = 17) (ht : s.isTrapped b.toNat = true) :
    exec (.ctxkill b) s = .next (s.fin.endActivity s.cur.sc b.toNat) := by
  have hr : s.ctxReclaimed s.cur.sc b.toNat = false := by
    unfold State.ctxReclaimed
    rw [decide_eq_false (by omega : ¬b.toNat < 16)]
    rfl
  refine ((priv_system hsys _).trans ((State.Filled.nil s).ctl _)).trans (congrArg _ ?_)
  exact (if_neg (by rw [ht, isSystem_of_lt (by omega)]; decide)).trans ((if_neg (by rw [hr]; decide)).trans (if_neg (by omega)))

end

/-! ## Leaving a handler -/

/-- TRET of a handler whose own activity has settled. -/
theorem tret_resumes (hsys : isSystem s.cur.ctx = true) (ho : s.me.owner < 20) (hk : s.me.owner ≠ s.cur.ctx)
    (hset : s.settledFor s.cur.sc s.cur.ctx (s.ownIds s.cur.sc s.myOwner) = true)
    (hr : (s.endActivity s.cur.sc s.cur.ctx).ctxReclaimed s.cur.sc s.me.owner = false) :
    ∃ t, exec .tret s = .next t ∧ (t.ctx s.cur.sc s.me.owner).st = .ready
      ∧ (t.ctx s.cur.sc s.me.owner).pc = ((s.endActivity s.cur.sc s.cur.ctx).ctx s.cur.sc s.me.owner).tpc
      ∧ (∀ r, (t.ctx s.cur.sc s.me.owner).reg r = ((s.endActivity s.cur.sc s.cur.ctx).ctx s.cur.sc s.me.owner).reg r)
      ∧ s.me.owner ∉ (t.sc s.cur.sc).trapQ ∧ ActivityOver s t s.cur.sc s.cur.ctx := by
  have hx := exec_tret_system hsys
  rw [if_neg (by omega), endSystem_settled hset] at hx
  obtain ⟨hst, hpc, hreg, hq⟩ := State.resumeOwner_resumes hr ((s.endActivity s.cur.sc s.cur.ctx).ctx s.cur.sc s.me.owner).tpc
  exact ⟨_, hx, hst, hpc, hreg, hq, (activityOver_endActivity s _ _).resumeOwner hr _ (Ne.symm hk)⟩

/-- IDLE of a system context whose own activity has settled, while nothing it handles was reclaimed. -/
theorem idle_ends (hsys : isSystem s.cur.ctx = true)
    (hset : s.settledFor s.cur.sc s.cur.ctx (s.ownIds s.cur.sc s.myOwner) = true)
    (hr : ∀ o, (s.endActivity s.cur.sc s.cur.ctx).ctxReclaimed s.cur.sc o = false) :
    ∃ t, exec .idle s = .next t ∧ ActivityOver s t s.cur.sc s.cur.ctx := by
  have hx := exec_idle_system hsys
  rw [endSystem_settled hset, if_neg fun h => Bool.false_ne_true ((hr _).symm.trans h.2)] at hx
  exact ⟨_, hx, activityOver_endActivity s _ _⟩

section
variable {a b : BitVec 5}

/-- CTXSIG of another context that is TRAPPED. -/
theorem ctxsig_resumes (hsys : isSystem s.cur.ctx = true) (hf : s.Filled [a]) (ht : s.isTrapped b.toNat = true)
    (hb : b.toNat ≠ s.cur.ctx) (hr : s.ctxReclaimed s.cur.sc b.toNat = false) :
    ∃ t, exec (.ctxsig a b) s = .next t ∧ (t.ctx s.cur.sc b.toNat).st = .ready ∧ (t.ctx s.cur.sc b.toNat).pc = s.g a
      ∧ t.me.pc = s.me.pc + 4 ∧ b.toNat ∉ (t.sc s.cur.sc).trapQ := by
  have hfin := (s.ctxReclaimed_fin s.cur.sc hb).trans hr
  obtain ⟨hst, hpc, -, hq⟩ := State.resumeOwner_resumes hfin (s.g a)
  obtain ⟨w, hw⟩ := State.resumeOwner_of_ne hfin (s.g a) (m := s.cur.sc) hb.symm
  refine ⟨_, exec_ctxsig_trapped hsys hf ht, hst, hpc, ?_, hq⟩
  rw [State.me, State.cur_resumeOwner hfin]
  exact (congrArg Ctx.pc hw).trans (congrArg Ctx.pc s.me_fin)

/-- CTXSIG of a system context that is FREE. -/
theorem ctxsig_starts (hsys : isSystem s.cur.ctx = true) (hf : s.Filled [a]) (hb : isSystem b.toNat = true) (hfree : s.isFree b.toNat = true) :
    ∃ t, exec (.ctxsig a b) s = .next t ∧ (t.ctx s.cur.sc b.toNat).st = .ready ∧ (t.ctx s.cur.sc b.toNat).pc = s.g a := by
  have ht : s.isTrapped b.toNat = false := by
    have hst : (s.ctx s.cur.sc b.toNat).st = .free := of_decide_eq_true hfree
    rw [State.isTrapped, hst]
    rfl
  obtain ⟨w, hw⟩ := (s.fin.modCtx s.cur.sc b.toNat fun x => { freeCtx x with st := .ready, pc := s.g a }).ctx_disown s.cur.sc b.toNat
    s.cur.sc b.toNat
  rw [State.ctx_modCtx_self] at hw
  exact ⟨_, exec_ctxsig_free hsys hf ht ⟨hb, hfree⟩, by rw [hw], by rw [hw]⟩

/-- CTXKILL of a task that is TRAPPED. -/
theorem ctxkill_ends_task (hsys : isSystem s.cur.ctx = true) (hb : b.toNat < 16) (ht : s.isTrapped b.toNat = true)
    (hr : s.ctxReclaimed s.cur.sc b.toNat = false) :
    ∃ t, exec (.ctxkill b) s = .next t ∧ t.me.pc = s.me.pc + 4
      ∧ TaskOver s.fin t s.cur.sc b.toNat .faulted ((s.ctx s.cur.sc b.toNat).tcause.toNat % 256) (s.ctx s.cur.sc b.toNat).tval := by
  have hne : b.toNat ≠ s.cur.ctx := ne_of_isSystem hsys (isSystem_of_lt (by omega))
  refine ⟨_, exec_ctxkill_task hsys hb ht hr, ?_, taskOver_endTaskAt s.fin _ _ _ _ _ rfl⟩
  rw [State.me_pc_endTaskAt s.fin _ hne, s.me_fin]
  rfl

/-- CTXKILL of a message context that is TRAPPED. -/
theorem ctxkill_ends_message (hsys : isSystem s.cur.ctx = true) (hb : b.toNat = 16 ∨ b.toNat = 17) (ht : s.isTrapped b.toNat = true) :
    ∃ t, exec (.ctxkill b) s = .next t ∧ t.me.pc = s.me.pc + 4 ∧ ActivityOver s.fin t s.cur.sc b.toNat := by
  have hne : b.toNat ≠ s.cur.ctx := ne_of_isSystem hsys (isSystem_of_lt (by omega))
  refine ⟨_, exec_ctxkill_message hsys hb ht, ?_, activityOver_endActivity s.fin _ _⟩
  rw [State.me_pc_endActivity s.fin _ hne, s.me_fin]
  rfl

end

/-- Settles O21: each instruction's branches, over what the end of an activity (`activityOver_endActivity`) and of a task
(`taskOver_endTaskAt`) leave. -/
theorem leavingAHandler : Obligations.LeavingAHandler := by
  unfold Obligations.LeavingAHandler
  refine ⟨fun s => ?_, fun s a c => ?_⟩
  · intro n k o hsys
    refine ⟨fun ho => ?_, fun ho hk hset hr => tret_resumes hsys ho hk hset hr, fun ho hset => ?_⟩
    · exact traps_of ((exec_tret_system hsys).trans (by rw [if_pos ho]; rfl))
    · exact blocks_of ((exec_tret_system hsys).trans (by rw [if_neg ho, endSystem_unsettled hset]))
  · intro n k hsys hc
    exact ⟨fun hset hr => idle_ends hsys hset hr, fun hf ht hk hr => ctxsig_resumes hsys hf ht hk hr,
      fun hf hs _ hfree => ctxsig_starts hsys hf hs hfree, fun hf ht hfree => traps_of (exec_ctxsig_other hsys hf ht hfree),
      fun hb ht hr => ctxkill_ends_task hsys hb ht hr, fun hb ht => ctxkill_ends_message hsys hb ht,
      fun h => traps_of (exec_ctxkill_other hsys h)⟩

end Sys2Proof.Machine
end

section
/-!
SUPPORT. What a walk performs (R278, R284), for the copy engine, the remote operations and the base dies.  Three statements say that
what they name leaves memory, and exclude requests still to perform at the core's own port alone, or none; the write that stands at the
walkers' port in `walkPending` refutes them: a window check or a PAGE_WALK reads a PTE of that write's unit, and the write performs
before (R284).
-/

namespace Sys2Proof.Machine

/-- An instruction that enters with the core's port quiet leaves memory. -/
theorem Enters.mem {i : Instr} {s : State} {w : Work} {ends : List End'} {flag : Option Nat} (h : Enters i s w ends flag)
    (hq : s.PortQuiet) : ∃ t, exec i s = .next t ∧ t.mem = s.mem := by
  obtain ⟨t, e, hx, -, -, -, -, -, -, -, -, -, hmem⟩ := h
  exact ⟨t, hx, hmem hq⟩

theorem loadPending_portQuiet : loadPending.PortQuiet := by
  obtain ⟨-, -, -, hquiet⟩ := loadPending_settled
  exact hquiet

/-- An instruction that walks the page table of `loadPending`: the byte that the port for walks owes has been written. -/
def WalksFirst (i : Instr) : Prop := goesOnWith (exec i loadPending) (fun t => t.mem != loadPending.mem) = true

/-- Such an instruction does not enter as R211 says, which leaves memory. -/
theorem WalksFirst.not_enters {i : Instr} {w : Work} {ends : List End'} {flag : Option Nat} (hw : WalksFirst i) :
    ¬Enters i loadPending w ends flag := fun h => by
  obtain ⟨t, hx, hmem⟩ := h.mem loadPending_portQuiet
  have hne := of_goesOnWith (p := fun t => t.mem != loadPending.mem) hx hw
  exact bne_iff_ne.1 hne hmem

/-! ## SCOPY and RPUT -/

theorem loadPending_filled : loadPending.Filled [0, 1, 2, 3, 4, 5, 6] := by
  delta State.Filled
  decide +kernel

theorem loadPending_mayIssue_copy :
    loadPending.MayIssue { wins := [(recOf 0x8000 oneWordRecord, true)], ends := [consumer 0], flag := none } := by
  delta State.MayIssue
  decide +kernel

theorem loadPending_mayIssue_put : loadPending.MayIssue { wins := [(recOf 0x8000 oneWordRecord, false)], flag := none } := by
  delta State.MayIssue
  decide +kernel

theorem scopy_walksFirst : WalksFirst (.scopy 0 1 0 1 0 1) := by
  unfold WalksFirst
  decide +kernel

theorem rput_walksFirst : WalksFirst (.rput 1 0 2 0 0) := by
  unfold WalksFirst
  decide +kernel

/-- Refutes O30: the window check of SCOPY walks the page table, and a write that the port for walks still owes to the unit of a PTE
performs before, which changes memory though the core's own port owes nothing. -/
theorem not_copiesEnter : ¬ Obligations.CopiesEnter := by
  intro h
  obtain ⟨hsettled, -, hbound, -⟩ := loadPending_settled
  obtain ⟨hstreams, -⟩ := h loadPending 1 1 1 1 0 0 0 0 0 (recOf 0x8000 oneWordRecord) (recOf 0x8000 oneWordRecord) hsettled
    (loadPending_filled.mono (by decide))
  obtain ⟨-, hcopy, -⟩ := hstreams hbound hbound
  exact scopy_walksFirst.not_enters (hcopy loadPending_record loadPending_mayIssue_copy)

/-- Refutes O32: the window check of RPUT walks the page table, and a write that the port for walks still owes to the unit of a PTE
performs before, which changes memory though the core's own port owes nothing. -/
theorem not_remoteOperationsEnter : ¬ Obligations.RemoteOperationsEnter := by
  intro h
  obtain ⟨hsettled, -⟩ := loadPending_settled
  obtain ⟨hputs, -⟩ := h loadPending 1 2 1 0 0 0 0 0 (recOf 0x8000 oneWordRecord) hsettled (loadPending_filled.mono (by decide))
  obtain ⟨hput, -⟩ := hputs (by decide +kernel) (by decide +kernel)
  exact rput_walksFirst.not_enters (hput loadPending_record loadPending_mayIssue_put).1

/-! ## PAGE_WALK -/

/-- The state of `walkPending`, context 18 alone. -/
def pageWalkPending : State := walkPending {} []

theorem pageWalkPending_misses : (pageWalkPending.sc 0).root = some 0x1000 ∧ canonical 0x100 = true ∧ pageWalkPending.rngFor 0x100 = none
    ∧ (pageWalkPending.sc 0).tlbHit (ptbAsid 0x1000) 0x100 = none ∧ pageWalkPending.dieHit 0 (ptbAsid 0x1000) 0x100 = none := by
  decide +kernel

theorem pageWalkPending_page : pageWalkPending.walkPage (some 0x1000) 0x100 = some { firstPage with pa := 0 } := by
  decide +kernel

theorem pageWalk_performs_walkWrite :
    goesOnWith (exec (.pageWalk 0 0x100) pageWalkPending) (fun t => t.byte 0x1008 != pageWalkPending.byte 0x1008) = true := by
  decide +kernel

/-- Refutes O48: a page walk reads a PTE at the base dies, and a write that the port for walks still owes to the PTE's unit performs
before, so that a byte changes. -/
theorem not_baseDieRequests : ¬ Obligations.BaseDieRequests := by
  intro h
  obtain ⟨hroot, hcanonical, hrange, htlb, hdie⟩ := pageWalkPending_misses
  obtain ⟨-, -, -, -, -, hwalk⟩ := h pageWalkPending 0 0 (maskedPacket {} (walkPort 0) (.ctx 18) 0x1008 [1]) 0x100 (by decide +kernel)
  obtain ⟨t, hx, hsame, -⟩ := hwalk 0x1000 _ hroot hcanonical hrange htlb hdie pageWalkPending_page
  have hne := of_goesOnWith hx pageWalk_performs_walkWrite
  exact bne_iff_ne.1 hne (hsame 0x1008)

end Sys2Proof.Machine
end

section
/-!
SUPPORT. The state after reset (R388, R395): its clusters, its range registers, and its registers; and the statement about it.
-/

namespace Sys2Proof.Machine

/-- After reset every cluster of the module is as firmware finds it, and there is no other. -/
theorem sc_reset (n : Nat) : State.reset.sc n = if n < 16 then bootSc else {} := by
  by_cases h : n < 16
  · rw [if_pos h]
    decide +revert
  · rw [if_neg h]
    have hm : n ∉ State.reset.scs.map Prod.fst := fun hm => h (List.mem_range.1 hm)
    exact tgetD_of_not_mem hm {}

theorem sc_reset_of_lt {n : Nat} (h : n < 16) : State.reset.sc n = bootSc := (sc_reset n).trans (if_pos h)

/-- No cluster holds a line or a barrier after reset. -/
theorem lines_sc_reset (n : Nat) : (State.reset.sc n).lines = [] := by
  rw [sc_reset]
  split <;> rfl

theorem bars_sc_reset (n : Nat) : (State.reset.sc n).bars = [] := by
  rw [sc_reset]
  split <;> rfl

theorem safe_reset : State.reset.Safe := ⟨State.safe_reset_mem, fun n k l hl => by
  rw [lines_sc_reset] at hl
  cases hl⟩

theorem st_ctx_reset {n : Nat} (h : n < 16) (c : Nat) : (State.reset.ctx n c).st = if c = 18 then .ready else .free := by
  rw [State.ctx, sc_reset_of_lt h, bootSc, tgetD_cons]
  split <;> rfl

theorem barrier_reset (n h : Nat) : State.reset.barrier n h = {} := by
  rw [State.barrier, bars_sc_reset]
  split <;> rfl

/-- No range register is valid after reset (R279). -/
theorem rngFor_reset (va : Nat) : State.reset.rngFor va = none := by
  refine List.find?_eq_none.2 fun r _ => ?_
  simp [State.rngHas, show State.reset.rng r 1 = 0 from rfl, bitNat]

/-- Settles O57: the clusters and range registers as above; tables are empty, and registers have the values of their tables. -/
theorem resetState : Obligations.ResetState := by
  unfold Obligations.ResetState
  refine ⟨safe_reset, fun n c hn => st_ctx_reset hn c, fun n hn => ?_, rfl, rfl, fun k => ?_, fun _ => ⟨rfl, rfl⟩, fun n h => ?_,
    fun _ => rfl, rngFor_reset, fun _ _ => rfl, fun _ _ => rfl, ?_⟩
  · rw [sc_reset_of_lt hn]
    decide
  · rw [show State.reset.mgmt.minorHlth.toNat = 0 from rfl]
    simp [bitNat]
  · rw [barrier_reset]
    exact ⟨rfl, rfl⟩
  · decide +kernel

end Sys2Proof.Machine
end

section
/-!
SUPPORT. The increment of a remote flag (R225, R233): a dword of memory read, added to and written back at its home.
-/

namespace Sys2Proof.Machine

variable {s : State} {a n : Nat}

/-! ## Numbers as bytes -/

theorem natBytes_succ (k x : Nat) : natBytes (k + 1) x = BitVec.ofNat 8 x :: natBytes k (x / 256) := by
  rw [natBytes, List.range_succ_eq_map, List.map_cons, List.map_map, Nat.pow_zero, Nat.div_one]
  refine congrArg _ (List.map_congr_left fun i _ => ?_)
  rw [Function.comp_apply, Nat.div_div_eq_div_mul, Nat.pow_succ']

theorem length_natBytes (k x : Nat) : (natBytes k x).length = k := by simp [natBytes]

theorem bytesNat_natBytes (k x : Nat) : bytesNat (natBytes k x) = x % 256 ^ k := by
  induction k generalizing x with
  | zero => rw [Nat.pow_zero, Nat.mod_one]; rfl
  | succ k ih =>
    rw [natBytes_succ, Nat.pow_succ', Nat.mod_mul, ← ih]
    show (BitVec.ofNat 8 x).toNat + _ = _
    rw [BitVec.toNat_ofNat]
    rfl

/-! ## Stacks that answer -/

/-- With every stack live, the stack of an address of memory answers. -/
theorem State.alive_of_allStacks (hstks : s.topo.stks = 0xFF) (hin : inMemory s.topo a = true) : s.alive a = true := by
  have hhalf : a / halfSize < 2 := by
    by_contra hge
    simp [inMemory, offered, halfLost, hge] at hin
  have hst := stackOf_half s.topo a
  have hall : ∀ k < 8, bitNat 0xFF k = true := by decide
  rw [State.alive, hstks]
  exact hall _ (by omega)

/-! ## The increment -/

theorem sameStore_accCount (s : State) (a n : Nat) : SameStore s (s.accCount a n) := by
  unfold State.accCount
  dsimp only
  split
  · exact (sameStore_count ..).trans (sameStore_count ..)
  · exact sameStore_count ..

/-- A flag in memory becomes itself plus the value, as a write of an accumulation. -/
theorem State.addFlag_eq (hin : inMemory s.topo a = true) (n : Nat) :
    s.addFlag a n = (s.accCount a 8).write a (natBytes 8 ((s.readNat a 8 + n) % 2 ^ 64)) true := by
  rw [State.addFlag, if_pos hin]
  rfl

/-- The dword of a flag within one sector of plain memory is incremented modulo 2^64. -/
theorem State.AllPlain.readNat_addFlag (h : s.AllPlain) (hs : s.Safe) (hue : s.ueSectors = []) (hstks : s.topo.stks = 0xFF)
    (hin : inMemory s.topo a = true) (hsec : a % 32 + 8 ≤ 32) (n : Nat) :
    (s.addFlag a n).readNat a 8 = (s.readNat a 8 + n) % 2 ^ 64 := by
  have hsame := sameStore_accCount s a 8
  generalize hx : (s.readNat a 8 + n) % 2 ^ 64 = x
  have hlt : x < 256 ^ 8 := by omega
  have hbytes : (s.addFlag a n).bytes a 8 = natBytes 8 x := by
    rw [State.addFlag_eq hin, hx]
    refine List.map_congr_left fun i hi => ?_
    have hi := List.mem_range.1 hi
    have hin' : inMemory s.topo (a + i) = true := by rw [← inMemory_block s.topo (a := a) (by omega), hin]
    refine (h.of_fmap hsame.fmap).byte_dieWrite_of_inside (hs.accCount a 8) (hsame.ue.trans hue) ?_ ?_ (by rw [hsame.topo]; exact hin') ?_
    · rw [List.length_map, length_natBytes]
      omega
    · rw [List.getElem?_map, natBytes, List.getElem?_map, List.getElem?_range hi]
      rfl
    · rw [State.alive, hsame.topo]
      exact State.alive_of_allStacks hstks hin'
  rw [State.readNat, hbytes, bytesNat_natBytes, Nat.mod_eq_of_lt hlt]

/-- No other byte changes. -/
theorem State.AllPlain.byte_addFlag_of_outside (h : s.AllPlain) (hin : inMemory s.topo a = true) (n : Nat) {c : Nat}
    (hc : ¬(a ≤ c ∧ c < a + 8)) : (s.addFlag a n).byte c = s.byte c := by
  have hsame := sameStore_accCount s a 8
  rw [State.addFlag_eq hin, ← hsame.sameBytes c]
  refine (h.of_fmap hsame.fmap).byte_dieWrite_of_outside _ ?_
  rw [List.length_map, length_natBytes]
  omega

end Sys2Proof.Machine
end

section
/-!
SUPPORT. What the fabric's answers, rejections and ends of operations leave (R374-R378, R382).
-/

namespace Sys2Proof.Machine

variable {s t u : State}

/-- What answers and ends of operations leave: memory, the fabric's counters, and the operations arriving. -/
structure Beside (s t : State) : Prop where
  mem : t.mem = s.mem
  ctr : t.fab.ctr = s.fab.ctr
  inops : t.fab.inops = s.fab.inops

theorem Beside.refl (s : State) : Beside s s := ⟨rfl, rfl, rfl⟩

theorem Beside.trans (h : Beside s t) (h' : Beside t u) : Beside s u :=
  ⟨h'.mem.trans h.mem, h'.ctr.trans h.ctr, h'.inops.trans h.inops⟩

theorem Beside.foldl {α : Type} {f : State → α → State} (hf : ∀ s x, Beside s (f s x)) (l : List α) (s : State) :
    Beside s (l.foldl f s) := by
  induction l generalizing s with
  | nil => exact .refl s
  | cons x l ih => exact (hf s x).trans (ih _)

theorem beside_modSession (s : State) (q : Nat) (f : Session → Session) : Beside s (s.modSession q f) := ⟨rfl, rfl, rfl⟩

theorem beside_answer (s : State) (q : Nat) (fs : List Frame) : Beside s (s.answer q fs) := by
  unfold State.answer
  split
  · exact .refl s
  · exact ⟨rfl, rfl, rfl⟩

theorem beside_sendAck (s : State) (q op st : Nat) : Beside s (s.sendAck q op st) := beside_answer s q _

theorem beside_opDone (s : State) (k : Nat) (o : RemoteOp) (bs : List Byte) : Beside s (s.opDone k o bs) := ⟨rfl, rfl, rfl⟩

/-- The end of an operation at its source takes it from the table. -/
theorem tget_ops_opDone (s : State) (k : Nat) (o : RemoteOp) (bs : List Byte) : tget (s.opDone k o bs).fab.ops k = none :=
  tget_tdel_self s.fab.ops k

theorem beside_abandon (s : State) (k : Nat) : Beside s (s.abandon k) := by
  unfold State.abandon
  split
  · exact .refl s
  · exact ⟨rfl, rfl, rfl⟩

theorem tget_ops_abandon {k : Nat} {o : RemoteOp} (h : tget s.fab.ops k = some o) : tget (s.abandon k).fab.ops k = none := by
  unfold State.abandon
  rw [h]
  exact tget_ops_opDone s k o _

theorem beside_abandonAll (s : State) (f : Nat → Bool) : Beside s (s.abandonAll f) := Beside.foldl beside_abandon _ s

/-- A counter of the fabric raised by one. -/
theorem ctr_fcount (s : State) (k : Nat) : tgetD (s.fcount k 1).fab.ctr k 0 = tgetD s.fab.ctr k 0 + 1 := tgetD_tput_self _ _ _ _

/-- A frame whose tag fails is counted, and memory stays (R374, R383). -/
theorem authFail_counts (s : State) (q : Nat) (x : Session) :
    tgetD (s.authFail q x).fab.ctr 5 0 = tgetD s.fab.ctr 5 0 + 1 ∧ (s.authFail q x).mem = s.mem := by
  unfold State.authFail
  dsimp only
  generalize hl : State.modSession s q _ = t
  have ht : Beside s t := hl ▸ beside_modSession s q _
  rw [← ht.ctr, ← ht.mem, ← ctr_fcount t 5]
  split
  · have hall := beside_abandonAll (t.fcount 5 1) (fun k => k / 256 == q)
    exact ⟨congrArg (tgetD · 5 0) hall.ctr, hall.mem⟩
  · exact ⟨rfl, rfl⟩

/-! ## Operations rejected (R378) -/

variable {f : Frame} {o : InOp}

theorem mem_rejectOp (s : State) (f : Frame) (o : InOp) : (s.rejectOp f o).mem = s.mem := by
  unfold State.rejectOp
  dsimp only
  split
  · rfl
  · exact (beside_sendAck _ _ _ _).mem

theorem ctr_rejectOp (s : State) (f : Frame) (o : InOp) :
    tgetD (s.rejectOp f o).fab.ctr 6 0 = tgetD s.fab.ctr 6 0 + (if o.rejected then 0 else 1) := by
  unfold State.rejectOp
  dsimp only
  split
  · exact (BitVec.add_zero _).symm
  · rw [(beside_sendAck _ _ _ _).ctr]
    exact ctr_fcount (s.putInOp f _) 6

theorem inops_rejectOp (s : State) (f : Frame) (o : InOp) :
    ∃ g, tget (s.rejectOp f o).fab.inops (inKey f) = some g ∧ g.rejected = true := by
  refine ⟨{ o with rejected := true, parts := [], finished := o.whole f }, ?_, rfl⟩
  unfold State.rejectOp
  dsimp only
  split
  · exact tget_tput_self _ _ _
  · rw [(beside_sendAck _ _ _ _).inops]
    exact tget_tput_self _ _ _

end Sys2Proof.Machine
end

section
/-!
SUPPORT. Frames (R373-R379, R383): which are taken and accepted, what each kind does, timeouts and sessions; and the statement about
them.
-/

namespace Sys2Proof.Machine

variable {s : State} {f : Frame} {rest : List RxItem} {x : Session} {bs : List Byte} {z : InOp} {d : List Byte}

/-! ## Frames taken -/

theorem exec_of_head {i : Instr} {ok : Frame → Bool} (hi : exec i s = frameEvent ok f s) (hrx : s.fab.rx = .frame f :: rest)
    (hok : ok f = true) : exec i s = .next ((s.modFab (fun b => { b with rx := rest })).accept f) := by
  rw [hi, frameEvent, if_pos hok, State.takeRx, hrx, List.head?_cons, if_pos rfl]
  simp only [State.modFab, hrx, List.drop_one, List.tail_cons]

theorem exec_of_head_ne {i : Instr} {ok : Frame → Bool} (hi : exec i s = frameEvent ok f s)
    (h : s.fab.rx.head? ≠ some (.frame f)) : exec i s = .next s := by
  rw [hi, frameEvent, State.takeRx, if_neg h, ite_self]

/-- Every kind of frame is taken when it is the next received. -/
theorem frames_taken (hrx : s.fab.rx = .frame f :: rest) :
    let u := s.modFab (fun b => { b with rx := rest })
    (f.op = 0 → f.desc = false → exec (.put f) s = .next (u.accept f))
    ∧ (f.op = 1 → f.desc = false → exec (.puth f) s = .next (u.accept f))
    ∧ (f.op = 2 → f.desc = false → exec (.getreq f) s = .next (u.accept f))
    ∧ (f.op = 3 → exec (.getdata f) s = .next (u.accept f))
    ∧ (f.op = 4 → f.desc = false → exec (.acc f) s = .next (u.accept f))
    ∧ (f.op = 5 → exec (.sig f) s = .next (u.accept f))
    ∧ (f.op = 6 → exec (.ack f) s = .next (u.accept f))
    ∧ (f.desc = true → (f.op = 0 ∨ f.op = 1 ∨ f.op = 2 ∨ f.op = 4) → exec (.descriptorFrame f) s = .next (u.accept f)) :=
  ⟨fun ho hd => exec_of_head (exec_put f s) hrx (by simp [ho, hd]), fun ho hd => exec_of_head (exec_puth f s) hrx (by simp [ho, hd]),
    fun ho hd => exec_of_head (exec_getreq f s) hrx (by simp [ho, hd]), fun ho => exec_of_head (exec_getdata f s) hrx (by simp [ho]),
    fun ho hd => exec_of_head (exec_acc f s) hrx (by simp [ho, hd]), fun ho => exec_of_head (exec_sig f s) hrx (by simp [ho]),
    fun ho => exec_of_head (exec_ack f s) hrx (by simp [ho]),
    fun hd ho => exec_of_head (exec_descriptorFrame f s) hrx (by rcases ho with h | h | h | h <;> simp [h, hd])⟩

/-- No frame is taken that is not. -/
theorem frames_not_taken (h : s.fab.rx.head? ≠ some (.frame f)) :
    ∀ i ∈ [Instr.put f, .puth f, .getreq f, .getdata f, .acc f, .sig f, .ack f, .descriptorFrame f], exec i s = .next s := by
  simp only [List.forall_mem_cons, List.not_mem_nil, false_imp_iff, implies_true, and_true]
  exact ⟨exec_of_head_ne (exec_put f s) h, exec_of_head_ne (exec_puth f s) h, exec_of_head_ne (exec_getreq f s) h,
    exec_of_head_ne (exec_getdata f s) h, exec_of_head_ne (exec_acc f s) h, exec_of_head_ne (exec_sig f s) h,
    exec_of_head_ne (exec_ack f s) h, exec_of_head_ne (exec_descriptorFrame f s) h⟩

/-! ## Acceptance -/

theorem accept_of_dst_ne (h : f.dst.toNat ≠ s.pkgid) : s.accept f = s := if_pos h

theorem accept_of_no_session (h : s.session f.src.toNat = none) : s.accept f = s := by
  unfold State.accept
  dsimp only
  rw [h]
  exact ite_self s

theorem accept_of_unopened (hd : f.dst.toNat = s.pkgid) (hx : s.session f.src.toNat = some x) (ho : openFrame x s.tb f = none) :
    s.accept f = s.authFail f.src.toNat x := by
  simp [State.accept, hd, hx, ho]

theorem accept_of_stale (hd : f.dst.toNat = s.pkgid) (hx : s.session f.src.toNat = some x)
    (ho : openFrame x s.tb f = some (bs, false)) (hiv : f.iv.toNat + ivWindow < x.high) : s.accept f = s := by
  have hsort : ivSort x.high x.seen f.iv.toNat = .stale := if_pos hiv
  simp [State.accept, hd, hx, ho, hsort]

theorem accept_of_fresh (hd : f.dst.toNat = s.pkgid) (hx : s.session f.src.toNat = some x)
    (ho : openFrame x s.tb f = some (bs, false)) (hiv : ivSort x.high x.seen f.iv.toNat = .fresh) :
    s.accept f = (s.modSession f.src.toNat (fun y => y.note false f.iv.toNat)).inFlow f.src.toNat x f (frameData f bs) := by
  simp [State.accept, hd, hx, ho, hiv]

theorem inFlow_of_unordered (h : f.ord = false) (s : State) (q : Nat) (x : Session) (bs : List Byte) :
    s.inFlow q x f bs = s.performFrame f bs := by
  simp [State.inFlow, h]

/-! ## The operation a frame belongs to -/

theorem inOp_of_same (hz : tget s.fab.inops (inKey f) = some z) (hsame : sameOp z.first f = true) (hfin : z.finished = false) :
    s.inOp f = z := by
  simp [State.inOp, hz, hsame, hfin]

theorem inOp_of_other (h : ∀ y, tget s.fab.inops (inKey f) = some y → sameOp y.first f = false ∨ y.finished = true) :
    s.inOp f = { first := f, expect := f.desc || f.described || f.op == 1 || f.op == 5 } := by
  unfold State.inOp
  dsimp only
  split
  · next y hy => rcases h y hy with hs | hs <;> simp [hs]
  · rfl

/-! ## Data frames and descriptor frames -/

/-- The operations that bring data or ask for it: PUT, PUTH, GETREQ and ACC. -/
def IsData (f : Frame) : Prop := f.op = 0 ∨ f.op = 1 ∨ f.op = 2 ∨ f.op = 4

theorem IsData.ne {c : BitVec 3} (h : IsData f) (hc : c = 3 ∨ c = 5 ∨ c = 6) : f.op ≠ c := by
  rintro rfl
  revert h hc
  unfold IsData
  generalize f.op = c
  revert c
  decide

/-- An operation with the bytes of one more data frame. -/
def InOp.withData (y : InOp) (f : Frame) (bs : List Byte) : InOp :=
  { y with bytes := if f.op = 2 then f.oplen.toNat else y.bytes + bs.length }

theorem performFrame_of_data (h : IsData f) (hd : f.desc = false) (s : State) (bs : List Byte) : s.performFrame f bs = s.dataIn f bs := by
  rw [State.performFrame, if_neg (h.ne (.inl rfl)), if_neg (h.ne (.inr (.inr rfl))), if_neg]
  rw [hd, Bool.false_or, decide_eq_true_eq]
  exact h.ne (.inr (.inl rfl))

theorem performFrame_of_desc (h : IsData f) (hd : f.desc = true) (s : State) (bs : List Byte) : s.performFrame f bs = s.descIn f bs := by
  rw [State.performFrame, if_neg (h.ne (.inl rfl)), if_neg (h.ne (.inr (.inr rfl))), if_pos]
  simp [hd]

theorem performFrame_of_ack (h : f.op = 6) (s : State) (bs : List Byte) : s.performFrame f bs = s.ackIn f bs := by
  rw [State.performFrame, if_neg (by rw [h]; decide), if_pos h]

theorem dataIn_rejected (h : (s.inOp f).rejected = true ∨ s.rangeOk f = false) (bs : List Byte) :
    s.dataIn f bs = s.rejectOp f ((s.inOp f).withData f bs) := by
  refine if_pos ?_
  rcases h with h | h <;> simp [h]

theorem dataIn_admitted (hr : (s.inOp f).rejected = false) (hok : s.rangeOk f = true) (bs : List Byte) :
    s.dataIn f bs = if ((s.inOp f).expect && (s.inOp f).desc.isNone) = true then
        s.putInOp f { (s.inOp f).withData f bs with parts := (s.inOp f).parts ++ [(f, bs)] }
      else (s.performBytes f bs).tryOp f ((s.inOp f).withData f bs) := by
  refine if_neg ?_
  simp [hr, hok]

theorem performBytes_of_put (h : f.op = 0) (s : State) (bs : List Byte) :
    s.performBytes f bs = s.write (localOf f.opaddr.toNat + f.off.toNat) bs := by
  simp [State.performBytes, h]

/-- The operation with its descriptor. -/
def InOp.withDesc (z : InOp) (bs : List Byte) : InOp := { z with desc := some bs, expect := true }

theorem descIn_rejected (h : (s.inOp f).rejected = true ∨ s.rangeOk f = false ∨ s.flagOk f bs = false) :
    s.descIn f bs = s.rejectOp f ((s.inOp f).withDesc bs) := by
  refine if_pos ?_
  rcases h with h | h | h <;> simp [h]

theorem descIn_admitted (hr : (s.inOp f).rejected = false) (hok : s.rangeOk f = true) (hflag : s.flagOk f bs = true) :
    s.descIn f bs = ((s.inOp f).parts.foldl (fun t p => t.performBytes p.1 p.2) s).tryOp f { (s.inOp f).withDesc bs with parts := [] } := by
  refine if_neg ?_
  simp [hr, hok, hflag]

/-! ## An operation of which every frame has come -/

/-- The acknowledgement of the operation a frame belongs to. -/
def State.ackFrame (s : State) (f : Frame) : State := s.sendAck f.src.toNat f.opid.toNat 0

theorem tryOp_of_whole (h : z.whole f = true) (s : State) : s.tryOp f z = (s.putInOp f { z with finished := true }).finishOp f z := if_pos h

theorem finishOp_data (h : f.op = 0 ∨ f.op = 4) (hd : z.desc = none) (s : State) : s.finishOp f z = s.ackFrame f := by
  rw [State.finishOp, if_neg, hd]
  · rfl
  · rcases h with h | h <;> rw [h] <;> decide

theorem finishOp_flag (h : f.op = 0 ∨ f.op = 4) (hd : z.desc = some d) (s : State) :
    s.finishOp f z = (if descWord d 0 = 0 then s else s.addFlag (localOf (descWord d 0)) 1).ackFrame f := by
  rcases h with h | h <;> simp [State.finishOp, State.afterData, State.ackFrame, h, hd]

theorem finishOp_sig (h : f.op = 5) (hd : z.desc = some d) (h1 : descWord d 1 = 0) (h2 : descWord d 2 = 0) (s : State) :
    s.finishOp f z = (s.addFlag (localOf (descWord d 0)) (descWord d 3)).ackFrame f := by
  simp [State.finishOp, State.afterData, State.ackFrame, h, hd, h1, h2]

theorem finishOp_handler (h : f.op = 1) (hd : z.desc = some d) (s : State) :
    s.finishOp f z = (if descWord d 0 = 0 then s else s.addFlag (localOf (descWord d 0)) 1).arrive
      { sc := f.hsc.toNat, arrival := { pc := BitVec.ofNat 64 (descWord d 1), arg := BitVec.ofNat 64 (descWord d 2), src := f.src.toNat },
        ack := some (f.src.toNat, f.opid.toNat) } := by
  simp [State.finishOp, State.afterData, h, hd, Handler.arrival]

theorem finishOp_get (h : f.op = 2) (hd : z.desc = none) (s : State) :
    s.finishOp f z = ((s.noteRead (localOf f.opaddr.toNat) f.oplen.toNat).getData f (s.getBytes f)).ackFrame f := by
  simp [State.finishOp, State.ackFrame, h, hd]

theorem finishOp_get_flag (h : f.op = 2) (hd : z.desc = some d) (s : State) :
    s.finishOp f z = ((if descWord d 0 = 0 then s.noteRead (localOf f.opaddr.toNat) f.oplen.toNat
      else (s.noteRead (localOf f.opaddr.toNat) f.oplen.toNat).addFlag (localOf (descWord d 0)) 1).getData f (s.getBytes f)).ackFrame f := by
  simp [State.finishOp, State.afterData, State.ackFrame, h, hd]

/-! ## GETDATA and ACK at the source of an operation (R376) -/

variable {o : RemoteOp} {k : Nat}

/-- An operation with the bytes of a GETDATA frame. -/
def RemoteOp.receiving (o : RemoteOp) (f : Frame) (bs : List Byte) : RemoteOp :=
  { o with got := (bs.zipIdx).foldl (fun t p => tput t (f.off.toNat + p.2) p.1) o.got }

theorem getIn_of (ho : tget s.fab.ops (inKey f) = some o) (hg : o.get = true) (bs : List Byte) :
    s.getIn f bs = if o.len ≤ (o.receiving f bs).got.length then s.opDone (inKey f) (o.receiving f bs) ((o.receiving f bs).bytes (fun _ => 0))
      else s.modFab (fun b => { b with ops := tput b.ops (inKey f) (o.receiving f bs) }) := by
  unfold State.getIn
  dsimp only
  rw [ho]
  exact if_neg (by rw [hg]; decide)

theorem getIn_effect (ho : tget s.fab.ops (inKey f) = some o) (hg : o.get = true) (bs : List Byte) : (s.getIn f bs).mem = s.mem
    ∧ tget (s.getIn f bs).fab.ops (inKey f) = if o.len ≤ (o.receiving f bs).got.length then none else some (o.receiving f bs) := by
  rw [getIn_of ho hg]
  split
  · exact ⟨(beside_opDone ..).mem, tget_ops_opDone ..⟩
  · exact ⟨rfl, tget_tput_self ..⟩

theorem ackIn_of_one (hlen : bs.length = 4) (s : State) (f : Frame) : s.ackIn f bs = s.ackOne f.src.toNat bs := by
  rw [State.ackIn, hlen]
  show s.ackOne f.src.toNat (bs.take 4) = _
  rw [List.take_of_length_le (Nat.le_of_eq hlen)]

theorem mem_ackOne (s : State) (q : Nat) (r : List Byte) : (s.ackOne q r).mem = s.mem := by
  unfold State.ackOne
  dsimp only
  split
  · rfl
  · split
    · rfl
    · split
      · rfl
      · split <;> rfl

theorem ackOne_of_put {q : Nat} (ho : tget s.fab.ops (opKey q (fieldAt bs 0 1)) = some o) (hg : o.get = false) :
    s.ackOne q bs = s.opDone (opKey q (fieldAt bs 0 1)) o [] := by
  simp [State.ackOne, ho, hg]

theorem ackOne_of_get {q : Nat} (ho : tget s.fab.ops (opKey q (fieldAt bs 0 1)) = some o) (hg : o.get = true) (hst : fieldAt bs 1 1 = 0)
    (hlen : o.got.length < o.len) :
    s.ackOne q bs = s.modFab (fun b => { b with ops := tput b.ops (opKey q (fieldAt bs 0 1)) { o with acked := true } }) := by
  simp [State.ackOne, ho, hg, hst, Nat.not_le.2 hlen]

/-! ## Timeouts (R376, R382) -/

variable {dst op : Nat}

theorem exec_e2eTimeout_of (ho : tget s.fab.ops (opKey dst op) = some o) : exec (.e2eTimeout dst op) s =
    .next (if o.acked ∨ o.since = 0 ∨ s.slotNo + 1 < o.since + 4 * s.calC then s
      else if 8 ≤ o.sends then s.abandon (opKey dst op) else s.resendOp (opKey dst op) o) := by
  rw [exec_e2eTimeout, execE2eTimeout, ho]

theorem e2eTimeout_early (ho : tget s.fab.ops (opKey dst op) = some o)
    (h : o.acked = true ∨ s.slotNo + 1 < o.since + 4 * s.calC) : exec (.e2eTimeout dst op) s = .next s := by
  rw [exec_e2eTimeout_of ho, if_pos (h.imp_right .inr)]

theorem e2eTimeout_late (ho : tget s.fab.ops (opKey dst op) = some o) (ha : o.acked = false) (hs : o.since ≠ 0)
    (ht : o.since + 4 * s.calC ≤ s.slotNo + 1) : exec (.e2eTimeout dst op) s =
      .next (if 8 ≤ o.sends then s.abandon (opKey dst op) else s.resendOp (opKey dst op) o) := by
  rw [exec_e2eTimeout_of ho, if_neg]
  rintro (h | h | h)
  · exact Bool.noConfusion (h.symm.trans ha)
  · exact hs h
  · omega

/-- An operation sent again stands as before, with one send more, from the next slot on. -/
theorem tget_ops_resendOp (s : State) (k : Nat) (o : RemoteOp) :
    tget (s.resendOp k o).fab.ops k = some { o with sends := o.sends + 1, since := s.slotNo + 1 } := tget_tput_self _ _ _

/-! ## Sessions (R373, R383, R391) -/

variable {q n : Nat}

theorem exec_spdmSession_other (h : n ≠ 0x13) : exec (.spdmSession ⟨n, q⟩) s = .next s :=
  congrArg Host.Outcome.next (if_neg h)

theorem exec_spdmSession_known : exec (.spdmSession ⟨0x13, q⟩) s = .next ((s.modFab (fun b => { b with
    sessions := tput b.sessions q { txKey := s.freshKey 0, rxKey := s.freshKey 32 } })).useFree 64) := rfl

/-- A session that has not failed is one of the table. -/
theorem session_eq_some : s.session q = some x ↔ tget s.fab.sessions q = some x ∧ x.failed = false := by
  unfold State.session
  cases tget s.fab.sessions q with
  | none => simp
  | some y =>
    by_cases hf : y.failed = true
    · simp only [hf, if_true, reduceCtorEq, false_iff]
      rintro ⟨hy, hx⟩
      obtain rfl := Option.some.inj hy
      exact Bool.noConfusion (hf.symm.trans hx)
    · simp only [hf, Bool.false_eq_true, if_false]
      refine ⟨fun h => ⟨h, ?_⟩, fun h => h.1⟩
      obtain rfl := Option.some.inj h
      exact Bool.eq_false_iff.2 hf

/-- A session under new keys, its old receive key good until the given time (R373). -/
def Session.rekeyed (x : Session) (tx rx : List Byte) (until' : Nat) : Session :=
  { x with txKey := tx, rxKey := rx, oldKey := x.rxKey, oldUntil := until', oldHigh := x.high, oldSeen := x.seen, iv := 0, high := 0,
           seen := [] }

theorem exec_keyUpdate_none (h : s.session q = none) : exec (.keyUpdate q) s = .next s := by
  rw [exec_keyUpdate, execKeyUpdate, h]

theorem exec_keyUpdate_some (h : s.session q = some x) : exec (.keyUpdate q) s = .next ((s.modSession q (fun x =>
    x.rekeyed (s.freshKey 0) (s.freshKey 32) (s.tb + 2 * s.calC * 2000))).useFree 64) := by
  rw [exec_keyUpdate, execKeyUpdate, h]
  rfl

theorem session_modSession {g : Session → Session} (h : s.session q = some x) (hg : (g x).failed = x.failed) :
    (s.modSession q g).session q = some (g x) := by
  obtain ⟨hx, hf⟩ := session_eq_some.1 h
  refine session_eq_some.2 ⟨?_, hg.trans hf⟩
  show tget (tmod s.fab.sessions q g) q = _
  rw [tget_tmod, if_pos rfl, hx]
  rfl

/-! ## The statement -/

/-- Settles O53: frames are taken and accepted as above; a data or descriptor frame is rejected, held or performed; an operation that
is whole is finished; and the operations, timeouts and sessions change one entry of their tables. -/
theorem framesAndSessions : Obligations.FramesAndSessions := by
  unfold Obligations.FramesAndSessions
  intro s f rest dst op q x o z d bs a n
  refine ⟨frames_taken, frames_not_taken, accept_of_dst_ne, accept_of_no_session, ?accept, inOp_of_same, inOp_of_other, ?data, ?desc,
    fun h => if_neg (Bool.eq_false_iff.1 h), ?whole, ?flag, ?getdata, ?ack, ?timeout, fun ho ha => e2eTimeout_early ho (.inl ha),
    fun ho ht => e2eTimeout_early ho (.inr ht), ?session, exec_spdmSession_other, ?key, exec_keyUpdate_none⟩
  case accept =>
    intro hd hx
    refine ⟨fun ho => ?_, fun bs ho hiv => accept_of_stale hd hx ho hiv, fun bs ho hiv hord => ?_⟩
    · rw [accept_of_unopened hd hx ho]
      exact authFail_counts ..
    · rw [accept_of_fresh hd hx ho hiv]
      exact inFlow_of_unordered hord ..
  case data =>
    intro hdata hd
    rw [performFrame_of_data hdata hd]
    refine ⟨fun hrej => ?_, fun hr hok hexp hnone => ?_, fun hr hok hknown => ?_⟩
    · rw [dataIn_rejected hrej]
      exact ⟨mem_rejectOp .., ctr_rejectOp .., inops_rejectOp ..⟩
    · rw [dataIn_admitted hr hok, if_pos (by rw [hexp, hnone]; rfl)]
      rfl
    · rw [dataIn_admitted hr hok, if_neg]
      · rfl
      · rcases hknown with h | h <;> simp [h, ← Option.not_isSome]
  case desc =>
    rintro hdata hd rfl
    rw [performFrame_of_desc hdata hd]
    refine ⟨fun hrej => ?_, fun g gs hr hok hflag hparts hg => ?_⟩
    · rw [descIn_rejected hrej]
      exact mem_rejectOp ..
    · rw [descIn_admitted hr hok hflag, hparts, List.foldl_cons, List.foldl_nil, performBytes_of_put hg]
      rfl
  case whole =>
    intro h
    dsimp only
    rw [tryOp_of_whole h]
    exact ⟨fun ho hd => finishOp_data ho hd _, fun ho hd => finishOp_flag ho hd _, fun ho hd h1 h2 => finishOp_sig ho hd h1 h2 _,
      fun ho hd => finishOp_handler ho hd _, fun ho => ⟨fun hd => finishOp_get ho hd _, fun hd => finishOp_get_flag ho hd _⟩⟩
  case flag =>
    intro hin hsec hplain hue hstks hsafe
    exact ⟨State.AllPlain.readNat_addFlag hplain hsafe hue hstks hin hsec n,
      fun c => State.AllPlain.byte_addFlag_of_outside hplain hin n⟩
  case getdata =>
    intro ho hop hg
    rw [State.performFrame, if_pos hop]
    exact getIn_effect ho hg bs
  case ack =>
    intro hop hlen ho
    rw [performFrame_of_ack hop, ackIn_of_one hlen]
    refine ⟨mem_ackOne .., fun hg => ?_, fun hg hst hgot => ?_⟩
    · rw [ackOne_of_put ho hg]
      exact tget_ops_opDone ..
    · rw [ackOne_of_get ho hg hst hgot]
      exact tget_tput_self ..
  case timeout =>
    intro ho ha hs ht
    rw [e2eTimeout_late ho ha hs ht]
    refine ⟨fun hlt => ?_, fun hge => ?_⟩
    · rw [if_neg (Nat.not_le.2 hlt)]
      exact ⟨_, _, rfl, rfl, tget_ops_resendOp .., rfl, rfl, rfl⟩
    · rw [if_pos hge]
      exact ⟨_, rfl, (beside_abandon ..).mem, tget_ops_abandon ho⟩
  case session => exact ⟨_, _, exec_spdmSession_known, tget_tput_self .., rfl, rfl, rfl, rfl, rfl, rfl, rfl⟩
  case key =>
    intro hx
    refine ⟨_, _, exec_keyUpdate_some hx, session_modSession hx rfl, rfl, rfl, ?_, rfl, rfl, rfl⟩
    show s.tb + 2 * s.calC * 2000 = _
    omega

end Sys2Proof.Machine
end

section
/-!
SUPPORT. What an access at the base dies neither reads nor changes, but for the lines of the host that it meets (R283-R286, R350): what was
sent out, the host's lines and its atomics, and the free values used.
-/

namespace Sys2Proof.Machine

/-- The state with the host's side of another. -/
def State.dress (s w : State) : State :=
  { s with out := w.out, hostLines := w.hostLines, hits := w.hits, hostRmw := w.hostRmw, hostrmw := w.hostrmw, free := w.free }

/-- The host's side with other lines met. -/
def State.meeting (w : State) (h : List (Nat × Bool)) : State := { w with hits := h }

theorem State.dress_self (s : State) : s.dress s = s := rfl

/-- An access, a function of the state, has no part in the host's side, but that it may meet lines of the host. -/
def Undressed (f : State → State) : Prop := ∀ s w, ∃ h, f (s.dress w) = (f s).dress (w.meeting h)

theorem Undressed.of_eq {f : State → State} (hf : ∀ s w, f (s.dress w) = (f s).dress w) : Undressed f := fun s w => ⟨w.hits, hf s w⟩

/-- What an access leaves of the host's side. -/
theorem Undressed.keeps {f : State → State} (hf : Undressed f) (s : State) :
    (f s).out = s.out ∧ (f s).hostLines = s.hostLines ∧ (f s).hostRmw = s.hostRmw := by
  obtain ⟨h, hs⟩ := hf s s
  rw [State.dress_self] at hs
  rw [hs]
  exact ⟨rfl, rfl, rfl⟩

/-- Memory after an access does not depend on the host's side. -/
theorem Undressed.mem {f : State → State} (hf : Undressed f) (s w : State) : (f (s.dress w)).mem = (f s).mem := by
  obtain ⟨h, hs⟩ := hf s w
  rw [hs]
  rfl

variable (s w : State)

/-! ## One base die -/

theorem undressed_meetHost (a n : Nat) (inv : Bool) : Undressed (State.meetHost · a n inv) := fun s w => by
  refine ⟨(w.meetHost a n inv).hits, ?_⟩
  simp only [State.meetHost]
  cases hw : w.hostLines.isEmpty <;> cases hs : s.hostLines.isEmpty <;>
    simp [State.dress, State.meeting, hw]

theorem spoiled_dress (st n : Nat) : (s.dress w).spoiled st n = (s.spoiled st n).dress w := by
  unfold State.spoiled
  split <;> rfl

theorem compRead_dress (blk : Nat) (acc : Bool) : (s.dress w).compRead blk acc = (s.compRead blk acc).dress w := by
  unfold State.compRead
  cases acc <;> rfl

theorem compWrite_dress (a : Nat) (v : List (Option Byte)) (acc : Bool) : (s.dress w).compWrite a v acc = (s.compWrite a v acc).dress w := by
  unfold State.compWrite
  dsimp only
  rw [show (s.dress w).block256 (a - a % 256) = s.block256 (a - a % 256) from rfl, compRead_dress]
  cases s.block256 (a - a % 256) with
  | none => exact spoiled_dress _ w _ _
  | some bs => rfl

/-- What a write to a plain frame reads first: counted, corrected, and reported where it cannot be corrected (R285, R286). -/
def State.plainRead (s : State) (a : Nat) (v : List (Option Byte)) (acc : Bool) : State :=
  let p := stackOf s.topo a
  let part := readSectors a v acc
  ((if !acc && !part.isEmpty then s.count p.1 ctrRmw 1 else s).correct p.1 (part.filter s.fixable)).spoiled p.1 (part.filter s.ueAt).length

/-- What it then puts at a stack: the bytes taken, counted, the errors of their sectors gone. -/
def State.plainPut (s : State) (st off a n : Nat) (w : List (Option Byte)) : State :=
  let put := maskedSectors a w
  let t := s.count st ctrWrb (32 * put.length)
  let u := ({ t with mem := putMasked t.mem a w, homeWrites := t.homeWrites ++ [(a, n)] } : State).cleared put
  if put.isEmpty then u else u.setTag st off 15

theorem plainWrite_eq (a : Nat) (v : List (Option Byte)) (acc : Bool) : s.plainWrite a v acc =
    (s.plainRead a v acc).plainPut (stackOf s.topo a).1 (stackOf s.topo a).2 a v.length (s.takes a v acc) := by
  unfold State.plainWrite State.plainRead
  dsimp only
  cases (!acc && !(readSectors a v acc).isEmpty) <;> rfl

theorem plainRead_dress (a : Nat) (v : List (Option Byte)) (acc : Bool) : (s.dress w).plainRead a v acc = (s.plainRead a v acc).dress w := by
  unfold State.plainRead
  dsimp only
  rw [← spoiled_dress]
  cases (!acc && !(readSectors a v acc).isEmpty) <;> rfl

theorem plainPut_dress (st off a n : Nat) (v : List (Option Byte)) :
    (s.dress w).plainPut st off a n v = (s.plainPut st off a n v).dress w := by
  unfold State.plainPut
  dsimp only
  split <;> rfl

theorem plainWrite_dress (a : Nat) (v : List (Option Byte)) (acc : Bool) :
    (s.dress w).plainWrite a v acc = (s.plainWrite a v acc).dress w := by
  rw [plainWrite_eq, plainWrite_eq, plainRead_dress]
  exact plainPut_dress _ w _ _ _ _ _

/-- The write of a stack that answers, or the report of one that does not, once the host's lines are met. -/
def State.dieWriteMet (s : State) (a : Nat) (v : List (Option Byte)) (acc : Bool) : State :=
  let p := stackOf s.topo a
  if !bitNat s.topo.stks.toNat p.1 then s.spoiled p.1 (sectorsOf a v.length)
  else if s.mode p.1 p.2 != 0 then s.compWrite a v acc
  else s.plainWrite a v acc

theorem dieWriteMet_dress (a : Nat) (v : List (Option Byte)) (acc : Bool) :
    (s.dress w).dieWriteMet a v acc = (s.dieWriteMet a v acc).dress w := by
  unfold State.dieWriteMet
  dsimp only
  rw [apply_ite (State.dress · w), apply_ite (State.dress · w), ← spoiled_dress, ← compWrite_dress, ← plainWrite_dress]
  rfl

theorem Undressed.comp {f g : State → State} (hf : Undressed f) (hg : Undressed g) : Undressed (fun s => g (f s)) := fun s w => by
  obtain ⟨h, hs⟩ := hf s w
  obtain ⟨h', hs'⟩ := hg (f s) (w.meeting h)
  exact ⟨h', (congrArg g hs).trans hs'⟩

theorem undressed_dieWriteMet (a : Nat) (v : List (Option Byte)) (acc : Bool) : Undressed (State.dieWriteMet · a v acc) :=
  Undressed.of_eq fun s w => dieWriteMet_dress s w a v acc

theorem State.dieWriteIn_inside {s : State} {a : Nat} (h : inMemory s.topo a = true) (v : List (Option Byte)) (acc : Bool) :
    s.dieWriteIn a v acc = (s.meetHost a v.length true).dieWriteMet a v acc := by
  unfold State.dieWriteIn State.dieWriteMet
  dsimp only
  rw [h, (sameStore_meetHost s a v.length true).topo]
  rfl

theorem State.dieWriteIn_outside {s : State} {a : Nat} (h : inMemory s.topo a = false) (v : List (Option Byte)) (acc : Bool) :
    s.dieWriteIn a v acc = s.setHlth [hlthUe] := by
  unfold State.dieWriteIn
  rw [h]
  rfl

theorem undressed_dieWriteIn (a : Nat) (v : List (Option Byte)) (acc : Bool) : Undressed (State.dieWriteIn · a v acc) := fun s w => by
  dsimp only
  cases hin : inMemory s.topo a with
  | true =>
    rw [State.dieWriteIn_inside hin, State.dieWriteIn_inside (s := s.dress w) hin]
    exact ((undressed_meetHost a v.length true).comp (undressed_dieWriteMet a v acc)) s w
  | false =>
    rw [State.dieWriteIn_outside hin, State.dieWriteIn_outside (s := s.dress w) hin]
    exact ⟨w.hits, rfl⟩

/-! ## Writes that cached copies follow -/

theorem copyBytes_dress (a : Nat) (v : List (Option Byte)) : (s.dress w).copyBytes a v = (s.copyBytes a v).dress w := by
  induction v generalizing s a with
  | nil => rfl
  | cons x v ih =>
    cases x with
    | none => exact ih s _
    | some b => exact ih (s.copyByte a b) _

theorem undressed_blockWrite (a : Nat) (v : List (Option Byte)) (acc : Bool) : Undressed (State.blockWrite · a v acc) := fun s w => by
  obtain ⟨h, hs⟩ := undressed_dieWriteIn a v acc s w
  refine ⟨h, ?_⟩
  dsimp only [State.blockWrite] at hs ⊢
  rw [hs, copyBytes_dress]
  rfl

theorem undressed_dieWrite (fuel a : Nat) (v : List (Option Byte)) (acc : Bool) : Undressed (State.dieWrite fuel · a v acc) := by
  induction fuel generalizing a v with
  | zero => exact .of_eq fun _ _ => rfl
  | succ fuel ih =>
    cases v with
    | nil => exact .of_eq fun _ _ => rfl
    | cons x v => exact (undressed_blockWrite a _ acc).comp (ih _ _)

theorem undressed_write (a : Nat) (v : List Byte) : Undressed (State.write · a v) := undressed_dieWrite _ a _ _

/-! ## Reads -/

theorem undressed_readEffect (a n : Nat) : Undressed (State.readEffect · a n) := fun s w => by
  obtain ⟨h, hs⟩ := undressed_meetHost a n false s w
  refine ⟨h, ?_⟩
  dsimp only [State.readEffect] at hs ⊢
  rw [hs, apply_ite (State.dress · (w.meeting h)), ← spoiled_dress]
  rfl

theorem undressed_countReads (fuel a n : Nat) : Undressed (State.countReads fuel · a n) := by
  induction fuel generalizing a n with
  | zero => exact .of_eq fun _ _ => rfl
  | succ fuel ih =>
    by_cases hn : n = 0
    · simp only [State.countReads, if_pos hn]
      exact .of_eq fun _ _ => rfl
    · simp only [State.countReads, if_neg hn]
      exact (undressed_readEffect a _).comp (ih _ _)

theorem undressed_noteRead (a n : Nat) : Undressed (State.noteRead · a n) := undressed_countReads _ a n

end Sys2Proof.Machine
end

section
/-!
SUPPORT. Host requests, lines of the host, failover, and the answers of storage commands (R230, R289, R310, R311, R349-R351, R355); and
the statement about them.
-/

namespace Sys2Proof.Machine

variable {s : State} {r : HostReq}

/-! ## Requests that are not served (R349, R355) -/

theorem sameBytes_emit (s : State) (o : Out) : SameBytes s (s.emit o) := fun a => State.byte_congr rfl rfl rfl rfl rfl (fun _ => rfl) a

theorem exec_hostRead_unserved (h : s.servesReq r = false) : exec (.hostRead r) s = .next (s.complete r.port 1 []) := by
  rw [exec_hostRead, execHostRead, h]
  rfl

theorem exec_hostWrite_unserved (h : s.servesReq r = false) : exec (.hostWrite r) s = .next s := by
  rw [exec_hostWrite, execHostWrite, h]
  rfl

theorem exec_hostAtomic_unserved (h : s.servesReq r = false) : exec (.hostAtomic r) s = .next (s.complete r.port 1 []) := by
  rw [exec_hostAtomic, execHostAtomic, h]
  rfl

/-! ## Requests of memory (R310, R311) -/

/-- A request of memory through BAR2, or through CXL.mem while the host holds no line, meets its own lines as any other access. -/
theorem State.throughCxl_of {g : State → State} (h : r.space ≠ .cxl ∨ s.hostLines = []) (hg : (g s).hostLines = s.hostLines) :
    s.throughCxl r g = g s := by
  unfold State.throughCxl
  split
  · next hr =>
    have hs : ({ s with hostLines := [] } : State) = s := by rw [← h.resolve_left (not_not_intro hr)]
    rw [hs, ← hg]
  · rfl

/-- An aligned word of 4 or 8 bytes. -/
def IsWord (r : HostReq) : Prop := (r.size = 4 ∨ r.size = 8) ∧ r.addr % r.size = 0

section Memory

variable (hserves : s.servesReq r = true) (hspace : r.space ≠ .bar0)

include hserves hspace

theorem exec_hostRead_untagged (ht : s.hostTags r = false) : exec (.hostRead r) s = .next s := by
  simp [execHostRead, hserves, hspace, ht]

theorem exec_hostWrite_untagged (ht : s.hostTags r = false) : exec (.hostWrite r) s = .next s := by
  simp [execHostWrite, hserves, hspace, ht]

variable (hcxl : r.space ≠ .cxl ∨ s.hostLines = [])

include hcxl

theorem exec_hostRead_of (ht : s.hostTags r = true) (hearlier : s.earlier (hostPort r.port) r.addr r.size = []) :
    exec (.hostRead r) s = .next ((s.noteRead r.addr r.size).complete r.port 0 (s.bytes r.addr r.size)) := by
  have hnone : s.performEarlier (hostPort r.port) r.addr r.size = s := by rw [State.performEarlier, hearlier]; rfl
  obtain ⟨-, hlines, -⟩ := (undressed_noteRead r.addr r.size).keeps s
  simp only [exec_hostRead, execHostRead, hserves, hspace, ht, Bool.not_true, Bool.false_eq_true, if_false]
  rw [State.throughCxl_of hcxl]
  · rw [hnone]
  · rw [hnone]
    exact hlines

theorem exec_hostWrite_of (ht : s.hostTags r = true) (hearlier : s.earlier (hostPort r.port) r.addr r.size = []) :
    exec (.hostWrite r) s = .next (s.write r.addr r.data) := by
  have hnone : s.performEarlier (hostPort r.port) r.addr r.size = s := by rw [State.performEarlier, hearlier]; rfl
  obtain ⟨-, hlines, -⟩ := (undressed_write r.addr r.data).keeps s
  simp only [exec_hostWrite, execHostWrite, hserves, hspace, ht, Bool.not_true, Bool.false_eq_true, if_false]
  rw [State.throughCxl_of hcxl]
  · rw [hnone]
  · rw [hnone]
    exact hlines

theorem exec_hostAtomic_of (hword : IsWord r) (hlines : (s.hostAtomic r).hostLines = s.hostLines) :
    exec (.hostAtomic r) s = .next (s.hostAtomic r) := by
  obtain ⟨hsize, halign⟩ := hword
  have hwidth : (r.size == 4 || r.size == 8) = true := by rcases hsize with h | h <;> simp [h]
  have hcond : (!s.servesReq r || r.space == .bar0 || !(r.size == 4 || r.size == 8) || r.addr % r.size != 0) = false := by
    rw [hserves, beq_false_of_ne hspace, hwidth, halign]
    rfl
  rw [exec_hostAtomic, execHostAtomic, hcond, State.throughCxl_of hcxl hlines]
  rfl

end Memory

/-! ### The halves of an atomic -/

theorem State.hostAtomic_untagged (h : s.hostTags r = false) : s.hostAtomic r = s := by simp [State.hostAtomic, h]

/-- No equal request is between its halves. -/
theorem find?_hostRmw_of_ne (h : ∀ p ∈ s.hostRmw, p.1 ≠ r) : s.hostRmw.find? (fun p => p.1 == r) = none :=
  List.find?_eq_none.2 fun p hp => by simp [h p hp]

theorem State.hostAtomic_split (ht : s.hostTags r = true) (hnew : ∀ p ∈ s.hostRmw, p.1 ≠ r) (hpage : s.sysatomAt r.addr = false) :
    s.hostAtomic r = s.splitRead r := by
  simp [State.hostAtomic, ht, find?_hostRmw_of_ne hnew, hpage]

theorem State.hostAtomic_sysatom (ht : s.hostTags r = true) (hnew : ∀ p ∈ s.hostRmw, p.1 ≠ r) (hpage : s.sysatomAt r.addr = true) :
    s.hostAtomic r = s.send (s.atomicPacket r) := by
  simp [State.hostAtomic, ht, find?_hostRmw_of_ne hnew, hpage]

theorem State.hostAtomic_second {old : Nat} (ht : s.hostTags r = true) (hfind : s.hostRmw.find? (fun p => p.1 == r) = some (r, old))
    (hfree : s.freeVal % 2 = 0) : s.hostAtomic r = (s.useFree 1).splitWrite (r, old) := by
  simp [State.hostAtomic, ht, hfind, hfree]

/-- The first half reads the word and notes it. -/
theorem State.splitRead_of (hearlier : s.earlier (hostPort r.port) r.addr r.size = []) :
    s.splitRead r = { s.noteRead r.addr r.size with hostRmw := s.hostRmw ++ [(r, s.readNat r.addr r.size)] } := by
  have hnone : s.performEarlier (hostPort r.port) r.addr r.size = s := by rw [State.performEarlier, hearlier]; rfl
  rw [State.splitRead, hnone]

/-- The second half writes the result, as from any state that differs on the host's side alone. -/
theorem State.splitWrite_effect (s : State) (r : HostReq) (old : Nat) :
    let t := (s.useFree 1).splitWrite (r, old)
    t.hostRmw = s.hostRmw.erase (r, old) ∧ t.hostLines = s.hostLines ∧ t.out = s.out ++ [.host r.port 0 (natBytes r.size old)]
      ∧ t.mem = (s.write r.addr (natBytes r.size (atomicResult r old))).mem := by
  have hw := undressed_write r.addr (natBytes r.size (atomicResult r old))
  let w : State := { s.useFree 1 with
    hostRmw := s.hostRmw.erase (r, old), hostrmw := tput s.hostrmw r.port (tgetD s.hostrmw r.port 0 + 1) }
  obtain ⟨hout, hlines, hrmw⟩ := hw.keeps (s.dress w)
  exact ⟨hrmw, hlines, congrArg (· ++ [Out.host r.port 0 (natBytes r.size old)]) hout, hw.mem s w⟩

/-! ## Requests of registers (R317) -/

theorem exec_hostRead_reg (hs : s.servesReq r = true) (hb : r.space = .bar0) (hz : r.size = 8) (ha : r.addr % 8 = 0) :
    exec (.hostRead r) s = .next (s.complete r.port 0 (natBytes 8 (s.regRead r.addr).toNat)) := by
  simp [execHostRead, hs, hb, State.hostReg, isRegReq, hz, ha]

theorem exec_hostWrite_reg (hs : s.servesReq r = true) (hb : r.space = .bar0) (hz : r.size = 8) (ha : r.addr % 8 = 0) :
    exec (.hostWrite r) s = .next (s.regWrite r.addr (BitVec.ofNat 64 (bytesNat r.data))) := by
  simp [execHostWrite, hs, hb, isRegReq, hz, ha]

/-! ## Lines of the host (R350) -/

variable {k : Nat}

theorem exec_cxlCacheRequest_of (excl : Bool) (hs : s.serves 0 = true) (hin : inMemory s.topo (64 * k) = true)
    (hroom : (s.hostLines.filter (fun p => lineHalf p.1 == lineHalf k && p.1 != k)).length < dirLines) :
    exec (.cxlCacheRequest k excl) s = .next (s.grantLine k excl) := by
  rw [exec_cxlCacheRequest, execCxlCacheRequest, hs, hin]
  simp only [Bool.not_true, Bool.or_false, Bool.false_eq_true, if_false, if_pos hroom]

theorem hostLines_grantLine (s : State) (k : Nat) (excl : Bool) :
    (s.grantLine k excl).hostLines = s.hostLines.filter (fun p => p.1 != k) ++ [(k, excl)] := rfl

/-- The state after the host has given up a line that it had not modified. -/
def State.givenBack (s : State) (k : Nat) : State :=
  { s with snoops := s.snoops.filter (fun p => p.1 != k), hostLines := s.hostLines.filter (fun p => p.1 != k) }

theorem exec_bisnpResponse_of (hp : s.port 0 = .run) (hsnoop : (k, true) ∈ s.snoops) :
    exec (.bisnpResponse k none) s = .next (s.givenBack k) := by
  have hany : s.snoops.any (fun p => p.1 == k) = true := List.any_eq_true.2 ⟨_, hsnoop, by simp⟩
  have hinv : s.snoops.any (fun p => p.1 == k && p.2) = true := List.any_eq_true.2 ⟨_, hsnoop, by simp⟩
  rw [exec_bisnpResponse, execBisnpResponse, hp, hany, hinv]
  simp [State.returned, State.givenBack]

theorem exec_bisnpResponse_unasked (h : s.port 0 ≠ .run ∨ ∀ p ∈ s.snoops, p.1 ≠ k) : exec (.bisnpResponse k none) s = .next s := by
  rw [exec_bisnpResponse, execBisnpResponse]
  refine congrArg Host.Outcome.next (if_pos ?_)
  rcases h with h | h
  · simp [h]
  · simp only [Bool.or_eq_true, Bool.not_eq_true', List.any_eq_false, beq_iff_eq]
    exact .inr h

/-! ## Failover (R351) -/

theorem exec_hostLinkTimeout_of (ha : s.topo.acthost = false) (hl : halfLost s.topo 1 = false) (hg : s.hostGone = true) :
    exec .hostLinkTimeout s = .next s.failOver := by
  rw [exec_hostLinkTimeout, execHostLinkTimeout, ha, hl, hg]
  rfl

theorem exec_hostLinkTimeout_stays (h : s.topo.acthost = true ∨ halfLost s.topo 1 = true ∨ s.hostGone = false) :
    exec .hostLinkTimeout s = .next s := by
  rw [exec_hostLinkTimeout, execHostLinkTimeout]
  refine congrArg Host.Outcome.next (if_pos ?_)
  rcases h with h | h | h <;> simp [h]

/-- No byte depends on which half has the host. -/
theorem sameBytes_failOver (s : State) : SameBytes s s.failOver := fun _ => rfl

/-! ## Storage commands (R230, R289) -/

variable {job cmd : Nat} {e : Entry} {j : StorageJob}

theorem State.onCmd_of (he : (s.sc (job % 16)).entry? (job / 16) = some e) (hj : e.work.storage = some j) (hc : e.awaits cmd = true)
    (g : Nat → Entry → StorageJob → State) : s.onCmd job cmd g = g (job % 16) e j := by
  simp [State.onCmd, he, hj, hc]

/-- An entry whose command has ended with a status and bytes. -/
def Entry.ended (e : Entry) (j : StorageJob) (cmd st : Nat) (bs : List Byte) : Entry :=
  let b := (j.cmds[cmd]?).getD (0, 0)
  { e with parts := tput e.parts cmd (), mid := tputs e.mid (b.1 * j.lb) bs, fails := if st = 0 then e.fails else e.fails ++ [(b.1, st)] }

/-- The bytes that a command brings: those the controller gave where it succeeds, and zeros where it fails. -/
def StorageJob.brought (j : StorageJob) (cmd st : Nat) (data : List Byte) : List Byte :=
  let k := ((j.cmds[cmd]?).getD (0, 0)).2 * j.lb
  if st = 0 then cmdBytes k data else List.replicate k 0

theorem StorageJob.brought_toNat (j : StorageJob) (cmd : Nat) (status : Half) (data : List Byte) :
    j.brought cmd status.toNat data = if status = 0 then cmdBytes (((j.cmds[cmd]?).getD (0, 0)).2 * j.lb) data
      else List.replicate (((j.cmds[cmd]?).getD (0, 0)).2 * j.lb) 0 := by
  have hz : status.toNat = 0 ↔ status = 0 := by rw [BitVec.toNat_eq]; rfl
  simp only [StorageJob.brought, hz]

theorem State.landCmd_effect {n i : Nat} (he : (s.sc n).entry? i = some e) (j : StorageJob) (cmd : Nat) (bs : List Byte) :
    SameBytes s (s.landCmd n e j cmd bs) ∧ ((s.landCmd n e j cmd bs).sc n).entry? i = some { e with
      parts := tput e.parts cmd (), mid := tputs e.mid (((j.cmds[cmd]?).getD (0, 0)).1 * j.lb) bs } := by
  obtain rfl := Sc.id_of_entry? he
  exact ⟨(keepsCtxs_modEntry ..).sameBytes, State.entry?_modEntry he fun _ => rfl⟩

theorem State.endCmd_effect {n i : Nat} (he : (s.sc n).entry? i = some e) (j : StorageJob) (cmd st : Nat) (data : List Byte) :
    SameBytes s (s.endCmd n e j cmd st data)
      ∧ ((s.endCmd n e j cmd st data).sc n).entry? i = some (e.ended j cmd st (j.brought cmd st data)) := by
  unfold State.endCmd Entry.ended StorageJob.brought
  dsimp only
  split
  · exact State.landCmd_effect he ..
  · obtain ⟨hbytes, hentry⟩ := State.landCmd_effect he j cmd (List.replicate (((j.cmds[cmd]?).getD (0, 0)).2 * j.lb) 0)
    obtain rfl := Sc.id_of_entry? he
    exact ⟨fun a => ((keepsCtxs_modEntry ..).sameBytes a).trans (hbytes a), State.entry?_modEntry hentry fun _ => rfl⟩

section Commands

variable (he : (s.sc (job % 16)).entry? (job / 16) = some e) (hj : e.work.storage = some j) (hc : e.awaits cmd = true)

include he hj hc

theorem exec_nvmeCompletion_of (status : Half) (data : List Byte) : exec (.nvmeCompletion job cmd status data) s = .next
    (if s.port (2 + j.port) = .run ∧ s.cmdLate e cmd = false then s.endCmd (job % 16) e j cmd status.toNat data else s) := by
  rw [exec_nvmeCompletion, execNvmeCompletion, State.onCmd_of he hj hc]

theorem exec_nvmeTimeout_of : exec (.nvmeTimeout job cmd) s = .next
    (if s.cmdLate e cmd = true then s.endCmd (job % 16) e j cmd 0xFFFF [] else s) := by
  rw [exec_nvmeTimeout, execNvmeTimeout, State.onCmd_of he hj hc]

end Commands

/-- Settles O49: each request and event by its equation above; an access leaves the host's side and its bytes, and the end of a storage
command changes its entry. -/
theorem hostAndStorage : Obligations.HostAndStorage := by
  unfold Obligations.HostAndStorage
  intro s r k reg job cmd e j status data
  refine ⟨?unserved, fun hs hb hx => ⟨fun ht => ?untagged, fun ht hq => ?tagged, fun ht hw hp hn => ?sysatom,
      fun old ht hw hfind hfree => ?second⟩,
    fun hs hb hz ha => ⟨⟨_, exec_hostRead_reg hs hb hz ha, rfl, sameBytes_emit _ _⟩, exec_hostWrite_reg hs hb hz ha⟩,
    ?granted, ?given, exec_bisnpResponse_unasked, ?failover, exec_hostLinkTimeout_stays,
    fun hk => ⟨_, congrArg Host.Outcome.next (if_pos hk), rfl, sameBytes_emit _ _⟩, fun he hj hc => ?storage⟩
  case unserved =>
    exact fun hs => ⟨⟨_, exec_hostRead_unserved hs, rfl, sameBytes_emit _ _⟩, exec_hostWrite_unserved hs,
      ⟨_, exec_hostAtomic_unserved hs, rfl, sameBytes_emit _ _⟩⟩
  case untagged =>
    have hsame := State.hostAtomic_untagged ht
    exact ⟨exec_hostRead_untagged hs hb ht, exec_hostWrite_untagged hs hb ht,
      fun hw => (exec_hostAtomic_of hs hb hx hw (by rw [hsame])).trans (congrArg _ hsame)⟩
  case tagged =>
    obtain ⟨hout, hlines, -⟩ := (undressed_noteRead r.addr r.size).keeps s
    have hsame : SameBytes s (s.noteRead r.addr r.size) := (sameStore_noteRead ..).sameBytes
    refine ⟨⟨_, exec_hostRead_of hs hb hx ht hq, congrArg (· ++ _) hout, hsame⟩, exec_hostWrite_of hs hb hx ht hq, fun hw hp hn => ?_⟩
    have hsplit := (State.hostAtomic_split ht hn hp).trans (State.splitRead_of hq)
    exact ⟨_, (exec_hostAtomic_of hs hb hx hw (by rw [hsplit]; exact hlines)).trans (congrArg _ hsplit), rfl, hsame, hout⟩
  case sysatom =>
    have hsend := State.hostAtomic_sysatom ht hn hp
    exact (exec_hostAtomic_of hs hb hx hw (by rw [hsend]; rfl)).trans (congrArg _ hsend)
  case second =>
    have hsecond := State.hostAtomic_second ht hfind hfree
    obtain ⟨hrmw, hlines, hout, hmem⟩ := State.splitWrite_effect s r old
    exact ⟨_, (exec_hostAtomic_of hs hb hx hw (by rw [hsecond]; exact hlines)).trans (congrArg _ hsecond), hrmw, hout, hmem⟩
  case granted =>
    intro excl hs hin hroom
    refine ⟨_, exec_cxlCacheRequest_of excl hs hin hroom, ?_, fun p hp hne => ?_⟩ <;> rw [hostLines_grantLine]
    · simp
    · simp [hp, hne]
  case given =>
    intro hp hsnoop
    refine ⟨_, exec_bisnpResponse_of hp hsnoop, fun _ => rfl, fun p hm => ?_, fun p hm => ?_⟩
    · simpa using (List.mem_filter.1 hm).2
    · simpa using (List.mem_filter.1 hm).2
  case failover =>
    exact fun ha hl hg => ⟨_, exec_hostLinkTimeout_of ha hl hg, rfl, rfl, sameBytes_failOver s⟩
  case storage =>
    refine ⟨fun hp hl => ?_, fun h => ?_, fun hl => ?_, fun hl => ?_⟩
    · obtain ⟨hbytes, hentry⟩ := State.endCmd_effect he j cmd status.toNat data
      rw [StorageJob.brought_toNat] at hentry
      exact ⟨_, (exec_nvmeCompletion_of he hj hc status data).trans (congrArg _ (if_pos ⟨hp, hl⟩)), hbytes, hentry⟩
    · refine (exec_nvmeCompletion_of he hj hc status data).trans (congrArg _ (if_neg ?_))
      rintro ⟨hp, hl⟩
      exact h.elim (· hp) fun hlate => Bool.noConfusion (hlate.symm.trans hl)
    · exact (exec_nvmeTimeout_of he hj hc).trans (congrArg _ (if_neg (by rw [hl]; decide)))
    · obtain ⟨hbytes, hentry⟩ := State.endCmd_effect he j cmd 0xFFFF []
      exact ⟨_, (exec_nvmeTimeout_of he hj hc).trans (congrArg _ (if_pos hl)), hbytes, hentry⟩

end Sys2Proof.Machine
end

section
/-!
SUPPORT. Spawns (R241): the entry taken, what linking a child leaves of the other futures and contexts, and the statement about them.
-/

namespace Sys2Proof.Machine

variable {s t : State} {d a b : BitVec 5} {h : BitVec 4} {k hub : Nat}

/-! ## The entry taken -/

theorem State.futFree_of_freeFutIn (hk : s.freeFutIn hub = some k) : (s.fut k).st = .free := by
  unfold State.freeFutIn at hk
  split at hk
  · cases hk
  · obtain ⟨i, hi, rfl⟩ := Option.map_eq_some_iff.1 hk
    have hfree := s.anyFree_ok (n := 131072) (List.find?_some hi)
    rw [State.futFree, Bool.and_eq_true] at hfree
    exact beq_iff_eq.1 hfree.2

/-- The entry a spawn takes is FREE. -/
theorem State.st_of_allocFut (hk : s.allocFut hub = some k) : (s.fut k).st = .free := by
  unfold State.allocFut at hk
  split at hk
  · next hfirst => exact State.futFree_of_freeFutIn (hfirst.trans hk)
  · exact State.futFree_of_freeFutIn hk

/-! ## What contexts hold -/

/-- The same context executes, memory is that of `s`, and every context is, but for the children that it holds. -/
structure SameButKids (s t : State) : Prop where
  cur : t.cur = s.cur
  mem : t.mem = s.mem
  ctx : ∀ n c, ∃ l, t.ctx n c = { s.ctx n c with kids := l }

theorem SameButKids.trans {u : State} (h : SameButKids s t) (h' : SameButKids t u) : SameButKids s u := by
  refine ⟨h'.cur.trans h.cur, h'.mem.trans h.mem, fun n c => ?_⟩
  obtain ⟨l, hl⟩ := h.ctx n c
  obtain ⟨l', hl'⟩ := h'.ctx n c
  exact ⟨l', hl'.trans (by rw [hl])⟩

theorem SameButKids.me (h : SameButKids s t) : ∃ l, t.me = { s.me with kids := l } := by
  rw [State.me, h.cur]
  exact h.ctx _ _

theorem sameButKids_of_scs (hcur : t.cur = s.cur) (hmem : t.mem = s.mem) (hscs : t.scs = s.scs) : SameButKids s t :=
  ⟨hcur, hmem, fun n c => ⟨(s.ctx n c).kids, by rw [State.ctx, State.ctx, State.sc, State.sc, hscs]⟩⟩

theorem sameButKids_modCtx (s : State) (n c : Nat) (f : List Nat → List Nat) :
    SameButKids s (s.modCtx n c fun x => { x with kids := f x.kids }) := by
  refine ⟨rfl, rfl, fun m d => ?_⟩
  rw [State.ctx_modCtx]
  split
  · next h => rw [h.1, h.2]; exact ⟨f (s.ctx n c).kids, rfl⟩
  · exact ⟨(s.ctx m d).kids, rfl⟩

theorem sameButKids_linkKid (s : State) (h : Nat) (p : Holder) : SameButKids s (s.linkKid h p) := by
  cases p with
  | nobody => exact sameButKids_of_scs rfl rfl rfl
  | task p => exact sameButKids_of_scs rfl rfl rfl
  | ctx n c => exact sameButKids_modCtx s n c _

/-! ## A child linked -/

theorem State.fut_linkKid (s : State) (h : Nat) (p : Holder) (j : Nat) : ∃ l, (s.linkKid h p).fut j = { s.fut j with kids := l } := by
  cases p with
  | nobody => exact ⟨_, rfl⟩
  | task p =>
    rw [State.linkKid, State.fut_modFut]
    split
    · next hj => rw [hj]; exact ⟨_, rfl⟩
    · exact ⟨_, rfl⟩
  | ctx n c => exact ⟨_, rfl⟩

theorem State.slices_linkKid (s : State) (h : Nat) (p : Holder) : (s.linkKid h p).slices = s.slices := by
  cases p <;> rfl

/-- A linked child is on the list of the future that holds it. -/
theorem State.mem_kids_linkKid_task (s : State) (h p : Nat) : h ∈ ((s.linkKid h (.task p)).fut (futKey p)).kids := by
  rw [State.linkKid, State.fut_modFut, if_pos rfl]
  exact List.mem_cons_self ..

/-! ## The spawn -/

theorem State.fut_newFut_self (s : State) (k : Nat) (f : Fut) :
    (s.newFut k f).fut k = { f with st := .ready, gen := (s.fut k).gen, count := 1, held := true, seq := s.seq } :=
  (s.fut_modFut k k fun x => { f with st := .ready, gen := x.gen, count := 1, held := true, seq := s.seq }).trans (if_pos rfl)

theorem State.fut_spawnAt_self (s : State) (k : Nat) (f : Fut) :
    (s.spawnAt k f).fut k = { f with st := .ready, gen := (s.fut k).gen, count := 1, held := true, seq := s.seq } :=
  s.fut_newFut_self k f

theorem State.handleOf_spawnAt (s : State) (k : Nat) (f : Fut) : (s.spawnAt k f).handleOf k = futHandle k (s.fut k).gen := by
  rw [State.handleOf, State.fut_spawnAt_self]

theorem exec_spawn_misaligned {hint : Option Nat} {i : Instr} (hi : exec i s = spawnOp d a b hint s) (hf : s.Filled [d, a, b])
    (ha : (s.g a).toNat % 4 ≠ 0) : Traps i s 0x03 (s.g a) s.me.pc :=
  traps_of ((hi.trans (hf.ctl _)).trans (congrArg _ (if_pos ha)))

theorem exec_spawn_full {hint : Option Nat} {i : Instr} (hi : exec i s = spawnOp d a b hint s) (hf : s.Filled [d, a, b])
    (ha : (s.g a).toNat % 4 = 0) (hk : s.allocFut (s.cur.sc / 8) = none) : Traps i s 0x25 0 s.me.pc := by
  refine traps_of ((hi.trans (hf.ctl _)).trans (congrArg _ ((if_neg (not_not.2 ha)).trans ?_)))
  rw [hubOf, hk]
  rfl

theorem Ctx.next_setReg_kids (x : Ctx) (l : List Nat) (r : Nat) (v : Word) :
    (({ x with kids := l } : Ctx).setReg r v).next = { (x.setReg r v).next with kids := l } := by
  unfold Ctx.setReg
  split <;> rfl

theorem Ctx.kids_next_setReg (x : Ctx) (r : Nat) (v : Word) : (x.setReg r v).next.kids = x.kids := by
  unfold Ctx.setReg
  split <;> rfl

/-- What a spawn makes of the future it takes, but for what every new future has. -/
def State.spawnFut (s : State) (a b : BitVec 5) (hint : Option Nat) : Fut :=
  { held := true, parent := s.meHolder, entry := s.g a, arg := s.g b, rcb := s.myRcb, hint := hint }

/-- The spawn but for its result and the end of the instruction. -/
def State.spawned (s : State) (a b : BitVec 5) (hint : Option Nat) (k : Nat) : State :=
  (s.spawnAt k (s.spawnFut a b hint)).linkKid (futHandle k (s.fut k).gen) s.meHolder

theorem State.spawn_eq (s : State) (d a b : BitVec 5) (hint : Option Nat) (k : Nat) :
    s.spawn d a b hint k = (s.spawned a b hint k).ret d (BitVec.ofNat 64 (futHandle k (s.fut k).gen)) := by
  unfold State.spawn
  dsimp only
  rw [State.handleOf_spawnAt]
  rfl

theorem State.fut_spawned (s : State) (a b : BitVec 5) (hint : Option Nat) (k : Nat) :
    ∃ l, (s.spawned a b hint k).fut k =
      { s.spawnFut a b hint with st := .ready, gen := (s.fut k).gen, count := 1, held := true, seq := s.seq, kids := l } := by
  obtain ⟨l, hl⟩ := (s.spawnAt k (s.spawnFut a b hint)).fut_linkKid (futHandle k (s.fut k).gen) s.meHolder k
  exact ⟨l, hl.trans (by rw [s.fut_spawnAt_self k (s.spawnFut a b hint)])⟩

theorem State.kids_spawned_ctx (s : State) (a b : BitVec 5) (hint : Option Nat) (k : Nat) (hc : 16 ≤ s.cur.ctx) :
    (s.spawned a b hint k).me.kids = futHandle k (s.fut k).gen :: s.me.kids := by
  unfold State.spawned
  rw [State.meHolder, if_neg (by omega)]
  exact congrArg Ctx.kids ((s.spawnAt k (s.spawnFut a b hint)).ctx_modCtx_self s.cur.sc s.cur.ctx _)

theorem State.slices_spawned (s : State) (a b : BitVec 5) (hint : Option Nat) (k : Nat) :
    (s.spawned a b hint k).slices.length = s.slices.length + 1 :=
  (congrArg List.length (State.slices_linkKid _ _ _)).trans List.length_append

/-- The instruction of a spawn, once its checks are passed, in the words of R241. -/
theorem spawn_of {hint : Option Nat} {i : Instr} (hi : exec i s = spawnOp d a b hint s) (hf : s.Filled [d, a, b])
    (ha : (s.g a).toNat % 4 = 0) (hk : s.allocFut (s.cur.sc / 8) = some k) (hs : s.Settled) :
    ∃ t, exec i s = .next t ∧ s.me.Wrote { t.me with kids := s.me.kids } d.toNat (BitVec.ofNat 64 (futHandle k (s.fut k).gen))
      ∧ (t.fut k).st = .ready ∧ (t.fut k).count = 1 ∧ (t.fut k).held = true ∧ (t.fut k).entry = s.g a ∧ (t.fut k).arg = s.g b
      ∧ (t.fut k).rcb = s.myRcb ∧ (t.fut k).parent = s.meHolder
      ∧ (s.cur.ctx < 16 → futHandle k (s.fut k).gen ∈ (t.fut (futKey s.me.fut.toNat)).kids)
      ∧ (16 ≤ s.cur.ctx → t.me.kids = futHandle k (s.fut k).gen :: s.me.kids)
      ∧ (t.fut k).hint = hint ∧ (s.fut k).st = .free ∧ (t.fut k).gen = (s.fut k).gen ∧ t.slices.length = s.slices.length + 1 ∧ t.mem = s.mem := by
  have hx : exec i s = .next (s.spawn d a b hint k) := by
    refine (hi.trans (hf.ctl _)).trans (congrArg _ ((if_neg (not_not.2 ha)).trans ?_))
    rw [hubOf, hk]
    exact State.afterAccesses_of_settled hs _
  rw [s.spawn_eq d a b hint k, State.ret_eq] at hx
  obtain ⟨l, hfut⟩ := s.fut_spawned a b hint k
  obtain ⟨q, hme⟩ : ∃ q, (s.spawned a b hint k).me = { s.me with kids := q } := (sameButKids_linkKid _ _ _).me
  have hfut' : ∀ f j, ((s.spawned a b hint k).modMe f).fut j = (s.spawned a b hint k).fut j := fun _ _ => rfl
  refine ⟨_, hx, ?_, ?_⟩
  · rw [State.me_modMe, hme, Ctx.next_setReg_kids]
    have hkids := s.me.kids_next_setReg d.toNat (BitVec.ofNat 64 (futHandle k (s.fut k).gen))
    exact hkids ▸ s.me.wrote_setReg_next d.toNat _
  · rw [hfut', hfut]
    refine ⟨rfl, rfl, rfl, rfl, rfl, rfl, rfl, fun hc => ?_, fun hc => ?_, rfl, State.st_of_allocFut hk, rfl,
      s.slices_spawned a b hint k, (sameButKids_linkKid _ _ _).mem⟩
    · rw [hfut', State.spawned, State.meHolder, if_pos hc]
      exact State.mem_kids_linkKid_task _ _ _
    · rw [State.me_modMe, Ctx.kids_next_setReg, s.kids_spawned_ctx a b hint k hc]

/-- Settles O33: each of the two instructions is one operation with a hint or none, over what a spawn leaves (`spawn_of`). -/
theorem spawning : Obligations.Spawning := by
  unfold Obligations.Spawning
  intro s d a b h k hf
  refine ⟨fun ha hk hs => ?_, fun ha => ?_, fun ha hk => ?_⟩
  · exact ⟨spawn_of (exec_fspawn d a b s) hf ha hk hs, spawn_of (exec_fspawnh d a b h s) hf ha hk hs⟩
  · exact ⟨exec_spawn_misaligned (exec_fspawn d a b s) hf ha, exec_spawn_misaligned (exec_fspawnh d a b h s) hf ha⟩
  · exact ⟨exec_spawn_full (exec_fspawn d a b s) hf ha hk, exec_spawn_full (exec_fspawnh d a b h s) hf ha hk⟩

end Sys2Proof.Machine
end


section
/-!
SUPPORT. References to futures (R236, R243-R245): what a drop leaves of the future, of the contexts and of the walker, and the statement
about the instructions that count, drop and read.
-/

namespace Sys2Proof.Machine

variable {s : State} {d a r : BitVec 5} {rs : List (BitVec 5)} {i : Instr} {k j : Nat}

/-! ## What a drop leaves of the contexts -/

theorem sameButKids_unlinkKid (s : State) (h : Nat) (p : Holder) : SameButKids s (s.unlinkKid h p) := by
  cases p with
  | nobody => exact sameButKids_of_scs rfl rfl rfl
  | task p =>
    rw [State.unlinkKid]
    split <;> exact sameButKids_of_scs rfl rfl rfl
  | ctx n c => exact sameButKids_modCtx s n c _

theorem sameButKids_unhold (s : State) (k : Nat) : SameButKids s (s.unhold k) :=
  (sameButKids_unlinkKid s _ _).trans (sameButKids_of_scs rfl rfl rfl)

theorem sameButKids_freeFut (s : State) (k : Nat) : SameButKids s (s.freeFut k) :=
  (sameButKids_unhold s k).trans (sameButKids_of_scs rfl rfl rfl)

theorem State.dropCount_shared (h : (s.fut k).count ≠ 1) : s.dropCount k = s.modFut k fun x => { x with count := x.count - 1 } := if_pos h

theorem State.dropCount_over (h : (s.fut k).count = 1) (hst : (s.fut k).st = .done ∨ (s.fut k).st = .faulted) :
    s.dropCount k = (s.modFut k fun x => { x with count := x.count - 1 }).freeFut k := (if_neg (not_not.2 h)).trans (if_pos hst)

theorem State.dropCount_ready (h : (s.fut k).count = 1) (hst : (s.fut k).st = .ready) :
    s.dropCount k = { (s.modFut k fun x => { x with count := x.count - 1 }).freeFut k with
      slices := s.slices.filter fun x => x.fut != k } := by
  have hover : ¬((s.fut k).st = .done ∨ (s.fut k).st = .faulted) := by rw [hst]; decide
  exact (if_neg (not_not.2 h)).trans ((if_neg hover).trans (if_pos hst))

theorem sameButKids_dropCount (s : State) (k : Nat) : SameButKids s (s.dropCount k) := by
  have hcount : SameButKids s (s.modFut k fun x => { x with count := x.count - 1 }) := sameButKids_of_scs rfl rfl rfl
  have hfree := hcount.trans (sameButKids_freeFut _ k)
  unfold State.dropCount
  dsimp only
  split
  · exact hcount
  · split
    · exact hfree
    · split
      · exact hfree.trans (sameButKids_of_scs rfl rfl rfl)
      · split
        · exact hcount.trans (sameButKids_of_scs rfl rfl rfl)
        · exact hcount

/-! ## What a drop by the executing context leaves of the future (R243) -/

/-- Does the executing context hold the spawn reference of a future? -/
def State.HoldsRef (s : State) (k : Nat) : Prop := (s.fut k).held = true ∧ (s.fut k).parent = s.meHolder

/-- The spawn reference given up where the executing context holds it. -/
def State.released (s : State) (k : Nat) : State := if (s.fut k).held && (s.fut k).parent == s.meHolder then s.unhold k else s

theorem State.drop_eq (s : State) (k : Nat) : s.drop k = (s.released k).dropCount k := rfl

theorem State.released_of_held (h : s.HoldsRef k) : s.released k = s.unhold k :=
  if_pos (by rw [h.1, h.2, beq_self_eq_true]; rfl)

theorem State.released_of_notHeld (h : ¬s.HoldsRef k) : s.released k = s :=
  if_neg fun hc => h (by simpa [State.HoldsRef] using hc)

theorem sameButKids_drop (s : State) (k : Nat) : SameButKids s (s.drop k) := by
  rw [State.drop_eq]
  refine SameButKids.trans ?_ (sameButKids_dropCount _ k)
  unfold State.released
  split
  · exact sameButKids_unhold s k
  · exact sameButKids_of_scs rfl rfl rfl

theorem core_released (s : State) (k : Nat) :
    ((s.released k).fut k).core = (s.fut k).core ∨ ((s.released k).fut k).core = (s.fut k).core.unheld := by
  by_cases h : s.HoldsRef k
  · rw [State.released_of_held h, core_unhold, if_pos rfl]
    exact .inr rfl
  · rw [State.released_of_notHeld h]
    exact .inl rfl

/-- Giving up a reference changes neither COUNT, state nor generation of the future, nor whether it stands for a graph. -/
theorem State.released_leaves (s : State) (k : Nat) : ((s.released k).fut k).count = (s.fut k).count ∧ ((s.released k).fut k).st = (s.fut k).st
    ∧ ((s.released k).fut k).gen = (s.fut k).gen ∧ ((s.released k).fut k).graph = (s.fut k).graph := by
  rcases core_released s k with h | h <;>
    exact ⟨(congrArg Fut.count h :), (congrArg Fut.st h :), (congrArg Fut.gen h :), (congrArg Fut.graph h :)⟩

theorem State.slices_unlinkKid (s : State) (h : Nat) (p : Holder) : (s.unlinkKid h p).slices = s.slices := by
  cases p with
  | nobody => rfl
  | task p =>
    rw [State.unlinkKid]
    split <;> rfl
  | ctx n c => rfl

theorem State.slices_unhold (s : State) (k : Nat) : (s.unhold k).slices = s.slices := s.slices_unlinkKid _ _

theorem State.slices_released (s : State) (k : Nat) : (s.released k).slices = s.slices := by
  unfold State.released
  split
  · exact s.slices_unhold k
  · rfl

/-- An entry that is freed leaves the walker without its graph (R257). -/
theorem State.graphs_freeFut (h : (s.fut k).graph = true) : ∀ p ∈ (s.freeFut k).graphs, p.2.fut ≠ k := by
  intro p hp
  have hmem : p ∈ (s.unhold k).graphs.filter fun p => p.2.fut != k := by
    rw [State.freeFut, if_pos h] at hp
    exact hp
  exact bne_iff_ne.1 (List.mem_filter.1 hmem).2

theorem State.fut_modFut_self (s : State) (k : Nat) (f : Fut → Fut) : (s.modFut k f).fut k = f (s.fut k) :=
  (s.fut_modFut k k f).trans (if_pos rfl)

theorem State.kids_modFut (s : State) (k j : Nat) (f : Fut → Fut) (hf : ∀ x, (f x).kids = x.kids) : ((s.modFut k f).fut j).kids = (s.fut j).kids := by
  rw [State.fut_modFut]
  split
  · next h => rw [hf, h]
  · rfl

/-- A child that is given up is no longer on the list of the task that held it. -/
theorem State.not_mem_kids_unhold_task {p : Nat} (h : (s.fut k).parent = .task p) (hp : s.futLive p = true) :
    futHandle k (s.fut k).gen ∉ ((s.unhold k).fut (futKey p)).kids := by
  unfold State.unhold
  dsimp only
  rw [State.kids_modFut, h, State.unlinkKid, if_pos hp, State.fut_modFut_self]
  · intro hm
    exact bne_iff_ne.1 (List.mem_filter.1 hm).2 rfl
  · exact fun _ => rfl

/-- Nor on that of the context that held it. -/
theorem State.not_mem_kids_unhold_ctx {n c : Nat} (h : (s.fut k).parent = .ctx n c) :
    futHandle k (s.fut k).gen ∉ ((s.unhold k).ctx n c).kids := by
  have hctx : (s.unhold k).ctx n c = (s.modCtx n c fun x => { x with kids := x.kids.filter (· != futHandle k (s.fut k).gen) }).ctx n c := by
    unfold State.unhold
    dsimp only
    rw [h]
    rfl
  rw [hctx, State.ctx_modCtx_self]
  intro hm
  exact bne_iff_ne.1 (List.mem_filter.1 hm).2 rfl

theorem core_drop (s : State) (k : Nat) : ((s.drop k).fut k).core = ((s.released k).fut k).core.dropped := core_dropCount_self _ k

/-- A drop that does not bring COUNT to 0, of the spawn reference. -/
theorem State.drop_held (h : s.HoldsRef k) (hc : 1 < (s.fut k).count) :
    ((s.drop k).fut k).held = false ∧ ((s.drop k).fut k).parent = .nobody ∧ ((s.drop k).fut k).count = (s.fut k).count - 1
      ∧ ((s.drop k).fut k).st = (s.fut k).st ∧ ((s.drop k).fut k).gen = (s.fut k).gen
      ∧ (s.cur.ctx < 16 → s.futLive s.me.fut.toNat = true →
          futHandle k (s.fut k).gen ∉ ((s.drop k).fut (futKey s.me.fut.toNat)).kids)
      ∧ (16 ≤ s.cur.ctx → futHandle k (s.fut k).gen ∉ (s.drop k).me.kids) := by
  have hcore := core_drop s k
  have hcount : ((s.unhold k).fut k).count ≠ 1 := by
    have hleaves := (s.released_leaves k).1
    rw [State.released_of_held h] at hleaves
    omega
  have hne : (s.fut k).core.unheld.count ≠ 1 := by simpa [Fut.unheld] using (by omega : (s.fut k).count ≠ 1)
  rw [State.released_of_held h, core_unhold, if_pos rfl, Fut.dropped_of_shared hne] at hcore
  have hdrop : s.drop k = (s.unhold k).modFut k fun x => { x with count := x.count - 1 } := by
    rw [State.drop_eq, State.released_of_held h, State.dropCount_shared hcount]
  refine ⟨(congrArg Fut.held hcore :), (congrArg Fut.parent hcore :), (congrArg Fut.count hcore :), (congrArg Fut.st hcore :),
    (congrArg Fut.gen hcore :), fun hctx hlive => ?_, fun hctx => ?_⟩
  · rw [hdrop, State.kids_modFut]
    · exact State.not_mem_kids_unhold_task (h.2.trans (if_pos hctx)) hlive
    · exact fun _ => rfl
  · have hparent : (s.fut k).parent = .ctx s.cur.sc s.cur.ctx := h.2.trans (if_neg (by omega))
    rw [State.me, (sameButKids_drop s k).cur, hdrop]
    exact State.not_mem_kids_unhold_ctx hparent

theorem State.drop_unheld (h : ¬s.HoldsRef k) (hc : 1 < (s.fut k).count) :
    (s.drop k).futs = tput s.futs k { s.fut k with count := (s.fut k).count - 1 } := by
  rw [State.drop_eq, State.released_of_notHeld h, State.dropCount_shared (by omega)]
  rfl

/-- A future is FREE under its next generation, and its graph has left the walker. -/
def State.Freed (s t : State) (k : Nat) : Prop :=
  (t.fut k).st = .free ∧ (t.fut k).gen = ((s.fut k).gen + 1) % 16384 ∧ ((s.fut k).graph = true → ∀ p ∈ t.graphs, p.2.fut ≠ k)

/-- The last reference to a future that is terminal or READY. -/
theorem State.drop_frees (hc : (s.fut k).count = 1) (hst : (s.fut k).st = .done ∨ (s.fut k).st = .faulted ∨ (s.fut k).st = .ready) :
    s.Freed (s.drop k) k := by
  obtain ⟨hcount, hstate, hgen, hgraph⟩ := s.released_leaves k
  have hcore := core_drop s k
  rw [Fut.dropped_of_over (f := ((s.released k).fut k).core) (hcount.trans hc) (by simpa [hstate] using hst)] at hcore
  refine ⟨(congrArg Fut.st hcore :), (congrArg Fut.gen hcore :).trans (congrArg (fun g => (g + 1) % 16384) hgen), fun hg => ?_⟩
  have hg' : (((s.released k).modFut k fun x => { x with count := x.count - 1 }).fut k).graph = true := by
    rw [State.fut_modFut_self]
    exact hgraph.trans hg
  rw [State.drop_eq]
  rcases or_assoc.2 hst with hover | hready
  · rw [State.dropCount_over (hcount.trans hc) (by rw [hstate]; exact hover)]
    exact State.graphs_freeFut hg'
  · rw [State.dropCount_ready (hcount.trans hc) (hstate.trans hready)]
    exact State.graphs_freeFut hg'

theorem State.slices_drop_ready (hc : (s.fut k).count = 1) (hst : (s.fut k).st = .ready) :
    (s.drop k).slices = s.slices.filter fun z => z.fut != k := by
  obtain ⟨hcount, hstate, -, -⟩ := s.released_leaves k
  rw [State.drop_eq, State.dropCount_ready (hcount.trans hc) (hstate.trans hst), State.slices_released]

theorem State.drop_reclaims (hc : (s.fut k).count = 1) (hst : (s.fut k).st = .running) :
    ((s.drop k).fut k).st = .reclaimed ∧ ((s.drop k).fut k).count = 0 ∧ ((s.drop k).fut k).gen = (s.fut k).gen := by
  obtain ⟨hcount, hstate, hgen, -⟩ := s.released_leaves k
  have hcore := core_drop s k
  rw [Fut.dropped_of_running (f := ((s.released k).fut k).core) (hcount.trans hc) (hstate.trans hst)] at hcore
  exact ⟨(congrArg Fut.st hcore :), (congrArg Fut.count hcore :), (congrArg Fut.gen hcore :).trans hgen⟩

/-! ## The instructions -/

theorem onFuture_live {lost : State → State} {f : Nat → State → State} (hi : exec i s = onFuture r rs s lost f) (hf : s.Filled (r :: rs))
    (hlive : s.futLive (s.g r).toNat = true) (hlost : s.futLost (s.g r).toNat = false) :
    exec i s = .next (f (futKey (s.g r).toNat) s) :=
  (hi.trans (hf.ctl _)).trans (congrArg _ ((if_neg (by rw [hlost, Bool.and_false]; decide)).trans (if_pos hlive)))

theorem onFuture_stale {lost : State → State} {f : Nat → State → State} (hi : exec i s = onFuture r rs s lost f) (hf : s.Filled (r :: rs))
    (hlive : s.futLive (s.g r).toNat = false) (hlost : ¬((s.g r).toNat < 2 ^ 32 ∧ s.futLost (s.g r).toNat = true)) :
    Traps i s 0x20 (s.g r) s.me.pc :=
  traps_of ((hi.trans (hf.ctl _)).trans (congrArg _ ((if_neg (by simpa using hlost)).trans (if_neg (by rw [hlive]; decide)))))

theorem getOp_stale {after : Nat → State → State} (hi : exec i s = getOp d a after s) (hf : s.Filled [a, d])
    (hlive : s.futLive (s.g a).toNat = false) (hlost : ¬((s.g a).toNat < 2 ^ 32 ∧ s.futLost (s.g a).toNat = true)) :
    Traps i s 0x20 (s.g a) s.me.pc := onFuture_stale hi hf hlive hlost

/-- What a drop of future k by the executing context does, for an instruction that leaves it with the registers `rg` (R243, R247). -/
def Drops (s : State) (k : Nat) (j : Instr) (rg : Nat → Word) : Prop :=
  let f := s.fut k
  let moved (P : State → Prop) : Prop :=
    ∃ t, exec j s = .next t ∧ t.me.pc = s.me.pc + 4 ∧ t.me.st = s.me.st ∧ (∀ r, t.me.reg r = rg r) ∧ t.mem = s.mem ∧ P t
  (s.HoldsRef k → 1 < f.count → moved (fun t => (t.fut k).held = false ∧ (t.fut k).parent = .nobody
      ∧ (t.fut k).count = f.count - 1 ∧ (t.fut k).st = f.st ∧ (t.fut k).gen = f.gen
      ∧ (s.cur.ctx < 16 → s.futLive s.me.fut.toNat = true → futHandle k f.gen ∉ (t.fut (futKey s.me.fut.toNat)).kids)
      ∧ (16 ≤ s.cur.ctx → futHandle k f.gen ∉ t.me.kids)))
    ∧ (¬s.HoldsRef k → 1 < f.count → moved (fun t => t.futs = tput s.futs k { f with count := f.count - 1 }))
    ∧ (f.count = 1 → (f.st = .done ∨ f.st = .faulted) → moved (s.Freed · k))
    ∧ (f.count = 1 → f.st = .ready → moved (fun t => s.Freed t k ∧ t.slices = s.slices.filter (fun z => z.fut != k)))
    ∧ (f.count = 1 → f.st = .running → moved (fun t => (t.fut k).st = .reclaimed ∧ (t.fut k).count = 0 ∧ (t.fut k).gen = f.gen))

/-- An instruction that moves on with a change of its registers and drops a future. -/
theorem drops_of {f : Ctx → Ctx} {rg : Nat → Word} (hx : exec i s = .next ((s.modMe f).drop k)) (hpc : (f s.me).pc = s.me.pc + 4)
    (hst : (f s.me).st = s.me.st) (hfut : (f s.me).fut = s.me.fut) (hrg : ∀ r, (f s.me).reg r = rg r) : Drops s k i rg := by
  have hsame := sameButKids_drop (s.modMe f) k
  obtain ⟨l, hme⟩ := hsame.me
  rw [State.me_modMe] at hme
  have hmoved : ((s.modMe f).drop k).me.pc = s.me.pc + 4 ∧ ((s.modMe f).drop k).me.st = s.me.st
      ∧ (∀ r, ((s.modMe f).drop k).me.reg r = rg r) ∧ ((s.modMe f).drop k).mem = s.mem := by
    rw [hme]
    exact ⟨hpc, hst, hrg, hsame.mem⟩
  obtain ⟨hpc', hst', hrg', hmem⟩ := hmoved
  have hown : (s.modMe f).me.fut = s.me.fut := by rw [State.me_modMe, hfut]
  have hholder : (s.modMe f).meHolder = s.meHolder := by rw [State.meHolder, hown]; rfl
  have hholds : (s.modMe f).HoldsRef k ↔ s.HoldsRef k := by rw [State.HoldsRef, hholder]; rfl
  refine ⟨fun h hc => ?_, fun h hc => ?_, fun hc hs => ?_, fun hc hs => ?_, fun hc hs => ?_⟩ <;>
    refine ⟨_, hx, hpc', hst', hrg', hmem, ?_⟩
  · have hheld := State.drop_held (hholds.2 h) hc
    rw [hown] at hheld
    exact hheld
  · exact State.drop_unheld (fun hc => h (hholds.1 hc)) hc
  · exact State.drop_frees hc (or_assoc.1 (.inl hs))
  · exact ⟨State.drop_frees hc (.inr (.inr hs)), State.slices_drop_ready hc hs⟩
  · exact State.drop_reclaims hc hs

section
variable (hlive : s.futLive (s.g a).toNat = true) (hlost : s.futLost (s.g a).toNat = false)
include hlive hlost

theorem exec_fref_counts (hf : s.Filled [a]) (hc : (s.fut (futKey (s.g a).toNat)).count ≠ 65535) :
    exec (.fref a) s = .next (s.modFut (futKey (s.g a).toNat) fun f => { f with count := f.count + 1 }).fin :=
  (onFuture_live (exec_fref a s) hf hlive hlost).trans (congrArg _ (if_neg hc))

theorem traps_fref (hf : s.Filled [a]) (hc : (s.fut (futKey (s.g a).toNat)).count = 65535) : Traps (.fref a) s 0x24 (s.g a) s.me.pc :=
  traps_of ((onFuture_live (exec_fref a s) hf hlive hlost).trans (congrArg _ (if_pos hc)))

theorem drops_fdrop (hf : s.Filled [a]) : Drops s (futKey (s.g a).toNat) (.fdrop a) s.me.reg :=
  drops_of (onFuture_live (exec_fdrop a s) hf hlive hlost) rfl rfl rfl fun _ => rfl

section
variable {after : Nat → State → State} (hi : exec i s = getOp d a after s) (hf : s.Filled [a, d])
include hi hf

theorem exec_get_own (hown : s.cur.ctx < 16 ∧ s.g a = s.me.fut) : Traps i s 0x23 (BitVec.ofNat 64 s.cur.ctx) s.me.pc :=
  traps_of ((onFuture_live hi hf hlive hlost).trans (congrArg _ (if_pos (by simpa using hown))))

theorem exec_get_terminal (hown : ¬(s.cur.ctx < 16 ∧ s.g a = s.me.fut)) (hst : (s.fut (futKey (s.g a).toNat)).terminal = true) :
    exec i s = .next (after (futKey (s.g a).toNat) (s.ret d (s.fut (futKey (s.g a).toNat)).result)) :=
  (onFuture_live hi hf hlive hlost).trans (congrArg _ ((if_neg (by simpa using hown)).trans (if_pos hst)))

theorem exec_get_waits (hown : ¬(s.cur.ctx < 16 ∧ s.g a = s.me.fut)) (hst : (s.fut (futKey (s.g a).toNat)).terminal = false) :
    Blocks i s (.future (s.g a).toNat) :=
  blocks_of ((onFuture_live hi hf hlive hlost).trans (congrArg _ ((if_neg (by simpa using hown)).trans (if_neg (by rw [hst]; decide)))))

end

/-- FGETD of a terminal future writes its RESULT and drops it. -/
theorem drops_fgetd (hf : s.Filled [a, d]) (hown : ¬(s.cur.ctx < 16 ∧ s.g a = s.me.fut))
    (hst : (s.fut (futKey (s.g a).toNat)).terminal = true) :
    Drops s (futKey (s.g a).toNat) (.fgetd d a)
      (fun r => if r = d.toNat ∧ r ≠ 0 then (s.fut (futKey (s.g a).toNat)).result else s.me.reg r) := by
  have hx := exec_get_terminal hlive hlost (exec_fgetd d a s) hf hown hst
  rw [State.ret_eq] at hx
  obtain ⟨hy, hreg⟩ := s.me.wrote_setReg_next d.toNat (s.fut (futKey (s.g a).toNat)).result
  exact drops_of hx (congrArg Ctx.pc hy :) (congrArg Ctx.st hy :) (congrArg Ctx.fut hy :) hreg

theorem writes_fpoll (hf : s.Filled [a, d]) (hst : (s.fut (futKey (s.g a).toNat)).st ≠ .reclaimed) :
    Writes (.fpoll d a) s d (s.pollWord (futKey (s.g a).toNat)) := by
  have hx := onFuture_live (exec_fpoll d a s) hf hlive hlost
  rw [if_neg hst] at hx
  exact writes_of hx

end

theorem Fut.terminal_iff (f : Fut) : f.terminal = true ↔ f.st = .done ∨ f.st = .faulted := by
  simp [Fut.terminal]

/-- Settles O34: the instructions one by one, a drop by `Drops`, which FDROP and FGETD meet alike. -/
theorem futureReferences : Obligations.FutureReferences := by
  unfold Obligations.FutureReferences
  intro s d a hf
  have hfa : s.Filled [a] := hf.mono (by simp)
  refine ⟨fun hl hc => ?_, fun hl hc => traps_fref hl.1 hl.2 hfa hc, fun hl => drops_fdrop hl.1 hl.2 hfa, fun hl hown hst => ?_,
    fun hl hown hd hft => ?_, fun hl hown => ?_, fun hl hst => writes_fpoll hl.1 hl.2 hf hst, fun hlive hlost => ?_⟩
  · exact ⟨_, exec_fref_counts hl.1 hl.2 hfa hc, State.me_fin, rfl, rfl⟩
  · have hterm := (Fut.terminal_iff _).2 hst
    exact ⟨writes_of (exec_get_terminal hl.1 hl.2 (exec_fget d a s) hf hown hterm), drops_fgetd hl.1 hl.2 hf hown hterm⟩
  · have hterm := Bool.eq_false_iff.2 fun h => ((Fut.terminal_iff _).1 h).elim hd hft
    exact ⟨exec_get_waits hl.1 hl.2 (exec_fget d a s) hf hown hterm, exec_get_waits hl.1 hl.2 (exec_fgetd d a s) hf hown hterm⟩
  · exact ⟨exec_get_own hl.1 hl.2 (exec_fget d a s) hf hown, exec_get_own hl.1 hl.2 (exec_fgetd d a s) hf hown⟩
  · exact ⟨onFuture_stale (exec_fref a s) hfa hlive hlost, onFuture_stale (exec_fdrop a s) hfa hlive hlost,
      getOp_stale (exec_fget d a s) hf hlive hlost, getOp_stale (exec_fgetd d a s) hf hlive hlost,
      onFuture_stale (exec_fpoll d a s) hf hlive hlost⟩

end Sys2Proof.Machine
end


section
/-!
SUPPORT. The ends of tasks and of slices (R246, R261): a descheduled task, and the statements about FRET, FRETF, FYIELD and FSIG.
-/

namespace Sys2Proof.Machine

variable {s : State} {a : BitVec 5} {i : Instr} {n c k : Nat}

/-! ## A task descheduled (R166, R330) -/

/-- A context as it sleeps: what waits for it is over, but for a wait that has ended already (R256). -/
def Ctx.asleep (x : Ctx) : Ctx := { x with st := .ready, wait := x.wait.bind Wait.outlasts, pause := 0 }

theorem State.deschedule_eq (s : State) (n c : Nat) :
    s.deschedule n c = { (s.uncharge (futKey (s.ctx n c).fut.toNat)).vacate n c with
      sleepers := tput (s.uncharge (futKey (s.ctx n c).fut.toNat)).sleepers (futKey (s.ctx n c).fut.toNat)
        { sc := n, ctx := (s.ctx n c).asleep } } := rfl

theorem State.uncharge_leaves (s : State) (k : Nat) :
    (s.uncharge k).scs = s.scs ∧ (s.uncharge k).mem = s.mem ∧ (s.uncharge k).slices = s.slices ∧ (s.uncharge k).cur = s.cur := by
  unfold State.uncharge
  dsimp only
  split
  · split <;> exact ⟨rfl, rfl, rfl, rfl⟩
  · exact ⟨rfl, rfl, rfl, rfl⟩

/-- What a descheduled task leaves: its context FREE, its slices and memory as they were, and the task asleep where it stopped. -/
theorem State.deschedule_leaves (s : State) (n c : Nat) :
    ((s.deschedule n c).ctx n c).st = .free ∧ (s.deschedule n c).slices = s.slices ∧ (s.deschedule n c).mem = s.mem
      ∧ (s.deschedule n c).cur = s.cur
      ∧ tget (s.deschedule n c).sleepers (futKey (s.ctx n c).fut.toNat) = some { sc := n, ctx := (s.ctx n c).asleep } := by
  obtain ⟨-, hmem, hslices, hcur⟩ := s.uncharge_leaves (futKey (s.ctx n c).fut.toNat)
  rw [State.deschedule_eq]
  exact ⟨State.st_vacate _ n c, hslices, hmem, hcur, tget_tput_self _ _ _⟩

/-! ## The instructions -/

section
variable {status : Nat} (hi : exec i s = endOp a status s) (hf : s.Filled [a])
include hi hf

theorem exec_end_settled (h : s.settledFor s.cur.sc s.cur.ctx (s.ownIds s.cur.sc s.myOwner) = true) :
    exec i s = .next (s.endMe s.cur.sc s.cur.ctx status (s.g a)) := (hi.trans (hf.ctl _)).trans (congrArg _ (if_pos h))

theorem blocks_end (h : s.settledFor s.cur.sc s.cur.ctx (s.ownIds s.cur.sc s.myOwner) = false) :
    Blocks i s (.ending (s.ownIds s.cur.sc s.myOwner) status (s.g a)) :=
  blocks_of ((hi.trans (hf.ctl _)).trans (congrArg _ (if_neg (by rw [h]; decide))))

end

/-- The end of a task, by the STATUS it ends with. -/
theorem taskOver_endMe (s : State) (n : Nat) {c : Nat} (hc : c < 16) (status : Nat) (result : Word) :
    TaskOver s (s.endMe n c status result) n c (if status = 0 then .done else .faulted) status result := by
  rw [State.endMe, if_pos hc]
  refine taskOver_endTaskAt s n c _ status result ?_
  split <;> rfl

/-- The end of a message or system context's activity. -/
theorem activityOver_endMe (s : State) (n : Nat) {c : Nat} (hc : 16 ≤ c) (status : Nat) (result : Word) :
    ActivityOver s (s.endMe n c status result) n c := by
  rw [State.endMe, if_neg (by omega)]
  exact activityOver_endActivity s n c

theorem goesTo_fyield (hc : 16 ≤ s.cur.ctx) : GoesTo .fyield s (s.me.pc + 4) :=
  goesTo_fin (((exec_fyield s).trans ((State.Filled.nil s).ctl _)).trans (congrArg _ (if_neg (by omega))))

theorem exec_fyield_task (hc : s.cur.ctx < 16) :
    exec .fyield s = .next ((s.fin.deschedule s.cur.sc s.cur.ctx).makeReady (futKey s.me.fut.toNat)) :=
  ((exec_fyield s).trans ((State.Filled.nil s).ctl _)).trans (congrArg _ (if_pos hc))

theorem exec_fsig_eq (m : BitVec 14) : exec (.fsig m) s = .next (match
    (if s.cur.ctx < 16 then s.toSignal (futKey s.me.fut.toNat) m.toNat else none) with
    | none => s.fin
    | some (g, i, es) =>
      if s.settledFor s.cur.sc s.cur.ctx (s.ownIds s.cur.sc s.myOwner) then s.fin.signal g i es
      else s.block (.early (s.ownIds s.cur.sc s.myOwner) m.toNat)) :=
  (exec_fsig m s).trans ((State.Filled.nil s).ctl _)

theorem goesTo_fsig {m : BitVec 14} (h : 16 ≤ s.cur.ctx ∨ s.toSignal (futKey s.me.fut.toNat) m.toNat = none) :
    GoesTo (.fsig m) s (s.me.pc + 4) := by
  have hnone : (if s.cur.ctx < 16 then s.toSignal (futKey s.me.fut.toNat) m.toNat else none) = none := by
    rcases h with h | h
    · exact if_neg (by omega)
    · rw [h, ite_self]
  refine goesTo_fin ((exec_fsig_eq m).trans ?_)
  rw [hnone]

theorem exec_fsig_signals {m : BitVec 14} {g j : Nat} {es : List Nat} (hc : s.cur.ctx < 16)
    (h : s.toSignal (futKey s.me.fut.toNat) m.toNat = some (g, j, es)) :
    exec (.fsig m) s = .next (if s.settledFor s.cur.sc s.cur.ctx (s.ownIds s.cur.sc s.myOwner) then s.fin.signal g j es
      else s.block (.early (s.ownIds s.cur.sc s.myOwner) m.toNat)) := by
  rw [exec_fsig_eq, if_pos hc, h]

/-- FYIELD of a task: its context is FREE, and it is ready to go on after the instruction. -/
theorem fyield_deschedules (hc : s.cur.ctx < 16) : ∃ t, exec .fyield s = .next t ∧ t.me.st = .free ∧ t.slices.length = s.slices.length + 1
    ∧ t.mem = s.mem ∧ (tgetD t.sleepers (futKey s.me.fut.toNat) {}).ctx.pc = s.me.pc + 4 := by
  obtain ⟨hst, hslices, hmem, hcur, hsleeps⟩ := s.fin.deschedule_leaves s.cur.sc s.cur.ctx
  have hme : s.fin.ctx s.cur.sc s.cur.ctx = s.me.next := State.me_fin
  rw [hme] at hsleeps
  have hpc : (tgetD (s.fin.deschedule s.cur.sc s.cur.ctx).sleepers (futKey s.me.fut.toNat) {}).ctx.pc = s.me.pc + 4 := by
    rw [tgetD]
    exact congrArg (fun z : Option Sleeper => (z.getD {}).ctx.pc) hsleeps
  have hfree : (s.fin.deschedule s.cur.sc s.cur.ctx).me.st = .free := by
    rw [State.me, hcur]
    exact hst
  exact ⟨_, exec_fyield_task hc, hfree, List.length_append.trans (by rw [hslices]; rfl), hmem, hpc⟩

/-- Settles O35: the branches of the four instructions, over what the end of a task (`taskOver_endTaskAt`) and of another activity
(`activityOver_endActivity`) leave. -/
theorem endingAndYielding : Obligations.EndingAndYielding := by
  unfold Obligations.EndingAndYielding
  intro s a n
  refine ⟨fun hf hd => ⟨fun hc => ?_, fun hc => ?_⟩, fun hf hd => ?_, fun hc => ⟨goesTo_fyield hc, goesTo_fsig (.inl hc)⟩,
    fyield_deschedules, fun _ h => goesTo_fsig (.inr h), fun g i es hc h => ⟨fun hd => ?_, fun hd => ?_⟩⟩
  · exact ⟨⟨_, exec_end_settled (exec_fret a s) hf hd, taskOver_endMe s _ hc 0 _⟩,
      ⟨_, exec_end_settled (exec_fretf a s) hf hd, taskOver_endMe s _ hc 0x40 _⟩⟩
  · simp only [List.forall_mem_cons, List.not_mem_nil, false_implies, implies_true, and_true]
    exact ⟨⟨_, exec_end_settled (exec_fret a s) hf hd, activityOver_endMe s _ hc 0 _⟩,
      ⟨_, exec_end_settled (exec_fretf a s) hf hd, activityOver_endMe s _ hc 0x40 _⟩⟩
  · exact ⟨blocks_end (exec_fret a s) hf hd, blocks_end (exec_fretf a s) hf hd⟩
  · exact (exec_fsig_signals hc h).trans (congrArg _ (if_pos hd))
  · exact blocks_of ((exec_fsig_signals hc h).trans (congrArg _ (if_neg (by rw [hd]; decide))))

end Sys2Proof.Machine
end

section
/-!
SUPPORT. Barriers (R250-R254): a free one, what an arrival makes of its phase, what the end of one leaves, and the statement about their
instructions.
-/

namespace Sys2Proof.Machine

variable {s : State} {d a b r : BitVec 5} {rs : List (BitVec 5)} {i : Instr} {n h : Nat}

/-! ## Reads after updates -/

theorem State.ctx_setBarrier (s : State) (n h : Nat) (b : Barrier) (m c : Nat) : (s.setBarrier n h b).ctx m c = s.ctx m c := by
  unfold State.setBarrier
  split
  · exact s.ctx_modSc_of n (fun t => { t with bars := tput t.bars (barIndex h) b }) (fun _ => rfl) m c
  · rfl

theorem State.cur_setBarrier (s : State) (n h : Nat) (b : Barrier) : (s.setBarrier n h b).cur = s.cur := by
  unfold State.setBarrier
  split <;> rfl

theorem State.mem_setBarrier (s : State) (n h : Nat) (b : Barrier) : (s.setBarrier n h b).mem = s.mem := by
  unfold State.setBarrier
  split <;> rfl

theorem State.me_setBarrier (s : State) (n h : Nat) (b : Barrier) : (s.setBarrier n h b).me = s.me := by
  rw [State.me, State.cur_setBarrier, State.ctx_setBarrier]
  rfl

/-! ## A phase (R252) -/

theorem Barrier.arrive_of_last {x : Barrier} (h : x.exp ≤ x.arr + 1) : (x.arrive false).phase ≠ x.phase ∧ (x.arrive false).arr = 0 := by
  unfold Barrier.arrive
  dsimp only
  rw [if_pos h]
  exact ⟨by dsimp only; omega, rfl⟩

theorem Barrier.arrive_of_more {x : Barrier} (h : x.arr + 1 < x.exp) :
    (x.arrive false).phase = x.phase ∧ (x.arrive false).arr = x.arr + 1 := by
  unfold Barrier.arrive
  dsimp only
  rw [if_neg (by omega)]
  exact ⟨rfl, rfl⟩

/-! ## Memberships deleted (R253) -/

theorem tget_map_of_key {α : Type} (l : Tab α) (f : Nat → α → α) (k : Nat) :
    tget (l.map fun p => (p.1, f p.1 p.2)) k = (tget l k).map (f k) := by
  induction l with
  | nil => rfl
  | cons p l ih =>
    obtain ⟨j, v⟩ := p
    simp only [List.map_cons, tget]
    split
    · next hk => rw [hk]; rfl
    · exact ih

/-- A cluster whose contexts have left a barrier. -/
def Sc.withoutMember (h : Nat) (x : Sc) : Sc := { x with ctxs := x.ctxs.map fun c => (c.1, c.2.leave h) }

/-- Cluster m once the memberships of a barrier, as SC n sees it, are deleted. -/
def leftBy (n h m : Nat) (x : Sc) : Sc := if barScope h != 0 || m == n then x.withoutMember h else x

theorem State.scs_leaveAll (s : State) (n h : Nat) : (s.leaveAll n h).scs = s.scs.map fun p => (p.1, leftBy n h p.1 p.2) := by
  refine List.map_congr_left fun p _ => ?_
  rw [leftBy]
  split <;> rfl

theorem State.sc_leaveAll (s : State) (n h m : Nat) : (s.leaveAll n h).sc m = leftBy n h m (s.sc m) := by
  rw [State.sc, State.sc, tgetD, tgetD, State.scs_leaveAll, tget_map_of_key]
  cases tget s.scs m with
  | some x => rfl
  | none =>
    unfold leftBy
    split <;> rfl

theorem State.pc_leaveAll (s : State) (n h m c : Nat) : ((s.leaveAll n h).ctx m c).pc = (s.ctx m c).pc := by
  rw [State.ctx, State.ctx, State.sc_leaveAll, leftBy]
  split
  · rw [Sc.withoutMember, tgetD, tgetD, tget_map_of_key (s.sc m).ctxs fun _ x => x.leave h]
    cases tget (s.sc m).ctxs c <;> rfl
  · rfl

theorem State.barrier_leaveAll (s : State) (n h m k : Nat) : (s.leaveAll n h).barrier m k = s.barrier m k := by
  have hbars : ((s.leaveAll n h).sc m).bars = (s.sc m).bars := by
    rw [State.sc_leaveAll, leftBy]
    split <;> rfl
  rw [State.barrier, State.barrier, hbars]
  rfl

theorem State.barrier_fin (s : State) (m k : Nat) : s.fin.barrier m k = s.barrier m k :=
  (sameBars_modCtx s s.cur.sc s.cur.ctx Ctx.next).barrier m k

/-! ## The instructions -/

theorem onBarrier_live {f : Nat → Barrier → State → State} (hi : exec i s = onBarrier r rs s f) (hf : s.Filled (r :: rs))
    (hok : s.barOk s.cur.sc (s.g r).toNat = true) : exec i s = .next (f (s.g r).toNat (s.barrier s.cur.sc (s.g r).toNat) s) :=
  (hi.trans (hf.ctl _)).trans (congrArg _ (if_pos hok))

theorem onBarrier_stale {f : Nat → Barrier → State → State} (hi : exec i s = onBarrier r rs s f) (hf : s.Filled (r :: rs))
    (hok : s.barOk s.cur.sc (s.g r).toNat = false) : Traps i s 0x21 (s.g r) s.me.pc :=
  traps_of ((hi.trans (hf.ctl _)).trans (congrArg _ (if_neg (by rw [hok]; decide))))

theorem arrive_stale {e : Bool} (hi : exec i s = arriveOp a e s) (hf : s.Filled [a]) (hok : s.barOk s.cur.sc (s.g a).toNat = false) :
    Traps i s 0x21 (s.g a) s.me.pc := onBarrier_stale hi hf hok

section
variable (hf : s.Filled [d, a, b])
include hf

theorem exec_balloc_of (hbad : ¬(1 < (s.g a).toNat ∨ (s.g b).toNat = 0 ∨ 65535 < (s.g b).toNat)) :
    exec (.balloc d a b) s = .next (match s.pickBar s.cur.sc (s.g a).toNat with
      | none => s.trap causeTableFull (BitVec.ofNat 64 ((s.g a).toNat + 1))
      | some k => ((s.setBarrier s.cur.sc k { used := true, gen := k % 2 ^ 20, exp := (s.g b).toNat }).ret d (BitVec.ofNat 64 k)).useFree 1) :=
  ((exec_balloc d a b s).trans (hf.ctl _)).trans (congrArg _ (if_neg hbad))

theorem balloc_takes {k : Nat} (hbad : ¬(1 < (s.g a).toNat ∨ (s.g b).toNat = 0 ∨ 65535 < (s.g b).toNat))
    (hk : s.pickBar s.cur.sc (s.g a).toNat = some k) :
    ∃ t, exec (.balloc d a b) s = .next t ∧ s.me.Wrote t.me d.toNat (BitVec.ofNat 64 k) ∧ t.mem = s.mem
      ∧ t = ((s.setBarrier s.cur.sc k { used := true, gen := k % 2 ^ 20, exp := (s.g b).toNat }).ret d (BitVec.ofNat 64 k)).useFree 1 := by
  have hx := exec_balloc_of hf hbad
  rw [hk] at hx
  refine ⟨_, hx, ?_, State.mem_setBarrier _ _ _ _, rfl⟩
  have hme : ∀ u : State, (u.useFree 1).me = u.me := fun _ => rfl
  rw [hme, State.ret_eq, State.me_modMe, State.me_setBarrier]
  exact Ctx.wrote_setReg_next _ _ _

theorem traps_balloc_full (hbad : ¬(1 < (s.g a).toNat ∨ (s.g b).toNat = 0 ∨ 65535 < (s.g b).toNat))
    (hk : s.pickBar s.cur.sc (s.g a).toNat = none) : Traps (.balloc d a b) s 0x25 (BitVec.ofNat 64 ((s.g a).toNat + 1)) s.me.pc := by
  have hx := exec_balloc_of hf hbad
  rw [hk] at hx
  exact traps_of hx

theorem traps_balloc_bad (hbad : 1 < (s.g a).toNat ∨ (s.g b).toNat = 0 ∨ 65535 < (s.g b).toNat) :
    ∃ w, encode (.balloc d a b) = some w ∧ Traps (.balloc d a b) s 0x15 (w.zeroExtend 64) s.me.pc := by
  have hw : HasWord (.balloc d a b) (wRR 0x7B d a b 0) := hasWord_ofNat rfl
  exact hw.traps (((exec_balloc d a b s).trans (hf.ctl _)).trans (congrArg _ (if_pos hbad)))

end

section
variable (hf : s.Filled [a]) (hok : s.barOk s.cur.sc (s.g a).toNat = true)
include hf hok

theorem exec_arrive_live {e : Bool} (hi : exec i s = arriveOp a e s) :
    let h := (s.g a).toNat
    let x := s.barrier s.cur.sc h
    exec i s = .next (if x.exp = 0 then s.trap causeBarrierStale (s.g a)
      else if (s.me.member h).isNone ∧ 4 ≤ s.me.members.length then s.trap causeTableFull 4
      else s.afterAccesses fun s => ((s.setBarrier s.cur.sc h (x.arrive e)).modMe fun c => c.arrived h x.phase e).fin) :=
  onBarrier_live hi hf hok

theorem exec_arrive_of {e : Bool} (hi : exec i s = arriveOp a e s) (hx : (s.barrier s.cur.sc (s.g a).toNat).exp ≠ 0)
    (hm : (s.me.member (s.g a).toNat).isSome = true ∨ s.me.members.length < 4) (hs : s.Settled) :
    exec i s = .next ((s.setBarrier s.cur.sc (s.g a).toNat ((s.barrier s.cur.sc (s.g a).toNat).arrive e)).modMe fun c =>
      c.arrived (s.g a).toNat (s.barrier s.cur.sc (s.g a).toNat).phase e).fin := by
  have hroom : ¬((s.me.member (s.g a).toNat).isNone = true ∧ 4 ≤ s.me.members.length) := fun ⟨hnone, hfull⟩ => by
    rcases hm with hm | hm
    · rw [Option.isSome_iff_ne_none] at hm
      exact hm (Option.isNone_iff_eq_none.1 hnone)
    · omega
  exact (exec_arrive_live hf hok hi).trans
    (congrArg _ ((if_neg hx).trans ((if_neg hroom).trans (State.afterAccesses_of_settled hs _))))

theorem traps_arrive_empty {e : Bool} (hi : exec i s = arriveOp a e s) (hx : (s.barrier s.cur.sc (s.g a).toNat).exp = 0) :
    Traps i s 0x21 (s.g a) s.me.pc := traps_of ((exec_arrive_live hf hok hi).trans (congrArg _ (if_pos hx)))

theorem traps_arrive_fifth {e : Bool} (hi : exec i s = arriveOp a e s) (hx : (s.barrier s.cur.sc (s.g a).toNat).exp ≠ 0)
    (hm : s.me.member (s.g a).toNat = none) (hfull : 4 ≤ s.me.members.length) : Traps i s 0x25 4 s.me.pc :=
  traps_of ((exec_arrive_live hf hok hi).trans (congrArg _ ((if_neg hx).trans (if_pos ⟨by rw [hm]; rfl, hfull⟩))))

theorem blocks_bwait (hx : (s.barrier s.cur.sc (s.g a).toNat).exp ≠ 0)
    (hp : (s.barrier s.cur.sc (s.g a).toNat).phase = s.me.waitsFor (s.g a).toNat (s.barrier s.cur.sc (s.g a).toNat)) :
    Blocks (.bwait a) s (.phase (s.g a).toNat (s.barrier s.cur.sc (s.g a).toNat).phase) := by
  have hwait := onBarrier_live (exec_bwait a s) hf hok
  rw [← hp] at hwait
  exact blocks_of (hwait.trans (congrArg _ (if_neg (by simpa using hx))))

theorem bwait_goesOn (hp : (s.barrier s.cur.sc (s.g a).toNat).exp = 0
      ∨ (s.barrier s.cur.sc (s.g a).toNat).phase ≠ s.me.waitsFor (s.g a).toNat (s.barrier s.cur.sc (s.g a).toNat)) :
    ∃ t, exec (.bwait a) s = .next t ∧ OnlyMe s t ∧ t.me.pc = s.me.pc + 4 ∧ ∀ r, t.me.reg r = s.me.reg r := by
  have hx : exec (.bwait a) s = .next (s.modMe fun x => (x.afterWait (s.g a).toNat).next) := by
    refine (onBarrier_live (exec_bwait a s) hf hok).trans (congrArg _ ((if_pos hp).trans ?_))
    exact State.modMe_modMe _ _ _
  exact ⟨_, hx, onlyMe_modMe s _, by rw [State.me_modMe]; exact ⟨rfl, fun _ => rfl⟩⟩

theorem bfree_frees : ∃ t, exec (.bfree a) s = .next t ∧ t.me.pc = s.me.pc + 4
    ∧ (t.barrier s.cur.sc (s.g a).toNat).used = false
    ∧ (t.barrier s.cur.sc (s.g a).toNat).gen = ((s.barrier s.cur.sc (s.g a).toNat).gen + 1) % 2 ^ 20 ∧ t.mem = s.mem := by
  have hbar := State.barrier_setBarrier_of_same s s.cur.sc ({ gen := ((s.barrier s.cur.sc (s.g a).toNat).gen + 1) % 2 ^ 20 } : Barrier)
    (h := (s.g a).toNat) ⟨rfl, rfl⟩
  have hpc : ∀ b : Barrier, ((s.setBarrier s.cur.sc (s.g a).toNat b).leaveAll s.cur.sc (s.g a).toNat).me.pc = s.me.pc := fun b => by
    have hcur : ((s.setBarrier s.cur.sc (s.g a).toNat b).leaveAll s.cur.sc (s.g a).toNat).cur = s.cur := State.cur_setBarrier _ _ _ _
    rw [State.me, hcur, State.pc_leaveAll, State.ctx_setBarrier]
    rfl
  refine ⟨_, onBarrier_live (exec_bfree a s) hf hok, ?_, ?_, ?_, State.mem_setBarrier _ _ _ _⟩
  · rw [State.me_fin, Ctx.pc_next, hpc]
  · rw [State.barrier_fin, State.barrier_leaveAll, hbar]
  · rw [State.barrier_fin, State.barrier_leaveAll, hbar]

end

theorem writes_bpoll (hf : s.Filled [a, d]) (hok : s.barOk s.cur.sc (s.g a).toNat = true) :
    let x := s.barrier s.cur.sc (s.g a).toNat
    Writes (.bpoll d a) s d (BitVec.ofNat 64 (x.phase * 2 ^ 32 + x.arr % 65536 * 65536 + x.exp % 65536)) :=
  writes_of (onBarrier_live (exec_bpoll d a s) hf hok)

/-- Settles O36: the instructions one by one, by the outcome of their checks. -/
theorem barriers : Obligations.Barriers := by
  unfold Obligations.Barriers
  intro s d a b hf
  have hfa : s.Filled [a] := hf.mono (by simp)
  have hfad : s.Filled [a, d] := hf.mono (by simp)
  refine ⟨fun k ha hb hb' hk => balloc_takes hf (by omega) hk, fun ha hb hb' hk => traps_balloc_full hf (by omega) hk,
    fun hbad => traps_balloc_bad hf ?_, fun hok => ?_, fun hok => ?_⟩
  · exact hbad.imp_right fun h => h.imp_left fun h => by rw [h]; rfl
  · simp only [List.forall_mem_cons, List.not_mem_nil, false_implies, implies_true, and_true]
    refine ⟨fun hx hm hs => ⟨exec_arrive_of hfa hok (exec_barr a s) hx hm hs, exec_arrive_of hfa hok (exec_barrd a s) hx hm hs⟩,
      fun hx => ⟨traps_arrive_empty hfa hok (exec_barr a s) hx, traps_arrive_empty hfa hok (exec_barrd a s) hx⟩,
      fun hx hm hl => ⟨traps_arrive_fifth hfa hok (exec_barr a s) hx hm hl, traps_arrive_fifth hfa hok (exec_barrd a s) hx hm hl⟩,
      fun _ h => Barrier.arrive_of_more h, fun _ h => Barrier.arrive_of_last h, blocks_bwait hfa hok, bwait_goesOn hfa hok,
      writes_bpoll hfad hok, bfree_frees hfa hok⟩
  · simp only [List.forall_mem_cons, List.not_mem_nil, false_implies, implies_true, and_true]
    exact ⟨arrive_stale (exec_barr a s) hfa hok, arrive_stale (exec_barrd a s) hfa hok, onBarrier_stale (exec_bwait a s) hfa hok,
      onBarrier_stale (exec_bfree a s) hfa hok, onBarrier_stale (exec_bpoll d a s) hfad hok⟩

end Sys2Proof.Machine
end

section
/-!
SUPPORT. Dispatch and budgets (R330-R333): the context a slice starts, and a task whose budget is spent.
-/

namespace Sys2Proof.Machine

variable {s : State} {n c k : Nat}

/-! ## Registers at a start -/

/-- g1 of a new task is its argument, whatever registers follow it. -/
theorem reg_one_startCtx (f : Fut) (h : Nat) : (startCtx f h).reg 1 = f.arg := by
  have hnd : ((((f.arg :: f.args).zipIdx).map fun p => (p.2 + 1, p.1)).map Prod.fst).Nodup := by
    rw [List.map_map, show (Prod.fst ∘ fun p : Word × Nat => (p.2 + 1, p.1)) = (fun i => i + 1) ∘ Prod.snd from rfl, ← List.map_map,
      List.zipIdx_map_snd]
    exact (List.nodup_range').map fun _ _ h => Nat.succ.inj h
  rw [Ctx.reg_eq (startCtx f h) rfl hnd]
  rfl

/-! ## Dispatch (R331, R332) -/

theorem exec_taskDispatch_of {y : Cand} (hy : s.pick s.cands = some y) (hk : y.fut = some k) (hn : s.placeOf y = some n)
    (hc : s.freeTask n = some c) : exec .taskDispatch s = .next (s.runSlice k n c y.deadline y.budget) := by
  have hf : s.candFut y = some k := by rw [State.candFut, hk]
  have hcreate : s.createTask k y = s := by simp only [State.createTask, hk]
  simp only [exec_taskDispatch, execTaskDispatch, hy, hn, hf, hc, hcreate]

/-- The context of a task as its next slice finds it. -/
def State.sliceCtx (s : State) (k : Nat) : Ctx :=
  match tget s.sleepers k with
  | some z => { z.ctx with st := .ready }
  | none => startCtx (s.fut k) (s.handleOf k)

theorem State.sliceCtx_st (s : State) (k : Nat) : (s.sliceCtx k).st = .ready := by
  unfold State.sliceCtx
  split <;> rfl

theorem State.sliceCtx_new (h : tget s.sleepers k = none) : s.sliceCtx k = startCtx (s.fut k) (s.handleOf k) := by
  rw [State.sliceCtx, h]

theorem State.sliceCtx_asleep {z : Sleeper} (h : tget s.sleepers k = some z) : s.sliceCtx k = { z.ctx with st := .ready } := by
  rw [State.sliceCtx, h]

theorem State.ctx_runSlice (s : State) (k n c deadline budget m d : Nat) : (s.runSlice k n c deadline budget).ctx m d =
    if m = n ∧ d = c then { s.sliceCtx k with dln := BitVec.ofNat 64 deadline, bud := budWord budget } else s.ctx m d :=
  s.ctx_setCtx n c m d _

theorem State.fut_runSlice (s : State) (k n c deadline budget : Nat) :
    (s.runSlice k n c deadline budget).fut k = { s.fut k with st := .running, sc := some n, charged := true } :=
  (State.fut_modFut (s.chargeCtx (s.fut k).rcb) k k fun f => { f with st := .running, sc := some n, charged := true }).trans (if_pos rfl)

theorem State.slices_runSlice (s : State) (k n c deadline budget : Nat) :
    ∀ z ∈ (s.runSlice k n c deadline budget).slices, z.fut ≠ k := fun _ hz => by
  simpa using (List.mem_filter.1 hz).2

/-! ## Budgets (R333) -/

/-- A task whose budget is spent sleeps where it stopped, but for a trap that it may owe itself. -/
theorem State.spend_leaves (s : State) (n c : Nat) :
    ((s.spend n c).ctx n c).st = .free ∧ (s.spend n c).slices.length = s.slices.length + 1 ∧ (s.spend n c).mem = s.mem
      ∧ ∃ l, tget (s.spend n c).sleepers (futKey (s.ctx n c).fut.toNat)
          = some { sc := n, ctx := { (s.ctx n c).asleep with apend := l } } := by
  obtain ⟨hst, hslices, hmem, -, hsleeps⟩ := s.deschedule_leaves n c
  have hlength : ((s.deschedule n c).makeReady (futKey (s.ctx n c).fut.toNat)).slices.length = s.slices.length + 1 :=
    List.length_append.trans (by rw [hslices]; rfl)
  unfold State.spend
  dsimp only
  split
  · refine ⟨hst, hlength, hmem, (s.ctx n c).asleep.apend ++ [(causeBudget, 0)], ?_⟩
    rw [tget_tmod, if_pos rfl]
    exact congrArg (Option.map fun z : Sleeper => { z with ctx := { z.ctx with apend := z.ctx.apend ++ [(causeBudget, 0)] } }) hsleeps
  · exact ⟨hst, hlength, hmem, (s.ctx n c).asleep.apend, hsleeps⟩

theorem exec_budgetExpiry_of (hc : c < 16) (hst : (s.ctx n c).st = .ready ∨ (s.ctx n c).st = .blocked) (hb : (s.ctx n c).bud = 0)
    (hm : (s.ctx n c).midway = false) (hr : s.ctxReclaimed n c = false) : exec (.budgetExpiry n c) s = .next (s.spend n c) :=
  (exec_budgetExpiry n c s).trans (congrArg _ (if_pos ⟨hc, hst, hb, hm, hr⟩))

/-! ## The ends of waits (R246, R261) -/

theorem exec_taskEnd_of {ids : List Nat} {status : Nat} {result : Word} (hst : (s.ctx n c).st = .blocked)
    (hw : (s.ctx n c).wait = some (.ending ids status result)) (hd : s.settledFor n c ids = true) (hr : s.ctxReclaimed n c = false) :
    exec (.taskEnd n c) s = .next (s.endMe n c status result) := by
  rw [exec_taskEnd, execTaskEnd, hst, hw]
  exact congrArg _ (if_pos (by rw [hd, hr]; rfl))

theorem exec_fsigDelivery_of {ids : List Nat} {m : Nat} (hst : (s.ctx n c).st = .blocked)
    (hw : (s.ctx n c).wait = some (.early ids m)) (hd : s.settledFor n c ids = true) :
    let t := s.setCtx n c { s.ctx n c with st := .ready, pc := (s.ctx n c).pc + 4, wait := none }
    exec (.fsigDelivery n c) s = .next (match s.toSignal (futKey (s.ctx n c).fut.toNat) m with
      | some (g, i, es) => t.signal g i es
      | none => t) := by
  rw [exec_fsigDelivery, execFsigDelivery, hst, hw]
  exact congrArg _ (if_pos hd)

end Sys2Proof.Machine
end

section
/-!
SUPPORT. Reclamation (R247): what the steps of a task's reclamation leave, and the node tasks of a graph dropped once.
-/

namespace Sys2Proof.Machine

variable {s t u : State} {n c j k : Nat}

/-! ## The slices and the tasks asleep under the steps of an end -/

/-- The tasks that have no context: those ready, and those descheduled. -/
def State.offStage (s : State) : List Slice × Tab Sleeper := (s.slices, s.sleepers)

theorem offStage_spoiled (s : State) (st m : Nat) : (s.spoiled st m).offStage = s.offStage := by
  unfold State.spoiled
  split <;> rfl

theorem offStage_meetHost (s : State) (a m : Nat) (inv : Bool) : (s.meetHost a m inv).offStage = s.offStage := by
  unfold State.meetHost
  split <;> rfl

theorem offStage_compWrite (s : State) (a : Nat) (v : List (Option Byte)) (acc : Bool) : (s.compWrite a v acc).offStage = s.offStage := by
  have hread : (s.compRead (a - a % 256) acc).offStage = s.offStage := by
    unfold State.compRead
    dsimp only
    split <;> rfl
  unfold State.compWrite
  dsimp only
  split
  · exact (offStage_spoiled _ _ _).trans hread
  · exact hread

theorem offStage_plainWrite (s : State) (a : Nat) (v : List (Option Byte)) (acc : Bool) : (s.plainWrite a v acc).offStage = s.offStage := by
  have hread : ∀ b : Bool, ∀ st ctr m : Nat, (if b = true then s.count st ctr m else s).offStage = s.offStage := fun b st ctr m => by
    split <;> rfl
  unfold State.plainWrite
  dsimp only
  split
  · exact (offStage_spoiled _ _ _).trans (hread _ _ _ _)
  · exact (offStage_spoiled _ _ _).trans (hread _ _ _ _)

theorem offStage_dieWriteIn (s : State) (a : Nat) (v : List (Option Byte)) (acc : Bool) : (s.dieWriteIn a v acc).offStage = s.offStage := by
  have hmeet := offStage_meetHost s a v.length true
  unfold State.dieWriteIn
  dsimp only
  split
  · rfl
  · split
    · exact (offStage_spoiled _ _ _).trans hmeet
    · split
      · exact (offStage_compWrite _ _ _ _).trans hmeet
      · exact (offStage_plainWrite _ _ _ _).trans hmeet

theorem offStage_copyBytes (s : State) (a : Nat) (v : List (Option Byte)) : (s.copyBytes a v).offStage = s.offStage := by
  induction v generalizing s a with
  | nil => rfl
  | cons x v ih =>
    cases x with
    | none => exact ih s _
    | some b => exact ih (s.copyByte a b) _

theorem offStage_dieWrite (fuel : Nat) (s : State) (a : Nat) (v : List (Option Byte)) (acc : Bool) :
    (State.dieWrite fuel s a v acc).offStage = s.offStage := by
  induction fuel generalizing s a v with
  | zero => rfl
  | succ fuel ih =>
    cases v with
    | nil => rfl
    | cons x v => exact ((ih _ _ _).trans (offStage_copyBytes _ _ _)).trans (offStage_dieWriteIn _ _ _ _)

theorem offStage_launchEnd (s : State) (f : Fut) (how : Ended) : (s.launchEnd f how).offStage = s.offStage := by
  unfold State.launchEnd
  split
  · rfl
  · unfold State.tryLaunch
    split
    · rfl
    · dsimp only
      split
      · rfl
      · unfold State.writeBlock
        dsimp only
        split
        · rfl
        · exact (offStage_dieWrite _ _ _ _ _).trans (offStage_dieWrite _ _ _ _ _)

/-! ## A task (R247) -/

/-- A step that leaves the graphs, and where the memory of the package is. -/
def SamePlan (s t : State) : Prop := t.graphs = s.graphs ∧ t.topo = s.topo

theorem SamePlan.trans (h : SamePlan s t) (h' : SamePlan t u) : SamePlan s u := ⟨h'.1.trans h.1, h'.2.trans h.2⟩

theorem samePlan_foldl {α : Type} {f : State → α → State} (hf : ∀ s x, SamePlan s (f s x)) (l : List α) (s : State) :
    SamePlan s (l.foldl f s) := by
  induction l generalizing s with
  | nil => exact ⟨rfl, rfl⟩
  | cons x l ih => exact (hf s x).trans (ih _)

theorem samePlan_releaseStreams (s : State) (n : Nat) (o : Owner) : SamePlan s (s.releaseStreams n o) := by
  refine samePlan_foldl (fun s d => ?_) _ s
  unfold State.releaseStream
  split <;> exact ⟨rfl, rfl⟩

theorem samePlan_endMembers (s : State) (n : Nat) (ms : List Member) : SamePlan s (s.endMembers n ms) := by
  refine samePlan_foldl (fun s m => ?_) ms s
  rcases s.endMember_cases n m with h | ⟨-, h⟩
  · rw [h]
    exact ⟨rfl, rfl⟩
  · rw [h]
    unfold State.setBarrier
    split <;> exact ⟨rfl, rfl⟩

/-- Memberships end in a state whose barriers are those of `v`. -/
theorem EndsMembers.of_sameBars {v : State} {ms : List Member} (hbars : SameBars v s) (htopo : s.topo = v.topo)
    (h : EndsMembers s t n ms) : EndsMembers v t n ms := fun hnd m hm hd hok he => by
  have hb := hbars.barrier n m.h
  rw [← hb] at he ⊢
  exact h hnd m hm hd ((barOk_of_barrier htopo (by rw [hb]) (by rw [hb])).trans hok) he

/-- The first steps of a task's reclamation: its entries that wait are cancelled, its runs stop, and its node waits for what is in motion. -/
def State.halted (s : State) (n : Nat) (o : Owner) (f : Fut) : State :=
  (((s.cancelWaiting n o).stopRuns n o).leaveMotion n o f).dropQueues n o

/-- The last steps of it, once its node has ended: what it holds is dropped, and its future is freed. -/
def State.forgotten (w : State) (k n : Nat) (o : Owner) (f : Fut) : State :=
  let t := (((w.dropKids f.kids).dropReplies n o).refundTask k).freeFut k
  ({ t with sleepers := tdel t.sleepers k, slices := t.slices.filter (fun z => z.fut != k) }).launchEnd f .reclaimed

theorem State.reclaimTask_eq (s : State) (k n : Nat) (x : Ctx) :
    let f := s.fut k
    let o := Owner.task (s.handleOf k)
    s.reclaimTask k n x = ((((s.halted n o f).releaseStreams n o).endMembers n x.members).nodeEnd f (some 0)).forgotten k n o f := rfl

theorem sameGraphs_halted (s : State) (n : Nat) (o : Owner) (f : Fut) : SameGraphs s (s.halted n o f) := by
  have h : SameGraphs s ((s.cancelWaiting n o).stopRuns n o) := ⟨rfl, fun _ => rfl⟩
  have h' : SameGraphs (((s.cancelWaiting n o).stopRuns n o).leaveMotion n o f) (s.halted n o f) := ⟨rfl, fun _ => rfl⟩
  exact (h.trans (sameGraphs_leaveMotion _ n o f)).trans h'

/-- A run told to stop, where it is its owner's and has a context to stop in. -/
def Run.toldToStop (o : Owner) (x : Run) : Run :=
  if x.owner = o ∧ (x.phase = .running ∨ x.phase = .saved) then { x with stop := true } else x

theorem Run.toldToStop_same (o : Owner) (x : Run) : (x.toldToStop o).owner = x.owner ∧ (x.toldToStop o).phase = x.phase := by
  unfold Run.toldToStop
  split <;> exact ⟨rfl, rfl⟩

theorem Run.toldToStop_stop {o : Owner} {x : Run} (ho : x.owner = o) (hx : x.phase = .running ∨ x.phase = .saved) :
    (x.toldToStop o).stop = true := by
  rw [Run.toldToStop, if_pos ⟨ho, hx⟩]

theorem State.runs_stopRuns (s : State) (n : Nat) (o : Owner) :
    ((s.stopRuns n o).sc n).runs = (s.sc n).runs.map fun p => (p.1, p.2.toldToStop o) := by
  rw [State.stopRuns, State.sc_modSc_self]
  rfl

theorem State.runs_leaveMotion (s : State) (n : Nat) (o : Owner) (f : Fut) : ((s.leaveMotion n o f).sc n).runs = (s.sc n).runs := by
  unfold State.leaveMotion
  dsimp only
  split <;> rfl

theorem State.runs_dropQueues (s : State) (n : Nat) (o : Owner) :
    ((s.dropQueues n o).sc n).runs = (s.sc n).runs.filter fun p => !(p.2.owner == o && p.2.phase == .retired) := by
  rw [State.dropQueues, State.sc_modSc_self]

/-- No run of an owner that has ended keeps its return queue, and each of the others stops. -/
theorem runs_halted (s : State) (n : Nat) (o : Owner) (f : Fut) : ∀ p ∈ ((s.halted n o f).sc n).runs, p.2.owner = o →
    p.2.phase ≠ .retired ∧ ((p.2.phase = .running ∨ p.2.phase = .saved) → p.2.stop = true) := by
  intro p hp ho
  rw [State.halted, State.runs_dropQueues, State.runs_leaveMotion, State.runs_stopRuns] at hp
  obtain ⟨hp, hkept⟩ := List.mem_filter.1 hp
  obtain ⟨q, -, rfl⟩ := List.mem_map.1 hp
  obtain ⟨howner, hphase⟩ := q.2.toldToStop_same o
  refine ⟨fun hret => ?_, fun hrun => ?_⟩
  · simp only [Bool.not_eq_true', Bool.and_eq_false_iff, beq_eq_false_iff_ne] at hkept
    exact hkept.elim (absurd ho) (absurd hret)
  · exact Run.toldToStop_stop (howner.symm.trans ho) (by rw [← hphase]; exact hrun)

section
variable (w : State) (k n : Nat) (o : Owner) (f : Fut)

theorem sameUse_forgotten : SameUse w (w.forgotten k n o f) := by
  have h := (((sameUse_dropKids w f.kids).trans (sameUse_dropReplies _ n o)).trans (sameUse_refundTask _ k)).trans (sameUse_freeFut _ k)
  refine (h.trans ?_).trans (sameUse_launchEnd _ f .reclaimed)
  exact sameUse_of_scs rfl rfl rfl

theorem core_forgotten (j : Nat) : ((w.forgotten k n o f).fut j).core =
    if j = k then { gen := (((w.dropKids f.kids).fut k).gen + 1) % 16384 } else ((w.dropKids f.kids).fut j).core := by
  have hrefund := sameCores_refundTask ((w.dropKids f.kids).dropReplies n o) k
  have hgen : ((((w.dropKids f.kids).dropReplies n o).refundTask k).fut k).gen = ((w.dropKids f.kids).fut k).gen := by
    have h := congrArg Fut.gen (hrefund k)
    exact h
  refine (sameCores_of_futs (futs_launchEnd _ f .reclaimed) j).trans ((core_freeFut _ k j).trans ?_)
  rw [hgen, hrefund j]
  rfl

theorem offStage_forgotten : (∀ z ∈ (w.forgotten k n o f).slices, z.fut ≠ k) ∧ tget (w.forgotten k n o f).sleepers k = none := by
  unfold State.forgotten
  dsimp only
  generalize (((w.dropKids f.kids).dropReplies n o).refundTask k).freeFut k = t
  have h := offStage_launchEnd { t with sleepers := tdel t.sleepers k, slices := t.slices.filter (fun z => z.fut != k) } f .reclaimed
  obtain ⟨hslices, hsleepers⟩ := Prod.mk.inj h
  rw [hslices, hsleepers]
  exact ⟨fun _ hz => by simpa using (List.mem_filter.1 hz).2, tget_tdel_self _ _⟩

end

/-- The reclamation of a task leaves it as R247 says. -/
theorem reclaimed_reclaimTask (s : State) (k n : Nat) (x : Ctx) : Reclaimed s (s.reclaimTask k n x) k n x := by
  have heq := s.reclaimTask_eq k n x
  have hruns := runs_halted s n (.task (s.handleOf k)) (s.fut k)
  have hgraphs := sameGraphs_halted s n (.task (s.handleOf k)) (s.fut k)
  unfold Reclaimed
  dsimp only at heq ⊢
  rw [heq]
  clear heq
  change SameGraphs s (s.halted _ _ _) at hgraphs
  rw [State.halted] at *
  generalize hf : s.fut k = f at *
  generalize Owner.task (s.handleOf k) = o at *
  generalize (((s.cancelWaiting n o).stopRuns n o).leaveMotion n o f).dropQueues n o = v at *
  obtain ⟨hfuts1, -, -, hbars1⟩ := releaseStreams_leaves v n o
  have hplan1 := samePlan_releaseStreams v n o
  have hfrees := freesStreams_releaseStreams (SameUse.refl v).jobs n o
  generalize v.releaseStreams n o = r at *
  obtain ⟨hfuts2, -, -, hjobs2⟩ := endMembers_leaves r n x.members
  have hplan2 := samePlan_endMembers r n x.members
  have hends := (endsMembers_endMembers r n x.members).of_sameBars hbars1 hplan1.2
  generalize r.endMembers n x.members = u at *
  have hnode := sameUse_nodeEnd u f (some 0)
  have hcore := fun h => core_nodeEnd_of_ne (j := k) (fault := some 0) u (f := f) h
  generalize u.nodeEnd f (some 0) = w at *
  have huse := hnode.trans (sameUse_forgotten w k n o f)
  have hfrees' := hfrees.congr (hjobs2 n).2
  have hself := (core_forgotten w k n o f k).trans (if_pos rfl)
  obtain ⟨hslices, hsleepers⟩ := offStage_forgotten w k n o f
  refine ⟨congrArg Fut.st hself, hslices, hsleepers, fun hg hk => ?_, hfrees', hends,
    fun _ => ⟨hfrees'.congr (huse.jobs n).2, hends.congr huse.bars⟩, fun hk => ?_, hruns⟩
  · have hfut : (u.fut k).core = (s.fut k).core := sameCores_of_futs (hfuts2.trans (hfuts1.trans hgraphs.futs)) k
    have hnone : ∀ p, f.node = some p → u.graphFut p.1 ≠ some k := fun p hp hk => by
      rw [State.graphFut, hplan2.1, hplan1.1] at hk
      obtain ⟨y, hy, hyk⟩ := Option.map_eq_some_iff.1 ((hgraphs.graphFut p.1).symm.trans hk)
      exact hg p hp (by rw [tgetD, hy]; exact hyk)
    have hsame := (((core_dropKids_of_not_mem w hk).trans (hcore hnone)).trans hfut).trans (congrArg Fut.core hf)
    have hgen := congrArg Fut.gen hsame
    have hnext := congrArg Fut.gen hself
    exact hnext.trans (congrArg (fun g => (g + 1) % 16384) hgen)
  · refine dropsKids_of_core (.refl w) fun h hh => ?_
    have hne : futKey h ≠ k := fun he => hk (he ▸ List.mem_map_of_mem hh)
    rw [core_forgotten, if_neg hne]

/-- What follows the reclamation on the task's context alone. -/
theorem Reclaimed.congr {x : Ctx} (h : Reclaimed s t k n x) (hfuts : u.futs = t.futs) (hstage : u.offStage = t.offStage) (hbars : SameBars t u)
    (hjobs : SameJobs t u) : Reclaimed s u k n x := by
  obtain ⟨hst, hslices, hsleepers, hgen, hfrees, hends, hboth, hkids, hruns⟩ := h
  have hfut : ∀ j, u.fut j = t.fut j := fun j => by rw [State.fut, State.fut, hfuts]
  obtain ⟨hslices', hsleepers'⟩ := Prod.mk.inj hstage
  refine ⟨by rw [hfut]; exact hst, by rw [hslices']; exact hslices, by rw [hsleepers']; exact hsleepers, by rw [hfut]; exact hgen, hfrees,
    hends, fun hn => ⟨(hboth hn).1.congr (hjobs n).2, (hboth hn).2.congr hbars⟩, fun hk hnd a ha hlive hheld => ?_, hruns⟩
  rw [hfut]
  exact hkids hk hnd a ha hlive hheld

theorem reclaimed_vacate {x : Ctx} (h : Reclaimed s t k n x) (m c : Nat) : Reclaimed s (t.vacate m c) k n x :=
  h.congr rfl rfl (sameBars_vacate t m c) (sameJobs_vacate t m c)

/-! ## A graph (R247, R257) -/

/-- The node tasks that a graph has made. -/
def Graph.tasks (g : Graph) : List Nat := g.nodes.filterMap Node.fut

/-- Node tasks dropped one after the other. -/
def State.dropNodes (s : State) (js : List Nat) : State := js.foldl State.dropNode s

theorem State.dropNodes_cons (s : State) (j : Nat) (js : List Nat) : s.dropNodes (j :: js) = (s.dropNode j).dropNodes js := rfl

theorem State.reclaimGraph_some {p : Nat × Graph} (h : s.graphs.find? (fun p => p.2.fut == k) = some p) :
    s.reclaimGraph k = (s.dropNodes p.2.tasks).freeFut k := by
  rw [State.reclaimGraph, h, State.dropNodes, Graph.tasks, List.foldl_filterMap]
  refine congrArg (fun f : State → Node → State => (p.2.nodes.foldl f s).freeFut k) ?_
  funext t x
  cases x.fut <;> rfl

/-- A future whose task belongs to no node of a graph. -/
def Fut.nodeless (f : Fut) : Fut := { f with node := none }

theorem core_dropNode_of_ne (s : State) (h : j ≠ k) : ((s.dropNode k).fut j).core = (s.fut j).core := by
  rw [State.dropNode, core_dropCount_of_ne _ h, core_unhold, if_neg h, State.fut_modFut, if_neg h]

theorem core_dropNode_self (s : State) (k : Nat) : ((s.dropNode k).fut k).core = (s.fut k).core.nodeless.unheld.dropped := by
  rw [State.dropNode, core_dropCount_self, core_unhold, if_pos rfl, State.fut_modFut, if_pos rfl]
  rfl

theorem core_dropNodes_of_not_mem (s : State) {js : List Nat} (hj : j ∉ js) : ((s.dropNodes js).fut j).core = (s.fut j).core := by
  induction js generalizing s with
  | nil => rfl
  | cons i js ih =>
    rw [List.mem_cons, not_or] at hj
    rw [State.dropNodes_cons, ih _ hj.2, core_dropNode_of_ne s hj.1]

theorem core_dropNodes_of_mem (s : State) {js : List Nat} (hnd : js.Nodup) (hj : j ∈ js) :
    ((s.dropNodes js).fut j).core = (s.fut j).core.nodeless.unheld.dropped := by
  induction js generalizing s with
  | nil => cases hj
  | cons i js ih =>
    obtain ⟨hi, hnd⟩ := List.nodup_cons.1 hnd
    rw [State.dropNodes_cons]
    rcases List.mem_cons.1 hj with rfl | hj
    · rw [core_dropNodes_of_not_mem _ hi, core_dropNode_self]
    · have hne : j ≠ i := fun he => hi (he ▸ hj)
      rw [ih _ hnd hj, core_dropNode_of_ne s hne]

theorem State.st_reclaimGraph (s : State) (k : Nat) : ((s.reclaimGraph k).fut k).st = .free := by
  have hfree : ∀ t : State, ((t.freeFut k).fut k).st = .free := fun t => by
    have h := congrArg Fut.st ((core_freeFut t k k).trans (if_pos rfl))
    exact h
  unfold State.reclaimGraph
  split <;> exact hfree _

/-- The node tasks of a reclaimed graph lose the graph's reference once, and the graph leaves the walker. -/
theorem reclaimGraph_leaves {p : Nat × Graph} (hp : s.graphs.find? (fun p => p.2.fut == k) = some p) (hgraph : (s.fut k).graph = true)
    (hnd : p.2.tasks.Nodup) (hk : k ∉ p.2.tasks) :
    ((s.reclaimGraph k).fut k).gen = ((s.fut k).gen + 1) % 16384 ∧ (∀ q ∈ (s.reclaimGraph k).graphs, q.2.fut ≠ k)
      ∧ ∀ j ∈ p.2.tasks, ((s.reclaimGraph k).fut j).core = (s.fut j).core.nodeless.unheld.dropped := by
  rw [State.reclaimGraph_some hp]
  have hkeep := core_dropNodes_of_not_mem s hk
  have hself := congrArg Fut.gen ((core_freeFut (s.dropNodes p.2.tasks) k k).trans (if_pos rfl))
  have hgen := congrArg Fut.gen hkeep
  have hleft := congrArg Fut.graph hkeep
  refine ⟨hself.trans (congrArg (fun g => (g + 1) % 16384) hgen), State.graphs_freeFut (hleft.trans hgraph), fun j hj => ?_⟩
  have hne : j ≠ k := fun he => hk (he ▸ hj)
  rw [core_freeFut, if_neg hne, core_dropNodes_of_mem s hnd hj]

/-- What a drop makes of a node task, by its COUNT. -/
theorem nodeTask_of_core {f g : Fut} (h : g.core = f.core.nodeless.unheld.dropped) :
    (f.count ≠ 1 → g.st = f.st ∧ g.count = f.count - 1 ∧ g.held = false ∧ g.node = none)
      ∧ (f.count = 1 → f.st = .running → g.st = .reclaimed ∧ g.node = none)
      ∧ (f.count = 1 → (f.st = .done ∨ f.st = .faulted ∨ f.st = .ready) → g.st = .free) := by
  refine ⟨fun h1 => ?_, fun h1 hrun => ?_, fun h1 hend => ?_⟩
  · rw [Fut.dropped_of_shared (f := f.core.nodeless.unheld) h1] at h
    have hst := congrArg Fut.st h
    have hcount := congrArg Fut.count h
    have hheld := congrArg Fut.held h
    have hnode := congrArg Fut.node h
    exact ⟨hst, hcount, hheld, hnode⟩
  · rw [Fut.dropped_of_running (f := f.core.nodeless.unheld) h1 hrun] at h
    have hst := congrArg Fut.st h
    have hnode := congrArg Fut.node h
    exact ⟨hst, hnode⟩
  · rw [Fut.dropped_of_over (f := f.core.nodeless.unheld) h1 hend] at h
    have hst := congrArg Fut.st h
    exact hst

/-! ## The point of reclamation -/

/-- Is a task where it can be reclaimed: at an instruction boundary, BLOCKED, waiting for a handler to take its trap, or in no context? -/
def State.atPoint (s : State) (k : Nat) : Prop :=
  match s.locate k with
  | .inCtx n c => (s.ctx n c).st = .ready ∨ (s.ctx n c).st = .blocked ∨ ((s.ctx n c).st = .trapped ∧ c ∈ (s.sc n).trapQ)
  | _ => True

theorem exec_reclamationPoint_of (hr : s.isReclaimed k = true) (h : (s.fut k).graph = true ∨ s.atPoint k) :
    exec (.reclamationPoint k) s = .next (s.reclaimNow k) := by
  refine (exec_reclamationPoint k s).trans (congrArg _ (if_pos ?_))
  rcases h with hg | hpoint
  · simp [hr, State.reclaimDue, hg]
  · cases hl : s.locate k with
    | nowhere => simp [hr, State.reclaimDue, hl]
    | asleep n => simp [hr, State.reclaimDue, hl]
    | inCtx n c =>
      rw [State.atPoint, hl] at hpoint
      rcases hpoint with hst | hst | ⟨hst, hq⟩
      · simp [hr, State.reclaimDue, hl, hst]
      · simp [hr, State.reclaimDue, hl, hst]
      · simp [hr, State.reclaimDue, hl, hst, hq]

theorem exec_reclamationPoint_waits (hr : s.isReclaimed k = true) (hg : (s.fut k).graph = false) (hl : s.locate k = .inCtx n c)
    (hst : (s.ctx n c).st = .trapped) (hq : c ∉ (s.sc n).trapQ) : exec (.reclamationPoint k) s = .next s := by
  refine (exec_reclamationPoint k s).trans (congrArg _ (if_neg ?_))
  simp [hr, State.reclaimDue, hg, hl, hst, hq]

theorem State.reclaimNow_of (hg : (s.fut k).graph = false) : s.reclaimNow k = match s.locate k with
    | .asleep n => s.reclaimTask k n ((tgetD s.sleepers k {}).ctx)
    | .inCtx n c => s.reclaimAt n c
    | .nowhere => s.reclaimTask k 0 {} := by
  rw [State.reclaimNow, hg]
  rfl

/-- Settles O44: the events one by one, over what a slice begins (`State.runSlice`), a spent budget leaves (`State.spend_leaves`), an end
leaves (`taskOver_endMe`, `activityOver_endMe`) and a reclamation leaves (`reclaimed_reclaimTask`, `reclaimGraph_leaves`). -/
theorem taskEvents : Obligations.TaskEvents := by
  unfold Obligations.TaskEvents
  intro s n c k
  refine ⟨fun y hy hk hn hc => ?dispatch, fun hc hst hb hm hr => ?budget, fun ids status result hst hw hd hr => ?ending,
    fun ids m hst hw hd => ⟨fun hnone => ?idle, fun g i es hsome => ?signal⟩, fun hr hg hl hk hst => ?inCtx,
    fun hr hg hl hst hq => exec_reclamationPoint_waits hr hg hl hst hq, fun hr hg hl => ?asleep, fun hr hg hl => ?nowhere,
    fun hr hg => ?graph⟩
  case dispatch =>
    have hctx := s.ctx_runSlice k n c y.deadline y.budget n c
    rw [if_pos ⟨rfl, rfl⟩] at hctx
    have hfut := s.fut_runSlice k n c y.deadline y.budget
    refine ⟨_, exec_taskDispatch_of hy hk hn hc, ?_, ?_, ?_, ?_, ?_, s.slices_runSlice k n c _ _, rfl, fun d hd => ?_, fun hs => ?_,
      fun z hz => ?_⟩
    · rw [hctx]; exact s.sliceCtx_st k
    · rw [hctx]
    · rw [hctx]; rfl
    · rw [hfut]
    · rw [hfut]
    · rw [s.ctx_runSlice, if_neg fun h => hd h.2]
    · rw [hctx, State.sliceCtx_new hs]
      exact ⟨rfl, reg_one_startCtx (s.fut k) (s.handleOf k), rfl⟩
    · rw [hctx, State.sliceCtx_asleep hz]
      exact ⟨rfl, fun _ => rfl⟩
  case budget =>
    obtain ⟨hfree, hslices, hmem, l, hsleeps⟩ := s.spend_leaves n c
    refine ⟨_, exec_budgetExpiry_of hc hst hb hm hr, hfree, hslices, hmem, ?_⟩
    rw [tgetD, hsleeps]
    exact ⟨rfl, fun _ => rfl⟩
  case ending =>
    exact ⟨_, exec_taskEnd_of hst hw hd hr, fun hc => taskOver_endMe s n hc status result,
      fun hc => activityOver_endMe s n hc status result⟩
  case idle => rw [exec_fsigDelivery_of hst hw hd, hnone]
  case signal => rw [exec_fsigDelivery_of hst hw hd, hsome]
  case inCtx =>
    have hpoint : s.atPoint k := by rw [State.atPoint, hl]; exact hst
    refine ⟨_, exec_reclamationPoint_of hr (.inr hpoint), ?_⟩
    rw [State.reclaimNow_of hg, hl]
    dsimp only
    rw [State.reclaimAt, hk]
    exact ⟨State.st_vacate _ n c, reclaimed_vacate (reclaimed_reclaimTask _ k n _) n c⟩
  case asleep =>
    have hpoint : s.atPoint k := by rw [State.atPoint, hl]; trivial
    refine ⟨_, exec_reclamationPoint_of hr (.inr hpoint), ?_⟩
    rw [State.reclaimNow_of hg, hl]
    exact reclaimed_reclaimTask s k n _
  case nowhere =>
    have hpoint : s.atPoint k := by rw [State.atPoint, hl]; trivial
    refine ⟨_, exec_reclamationPoint_of hr (.inr hpoint), ?_⟩
    rw [State.reclaimNow_of hg, hl]
    exact reclaimed_reclaimTask s k 0 _
  case graph =>
    refine ⟨_, (exec_reclamationPoint_of hr (.inl hg)).trans (congrArg _ (if_pos hg)), s.st_reclaimGraph k, fun p hp hnd hk => ?_⟩
    obtain ⟨hgen, hgraphs, hcores⟩ := reclaimGraph_leaves hp hg hnd hk
    exact ⟨hgen, hgraphs, fun j hj => nodeTask_of_core (hcores j hj)⟩

end Sys2Proof.Machine
end

section
/-!
SUPPORT. Flag watches (R255): WAITGE in a state whose walkers' port still owes a write.
-/

namespace Sys2Proof.Machine

/-- The walk of WAITGE's address performs the write that the walkers' port owes. -/
theorem waitge_walks : WalksIn 0x100 (.waitge 1 2) := by unfold WalksIn; decide

/-- Refutes O37: WAITGE of address 0x100 in `accessPending`, where no watch is kept and the flag's word is at its threshold of 0, moves on
as R255 says; but its walk has the unit of a PTE perform the write that the port for walks still owes (R284), so that the byte at 0x1008
reads 1 where the statement says that every byte stays. -/
theorem not_flagWatchesAndGraphs : ¬ Obligations.FlagWatchesAndGraphs := by
  intro h
  obtain ⟨hwaitge, -⟩ := h (accessPending 0x100) 0 1 2 firstPage
  have hf : (accessPending 0x100).Filled [1, 2] := (accessPending_filled _).mono (by simp)
  obtain ⟨hroom, -⟩ := hwaitge hf (by decide) (accessPending_check false).1
  obtain ⟨t, hx, hbytes, -⟩ := hroom (.inr (by decide))
  exact waitge_walks.not_sameBytes hx hbytes

end Sys2Proof.Machine
end

section
/-!
SUPPORT. The end of a graph (R257, R335) where a number stands twice in the table of graphs, which the statement does not exclude.
-/

namespace Sys2Proof.Machine

/-- A graph of one JOIN node, whose future 0 a launch holds; its number is also that of an empty graph of future 1. -/
def twoGraphs : State :=
  { graphs := [(0, { nodes := [{}], launch := some 0 }), (0, { fut := 1 })], launches := [(0, { graph := true })],
    futs := [(0, { st := .running, count := 1, graph := true })] }

/-- The end of the one node ends the launch, which frees the graph's future: the graph leaves the table, and its number is the other's. -/
theorem twoGraphs_endNode : tget (twoGraphs.endNode 0 0 .normal none none).graphs 0 = some { fut := 1 } := by decide

/-- Refutes O46: the statement's last clause takes any table of graphs, also one in which a number stands twice. In `twoGraphs` the end of
the only node completes the launch and frees graph 0 (R335), so that the number finds the other graph, which has no node where the clause
says that there are as many as before. -/
theorem not_graphNodes : ¬ Obligations.GraphNodes := by
  intro h
  obtain ⟨-, -, -, -, hover⟩ := h twoGraphs 0 0 { nodes := [{}], launch := some 0 } {} (by decide) (by decide)
  obtain ⟨hleft, -⟩ := hover .normal none none { nodes := [{}], launch := some 0 } {} (by decide) (by decide)
  obtain ⟨-, hlength, -⟩ := hleft _ twoGraphs_endNode
  exact absurd hlength (by decide)

end Sys2Proof.Machine
end

section
/-!
SUPPORT. Safe states (R267, R285, R396; log 2): how they are put together, and that contexts, translation, the registers of the package and the
accesses of the control core keep them safe.
-/

namespace Sys2Proof.Machine

variable {s t : State}

/-! ## Safe states put together -/

/-- Every line of a cluster's data cache holds 64 bytes. -/
def Sc.Whole (x : Sc) : Prop := ∀ k l, tget x.lines k = some l → l.data.length = 64

theorem State.Safe.whole (h : s.Safe) (n : Nat) : (s.sc n).Whole := h.2 n

theorem Sc.Whole.of_lines {x y : Sc} (h : x.Whole) (hl : y.lines = x.lines) : y.Whole := fun k l e => h k l (hl ▸ e)

theorem Sc.Whole.delLine {x : Sc} (h : x.Whole) (k : Nat) : ({ x with lines := tdel x.lines k } : Sc).Whole := by
  intro j l e
  by_cases hj : j = k
  · subst hj
    rw [tget_tdel_self] at e
    cases e
  · rw [tget_tdel_of_ne _ hj] at e
    exact h j l e

/-- A state with the memory and the clusters of a safe one is safe. -/
theorem State.Safe.same (h : s.Safe) (hm : t.mem = s.mem) (hs : t.scs = s.scs) : t.Safe :=
  h.of_same hm (fun n => by rw [State.sc, State.sc, hs])

theorem State.Safe.ite {c : Prop} [Decidable c] (hs : s.Safe) (ht : t.Safe) : (if c then s else t).Safe := by
  split
  · exact hs
  · exact ht

/-- A fold keeps a state safe when each of its steps does. -/
theorem State.Safe.foldl {α : Type} {f : State → α → State} (h : s.Safe) (l : List α) (hf : ∀ u x, u.Safe → (f u x).Safe) :
    (l.foldl f s).Safe := by
  induction l generalizing s with
  | nil => exact h
  | cons x l ih => exact ih (hf s x h)

/-- An update of a cluster that leaves the lines of its data cache keeps a state safe. -/
theorem State.Safe.updSc (h : s.Safe) (n : Nat) {f : Sc → Sc} (hf : ∀ x, (f x).lines = x.lines) :
    (s.modSc n f).Safe :=
  h.modSc n f ((h.whole n).of_lines (hf _))

/-- An update of every cluster that leaves its lines whole keeps a state safe. -/
theorem State.Safe.mapScs {f : Nat → Sc → Sc} (h : s.Safe) (hm : t.mem = s.mem) (hs : t.scs = s.scs.map fun p => (p.1, f p.1 p.2))
    (hf : ∀ n x, x.Whole → (f n x).Whole) : t.Safe := by
  refine ⟨by rw [State.memOk, hm]; exact h.1, fun n => ?_⟩
  have hn := h.whole n
  rw [State.sc, tgetD] at hn ⊢
  rw [hs, tget_map_of_key]
  cases hg : tget s.scs n with
  | none => exact fun k l e => nomatch e
  | some x =>
    rw [hg] at hn
    exact hf n x hn

/-- The state that an outcome goes on with, if any, is safe. -/
def SafeNext : Result → Prop
  | .next t => t.Safe
  | _ => True

theorem SafeNext.ite {c : Prop} [Decidable c] {a b : Result} (ha : SafeNext a) (hb : SafeNext b) : SafeNext (if c then a else b) := by
  split
  · exact ha
  · exact hb

/-! ## Fields that neither memory nor a data cache is among -/

theorem State.Safe.setCur (h : s.Safe) (c : Cur) : ({ s with cur := c } : State).Safe := h.same rfl rfl
theorem State.Safe.setHostRmw (h : s.Safe) (l : List (HostReq × Nat)) : ({ s with hostRmw := l } : State).Safe := h.same rfl rfl
theorem State.Safe.setHostLines (h : s.Safe) (l : List (Nat × Bool)) : ({ s with hostLines := l } : State).Safe := h.same rfl rfl
theorem State.Safe.setTopo (h : s.Safe) (x : Topo) (y : Mgmt) : ({ s with topo := x, mgmt := y } : State).Safe := h.same rfl rfl
theorem State.Safe.setSlices (h : s.Safe) (x : List Slice) : ({ s with slices := x } : State).Safe := h.same rfl rfl
theorem State.Safe.setCommitting (h : s.Safe) (l : List (Nat × Nat)) (x : Topo) :
    ({ s with committing := l, topo := x } : State).Safe := h.same rfl rfl
theorem State.Safe.emit (h : s.Safe) (o : Out) : (s.emit o).Safe := h.same rfl rfl
theorem State.Safe.modFut (h : s.Safe) (k : Nat) (f : Fut → Fut) : (s.modFut k f).Safe := h.same rfl rfl

/-! ## Contexts, runs and streams -/

theorem State.Safe.modCtx (h : s.Safe) (n c : Nat) (f : Ctx → Ctx) : (s.modCtx n c f).Safe := h.setCtx n c _
theorem State.Safe.modMe (h : s.Safe) (f : Ctx → Ctx) : (s.modMe f).Safe := h.setCtx _ _ _
theorem State.Safe.setRun (h : s.Safe) (n k : Nat) (x : Run) : (s.setRun n k x).Safe := h.updSc n (fun _ => rfl)
theorem State.Safe.modRun (h : s.Safe) (n k : Nat) (f : Run → Run) : (s.modRun n k f).Safe := h.setRun n k _
theorem State.Safe.modMyRun (h : s.Safe) (f : Run → Run) : (s.modMyRun f).Safe := h.modRun _ _ _
theorem State.Safe.setStream (h : s.Safe) (n d : Nat) (x : Stream) : (s.setStream n d x).Safe := h.updSc n (fun _ => rfl)
theorem State.Safe.setG (h : s.Safe) (r : BitVec 5) (v : Word) : (s.setG r v).Safe := h.modMe _
theorem State.Safe.fin (h : s.Safe) : s.fin.Safe := h.modMe _
theorem State.Safe.jump (h : s.Safe) (a : Word) : (s.jump a).Safe := h.modMe _
theorem State.Safe.ret (h : s.Safe) (r : BitVec 5) (v : Word) : (s.ret r v).Safe := (h.setG r v).fin
theorem State.Safe.block (h : s.Safe) (w : Wait) (lod : Bool) : (s.block w lod).Safe := h.modMe _

theorem State.Safe.takeTrap (h : s.Safe) (n c cause : Nat) (async : Bool) (tval tpc : Word) :
    (s.takeTrap n c cause async tval tpc).Safe := by
  have h1 := (h.modCtx n c (fun x => x.trap cause async tval tpc)).updSc n (f := fun t => { t with trapQ := t.trapQ ++ [c] }) (fun _ => rfl)
  exact .ite ((h1.updSc n (by intro _; rfl)).setHlth _) h1

theorem State.Safe.trap (h : s.Safe) (cause : Nat) (tval : Word) : (s.trap cause tval).Safe := h.takeTrap _ _ _ _ _ _
theorem State.Safe.trapNext (h : s.Safe) (cause : Nat) (tval : Word) : (s.trapNext cause tval).Safe := h.takeTrap _ _ _ _ _ _

theorem State.Safe.handOver (h : s.Safe) (n : Nat) : (s.handOver n).Safe := by
  unfold State.handOver
  dsimp only
  split
  · exact h
  · split
    · exact h
    · exact .ite ((h.modCtx _ _ _).updSc _ (fun _ => rfl)) h

theorem State.Safe.resumeAt (h : s.Safe) (n c : Nat) (a : Word) : (s.resumeAt n c a).Safe :=
  (h.modCtx _ _ _).updSc _ (fun _ => rfl)

theorem State.Safe.disown (h : s.Safe) (n c : Nat) : (s.disown n c).Safe := (h.modCtx _ _ _).modCtx _ _ _

/-- An instruction of the control core runs once its registers are filled, and waits before. -/
theorem State.Safe.ctlFirst (h : s.Safe) (rs : List (BitVec 5)) {f : State → Result} (hf : SafeNext (f s)) : SafeNext (ctlFirst rs s f) :=
  by
  unfold Machine.ctlFirst
  split
  · exact h.block _ _
  · exact hf

theorem State.Safe.ctl (h : s.Safe) (rs : List (BitVec 5)) {f : State → State} (hf : (f s).Safe) : SafeNext (ctl rs s f) :=
  h.ctlFirst rs (f := fun t => .next (f t)) hf

theorem State.Safe.priv (h : s.Safe) (w : Word) (rs : List (BitVec 5)) {f : State → State} (hf : (f s).Safe) :
    SafeNext (priv w rs s f) :=
  .ite (h.ctl rs hf) (h.trap _ _)

theorem State.Safe.putView (h : s.Safe) (a : Nat) (v : PortView) : (s.putView a v).Safe := (h.setStream _ _ _).setRun _ _ _

/-! ## Requests and writes -/

theorem State.Safe.writeNat (h : s.Safe) (a n x : Nat) : (s.writeNat a n x).Safe := h.write _ _ _
theorem State.Safe.send (h : s.Safe) (p : Packet) : (s.send p).Safe := h.same rfl rfl

theorem State.Safe.pktRead (h : s.Safe) (id : Nat) (p : Packet) : (s.pktRead id p).Safe := (h.readEffect _ _).replied _ _ _

theorem State.Safe.pktWrite (h : s.Safe) (id : Nat) (p : Packet) : (s.pktWrite id p).Safe :=
  ((h.dieWriteIn _ _ _).copyBytes _ _).replied _ _ _

theorem State.Safe.pktAcc (h : s.Safe) (id : Nat) (p : Packet) : (s.pktAcc id p).Safe :=
  (((h.accCount _ _).dieWriteIn _ _ _).copyBytes _ _).replied _ _ _

theorem State.Safe.dropLine (h : s.Safe) (n k : Nat) : (s.dropLine n k).Safe := by
  unfold State.dropLine
  split
  · exact h
  · refine .ite ((h.delLine n k).mapScs (f := fun _ x => match tget x.lines k with
      | some m => if m.d0 || m.d1 then x else { x with lines := tdel x.lines k }
      | none => x) rfl rfl (fun _ x hx => ?_)) (h.delLine n k)
    split
    · split
      · exact hx
      · exact hx.delLine k
    · exact hx

/-! ## Translation -/

theorem State.Safe.useScTlb (h : s.Safe) (n asid : Nat) (x : Xlat) : (s.useScTlb n asid x).Safe := h.updSc _ (fun _ => rfl)
theorem State.Safe.useDieTlb (h : s.Safe) (n asid : Nat) (x : Xlat) : (s.useDieTlb n asid x).Safe := h.same rfl rfl

theorem State.Safe.countWalk (h : s.Safe) (n : Nat) (l : List Nat) : (s.countWalk n l).Safe :=
  h.foldl l (fun _ _ hu => (hu.performEarlier _ _ _).readEffect _ _)

theorem State.Safe.touch (h : s.Safe) (n : Nat) (sc : Bool) (root : Option Word) (va : Nat) : (s.touch n sc root va).Safe := by
  have hold : ∀ {u : State} (asid : Nat) (x : Xlat), u.Safe →
      (if sc then (u.useDieTlb n asid x).useScTlb n asid x else u.useDieTlb n asid x).Safe :=
    fun _ _ hu => .ite ((hu.useDieTlb _ _ _).useScTlb _ _ _) (hu.useDieTlb _ _ _)
  unfold State.touch
  split
  · exact h
  · refine .ite h ?_
    split
    · exact h.useScTlb _ _ _
    · dsimp only
      split
      · exact hold _ _ h
      · split
        · exact h.countWalk _ _
        · exact hold _ _ (h.countWalk _ _)

theorem State.Safe.touchMe (h : s.Safe) (va : Nat) : (s.touchMe va).Safe := h.touch _ _ _ _
theorem State.Safe.walked (h : s.Safe) (a : Word) (n : Nat) (align : Bool) : (s.walked a n align).Safe := .ite h (h.touchMe _)

theorem State.Safe.waitTag (h : s.Safe) (stack : Nat) (w : Wait) : (s.waitTag stack w).Safe := (h.updSc _ (by intro _; rfl)).block _ _
theorem State.Safe.leaveTagQ (h : s.Safe) : s.leaveTagQ.Safe := h.updSc _ (fun _ => rfl)

theorem State.Safe.afterAccesses (h : s.Safe) {f : State → State} (hf : (f s).Safe) : (s.afterAccesses f).Safe :=
  .ite hf (h.block _ _)

theorem State.Safe.dropTlb (h : s.Safe) (f : Nat → Xlat → Bool) : (s.dropTlb f).Safe :=
  h.mapScs (f := fun _ x => { x with tlb := x.tlb.filter (fun e => !f e.1 e.2) }) rfl rfl (fun _ _ hx => hx.of_lines rfl)

/-! ## Registers of the package -/

theorem State.Safe.setPort (h : s.Safe) (p : Nat) (x : LockSt) : (s.setPort p x).Safe := h.same rfl rfl
theorem State.Safe.bringUp (h : s.Safe) : s.bringUp.Safe := h.same rfl rfl
theorem State.Safe.measure3 (h : s.Safe) : s.measure3.Safe := h.same rfl rfl

theorem State.Safe.lockLane (h : s.Safe) (p : Nat) : (s.lockLane p).Safe :=
  (((State.Safe.ite h.bringUp h).measure3).setPort _ _).useFree _

theorem State.Safe.lockPort (h : s.Safe) (p : Nat) : (s.lockPort p).Safe := .ite (.ite (h.lockLane p) (h.setPort _ _)) h
theorem State.Safe.runPort (h : s.Safe) (p : Nat) : (s.runPort p).Safe := .ite (.ite (h.same rfl rfl) (h.setPort _ _)) h

theorem State.Safe.unlockPort (h : s.Safe) (p : Nat) : (s.unlockPort p).Safe :=
  .ite h (.ite (h.same rfl rfl) (h.same rfl rfl))

theorem State.Safe.failPort (h : s.Safe) (p : Nat) : (s.failPort p).Safe := .ite (h.same rfl rfl) h

theorem State.Safe.settlePorts (h : s.Safe) : s.settlePorts.Safe := h.foldl _ (fun _ _ hu => .ite hu (hu.unlockPort _))

theorem State.Safe.modQueue (h : s.Safe) (q : Nat) (f : Queue → Queue) : (s.modQueue q f).Safe := h.same rfl rfl
theorem State.Safe.writeQbase (h : s.Safe) (q : Nat) (v : Word) : (s.writeQbase q v).Safe := .ite h (h.modQueue _ _)

theorem State.Safe.writeQcfg (h : s.Safe) (q : Nat) (v : Word) : (s.writeQcfg q v).Safe :=
  .ite (h.modQueue _ _) (.ite h (.ite (h.modQueue _ _) (h.modQueue _ _)))

theorem State.Safe.writeQtail (h : s.Safe) (q : Nat) (v : Word) : (s.writeQtail q v).Safe := h.modQueue _ _
theorem State.Safe.writeQstat (h : s.Safe) (q : Nat) (v : Word) : (s.writeQstat q v).Safe := .ite (h.modQueue _ _) h

theorem State.Safe.writeDrec0 (h : s.Safe) (i : Nat) (v : Word) : (s.writeDrec0 i v).Safe :=
  .ite (.ite h (h.same rfl rfl)) (.ite (.ite (h.same rfl rfl) (h.same rfl rfl)) (h.same rfl rfl))

theorem State.Safe.writeDrec (h : s.Safe) (i k : Nat) (v : Word) : (s.writeDrec i k v).Safe :=
  .ite (h.writeDrec0 i v) (.ite h (h.same rfl rfl))

theorem State.Safe.writePlim (h : s.Safe) (v : Word) : (s.writePlim v).Safe := h.same rfl rfl
theorem State.Safe.writeTthr (h : s.Safe) (v : Word) : (s.writeTthr v).Safe := h.same rfl rfl
theorem State.Safe.clearHlth (h : s.Safe) (v : Word) : (s.clearHlth v).Safe := h.same rfl rfl
theorem State.Safe.writeFcfg (h : s.Safe) (v : Word) : (s.writeFcfg v).Safe := .ite (h.same rfl rfl) h
theorem State.Safe.writeFid (h : s.Safe) (v : Word) : (s.writeFid v).Safe := .ite (h.same rfl rfl) h
theorem State.Safe.writeKey (h : s.Safe) (k : Nat) (v : Word) : (s.writeKey k v).Safe := .ite (h.same rfl rfl) h
theorem State.Safe.writeFwin (h : s.Safe) (k : Nat) (v : Word) : (s.writeFwin k v).Safe := h.same rfl rfl
theorem State.Safe.writeFrames (h : s.Safe) (st o : Nat) (v : Word) : (s.writeFrames st o v).Safe := h.same rfl rfl
theorem State.Safe.writeTags (h : s.Safe) (st o : Nat) (v : Word) : (s.writeTags st o v).Safe := h.same rfl rfl
theorem State.Safe.writeKsp (h : s.Safe) (n : Nat) (v : Word) : (s.writeKsp n v).Safe := (h.updSc n (by intro _; rfl)).dropTlb _
theorem State.Safe.writePtb (h : s.Safe) (n : Nat) (v : Word) : (s.writePtb n v).Safe := h.updSc n (fun _ => rfl)

theorem State.Safe.regWrite (h : s.Safe) (o : Nat) (v : Word) : (s.regWrite o v).Safe :=
  .ite h <| .ite (.ite (h.writeQbase _ _) <| .ite (h.writeQcfg _ _) <| .ite (h.writeQtail _ _) <| .ite (h.writeQstat _ _) h) <|
    .ite (h.same rfl rfl) <| .ite (h.writeDrec _ _ _) <| .ite (h.clearHlth _) <| .ite (h.writePlim _) <| .ite (h.writeTthr _) <|
    .ite (h.writeFcfg _) <| .ite (h.writeFid _) <| .ite (h.same rfl rfl) <| .ite (h.writeKey _ _) <| .ite (h.writeFwin _ _) <|
    .ite (h.same rfl rfl) <| .ite (h.same rfl rfl) <| .ite (h.same rfl rfl) <| .ite (h.writeFrames _ _ _) <|
    .ite (h.writeTags _ _ _) h

theorem State.Safe.storeReg (h : s.Safe) (a n : Nat) (v : Word) : (s.storeReg a n v).Safe := .ite (h.regWrite _ _) h

/-! ## Accesses of the control core -/

theorem State.Safe.loadAt (h : s.Safe) (d n : Nat) (signed : Bool) (x : Xlat) (acq : Bool) : (s.loadAt d n signed x acq).Safe :=
  .ite (h.modMe _) (.ite ((h.send _).modMe _) ((h.fillLine _ _).modMe _))

theorem State.Safe.storeAt (h : s.Safe) (n : Nat) (x : Xlat) (v : Word) : (s.storeAt n x v).Safe :=
  .ite (h.storeReg _ _ _) (.ite (h.send _) (h.cachedStore _ _ _))

theorem State.Safe.withTagOf (h : s.Safe) (k : Option Nat) {f : State → State} (hf : ∀ u, u.Safe → (f u).Safe) :
    (s.withTagOf k f).Safe := by
  refine .ite (h.block _ _) ?_
  split
  · exact h.waitTag _ _
  · exact hf _ h.leaveTagQ

theorem State.Safe.withTag (h : s.Safe) (x : Xlat) {f : State → State} (hf : ∀ u, u.Safe → (f u).Safe) : (s.withTag x f).Safe :=
  h.withTagOf _ hf

theorem State.Safe.access (h : s.Safe) (w : Bool) (a : Word) (n : Nat) {f : Xlat → State → State}
    (hf : ∀ x u, u.Safe → (f x u).Safe) : (s.access w a n f).Safe := by
  have hw := h.walked a n true
  unfold State.access
  dsimp only
  split
  · exact hw.trap _ _
  · exact hw.withTag _ (hf _)

theorem State.Safe.load (h : s.Safe) (d a : BitVec 5) (addr : State → Word) (n : Nat) (signed : Bool) (rs : List (BitVec 5)) :
    SafeNext (load d a addr n signed rs s) :=
  h.ctl _ (h.access _ _ _ (fun _ _ hu => (hu.loadAt _ _ _ _ _).fin))

theorem State.Safe.store (h : s.Safe) (d a : BitVec 5) (i : BitVec 14) (n : Nat) : SafeNext (store d a i n s) :=
  h.ctl _ (h.access _ _ _ (fun _ _ hu => (hu.storeAt _ _ _).fin))

theorem State.Safe.execLdAcq (h : s.Safe) (d a : BitVec 5) (i : BitVec 14) : SafeNext (execLdAcq d a i s) :=
  h.ctl _ (h.access _ _ _ (fun _ _ hu => (hu.loadAt _ _ _ _ _).fin))

theorem State.Safe.execStRel (h : s.Safe) (d a : BitVec 5) (i : BitVec 14) : SafeNext (execStRel d a i s) := by
  refine h.ctl _ ?_
  have hw := h.walked (eaddr a i s) 8 true
  dsimp only
  split
  · exact hw.trap _ _
  · exact hw.afterAccesses (hw.withTag _ (fun _ hu => (hu.storeAt _ _ _).fin))

theorem State.Safe.eachPart (h : s.Safe) (i : W32) {f : Nat → Xlat → State → State} (hf : ∀ n x u, u.Safe → (f n x u).Safe)
    (l : List (Nat × Xlat)) : (State.eachPart i f l s).Safe := by
  induction l generalizing s with
  | nil => exact h.fin
  | cons p ps ih =>
    unfold State.eachPart
    split
    · exact h.waitTag _ _
    · exact ih (hf _ _ _ h.leaveTagQ)

theorem State.Safe.walkedAll (h : s.Safe) (base : Word) (ks : List Nat) : (s.walkedAll base ks).Safe :=
  h.foldl ks (fun _ _ hu => hu.walked _ _ _)

theorem State.Safe.multiple (h : s.Safe) (i : W32) (w : Bool) (d a : BitVec 5) (n : BitVec 3) {f : Nat → Xlat → State → State}
    (hf : ∀ n x u, u.Safe → (f n x u).Safe) : SafeNext (multiple i w d a n f s) := by
  unfold Machine.multiple
  split
  · exact h.eachPart i hf _
  · refine h.ctl _ ?_
    have hw := h.walkedAll (s.g a) (List.range (n.toNat + 1))
    dsimp only
    split
    · exact hw.trap _ _
    · exact .ite (hw.block _ _) (hw.eachPart i hf _)

theorem State.Safe.execDcfl (h : s.Safe) (a : BitVec 5) (i : BitVec 14) : SafeNext (execDcfl a i s) := by
  refine h.ctl _ ?_
  have ht := h.touchMe (eaddr a i s).toNat
  dsimp only
  split
  · exact (State.Safe.ite ht (ht.writeBack _ _)).fin
  · exact ht.fin

theorem State.Safe.execDcinv (h : s.Safe) (a : BitVec 5) (i : BitVec 14) : SafeNext (execDcinv a i s) := by
  refine h.priv _ _ ?_
  have ht := h.touchMe (eaddr a i s).toNat
  dsimp only
  split
  · exact (State.Safe.ite ht (ht.dropLine _ _)).fin
  · exact ht.fin

theorem State.Safe.execDcz (h : s.Safe) (a : BitVec 5) (i : BitVec 14) : SafeNext (execDcz a i s) := by
  refine h.ctl _ ?_
  have hw := h.walked (eaddr a i s) 64 false
  dsimp only
  split
  · exact hw.trap _ _
  · exact hw.withTagOf _ (fun _ hu => (State.Safe.ite hu (.ite (hu.send _) (hu.zeroLine _ _))).fin)

end Sys2Proof.Machine
end

section
/-!
SUPPORT. Regions, engines' accesses, futures, launches, graphs, the ends of tasks, records and entries, and kernels keep the machine safe.
-/

namespace Sys2Proof.Machine

variable {s : State}

/-! ## Regions, streams and barriers -/

theorem State.Safe.putRegions (h : s.Safe) (hub : Nat) (l : List (Nat × Region)) : (s.putRegions hub l).Safe := h.same rfl rfl
theorem State.Safe.chargeSrf (h : s.Safe) (rcb k : Nat) : (s.chargeSrf rcb k).Safe := h.same rfl rfl
theorem State.Safe.refundSrf (h : s.Safe) (rcb k : Nat) : (s.refundSrf rcb k).Safe := h.same rfl rfl
theorem State.Safe.refundCtx (h : s.Safe) (rcb : Nat) : (s.refundCtx rcb).Safe := h.same rfl rfl
theorem State.Safe.gcRegions (h : s.Safe) : s.gcRegions.Safe := .ite h (h.same rfl rfl)

theorem State.Safe.freeStream (h : s.Safe) (n d : Nat) : (s.freeStream n d).Safe := (h.refundSrf _ _).updSc n (fun _ => rfl)
theorem State.Safe.releaseStream (h : s.Safe) (n d : Nat) : (s.releaseStream n d).Safe := .ite (h.updSc n (fun _ => rfl)) (h.freeStream n d)

theorem State.Safe.releaseStreams (h : s.Safe) (n : Nat) (o : Owner) : (s.releaseStreams n o).Safe :=
  h.foldl _ (fun _ _ hu => hu.releaseStream n _)

theorem State.Safe.cancelWaiting (h : s.Safe) (n : Nat) (o : Owner) : (s.cancelWaiting n o).Safe := h.updSc n (fun _ => rfl)

theorem State.Safe.setBarrier (h : s.Safe) (n k : Nat) (b : Barrier) : (s.setBarrier n k b).Safe :=
  .ite (h.updSc n (fun _ => rfl)) (h.same rfl rfl)

theorem State.Safe.endMember (h : s.Safe) (n : Nat) (m : Member) : (s.endMember n m).Safe :=
  .ite h (.ite h (.ite (h.setBarrier _ _ _) (h.setBarrier _ _ _)))

theorem State.Safe.endMembers (h : s.Safe) (n : Nat) (ms : List Member) : (s.endMembers n ms).Safe :=
  h.foldl ms (fun _ m hu => hu.endMember n m)

/-! ## Accesses of engines, walkers and hubs -/

theorem State.Safe.countMiss (h : s.Safe) (n : Nat) (ps : List Place) : (s.countMiss n ps).Safe :=
  have h1 : (if ps.contains .none then s.count (homeStack n) ctrXlate 1 else s).Safe := .ite (h.count _ _ _) h
  .ite (h1.count _ _ _) h1

theorem State.Safe.touchAll (h : s.Safe) (n : Nat) (sc : Bool) (root : Option Word) (vas : List Nat) :
    (s.touchAll n sc root vas).Safe :=
  h.foldl _ (fun _ _ hu => hu.touch _ _ _ _)

theorem State.Safe.askAll (h : s.Safe) (port : Nat) (as : List Nat) : (s.askAll port as).Safe :=
  h.foldl _ (fun _ _ hu => .ite hu (hu.performEarlier _ _ _))

theorem State.Safe.agentRead (h : s.Safe) (v : Via) (vas : List (Option Nat)) : (s.agentRead v vas).2.Safe :=
  ((((h.askAll _ _).touchAll _ _ _ _).foldl _ (fun _ _ hu => .ite hu (hu.readEffect _ _))).countMiss _ _).same rfl rfl

theorem State.Safe.addFar (h : s.Safe) (o : FarOp) : (s.addFar o).Safe := h.same rfl rfl

theorem State.Safe.agentWrite (h : s.Safe) (v : Via) (vs : List (Nat × Byte)) : (s.agentWrite v vs).Safe :=
  ((((h.askAll _ _).touchAll _ _ _ _).foldl _ (fun _ _ hu => hu.write _ _ _)).countMiss _ _).foldl _ (fun _ _ hu => hu.addFar _)

theorem State.Safe.agentAcc (h : s.Safe) (v : Via) (va op fmt src : Nat) : (s.agentAcc v va op fmt src).2.Safe := by
  have ht := h.touchAll v.sc (!v.dce) v.root [va]
  unfold State.agentAcc
  dsimp only
  split
  · split
    · exact ht
    · exact (ht.performEarlier _ _ _).accumulate _ _ _ _
  · exact (ht.useFree _).addFar _
  · exact ht.count _ _ _
  · exact ht.count _ _ _

theorem State.Safe.incFlag (h : s.Safe) (n : Nat) (root : Option Word) (va : Nat) : (s.incFlag n root va).Safe := h.agentAcc _ _ _ _ _

/-! ## Futures -/

theorem State.Safe.newFut (h : s.Safe) (k : Nat) (f : Fut) : (s.newFut k f).Safe := h.same rfl rfl
theorem State.Safe.makeReady (h : s.Safe) (k : Nat) : (s.makeReady k).Safe := h.same rfl rfl
theorem State.Safe.spawnAt (h : s.Safe) (k : Nat) (f : Fut) : (s.spawnAt k f).Safe := (h.newFut k f).makeReady k

theorem State.Safe.linkKid (h : s.Safe) (k : Nat) (p : Holder) : (s.linkKid k p).Safe :=
  match p with
  | .nobody => h
  | .task _ => h.modFut _ _
  | .ctx _ _ => h.modCtx _ _ _

theorem State.Safe.unlinkKid (h : s.Safe) (k : Nat) (p : Holder) : (s.unlinkKid k p).Safe :=
  match p with
  | .nobody => h
  | .task _ => .ite (h.modFut _ _) h
  | .ctx _ _ => h.modCtx _ _ _

theorem State.Safe.unhold (h : s.Safe) (k : Nat) : (s.unhold k).Safe := (h.unlinkKid _ _).modFut _ _
theorem State.Safe.freeFut (h : s.Safe) (k : Nat) : (s.freeFut k).Safe := (h.unhold k).same rfl rfl

theorem State.Safe.dropCount (h : s.Safe) (k : Nat) : (s.dropCount k).Safe :=
  have ht := h.modFut k (fun x => { x with count := x.count - 1 })
  .ite ht (.ite (ht.freeFut k) (.ite ((ht.freeFut k).same rfl rfl) (.ite (ht.modFut _ _) ht)))

theorem State.Safe.dropKids (h : s.Safe) (kids : List Nat) : (s.dropKids kids).Safe :=
  h.foldl kids (fun _ _ hu => .ite ((hu.unhold _).dropCount _) hu)

/-! ## Launches and graphs -/

theorem State.Safe.writeBlock (h : s.Safe) (flag value status done lost faulted firstLost firstFault : Nat) :
    (s.writeBlock flag value status done lost faulted firstLost firstFault).Safe :=
  .ite h ((h.write _ _ _).write _ _ _)

theorem State.Safe.leaveMotion (h : s.Safe) (n : Nat) (o : Owner) (f : Fut) : (s.leaveMotion n o f).Safe := .ite h (h.same rfl rfl)

theorem State.Safe.tryLaunch (h : s.Safe) (l : Nat) : (s.tryLaunch l).Safe := by
  unfold State.tryLaunch
  split
  · exact h
  · exact .ite h ((h.writeBlock _ _ _ _ _ _ _ _).same rfl rfl)

theorem State.Safe.tryLaunches (h : s.Safe) : s.tryLaunches.Safe := h.foldl _ (fun _ _ hu => .ite hu (hu.tryLaunch _))

theorem State.Safe.graphLaunchDone (h : s.Safe) (l k result : Nat) : (s.graphLaunchDone l k result).Safe := by
  unfold State.graphLaunchDone
  split
  · exact h
  · exact ((h.writeBlock _ _ _ _ _ _ _ _).same (by rfl) (by rfl)).dropCount _

theorem State.Safe.launchEnd (h : s.Safe) (f : Fut) (how : Ended) : (s.launchEnd f how).Safe := by
  unfold State.launchEnd
  split
  · exact h
  · exact (h.same (by rfl) (by rfl)).tryLaunch _

theorem State.Safe.modNode (h : s.Safe) (g i : Nat) (f : Node → Node) : (s.modNode g i f).Safe := h.same rfl rfl

theorem State.Safe.sendEdges (h : s.Safe) (g : Nat) (ns : List Nat) (k : EdgeKind) : (s.sendEdges g ns k).Safe :=
  h.foldl ns (fun _ _ hu => hu.modNode _ _ _)

theorem State.Safe.payGraph (h : s.Safe) (o : Owed) : (s.payGraph o).Safe := by
  have ht : (if o.flag = 0 then s else s.incFlag o.sc (s.sc o.sc).root o.flag).Safe := .ite h (h.incFlag _ _ _)
  unfold State.payGraph
  dsimp only
  split
  · exact ht.graphLaunchDone _ _ _
  · exact ht

theorem State.Safe.payOwed (h : s.Safe) : s.payOwed.Safe := (h.same (by rfl) (by rfl)).foldl _ (fun _ o hu => .ite (hu.payGraph o) hu)

theorem State.Safe.finishGraph (h : s.Safe) (g : Nat) : (s.finishGraph g).Safe := by
  unfold State.finishGraph
  split
  · exact h
  · exact .ite (.ite ((h.modFut _ _).payGraph _) (h.same rfl rfl)) h

theorem State.Safe.endNode (h : s.Safe) (g i : Nat) (k0 : EdgeKind) (k1 : Option EdgeKind) (fault : Option Nat) :
    (s.endNode g i k0 k1 fault).Safe := by
  unfold State.endNode
  refine State.Safe.finishGraph ?_ _
  split
  · exact ((h.same (by rfl) (by rfl)).sendEdges _ _ _).sendEdges _ _ _
  · exact (h.same (by rfl) (by rfl)).sendEdges _ _ _

theorem State.Safe.nodeEnd (h : s.Safe) (f : Fut) (fault : Option Nat) : (s.nodeEnd f fault).Safe := by
  unfold State.nodeEnd
  split
  · exact h
  · exact .ite (h.endNode _ _ _ _ _) h

theorem State.Safe.signal (h : s.Safe) (g i : Nat) (es : List Nat) : (s.signal g i es).Safe := (h.modNode _ _ _).sendEdges _ _ _

theorem State.Safe.keepSignal (h : s.Safe) (k n c : Nat) (x : Ctx) : (s.keepSignal k n c x).Safe := by
  unfold State.keepSignal
  split
  · split
    · exact h
    · exact h.same rfl rfl
  · exact h

theorem State.Safe.deliverLate (h : s.Safe) : s.deliverLate.Safe :=
  (h.same (by rfl) (by rfl)).foldl _ (fun _ _ hu => .ite (hu.sendEdges _ _ _) hu)

/-! ## The ends of activities and tasks -/

theorem State.Safe.dropReplies (h : s.Safe) (n : Nat) (o : Owner) : (s.dropReplies n o).Safe := h.same rfl rfl
theorem State.Safe.orphan (h : s.Safe) (n c : Nat) : (s.orphan n c).Safe :=
  State.Safe.same (h.updSc n (f := fun t =>
      { t with entries := t.entries.map (fun e => { e with owner := (Owner.ctx c).gone e.owner }),
               runs := (t.runs.filter (fun p => !(p.2.owner == Owner.ctx c && p.2.phase == .retired))).map (fun p =>
                 (p.1, { p.2 with owner := (Owner.ctx c).gone p.2.owner })) })
    (fun _ => rfl)) rfl rfl

theorem State.Safe.vacate (h : s.Safe) (n c : Nat) : (s.vacate n c).Safe := ((h.modCtx _ _ _).updSc _ (by intro _; rfl)).disown _ _

theorem State.Safe.endActivity (h : s.Safe) (n c : Nat) : (s.endActivity n c).Safe :=
  ((((((h.cancelWaiting _ _).endMembers _ _).dropKids _).releaseStreams _ _).dropReplies _ _).orphan _ _).vacate _ _

theorem State.Safe.uncharge (h : s.Safe) (k : Nat) : (s.uncharge k).Safe := by
  have ht := (h.refundCtx (s.fut k).rcb).modFut k (fun x => { x with charged := false })
  refine .ite ?_ h
  split
  · exact ht.same rfl rfl
  · exact ht

theorem State.Safe.refundTask (h : s.Safe) (k : Nat) : (s.refundTask k).Safe := ((h.refundSrf _ _).modFut _ _).uncharge _

theorem State.Safe.deschedule (h : s.Safe) (n c : Nat) : (s.deschedule n c).Safe := ((h.uncharge _).vacate n c).same rfl rfl

theorem State.Safe.stopRuns (h : s.Safe) (n : Nat) (o : Owner) : (s.stopRuns n o).Safe := h.updSc n (fun _ => rfl)
theorem State.Safe.dropQueues (h : s.Safe) (n : Nat) (o : Owner) : (s.dropQueues n o).Safe := h.updSc n (fun _ => rfl)

theorem State.Safe.endTask (h : s.Safe) (k n : Nat) (x : Ctx) (st : FutSt) (status : Nat) (result : Word) (how : Ended) :
    (s.endTask k n x st status result how).Safe :=
  have h1 := (((h.modFut k _).cancelWaiting n _).leaveMotion n _ _).nodeEnd _ _
  have h2 := (((h1.endMembers n _).dropKids _).releaseStreams n _)
  have h3 := ((h2.dropQueues n _).dropReplies n _).refundTask k
  (State.Safe.ite ((h3.unhold k).dropCount k) h3).launchEnd _ _

theorem State.Safe.endTaskAt (h : s.Safe) (n c : Nat) (st : FutSt) (status : Nat) (result : Word) (how : Ended) :
    (s.endTaskAt n c st status result how).Safe :=
  (h.endTask _ _ _ _ _ _ _).vacate _ _

theorem State.Safe.reclaimTask (h : s.Safe) (k n : Nat) (x : Ctx) : (s.reclaimTask k n x).Safe :=
  have h1 := ((((h.cancelWaiting n _).stopRuns n _).leaveMotion n _ _).dropQueues n _).releaseStreams n _
  have h2 := ((h1.endMembers n _).nodeEnd _ _).dropKids _
  State.Safe.launchEnd ((((h2.dropReplies n _).refundTask k).freeFut k).same (by rfl) (by rfl)) _ _

theorem State.Safe.dropNode (h : s.Safe) (j : Nat) : (s.dropNode j).Safe := ((h.modFut _ _).unhold _).dropCount _

theorem State.Safe.reclaimGraph (h : s.Safe) (k : Nat) : (s.reclaimGraph k).Safe := by
  unfold State.reclaimGraph
  split
  · exact h.freeFut k
  · refine (h.foldl _ (fun u x hu => ?_)).freeFut k
    split
    · exact hu.dropNode _
    · exact hu

theorem State.Safe.reclaimAt (h : s.Safe) (n c : Nat) : (s.reclaimAt n c).Safe := ((h.keepSignal _ _ _ _).reclaimTask _ _ _).vacate _ _

theorem State.Safe.reclaimNow (h : s.Safe) (k : Nat) : (s.reclaimNow k).Safe := by
  refine .ite (h.reclaimGraph k) ?_
  split
  · exact h.reclaimTask _ _ _
  · exact h.reclaimAt _ _
  · exact h.reclaimTask _ _ _

theorem State.Safe.reclaimAll (h : s.Safe) (fuel : Nat) : (State.reclaimAll fuel s).Safe := by
  induction fuel generalizing s with
  | zero => exact h
  | succ fuel ih =>
    unfold State.reclaimAll
    split
    · exact h
    · exact ih (h.reclaimNow _)

/-! ## Records and entries -/

theorem State.Safe.readParts (h : s.Safe) (n c m : Nat) (l : List Nat) : (State.readParts n c m l s).Safe := by
  induction l generalizing s with
  | nil => exact h
  | cons a as ih =>
    have ht := h.touch n true (s.sc n).root a
    unfold State.readParts
    dsimp only
    split
    · exact ht
    · exact ih (.ite ht ((ht.performEarlier _ _ _).noteRead _ _))

theorem State.Safe.readRec (h : s.Safe) (n c a : Nat) : (s.readRec n c a).Safe := by
  have ht : (if thas (s.sc n).recs a then s else s.readParts n c 16 ((List.range 12).map (fun i => a + 16 * i))).Safe :=
    .ite h (h.readParts _ _ _ _)
  refine .ite h ?_
  cases s.recBytes n c a with
  | error => exact ht
  | ok => exact ht.updSc n (fun _ => rfl)

theorem State.Safe.readRecs (h : s.Safe) (n c : Nat) (l : List Nat) : (State.readRecs n c l s).Safe := by
  induction l generalizing s with
  | nil => exact h
  | cons a as ih =>
    unfold State.readRecs
    dsimp only
    split
    · exact ih (h.readRec _ _ _)
    · exact h.readRec _ _ _

theorem State.Safe.windowWalk (h : s.Safe) (n : Nat) (i : Issue) : (s.windowWalk n i).Safe := .ite (h.touchAll _ _ _ _) h

theorem State.Safe.enter (h : s.Safe) (n : Nat) (o : Owner) (bars : List (Nat × Nat)) (i : Issue) : (s.enter n o bars i).Safe :=
  State.Safe.same (h.updSc n (f := fun t =>
    { t with entries := t.entries ++ [{ t.entryOf o bars i with seq := s.seq }], nextEntry := t.nextEntry + 1 })
    (fun _ => rfl)) rfl rfl

theorem State.Safe.issue (h : s.Safe) (i : Issue) {f : State → State} (hf : ∀ u, u.Safe → (f u).Safe) : (s.issue i f).Safe := by
  refine .ite (h.block _ _) ?_
  have ht := h.windowWalk s.cur.sc i
  split
  · exact ht.trap _ _
  · exact .ite (hf _ (ht.enter _ _ _ _)) (ht.block _ _)

theorem State.Safe.streamOp (h : s.Safe) (rs : List (BitVec 5)) {reads : State → State}
    (prep : State → Except (Nat × Word) Issue) {f : State → State} (hr : (reads s).Safe) (hf : ∀ u, u.Safe → (f u).Safe) :
    SafeNext (streamOp rs reads prep f s) := by
  refine h.ctl rs (h.afterAccesses ?_)
  split
  · exact (State.Safe.ite h hr).trap _ _
  · exact hr.issue _ hf

theorem State.Safe.recRead (h : s.Safe) (as : List (BitVec 5)) : (recRead as s).Safe := h.readRecs _ _ _

/-! ## Kernels -/

theorem State.Safe.readPieces (h : s.Safe) (va k : Nat) : (s.readPieces va k).Safe := h.readParts _ _ _ _
theorem State.Safe.placeImage (h : s.Safe) (a : Nat) (x : List Byte) (bs : List (List W32)) : (s.placeImage a x bs).Safe :=
  h.updSc _ (fun _ => rfl)

theorem State.Safe.execKload (h : s.Safe) (a b : BitVec 5) : SafeNext (execKload a b s) := by
  refine h.ctl _ (.ite (h.block _ _) (.ite (h.trap _ _) ?_))
  split
  · exact (h.readPieces _ _).trap _ _
  · refine .ite ((h.readPieces _ _).trap _ _) ?_
    split
    · exact (h.readPieces _ _).trap _ _
    · have hr := h.readPieces (s.g b).toNat (1 + hdrCount (s.piece (s.g b).toNat))
      dsimp only
      split
      · exact hr.trap _ _
      · split
        · exact hr.trap _ _
        · exact (hr.placeImage _ _ _).ret _ _

theorem State.Safe.execKfree (h : s.Safe) (a : BitVec 5) : SafeNext (execKfree a s) := by
  refine h.ctl _ ?_
  dsimp only
  split
  · exact h.trap _ _
  · exact .ite (h.updSc _ (by intro _; rfl)).fin (h.updSc _ (by intro _; rfl)).fin

theorem State.Safe.execKinfo (h : s.Safe) (a b : BitVec 5) : SafeNext (execKinfo a b s) := by
  refine h.ctl _ ?_
  split
  · exact h.trap _ _
  · exact h.ret _ _

theorem State.Safe.execKrun (h : s.Safe) (a b t : BitVec 5) (d : BitVec 1) : SafeNext (execKrun a b t d s) := by
  unfold Machine.execKrun
  refine h.ctlFirst _ ?_
  dsimp only
  refine SafeNext.ite (h.trap _ _) (h.ctl _ ?_)
  split
  · exact h.trap _ _
  · refine .ite (h.trap _ _) ?_
    split
    · exact h.trap _ _
    · exact h.afterAccesses (h.issue _ (fun _ hu => (hu.setRun _ _ _).fin))

theorem State.Safe.execKrq (h : s.Safe) (a b t : BitVec 5) : SafeNext (execKrq a b t s) := by
  unfold Machine.execKrq
  refine h.ctl _ (.ite (h.trap _ _) ?_)
  split
  · exact h.trap _ _
  · refine .ite (h.trap _ _) ?_
    split
    · exact h.block _ _
    · exact (h.setRun _ _ _).ret _ _

end Sys2Proof.Machine
end

section
/-!
SUPPORT. Kernel runs, operations of the fabric, links and received frames keep the machine safe.
-/

namespace Sys2Proof.Machine

variable {s : State}

/-! ## Kernel runs -/

theorem State.Safe.pendTrap (h : s.Safe) (n : Nat) (o : Owner) (cause : Nat) (tval : Word) : (s.pendTrap n o cause tval).Safe := by
  unfold State.pendTrap
  dsimp only
  split
  · exact .ite h (h.modCtx _ _ _)
  · refine .ite ?_ h
    split
    · exact h.modCtx _ _ _
    · exact h.same rfl rfl
    · exact h

theorem State.Safe.setLengths (h : s.Safe) (n : Nat) (r : Run) (f : Port → Stream → Nat) : (s.setLengths n r f).Safe :=
  h.foldl _ (fun _ _ hu => .ite (hu.setStream _ _ _) hu)

theorem State.Safe.retireRun (h : s.Safe) (n k : Nat) (r : Run) : (s.retireRun n k r).Safe :=
  have ht := h.updSc n (f := fun t => t.dropEntry k) (fun _ => rfl)
  .ite (ht.setRun _ _ _) (ht.updSc n (fun _ => rfl))

theorem State.Safe.discardRun (h : s.Safe) (n k : Nat) : (s.discardRun n k).Safe := h.updSc n (fun _ => rfl)

theorem State.Safe.faultRun (h : s.Safe) (n k : Nat) (r : Run) (fs : List (Nat × Nat)) : (s.faultRun n k r fs).Safe :=
  ((h.setLengths _ _ _).retireRun _ _ _).pendTrap _ _ _ _

/-- The operations of a bundle keep a state safe when each of them does. -/
theorem State.Safe.issueSyls {ex : Instr → State → Result} (hex : ∀ i u, u.Safe → SafeNext (ex i u)) (h : s.Safe) (l : List Nat) :
    SafeNext (issueSyls ex l s) := by
  induction l generalizing s with
  | nil => exact h
  | cons j js ih =>
    have ht := h.setCur { s.cur with syl := j }
    unfold Machine.issueSyls
    dsimp only
    split
    · exact ih ht
    · next i _ =>
      have hi := hex i _ ht
      split
      · next u hu =>
        rw [hu] at hi
        exact ih hi
      · trivial
      · trivial

theorem State.Safe.closeBundle (h : s.Safe) (n k : Nat) {t : State} (ht : t.Safe) : (s.closeBundle n k t).Safe :=
  .ite (h.modRun _ _ _) (.ite (h.faultRun _ _ _ _) (ht.setRun _ _ _))

theorem State.Safe.issueBundle {ex : Instr → State → Result} (hex : ∀ i u, u.Safe → SafeNext (ex i u)) (h : s.Safe) (n k : Nat) :
    SafeNext (s.issueBundle ex n k) := by
  have hs := State.Safe.issueSyls hex ((h.setRun n k ((s.run n k).landAll.beginBundle (s.bundleAt n (s.run n k)))).setCur
    { s.cur with sc := n, run := k }) (List.range 14)
  unfold State.issueBundle
  dsimp only
  split
  · next u hu =>
    rw [show Machine.issueSyls ex (List.range 14) _ = .next u from hu] at hs
    exact h.closeBundle n k hs
  · trivial
  · trivial

theorem State.Safe.runCycle {ex : Instr → State → Result} (hex : ∀ i u, u.Safe → SafeNext (ex i u)) (h : s.Safe) (n k : Nat) :
    SafeNext (s.runCycle ex n k) := by
  unfold State.runCycle
  dsimp only
  refine .ite h (.ite (h.discardRun n k) (.ite ?_ (.ite (h.modRun n k _) ((h.modRun n k _).issueBundle hex n k))))
  exact State.Safe.ite h (h.modRun n k _)

theorem State.Safe.startRun (h : s.Safe) (n k f q : Nat) : (s.startRun n k f q).Safe := (h.modRun _ _ _).updSc n (fun _ => rfl)

theorem State.Safe.execKernelRunStart (h : s.Safe) (n e : Nat) : SafeNext (execKernelRunStart n e s) := by
  unfold Machine.execKernelRunStart
  split
  · exact h
  · exact State.Safe.ite h (h.startRun _ _ _ _)

theorem State.Safe.writeInternal (h : s.Safe) (a size : Nat) : (s.writeInternal a size).Safe := (h.write _ _ _).useFree _

theorem State.Safe.writeSave (h : s.Safe) (n : Nat) (r : Run) : (s.writeSave n r).Safe :=
  h.foldl _ (fun _ _ hu => (hu.foldl _ (fun _ _ hv => hv.write _ _ _)).foldl _ (fun _ _ hv => hv.writeInternal _ _))

theorem State.Safe.readInternal (h : s.Safe) (a size : Nat) : (s.readInternal a size).Safe := (h.noteRead _ _).useFree _

theorem State.Safe.readSave (h : s.Safe) (n : Nat) (r : Run) : (s.readSave n r).Safe :=
  h.foldl _ (fun _ _ hu => (hu.foldl _ (fun _ _ hv => hv.noteRead _ _)).foldl _ (fun _ _ hv => hv.readInternal _ _))

theorem State.Safe.hasPreempted (h : s.Safe) (n : Nat) (o : Option Nat) : (s.hasPreempted n o).Safe :=
  match o with
  | some _ => h.modRun _ _ _
  | none => h

theorem State.Safe.dropMark (h : s.Safe) (n k : Nat) : (s.dropMark n k).Safe := by
  unfold State.dropMark
  refine State.Safe.modRun ?_ n k _
  split
  · exact .ite (h.modRun _ _ _) h
  · exact h

theorem State.Safe.execPreemption (h : s.Safe) (n k : Nat) : SafeNext (execPreemption n k s) :=
  State.Safe.ite h (.ite (h.dropMark n k) (.ite h (.ite (h.setRun _ _ _) (((h.writeSave _ _).setRun _ _ _).hasPreempted _ _))))

theorem State.Safe.execRunRestore (h : s.Safe) (n k : Nat) : SafeNext (execRunRestore n k s) := by
  refine State.Safe.ite h ?_
  split
  · exact h
  · exact (h.readSave _ _).setRun _ _ _

theorem State.Safe.noteSince (h : s.Safe) (n k : Nat) : (s.noteSince n k).Safe := .ite h (h.setRun _ _ _)

theorem State.Safe.noteWaits (h : s.Safe) : s.noteWaits.Safe :=
  h.foldl _ (fun _ _ hu => hu.foldl _ (fun _ _ hv => hv.noteSince _ _))

theorem State.Safe.markGroup (h : s.Safe) (n e : Nat) : (s.markGroup n e).Safe := by
  unfold State.markGroup
  split
  · exact h
  · exact (h.setRun _ _ _).foldl _ (fun _ _ hu => hu.modRun _ _ _)

theorem State.Safe.markRipe (h : s.Safe) (n : Nat) : (s.markRipe n).Safe := by
  refine h.foldl _ (fun u _ hu => ?_)
  split
  · exact hu.markGroup _ _
  · exact hu

/-! ## Operations of the fabric -/

theorem State.Safe.fcount (h : s.Safe) (k n : Nat) : (s.fcount k n).Safe := h.same rfl rfl
theorem State.Safe.modFab (h : s.Safe) (f : Fabric → Fabric) : (s.modFab f).Safe := h.same rfl rfl
theorem State.Safe.modSession (h : s.Safe) (q : Nat) (f : Session → Session) : (s.modSession q f).Safe := h.modFab _
theorem State.Safe.enqueue (h : s.Safe) (fs : List Frame) : (s.enqueue fs).Safe := h.modFab _
theorem State.Safe.addFlag (h : s.Safe) (a v : Nat) : (s.addFlag a v).Safe := .ite (h.accumulate _ _ _ _) (h.setHlth _)

theorem State.Safe.accRange (h : s.Safe) (op fmt a : Nat) (bs : List Byte) (k : Nat) : (s.accRange op fmt a bs k).Safe := by
  induction k generalizing s a bs with
  | zero => exact h
  | succ k ih => exact ih (h.accumulate _ _ _ _) _ _

theorem State.Safe.accBytesAt (h : s.Safe) (op fmt a : Nat) (bs : List Byte) : (s.accBytesAt op fmt a bs).Safe := h.accRange _ _ _ _ _

theorem State.Safe.answer (h : s.Safe) (q : Nat) (fs : List Frame) : (s.answer q fs).Safe := by
  unfold State.answer
  split
  · exact h
  · exact (h.modFab _).enqueue _

theorem State.Safe.sendAck (h : s.Safe) (q op status : Nat) : (s.sendAck q op status).Safe := h.answer _ _

theorem State.Safe.enterArrival (h : s.Safe) (a : HeldArrival) : (s.enterArrival a).Safe := by
  have ht : (if s.liveSc a.sc then s.modSc a.sc (fun t => { t with arrivals := t.arrivals ++ [a.arrival] }) else s.fcount 8 1).Safe :=
    .ite (h.updSc _ (fun _ => rfl)) (h.fcount _ _)
  unfold State.enterArrival
  dsimp only
  split
  · exact ht.sendAck _ _ _
  · exact ht

theorem State.Safe.arrive (h : s.Safe) (a : HeldArrival) : (s.arrive a).Safe := .ite (h.enterArrival a) (h.modFab _)

theorem State.Safe.admitArrivals (h : s.Safe) : s.admitArrivals.Safe := .ite h ((h.modFab _).foldl _ (fun _ a hu => hu.arrive a))

theorem State.Safe.callHandler (h : s.Safe) (x : Option Handler) (src : Nat) : (s.callHandler x src).Safe :=
  match x with
  | some _ => h.arrive _
  | none => h

theorem State.Safe.performHere (h : s.Safe) (op : Nat) (r : Remote) (bs : List Byte) : (s.performHere op r bs).Safe :=
  have ht : (if op = 4 then s.accBytesAt r.op r.ty (localOf r.addr) bs
      else if op = 0 || op = 1 then s.write (localOf r.addr) bs else s).Safe :=
    .ite (h.accBytesAt _ _ _ _) (.ite (h.write _ _ _) h)
  State.Safe.callHandler (.ite (ht.addFlag _ _) (.ite ht (ht.addFlag _ _))) _ _

theorem State.Safe.modEntry (h : s.Safe) (n e : Nat) (f : Entry → Entry) : (s.modEntry n e f).Safe := h.updSc n (fun _ => rfl)

theorem State.Safe.opDone (h : s.Safe) (k : Nat) (o : RemoteOp) (bs : List Byte) : (s.opDone k o bs).Safe := (h.modEntry _ _ _).modFab _

theorem State.Safe.abandon (h : s.Safe) (k : Nat) : (s.abandon k).Safe := by
  unfold State.abandon
  split
  · exact h
  · exact ((h.opDone _ _ _).count _ _ _).modFab _

theorem State.Safe.abandonAll (h : s.Safe) (f : Nat → Bool) : (s.abandonAll f).Safe := h.foldl _ (fun _ k hu => hu.abandon k)
theorem State.Safe.markDead (h : s.Safe) (q : Nat) : (s.markDead q).Safe := .ite h (((h.modFab _).abandonAll _).modFab _)

theorem State.Safe.sendOp (h : s.Safe) (n e op : Nat) (r : Remote) (bs : List Byte) (len : Nat) (far : Option Nat) :
    (s.sendOp n e op r bs len far).Safe := by
  refine .ite (.ite ?_ ?_) ?_
  · exact .ite (((h.performHere _ _ _).noteRead _ _).modEntry _ _ _) (h.performHere _ _ _)
  · exact .ite (((h.fcount _ _).modEntry _ _ _).useFree _) (h.fcount _ _)
  · split
    · exact (h.count _ _ _).modEntry _ _ _
    · exact .ite h (((h.modFab _).enqueue _).modEntry _ _ _)

/-! ## The calendar and the links -/

theorem State.Safe.startClock (h : s.Safe) (f : Frame) (slot : Nat) : (s.startClock f slot).Safe := by
  unfold State.startClock
  split
  · exact h.modFab _
  · exact h

theorem State.Safe.assign (h : s.Safe) (n : Nat) (qs : List QFrame) : (State.assign n qs s).2.Safe := by
  induction qs generalizing s with
  | nil => exact h
  | cons q qs ih =>
    unfold State.assign
    split
    · exact ih h
    · split
      · exact ih (h.startClock _ _)
      · exact ih (h.startClock _ _)
      · exact ih h

theorem State.Safe.beginSlot (h : s.Safe) (n : Nat) : (s.beginSlot n).Safe :=
  ((h.foldl _ (fun _ k hu => hu.abandon k)).assign _ _).modFab _

theorem State.Safe.failLane (h : s.Safe) (l : Nat) : (s.failLane l).Safe := ((h.same (by rfl) (by rfl)).failPort _).setHlth _

theorem State.Safe.endSlot (h : s.Safe) : s.endSlot.Safe := ((h.fcount _ _).modFab _).foldl _ (fun _ _ hu => hu.failLane _)

theorem State.Safe.emitFrame (h : s.Safe) (lane : Nat) (l : Link) (x : Hop) (f : Option Frame) : (s.emitFrame lane l x f).Safe :=
  (h.modFab _).emit _

theorem State.Safe.sendNew (h : s.Safe) (lane : Nat) (l : Link) (q : QFrame) : (s.sendNew lane l q).Safe := h.emitFrame _ _ _ _

theorem State.Safe.unqueue (h : s.Safe) (q : QFrame) : (s.unqueue q).Safe := by
  unfold State.unqueue
  split
  · exact h.modFab _
  · exact h.modFab _

theorem State.Safe.transmit (h : s.Safe) (lane : Nat) (l : Link) : (s.transmit lane l).Safe := by
  unfold State.transmit
  split
  · split
    · exact (h.fcount _ _).emitFrame _ _ _ _
    · exact h.emitFrame _ _ _ _
  · split
    · exact (h.unqueue _).sendNew _ _ _
    · exact h.emitFrame _ _ _ _

theorem State.Safe.hopIn (h : s.Safe) (lane : Nat) (x : Hop) : (s.hopIn lane x).Safe := by
  unfold State.hopIn
  split
  · exact h
  · exact (h.modFab _).foldl _ (fun _ _ hu => hu.markDead _)

theorem State.Safe.deliver (h : s.Safe) (x : RxItem) : (s.deliver x).Safe := h.modFab _

theorem State.Safe.inOrder (h : s.Safe) (lane : Nat) (l : Link) (x : Hop) (f : Frame) : (s.inOrder lane l x f).Safe := by
  unfold State.inOrder
  split
  · exact (h.modFab _).fcount _ _
  · exact .ite ((h.modFab _).fcount _ _) (.ite ((h.modFab _).deliver _) ((h.modFab _).deliver _))

theorem State.Safe.receiveAt (h : s.Safe) (lane : Nat) (x : RxFrame) : (s.receiveAt lane x).Safe := by
  have ht := h.hopIn lane x.hop
  unfold State.receiveAt
  split
  · exact h
  · refine .ite ((h.modFab _).fcount _ _) (.ite ht (.ite (ht.fcount _ _) ?_))
    split
    · exact ht
    · exact .ite (ht.inOrder _ _ _ _) ht

theorem State.Safe.framePosition (h : s.Safe) (lane : Nat) (rx : Option RxFrame) : (s.framePosition lane rx).Safe := by
  unfold State.framePosition
  split
  · refine .ite ?_ h
    cases rx with
    | none => exact h.transmit _ _
    | some x => exact (h.transmit _ _).receiveAt _ _
  · exact h

theorem State.Safe.takeRx (h : s.Safe) (x : RxItem) {f : State → State} (hf : ∀ u, u.Safe → (f u).Safe) : (s.takeRx x f).Safe :=
  .ite (hf _ (h.modFab _)) h

theorem State.Safe.execRelayFrame (h : s.Safe) (lane : Nat) (f : Frame) : SafeNext (execRelayFrame lane f s) :=
  h.takeRx _ (fun _ hu => .ite hu (.ite (hu.fcount _ _) ((hu.modFab _).fcount _ _)))

theorem State.Safe.execLivenessTimeout (h : s.Safe) (q : Nat) : SafeNext (execLivenessTimeout q s) := by
  unfold Machine.execLivenessTimeout
  split
  · exact State.Safe.ite (h.markDead q) h
  · exact h

/-! ## Frames received -/

theorem State.Safe.authFail (h : s.Safe) (q : Nat) (x : Session) : (s.authFail q x).Safe :=
  .ite ((((h.modSession _ _).fcount _ _).abandonAll _).setHlth _) ((h.modSession _ _).fcount _ _)

theorem State.Safe.putInOp (h : s.Safe) (f : Frame) (o : InOp) : (s.putInOp f o).Safe := h.modFab _

theorem State.Safe.afterData (h : s.Safe) (f : Frame) (d : List Byte) (ack : Option (Nat × Nat)) : (s.afterData f d ack).Safe := by
  have ht : (if f.op = 5 then s.addFlag (localOf (descWord d 0)) (descWord d 3) else if descWord d 0 = 0 then s
      else s.addFlag (localOf (descWord d 0)) 1).Safe :=
    .ite (h.addFlag _ _) (.ite h (h.addFlag _ _))
  refine .ite (ht.arrive _) ?_
  cases ack with
  | some _ => exact ht.sendAck _ _ _
  | none => exact ht

theorem State.Safe.getData (h : s.Safe) (f : Frame) (bs : List Byte) : (s.getData f bs).Safe := h.answer _ _

theorem State.Safe.finishOp (h : s.Safe) (f : Frame) (o : InOp) : (s.finishOp f o).Safe := by
  unfold State.finishOp
  cases o.desc with
  | some d => exact .ite (((h.noteRead _ _).afterData _ _ _).getData _ _ |>.sendAck _ _ _) (h.afterData _ _ _)
  | none => exact .ite (((h.noteRead _ _).getData _ _).sendAck _ _ _) (h.sendAck _ _ _)

theorem State.Safe.tryOp (h : s.Safe) (f : Frame) (o : InOp) : (s.tryOp f o).Safe := .ite ((h.putInOp _ _).finishOp _ _) (h.putInOp _ _)

theorem State.Safe.rejectOp (h : s.Safe) (f : Frame) (o : InOp) : (s.rejectOp f o).Safe :=
  .ite (h.putInOp _ _) (((h.putInOp _ _).fcount _ _).sendAck _ _ _)

theorem State.Safe.performBytes (h : s.Safe) (f : Frame) (bs : List Byte) : (s.performBytes f bs).Safe :=
  .ite (h.accBytesAt _ _ _ _) (.ite h (h.write _ _ _))

theorem State.Safe.dataIn (h : s.Safe) (f : Frame) (bs : List Byte) : (s.dataIn f bs).Safe :=
  .ite (h.rejectOp _ _) (.ite (h.putInOp _ _) ((h.performBytes _ _).tryOp _ _))

theorem State.Safe.descIn (h : s.Safe) (f : Frame) (bs : List Byte) : (s.descIn f bs).Safe :=
  .ite (h.rejectOp _ _) ((h.foldl _ (fun _ _ hu => hu.performBytes _ _)).tryOp _ _)

theorem State.Safe.getIn (h : s.Safe) (f : Frame) (bs : List Byte) : (s.getIn f bs).Safe := by
  unfold State.getIn
  dsimp only
  split
  · exact h
  · exact .ite h (.ite (h.opDone _ _ _) (h.modFab _))

theorem State.Safe.ackOne (h : s.Safe) (q : Nat) (x : List Byte) : (s.ackOne q x).Safe := by
  unfold State.ackOne
  dsimp only
  split
  · exact h
  · exact .ite (h.opDone _ _ _) (.ite (h.opDone _ _ _) (.ite (h.modFab _) ((h.opDone _ _ _).useFree _)))

theorem State.Safe.ackIn (h : s.Safe) (f : Frame) (bs : List Byte) : (s.ackIn f bs).Safe := h.foldl _ (fun _ _ hu => hu.ackOne _ _)

theorem State.Safe.performFrame (h : s.Safe) (f : Frame) (bs : List Byte) : (s.performFrame f bs).Safe :=
  .ite (h.getIn _ _) (.ite (h.ackIn _ _) (.ite (h.descIn _ _) (h.dataIn _ _)))

theorem State.Safe.drainFlow (h : s.Safe) (fuel q : Nat) : (State.drainFlow fuel s q).Safe := by
  induction fuel generalizing s with
  | zero => exact h
  | succ fuel ih =>
    unfold State.drainFlow
    split
    · exact h
    · split
      · exact h
      · exact ih (((h.modFab _).modSession _ _).performFrame _ _)

theorem State.Safe.inFlow (h : s.Safe) (q : Nat) (x : Session) (f : Frame) (bs : List Byte) : (s.inFlow q x f bs).Safe :=
  .ite (h.performFrame _ _) (.ite (((h.modSession _ _).performFrame _ _).drainFlow _ _) (h.modFab _))

theorem State.Safe.seenAgain (h : s.Safe) (f : Frame) : (s.seenAgain f).Safe := by
  unfold State.seenAgain
  split
  · exact .ite (h.sendAck _ _ _) h
  · exact h

theorem State.Safe.accept (h : s.Safe) (f : Frame) : (s.accept f).Safe := by
  refine .ite h ?_
  split
  · exact h
  · split
    · exact h.authFail _ _
    · dsimp only
      split
      · exact h
      · exact h.seenAgain _
      · exact (h.modSession _ _).inFlow _ _ _ _

theorem State.Safe.frameEvent (h : s.Safe) (ok : Frame → Bool) (f : Frame) : SafeNext (frameEvent ok f s) :=
  State.Safe.ite (h.takeRx _ (fun _ hu => hu.accept f)) h

theorem State.Safe.resendOp (h : s.Safe) (k : Nat) (o : RemoteOp) : (s.resendOp k o).Safe := ((h.modFab _).fcount _ _).enqueue _

theorem State.Safe.execE2eTimeout (h : s.Safe) (dst op : Nat) : SafeNext (execE2eTimeout dst op s) := by
  unfold Machine.execE2eTimeout
  dsimp only
  split
  · exact h
  · exact State.Safe.ite h (.ite (h.abandon _) (h.resendOp _ _))

theorem State.Safe.execSpdmSession (h : s.Safe) (peer : Spdm Nat) : SafeNext (execSpdmSession peer s) :=
  State.Safe.ite ((h.modFab _).useFree _) h

theorem State.Safe.execKeyUpdate (h : s.Safe) (q : Nat) : SafeNext (execKeyUpdate q s) := by
  unfold Machine.execKeyUpdate
  split
  · exact h
  · exact (h.modSession _ _).useFree _

end Sys2Proof.Machine
end

section
/-!
SUPPORT. Instructions on streams, the jobs of the data engines, and the events of the base dies keep the machine safe.
-/

namespace Sys2Proof.Machine

variable {s : State}

/-! ## Instructions on streams -/

/-- A stream instruction that ends as it takes its entry, whatever it reads before. -/
theorem State.Safe.streamFin (h : s.Safe) (rs : List (BitVec 5)) {reads : State → State}
    (prep : State → Except (Nat × Word) Issue) (hr : (reads s).Safe) : SafeNext (Machine.streamOp rs reads prep State.fin s) :=
  h.streamOp rs prep hr (fun _ hu => hu.fin)

theorem State.Safe.execScas (h : s.Safe) (a : BitVec 5) (j k : BitVec 4) (b : BitVec 5) (o : BitVec 3) (t : BitVec 2) (l : BitVec 1) :
    SafeNext (execScas a j k b o t l s) :=
  .ite (h.streamFin _ _ (h.recRead _)) (h.streamOp _ _ (h.walked _ _ _) (fun _ hu => (hu.modMe _).fin))

theorem State.Safe.takeSrf (h : s.Safe) (k : Nat) : (s.takeSrf k).Safe := .ite ((h.chargeSrf _ _).modFut _ _) (h.chargeSrf _ _)
theorem State.Safe.bind (h : s.Safe) (j : BitVec 4) (d : Nat) : (s.bind j d).Safe := h.modMe _
theorem State.Safe.unbind (h : s.Safe) (j : BitVec 4) : (s.unbind j).Safe := h.modMe _

theorem State.Safe.execSalloc (h : s.Safe) (a : BitVec 5) (j : BitVec 4) (b : BitVec 5) (g : BitVec 2) :
    SafeNext (execSalloc a j b g s) := by
  unfold Machine.execSalloc
  refine h.ctl _ (.ite (h.trap _ _) (.ite (h.trap _ _) ?_))
  split
  · exact .ite ((((h.takeSrf _).setStream _ _ _).bind _ _).useFree _).fin (h.trap _ _)
  · exact h.trap _ _

theorem State.Safe.execSfree (h : s.Safe) (j : BitVec 4) : SafeNext (execSfree j s) :=
  h.streamOp _ _ h (fun _ hu => (hu.unbind _).fin)

theorem State.Safe.onStream (h : s.Safe) (w : Word) (j : BitVec 4) (rs : List (BitVec 5)) {f : Nat → State → State}
    (hf : ∀ d, (f d s).Safe) : SafeNext (onStream w j rs s f) := by
  refine h.ctl _ ?_
  split
  · exact hf _
  · exact h.trap _ _

theorem State.Safe.execSptr (h : s.Safe) (a : BitVec 5) (j : BitVec 4) (w : BitVec 1) : SafeNext (execSptr a j w s) :=
  h.onStream _ _ _ (fun _ => h.ret _ _)

theorem State.Safe.execSrd (h : s.Safe) (a : BitVec 5) (j : BitVec 4) (b : BitVec 5) : SafeNext (execSrd a j b s) :=
  h.onStream _ _ _ (fun _ => .ite (h.trap _ _) (h.ret _ _))

theorem State.Safe.execSwr (h : s.Safe) (a : BitVec 5) (j : BitVec 4) (b : BitVec 5) : SafeNext (execSwr a j b s) :=
  h.onStream _ _ _ (fun _ => .ite (h.trap _ _) (h.setStream _ _ _).fin)

theorem State.Safe.execSmovh (h : s.Safe) (j k : BitVec 4) : SafeNext (execSmovh j k s) :=
  h.onStream _ _ _ (fun _ => .ite h.fin (.ite ((h.unbind _).bind _ _).fin (h.trap _ _)))

theorem State.Safe.execScount (h : s.Safe) (a : BitVec 5) (j : BitVec 4) : SafeNext (execScount a j s) := by
  refine h.onStream _ _ _ (fun _ => ?_)
  split
  · exact h.ret _ _
  · exact h.block _ _

theorem State.Safe.execSwait (h : s.Safe) (j : BitVec 4) (q c : BitVec 1) (m : BitVec 3) : SafeNext (execSwait j q c m s) := by
  refine h.ctl _ ?_
  split
  · exact h.trap _ _
  · split
    · exact h.fin
    · exact h.block _ _

theorem State.Safe.execSwaita (h : s.Safe) : SafeNext (execSwaita s) := by
  refine h.ctl _ ?_
  split
  · exact h.fin
  · exact h.block _ _

theorem State.Safe.execStest (h : s.Safe) (a : BitVec 5) (j : BitVec 4) (q c : BitVec 1) (m : BitVec 3) :
    SafeNext (execStest a j q c m s) := by
  refine h.ctl _ ?_
  split
  · exact h.trap _ _
  · exact h.ret _ _

theorem State.Safe.execSbar (h : s.Safe) (m : BitVec 3) : SafeNext (execSbar m s) := h.ctl _ (.ite h.fin (h.modMe _).fin)
theorem State.Safe.execRfence (h : s.Safe) : SafeNext (execRfence s) := h.ctl _ (State.Safe.updSc h _ (by intro _; rfl)).fin

/-! ## Jobs of the data engines -/

theorem State.Safe.accElem (h : s.Safe) (v : Via) (r : Rec) (op j : Nat) (bs : List Byte) : (s.accElem v r op j bs).2.Safe := by
  unfold State.accElem
  split
  · exact h.agentAcc _ _ _ _ _
  · exact h

theorem State.Safe.combine (h : s.Safe) (v : Via) (e : Entry) (k : Nat) : (s.combine v e k).2.Safe := by
  unfold State.combine
  dsimp only
  split
  · exact h.accElem _ _ _ _ _
  · exact h.accElem _ _ _ _ _
  · exact h.accElem _ _ _ _ _
  · exact h

theorem State.Safe.doMove (h : s.Safe) (n : Nat) (e : Entry) (mv : Mv) : (s.doMove n e mv).Safe :=
  match mv with
  | .push _ _ _ => (h.setStream _ _ _).modEntry _ _ _
  | .write _ _ _ _ => (h.agentWrite _ _).modEntry _ _ _
  | .elem _ => (h.combine _ _ _).modEntry _ _ _
  | .read _ _ _ _ => (h.agentRead _ _).modEntry _ _ _
  | .row _ _ => (h.setStream _ _ _).modEntry _ _ _
  | .index _ => (State.Safe.ite (h.setStream _ _ _) h).modEntry _ _ _

/-- The state that a step of a job goes on with, if it can take one, is safe. -/
def SafeSome (o : Option State) : Prop := ∀ t, o = some t → t.Safe

theorem safeSome_none : SafeSome none := fun _ e => nomatch e
theorem State.Safe.inSome (h : s.Safe) : SafeSome (some s) := fun _ e => Option.some.inj e ▸ h

theorem SafeSome.ite {c : Prop} [Decidable c] {a b : Option State} (ha : SafeSome a) (hb : SafeSome b) : SafeSome (if c then a else b) := by
  split
  · exact ha
  · exact hb

theorem SafeSome.getD {o : Option State} (ho : SafeSome o) (h : s.Safe) : (o.getD s).Safe := by
  cases o with
  | none => exact h
  | some t => exact ho t rfl

theorem State.Safe.moveData (h : s.Safe) (n : Nat) (e : Entry) : SafeSome (s.moveData n e) := by
  intro t ht
  obtain ⟨p, -, rfl⟩ := Option.map_eq_some_iff.mp ht
  exact (h.useFree _).doMove _ _ _

theorem State.Safe.fillOnce (h : s.Safe) (n : Nat) (e : Entry) (d : Nat) (v : W32) (keep : Bool) (cnt : Nat) :
    SafeSome (s.fillOnce n e d v keep cnt) :=
  .ite safeSome_none ((h.setStream _ _ _).modEntry _ _ _).inSome

theorem State.Safe.fillReg (h : s.Safe) (n : Nat) (o : Owner) (reg mark : Nat) (v : Word) : (s.fillReg n o reg mark v).Safe := by
  unfold State.fillReg
  split
  · exact .ite (h.modCtx _ _ _) h
  · refine .ite ?_ h
    split
    · exact h.modCtx _ _ _
    · exact h.same rfl rfl
    · exact h

theorem State.Safe.farCas (h : s.Safe) (pa : Nat) (bs : List Byte) : (s.farCas pa bs).2.Safe :=
  State.Safe.ite ((h.useFree _).addFar _) (h.useFree _)

theorem State.Safe.agentCas (h : s.Safe) (v : Via) (va k cmp new : Nat) : (s.agentCas v va k cmp new).2.Safe := by
  unfold State.agentCas
  split
  · split
    · exact h
    · exact ((h.touchAll _ _ _ _).performEarlier _ _ _).compareSwap _ _ _ _
  · exact h.farCas _ _
  · exact h.countMiss _ _

theorem State.Safe.casRegOnce (h : s.Safe) (n : Nat) (e : Entry) (reg va tc op : Nat) (x y : Word) :
    SafeSome (s.casRegOnce n e reg va tc op x y) := by
  refine .ite safeSome_none (State.Safe.inSome (State.Safe.modEntry (State.Safe.fillReg ?_ _ _ _ _ _) _ _ _))
  split
  · exact h.agentCas _ _ _ _ _
  · exact h.agentAcc _ _ _ _ _

theorem State.Safe.decompOnce (h : s.Safe) (n : Nat) (e : Entry) (va cnt d tags : Nat) (wide : Bool) :
    SafeSome (s.decompOnce n e va cnt d tags wide) := by
  refine .ite safeSome_none (State.Safe.inSome (State.Safe.modEntry ?_ _ _ _))
  have hr := (h.agentRead (e.via n) [some (tags + e.done)]).agentRead (e.via n)
    (addrsFrom (fun k => some (va + 256 * e.done + k)) 0 (32 * blockSectors (fieldAt (s.agentRead (e.via n) [some (tags + e.done)]).1 0 1)))
  split
  · exact hr
  · exact hr.setStream _ _ _

theorem State.Safe.sendWhen (h : s.Safe) (n : Nat) (e : Entry) (op : Nat) (r : Remote) (len : Nat) : SafeSome (s.sendWhen n e op r len) :=
  .ite safeSome_none (.ite ((h.modEntry _ _ _).sendOp _ _ _ _ _ _ _).inSome safeSome_none)

theorem State.Safe.putOnce (h : s.Safe) (n : Nat) (e : Entry) (len op : Nat) (r : Remote) : SafeSome (s.putOnce n e len op r) :=
  .ite safeSome_none (h.sendWhen _ _ _ _ _)

theorem State.Safe.nvmeSend (h : s.Safe) (n : Nat) (e : Entry) (port k : Nat) : SafeSome (s.nvmeSend n e port k) :=
  .ite safeSome_none (h.modEntry _ _ _).inSome

theorem State.Safe.moveElse (h : s.Safe) (n : Nat) (e : Entry) : SafeSome (s.moveElse n e) := by
  unfold State.moveElse
  split
  · exact .ite ((h.freeStream _ _).modEntry _ _ _).inSome safeSome_none
  · exact .ite ((h.setStream _ _ _).modEntry _ _ _).inSome safeSome_none
  · exact h.fillOnce _ _ _ _ _ _
  · exact h.casRegOnce _ _ _ _ _ _ _ _
  · exact h.decompOnce _ _ _ _ _ _ _
  · exact h.nvmeSend _ _ _ _
  · exact h.putOnce _ _ _ _ _
  · exact h.sendWhen _ _ _ _ _
  · exact h.putOnce _ _ _ _ _
  · exact h.sendWhen _ _ _ _ _
  · exact safeSome_none

theorem State.Safe.moveJob (h : s.Safe) (n : Nat) (e : Entry) : SafeSome (s.moveJob n e) := by
  have hd : SafeSome (if e.movable then s.moveData n e else none) := .ite (h.moveData n e) safeSome_none
  unfold State.moveJob orElse'
  split
  · next t ht => exact (hd t ht).inSome
  · exact h.moveElse n e

theorem State.Safe.execEntryStart (h : s.Safe) (n e : Nat) : SafeNext (execEntryStart n e s) := by
  unfold Machine.execEntryStart
  dsimp only
  split
  · exact h
  · exact State.Safe.ite (h.updSc n (fun _ => rfl)) h

theorem State.Safe.sendFars (h : s.Safe) (n e : Nat) (l : List FarOp) : SafeSome (State.sendFars n e l s) := by
  induction l generalizing s with
  | nil => exact h.inSome
  | cons o os ih => exact .ite (ih (h.sendOp _ _ _ _ _ _ _)) safeSome_none

theorem State.Safe.fetchFar (h : s.Safe) (n : Nat) (e : Entry) (miss : List Nat) : SafeSome (s.fetchFar n e miss) := by
  unfold State.fetchFar
  split
  · exact .ite (h.sendOp _ _ _ _ _ _ _).inSome safeSome_none
  · exact safeSome_none

theorem State.Safe.jobView (h : s.Safe) (e : Entry) : (s.jobView e).Safe := h.modFab _

theorem State.Safe.farStep (h : s.Safe) (n : Nat) (e : Entry) {f : State → Option State} (hf : ∀ u, u.Safe → SafeSome (f u)) :
    SafeSome (s.farStep n e f) := by
  unfold State.farStep
  dsimp only
  split
  · exact safeSome_none
  · next u hu =>
    have ht := hf _ (h.jobView e) u hu
    intro t e
    obtain ⟨v, hv, rfl⟩ := Option.map_eq_some_iff.mp e
    exact (SafeSome.ite ((ht.modEntry _ _ _).sendFars _ _ _) (h.fetchFar _ _ _) v hv).modFab _

theorem State.Safe.jobStep (h : s.Safe) (n : Nat) (e : Entry) : SafeSome (s.jobStep n e) := h.farStep n e (fun _ hu => hu.moveJob n e)

theorem State.Safe.engineTurn (h : s.Safe) (g : Engine) (n e : Nat) : (s.engineTurn g n e).Safe := by
  unfold State.engineTurn
  split
  · exact h
  · exact .ite ((h.jobStep _ _).getD h) h

theorem State.Safe.execDceBlockWrite (h : s.Safe) (n e : Nat) : SafeNext (execDceBlockWrite n e s) :=
  State.Safe.ite h (.ite h ((h.engineTurn _ _ _).same rfl rfl))

theorem State.Safe.setLen (h : s.Safe) (n d k : Nat) : (s.setLen n d k).Safe := h.setStream _ _ _

theorem State.Safe.sideLen (h : s.Safe) (n : Nat) (x : Side) (bytes : Nat) : (s.sideLen n x bytes).Safe := by
  unfold State.sideLen
  split
  · exact h.setLen _ _ _
  · exact h

theorem State.Safe.retireLens (h : s.Safe) (n : Nat) (w : Work) : (s.retireLens n w).Safe := by
  unfold State.retireLens
  split
  · exact h.setLen _ _ _
  · dsimp only
    split
    · exact (h.setLen _ _ _).setLen _ _ _
    · exact h.setLen _ _ _
  · exact h.setLen _ _ _
  · exact h.sideLen _ _ _
  · exact h.setLen _ _ _
  · exact h.setLen _ _ _
  · exact h.sideLen _ _ _
  · exact h.sideLen _ _ _
  · exact h

theorem State.Safe.storageStatus (h : s.Safe) (n : Nat) (x : Entry) : (s.storageStatus n x).Safe := by
  unfold State.storageStatus
  split
  · exact .ite h ((h.agentWrite _ _).modEntry _ _ _)
  · exact h

theorem State.Safe.completeEntry (h : s.Safe) (n : Nat) (x : Entry) : (s.completeEntry n x).Safe := by
  unfold State.completeEntry
  refine State.Safe.updSc ?_ n (fun _ => rfl)
  split
  · exact h.incFlag _ _ _
  · exact h

theorem State.Safe.retireEntry (h : s.Safe) (n : Nat) (x : Entry) : (s.retireEntry n x).Safe := by
  refine .ite (h.modEntry _ _ _) (.ite h ?_)
  split
  · exact h
  · next t ht =>
    have ht : t.Safe := h.farStep n x (fun _ hu => (hu.storageStatus n x).inSome) t ht
    split
    · exact .ite ((ht.retireLens _ _).completeEntry _ _) ht
    · exact ht

theorem State.Safe.execEntryRetire (h : s.Safe) (n e : Nat) : SafeNext (execEntryRetire n e s) := by
  unfold Machine.execEntryRetire
  split
  · exact h
  · exact State.Safe.ite (h.retireEntry _ _) h

theorem State.Safe.execEntryComplete (h : s.Safe) (n e : Nat) : SafeNext (execEntryComplete n e s) := by
  unfold Machine.execEntryComplete
  split
  · exact h
  · exact State.Safe.ite (h.completeEntry _ _) h

theorem State.Safe.execKernelStoreRelease (h : s.Safe) (n k : Nat) : SafeNext (execKernelStoreRelease n k s) := by
  unfold Machine.execKernelStoreRelease
  split
  · exact State.Safe.ite (h.updSc n (fun _ => rfl)) h
  · exact h

theorem State.Safe.execStreamDeferredFree (h : s.Safe) (n d : Nat) : SafeNext (execStreamDeferredFree n d s) := by
  unfold Machine.execStreamDeferredFree
  split
  · exact State.Safe.ite (h.freeStream _ _) h
  · exact h

/-! ## Events of the base dies -/

theorem State.Safe.atPacket (h : s.Safe) (id : Nat) (ty : PktType) {f : Packet → State → State} (hf : ∀ p, (f p s).Safe) :
    (s.atPacket id ty f).Safe := by
  unfold State.atPacket
  split
  · exact h
  · exact .ite (hf _) h

theorem State.Safe.replyTo (h : s.Safe) (p : Packet) : (s.replyTo p).Safe := by
  unfold State.replyTo
  split
  · exact h.fillReg _ _ _ _ _
  · exact .ite (h.emit _) h
  · exact h

theorem State.Safe.execBaseDieReply (h : s.Safe) (id : Nat) : SafeNext (execBaseDieReply id s) := by
  unfold Machine.execBaseDieReply
  split
  · exact h
  · exact State.Safe.ite (State.Safe.replyTo (h.same (by rfl) (by rfl)) _) h

theorem State.Safe.execPageWalk (h : s.Safe) (n : Nat) (va : Word) : SafeNext (execPageWalk n va s) := by
  unfold Machine.execPageWalk
  split
  · exact h
  · exact State.Safe.ite h (h.touch _ _ _ _)

end Sys2Proof.Machine
end

section
/-!
SUPPORT. System instructions, futures, barriers and graphs, dispatch, launches and the nodes of graphs keep the machine safe.
-/

namespace Sys2Proof.Machine

variable {s : State}

/-! ## System instructions -/

theorem State.Safe.execMfs (h : s.Safe) (d : BitVec 5) (r : BitVec 14) : SafeNext (execMfs d r s) := by
  refine h.ctl _ ?_
  split
  · exact h.trap _ _
  · exact h.ret _ _

theorem State.Safe.portCmd (h : s.Safe) (p cmd : Nat) : (s.portCmd p cmd).Safe :=
  .ite (h.lockPort p) (.ite (h.runPort p) (.ite (h.unlockPort p) h))

theorem State.Safe.mtsEffect (h : s.Safe) (r : Nat) (v : Word) : (s.mtsEffect r v).Safe :=
  .ite (h.writePtb _ _) <| .ite (h.updSc _ (fun _ => rfl)) <| .ite (h.writeKsp _ _) <| .ite (h.modMe _) <|
    .ite (h.modMe _) <| .ite (h.same rfl rfl) <|
    .ite ((h.modMe _).portCmd _ _) <| .ite (.ite (h.modMe _) h) <| .ite h (h.modCtx _ _ _)

theorem State.Safe.execMts (h : s.Safe) (a : BitVec 5) (r : BitVec 14) : SafeNext (execMts a r s) := by
  refine h.ctl _ ?_
  split
  · exact h.trap _ _
  · exact .ite (h.trap _ _) (h.mtsEffect _ _).fin

theorem State.Safe.fence (h : s.Safe) (ids : State → List Nat) : SafeNext (fence ids s) := State.Safe.ite h.fin (h.block _ _)

theorem State.Safe.endSystem (h : s.Safe) {f : State → State} (hf : ∀ u, u.Safe → (f u).Safe) : (s.endSystem f).Safe :=
  .ite (hf _ (h.endActivity _ _)) (h.block _ _)

theorem State.Safe.resumeOwner (h : s.Safe) (n o : Nat) (a : Word) : (s.resumeOwner n o a).Safe :=
  .ite (h.reclaimAt _ _) ((h.resumeAt _ _ _).disown _ _)

theorem State.Safe.execTret (h : s.Safe) : SafeNext (execTret s) :=
  h.priv _ _ (.ite (h.trap _ _) (h.endSystem (fun _ hu => hu.resumeOwner _ _ _)))

theorem State.Safe.execIdle (h : s.Safe) : SafeNext (execIdle s) :=
  h.priv _ _ (h.endSystem (fun _ hu => .ite (hu.reclaimAt _ _) hu))

theorem State.Safe.execCtxsig (h : s.Safe) (a c : BitVec 5) : SafeNext (execCtxsig a c s) :=
  h.priv _ _ (.ite (h.fin.resumeOwner _ _ _) (.ite ((h.fin.modCtx _ _ _).disown _ _) (h.trap _ _)))

theorem State.Safe.execCtxkill (h : s.Safe) (c : BitVec 5) : SafeNext (execCtxkill c s) :=
  h.priv _ _ (.ite (h.trap _ _) (.ite (h.fin.reclaimAt _ _) (.ite (h.fin.endTaskAt _ _ _ _ _ _) (h.fin.endActivity _ _))))

theorem State.Safe.areaStore (h : s.Safe) (x : Xlat) (v : Word) : (s.areaStore x v).Safe :=
  .ite (h.storeReg _ _ _) (.ite (h.atOnce _) (h.cachedStore _ _ _))

theorem State.Safe.areaLoad (h : s.Safe) (x : Xlat) : (s.areaLoad x).2.Safe := by
  unfold State.areaLoad
  dsimp only
  split
  · exact h
  · split
    · exact h.atOnce _
    · exact h.fillLine _ _

theorem State.Safe.areaLoads (h : s.Safe) (l : List (Nat × Xlat)) : (s.areaLoads l).2.Safe := by
  induction l generalizing s with
  | nil => exact h
  | cons p ps ih => exact ih (h.areaLoad _)

theorem State.Safe.withArea (h : s.Safe) (xs : List (Nat × Xlat)) {f : State → State} (hf : ∀ u, u.Safe → (f u).Safe) :
    (s.withArea xs f).Safe :=
  h.withTagOf _ hf

theorem State.Safe.withFilled (h : s.Safe) (c : Nat) {f : State → State} (hf : (f s).Safe) : (s.withFilled c f).Safe :=
  .ite hf (h.block _ _)

theorem State.Safe.execCsave (h : s.Safe) (a c : BitVec 5) : SafeNext (execCsave a c s) := by
  refine h.priv _ _ ?_
  split
  · exact h.trap _ _
  · refine h.withFilled _ ?_
    have ht := h.touchMe (s.g a).toNat
    dsimp only
    split
    · exact ht.trap _ _
    · exact ht.withArea _ (fun _ hu => (hu.foldl _ (fun _ _ hv => hv.areaStore _ _)).fin)

theorem State.Safe.execCload (h : s.Safe) (a c : BitVec 5) : SafeNext (execCload a c s) := by
  refine h.priv _ _ ?_
  split
  · exact h.trap _ _
  · refine h.withFilled _ ?_
    have ht := h.touchMe (s.g a).toNat
    dsimp only
    split
    · exact ht.trap _ _
    · exact ht.withArea _ (fun _ hu => ((hu.areaLoads _).modCtx _ _ _).fin)

/-! ## Futures, barriers and graphs -/

theorem State.Safe.spawn (h : s.Safe) (d a b : BitVec 5) (hint : Option Nat) (k : Nat) : (s.spawn d a b hint k).Safe :=
  ((h.spawnAt _ _).linkKid _ _).ret _ _

theorem State.Safe.spawnOp (h : s.Safe) (d a b : BitVec 5) (hint : Option Nat) : SafeNext (spawnOp d a b hint s) := by
  refine h.ctl _ (.ite (h.trap _ _) ?_)
  split
  · exact h.trap _ _
  · exact h.afterAccesses (h.spawn _ _ _ _ _)

theorem State.Safe.onFuture (h : s.Safe) (r : BitVec 5) (rs : List (BitVec 5)) {lost : State → State} {f : Nat → State → State}
    (hl : (lost s).Safe) (hf : ∀ k, (f k s).Safe) : SafeNext (onFuture r rs s lost f) :=
  h.ctl _ (.ite hl (.ite (hf _) (h.trap _ _)))

theorem State.Safe.execFref (h : s.Safe) (a : BitVec 5) : SafeNext (execFref a s) :=
  h.onFuture _ _ h.fin (fun _ => .ite (h.trap _ _) (h.modFut _ _).fin)

theorem State.Safe.drop (h : s.Safe) (k : Nat) : (s.drop k).Safe := (State.Safe.ite (h.unhold k) h).dropCount k

theorem State.Safe.execFdrop (h : s.Safe) (a : BitVec 5) : SafeNext (execFdrop a s) := h.onFuture _ _ h.fin (fun _ => h.fin.drop _)

theorem State.Safe.getOp (h : s.Safe) (d a : BitVec 5) {after : Nat → State → State} (ha : ∀ k u, u.Safe → (after k u).Safe) :
    SafeNext (getOp d a after s) :=
  h.onFuture _ _ (h.ret _ _) (fun _ => .ite (h.trap _ _) (.ite (ha _ _ (h.ret _ _)) (h.block _ _)))

theorem State.Safe.execFpoll (h : s.Safe) (d a : BitVec 5) : SafeNext (execFpoll d a s) :=
  h.onFuture _ _ ((h.ret _ _).useFree _) (fun _ => (h.ret _ _).useFree _)

theorem State.Safe.endMe (h : s.Safe) (n c status : Nat) (result : Word) : (s.endMe n c status result).Safe :=
  .ite (h.endTaskAt _ _ _ _ _ _) (h.endActivity _ _)

theorem State.Safe.endOp (h : s.Safe) (a : BitVec 5) (status : Nat) : SafeNext (endOp a status s) :=
  h.ctl _ (.ite (h.endMe _ _ _ _) (h.block _ _))

theorem State.Safe.execFyield (h : s.Safe) : SafeNext (execFyield s) := h.ctl _ (.ite ((h.fin.deschedule _ _).makeReady _) h.fin)

theorem State.Safe.execFsig (h : s.Safe) (n : BitVec 14) : SafeNext (execFsig n s) := by
  refine h.ctl _ ?_
  dsimp only
  generalize (if s.cur.ctx < 16 then s.toSignal (futKey s.me.fut.toNat) n.toNat else none) = x
  split
  · exact h.fin
  · exact .ite (h.fin.signal _ _ _) (h.block _ _)

theorem State.Safe.onBarrier (h : s.Safe) (a : BitVec 5) (rs : List (BitVec 5)) {f : Nat → Barrier → State → State}
    (hf : ∀ k b, (f k b s).Safe) : SafeNext (onBarrier a rs s f) :=
  h.ctl _ (.ite (hf _ _) (h.trap _ _))

theorem State.Safe.execBalloc (h : s.Safe) (d a b : BitVec 5) : SafeNext (execBalloc d a b s) := by
  refine h.ctl _ (.ite (h.trap _ _) ?_)
  split
  · exact h.trap _ _
  · exact ((h.setBarrier _ _ _).ret _ _).useFree _

theorem State.Safe.leaveAll (h : s.Safe) (n k : Nat) : (s.leaveAll n k).Safe := by
  refine h.mapScs rfl (State.scs_leaveAll s n k) (fun m x hx => ?_)
  unfold leftBy
  split
  · exact hx.of_lines rfl
  · exact hx

theorem State.Safe.execBfree (h : s.Safe) (a : BitVec 5) : SafeNext (execBfree a s) :=
  h.onBarrier _ _ (fun _ _ => ((h.setBarrier _ _ _).leaveAll _ _).fin)

theorem State.Safe.arriveOp (h : s.Safe) (a : BitVec 5) (drop : Bool) : SafeNext (arriveOp a drop s) :=
  h.onBarrier _ _ (fun _ _ => .ite (h.trap _ _) (.ite (h.trap _ _) (h.afterAccesses ((h.setBarrier _ _ _).modMe _).fin)))

theorem State.Safe.execBwait (h : s.Safe) (a : BitVec 5) : SafeNext (execBwait a s) :=
  h.onBarrier _ _ (fun _ _ => .ite (h.modMe _).fin (h.block _ _))

theorem State.Safe.execBpoll (h : s.Safe) (d a : BitVec 5) : SafeNext (execBpoll d a s) := h.onBarrier _ _ (fun _ _ => h.ret _ _)

theorem State.Safe.readFlag (h : s.Safe) (pa : Nat) : (s.readFlag pa).Safe := .ite h (h.noteRead _ _)

theorem State.Safe.execWaitge (h : s.Safe) (a b : BitVec 5) : SafeNext (execWaitge a b s) := by
  refine h.ctl _ (.ite h.fin ?_)
  have hw := h.walked (s.g a) 8 true
  dsimp only
  split
  · exact hw.trap _ _
  · exact .ite (hw.trap _ _) (.ite (hw.readFlag _).fin ((hw.readFlag _).block _ _))

theorem State.Safe.loadPiece (h : s.Safe) (n c k : Nat) (x : Xlat) : (s.loadPiece n c k x).2.Safe := by
  unfold State.loadPiece
  dsimp only
  split
  · exact h
  · split
    · exact (h.performEarlier _ _ _).noteRead _ _
    · split
      · exact h.atOnce _
      · exact h.fillLine _ _

theorem State.Safe.loadPieces (h : s.Safe) (n c k m va : Nat) : (State.loadPieces n c k m va s).2.Safe := by
  induction m generalizing s va with
  | zero => exact h
  | succ m ih =>
    have ht : (if va % k ≠ 0 then s else s.touch n true (s.sc n).root va).Safe := .ite h (h.touch _ _ _ _)
    unfold State.loadPieces
    generalize (if va % k ≠ 0 then s else s.touch n true (s.sc n).root va) = t at ht ⊢
    dsimp only
    split
    · exact ht
    · split
      · exact ht
      · exact ih (ht.loadPiece _ _ _ _) _

theorem State.Safe.readGraph (h : s.Safe) (n c va : Nat) : (s.readGraph n c va).2.Safe := by
  have hp := h.loadPieces n c 8 8 va
  unfold State.readGraph
  dsimp only
  split
  · exact hp
  · split
    · exact hp
    · split
      · exact hp.loadPieces _ _ _ _ _
      · split
        · exact (hp.loadPieces _ _ _ _ _).loadPieces _ _ _ _ _
        · exact (hp.loadPieces _ _ _ _ _).loadPieces _ _ _ _ _

theorem State.Safe.placeGraph (h : s.Safe) (k : Nat) (f : Fut) (g : Graph) : (s.placeGraph k f g).Safe :=
  State.Safe.same ((h.newFut k { f with graph := true }).modFut k (fun f => { f with st := .running })) rfl rfl

theorem State.Safe.execGlaunch (h : s.Safe) (d a : BitVec 5) : SafeNext (execGlaunch d a s) := by
  refine h.ctl _ (h.afterAccesses ?_)
  have hp := (h.readGraph s.cur.sc s.cur.ctx (s.g a).toNat).leaveTagQ
  dsimp only
  split
  · exact h.waitTag _ _
  · exact hp.trap _ _
  · refine .ite (hp.trap _ _) ?_
    split
    · exact hp.trap _ _
    · exact ((hp.placeGraph _ _ _).linkKid _ _).ret _ _

theorem State.Safe.execGfree (h : s.Safe) (a : BitVec 5) : SafeNext (execGfree a s) :=
  h.onFuture _ _ h.fin (fun _ => .ite (h.fin.drop _) (h.trap _ _))

/-! ## Dispatch, budgets and launches -/

theorem State.Safe.createTask (h : s.Safe) (k : Nat) (x : Cand) : (s.createTask k x).Safe := by
  unfold State.createTask
  split
  · exact h.same rfl rfl
  · exact h

theorem State.Safe.runSlice (h : s.Safe) (k n c deadline budget : Nat) : (s.runSlice k n c deadline budget).Safe :=
  h.of_same rfl (fun m => State.lines_setCtx s n c m _)

theorem State.Safe.execTaskDispatch (h : s.Safe) : SafeNext (execTaskDispatch s) := by
  unfold Machine.execTaskDispatch
  split
  · exact h
  · split
    · split
      · exact (h.createTask _ _).runSlice _ _ _ _ _
      · exact h
    · exact h

theorem State.Safe.spawnHandlers (h : s.Safe) : s.spawnHandlers.Safe := by
  refine h.foldl _ (fun u x hu => ?_)
  split
  · exact hu.same rfl rfl
  · exact hu

theorem State.Safe.spend (h : s.Safe) (n c : Nat) : (s.spend n c).Safe :=
  have ht := (h.deschedule n c).makeReady (futKey (s.ctx n c).fut.toNat)
  .ite (ht.same rfl rfl) (ht.same rfl rfl)

theorem State.Safe.expireBlocked (h : s.Safe) : s.expireBlocked.Safe :=
  .ite h (h.foldl _ (fun _ _ hu => hu.foldl _ (fun _ _ hv => .ite hv (hv.spend _ _))))

theorem State.Safe.execBudgetExpiry (h : s.Safe) (n c : Nat) : SafeNext (execBudgetExpiry n c s) := State.Safe.ite (h.spend n c) h

theorem State.Safe.execTaskEnd (h : s.Safe) (n c : Nat) : SafeNext (execTaskEnd n c s) := by
  unfold Machine.execTaskEnd
  split
  · exact State.Safe.ite (h.endMe _ _ _ _) h
  · exact h

theorem State.Safe.execFsigDelivery (h : s.Safe) (n c : Nat) : SafeNext (execFsigDelivery n c s) := by
  unfold Machine.execFsigDelivery
  split
  · refine State.Safe.ite ?_ h
    split
    · exact (h.modCtx _ _ _).signal _ _ _
    · exact h.modCtx _ _ _
  · exact h

theorem State.Safe.execReclamationPoint (h : s.Safe) (k : Nat) : SafeNext (execReclamationPoint k s) :=
  State.Safe.ite (h.reclaimNow k) h

theorem State.Safe.pass (h : s.Safe) (q : Nat) : (s.pass q).Safe := h.modQueue _ _

theorem State.Safe.refuse (h : s.Safe) (q : Nat) (d : Desc) (status : Nat) : (s.refuse q d status).Safe :=
  ((h.writeBlock _ _ _ _ _ _ _ _).modQueue _ _).pass _

theorem State.Safe.acceptLaunch (h : s.Safe) (q : Nat) (d : Desc) (graph : Bool) : (s.acceptLaunch q d graph).Safe :=
  State.Safe.same ((h.modQueue q (fun x => { x with infl := x.infl + 1 })).pass q) rfl rfl

theorem State.Safe.launchGraph (h : s.Safe) (q : Nat) (d : Desc) : (s.launchGraph q d).Safe := by
  have hp := h.readGraph (s.hubSc d.rcb) hubCtx d.arg
  unfold State.launchGraph
  dsimp only
  split
  · exact hp.refuse _ _ _
  · refine .ite (hp.refuse _ _ _) ?_
    split
    · exact h
    · exact (hp.acceptLaunch _ _ _).placeGraph _ _ _

theorem State.Safe.cpRead (h : s.Safe) (p a n : Nat) : (s.cpRead p a n).Safe := (h.performEarlier _ _ _).noteRead _ _
theorem State.Safe.readRcbs (h : s.Safe) (p rcb : Nat) : (s.readRcbs p rcb).Safe := h.foldl _ (fun _ _ hu => hu.cpRead _ _ _)

theorem State.Safe.launchChecks (h : s.Safe) (q : Nat) (d : Desc) : (s.launchChecks q d).Safe := by
  refine .ite (h.refuse _ _ _) (.ite (h.refuse _ _ _) ?_)
  have hr := h.readRcbs (q / 4096) d.rcb
  dsimp only
  split
  · exact hr.refuse _ _ _
  · exact .ite (hr.refuse _ _ _) (.ite h (.ite ((hr.putRegions _ _).launchGraph _ _) ((hr.putRegions _ _).acceptLaunch _ _ _)))

theorem State.Safe.readEntry (h : s.Safe) (q : Nat) : (s.readEntry q).Safe := by
  have hr := h.cpRead (q / 4096) (s.nextAddr q) 64
  unfold State.readEntry
  dsimp only
  exact .ite (hr.refuse _ _ _) (.ite (hr.refuse _ _ _) (.ite hr (.ite ((hr.writeBlock _ _ _ _ _ _ _ _).pass _) (hr.launchChecks _ _))))

theorem State.Safe.execLaunchRead (h : s.Safe) (q : Nat) : SafeNext (execLaunchRead q s) :=
  State.Safe.ite h (.ite h (h.readEntry q))

/-! ## Nodes of graphs -/

theorem State.Safe.hubRead (h : s.Safe) (n a : Nat) : (s.hubRead n a).Safe := h.loadPieces _ _ _ _ _
theorem State.Safe.iterate (h : s.Safe) (g i : Nat) (w : Node) : (s.iterate g i w).Safe :=
  ((h.same (by rfl) (by rfl)).modNode _ _ _).sendEdges _ _ _

theorem State.Safe.taskNode (h : s.Safe) (gi i : Nat) (g : Graph) (x : Node) : (s.taskNode gi i g x).Safe := by
  unfold State.taskNode
  split
  · exact h
  · exact (h.spawnAt _ _).modNode _ _ _

theorem State.Safe.faultNode (h : s.Safe) (g i : Nat) (both : Bool) (cause : Nat) : (s.faultNode g i both cause).Safe :=
  h.endNode _ _ _ _ _

theorem State.Safe.readWords (h : s.Safe) (n : Nat) (l : List Nat) : (State.readWords n l s).2.Safe := by
  induction l generalizing s with
  | nil => exact h
  | cons a as ih =>
    unfold State.readWords
    dsimp only
    split
    · exact ih (h.hubRead _ _)
    · exact h.hubRead _ _

theorem State.Safe.nodeReads (h : s.Safe) (n : Nat) (x : Node) : (s.nodeReads n x).Safe :=
  .ite (.ite ((h.readWords _ _).readRecs _ _ _) (h.readWords _ _)) (h.readRecs _ _ _)

theorem State.Safe.enterAll (h : s.Safe) (n : Nat) (o : Owner) (l : List Issue) : (s.enterAll n o l).1.Safe := by
  induction l generalizing s with
  | nil => exact h
  | cons i is ih => exact ih (h.enter _ _ _ _)

theorem State.Safe.windowWalks (h : s.Safe) (n : Nat) (l : List Issue) : (s.windowWalks n l).Safe := by
  induction l generalizing s with
  | nil => exact h
  | cons i is ih => exact .ite (h.windowWalk _ _) (ih (h.windowWalk _ _))

theorem State.Safe.issueNode (h : s.Safe) {r : State} (hr : r.Safe) {f : State → State} (hf : ∀ u, u.Safe → (f u).Safe)
    (gi i n : Nat) (l : List Issue) : (s.issueNode r f gi i n l).Safe := by
  refine .ite h ?_
  split
  · exact (hr.windowWalks _ _).faultNode _ _ _ _
  · exact .ite h (((hf _ (hr.windowWalks _ _)).enterAll _ _ _).modNode _ _ _)

theorem State.Safe.transformNode (h : s.Safe) (gi i : Nat) (g : Graph) (x : Node) : (s.transformNode gi i g x).Safe := by
  have hr := h.nodeReads (s.hubSc g.rcb) x
  unfold State.transformNode
  dsimp only
  split
  · exact hr.faultNode _ _ _ _
  · refine .ite ?_ (h.issueNode hr (fun _ hu => hu) _ _ _ _)
    split
    · exact h
    · split
      · exact h
      · exact h.issueNode hr (fun _ hu => (hu.chargeSrf _ _).setStream _ _ _) _ _ _ _

theorem State.Safe.actNode (h : s.Safe) (gi i : Nat) (g : Graph) (x : Node) : (s.actNode gi i g x).Safe := by
  have ht := h.hubRead (s.hubSc g.rcb) x.p0
  refine .ite (h.endNode _ _ _ _ _) <| .ite (h.endNode _ _ _ _ _) <| .ite (h.taskNode _ _ _ _) <| .ite (h.transformNode _ _ _ _) <|
    .ite ?_ <| .ite ?_ (h.endNode _ _ _ _ _)
  · dsimp only
    split
    · exact ht.faultNode _ _ _ _
    · exact ht.endNode _ _ _ _ _
    · exact ht.endNode _ _ _ _ _
  · dsimp only
    split
    · exact ht.faultNode _ _ _ _
    · exact .ite (ht.iterate _ _ _) (ht.endNode _ _ _ _ _)

theorem State.Safe.execGraphNodeDispatch (h : s.Safe) (gi i : Nat) : SafeNext (execGraphNodeDispatch gi i s) := by
  unfold Machine.execGraphNodeDispatch
  split
  · exact h
  · split
    · exact h
    · exact State.Safe.ite (.ite h (h.actNode _ _ _ _)) (.ite (h.endNode _ _ _ _ _) h)

end Sys2Proof.Machine
end

section
/-!
SUPPORT. Translation, shared pages, time, the host, losses and management keep the machine safe.
-/

namespace Sys2Proof.Machine

variable {s : State}

/-! ## Translation and shared pages -/

theorem State.Safe.tlbWait (h : s.Safe) (f : Nat → Xlat → Bool) (va : Option Nat) : (s.tlbWait f va).Safe :=
  .ite ((h.dropTlb f).block _ _) (h.dropTlb f).fin

theorem State.Safe.execTlbinv (h : s.Safe) (a : BitVec 5) : SafeNext (execTlbinv a s) := h.priv _ _ (.ite (h.tlbWait _ _) h.fin)
theorem State.Safe.execXlat (h : s.Safe) (d a : BitVec 5) : SafeNext (execXlat d a s) := h.ctl _ ((h.touchMe _).ret _ _)

theorem State.Safe.execRngset (h : s.Safe) (a : BitVec 5) (r : BitVec 6) (w : BitVec 2) : SafeNext (execRngset a r w s) :=
  h.priv _ _ (State.Safe.fin (h.same rfl rfl))

theorem State.Safe.queueCommit (h : s.Safe) : s.queueCommit.Safe := h.same rfl rfl

theorem State.Safe.execRngcommit (h : s.Safe) : SafeNext (execRngcommit s) :=
  h.priv _ _ (.ite (.ite (State.Safe.fin (h.same (by rfl) (by rfl))) (h.queueCommit.block _ _))
    (State.Safe.trap (h.same (by rfl) (by rfl)) _ _))

theorem State.Safe.modDup (h : s.Safe) (i : Nat) (f : DupPage → DupPage) : (s.modDup i f).Safe := h.same rfl rfl
theorem State.Safe.putPte (h : s.Safe) (a p : Nat) : (s.putPte a p).Safe := h.writeNat _ _ _
theorem State.Safe.dropRange (h : s.Safe) (lo n : Nat) : (s.dropRange lo n).Safe := h.dropTlb _

theorem State.Safe.flushRange (h : s.Safe) (lo n : Nat) : (s.flushRange lo n).Safe :=
  h.foldl _ (fun _ _ hu => hu.foldl _ (fun _ _ hv => hv.evict _ _))

theorem State.Safe.regrow (h : s.Safe) (i b p : Nat) : (s.regrow i b p).Safe := (h.putPte _ _).dropRange _ _

theorem State.Safe.shrink (h : s.Safe) (i b p : Nat) {f : State → State} (hf : ∀ u, u.Safe → (f u).Safe) :
    (s.shrink i b p f).1.Safe := by
  have done : ∀ {u : State} (old : Nat), u.Safe → (if u.blockPinned i b old then (u, false)
      else (f ((u.flushRange (u.dupAddr i b) 65536).modDup i (fun d => { d with begun := none })), true)).1.Safe := by
    intro u old hu
    split
    · exact hu
    · exact hf _ ((hu.flushRange _ _).modDup _ _)
  unfold State.shrink
  cases (s.dupPage i).begun with
  | some x => exact done _ h
  | none => exact done _ ((h.regrow _ _ _).modDup _ _)

theorem State.Safe.receive (h : s.Safe) (i b : Nat) (data : List Byte) : (s.receive i b data).Safe := h.write _ _ _
theorem State.Safe.sendBlock (h : s.Safe) (i b p : Nat) : (s.sendBlock i b p).Safe := (h.noteRead _ _).emit _
theorem State.Safe.tookBlock (h : s.Safe) (i : Nat) : (s.tookBlock i).Safe := h.modDup _ _

theorem State.Safe.splitPage (h : s.Safe) (i : Nat) : (s.splitPage i).Safe :=
  .ite h ((((h.foldl _ (fun _ _ hu => hu.putPte _ _)).putPte _ _).dropRange _ _).modDup _ _)

theorem State.Safe.setOwner (h : s.Safe) (i b o : Nat) : (s.setOwner i b o).Safe := h.modDup _ _
theorem State.Safe.gain (h : s.Safe) (i b o : Nat) : (s.gain i b o).Safe := (h.regrow _ _ _).setOwner _ _ _

theorem State.Safe.own (h : s.Safe) (i b o : Nat) : (s.own i b o).1.Safe := by
  unfold State.own
  dsimp only
  split
  · exact h
  · split
    · split
      · exact h
      · split
        · exact h.shrink _ _ _ (fun _ hu => (State.Safe.ite hu (hu.sendBlock _ _ _)).setOwner _ _ _)
        · split
          · split
            · exact h.gain _ _ _
            · split
              · exact ((h.receive _ _ _).tookBlock _).gain _ _ _
              · exact h
          · exact h.setOwner _ _ _
    · split
      · split
        · exact h.gain _ _ _
        · exact h
      · exact h.shrink _ _ _ (fun _ hu => hu.setOwner _ _ _)

theorem State.Safe.rejoin (h : s.Safe) (i b : Nat) : (s.rejoin i b).Safe :=
  have ht := h.modDup i (fun d => { d with owned := tdel d.owned b })
  .ite ((((ht.noteRead _ _).putPte _ _).dropRange _ _).modDup _ _) ht

theorem State.Safe.rebuild (h : s.Safe) (i b leaf : Nat) : (s.rebuild i b leaf).Safe := h.regrow _ _ _
theorem State.Safe.sendCopies (h : s.Safe) (i b : Nat) : (s.sendCopies i b).Safe := h.foldl _ (fun _ _ hu => hu.sendBlock _ _ _)

theorem State.Safe.share (h : s.Safe) (i b : Nat) (copy : Bool) : (s.share i b copy).1.Safe := by
  unfold State.share
  dsimp only
  split
  · exact h
  · split
    · exact h.shrink _ _ _ (fun _ hu => (State.Safe.ite (hu.sendCopies _ _) hu).rejoin _ _)
    · split
      · exact (h.regrow _ _ _).rejoin _ _
      · split
        · exact (((State.Safe.ite (h.receive _ _ _) h).tookBlock _).rebuild _ _ _).rejoin _ _
        · exact h

theorem State.Safe.dupAct (h : s.Safe) (i : Nat) (a : DupAct) : (s.dupAct i a).1.Safe :=
  match a with
  | .split => h.splitPage i
  | .own b o => h.own i b o
  | .dup b copy => h.share i b copy

theorem State.Safe.popDup (h : s.Safe) (i : Nat) : (s.popDup i).Safe := h.modDup _ _

theorem State.Safe.partDup (h : s.Safe) (i : Nat) (a : DupAct) : (s.partDup i a).1.Safe := by
  unfold State.partDup
  dsimp only
  split
  · exact h
  · split
    · exact ((h.dupAct _ _).modDup _ _).emit _
    · exact h.dupAct _ _

theorem State.Safe.enqueueDup (h : s.Safe) (i : Nat) (who : Option (Nat × Nat)) (a : DupAct) : (s.enqueueDup i who a).Safe := h.modDup _ _
theorem State.Safe.askDup (h : s.Safe) (i : Nat) (a : DupAct) : (s.askDup i a).Safe := .ite (h.enqueueDup _ _ _) (h.modDup _ _)
theorem State.Safe.tryDup (h : s.Safe) (i : Nat) (a : DupAct) : (s.tryDup i a).1.Safe := h.partDup _ _

theorem State.Safe.goDup (h : s.Safe) (i : Nat) : (s.goDup i).Safe := by
  unfold State.goDup
  split
  · exact .ite (.ite ((h.tryDup _ _).popDup _).fin ((h.tryDup _ _).block _ _)) (h.block _ _)
  · exact h.block _ _

theorem State.Safe.runDup (h : s.Safe) (i : Nat) : (s.runDup i).Safe := by
  unfold State.runDup
  split
  · exact h
  · exact .ite ((h.tryDup _ _).popDup _) (h.tryDup _ _)

theorem State.Safe.skipHome (h : s.Safe) (i : Nat) : (s.skipHome i).Safe := .ite (h.modDup _ _) h
theorem State.Safe.runDups (h : s.Safe) : s.runDups.Safe := h.foldl _ (fun _ _ hu => (hu.skipHome _).runDup _)

theorem State.Safe.peerAct (h : s.Safe) (a : Nat) (f : Nat → DupAct) : (s.peerAct a f).Safe := by
  unfold State.peerAct
  split
  · exact h
  · split
    · exact .ite (h.enqueueDup _ _ _) h
    · exact h.enqueueDup _ _ _

theorem State.Safe.peerBlock (h : s.Safe) (a leaf : Nat) (data : List Byte) : (s.peerBlock a leaf data).Safe := by
  unfold State.peerBlock
  split
  · exact h
  · exact .ite h (h.modDup _ _)

theorem State.Safe.peerTurn (h : s.Safe) (a : Nat) : (s.peerTurn a).Safe := by
  unfold State.peerTurn
  split
  · exact h
  · exact h.modDup _ _

theorem State.Safe.peerDone (h : s.Safe) (a p : Nat) : (s.peerDone a p).Safe := by
  unfold State.peerDone
  split
  · exact h
  · exact .ite (h.modDup _ _) h

theorem State.Safe.onPage (h : s.Safe) (w a : Word) (ok : Nat → Bool) (f : Nat → Nat → Except (Nat × Word) DupAct) :
    (onPage w a s ok f).Safe := by
  unfold Machine.onPage
  split
  · exact h.goDup _
  · split
    · exact h.trap _ _
    · refine .ite (h.trap _ _) (.ite (h.trap _ _) ?_)
      split
      · exact h.trap _ _
      · exact (h.askDup _ _).goDup _

/-! ## Events of contexts, and time -/

theorem State.Safe.takeAsync (h : s.Safe) (n c : Nat) : (s.takeAsync n c).Safe := by
  unfold State.takeAsync
  dsimp only
  split
  · exact h
  · exact (h.takeTrap _ _ _ _ _ _).modCtx _ _ _

theorem State.Safe.execContextWake (h : s.Safe) (n c : Nat) : SafeNext (execContextWake n c s) := by
  unfold Machine.execContextWake
  split
  · exact State.Safe.ite (h.modCtx _ _ _) h
  · exact h

theorem State.Safe.execMessageContextStart (h : s.Safe) (n : Nat) : SafeNext (execMessageContextStart n s) := by
  unfold Machine.execMessageContextStart
  split
  · exact State.Safe.updSc (h.setCtx _ _ _) n (fun _ => rfl)
  · exact h

theorem State.Safe.compareFlags (h : s.Safe) : s.compareFlags.Safe := h.foldl _ (fun _ _ hu => hu.foldl _ (fun _ _ hv => hv.modCtx _ _ _))
theorem State.Safe.dropStarved (h : s.Safe) : s.dropStarved.Safe := .ite h (h.same rfl rfl)

theorem State.Safe.settle (h : s.Safe) : s.settle.Safe :=
  have ht := h.admitArrivals.runDups.settlePorts
  .ite h (ht.reclaimAll _).deliverLate.dropStarved.payOwed.tryLaunches.spawnHandlers.noteWaits.gcRegions

theorem State.Safe.snooped (h : s.Safe) (hits : List (Nat × Bool)) : (s.snooped hits).Safe :=
  .ite h (h.foldl hits (fun _ _ hu => .ite hu (hu.same rfl rfl)))

/-- What follows a turn at once keeps the machine safe, whether the turn stands or waits for a snoop. -/
theorem State.Safe.afterTurn (h : s.Safe) {t : State} (ht : t.Safe) : (s.afterTurn t).Safe :=
  .ite (.ite ht.settle (ht.snooped _)) (h.snooped _)

theorem State.Safe.aged (h : s.Safe) : s.aged.Safe := h.same rfl rfl
theorem State.Safe.endCycle (h : s.Safe) : s.endCycle.Safe := h.compareFlags.aged.same rfl rfl

theorem State.Safe.advance (h : s.Safe) (ns cyc : Nat) : (s.advance ns cyc).Safe := by
  have h1 : (if s.mgmt.tripped && (ns != 0 || cyc != 0) then s.aged else s).Safe := .ite h.aged h
  unfold State.advance
  dsimp only
  generalize (if s.mgmt.tripped && (ns != 0 || cyc != 0) then s.aged else s) = t at h1 ⊢
  generalize (if t.mgmt.tripped then 0 else cyc) = k
  have h2 : (if k = 0 then t else t.endCycle).Safe := .ite h1 h1.endCycle
  exact h2.mapScs (f := fun _ x => { x with ctxs := x.ctxs.map (fun c => (c.1, c.2.after (c.1 < 16) k)) }) rfl rfl
    (fun _ _ hx => hx.of_lines rfl)

theorem State.Safe.takeTurn (h : s.Safe) : s.takeTurn.2.Safe := by
  unfold State.takeTurn
  split
  · exact h.same rfl rfl
  · exact h.same rfl rfl

theorem State.Safe.atCtx (h : s.Safe) (n c : Nat) : (s.atCtx n c).Safe :=
  (State.Safe.updSc h n (f := fun t => { t with last := c }) (fun _ => rfl)).same rfl rfl

theorem State.Safe.afterFetch (h : s.Safe) (n c : Nat) : (s.afterFetch n c).Safe := by
  have ht := (h.atCtx n c).touch n true (s.sc n).root (s.ctx n c).pc.toNat
  unfold State.afterFetch
  dsimp only
  split
  · exact ht
  · exact ht.meetHost _ _ _

theorem State.Safe.issueContext {ex : Instr → State → Result} (hex : ∀ i u, u.Safe → SafeNext (ex i u)) (h : s.Safe) (n : Nat) :
    SafeNext (s.issueContext ex n) := by
  unfold State.issueContext
  split
  · exact h
  · split
    · exact hex _ _ (h.atCtx _ _)
    · exact .ite (hex _ _ h) (.ite (hex _ _ h) (.ite (hex _ _ h) (hex _ _ (h.afterFetch _ _))))

/-! ## The host -/

theorem State.Safe.complete (h : s.Safe) (p status : Nat) (bs : List Byte) : (s.complete p status bs).Safe := h.emit _

theorem State.Safe.throughCxl (h : s.Safe) (r : HostReq) {f : State → State} (hf : ∀ u, u.Safe → (f u).Safe) : (s.throughCxl r f).Safe :=
  .ite ((hf { s with hostLines := [] } (h.same rfl rfl)).same rfl rfl) (hf s h)

theorem State.Safe.execHostRead (h : s.Safe) (r : HostReq) : SafeNext (execHostRead r s) :=
  State.Safe.ite (h.complete _ _ _) (.ite (h.complete _ _ _) (.ite h
    (h.throughCxl r (fun _ hu => ((hu.performEarlier _ _ _).noteRead _ _).complete _ _ _))))

theorem State.Safe.execHostWrite (h : s.Safe) (r : HostReq) : SafeNext (execHostWrite r s) :=
  State.Safe.ite h (.ite (.ite (h.regWrite _ _) h) (.ite h (h.throughCxl r (fun _ hu => (hu.performEarlier _ _ _).write _ _ _))))

theorem State.Safe.splitWrite (h : s.Safe) (p : HostReq × Nat) : (s.splitWrite p).Safe :=
  (State.Safe.write (s := { s with hostRmw := s.hostRmw.erase p, hostrmw := tput s.hostrmw p.1.port (tgetD s.hostrmw p.1.port 0 + 1) })
    (h.same rfl rfl) _ _ _).complete _ _ _

theorem State.Safe.splitRead (h : s.Safe) (r : HostReq) : (s.splitRead r).Safe :=
  ((h.performEarlier (hostPort r.port) r.addr r.size).noteRead r.addr r.size).setHostRmw _

theorem State.Safe.hostAtomic (h : s.Safe) (r : HostReq) : (s.hostAtomic r).Safe := by
  refine .ite h ?_
  split
  · exact .ite ((h.useFree _).splitWrite _) ((h.useFree _).splitRead _)
  · exact .ite (h.send _) (h.splitRead _)

theorem State.Safe.execHostAtomic (h : s.Safe) (r : HostReq) : SafeNext (execHostAtomic r s) :=
  State.Safe.ite (h.complete _ _ _) (h.throughCxl r (fun _ hu => hu.hostAtomic r))

theorem State.Safe.grantLine (h : s.Safe) (k : Nat) (excl : Bool) : (s.grantLine k excl).Safe :=
  ((State.Safe.noteRead (h.setHostLines []) (64 * k) 64).complete _ _ _).setHostLines _

theorem State.Safe.execCxlCacheRequest (h : s.Safe) (k : Nat) (excl : Bool) : SafeNext (execCxlCacheRequest k excl s) := by
  have grant : ∀ o : Option (Nat × Bool), (match o with
      | some old => { s with hits := s.hits ++ [(old.1, true)] }
      | none => s.grantLine k excl).Safe := by
    intro o
    cases o with
    | some _ => exact h.same rfl rfl
    | none => exact h.grantLine _ _
  exact State.Safe.ite (h.complete _ _ _) (grant _)

theorem State.Safe.returned (h : s.Safe) (k : Nat) (o : Option (List Byte)) : (s.returned k o).Safe :=
  match o with
  | none => h
  | some _ => h.write _ _ _

theorem State.Safe.execBisnpResponse (h : s.Safe) (k : Nat) (dirty : Option (List Byte)) : SafeNext (execBisnpResponse k dirty s) :=
  State.Safe.ite h (State.Safe.same (State.Safe.returned (s := { s with hostLines := [], snoops := s.snoops.filter (fun p => p.1 != k) })
    (h.same rfl rfl) k dirty) rfl rfl)

theorem State.Safe.failOver (h : s.Safe) : s.failOver.Safe := (State.Safe.useFree (h.same (by rfl) (by rfl)) _).setHlth _

theorem State.Safe.execHostLinkTimeout (h : s.Safe) : SafeNext (execHostLinkTimeout s) := State.Safe.ite h h.failOver

theorem State.Safe.execConfigurationRequest (h : s.Safe) (port reg : Nat) : SafeNext (execConfigurationRequest port reg s) :=
  State.Safe.ite (h.emit _) h

/-! ## Losses -/

theorem State.Safe.flushSc (h : s.Safe) (n : Nat) : (s.flushSc n).Safe := h.foldl _ (fun _ _ hu => hu.evict _ _)

theorem State.Safe.failJobs (h : s.Safe) (n : Nat) : (s.failJobs n).Safe :=
  h.foldl _ (fun _ _ hu => hu.foldl _ (fun _ _ hv => .ite (hv.endNode _ _ _ _ _) hv))

theorem State.Safe.failLate (h : s.Safe) (n : Nat) : (s.failLate n).Safe :=
  (h.same (by rfl) (by rfl)).foldl _ (fun _ _ hu => hu.sendEdges _ _ _)
theorem State.Safe.clearWork (h : s.Safe) (n : Nat) : (s.clearWork n).Safe := ((h.failJobs n).failLate n).updSc n (fun _ => rfl)

theorem State.Safe.loseTask (h : s.Safe) (n c : Nat) : (s.loseTask n c).Safe :=
  .ite h (.ite (h.reclaimAt _ _) (h.endTaskAt _ _ _ _ _ _))

theorem State.Safe.loseSleeper (h : s.Safe) (k n : Nat) : (s.loseSleeper k n).Safe := by
  unfold State.loseSleeper
  split
  · exact h
  · next x _ => exact .ite (h.reclaimNow _) ((h.endTask k n x.ctx .faulted 0x42 0 .lost).same rfl rfl)

theorem State.Safe.dropDups (h : s.Safe) (n : Nat) : (s.dropDups n).Safe := h.same rfl rfl

theorem State.Safe.loseSc (h : s.Safe) (n : Nat) : (s.loseSc n).Safe :=
  have h1 := ((h.flushSc n).clearWork n).foldl (List.range 16) (fun _ c hu => hu.loseTask n c)
  have h2 := fun l => (h1.foldl l (fun _ k hu => hu.loseSleeper k n)).dropDups n
  (h2 _).setCommitting _ _

theorem State.Safe.loseUncreated (h : s.Safe) (l : Nat) : (s.loseUncreated l).Safe := by
  unfold State.loseUncreated
  split
  · exact h
  · exact .ite h (State.Safe.tryLaunch (h.same (by rfl) (by rfl)) _)

theorem State.Safe.loseUncreatedAll (h : s.Safe) : s.loseUncreatedAll.Safe := h.foldl _ (fun _ l hu => hu.loseUncreated l)
theorem State.Safe.loseDie (h : s.Safe) (d : Nat) : (s.loseDie d).Safe := ((h.loseSc (2 * d)).loseSc (2 * d + 1)).setTopo _ _

theorem State.Safe.execDieLoss (h : s.Safe) (d : Nat) (core : Bool) : SafeNext (execDieLoss d core s) :=
  State.Safe.ite ((h.loseDie d).loseUncreatedAll.setHlth _) h

theorem State.Safe.execStackLoss (h : s.Safe) (k : Nat) : SafeNext (execStackLoss k s) :=
  State.Safe.ite (State.Safe.setHlth (h.same (by rfl) (by rfl)) _) h

theorem State.Safe.closeLaunch (h : s.Safe) (p l : Nat) (x : Launch) : (s.closeLaunch p l x).Safe :=
  .ite (h.writeBlock _ _ _ _ _ _ _ _) h

theorem State.Safe.closeQueues (h : s.Safe) (p : Nat) : (s.closeQueues p).Safe :=
  State.Safe.same (h.foldl (s.launches.filter (fun q => q.2.hub == p)) (fun _ q hu => hu.closeLaunch p q.1 q.2)) rfl rfl

theorem State.Safe.closeGraphs (h : s.Safe) (p : Nat) : (s.closeGraphs p).Safe := by
  refine (h.same (by rfl) (by rfl)).foldl _ (fun u q hu => ?_)
  have ht := hu.modFut q.2.fut (fun f => { f with st := .faulted, status := 0x42, result := 0 })
  dsimp only
  split
  · next l x _ => exact (ht.writeBlock x.flag x.value 2 0 1 0 0 noTix).same rfl rfl
  · exact ht

theorem State.Safe.dropPorts (h : s.Safe) (p : Nat) : (s.dropPorts p).Safe :=
  State.Safe.same (h.foldl ([p, 2 + 2 * p, 3 + 2 * p] ++ (List.range 24).map (fun i => 8 + 24 * p + i)) (fun _ q hu => hu.failPort q))
    (by rfl) (by rfl)

theorem State.Safe.loseHalf (h : s.Safe) (p : Nat) : (s.loseHalf p).Safe :=
  have h1 := ((h.closeQueues p).closeGraphs p).foldl (List.range 8) (fun _ i hu => hu.loseSc (8 * p + i))
  have h2 := fun f => (((h1.dropPorts p).setSlices _).setTopo _ _).dropTlb f
  (State.Safe.ite (h2 _).failOver (h2 _)).loseUncreatedAll.setHlth _

theorem State.Safe.splitPackage (h : s.Safe) : s.splitPackage.Safe := (h.loseHalf (minorHalf s.topo)).setTopo _ _

theorem State.Safe.execBridgeLinkFailure (h : s.Safe) (l : Nat) : SafeNext (execBridgeLinkFailure l s) :=
  State.Safe.ite (.ite (State.Safe.splitPackage (State.Safe.setHlth (h.same (by rfl) (by rfl)) _))
    (State.Safe.setHlth (h.same (by rfl) (by rfl)) _)) h

theorem State.Safe.execHubLoss (h : s.Safe) (p : Nat) : SafeNext (execHubLoss p s) :=
  State.Safe.ite (.ite (((h.loseHalf p).setHlth _).setTopo _ _) ((h.loseHalf p).setHlth _)) h

/-! ## Management -/

theorem State.Safe.trip (h : s.Safe) : s.trip.Safe := State.Safe.setHlth (h.same (by rfl) (by rfl)) _
theorem State.Safe.tripAt (h : s.Safe) (temp : Nat) : (s.tripAt temp).Safe := .ite h.trip h

/-- A state with memory in canonical form and no line in any data cache is safe. -/
theorem State.Safe.of_noLines (hm : Memory.wf s.mem = true) (hl : ∀ p ∈ s.scs, p.2.lines = []) : s.Safe := by
  refine ⟨hm, fun n k l e => ?_⟩
  rw [State.sc, tgetD] at e
  cases hg : tget s.scs n with
  | none =>
    rw [hg] at e
    cases e
  | some x =>
    rw [hg, Option.getD_some, hl _ (mem_of_tget hg)] at e
    cases e

/-- Right after a boot no cluster holds a line. -/
theorem State.Safe.booted (h : s.Safe) {t : State} (topo : Topo) (hm : t.mem = s.mem)
    (hs : t.scs = (List.range 16).map (fun n => (n, if topo.cores.getD n 0 = 0 then { stopped := true } else bootSc))) : t.Safe := by
  refine of_noLines (hm ▸ h.1) (fun p hp => ?_)
  rw [hs] at hp
  obtain ⟨n, -, rfl⟩ := List.mem_map.mp hp
  dsimp only
  split <;> rfl

theorem State.Safe.boot (h : s.Safe) (b : BootInput) (img : List Byte) (alt : Bool) : (s.boot b img alt).Safe := by
  unfold State.boot
  refine State.Safe.tripAt (.ite (State.Safe.splitPackage ?_) ?_) _
  · exact h.booted _ rfl rfl
  · exact h.booted _ rfl rfl

theorem State.Safe.bootFailed (h : s.Safe) : s.bootFailed.Safe := of_noLines h.1 (fun _ hp => nomatch hp)

theorem State.Safe.execModuleReset (h : s.Safe) (b : BootInput) : SafeNext (execModuleReset b s) :=
  have ht : (State.useFree { s with mgmt := s.fused } 1).Safe := State.Safe.useFree (h.same rfl rfl) 1
  State.Safe.ite (ht.boot _ _ _) (.ite (ht.boot _ _ _) ht.bootFailed)

theorem State.Safe.atSpdm (h : s.Safe) (ver : Nat) {f : State → State} (hf : (f s).Safe) : (s.atSpdm ver f).Safe := .ite hf h

theorem State.Safe.execGetMeasurements (h : s.Safe) (index : Spdm Nat) : SafeNext (execGetMeasurements index s) := by
  refine h.atSpdm _ ?_
  split
  · exact (h.emit _).useFree _
  · exact h

theorem State.Safe.execPowerSample (h : s.Safe) (p : PowerSample) : SafeNext (execPowerSample p s) :=
  State.Safe.ite (.ite (h.same (by rfl) (by rfl)) (State.Safe.tripAt (h.same (by rfl) (by rfl)) _)) h

/-! ## Scalar and storage -/

theorem State.Safe.rr (h : s.Safe) (f : Word → Word → Word) (d a b : BitVec 5) : SafeNext (rr f d a b s) := h.ctl _ (h.ret _ _)
theorem State.Safe.ri (h : s.Safe) (f : Word → Word → Word) (d a : BitVec 5) (i : BitVec 14) : SafeNext (ri f d a i s) :=
  h.ctl _ (h.ret _ _)

theorem State.Safe.br (h : s.Safe) (f : Word → Word → Bool) (a b : BitVec 5) (o : BitVec 14) : SafeNext (br f a b o s) :=
  h.ctl _ (.ite (h.jump _) h.fin)

theorem State.Safe.landCmd (h : s.Safe) (n : Nat) (e : Entry) (j : StorageJob) (cmd : Nat) (bs : List Byte) :
    (s.landCmd n e j cmd bs).Safe := h.modEntry _ _ _

theorem State.Safe.endCmd (h : s.Safe) (n : Nat) (e : Entry) (j : StorageJob) (cmd status : Nat) (data : List Byte) :
    (s.endCmd n e j cmd status data).Safe :=
  .ite (h.landCmd _ _ _ _ _) ((h.landCmd _ _ _ _ _).modEntry _ _ _)

theorem State.Safe.onCmd (h : s.Safe) (job cmd : Nat) {f : Nat → Entry → StorageJob → State} (hf : ∀ n e j, (f n e j).Safe) :
    (s.onCmd job cmd f).Safe := by
  unfold State.onCmd
  dsimp only
  split
  · exact h
  · split
    · exact h
    · exact .ite (hf _ _ _) h

end Sys2Proof.Machine
end

section
/-!
SUPPORT. Every instruction, every agent's turn and every step keeps the machine safe; and the statement about it.
-/

namespace Sys2Proof.Machine

variable {s : State}

/-! ## Instructions, agents and steps -/

/-- Every instruction, operation and event keeps the machine safe. -/
theorem State.Safe.exec (h : s.Safe) (i : Instr) : SafeNext (exec i s) := by
  cases i with
  | ctlNop | ctlHalt | ctlBr | ctlBany | ctlBall | ctlBnone | ctlBnall | ctlLset | ctlLsetk | ctlLsetv | ctlLbnz | ctlBkz |
  ctlBknz | ctlKret | ctlKretp | ctlIdle | hkChkeq | hkChkz | hkChkovf | hkChkall | iAdd | iSub | iMul | iMulhs | iMulhz | iAnd
  | iOr | iXor | iAndn | iShl | iShrz | iShrs | iRotl | iMins | iMaxs | iMinz | iMaxz | iAbs | iAddss | iAddsz | iSubss | iSubsz
  | iAbsds | iAbsdz | iAvgs | iAvgz | iAddx2 | iAddx4 | iAddx8 | iHadd | iHsub | iHaddss | iHaddsz | iHsubss | iHsubsz | iHmul |
  iHmins | iHmaxs | iHminz | iHmaxz | iHabsds | iHabsdz | iHavgs | iHavgz | iFext | iFexts | iCeq | iCne | iClts | iCltz | iCles
  | iClez | iPand | iPor | iPxor | iSel | iPcnt | iClz | iPget | iMov | fFadd | fFsub | fFmul | fFma | fFnma | fFmin | fFmax |
  fFabs | fFneg | fFcpsgn | fFceq | fFclt | fFcle | fFcun | fFrcp | fFrsq | fFexp2 | fFlog2 | fBadd | fBsub | fBmul | fBfma |
  fBmin | fBmax | fFdot2 | fFclamp | fFsat | fFrnd | fFscl | fCvtsf | fCvtzf | fCvtfs | fCvtfz | fCvtfb | fCvtbfl | fCvtbfh |
  fCvtlsf | fCvthsf | fCvtlzf | fCvthzf | tmTldw | tmTldwt | tmTmma | tmTmmz | tmTmmn | tmTldx | tmTdrn | tmTwclr | tmTstat |
  tmTscl | tmTbias | tmTamw | tmTcvt | tmTmmh | ptPld4 | ptPld8 | ptPlds | ptPpass | ptPpassz | ptPpassn | ptPcvt | ptPclro |
  ptPstat | ptPtclr | ptPdrn | ptPscan | xsXperm | xsXpermc | xsXbc | xsXbcc | xsXrot | xsXrotc | xsXcmp | xsXcmpc | xsXexp |
  xsXcnt | amAalloc | amAallocp | amAfree | amMclaim | amMrel | amArd | amArdh | amAclr =>
    exact h.modMyRun _
  | sSpop | sSpopc | sSpush | sSpushc | sSwaitf | sSwaite | sSadvr | sSadvw | sTfill | sTfillx | sScnt | sSflush | sSptrr |
  sSptrw | sSavail | sSspace =>
    exact h.putView _ _
  | resultLanding | tileRowEntry | tileUpdateVisible | partsUpdateVisible | tldxReadEnd =>
    exact State.Safe.ite (h.modRun _ _ _) h
  | kernelRunStart => exact h.execKernelRunStart _ _
  | runCompletion => exact State.Safe.ite ((h.setLengths _ _ _).retireRun _ _ _) h
  | preemption => exact h.execPreemption _ _
  | runRestore => exact h.execRunRestore _ _
  | runReclaimStop => exact State.Safe.ite (h.discardRun _ _) h
  | pthrExpiry => exact State.Safe.ite (h.markGroup _ _) h
  | add | sub | mul | mulhs | mulhz | divs | divz | rems | remz | and | or | xor | shl | shrz | shrs | slts | sltz =>
    exact h.rr _ _ _ _
  | andn => rw [exec_andn]; exact h.rr _ _ _ _
  | popc => rw [exec_popc]; exact h.ctl _ (h.ret _ _)
  | addi | andi | ori | xori | shli | shrzi | shrsi | sltsi | sltzi => exact h.ri _ _ _ _
  | ldi => rw [exec_ldi]; exact h.ctl _ (h.ret _ _)
  | lsi => rw [exec_lsi]; exact h.ctl _ (h.ret _ _)
  | beq | bne => exact h.br _ _ _ _
  | blts => rw [exec_blts]; exact h.br _ _ _ _
  | bges => rw [exec_bges]; exact h.br _ _ _ _
  | bltz => rw [exec_bltz]; exact h.br _ _ _ _
  | bgez => rw [exec_bgez]; exact h.br _ _ _ _
  | j => rw [exec_j]; exact h.ctl _ (h.jump _)
  | jal => rw [exec_jal]; exact h.ctl _ ((h.setG _ _).jump _)
  | jr => rw [exec_jr]; exact h.ctl _ (.ite (h.jump _) (h.trap _ _))
  | jalr => rw [exec_jalr]; exact h.ctl _ (.ite ((h.setG _ _).jump _) (h.trap _ _))
  | lb | lbz | lh | lhz | lw | lwz | ld => exact h.load _ _ _ _ _ _
  | ldx => rw [exec_ldx]; exact h.load _ _ _ _ _ _
  | sb | sh | sw | sd => exact h.store _ _ _ _
  | ldAcq => exact h.execLdAcq _ _ _
  | stRel => exact h.execStRel _ _ _
  | ldm => exact h.multiple _ _ _ _ _ (fun _ _ _ hu => hu.loadAt _ _ _ _ _)
  | stm => exact h.multiple _ _ _ _ _ (fun _ _ _ hu => hu.storeAt _ _ _)
  | nop => rw [exec_nop]; exact h.ctl _ h.fin
  | mfs => exact h.execMfs _ _
  | mts => exact h.execMts _ _
  | fenceSc => rw [exec_fenceSc]; exact h.fence _
  | fenceDie => rw [exec_fenceDie]; exact h.fence _
  | fencePkg => rw [exec_fencePkg]; exact h.fence _
  | fenceSys => exact h.fence _
  | trap => rw [exec_trap]; exact h.ctl _ (h.trapNext _ _)
  | tret => exact h.execTret
  | brk => rw [exec_brk]; exact h.ctl _ (h.trapNext _ _)
  | pause => rw [exec_pause]; exact h.ctl _ (h.fin.modMe _)
  | dcfl => exact h.execDcfl _ _
  | dcinv => exact h.execDcinv _ _
  | dcz => exact h.execDcz _ _
  | idle => exact h.execIdle
  | csave => exact h.execCsave _ _
  | cload => exact h.execCload _ _
  | ctxkill => exact h.execCtxkill _
  | ctxsig => exact h.execCtxsig _ _
  | salloc => exact h.execSalloc _ _ _ _
  | sfree => exact h.execSfree _
  | sload | sstore | sgather | sscatter | scopy | sacc | sscadd | squant | sdqnt | sread | rput | rputh | rget | racc =>
    exact h.streamFin _ _ (h.recRead _)
  | sreset => rw [exec_sreset]; exact h.streamFin _ _ h
  | sptr => exact h.execSptr _ _ _
  | srd => exact h.execSrd _ _ _
  | swr => exact h.execSwr _ _ _
  | sfill | sdecomp | sreads | rsig => exact h.streamFin _ _ h
  | smovh => exact h.execSmovh _ _
  | sinfo => rw [exec_sinfo]; exact h.ctl _ (h.ret _ _)
  | kload => exact h.execKload _ _
  | kfree => exact h.execKfree _
  | kinfo => exact h.execKinfo _ _
  | krun => exact h.execKrun _ _ _ _
  | krq => exact h.execKrq _ _ _
  | scount => exact h.execScount _ _
  | swait => exact h.execSwait _ _ _ _
  | swaita => exact h.execSwaita
  | stest => exact h.execStest _ _ _ _ _
  | sbar => exact h.execSbar _
  | rfence => exact h.execRfence
  | fspawn | fspawnh => exact h.spawnOp _ _ _ _
  | fref => exact h.execFref _
  | fdrop => exact h.execFdrop _
  | fget => exact h.getOp _ _ (fun _ _ hu => hu)
  | fgetd => rw [exec_fgetd]; exact h.getOp _ _ (fun _ _ hu => hu.drop _)
  | fpoll => exact h.execFpoll _ _
  | fret | fretf => exact h.endOp _ _
  | fyield => exact h.execFyield
  | fsig => exact h.execFsig _
  | balloc => exact h.execBalloc _ _ _
  | bfree => exact h.execBfree _
  | barr | barrd => exact h.arriveOp _ _
  | bwait => exact h.execBwait _
  | bpoll => exact h.execBpoll _ _
  | waitge => exact h.execWaitge _ _
  | glaunch => exact h.execGlaunch _ _
  | gfree => exact h.execGfree _
  | scas => exact h.execScas _ _ _ _ _ _ _
  | tlbinv => exact h.execTlbinv _
  | tlbinva => exact h.priv _ _ (h.tlbWait _ _)
  | xlat => exact h.execXlat _ _
  | rngset => exact h.execRngset _ _ _
  | rngget | pstat => exact h.priv _ _ (h.ret _ _)
  | rngcommit => exact h.execRngcommit
  | psplit | pown | pdup => exact h.priv _ _ (h.onPage _ _ _ _)
  | asyncTrap => exact State.Safe.ite (h.takeAsync _ _) h
  | trapHandover => exact h.handOver _
  | pauseExpiry => exact State.Safe.ite (h.modCtx _ _ _) h
  | contextWake => exact h.execContextWake _ _
  | messageContextStart => exact h.execMessageContextStart _
  | entryStart => exact h.execEntryStart _ _
  | streamAgentTransfer | copyEngineTransfer => exact h.engineTurn _ _ _
  | entryRetire => exact h.execEntryRetire _ _
  | entryComplete => exact h.execEntryComplete _ _
  | kernelStoreRelease => exact h.execKernelStoreRelease _ _
  | streamDeferredFree => exact h.execStreamDeferredFree _ _
  | taskDispatch => exact h.execTaskDispatch
  | reclamationPoint => exact h.execReclamationPoint _
  | taskEnd => exact h.execTaskEnd _ _
  | fsigDelivery => exact h.execFsigDelivery _ _
  | graphNodeDispatch => exact h.execGraphNodeDispatch _ _
  | launchRead => exact h.execLaunchRead _
  | budgetExpiry => exact h.execBudgetExpiry _ _
  | qcfgWrite => exact State.Safe.ite (h.writeQcfg _ _) h
  | qtailWrite => exact State.Safe.ite (h.writeQtail _ _) h
  | qstatRefClear => exact State.Safe.ite (h.writeQstat _ _) h
  | drecValidate => exact State.Safe.ite (h.writeDrec0 _ _) h
  | fidWrite => exact h.writeFid _
  | kspWrite => exact State.Safe.ite (h.writeKsp _ _) h
  | ptbWrite => exact State.Safe.ite (h.writePtb _ _) h
  | plimWrite => exact h.writePlim _
  | tthrWrite => exact h.writeTthr _
  | hlthClear => exact h.clearHlth _
  | tagStoreWrite => exact State.Safe.ite (h.writeTags _ _ _) h
  | frameMapWrite => exact State.Safe.ite (h.writeFrames _ _ _) h
  | portctlLock => exact h.lockPort _
  | portctlRun => exact h.runPort _
  | portctlUnlock => exact h.unlockPort _
  | registerWrite => exact h.regWrite _ _
  | baseDieRead => exact h.atPacket _ _ (fun _ => h.pktRead _ _)
  | baseDieWrite | baseDieMaskedWrite => exact h.atPacket _ _ (fun _ => h.pktWrite _ _)
  | baseDieAccumulate => exact h.atPacket _ _ (fun _ => h.pktAcc _ _)
  | baseDieReply => exact h.execBaseDieReply _
  | pageWalk => exact h.execPageWalk _ _
  | nvmeCompletion | nvmeTimeout => exact h.onCmd _ _ (fun _ _ _ => .ite (h.endCmd _ _ _ _ _ _) h)
  | hostWrite => exact h.execHostWrite _
  | hostRead => exact h.execHostRead _
  | hostAtomic => exact h.execHostAtomic _
  | cxlCacheRequest => exact h.execCxlCacheRequest _ _
  | bisnpResponse => exact h.execBisnpResponse _ _
  | hostLinkTimeout => exact h.execHostLinkTimeout
  | dieLoss => exact h.execDieLoss _ _
  | stackLoss => exact h.execStackLoss _
  | bridgeLinkFailure => exact h.execBridgeLinkFailure _
  | hubLoss => exact h.execHubLoss _
  | laneFailure => exact State.Safe.ite (h.failLane _) h
  | slotStart => exact State.Safe.ite h ((State.Safe.ite h h.endSlot).beginSlot _)
  | framePosition | filler => exact h.framePosition _ _
  | payloadWindowEnd => exact State.Safe.ite h.endSlot h
  | put => rw [exec_put]; exact h.frameEvent _ _
  | puth => rw [exec_puth]; exact h.frameEvent _ _
  | getreq => rw [exec_getreq]; exact h.frameEvent _ _
  | getdata => rw [exec_getdata]; exact h.frameEvent _ _
  | acc => rw [exec_acc]; exact h.frameEvent _ _
  | sig => rw [exec_sig]; exact h.frameEvent _ _
  | ack => rw [exec_ack]; exact h.frameEvent _ _
  | descriptorFrame => rw [exec_descriptorFrame]; exact h.frameEvent _ _
  | relayFrame => exact h.execRelayFrame _ _
  | e2eTimeout => exact h.execE2eTimeout _ _
  | livenessTimeout => exact h.execLivenessTimeout _
  | getCertificate | challenge => exact h.atSpdm _ (h.emit _)
  | getMeasurements => exact h.execGetMeasurements _
  | keyUpdate => exact h.execKeyUpdate _
  | moduleReset => exact h.execModuleReset _
  | thermalTrip => exact h.trip
  | powerSample => exact h.execPowerSample _
  | illegalInstruction => rw [exec_illegalInstruction]; exact h.ctl _ (h.trap _ _)
  | fetchFault => rw [exec_fetchFault]; exact h.ctl _ (h.takeTrap _ _ _ _ _ _)
  | dceBlockWrite => exact h.execDceBlockWrite _ _
  | portLinkFailure => exact h.failPort _
  | configurationRequest => exact h.execConfigurationRequest _ _
  | spdmSession => exact h.execSpdmSession _

/-- Every agent's turn keeps the machine safe. -/
theorem State.Safe.act (h : s.Safe) (a : Agent) : SafeNext (act a s) := by
  have hex : ∀ i u, State.Safe u → SafeNext (Machine.exec i u) := fun i _ hu => hu.exec i
  cases a with
  | context n => exact h.issueContext hex n
  | run n k => exact (h.markRipe n).runCycle hex n k
  | event i => exact .ite (h.exec i) h
  | evictLine n k => exact h.evict n k
  | peerSplit a => exact h.peerAct _ _
  | peerOwn a o => exact h.peerAct _ _
  | peerDup a copy => exact h.peerAct _ _
  | peerBlock a leaf data => exact h.peerBlock _ _ _
  | peerTurn a => exact h.peerTurn _
  | peerDone a p => exact h.peerDone _ _

/-- What stands before the agent acts: the turn is taken, time has passed and blocked slices have ended. -/
theorem State.Safe.begun (h : s.Safe) : (s.takeTurn.2.advance s.takeTurn.1.ns s.takeTurn.1.cyc).expireBlocked.Safe :=
  (h.takeTurn.advance _ _).expireBlocked

theorem State.Safe.step (h : s.Safe) : SafeNext (step s) := by
  have ha := h.begun.act s.takeTurn.1.who
  refine .ite ?_ h.begun
  split
  · next t ht =>
    rw [ht] at ha
    exact h.begun.afterTurn ha
  · trivial
  · trivial

/-- Settles O59: the turn's agent keeps the machine safe (`State.Safe.act`), as do the time before it and what follows at once. -/
theorem stepKeepsSafe : Obligations.StepKeepsSafe := by
  intro s t hs ht
  have h := hs.step
  rw [ht] at h
  exact h

end Sys2Proof.Machine
end

section
/-!
SUPPORT. The translation instructions (R277): XLAT in a state whose walkers' port still owes a write.
-/

namespace Sys2Proof.Machine

/-- The walk of XLAT's address performs the write that the walkers' port owes. -/
theorem xlat_walks : WalksIn 0x100 (.xlat 2 1) := by unfold WalksIn; decide

/-- Refutes O38: XLAT of address 0x100 in `accessPending` walks the page table, and a write that
the port for walks still owes to the unit of a PTE performs before (R284), so that the byte at
0x1008 changes where the statement says that every byte stays. -/
theorem not_translationInstructions : ¬ Obligations.TranslationInstructions := by
  intro h
  obtain ⟨⟨t, hx, -, hbytes, -⟩, -⟩ := h (accessPending 0x100) 2 1 0 0 (accessPending_filled _)
  exact xlat_walks.not_sameBytes hx hbytes

end Sys2Proof.Machine
end

section
/-!
SUPPORT. The round trip of every instruction (R43, R54), from the law of each constructor.
-/

namespace Sys2Proof.Machine

open Laws.RoundTrip in
/-- Settles O58: the round trip of each instruction is the law of its constructor. -/
theorem encodingsRoundTrip : Obligations.EncodingsRoundTrip
  | .ctlNop => ctlNop | .ctlHalt => ctlHalt | .ctlBr _ => ctlBr _ | .ctlBany _ _ => ctlBany _ _
  | .ctlBall _ _ => ctlBall _ _ | .ctlBnone _ _ => ctlBnone _ _ | .ctlBnall _ _ => ctlBnall _ _
  | .ctlLset _ _ => ctlLset _ _ | .ctlLsetk _ _ => ctlLsetk _ _ | .ctlLsetv _ _ => ctlLsetv _ _
  | .ctlLbnz _ _ => ctlLbnz _ _ | .ctlBkz _ _ => ctlBkz _ _ | .ctlBknz _ _ => ctlBknz _ _
  | .ctlKret _ _ => ctlKret _ _ | .ctlKretp _ => ctlKretp _ | .ctlIdle _ => ctlIdle _
  | .hkChkeq _ _ _ => hkChkeq _ _ _ | .hkChkz _ _ => hkChkz _ _ | .hkChkovf _ _ => hkChkovf _ _
  | .hkChkall _ _ => hkChkall _ _ | .iAdd _ _ _ _ => iAdd _ _ _ _ | .iSub _ _ _ _ => iSub _ _ _ _
  | .iMul _ _ _ _ => iMul _ _ _ _ | .iMulhs _ _ _ _ => iMulhs _ _ _ _ | .iMulhz _ _ _ _ => iMulhz _ _ _ _
  | .iAnd _ _ _ _ => iAnd _ _ _ _ | .iOr _ _ _ _ => iOr _ _ _ _ | .iXor _ _ _ _ => iXor _ _ _ _
  | .iAndn _ _ _ _ => iAndn _ _ _ _ | .iShl _ _ _ _ => iShl _ _ _ _ | .iShrz _ _ _ _ => iShrz _ _ _ _
  | .iShrs _ _ _ _ => iShrs _ _ _ _ | .iRotl _ _ _ _ => iRotl _ _ _ _ | .iMins _ _ _ _ => iMins _ _ _ _
  | .iMaxs _ _ _ _ => iMaxs _ _ _ _ | .iMinz _ _ _ _ => iMinz _ _ _ _ | .iMaxz _ _ _ _ => iMaxz _ _ _ _
  | .iAbs _ _ _ => iAbs _ _ _ | .iAddss _ _ _ _ => iAddss _ _ _ _ | .iAddsz _ _ _ _ => iAddsz _ _ _ _
  | .iSubss _ _ _ _ => iSubss _ _ _ _ | .iSubsz _ _ _ _ => iSubsz _ _ _ _ | .iAbsds _ _ _ _ => iAbsds _ _ _ _
  | .iAbsdz _ _ _ _ => iAbsdz _ _ _ _ | .iAvgs _ _ _ _ => iAvgs _ _ _ _ | .iAvgz _ _ _ _ => iAvgz _ _ _ _
  | .iAddx2 _ _ _ _ => iAddx2 _ _ _ _ | .iAddx4 _ _ _ _ => iAddx4 _ _ _ _ | .iAddx8 _ _ _ _ => iAddx8 _ _ _ _
  | .iHadd _ _ _ _ => iHadd _ _ _ _ | .iHsub _ _ _ _ => iHsub _ _ _ _ | .iHaddss _ _ _ _ => iHaddss _ _ _ _
  | .iHaddsz _ _ _ _ => iHaddsz _ _ _ _ | .iHsubss _ _ _ _ => iHsubss _ _ _ _ | .iHsubsz _ _ _ _ => iHsubsz _ _ _ _
  | .iHmul _ _ _ _ => iHmul _ _ _ _ | .iHmins _ _ _ _ => iHmins _ _ _ _ | .iHmaxs _ _ _ _ => iHmaxs _ _ _ _
  | .iHminz _ _ _ _ => iHminz _ _ _ _ | .iHmaxz _ _ _ _ => iHmaxz _ _ _ _ | .iHabsds _ _ _ _ => iHabsds _ _ _ _
  | .iHabsdz _ _ _ _ => iHabsdz _ _ _ _ | .iHavgs _ _ _ _ => iHavgs _ _ _ _ | .iHavgz _ _ _ _ => iHavgz _ _ _ _
  | .iFext _ _ _ _ => iFext _ _ _ _ | .iFexts _ _ _ _ => iFexts _ _ _ _ | .iCeq _ _ _ _ => iCeq _ _ _ _
  | .iCne _ _ _ _ => iCne _ _ _ _ | .iClts _ _ _ _ => iClts _ _ _ _ | .iCltz _ _ _ _ => iCltz _ _ _ _
  | .iCles _ _ _ _ => iCles _ _ _ _ | .iClez _ _ _ _ => iClez _ _ _ _ | .iPand _ _ _ _ => iPand _ _ _ _
  | .iPor _ _ _ _ => iPor _ _ _ _ | .iPxor _ _ _ _ => iPxor _ _ _ _ | .iSel _ _ _ _ => iSel _ _ _ _
  | .iPcnt _ _ _ => iPcnt _ _ _ | .iClz _ _ _ => iClz _ _ _ | .iPget _ _ _ => iPget _ _ _ | .iMov _ _ _ => iMov _ _ _
  | .fFadd _ _ _ _ => fFadd _ _ _ _ | .fFsub _ _ _ _ => fFsub _ _ _ _ | .fFmul _ _ _ _ => fFmul _ _ _ _
  | .fFma _ _ _ _ => fFma _ _ _ _ | .fFnma _ _ _ _ => fFnma _ _ _ _ | .fFmin _ _ _ _ => fFmin _ _ _ _
  | .fFmax _ _ _ _ => fFmax _ _ _ _ | .fFabs _ _ _ => fFabs _ _ _ | .fFneg _ _ _ => fFneg _ _ _
  | .fFcpsgn _ _ _ _ => fFcpsgn _ _ _ _ | .fFceq _ _ _ _ => fFceq _ _ _ _ | .fFclt _ _ _ _ => fFclt _ _ _ _
  | .fFcle _ _ _ _ => fFcle _ _ _ _ | .fFcun _ _ _ _ => fFcun _ _ _ _ | .fFrcp _ _ _ => fFrcp _ _ _
  | .fFrsq _ _ _ => fFrsq _ _ _ | .fFexp2 _ _ _ => fFexp2 _ _ _ | .fFlog2 _ _ _ => fFlog2 _ _ _
  | .fBadd _ _ _ _ => fBadd _ _ _ _ | .fBsub _ _ _ _ => fBsub _ _ _ _ | .fBmul _ _ _ _ => fBmul _ _ _ _
  | .fBfma _ _ _ _ => fBfma _ _ _ _ | .fBmin _ _ _ _ => fBmin _ _ _ _ | .fBmax _ _ _ _ => fBmax _ _ _ _
  | .fFdot2 _ _ _ _ => fFdot2 _ _ _ _ | .fFclamp _ _ _ _ => fFclamp _ _ _ _ | .fFsat _ _ _ => fFsat _ _ _
  | .fFrnd _ _ _ => fFrnd _ _ _ | .fFscl _ _ _ _ => fFscl _ _ _ _ | .fCvtsf _ _ _ => fCvtsf _ _ _
  | .fCvtzf _ _ _ => fCvtzf _ _ _ | .fCvtfs _ _ _ => fCvtfs _ _ _ | .fCvtfz _ _ _ => fCvtfz _ _ _
  | .fCvtfb _ _ _ _ => fCvtfb _ _ _ _ | .fCvtbfl _ _ _ => fCvtbfl _ _ _ | .fCvtbfh _ _ _ => fCvtbfh _ _ _
  | .fCvtlsf _ _ _ => fCvtlsf _ _ _ | .fCvthsf _ _ _ => fCvthsf _ _ _ | .fCvtlzf _ _ _ => fCvtlzf _ _ _
  | .fCvthzf _ _ _ => fCvthzf _ _ _ | .tmTldw _ => tmTldw _ | .tmTldwt _ => tmTldwt _ | .tmTmma _ _ _ => tmTmma _ _ _
  | .tmTmmz _ _ _ => tmTmmz _ _ _ | .tmTmmn _ _ _ => tmTmmn _ _ _ | .tmTldx _ => tmTldx _ | .tmTdrn => tmTdrn
  | .tmTwclr => tmTwclr | .tmTstat _ _ => tmTstat _ _ | .tmTscl _ _ => tmTscl _ _ | .tmTbias _ _ => tmTbias _ _
  | .tmTamw _ _ _ => tmTamw _ _ _ | .tmTcvt _ _ => tmTcvt _ _ | .tmTmmh _ _ _ => tmTmmh _ _ _ | .ptPld4 _ => ptPld4 _
  | .ptPld8 _ => ptPld8 _ | .ptPlds _ => ptPlds _ | .ptPpass _ _ _ => ptPpass _ _ _
  | .ptPpassz _ _ _ => ptPpassz _ _ _ | .ptPpassn _ _ _ => ptPpassn _ _ _ | .ptPcvt _ _ _ => ptPcvt _ _ _
  | .ptPclro _ => ptPclro _ | .ptPstat _ _ => ptPstat _ _ | .ptPtclr => ptPtclr | .ptPdrn => ptPdrn
  | .ptPscan _ _ _ => ptPscan _ _ _ | .sSpop _ _ _ _ => sSpop _ _ _ _ | .sSpopc _ _ _ => sSpopc _ _ _
  | .sSpush _ _ => sSpush _ _ | .sSpushc _ _ _ => sSpushc _ _ _ | .sSwaitf _ _ => sSwaitf _ _
  | .sSwaite _ _ => sSwaite _ _ | .sSadvr _ _ => sSadvr _ _ | .sSadvw _ _ => sSadvw _ _
  | .sTfill _ _ _ => sTfill _ _ _ | .sTfillx _ _ => sTfillx _ _ | .sScnt _ => sScnt _ | .sSflush _ => sSflush _
  | .sSptrr _ _ _ => sSptrr _ _ _ | .sSptrw _ _ _ => sSptrw _ _ _ | .sSavail _ _ _ => sSavail _ _ _
  | .sSspace _ _ _ => sSspace _ _ _ | .xsXperm _ _ _ _ => xsXperm _ _ _ _ | .xsXpermc _ _ _ _ => xsXpermc _ _ _ _
  | .xsXbc _ _ _ _ => xsXbc _ _ _ _ | .xsXbcc _ _ _ _ => xsXbcc _ _ _ _ | .xsXrot _ _ _ _ => xsXrot _ _ _ _
  | .xsXrotc _ _ _ _ => xsXrotc _ _ _ _ | .xsXcmp _ _ _ => xsXcmp _ _ _ | .xsXcmpc _ _ _ => xsXcmpc _ _ _
  | .xsXexp _ _ _ => xsXexp _ _ _ | .xsXcnt _ _ => xsXcnt _ _ | .amAalloc _ => amAalloc _
  | .amAallocp _ => amAallocp _ | .amAfree _ => amAfree _ | .amMclaim _ => amMclaim _ | .amMrel _ => amMrel _
  | .amArd _ _ _ _ => amArd _ _ _ _ | .amArdh _ _ _ _ => amArdh _ _ _ _ | .amAclr _ => amAclr _
  | .resultLanding _ _ => resultLanding _ _ | .tileRowEntry _ _ => tileRowEntry _ _
  | .tileUpdateVisible _ _ => tileUpdateVisible _ _ | .partsUpdateVisible _ _ => partsUpdateVisible _ _
  | .tldxReadEnd _ _ => tldxReadEnd _ _ | .kernelRunStart _ _ => kernelRunStart _ _
  | .runCompletion _ _ => runCompletion _ _ | .preemption _ _ => preemption _ _ | .runRestore _ _ => runRestore _ _
  | .runReclaimStop _ _ => runReclaimStop _ _ | .pthrExpiry _ _ => pthrExpiry _ _ | .add _ _ _ => add _ _ _
  | .sub _ _ _ => sub _ _ _ | .mul _ _ _ => mul _ _ _ | .mulhs _ _ _ => mulhs _ _ _ | .mulhz _ _ _ => mulhz _ _ _
  | .divs _ _ _ => divs _ _ _ | .divz _ _ _ => divz _ _ _ | .rems _ _ _ => rems _ _ _ | .remz _ _ _ => remz _ _ _
  | .and _ _ _ => and _ _ _ | .or _ _ _ => or _ _ _ | .xor _ _ _ => xor _ _ _ | .andn _ _ _ => andn _ _ _
  | .shl _ _ _ => shl _ _ _ | .shrz _ _ _ => shrz _ _ _ | .shrs _ _ _ => shrs _ _ _ | .slts _ _ _ => slts _ _ _
  | .sltz _ _ _ => sltz _ _ _ | .popc _ _ => popc _ _ | .addi _ _ _ => addi _ _ _ | .andi _ _ _ => andi _ _ _
  | .ori _ _ _ => ori _ _ _ | .xori _ _ _ => xori _ _ _ | .shli _ _ _ => shli _ _ _ | .shrzi _ _ _ => shrzi _ _ _
  | .shrsi _ _ _ => shrsi _ _ _ | .sltsi _ _ _ => sltsi _ _ _ | .sltzi _ _ _ => sltzi _ _ _ | .ldi _ _ => ldi _ _
  | .lsi _ _ => lsi _ _ | .beq _ _ _ => beq _ _ _ | .bne _ _ _ => bne _ _ _ | .blts _ _ _ => blts _ _ _
  | .bges _ _ _ => bges _ _ _ | .bltz _ _ _ => bltz _ _ _ | .bgez _ _ _ => bgez _ _ _ | .j _ => j _ | .jal _ => jal _
  | .jr _ => jr _ | .jalr _ _ => jalr _ _ | .lb _ _ _ => lb _ _ _ | .lbz _ _ _ => lbz _ _ _ | .lh _ _ _ => lh _ _ _
  | .lhz _ _ _ => lhz _ _ _ | .lw _ _ _ => lw _ _ _ | .lwz _ _ _ => lwz _ _ _ | .ld _ _ _ => ld _ _ _
  | .ldx _ _ _ => ldx _ _ _ | .sb _ _ _ => sb _ _ _ | .sh _ _ _ => sh _ _ _ | .sw _ _ _ => sw _ _ _
  | .sd _ _ _ => sd _ _ _ | .ldAcq _ _ _ => ldAcq _ _ _ | .stRel _ _ _ => stRel _ _ _ | .ldm _ _ _ => ldm _ _ _
  | .stm _ _ _ => stm _ _ _ | .nop => nop | .mfs _ _ => mfs _ _ | .mts _ _ => mts _ _ | .fenceSc => fenceSc
  | .fenceDie => fenceDie | .fencePkg => fencePkg | .fenceSys => fenceSys | .trap _ => trap _ | .tret => tret
  | .brk _ => brk _ | .pause => pause | .dcfl _ _ => dcfl _ _ | .dcinv _ _ => dcinv _ _ | .dcz _ _ => dcz _ _
  | .idle => idle | .csave _ _ => csave _ _ | .cload _ _ => cload _ _ | .ctxkill _ => ctxkill _
  | .ctxsig _ _ => ctxsig _ _ | .salloc _ _ _ _ => salloc _ _ _ _ | .sfree _ => sfree _
  | .sload _ _ _ _ => sload _ _ _ _ | .sstore _ _ _ _ => sstore _ _ _ _ | .sgather _ _ _ _ => sgather _ _ _ _
  | .sscatter _ _ _ _ => sscatter _ _ _ _ | .sreset _ => sreset _ | .sptr _ _ _ => sptr _ _ _
  | .srd _ _ _ => srd _ _ _ | .swr _ _ _ => swr _ _ _ | .sfill _ _ _ _ => sfill _ _ _ _ | .smovh _ _ => smovh _ _
  | .sinfo _ _ => sinfo _ _ | .kload _ _ => kload _ _ | .kfree _ => kfree _ | .kinfo _ _ => kinfo _ _
  | .krun _ _ _ _ => krun _ _ _ _ | .krq _ _ _ => krq _ _ _ | .scount _ _ => scount _ _
  | .swait _ _ _ _ => swait _ _ _ _ | .swaita => swaita | .stest _ _ _ _ _ => stest _ _ _ _ _ | .sbar _ => sbar _
  | .rfence => rfence | .fspawn _ _ _ => fspawn _ _ _ | .fspawnh _ _ _ _ => fspawnh _ _ _ _ | .fref _ => fref _
  | .fdrop _ => fdrop _ | .fget _ _ => fget _ _ | .fgetd _ _ => fgetd _ _ | .fpoll _ _ => fpoll _ _
  | .fret _ => fret _ | .fretf _ => fretf _ | .fyield => fyield | .fsig _ => fsig _ | .balloc _ _ _ => balloc _ _ _
  | .bfree _ => bfree _ | .barr _ => barr _ | .barrd _ => barrd _ | .bwait _ => bwait _ | .bpoll _ _ => bpoll _ _
  | .waitge _ _ => waitge _ _ | .glaunch _ _ => glaunch _ _ | .gfree _ => gfree _
  | .scopy _ _ _ _ _ _ => scopy _ _ _ _ _ _ | .sacc _ _ _ _ _ => sacc _ _ _ _ _
  | .scas _ _ _ _ _ _ _ => scas _ _ _ _ _ _ _ | .sscadd _ _ _ _ _ => sscadd _ _ _ _ _ | .squant _ _ => squant _ _
  | .sdqnt _ _ => sdqnt _ _ | .sdecomp _ _ _ _ => sdecomp _ _ _ _ | .sread _ _ => sread _ _
  | .sreads _ _ => sreads _ _ | .rput _ _ _ _ _ => rput _ _ _ _ _ | .rputh _ _ _ _ _ _ => rputh _ _ _ _ _ _
  | .rget _ _ _ _ => rget _ _ _ _ | .racc _ _ _ _ _ _ => racc _ _ _ _ _ _ | .rsig _ _ _ _ => rsig _ _ _ _
  | .tlbinv _ => tlbinv _ | .tlbinva => tlbinva | .xlat _ _ => xlat _ _ | .rngset _ _ _ => rngset _ _ _
  | .rngget _ _ _ _ => rngget _ _ _ _ | .rngcommit => rngcommit | .psplit _ => psplit _ | .pown _ _ => pown _ _
  | .pdup _ _ => pdup _ _ | .pstat _ _ => pstat _ _ | .asyncTrap _ _ => asyncTrap _ _
  | .trapHandover _ => trapHandover _ | .pauseExpiry _ _ => pauseExpiry _ _ | .contextWake _ _ => contextWake _ _
  | .messageContextStart _ => messageContextStart _ | .entryStart _ _ => entryStart _ _
  | .streamAgentTransfer _ _ => streamAgentTransfer _ _ | .entryRetire _ _ => entryRetire _ _
  | .entryComplete _ _ => entryComplete _ _ | .kernelStoreRelease _ _ => kernelStoreRelease _ _
  | .streamDeferredFree _ _ => streamDeferredFree _ _ | .taskDispatch => taskDispatch
  | .reclamationPoint _ => reclamationPoint _ | .taskEnd _ _ => taskEnd _ _ | .fsigDelivery _ _ => fsigDelivery _ _
  | .graphNodeDispatch _ _ => graphNodeDispatch _ _ | .launchRead _ => launchRead _
  | .budgetExpiry _ _ => budgetExpiry _ _ | .qcfgWrite _ _ => qcfgWrite _ _ | .qtailWrite _ _ => qtailWrite _ _
  | .qstatRefClear _ _ => qstatRefClear _ _ | .drecValidate _ _ => drecValidate _ _ | .fidWrite _ => fidWrite _
  | .kspWrite _ _ => kspWrite _ _ | .ptbWrite _ _ => ptbWrite _ _ | .plimWrite _ => plimWrite _
  | .tthrWrite _ => tthrWrite _ | .hlthClear _ => hlthClear _ | .tagStoreWrite _ _ => tagStoreWrite _ _
  | .frameMapWrite _ _ => frameMapWrite _ _ | .portctlLock _ => portctlLock _ | .portctlRun _ => portctlRun _
  | .portctlUnlock _ => portctlUnlock _ | .registerWrite _ _ => registerWrite _ _ | .baseDieRead _ => baseDieRead _
  | .baseDieWrite _ => baseDieWrite _ | .baseDieMaskedWrite _ => baseDieMaskedWrite _
  | .baseDieAccumulate _ => baseDieAccumulate _ | .baseDieReply _ => baseDieReply _ | .pageWalk _ _ => pageWalk _ _
  | .nvmeCompletion _ _ _ _ => nvmeCompletion _ _ _ _ | .nvmeTimeout _ _ => nvmeTimeout _ _
  | .hostWrite _ => hostWrite _ | .hostRead _ => hostRead _ | .hostAtomic _ => hostAtomic _
  | .cxlCacheRequest _ _ => cxlCacheRequest _ _ | .bisnpResponse _ _ => bisnpResponse _ _
  | .hostLinkTimeout => hostLinkTimeout | .dieLoss _ _ => dieLoss _ _ | .stackLoss _ => stackLoss _
  | .bridgeLinkFailure _ => bridgeLinkFailure _ | .hubLoss _ => hubLoss _ | .laneFailure _ => laneFailure _
  | .slotStart => slotStart | .framePosition _ _ => framePosition _ _ | .payloadWindowEnd => payloadWindowEnd
  | .filler _ _ => filler _ _ | .put _ => put _ | .puth _ => puth _ | .getreq _ => getreq _ | .getdata _ => getdata _
  | .acc _ => acc _ | .sig _ => sig _ | .ack _ => ack _ | .descriptorFrame _ => descriptorFrame _
  | .relayFrame _ _ => relayFrame _ _ | .e2eTimeout _ _ => e2eTimeout _ _ | .livenessTimeout _ => livenessTimeout _
  | .getCertificate _ => getCertificate _ | .challenge _ => challenge _ | .getMeasurements _ => getMeasurements _
  | .keyUpdate _ => keyUpdate _ | .moduleReset _ => moduleReset _ | .thermalTrip => thermalTrip
  | .powerSample _ => powerSample _ | .illegalInstruction _ => illegalInstruction _ | .fetchFault _ => fetchFault _
  | .copyEngineTransfer _ _ => copyEngineTransfer _ _ | .dceBlockWrite _ _ => dceBlockWrite _ _
  | .portLinkFailure _ => portLinkFailure _ | .configurationRequest _ _ => configurationRequest _ _
  | .spdmSession _ => spdmSession _

end Sys2Proof.Machine
end

section
/-!
SUPPORT. Every instruction, every agent's turn and every step answers a next state, and the statement about it.
-/

namespace Sys2Proof.Machine

/-- The outcome is a next state: neither a fault nor a refusal. -/
def Answers (r : Result) : Prop := ∃ t, r = .next t

theorem Answers.next (t : State) : Answers (.next t) := ⟨t, rfl⟩

theorem Answers.ite {c : Prop} [Decidable c] {a b : Result} (ha : Answers a) (hb : Answers b) : Answers (if c then a else b) := by
  split
  · exact ha
  · exact hb

/-! ## The shapes of instructions -/

/-- An instruction that awaits its registers answers, since its wait does, once what it then does answers (R188, R315). -/
theorem Answers.ctlFirst (rs : List (BitVec 5)) {s : State} {f : State → Result} (hf : Answers (f s)) : Answers (ctlFirst rs s f) := by
  unfold Machine.ctlFirst
  split
  · exact .next _
  · exact hf

theorem Answers.ctl (rs : List (BitVec 5)) (s : State) (f : State → State) : Answers (ctl rs s f) :=
  .ctlFirst (f := fun t => .next (f t)) rs (.next _)

theorem Answers.priv (w : Word) (rs : List (BitVec 5)) (s : State) (f : State → State) : Answers (priv w rs s f) :=
  .ite (.ctl _ _ _) (.next _)

/-- LDM and STM go on with the accesses that remain, or begin (R201). -/
theorem Answers.multiple (i : W32) (w : Bool) (d a : BitVec 5) (n : BitVec 3) (f : Nat → Xlat → State → State) (s : State) :
    Answers (multiple i w d a n f s) := by
  unfold Machine.multiple
  split
  · exact .next _
  · exact .ctl _ _ _

/-- An instruction answers by its shape. Kernel operations (`kop`, `kport`), fences, events and the control-core instructions that read no
register are a next state outright. -/
theorem exec_answers (i : Instr) (s : State) : Answers (exec i s) := by
  cases i with
  | ldm | stm => apply Answers.multiple
  | krun =>
    apply Answers.ctlFirst
    exact .ite (.next _) (.ctl _ _ _)
  | scas => exact .ite (.ctl _ _ _) (.ctl _ _ _)
  | tret | dcinv | idle | csave | cload | ctxkill | ctxsig | tlbinv | tlbinva | rngset | rngget | rngcommit | psplit |
  pown | pdup | pstat =>
    apply Answers.priv
  | add | sub | mul | mulhs | mulhz | divs | divz | rems | remz | and | or | xor | andn | shl | shrz | shrs | slts |
  sltz | popc | addi | andi | ori | xori | shli | shrzi | shrsi | sltsi | sltzi | ldi | lsi | beq | bne | blts | bges
  | bltz | bgez | jal | jr | jalr | lb | lbz | lh | lhz | lw | lwz | ld | ldx | sb | sh | sw | sd | ldAcq | stRel |
  mfs | mts | dcfl | dcz | salloc | sload | sstore | sgather | sscatter | sptr | srd | swr | sfill | sinfo | kload |
  kfree | kinfo | krq | scount | stest | fspawn | fspawnh | fref | fdrop | fget | fgetd | fpoll | fret | fretf |
  balloc | bfree | barr | barrd | bwait | bpoll | waitge | glaunch | gfree | scopy | sacc | sscadd | squant | sdqnt |
  sdecomp | sread | sreads | rput | rputh | rget | racc | rsig | xlat =>
    apply Answers.ctl
  | _ => exact .next _

/-! ## Agents and steps -/

/-- Syllables issued one after the other answer where the operations do. -/
theorem issueSyls_answers {ex : Instr → State → Result} (hex : ∀ i s, Answers (ex i s)) (js : List Nat) (s : State) :
    Answers (issueSyls ex js s) := by
  induction js generalizing s with
  | nil => exact .next _
  | cons j js ih =>
    unfold issueSyls
    dsimp only
    split
    · exact ih _
    · next i _ =>
      obtain ⟨u, hu⟩ := hex i { s with cur := { s.cur with syl := j } }
      rw [hu]
      exact ih u

theorem issueBundle_answers {ex : Instr → State → Result} (hex : ∀ i s, Answers (ex i s)) (s : State) (n k : Nat) :
    Answers (s.issueBundle ex n k) := by
  unfold State.issueBundle
  obtain ⟨u, hu⟩ := issueSyls_answers hex (List.range 14)
    { s.setRun n k ((s.run n k).landAll.beginBundle (s.bundleAt n (s.run n k))) with cur := { s.cur with sc := n, run := k } }
  dsimp only
  rw [hu]
  exact .next _

/-- A run's cycle (R15, R20): where it issues no bundle it is a next state outright. -/
theorem runCycle_answers {ex : Instr → State → Result} (hex : ∀ i s, Answers (ex i s)) (s : State) (n k : Nat) :
    Answers (s.runCycle ex n k) :=
  .ite (.next _) (.ite (.next _) (.ite (.next _) (.ite (.next _) (issueBundle_answers hex _ _ _))))

/-- A control core's turn (R165): what it issues is one instruction, or nothing. -/
theorem issueContext_answers {ex : Instr → State → Result} (hex : ∀ i s, Answers (ex i s)) (s : State) (n : Nat) :
    Answers (s.issueContext ex n) := by
  unfold State.issueContext
  split
  · exact .next _
  · split
    · exact hex _ _
    · exact .ite (hex _ _) (.ite (hex _ _) (.ite (hex _ _) (hex _ _)))

theorem act_answers (a : Agent) (s : State) : Answers (act a s) := by
  cases a with
  | context n => exact issueContext_answers exec_answers _ _
  | run n k => exact runCycle_answers exec_answers _ _ _
  | event i => exact .ite (exec_answers _ _) (.next _)
  | evictLine | peerSplit | peerOwn | peerDup | peerBlock | peerTurn | peerDone => exact .next _

theorem State.goesOn (s : State) : s.GoesOn := by
  change Answers (step s)
  unfold step
  refine .ite ?_ (.next _)
  obtain ⟨t, ht⟩ := act_answers s.takeTurn.1.who ((s.takeTurn.2.advance s.takeTurn.1.ns s.takeTurn.1.cyc).expireBlocked)
  rw [ht]
  exact .next _

/-- Settles O54: each instruction by its shape, and a step by its agent. -/
theorem everyInstructionRuns : Obligations.EveryInstructionRuns :=
  ⟨exec_answers, State.goesOn⟩

end Sys2Proof.Machine
end

section
/-!
SUPPORT. Bits of HLTH that hardware sets, and the thermal trip (R353, R394, R395).
-/

namespace Sys2Proof.Machine

/-! ## Bits set -/

theorem getLsbD_bit (b : Nat) {i : Nat} (hi : i < 64) : ((1 <<< b : Nat) : Word).getLsbD i = (i == b) := by
  rw [BitVec.natCast_eq_ofNat, BitVec.getLsbD_ofNat, Nat.one_shiftLeft, Nat.testBit_two_pow, decide_eq_true hi, Bool.true_and,
    Bool.eq_iff_iff, decide_eq_true_iff, beq_iff_eq, eq_comm]

/-- The bits of a word with some set: those it had, and those. -/
theorem bitNat_withBits (bits : List Nat) (w : Word) {i : Nat} (hi : i < 64) :
    bitNat (withBits bits w).toNat i = (bitNat w.toNat i || bits.contains i) := by
  unfold withBits
  induction bits generalizing w with
  | nil => simp
  | cons b bits ih =>
    rw [List.foldl_cons, ih, bitNat_toNat, bitNat_toNat, BitVec.getLsbD_or, getLsbD_bit b hi, List.contains_cons, Bool.or_assoc]

/-- The bits of HLTH after hardware has set some. -/
theorem State.bitNat_setHlth (s : State) (bits : List Nat) {i : Nat} (hi : i < 64) :
    bitNat (s.setHlth bits).mgmt.hlth.toNat i = (bitNat s.mgmt.hlth.toNat i || bits.contains i) := bitNat_withBits bits _ hi

/-! ## The trip -/

/-- What the trip leaves, a trip at a temperature leaves. -/
theorem State.tripAt_keeps {α : Type} (s : State) (temp : Nat) (f : State → α) (hf : f s.trip = f s) : f (s.tripAt temp) = f s := by
  unfold State.tripAt
  split
  · exact hf
  · rfl

/-- A trip clears no bit of HLTH, and sets TRIP and REPLACE alone. -/
theorem State.bitNat_hlth_tripAt (s : State) (temp : Nat) {i : Nat} (hi : i < 62) :
    bitNat (s.tripAt temp).mgmt.hlth.toNat i = bitNat s.mgmt.hlth.toNat i := by
  refine s.tripAt_keeps temp (fun u => bitNat u.mgmt.hlth.toNat i) ?_
  have hb : [hlthTrip, hlthReplace].contains i = false := by simp [hlthTrip, hlthReplace]; omega
  exact (State.bitNat_setHlth _ _ (by omega)).trans (by rw [hb, Bool.or_false])

theorem State.tripAt_tripped (s : State) {temp : Nat} (h : 110 ≤ temp) : (s.tripAt temp).mgmt.tripped = true := by
  unfold State.tripAt
  rw [if_pos h]
  rfl

end Sys2Proof.Machine
end

section
/-!
SUPPORT. Module reset, identity, the thermal trip and power samples (R388-R395).
-/

namespace Sys2Proof.Machine

variable {s : State}

/-! ## The boot (R388, R389) -/

/-- BOOTALT says that the alternate image was booted: no loss sets it. -/
theorem bitNat_bootHlth_bootAlt (was now : Topo) (alt : Bool) : bitNat (bootHlth was now alt).toNat hlthBootAlt = alt := by
  rw [bootHlth, bitNat_withBits _ _ (by decide)]
  have hl : ∀ i ∈ lossReasons was now, i < hlthBootAlt := by
    intro i hi
    simp only [lossReasons, List.mem_append, List.mem_ite_nil_right, List.mem_singleton] at hi
    rcases hi with (((⟨-, rfl⟩ | ⟨-, rfl⟩) | ⟨-, rfl⟩) | ⟨-, rfl⟩) | ⟨-, rfl⟩ <;> decide
  have hn : hlthBootAlt ∉ lossReasons was now := fun h => absurd (hl _ h) (by decide)
  have hr : hlthBootAlt ∉ (if (lossReasons was now).isEmpty then [] else [hlthReplace]) := by split <;> decide
  have hf : hlthBootAlt ∉ (if now.acthost then [hlthHostFo] else []) := by split <;> decide
  rw [show bitNat (0 : Word).toNat hlthBootAlt = false by decide, Bool.false_or, Bool.eq_iff_iff, List.contains_iff_mem, List.mem_append,
    List.mem_append, List.mem_append, or_iff_right (fun h => h.elim (fun h => h.elim hn hr) hf)]
  cases alt <;> decide

/-- A table of the values at 0 to n - 1 holds them. -/
theorem tgetD_map_range {α : Type} {n k : Nat} (f : Nat → α) (hk : k < n) (d : α) :
    tgetD ((List.range n).map fun i => (i, f i)) k d = f k := by
  have hkeys : ((List.range n).map fun i => (i, f i)).map Prod.fst = List.range n := by
    rw [List.map_map]
    exact List.map_id _
  have hnodup : (((List.range n).map fun i => (i, f i)).map Prod.fst).Nodup := by
    rw [hkeys]
    exact List.nodup_range
  rw [tgetD, tget_of_mem hnodup (List.mem_map_of_mem (List.mem_range.mpr hk))]
  rfl

/-- What a boot of an accepted image comes to, on a package that does not split. -/
theorem State.boot_of (b : BootInput) (img : List Byte) (alt : Bool) (h : ¬(b.bridges = 0 ∧ (bootTopo b).halves = 3)) :
    let t := s.boot b img alt
    t.mem = s.mem ∧ t.topo = bootTopo b ∧ t.tb = 0 ∧ t.futs = [] ∧ t.queues = [] ∧ t.mgmt.dead = false
      ∧ t.mgmt.minSvn = s.mgmt.minSvn ∧ (∀ n, n < 16 → (bootTopo b).cores.getD n 0 ≠ 0 → t.sc n = bootSc)
      ∧ bitNat t.mgmt.hlth.toNat 61 = alt := by
  unfold State.boot
  dsimp only
  rw [if_neg h]
  refine ⟨State.tripAt_keeps _ _ State.mem rfl, State.tripAt_keeps _ _ State.topo rfl, State.tripAt_keeps _ _ State.tb rfl,
    State.tripAt_keeps _ _ State.futs rfl, State.tripAt_keeps _ _ State.queues rfl,
    State.tripAt_keeps _ _ (fun u => u.mgmt.dead) rfl, State.tripAt_keeps _ _ (fun u => u.mgmt.minSvn) rfl, ?_, ?_⟩
  · intro n hn hc
    refine (State.tripAt_keeps _ _ (fun u => u.sc n) rfl).trans ?_
    rw [State.sc, tgetD_map_range _ hn, if_neg hc]
  · rw [State.bitNat_hlth_tripAt _ _ (by decide)]
    exact bitNat_bootHlth_bootAlt _ _ _

/-- Firmware that has run raises the minimum SVN or leaves it (R389). -/
theorem State.minSvn_le_fused (s : State) : s.mgmt.minSvn ≤ s.fused.minSvn := by
  unfold State.fused
  dsimp only
  split
  · exact Nat.le_max_left _ _
  · exact Nat.le_refl _

/-! ## Measurements (R390) -/

theorem exec_getMeasurements_some {i : Nat} {bs : List Byte} (h : s.measured i = some bs) :
    exec (.getMeasurements ⟨0x13, i⟩) s =
      .next ((s.emit (.spdm (signed (Config.sha512 bs)))).useFree (if i = 3 then 1 else 0)) := by
  simp [execGetMeasurements, State.atSpdm, spdmVersion, h]

theorem exec_getMeasurements_none {i : Nat} (h : s.measured i = none) : exec (.getMeasurements ⟨0x13, i⟩) s = .next s := by
  simp [execGetMeasurements, State.atSpdm, spdmVersion, h]

/-! ## A sample (R393) -/

/-- The largest of some values stands where a fold that keeps the larger one comes to. -/
theorem le_foldl_larger (f : Nat → Nat) (l : List Nat) (a : Nat) :
    f a ≤ f (l.foldl (fun a d => if f a < f d then d else a) a) ∧ ∀ d ∈ l, f d ≤ f (l.foldl (fun a d => if f a < f d then d else a) a) := by
  induction l generalizing a with
  | nil => simp
  | cons x l ih =>
    obtain ⟨ha, hl⟩ := ih (if f a < f x then x else a)
    have hx : f a ≤ f (if f a < f x then x else a) ∧ f x ≤ f (if f a < f x then x else a) := by split <;> omega
    exact ⟨hx.1.trans ha, List.forall_mem_cons.mpr ⟨hx.2.trans ha, hl⟩⟩

theorem dieTemp_le_hottest (p : PowerSample) {d : Nat} (hd : d < 8) : dieTemp p d ≤ dieTemp p (hottest p) :=
  (le_foldl_larger (dieTemp p) (List.range 8) 0).2 d (List.mem_range.mpr hd)

variable {m : Mgmt} {p : PowerSample} {now : Nat}

theorem sampledMgmt_steps {d : Nat} (hd : d < 8) : (sampledMgmt m p now).steps.getD d 0 = (newWhy m p now d).length := by
  simp [sampledMgmt, List.getD, hd]

theorem affected_contains {d : Nat} (hd : d < 8) : (affected m p).contains d = (overPower m p || overTemp m p d) := by
  rw [Bool.eq_iff_iff, List.contains_iff_mem, affected, List.mem_filter]
  simp [hd]

/-- A die over a limit takes one more step, up to step 7. -/
theorem newWhy_length_of_over {d : Nat} (hd : d < 8) (h : (overPower m p || overTemp m p d) = true) :
    (newWhy m p now d).length = (m.why.getD d []).length + (if (m.why.getD d []).length < 7 then 1 else 0) := by
  unfold newWhy
  dsimp only
  rw [affected_contains hd, if_pos h]
  split <;> simp

/-- Calm for 1 ms, a die takes a step back. -/
theorem newWhy_length_of_calm {d : Nat} (hd : d < 8) (h : (overPower m p || overTemp m p d) = false) (hc : calmLong m p now = true) :
    (newWhy m p now d).length = (m.why.getD d []).length - 1 := by
  unfold newWhy
  dsimp only
  rw [affected_contains hd, h, if_neg Bool.false_ne_true, if_pos hc, List.length_drop]

/-- PCAP is set by a step that the sample takes for power. -/
theorem bitNat_sampledMgmt_pcap (ho : overPower m p = true) {d : Nat} (hd : d < 8) (hs : (m.why.getD d []).length < 7) :
    bitNat (sampledMgmt m p now).hlth.toNat hlthPcap = true := by
  have hw : newWhy m p now d = (true, overTemp m p d) :: m.why.getD d [] := by
    unfold newWhy
    dsimp only
    rw [affected_contains hd, ho, Bool.true_or, if_pos rfl, if_pos hs]
  have hany : ((List.range 8).map (newWhy m p now)).any (fun l => l.any Prod.fst) = true :=
    List.any_eq_true.mpr ⟨_, List.mem_map_of_mem (List.mem_range.mpr hd), by rw [hw]; rfl⟩
  unfold sampledMgmt
  dsimp only
  rw [hany, putHlth, if_pos rfl, bitNat_toNat, BitVec.getLsbD_or, getLsbD_bit _ (by decide)]
  simp

/-- Calm since a TB 1 ms ago or more, and far enough below the limits now (R393). -/
theorem calmLong_of {x : Nat} (hx : m.calm = some x) (hn : x + 1000000 ≤ now) (hp : p.meanMW * 100 ≤ 95000 * m.plim)
    (ht : ∀ e < 8, dieTemp p e + 5 ≤ m.tthr) : calmLong m p now = true := by
  have hf : farBelow m p = true := by
    simp only [farBelow, Bool.and_eq_true, decide_eq_true_eq, List.all_eq_true, List.mem_range]
    exact ⟨by omega, ht⟩
  simp [calmLong, calmSince, hf, hx, hn]

/-- Far below its limits, a die is over neither. -/
theorem not_over_of_farBelow (hp : p.meanMW * 100 ≤ 95000 * m.plim) {d : Nat} (ht : dieTemp p d + 5 ≤ m.tthr) :
    (overPower m p || overTemp m p d) = false := by
  simp only [overPower, overTemp, Bool.or_eq_false_iff, decide_eq_false_iff_not]
  omega

/-- Where step 7 does not hold a limit, the die is held. -/
theorem mem_heldFor_of_stuck (l : List Nat) (d : Nat) : d ∈ heldFor l true true d := by
  simp only [heldFor, Bool.not_true, Bool.false_eq_true, if_false, Bool.true_and]
  split
  · simp
  · next h => simpa using h

/-- What a sample does (R393-R395), between two of which 100 us pass. -/
theorem exec_powerSample_due (h : s.mgmt.sampled = none ∨ ∃ x, s.mgmt.sampled = some x ∧ x + 100000 ≤ s.tb) :
    exec (.powerSample p) s = .next (if s.mgmt.tripped then { s with mgmt := readMgmt s.mgmt p s.tb }
      else State.tripAt { s with mgmt := sampledMgmt s.mgmt p s.tb } (dieTemp p (hottest p))) := by
  have hd : (s.mgmt.sampled.map (fun t => decide (t + 100000 ≤ s.tb))).getD true = true := by
    rcases h with h | ⟨x, h, hx⟩
    · rw [h]
      rfl
    · rw [h, Option.map_some, Option.getD_some]
      exact decide_eq_true hx
  rw [exec_powerSample, execPowerSample, if_pos hd]

theorem exec_powerSample_early {x : Nat} (h : s.mgmt.sampled = some x) (hx : s.tb < x + 100000) :
    exec (.powerSample p) s = .next s := by
  have hd : ¬(s.mgmt.sampled.map (fun t => decide (t + 100000 ≤ s.tb))).getD true = true := by
    rw [h, Option.map_some, Option.getD_some]
    exact Bool.eq_false_iff.mp (decide_eq_false (Nat.not_le.mpr hx))
  rw [exec_powerSample, execPowerSample, if_neg hd]

/-! ## The statement -/

/-- Settles O51: the boot by what its image comes to, and a sample by what the management state comes to, of which a trip changes TRIP, the
temperature and two bits of HLTH. -/
theorem bootIdentityAndPower : Obligations.BootIdentityAndPower := by
  intro s b ver slot i nonce bs p good
  refine ⟨?boots, ?fails, ⟨_, rfl, rfl⟩, ⟨_, rfl, rfl⟩, ?measures, ?unmeasured, ?version, ?trips, ?readings, ?samples,
    fun x h hx => exec_powerSample_early h hx⟩
  case boots =>
    intro hg hb
    let t := State.useFree { s with mgmt := s.fused } 1
    have hsvn := s.minSvn_le_fused
    by_cases ha : imageOk s.fused b.imageA = true
    · obtain ⟨hmem, htopo, htb, hfuts, hqueues, hdead, hmin, hscs, halt⟩ := t.boot_of b b.imageA false hb
      exact ⟨_, congrArg Host.Outcome.next (if_pos ha), hmem, htopo, htb, hfuts, hqueues, hdead, hsvn.trans (Nat.le_of_eq hmin.symm), hscs,
        iff_of_false (Bool.eq_false_iff.mp halt) (by rw [ha]; decide)⟩
    · have hB := hg.resolve_left ha
      obtain ⟨hmem, htopo, htb, hfuts, hqueues, hdead, hmin, hscs, halt⟩ := t.boot_of b b.imageB true hb
      exact ⟨_, congrArg Host.Outcome.next ((if_neg ha).trans (if_pos hB)), hmem, htopo, htb, hfuts, hqueues, hdead,
        hsvn.trans (Nat.le_of_eq hmin.symm), hscs, iff_of_true halt (Bool.eq_false_iff.mpr ha)⟩
  case fails =>
    intro hg
    obtain ⟨ha, hb⟩ := not_or.mp hg
    exact ⟨_, congrArg Host.Outcome.next ((if_neg ha).trans (if_neg hb)), rfl, rfl, show BitVec.ofNat 64 (2 ^ hlthBootFail) = (1 <<< 60 : Nat) by decide⟩
  case measures =>
    intro h
    exact ⟨_, exec_getMeasurements_some h, rfl, rfl, rfl⟩
  case unmeasured => exact exec_getMeasurements_none
  case version =>
    intro h x hx
    simp only [List.mem_cons, List.not_mem_nil, or_false] at hx
    rcases hx with rfl | rfl | rfl <;> exact congrArg Host.Outcome.next (if_neg h)
  case trips =>
    refine ⟨_, rfl, rfl, rfl, rfl, ?_, ?_⟩
    · exact (State.bitNat_setHlth _ _ (by decide)).trans (Bool.or_true _)
    · exact (State.bitNat_setHlth _ _ (by decide)).trans (Bool.or_true _)
  case readings => exact fun h ht => (exec_powerSample_due h).trans (congrArg Host.Outcome.next (if_pos ht))
  case samples =>
    intro h ht
    have keeps {α : Type} (f : Mgmt → α)
        (hf : f (State.trip { s with mgmt := sampledMgmt s.mgmt p s.tb }).mgmt = f (sampledMgmt s.mgmt p s.tb)) :=
      State.tripAt_keeps { s with mgmt := sampledMgmt s.mgmt p s.tb } (dieTemp p (hottest p)) (fun u => f u.mgmt) hf
    have hsteps := keeps Mgmt.steps rfl
    have hpower := keeps Mgmt.heldPower rfl
    have htemp := keeps Mgmt.heldTemp rfl
    refine ⟨_, (exec_powerSample_due h).trans (congrArg Host.Outcome.next (if_neg (by simp [ht]))), State.tripAt_keeps _ _ State.mem rfl,
      State.tripAt_keeps _ _ State.scs rfl, State.tripAt_keeps _ _ (fun u => u.mgmt.mw) rfl,
      State.tripAt_keeps _ _ (fun u => u.mgmt.sampled) rfl, ?down, ?pcap, ?up, ?freePower, ?freeTemp, ?heldPower, ?heldTemp, ?hot, ?trip⟩
    case down =>
      intro d hd ho
      rw [hsteps, sampledMgmt_steps hd, newWhy_length_of_over hd (by simpa [overPower, overTemp, dieTemp] using ho)]
    case pcap =>
      rintro ho ⟨d, hd, hl⟩
      exact (State.bitNat_hlth_tripAt _ _ (by decide)).trans (bitNat_sampledMgmt_pcap (decide_eq_true ho) hd hl)
    case up =>
      intro x d hx hn hd hp htm
      rw [hsteps, sampledMgmt_steps hd, newWhy_length_of_calm hd (not_over_of_farBelow hp (htm d hd)) (calmLong_of hx hn hp htm)]
    case freePower =>
      intro hp
      rw [hpower]
      exact congrArg (fun o => heldFor _ o _ _) (decide_eq_false (Nat.not_lt.mpr hp))
    case freeTemp =>
      intro hd
      have hno : (List.range 8).any (overTemp s.mgmt p) = false :=
        List.any_eq_false.mpr fun d hm => by simpa [overTemp, dieTemp] using hd d (List.mem_range.mp hm)
      rw [htemp]
      exact congrArg (fun o => heldFor _ o _ _) hno
    case heldPower =>
      intro hp hs
      have ho : overPower s.mgmt p = true := decide_eq_true hp
      have hk : stuckPower s.mgmt p = true := by
        rw [stuckPower, ho, Bool.true_and, List.all_eq_true]
        exact fun d hm => beq_iff_eq.mpr (hs d (List.mem_range.mp hm))
      rw [hpower, show (sampledMgmt s.mgmt p s.tb).heldPower = heldFor _ (overPower s.mgmt p) (stuckPower s.mgmt p) _ from rfl, ho, hk]
      exact mem_heldFor_of_stuck _ _
    case heldTemp =>
      intro d hd hover hs
      have ho : overTemp s.mgmt p d = true := decide_eq_true hover
      have hany : (List.range 8).any (overTemp s.mgmt p) = true := List.any_eq_true.mpr ⟨d, List.mem_range.mpr hd, ho⟩
      have hk : stuckTemp s.mgmt p = true :=
        List.any_eq_true.mpr ⟨d, List.mem_range.mpr hd, by rw [ho, hs]; rfl⟩
      rw [htemp, show (sampledMgmt s.mgmt p s.tb).heldTemp = heldFor _ ((List.range 8).any (overTemp s.mgmt p)) (stuckTemp s.mgmt p) _
        from rfl, hany, hk]
      exact mem_heldFor_of_stuck _ _
    case hot => exact fun d hd => dieTemp_le_hottest p hd
    case trip =>
      rintro ⟨d, hd, hd110⟩
      exact State.tripAt_tripped _ (hd110.trans (dieTemp_le_hottest p hd))

end Sys2Proof.Machine
end

section
/-!
SUPPORT. What an access leaves of the machine (R282-R286, R350): everything but memory and its tags, errors and counters, packets, TLBs,
what the host is asked for, and the clusters, whose offices `State.tables` keeps.
-/

namespace Sys2Proof.Machine

variable {s t u : State}

/-- A state but for what accesses change of it. -/
def State.rest (s : State) : State :=
  { s with scs := [], mem := [], tags := [], ueSectors := [], ceSectors := [], ctr := [], pkts := [], dieTlb := [], hits := [],
           homeWrites := [], mgmt := { s.mgmt with hlth := 0, fresh := 0 } }

theorem topo_of_rest (h : t.rest = s.rest) : t.topo = s.topo := (congrArg (fun r : State => r.topo) h :)

/-- Folding a step that leaves the rest leaves it. -/
theorem rest_foldl {α : Type} {f : State → α → State} (hf : ∀ s x, (f s x).rest = s.rest) (l : List α) (s : State) :
    (l.foldl f s).rest = s.rest := by
  induction l generalizing s with
  | nil => rfl
  | cons x l ih => exact (ih _).trans (hf s x)

/-- A choice between two states that leave the rest leaves it. -/
theorem rest_ite {p : Prop} [Decidable p] (ht : t.rest = s.rest) (hu : u.rest = s.rest) : (if p then t else u).rest = s.rest := by
  split
  · exact ht
  · exact hu

/-! ## One base die -/

@[simp] theorem rest_count (s : State) (st k n : Nat) : (s.count st k n).rest = s.rest := rfl

@[simp] theorem rest_correct (s : State) (st : Nat) (bs : List Nat) : (s.correct st bs).rest = s.rest := rfl

@[simp] theorem rest_setTag (s : State) (st off v : Nat) : (s.setTag st off v).rest = s.rest := rfl

@[simp] theorem rest_cleared (s : State) (bs : List Nat) : (s.cleared bs).rest = s.rest := rfl

theorem rest_putMem (s : State) (m : List Host.Cell) (w : List (Nat × Nat)) : ({ s with mem := m, homeWrites := w } : State).rest = s.rest := rfl

@[simp] theorem rest_spoiled (s : State) (st n : Nat) : (s.spoiled st n).rest = s.rest := rest_ite rfl rfl

@[simp] theorem rest_meetHost (s : State) (a n : Nat) (inv : Bool) : (s.meetHost a n inv).rest = s.rest := rest_ite rfl rfl

@[simp] theorem rest_readEffect (s : State) (a n : Nat) : (s.readEffect a n).rest = s.rest := by
  unfold State.readEffect
  dsimp only
  split
  · exact rest_meetHost s a n false
  · exact (rest_spoiled _ _ _).trans (rest_meetHost s a n false)

theorem rest_countReads (fuel : Nat) (s : State) (a n : Nat) : (State.countReads fuel s a n).rest = s.rest := by
  induction fuel generalizing s a n with
  | zero => rfl
  | succ fuel ih => exact rest_ite rfl ((ih _ _ _).trans (rest_readEffect _ _ _))

@[simp] theorem rest_noteRead (s : State) (a n : Nat) : (s.noteRead a n).rest = s.rest := rest_countReads _ s a n

theorem rest_compRead (s : State) (blk : Nat) (acc : Bool) : (s.compRead blk acc).rest = s.rest :=
  (rest_correct _ _ _).trans (rest_ite rfl rfl)

theorem rest_compWrite (s : State) (a : Nat) (v : List (Option Byte)) (acc : Bool) : (s.compWrite a v acc).rest = s.rest := by
  have hread := rest_compRead s (a - a % 256) acc
  unfold State.compWrite
  dsimp only
  split
  · exact (rest_spoiled _ _ _).trans hread
  · exact (rest_setTag _ _ _ _).trans ((rest_cleared _ _).trans ((rest_putMem _ _ _).trans ((rest_count _ _ _ _).trans hread)))

theorem rest_plainWrite (s : State) (a : Nat) (v : List (Option Byte)) (acc : Bool) : (s.plainWrite a v acc).rest = s.rest := by
  have hread : ∀ (b : Bool) (st k m : Nat), (if b then s.count st k m else s).rest = s.rest := fun b st k m => rest_ite rfl rfl
  unfold State.plainWrite
  dsimp only
  split
  · rw [rest_cleared, rest_putMem, rest_count, rest_spoiled, rest_correct, hread]
  · rw [rest_setTag, rest_cleared, rest_putMem, rest_count, rest_spoiled, rest_correct, hread]

@[simp] theorem rest_dieWriteIn (s : State) (a : Nat) (v : List (Option Byte)) (acc : Bool) : (s.dieWriteIn a v acc).rest = s.rest := by
  unfold State.dieWriteIn
  refine rest_ite rfl ?_
  rw [← rest_meetHost s a v.length true]
  exact rest_ite (rest_spoiled _ _ _) (rest_ite (rest_compWrite _ _ _ _) (rest_plainWrite _ _ _ _))

/-! ## Writes that cached copies follow -/

@[simp] theorem rest_copyBytes (s : State) (a : Nat) (w : List (Option Byte)) : (s.copyBytes a w).rest = s.rest := by
  induction w generalizing s a with
  | nil => rfl
  | cons x w ih =>
    cases x with
    | none => exact ih s _
    | some b => exact ih (s.copyByte a b) _

theorem rest_dieWrite (fuel : Nat) (s : State) (a : Nat) (v : List (Option Byte)) (acc : Bool) :
    (State.dieWrite fuel s a v acc).rest = s.rest := by
  induction fuel generalizing s a v with
  | zero => rfl
  | succ fuel ih =>
    cases v with
    | nil => rfl
    | cons x v => exact (ih _ _ _).trans (by simp)

@[simp] theorem rest_write (s : State) (a : Nat) (v : List Byte) (acc : Bool) : (s.write a v acc).rest = s.rest :=
  rest_dieWrite _ s a _ acc

/-! ## Requests and translations -/

@[simp] theorem rest_accCount (s : State) (a n : Nat) : (s.accCount a n).rest = s.rest := rest_ite rfl rfl

@[simp] theorem rest_replied (s : State) (id st : Nat) (bs : List Byte) : (s.replied id st bs).rest = s.rest := rfl

theorem rest_perform (s : State) (id : Nat) (p : Packet) : (s.perform id p).rest = s.rest := by
  cases hty : p.ty <;> simp [State.perform, hty, State.pktRead, State.pktWrite, State.pktAcc]

@[simp] theorem rest_performEarlier (s : State) (port a n : Nat) : (s.performEarlier port a n).rest = s.rest :=
  rest_foldl (f := fun t (q : Nat × Packet) => t.perform q.1 q.2) (fun t q => rest_perform t q.1 q.2) _ s

@[simp] theorem rest_accumulate (s : State) (a op fmt src : Nat) : (s.accumulate a op fmt src).rest = s.rest := by
  simp [State.accumulate]

@[simp] theorem rest_countWalk (s : State) (n : Nat) (l : List Nat) : (s.countWalk n l).rest = s.rest :=
  rest_foldl (fun s a => by simp) l s

@[simp] theorem rest_useDieTlb (s : State) (n asid : Nat) (x : Xlat) : (s.useDieTlb n asid x).rest = s.rest := rfl

@[simp] theorem rest_useScTlb (s : State) (n asid : Nat) (x : Xlat) : (s.useScTlb n asid x).rest = s.rest := rfl

theorem rest_touch (s : State) (n : Nat) (sc : Bool) (root : Option Word) (va : Nat) : (s.touch n sc root va).rest = s.rest := by
  have hhold : ∀ (t : State) (asid : Nat) (x : Xlat),
      (if sc = true then (t.useDieTlb n asid x).useScTlb n asid x else t.useDieTlb n asid x).rest = t.rest := fun t asid x => by
    split <;> simp
  unfold State.touch
  split
  · rfl
  · dsimp only
    split
    · rfl
    · split
      · simp
      · split
        · exact hhold _ _ _
        · split
          · simp
          · exact (hhold _ _ _).trans (by simp)

@[simp] theorem rest_touchAll (s : State) (n : Nat) (sc : Bool) (root : Option Word) (vas : List Nat) :
    (s.touchAll n sc root vas).rest = s.rest :=
  rest_foldl (fun s _ => rest_touch s n sc root _) _ s

/-! ## Flags and completion blocks -/

/-- A flag's increment may use a free value and join what waits for another package; the topology stays. -/
theorem topo_incFlag (s : State) (n : Nat) (root : Option Word) (a : Nat) : (s.incFlag n root a).topo = s.topo := by
  have htouch : (s.touchAll n (!false) root [a]).topo = s.topo := topo_of_rest (rest_touchAll s n (!false) root [a])
  unfold State.incFlag State.agentAcc
  dsimp only
  split
  · split
    · exact htouch
    · exact (topo_of_rest ((rest_accumulate _ _ _ _ _).trans (rest_performEarlier _ _ _ _))).trans htouch
  · exact htouch
  · exact htouch
  · exact htouch

@[simp] theorem rest_writeBlock (s : State) (flag value status done lost faulted firstLost firstFault : Nat) :
    (s.writeBlock flag value status done lost faulted firstLost firstFault).rest = s.rest :=
  rest_ite rfl (by simp)

end Sys2Proof.Machine
end

section
/-!
SUPPORT. What the end of work leaves of the package (R246, R353): which halves, dies, stacks and bridge links are live, and that a
stopped cluster without entries and runs stays one.
-/

namespace Sys2Proof.Machine

variable {r s t u : State}

/-- A cluster that has stopped, with no entry and no run (R353). -/
structure Sc.Idle (x : Sc) : Prop where
  stopped : x.stopped = true
  entries : x.entries = []
  runs : x.runs = []

/-- The parts a loss takes away: halves, dies, stacks and bridge links. -/
def Topo.parts (x : Topo) : BitVec 2 × BitVec 8 × BitVec 8 × BitVec 2 := (x.halves, x.dies, x.stks, x.brg)

/-- The package has the parts that `s` has, and no idle cluster of `s` works. -/
structure Spares (s t : State) : Prop where
  parts : t.topo.parts = s.topo.parts
  idle : ∀ n, (s.sc n).Idle → (t.sc n).Idle

theorem Spares.refl (s : State) : Spares s s := ⟨rfl, fun _ h => h⟩

theorem Spares.trans (h : Spares s t) (h' : Spares t u) : Spares s u := ⟨h'.parts.trans h.parts, fun n hn => h'.idle n (h.idle n hn)⟩

theorem Spares.ite {p : Prop} [Decidable p] (ht : Spares s t) (hu : Spares s u) : Spares s (if p then t else u) := by
  split
  · exact ht
  · exact hu

theorem Spares.foldl {α : Type} {f : State → α → State} (h : Spares r s) (l : List α) (hf : ∀ u x, Spares r u → Spares r (f u x)) :
    Spares r (l.foldl f s) := by
  induction l generalizing s with
  | nil => exact h
  | cons x l ih => exact ih (hf s x h)

/-- What keeps the clusters and the topology's parts. -/
theorem Spares.same (h : Spares r s) (hparts : t.topo.parts = s.topo.parts) (hscs : t.scs = s.scs) : Spares r t :=
  h.trans ⟨hparts, fun n hn => by rwa [State.sc, hscs]⟩

/-- What keeps the tables and the topology, as accesses do. -/
theorem Spares.access (h : Spares r s) (htopo : t.topo = s.topo) (htables : t.tables = s.tables) : Spares r t := by
  refine h.trans ⟨congrArg Topo.parts htopo, fun n hn => ?_⟩
  have hsc : (t.sc n).office = (s.sc n).office := congrFun (congrArg Tables.offices htables) n
  exact ⟨(congrArg Sc.stopped hsc).trans hn.stopped, (congrArg Sc.entries hsc).trans hn.entries, (congrArg Sc.runs hsc).trans hn.runs⟩

/-- An update of a cluster under which an idle one stays idle. -/
theorem Spares.modSc (h : Spares r s) (n : Nat) {f : Sc → Sc} (hf : ∀ x, x.Idle → (f x).Idle) : Spares r (s.modSc n f) := by
  refine h.trans ⟨rfl, fun m hm => ?_⟩
  rw [State.sc_modSc]
  split
  · next e => exact hf _ (e ▸ hm)
  · exact hm

/-- An update of a cluster that says nothing of its work. -/
theorem Spares.updSc (h : Spares r s) (n : Nat) {f : Sc → Sc}
    (hf : ∀ x, (f x).stopped = x.stopped ∧ (f x).entries = x.entries ∧ (f x).runs = x.runs) : Spares r (s.modSc n f) :=
  h.modSc n fun x hx =>
    let ⟨hs, he, hr⟩ := hf x
    ⟨hs.trans hx.stopped, he.trans hx.entries, hr.trans hx.runs⟩

theorem Spares.modCtx (h : Spares r s) (n c : Nat) (f : Ctx → Ctx) : Spares r (s.modCtx n c f) :=
  h.updSc n (f := fun t => { t with ctxs := tput t.ctxs c (f (s.ctx n c)) }) fun _ => ⟨rfl, rfl, rfl⟩

theorem Spares.modFut (h : Spares r s) (k : Nat) (f : Fut → Fut) : Spares r (s.modFut k f) := h.same rfl rfl
theorem Spares.setHlth (h : Spares r s) (bits : List Nat) : Spares r (s.setHlth bits) := h.same rfl rfl

/-! ## Accesses -/

theorem Spares.dieWriteIn (h : Spares r s) (a : Nat) (v : List (Option Byte)) (acc : Bool) : Spares r (s.dieWriteIn a v acc) :=
  h.access (topo_of_rest (rest_dieWriteIn s a v acc)) (tables_dieWriteIn s a v acc)

theorem Spares.performEarlier (h : Spares r s) (port a n : Nat) : Spares r (s.performEarlier port a n) :=
  h.access (topo_of_rest (rest_performEarlier s port a n)) (tables_performEarlier s port a n)

theorem Spares.incFlag (h : Spares r s) (n : Nat) (root : Option Word) (a : Nat) : Spares r (s.incFlag n root a) :=
  h.access (topo_incFlag s n root a) (tables_incFlag s n root a)

theorem Spares.writeBlock (h : Spares r s) (flag value status done lost faulted firstLost firstFault : Nat) :
    Spares r (s.writeBlock flag value status done lost faulted firstLost firstFault) :=
  h.access (topo_of_rest (rest_writeBlock s _ _ _ _ _ _ _ _)) (tables_writeBlock s _ _ _ _ _ _ _ _)

theorem Spares.writeBack (h : Spares r s) (n k : Nat) : Spares r (s.writeBack n k) := by
  have half : ∀ {w : State} {a : Nat} {v : List (Option Byte)} (b : Bool), Spares r w → Spares r (if b then w.dieWriteIn a v false else w) :=
    fun b hw => .ite (hw.dieWriteIn _ _ _) hw
  unfold State.writeBack
  split
  · exact h
  · exact Spares.updSc (half _ (half _ (.ite (h.performEarlier _ _ _) h))) n fun _ => ⟨rfl, rfl, rfl⟩

theorem Spares.evict (h : Spares r s) (n k : Nat) : Spares r (s.evict n k) := (h.writeBack n k).updSc n fun _ => ⟨rfl, rfl, rfl⟩

/-! ## Drops (R243, R246) -/

theorem Spares.unlinkKid (h : Spares r s) (k : Nat) (p : Holder) : Spares r (s.unlinkKid k p) :=
  match p with
  | .nobody => h
  | .task _ => .ite (h.modFut _ _) h
  | .ctx n c => h.modCtx n c fun x => { x with kids := x.kids.filter (· != k) }

theorem Spares.unhold (h : Spares r s) (k : Nat) : Spares r (s.unhold k) := by
  unfold State.unhold
  exact (h.unlinkKid _ _).modFut _ _


theorem Spares.freeFut (h : Spares r s) (k : Nat) : Spares r (s.freeFut k) := (h.unhold k).same rfl rfl

theorem Spares.dropCount (h : Spares r s) (k : Nat) : Spares r (s.dropCount k) := by
  have hcount := h.modFut k fun x => { x with count := x.count - 1 }
  exact .ite hcount (.ite (hcount.freeFut k) (.ite ((hcount.freeFut k).same rfl rfl) (.ite (hcount.modFut _ _) hcount)))

theorem Spares.dropKids (h : Spares r s) (kids : List Nat) : Spares r (s.dropKids kids) :=
  h.foldl kids fun _ _ hu => .ite ((hu.unhold _).dropCount _) hu

theorem Spares.dropNode (h : Spares r s) (j : Nat) : Spares r (s.dropNode j) := ((h.modFut j _).unhold j).dropCount j

/-! ## Launches and graphs (R257, R259, R335) -/

theorem Spares.tryLaunch (h : Spares r s) (l : Nat) : Spares r (s.tryLaunch l) := by
  unfold State.tryLaunch
  split
  · exact h
  · exact .ite h ((h.writeBlock _ _ _ _ _ _ _ _).same rfl rfl)

theorem Spares.launchEnd (h : Spares r s) (f : Fut) (how : Ended) : Spares r (s.launchEnd f how) := by
  unfold State.launchEnd
  split
  · exact h
  · exact Spares.tryLaunch (h.same (by rfl) (by rfl)) _

theorem Spares.graphLaunchDone (h : Spares r s) (l k result : Nat) : Spares r (s.graphLaunchDone l k result) := by
  unfold State.graphLaunchDone
  split
  · exact h
  · exact Spares.dropCount ((h.writeBlock _ _ _ _ _ _ _ _).same (by rfl) (by rfl)) k

theorem Spares.payGraph (h : Spares r s) (o : Owed) : Spares r (s.payGraph o) := by
  have hflag : Spares r (if o.flag = 0 then s else s.incFlag o.sc (s.sc o.sc).root o.flag) := .ite h (h.incFlag _ _ _)
  unfold State.payGraph
  dsimp only
  split
  · exact hflag.graphLaunchDone _ _ _
  · exact hflag

theorem Spares.finishGraph (h : Spares r s) (g : Nat) : Spares r (s.finishGraph g) := by
  unfold State.finishGraph
  split
  · exact h
  · exact .ite (.ite ((h.modFut _ _).payGraph _) (h.same rfl rfl)) h

theorem Spares.modNode (h : Spares r s) (g i : Nat) (f : Node → Node) : Spares r (s.modNode g i f) := h.same rfl rfl

theorem Spares.sendEdges (h : Spares r s) (g : Nat) (ns : List Nat) (k : EdgeKind) : Spares r (s.sendEdges g ns k) :=
  h.foldl ns fun _ _ hu => hu.modNode _ _ _

theorem Spares.endNode (h : Spares r s) (g i : Nat) (k0 : EdgeKind) (k1 : Option EdgeKind) (fault : Option Nat) :
    Spares r (s.endNode g i k0 k1 fault) := by
  unfold State.endNode
  refine Spares.finishGraph ?_ _
  cases k1 with
  | none => exact (h.same (by rfl) (by rfl)).sendEdges _ _ _
  | some k => exact ((h.same (by rfl) (by rfl)).sendEdges _ _ _).sendEdges _ _ _

theorem Spares.nodeEnd (h : Spares r s) (f : Fut) (fault : Option Nat) : Spares r (s.nodeEnd f fault) := by
  unfold State.nodeEnd
  split
  · exact h
  · exact .ite (h.endNode _ _ _ _ _) h

theorem Spares.leaveMotion (h : Spares r s) (n : Nat) (o : Owner) (f : Fut) : Spares r (s.leaveMotion n o f) := .ite h (h.same rfl rfl)

/-! ## Work of an owner (R246) -/

theorem Spares.cancelWaiting (h : Spares r s) (n : Nat) (o : Owner) : Spares r (s.cancelWaiting n o) :=
  h.modSc n fun _ hx => ⟨hx.stopped, by simp [hx.entries], by simp [hx.runs]⟩

theorem Spares.stopRuns (h : Spares r s) (n : Nat) (o : Owner) : Spares r (s.stopRuns n o) :=
  h.modSc n fun _ hx => ⟨hx.stopped, hx.entries, by simp [hx.runs]⟩

theorem Spares.dropQueues (h : Spares r s) (n : Nat) (o : Owner) : Spares r (s.dropQueues n o) :=
  h.modSc n fun _ hx => ⟨hx.stopped, hx.entries, by simp [hx.runs]⟩

theorem Spares.refundSrf (h : Spares r s) (rcb k : Nat) : Spares r (s.refundSrf rcb k) := h.same rfl rfl

theorem Spares.freeStream (h : Spares r s) (n d : Nat) : Spares r (s.freeStream n d) := by
  unfold State.freeStream
  exact (h.refundSrf _ _).updSc n fun _ => ⟨rfl, rfl, rfl⟩

theorem Spares.releaseStreams (h : Spares r s) (n : Nat) (o : Owner) : Spares r (s.releaseStreams n o) :=
  h.foldl _ fun _ _ hu => .ite (hu.updSc n fun _ => ⟨rfl, rfl, rfl⟩) (hu.freeStream n _)

theorem Spares.setBarrier (h : Spares r s) (n k : Nat) (b : Barrier) : Spares r (s.setBarrier n k b) :=
  .ite (h.updSc n fun _ => ⟨rfl, rfl, rfl⟩) (h.same rfl rfl)

theorem Spares.endMembers (h : Spares r s) (n : Nat) (ms : List Member) : Spares r (s.endMembers n ms) := by
  refine h.foldl ms fun u m hu => ?_
  rcases u.endMember_cases n m with e | ⟨-, e⟩
  · rwa [e]
  · rw [e]
    exact hu.setBarrier _ _ _

theorem Spares.dropReplies (h : Spares r s) (n : Nat) (o : Owner) : Spares r (s.dropReplies n o) := h.same rfl rfl

theorem Spares.uncharge (h : Spares r s) (k : Nat) : Spares r (s.uncharge k) := by
  unfold State.uncharge
  refine .ite ?_ h
  dsimp only
  split
  · exact h.same rfl rfl
  · exact h.same rfl rfl

theorem Spares.refundTask (h : Spares r s) (k : Nat) : Spares r (s.refundTask k) := ((h.refundSrf _ _).modFut _ _).uncharge k

theorem Spares.vacate (h : Spares r s) (n c : Nat) : Spares r (s.vacate n c) :=
  Spares.modCtx (Spares.modCtx ((h.modCtx n c _).updSc n (by intro _; exact ⟨rfl, rfl, rfl⟩)) n 18 _) n 19 _

/-! ## Ends of tasks (R242, R246) -/

theorem Spares.endTask (h : Spares r s) (k n : Nat) (x : Ctx) (st : FutSt) (status : Nat) (result : Word) (how : Ended) :
    Spares r (s.endTask k n x st status result how) :=
  have hwork := (((h.modFut k _).cancelWaiting n _).leaveMotion n _ _).nodeEnd _ _
  have hstreams := ((hwork.endMembers n _).dropKids _).releaseStreams n _
  have hpaid := ((hstreams.dropQueues n _).dropReplies n _).refundTask k
  (Spares.ite ((hpaid.unhold k).dropCount k) hpaid).launchEnd _ _

theorem Spares.endTaskAt (h : Spares r s) (n c : Nat) (st : FutSt) (status : Nat) (result : Word) (how : Ended) :
    Spares r (s.endTaskAt n c st status result how) := (h.endTask _ _ _ _ _ _ _).vacate _ _

theorem Spares.reclaimTask (h : Spares r s) (k n : Nat) (x : Ctx) : Spares r (s.reclaimTask k n x) :=
  have hwork := ((((h.cancelWaiting n _).stopRuns n _).leaveMotion n _ _).dropQueues n _).releaseStreams n _
  have hkids := ((hwork.endMembers n _).nodeEnd _ _).dropKids _
  Spares.launchEnd ((((hkids.dropReplies n _).refundTask k).freeFut k).same (by rfl) (by rfl)) _ _

theorem Spares.keepSignal (h : Spares r s) (k n c : Nat) (x : Ctx) : Spares r (s.keepSignal k n c x) := by
  unfold State.keepSignal
  split
  · split
    · exact h
    · exact h.same rfl rfl
  · exact h

theorem Spares.reclaimAt (h : Spares r s) (n c : Nat) : Spares r (s.reclaimAt n c) := ((h.keepSignal _ n c _).reclaimTask _ n _).vacate n c

theorem Spares.reclaimGraph (h : Spares r s) (k : Nat) : Spares r (s.reclaimGraph k) := by
  unfold State.reclaimGraph
  split
  · exact h.freeFut k
  · refine (h.foldl _ fun u x hu => ?_).freeFut k
    split
    · exact hu.dropNode _
    · exact hu

theorem Spares.reclaimNow (h : Spares r s) (k : Nat) : Spares r (s.reclaimNow k) := by
  refine .ite (h.reclaimGraph k) ?_
  split
  · exact h.reclaimTask _ _ _
  · exact h.reclaimAt _ _
  · exact h.reclaimTask _ _ _

end Sys2Proof.Machine
end

section
/-!
SUPPORT. The parts of a loss (R337, R353, R354): each spares the parts that it does not name, and a lost cluster is idle from then on.
-/

namespace Sys2Proof.Machine

variable {r s t : State}

/-! ## A cluster -/

theorem Spares.flushSc (h : Spares r s) (n : Nat) : Spares r (s.flushSc n) := h.foldl _ fun _ _ hu => hu.evict _ _

theorem Spares.failJobs (h : Spares r s) (n : Nat) : Spares r (s.failJobs n) :=
  h.foldl _ fun _ _ hu => hu.foldl _ fun _ _ hv => .ite (hv.endNode _ _ _ _ _) hv

theorem Spares.failLate (h : Spares r s) (n : Nat) : Spares r (s.failLate n) :=
  (h.same (by rfl) (by rfl)).foldl _ fun _ _ hu => hu.sendEdges _ _ _

/-- A cluster whose work is gone. -/
def Sc.cleared (x : Sc) : Sc := { x with entries := [], runs := [], arrivals := [], stopped := true }

theorem State.clearWork_eq (s : State) (n : Nat) : s.clearWork n = ((s.failJobs n).failLate n).modSc n Sc.cleared := rfl

theorem Spares.clearWork (h : Spares r s) (n : Nat) : Spares r (s.clearWork n) := by
  rw [State.clearWork_eq]
  exact ((h.failJobs n).failLate n).modSc n fun _ _ => ⟨rfl, rfl, rfl⟩

theorem State.idle_clearWork (s : State) (n : Nat) : ((s.clearWork n).sc n).Idle := by
  rw [State.clearWork_eq, State.sc_modSc_self]
  exact ⟨rfl, rfl, rfl⟩

theorem Spares.loseTask (h : Spares r s) (n c : Nat) : Spares r (s.loseTask n c) :=
  .ite h (.ite (h.reclaimAt _ _) (h.endTaskAt _ _ _ _ _ _))

theorem Spares.loseSleeper (h : Spares r s) (k n : Nat) : Spares r (s.loseSleeper k n) := by
  unfold State.loseSleeper
  split
  · exact h
  · next x _ => exact .ite (h.reclaimNow _) ((h.endTask k n x.ctx .faulted 0x42 0 .lost).same rfl rfl)

/-- A cluster's loss once the tasks in its contexts have ended. -/
def State.loseSleepers (s : State) (n : Nat) : State :=
  let t := ((s.sleepers.filter (fun p => p.2.sc == n)).map Prod.fst).foldl (fun t k => t.loseSleeper k n) s
  { t.dropDups n with
           committing := t.committing.filter (fun p => p.1 != n),
           topo := { t.topo with cores := t.topo.cores.set n 0 } }

theorem State.loseSc_eq (s : State) (n : Nat) :
    s.loseSc n = ((List.range 16).foldl (fun t c => t.loseTask n c) ((s.flushSc n).clearWork n)).loseSleepers n := by
  unfold State.loseSc State.loseSleepers
  with_reducible rfl

theorem Spares.loseSleepers (h : Spares r s) (n : Nat) : Spares r (s.loseSleepers n) :=
  (h.foldl _ fun _ k hu => hu.loseSleeper k n).same rfl rfl

/-- The end of a loss spares what its start, up to the work of the cluster, does. -/
theorem Spares.loseSc_of_clearWork {n : Nat} (h : Spares r ((s.flushSc n).clearWork n)) : Spares r (s.loseSc n) := by
  rw [State.loseSc_eq]
  exact (h.foldl (List.range 16) fun _ c hu => hu.loseTask n c).loseSleepers n

theorem Spares.loseSc (h : Spares r s) (n : Nat) : Spares r (s.loseSc n) := ((h.flushSc n).clearWork n).loseSc_of_clearWork

theorem State.idle_loseSc (s : State) (n : Nat) : ((s.loseSc n).sc n).Idle :=
  (Spares.loseSc_of_clearWork (.refl _)).idle n (State.idle_clearWork _ n)

/-! ## Launches and a half's queues, graphs and ports -/

theorem Spares.loseUncreated (h : Spares r s) (l : Nat) : Spares r (s.loseUncreated l) := by
  unfold State.loseUncreated
  split
  · exact h
  · exact .ite h (Spares.tryLaunch (h.same (by rfl) (by rfl)) _)

theorem Spares.loseUncreatedAll (h : Spares r s) : Spares r s.loseUncreatedAll := h.foldl _ fun _ l hu => hu.loseUncreated l

theorem Spares.closeQueues (h : Spares r s) (p : Nat) : Spares r (s.closeQueues p) := by
  unfold State.closeQueues
  exact (h.foldl (s.launches.filter (fun q => q.2.hub == p)) (f := fun t q => t.closeLaunch p q.1 q.2)
    fun _ _ hu => .ite (hu.writeBlock _ _ _ _ _ _ _ _) hu).same rfl rfl

theorem Spares.closeGraphs (h : Spares r s) (p : Nat) : Spares r (s.closeGraphs p) := by
  refine (h.same (by rfl) (by rfl)).foldl _ fun u q hu => ?_
  have ht := hu.modFut q.2.fut (fun f => { f with st := .faulted, status := 0x42, result := 0 })
  dsimp only
  split
  · next l x _ => exact (ht.writeBlock x.flag x.value 2 0 1 0 0 noTix).same rfl rfl
  · exact ht

theorem Spares.failPort (h : Spares r s) (p : Nat) : Spares r (s.failPort p) := .ite (h.same rfl rfl) h

theorem Spares.dropPorts (h : Spares r s) (p : Nat) : Spares r (s.dropPorts p) := by
  unfold State.dropPorts
  exact (h.foldl ([p, 2 + 2 * p, 3 + 2 * p] ++ (List.range 24).map (fun i => 8 + 24 * p + i)) fun _ q hu => hu.failPort q).same rfl rfl

theorem Spares.dropTlb (h : Spares r s) (f : Nat → Xlat → Bool) : Spares r (s.dropTlb f) := by
  refine h.trans ⟨rfl, fun n hn => ?_⟩
  rw [State.sc_dropTlb]
  exact ⟨hn.stopped, hn.entries, hn.runs⟩

theorem Spares.failOver (h : Spares r s) : Spares r s.failOver := h.same rfl rfl

/-! ## A half -/

/-- The parts that are left without a half. -/
def Topo.withoutHalf (x : Topo) (h : Nat) : Topo :=
  { x with halves := clearBit x.halves h, dies := x.dies &&& ~~~((15 : BitVec 8) <<< (4 * h)),
           stks := x.stks &&& ~~~((15 : BitVec 8) <<< (4 * h)) }

/-- The work of a half is gone, while its parts still stand. -/
def State.endHalf (s : State) (h : Nat) : State :=
  ((List.range 8).foldl (fun t i => t.loseSc (8 * h + i)) ((s.closeQueues h).closeGraphs h)).dropPorts h

theorem Spares.endHalf (h : Spares r s) (p : Nat) : Spares r (s.endHalf p) := by
  unfold State.endHalf
  exact Spares.dropPorts (((h.closeQueues p).closeGraphs p).foldl _ fun _ i hu => hu.loseSc (8 * p + i)) p

theorem Topo.parts_withoutHalf {x y : Topo} (h : x.parts = y.parts) (p : Nat) : (x.withoutHalf p).parts = (y.withoutHalf p).parts := by
  simp only [Topo.parts, Prod.mk.injEq] at h
  obtain ⟨hhalves, hdies, hstks, hbrg⟩ := h
  simp only [Topo.parts, Topo.withoutHalf, hhalves, hdies, hstks, hbrg]

/-- A half is lost once its work is gone and its parts have left the topology. -/
theorem State.spares_loseHalf (s : State) (h : Nat) :
    ∃ t u : State, t.topo.parts = (s.topo.withoutHalf h).parts ∧ Spares t u ∧ s.loseHalf h = u.setHlth [hlthReplace] := by
  have hparts := Topo.parts_withoutHalf (Spares.endHalf (.refl s) h).parts h
  unfold State.loseHalf
  exact ⟨_, _, hparts, (Spares.ite (Spares.failOver (Spares.dropTlb (.refl _) _)) (Spares.dropTlb (.refl _) _)).loseUncreatedAll, rfl⟩

/-! ## Bits of the parts -/

theorem bitNat_clearBit {w : Nat} (x : BitVec w) {i j : Nat} (hj : j < w) :
    bitNat (clearBit x i).toNat j = (bitNat x.toNat j && j != i) := by
  have hbit : ((1 : BitVec w) <<< i).getLsbD j = (j == i) := by
    change (BitVec.twoPow w i).getLsbD j = (j == i)
    rw [BitVec.getLsbD_twoPow, Bool.eq_iff_iff]
    simp only [Bool.and_eq_true, decide_eq_true_eq, beq_iff_eq]
    omega
  rw [bitNat_toNat, bitNat_toNat, clearBit, BitVec.getLsbD_and, BitVec.getLsbD_not, hbit, decide_eq_true hj, Bool.true_and]
  rfl

/-- Only the other bit of a register of two is left when one is cleared. -/
theorem bitNat_clearBit_self {w : Nat} (x : BitVec w) {i : Nat} (hi : i < w) : bitNat (clearBit x i).toNat i = false := by
  rw [bitNat_clearBit x hi, bne_self_eq_false, Bool.and_false]

theorem clearBit_eq_zero_iff (x : BitVec 2) {i : Nat} (hi : i < 2) : clearBit x i = 0 ↔ bitNat x.toNat (1 - i) = false := by
  have hpair : i = 0 ∨ i = 1 := by omega
  rcases hpair with rfl | rfl <;> revert x <;> decide

theorem clearBit_ne_three (x : BitVec 2) {i : Nat} (hi : i < 2) : clearBit x i ≠ 3 := fun h => by
  have hbit := bitNat_clearBit_self x hi
  rw [h] at hbit
  have hpair : i = 0 ∨ i = 1 := by omega
  rcases hpair with rfl | rfl <;> revert hbit <;> decide

/-- The bit that says the package is to be replaced is set with the others (R353). -/
theorem State.replace_setHlth (s : State) (bits : List Nat) : bitNat (s.setHlth (hlthReplace :: bits)).mgmt.hlth.toNat 63 = true := by
  rw [State.bitNat_setHlth _ _ (by decide)]
  exact Bool.or_true _

theorem State.hlth_setHlth_of_set (s : State) (bits : List Nat) (h : bitNat s.mgmt.hlth.toNat 63 = true) :
    bitNat (s.setHlth bits).mgmt.hlth.toNat 63 = true := by rw [State.bitNat_setHlth _ _ (by decide), h, Bool.true_or]

/-! ## The losses -/

/-- The parts after a die is lost are those without it (R353). -/
theorem State.parts_loseDie (s : State) (d : Nat) :
    (s.loseDie d).loseUncreatedAll.topo.parts = ({ s.topo with dies := clearBit s.topo.dies d } : Topo).parts := by
  have hscs := ((Spares.refl s).loseSc (2 * d)).loseSc (2 * d + 1) |>.parts
  refine (Spares.loseUncreatedAll (.refl (s.loseDie d))).parts.trans ?_
  simp only [Topo.parts, Prod.mk.injEq] at hscs
  obtain ⟨hhalves, hdies, hstks, hbrg⟩ := hscs
  simp only [State.loseDie, Topo.parts, hhalves, hdies, hstks, hbrg]

/-- Both clusters of a lost die are idle (R353). -/
theorem State.idle_loseDie (s : State) {d n : Nat} (h : n = 2 * d ∨ n = 2 * d + 1) : ((s.loseDie d).loseUncreatedAll.sc n).Idle := by
  have hscs : (((s.loseSc (2 * d)).loseSc (2 * d + 1)).sc n).Idle := by
    rcases h with rfl | rfl
    · exact (Spares.loseSc (.refl (s.loseSc (2 * d))) (2 * d + 1)).idle _ (State.idle_loseSc s _)
    · exact State.idle_loseSc (s.loseSc (2 * d)) _
  have hdie : ∀ (u : State) (x : Topo), (u.sc n).Idle → (({ u with topo := x } : State).sc n).Idle := fun _ _ hu => hu
  refine (Spares.loseUncreatedAll (.refl (s.loseDie d))).idle n ?_
  unfold State.loseDie
  exact hdie _ _ hscs

/-- The parts after a half is lost are those without it (R354). -/
theorem State.parts_loseHalf (s : State) (h : Nat) : (s.loseHalf h).topo.parts = (s.topo.withoutHalf h).parts := by
  obtain ⟨t, u, hparts, hspares, e⟩ := s.spares_loseHalf h
  rw [e]
  exact hspares.parts.trans hparts

theorem State.replace_loseHalf (s : State) (h : Nat) : bitNat (s.loseHalf h).mgmt.hlth.toNat 63 = true := by
  obtain ⟨t, u, -, -, e⟩ := s.spares_loseHalf h
  rw [e]
  exact u.replace_setHlth []

theorem minorHalf_lt (x : Topo) : minorHalf x < 2 := by
  unfold minorHalf
  split <;> decide

/-- A package that splits goes on without its minor half, which says so in a HLTH of its own (R354). -/
theorem State.splitPackage_spec (s : State) :
    bitNat s.splitPackage.mgmt.hlth.toNat 63 = true ∧ s.splitPackage.topo.split = true
      ∧ s.splitPackage.topo.parts = (s.topo.withoutHalf (minorHalf s.topo)).parts
      ∧ s.splitPackage.mgmt.minorHlth = withBits [hlthReplace, hlthSplitMinor, lossBridge] s.mgmt.hlth := by
  have hparts := State.parts_loseHalf s (minorHalf s.topo)
  have hreplace := State.replace_loseHalf s (minorHalf s.topo)
  unfold State.splitPackage
  generalize s.loseHalf (minorHalf s.topo) = u at hparts hreplace ⊢
  exact ⟨hreplace, rfl, hparts, rfl⟩

/-- Settles O50: each loss spares the parts that it does not name; a lost cluster is idle once its work is cleared, and what follows
leaves it so. -/
theorem losses : Obligations.Losses := by
  unfold Obligations.Losses
  intro s d k l h core
  dsimp only
  refine ⟨?die, ?stack, ?bridge, ?hub, ?noDie, ?noStack⟩
  case die =>
    intro hd hs
    have hparts := State.parts_loseDie s d
    have hidle := fun n => State.idle_loseDie s (d := d) (n := n)
    rw [exec_dieLoss, execDieLoss, if_pos ⟨hd, hs⟩]
    generalize (s.loseDie d).loseUncreatedAll = t at hparts hidle ⊢
    simp only [Topo.parts, Prod.mk.injEq] at hparts
    obtain ⟨-, hdies, hstks, -⟩ := hparts
    refine ⟨_, rfl, State.replace_setHlth t _, fun i hi => ?_, hstks, fun n hn => ?_⟩
    · rw [← bitNat_clearBit _ hi, ← hdies]
      rfl
    · obtain ⟨hst, he, hr⟩ := hidle n hn
      exact ⟨hst, he, hr⟩
  case stack =>
    intro hk hs
    exact ⟨_, congrArg Host.Outcome.next (if_pos ⟨hk, hs⟩), State.replace_setHlth _ _, rfl, fun i hi => bitNat_clearBit _ hi, rfl⟩
  case bridge =>
    intro hl hs
    rw [exec_bridgeLinkFailure, execBridgeLinkFailure, if_pos ⟨hl, hs⟩]
    dsimp only
    split
    next hsplit =>
      have hbrg := (clearBit_eq_zero_iff _ hl).mp hsplit.1
      generalize hu : ({ s with topo := { s.topo with brg := clearBit s.topo.brg l } } : State).setHlth [hlthReplace, lossBridge] = u
      obtain ⟨hreplace, hsplits, hparts, hminor⟩ := u.splitPackage_spec
      simp only [Topo.parts, Prod.mk.injEq] at hparts
      obtain ⟨hhalves, -, -, hlinks⟩ := hparts
      refine ⟨_, rfl, hreplace, ?_, fun h => ?_, fun _ _ => ⟨hsplits, ?_, ?_, ?_⟩⟩
      · rw [hlinks, ← hu]
        exact bitNat_clearBit_self _ hl
      · exact absurd (h.symm.trans hbrg) (by decide)
      · rw [hhalves]
        exact clearBit_ne_three _ (minorHalf_lt _)
      · rw [hminor, bitNat_withBits _ _ (by decide)]
        exact Bool.or_true _
      · rw [hminor, bitNat_withBits _ _ (by decide)]
        exact Bool.or_true _
    next hwhole =>
      refine ⟨_, rfl, State.replace_setHlth _ _, bitNat_clearBit_self _ hl, fun _ => ⟨rfl, rfl, rfl⟩, fun ho h3 => ?_⟩
      exact absurd ⟨(clearBit_eq_zero_iff _ hl).mpr ho, h3⟩ hwhole
  case hub =>
    intro hh hs
    have hparts := State.parts_loseHalf s h
    have hreplace := State.replace_loseHalf s h
    rw [exec_hubLoss, execHubLoss, if_pos ⟨hh, hs⟩]
    generalize s.loseHalf h = t at hparts hreplace ⊢
    simp only [Topo.parts, Prod.mk.injEq] at hparts
    obtain ⟨hhalves, -, -, -⟩ := hparts
    have hcleared : bitNat t.topo.halves.toNat h = false := by
      rw [hhalves]
      exact bitNat_clearBit_self _ hh
    have hreplace' := t.hlth_setHlth_of_set [lossHub] hreplace
    dsimp only
    split
    next h0 => exact ⟨_, rfl, hreplace', hcleared, fun _ => rfl⟩
    next h0 =>
      refine ⟨_, rfl, hreplace', hcleared, fun ho => absurd ?_ h0⟩
      exact hhalves.trans ((clearBit_eq_zero_iff _ hh).mpr ho)
  case noDie => exact fun hs => congrArg Host.Outcome.next (if_neg fun hd => by simp [hs] at hd)
  case noStack => exact fun hs => congrArg Host.Outcome.next (if_neg fun hk => by simp [hs] at hk)

end Sys2Proof.Machine
end

section
/-!
SUPPORT. The slots and positions of links (R363, R367-R371, R380, R381): what each part of a slot sets and what it leaves.
-/

namespace Sys2Proof.Machine

variable {s t : State}

/-- Folding a step that keeps a field keeps it. -/
theorem foldl_keeps {α β : Type} {f : State → α → State} {g : State → β} (hf : ∀ u x, g (f u x) = g u) (l : List α) (s : State) :
    g (l.foldl f s) = g s := by
  induction l generalizing s with
  | nil => rfl
  | cons x l ih => exact (ih _).trans (hf s x)

/-! ## Failed lanes (R380) -/

theorem State.failPort_keeps {β : Type} (s : State) (p : Nat) (g : State → β)
    (hg : ∀ ports unlocking hostRmw mgmt, g { s with ports := ports, unlocking := unlocking, hostRmw := hostRmw, mgmt := mgmt } = g s) :
    g (s.failPort p) = g s := by
  unfold State.failPort
  split
  · exact hg _ _ _ _
  · rfl

theorem State.port_failPort (s : State) {p : Nat} (hp : portOk p = true) : (s.failPort p).port p = .error := by
  unfold State.failPort
  rw [if_pos hp]
  exact tgetD_tput_self _ _ _ _

theorem State.mem_failLane (s : State) (l : Nat) : (s.failLane l).mem = s.mem :=
  State.failPort_keeps _ _ State.mem fun _ _ _ _ => rfl

theorem State.fab_failLane (s : State) (l : Nat) : (s.failLane l).fab = s.fab :=
  State.failPort_keeps _ _ State.fab fun _ _ _ _ => rfl

theorem State.lanes_failLane (s : State) (l : Nat) : (s.failLane l).topo.lanes = clearBit s.topo.lanes l :=
  State.failPort_keeps _ _ (fun u => u.topo.lanes) fun _ _ _ _ => rfl

theorem State.port_failLane (s : State) {l : Nat} (hl : l < 48) : (s.failLane l).port (8 + l) = .error :=
  State.port_failPort _ (by simp only [portOk, Bool.or_eq_true, Bool.and_eq_true, decide_eq_true_eq]; omega)

/-! ## Slots (R368, R370) -/

/-- The end of a slot's window closes it and its links, and memory stays (R368). -/
theorem State.endSlot_spec (s : State) : s.endSlot.fab.slot = 0 ∧ s.endSlot.fab.links = [] ∧ s.endSlot.mem = s.mem := by
  have hfab : ∀ (l : List (Nat × List Nat)) (u : State), (l.foldl (fun u p => u.failLane p.1) u).fab = u.fab :=
    foldl_keeps fun u p => u.fab_failLane p.1
  have hmem : ∀ (l : List (Nat × List Nat)) (u : State), (l.foldl (fun u p => u.failLane p.1) u).mem = u.mem :=
    foldl_keeps fun u p => u.mem_failLane p.1
  unfold State.endSlot
  dsimp only
  rw [hfab, hmem]
  exact ⟨rfl, rfl, rfl⟩

theorem State.mem_startClock (s : State) (f : Frame) (slot : Nat) : (s.startClock f slot).mem = s.mem := by
  unfold State.startClock
  split
  · rfl
  · rfl

theorem State.mem_assign (n : Nat) (qs : List QFrame) (s : State) : (State.assign n qs s).2.mem = s.mem := by
  induction qs generalizing s with
  | nil => rfl
  | cons q qs ih =>
    unfold State.assign
    split
    · exact ih s
    · split
      · exact (ih _).trans (s.mem_startClock _ _)
      · exact (ih _).trans (s.mem_startClock _ _)
      · exact ih s

/-- A frame that is not due when a slot starts stays queued as it is (R370). -/
theorem State.mem_assign_of_not_due {n : Nat} {y : QFrame} (hy : y.due n = false) {qs : List QFrame} (s : State) (h : y ∈ qs) :
    y ∈ (State.assign n qs s).1 := by
  induction qs generalizing s with
  | nil => exact absurd h List.not_mem_nil
  | cons q qs ih =>
    unfold State.assign
    rcases List.mem_cons.mp h with rfl | h
    · rw [if_pos (by rw [hy]; rfl)]
      exact List.mem_cons_self
    · split
      · exact List.mem_cons_of_mem _ (ih s h)
      · split
        · exact List.mem_cons_of_mem _ (ih _ h)
        · exact List.mem_cons_of_mem _ (ih _ h)
        · exact ih s h

/-- The start of a slot sets it up, and memory stays (R370). -/
theorem State.beginSlot_spec (s : State) (n : Nat) :
    (s.beginSlot n).fab.slot = n + 1 ∧ (s.beginSlot n).fab.begun = n + 1 ∧ (s.beginSlot n).mem = s.mem :=
  ⟨rfl, rfl, (State.mem_assign n _ _).trans (foldl_keeps (g := State.mem) (fun u k => (beside_abandon u k).mem) _ s)⟩

/-- Where no operation is hopeless, a frame not due when a slot starts is still queued (R370). -/
theorem State.mem_queue_beginSlot {n : Nat} (hs : s.hopeless n = []) {y : QFrame} (hq : y ∈ s.fab.queue) (hy : y.due n = false) :
    y ∈ (s.beginSlot n).fab.queue := by
  unfold State.beginSlot
  rw [hs]
  exact State.mem_assign_of_not_due hy s hq

/-! ## Dead packages (R381) -/

/-- The packages known dead stay so when an operation is abandoned. -/
theorem State.dead_abandon (s : State) (k : Nat) : (s.abandon k).fab.dead = s.fab.dead := by
  unfold State.abandon
  split
  · rfl
  · rfl

theorem State.mem_markDead (s : State) (q : Nat) : (s.markDead q).mem = s.mem := by
  unfold State.markDead
  split
  · rfl
  · exact (beside_abandonAll _ _).mem

theorem State.isDead_markDead (s : State) (q : Nat) : (s.markDead q).isDead q = true := by
  unfold State.markDead
  split
  next h => exact h
  next =>
    have hdead : ((s.modFab fun b => { b with dead := b.dead ++ [q] }).abandonAll fun k => k / 256 == q).fab.dead = s.fab.dead ++ [q] :=
      foldl_keeps (g := fun u => u.fab.dead) State.dead_abandon _ _
    generalize (s.modFab fun b => { b with dead := b.dead ++ [q] }).abandonAll (fun k => k / 256 == q) = t at hdead ⊢
    have hmem : (t.fab.dead).contains q = true := by simp [hdead]
    exact (congrArg (· || _) hmem).trans (Bool.true_or _)

/-! ## Frame positions (R367) -/

/-- A live lane at its position, which it has not taken yet, sends, and takes what its partner sent (R358, R367). -/
theorem State.framePosition_of_ready {lane k : Nat} {x : Link} (hx : tget s.fab.links lane = some x) (hk : s.positionNow = some k)
    (hpos : x.pos ≤ k) (hlive : s.laneLive lane = true) (hdead : s.isDead x.partner = false) :
    s.framePosition lane none = s.transmit lane { x with pos := k }
      ∧ ∀ y, s.framePosition lane (some y) = (s.transmit lane { x with pos := k }).receiveAt lane y := by
  have hready : (decide (x.pos ≤ k) && s.laneLive lane && !s.isDead x.partner) = true := by simp [hpos, hlive, hdead]
  refine ⟨?_, fun y => ?_⟩
  · unfold State.framePosition
    rw [hx, hk]
    exact if_pos hready
  · unfold State.framePosition
    rw [hx, hk]
    exact if_pos hready

/-- A lane that is not set up for its position does nothing there. -/
theorem State.framePosition_of_taken {lane k : Nat} {x : Link} (hx : tget s.fab.links lane = some x)
    (h : s.positionNow = none ∨ (s.positionNow = some k ∧ k < x.pos)) (rx : Option RxFrame) : s.framePosition lane rx = s := by
  unfold State.framePosition
  rcases h with h | ⟨h, hk⟩
  · rw [hx, h]
  · rw [hx, h]
    dsimp only
    rw [if_neg (by simp [Nat.not_le.mpr hk])]

/-- A lane with nothing to send sends a filler (R363, R367). -/
theorem State.transmit_of_nothing {lane : Nat} {l : Link} (hr : l.resend = [])
    (hn : (if l.pos ≤ 102 then s.nextNew lane l else none) = none) : s.transmit lane l = s.emitFrame lane l (s.hopOf lane l) none := by
  unfold State.transmit
  rw [hr]
  dsimp only
  rw [hn]

theorem State.transmit_filler {lane k : Nat} {x : Link} (hr : x.resend = []) (hn : 102 < k ∨ s.nextNew lane x = none) :
    s.transmit lane { x with pos := k } = s.emitFrame lane { x with pos := k } (s.hopOf lane x) none := by
  refine State.transmit_of_nothing hr ?_
  rcases hn with hn | hn
  · exact if_neg (Nat.not_le.mpr hn)
  · split
    · exact hn
    · rfl

/-- A link once it has sent a filler at a position. -/
def Link.sentFiller (x : Link) (k : Nat) : Link := { x with pos := k + 1, liveidx := (x.liveidx + 1) % 64 }

theorem State.tget_links_emitFrame (s : State) (lane k : Nat) (x : Link) (h : Hop) (f : Option Frame) :
    tget (s.emitFrame lane { x with pos := k } h f).fab.links lane = some (x.sentFiller k) := tget_tput_self _ _ _

/-- A valid frame that reports no dead package brings its hop part (R364, R370, R381). -/
theorem State.hopIn_of_none_dead {lane : Nat} {l : Link} {h : Hop} (hl : tget s.fab.links lane = some l) (hmap : h.livemap = 0) :
    s.hopIn lane h = s.modFab fun b => { b with
      links := tput b.links lane { l.acks h with valid := true }, silent := tput b.silent l.partner ((b.slot - 1) / s.calC + 1),
      farLanes := tput b.farLanes l.partner h.lanes, farSpace := tput b.farSpace l.partner h.fspace.toNat } := by
  have hbits : (List.range 64).filter (fun i => bitNat h.livemap.toNat i) = [] := by
    rw [hmap]
    decide
  unfold State.hopIn
  rw [hl]
  dsimp only
  rw [hbits]
  rfl

/-- A filler received is its hop part (R363). -/
theorem State.receiveAt_filler (s : State) {lane : Nat} {l : Link} {h : Hop} {f : Frame} (hl : tget s.fab.links lane = some l)
    (hkind : h.kind = 0) : s.receiveAt lane { crcOk := true, hop := h, frame := f } = s.hopIn lane h := by
  unfold State.receiveAt
  rw [hl]
  exact if_pos hkind

/-- A frame whose CRC is bad is counted, and asked for again (R367). -/
theorem State.receiveAt_badCrc {lane : Nat} {l : Link} {x : RxFrame} (hl : tget s.fab.links lane = some l) (hx : x.crcOk = false) :
    s.receiveAt lane x = (s.modFab fun b => { b with links := tput b.links lane { l with nack := true } }).fcount 0 1 := by
  unfold State.receiveAt
  rw [hl]
  exact if_pos (by rw [hx]; rfl)

/-! ## Relays (R371) -/

theorem State.takeRx_of_head {x : RxItem} {rest : List RxItem} (h : s.fab.rx = x :: rest) (f : State → State) :
    s.takeRx x f = f (s.modFab fun b => { b with rx := rest }) := by
  have hdrop : s.fab.rx.drop 1 = rest := by rw [h, List.drop_one, List.tail_cons]
  calc s.takeRx x f
    _ = f (s.modFab fun b => { b with rx := b.rx.drop 1 }) := if_pos (by rw [h]; rfl)
    _ = f { s with fab := { s.fab with rx := s.fab.rx.drop 1 } } := rfl
    _ = f (s.modFab fun b => { b with rx := rest }) := by rw [hdrop]; rfl

/-- A relay frame taken: held, or dropped where its destination is dead or the store is full (R371). -/
def State.holdRelay (s : State) (lane : Nat) (f : Frame) : State :=
  if s.isDead f.dst.toNat then s
  else if relayCap ≤ (s.fab.relay.filter (fun x => x.1 == lane / 24)).length then s.fcount 4 1
  else (s.modFab fun b => { b with relay := b.relay ++ [(lane / 24, f)] }).fcount 3 1

theorem exec_relayFrame_of_head {lane : Nat} {f : Frame} {rest : List RxItem} (h : s.fab.rx = .relay lane f :: rest) :
    exec (.relayFrame lane f) s = .next ((s.modFab fun b => { b with rx := rest }).holdRelay lane f) :=
  congrArg Host.Outcome.next (State.takeRx_of_head h _)

theorem State.holdRelay_of_dead {lane : Nat} {f : Frame} (h : s.isDead f.dst.toNat = true) : s.holdRelay lane f = s := if_pos h

theorem State.holdRelay_of_full {lane : Nat} {f : Frame} (hd : s.isDead f.dst.toNat = false)
    (h : relayCap ≤ (s.fab.relay.filter (fun x => x.1 == lane / 24)).length) : s.holdRelay lane f = s.fcount 4 1 := by
  rw [State.holdRelay, if_neg (by simp [hd]), if_pos h]

theorem State.holdRelay_of_room {lane : Nat} {f : Frame} (hd : s.isDead f.dst.toNat = false)
    (h : (s.fab.relay.filter (fun x => x.1 == lane / 24)).length < relayCap) :
    s.holdRelay lane f = (s.modFab fun b => { b with relay := b.relay ++ [(lane / 24, f)] }).fcount 3 1 := by
  rw [State.holdRelay, if_neg (by simp [hd]), if_neg (Nat.not_le.mpr h)]

/-- Settles O52, clause by clause from what each part of a slot sets. -/
theorem links : Obligations.Links := by
  unfold Obligations.Links
  intro s lane q n x k f hop rest
  refine ⟨?closes, ?open', ?starts, ?started, ?position, ?taken, ?relay, ?lane, ?silent, ?heard⟩
  case closes => exact fun h => ⟨_, congrArg Host.Outcome.next (if_pos h), s.endSlot_spec⟩
  case open' => exact fun h => congrArg Host.Outcome.next (if_neg (by rw [h]; decide))
  case starts =>
    intro h
    obtain ⟨-, -, hend⟩ := s.endSlot_spec
    obtain ⟨hslot, hbegun, hmem⟩ := State.beginSlot_spec (if s.fab.slot = 0 then s else s.endSlot) s.slotNo
    refine ⟨_, congrArg Host.Outcome.next (if_neg h), hslot, hbegun, hmem.trans ?_, fun hs h0 y hq hu hr => ?_⟩
    · split
      · rfl
      · exact hend
    · rw [if_pos h0]
      exact State.mem_queue_beginSlot hs hq (by simp [QFrame.due, hr])
  case started => exact fun h => congrArg Host.Outcome.next (if_pos h)
  case position =>
    intro hx hk hpos hlive hdead hr hn
    have hsend := State.transmit_filler (k := k) hr hn
    obtain ⟨hquiet, hready⟩ := State.framePosition_of_ready hx hk hpos hlive hdead
    refine ⟨?sends, ?filler, ?crc⟩
    case sends =>
      refine ⟨_, x.sentFiller k, congrArg Host.Outcome.next (hquiet.trans hsend), rfl, rfl, ?_, rfl, rfl⟩
      exact State.tget_links_emitFrame _ _ _ _ _ _
    case filler =>
      intro hmap
      have hl := s.tget_links_emitFrame lane k x (s.hopOf lane x) none
      have hfill := (State.receiveAt_filler (h := { hop with kind := 0 }) (f := default) _ hl rfl).trans
        (State.hopIn_of_none_dead hl hmap)
      refine ⟨_, _, congrArg Host.Outcome.next ((hready _).trans ((congrArg (State.receiveAt · lane _) hsend).trans hfill)), rfl, rfl,
        tget_tput_self _ _ _, rfl, tget_tput_self _ _ _, tget_tput_self _ _ _, tget_tput_self _ _ _⟩
    case crc =>
      intro rx hrx
      have hbad := State.receiveAt_badCrc (s.tget_links_emitFrame lane k x (s.hopOf lane x) none) hrx
      exact ⟨_, _, congrArg Host.Outcome.next ((hready _).trans ((congrArg (State.receiveAt · lane _) hsend).trans hbad)),
        tget_tput_self _ _ _, rfl, ctr_fcount _ 0, rfl⟩
  case taken =>
    intro hx h
    have hkept := State.framePosition_of_taken hx h
    exact ⟨congrArg Host.Outcome.next (hkept _), congrArg Host.Outcome.next (hkept _)⟩
  case relay =>
    intro hrx
    have htaken := exec_relayFrame_of_head hrx
    refine ⟨fun hd => ⟨_, htaken.trans (congrArg Host.Outcome.next (State.holdRelay_of_dead hd)), rfl⟩,
      fun hd hroom => ⟨_, htaken.trans (congrArg Host.Outcome.next (State.holdRelay_of_room hd hroom)), rfl, rfl⟩,
      fun hd hfull => ⟨_, htaken.trans (congrArg Host.Outcome.next (State.holdRelay_of_full hd hfull)), rfl, rfl, ?_⟩⟩
    exact ctr_fcount _ 4
  case lane =>
    intro hl
    refine ⟨_, congrArg Host.Outcome.next (if_pos hl), State.port_failLane s hl, s.mem_failLane lane, fun j hj => ?_, ?_⟩
    · rw [State.lanes_failLane, bitNat_clearBit _ hj]
    · exact State.replace_setHlth _ _
  case silent =>
    intro hq hn
    refine ⟨s.markDead q, ?_, s.isDead_markDead q, s.mem_markDead q⟩
    rw [exec_livenessTimeout, execLivenessTimeout, hq]
    exact congrArg Host.Outcome.next (if_pos hn)
  case heard =>
    intro hq hn
    rw [exec_livenessTimeout, execLivenessTimeout, hq]
    exact congrArg Host.Outcome.next (if_neg (Nat.not_le.mpr hn))

end Sys2Proof.Machine
end

section
/-!
SUPPORT. Entries of launch queues (R318-R322, R328): what the reads of an entry leave of queues, launches and graphs, and what each end
of its checks does.
-/

namespace Sys2Proof.Machine

variable {s t u v : State} {q : Nat}

/-- What the checks of an entry rest on and its end changes: queues, launches, the numbers given next, topology and time. -/
structure Desk where
  queues : Tab Queue
  launches : Tab Launch
  nextLaunch : Nat
  nextGraph : Nat
  topo : Topo
  tb : Nat

def State.desk (s : State) : Desk := ⟨s.queues, s.launches, s.nextLaunch, s.nextGraph, s.topo, s.tb⟩

theorem desk_of_rest (h : t.rest = s.rest) : t.desk = s.desk :=
  (congrArg (fun r : State => (⟨r.queues, r.launches, r.nextLaunch, r.nextGraph, r.topo, r.tb⟩ : Desk)) h :)

theorem queue_of_desk (h : t.desk = s.desk) (q : Nat) : t.queue q = s.queue q := congrArg (fun d : Desk => tgetD d.queues q {}) h

/-! ## Reads of the command processor (R282, R321, R324) -/

theorem rest_cpRead (s : State) (h a n : Nat) : (s.cpRead h a n).rest = s.rest := (rest_noteRead _ _ _).trans (rest_performEarlier _ _ _ _)

theorem rest_readRcbs (s : State) (h rcb : Nat) : (s.readRcbs h rcb).rest = s.rest := rest_foldl (fun u a => rest_cpRead u h a 128) _ s

theorem desk_putRegions (s : State) (h rcb : Nat) (l : List (Nat × Region)) : ((s.readRcbs h rcb).putRegions h l).desk = s.desk :=
  (desk_of_rest (rest_readRcbs s h rcb) :)

/-- The pieces a hub reads leave the rest (R321, R328). -/
theorem rest_loadPieces (n k m va : Nat) (s : State) : (State.loadPieces n hubCtx k m va s).2.rest = s.rest := by
  induction m generalizing s va with
  | zero => rfl
  | succ m ih =>
    have htouch : (if va % k ≠ 0 then s else s.touch n true (s.sc n).root va).rest = s.rest := rest_ite rfl (rest_touch _ _ _ _ _)
    have hpiece : ∀ (w : State) (x : Xlat), (w.loadPiece n hubCtx k x).2.rest = w.rest := fun w x => by
      unfold State.loadPiece
      dsimp only
      split
      · rfl
      · rw [if_pos rfl]
        exact (rest_noteRead _ _ _).trans (rest_performEarlier _ _ _ _)
    unfold State.loadPieces
    dsimp only
    split
    · exact htouch
    · exact (ih _ _).trans ((hpiece _ _).trans htouch)

theorem rest_readGraph (s : State) (n va : Nat) : (s.readGraph n hubCtx va).2.rest = s.rest := by
  have hdesc := rest_loadPieces n 8 8 va s
  have hnodes := fun m a => (rest_loadPieces n 8 m a _).trans hdesc
  unfold State.readGraph
  dsimp only
  split
  · exact hdesc
  · split
    · exact hdesc
    · split
      · exact hnodes _ _
      · split
        · exact (rest_loadPieces _ _ _ _ _).trans (hnodes _ _)
        · exact (rest_loadPieces _ _ _ _ _).trans (hnodes _ _)

/-! ## Reads with no packet of the command processor under way -/

/-- No packet of the port of a hub's command processor is still to be performed. -/
def State.cpQuiet (s : State) (h : Nat) : Prop := ∀ p ∈ s.pkts, p.2.port = cpPort h → p.2.done = true

theorem State.pkts_spoiled (s : State) (st n : Nat) : (s.spoiled st n).pkts = s.pkts := by
  unfold State.spoiled
  split <;> rfl

theorem State.pkts_meetHost (s : State) (a n : Nat) (inv : Bool) : (s.meetHost a n inv).pkts = s.pkts := by
  unfold State.meetHost
  split <;> rfl

theorem State.pkts_readEffect (s : State) (a n : Nat) : (s.readEffect a n).pkts = s.pkts := by
  unfold State.readEffect
  dsimp only
  split
  · exact s.pkts_meetHost a n false
  · exact (State.pkts_spoiled _ _ _).trans (s.pkts_meetHost a n false)

theorem State.pkts_noteRead (s : State) (a n : Nat) : (s.noteRead a n).pkts = s.pkts := by
  have hreads : ∀ (fuel : Nat) (s : State) (a n : Nat), (State.countReads fuel s a n).pkts = s.pkts := fun fuel => by
    induction fuel with
    | zero => exact fun _ _ _ => rfl
    | succ fuel ih =>
      intro s a n
      unfold State.countReads
      split
      · rfl
      · exact (ih _ _ _).trans (s.pkts_readEffect _ _)
  exact hreads _ s a n

/-- A read that no packet precedes leaves memory and the packets. -/
theorem State.cpRead_of_quiet {h : Nat} (hq : s.cpQuiet h) (a n : Nat) :
    (s.cpRead h a n).mem = s.mem ∧ (s.cpRead h a n).pkts = s.pkts := by
  have hnone : s.earlier (cpPort h) a n = [] := List.filter_eq_nil_iff.mpr fun p hp => by
    have hdone := hq p hp
    simp only [Bool.and_eq_true, beq_iff_eq, Bool.not_eq_true', decide_eq_true_eq]
    rintro ⟨⟨⟨hport, hopen⟩, -⟩, -⟩
    rw [hdone hport] at hopen
    cases hopen
  have hsame : s.performEarlier (cpPort h) a n = s := by
    unfold State.performEarlier
    rw [hnone]
    rfl
  unfold State.cpRead
  rw [hsame]
  exact ⟨(sameStore_noteRead s a n).mem, s.pkts_noteRead a n⟩

theorem State.cpQuiet_of_pkts {h : Nat} (hq : s.cpQuiet h) (hp : t.pkts = s.pkts) : t.cpQuiet h := by
  unfold State.cpQuiet
  rwa [hp]

theorem State.mem_readRcbs {h : Nat} (hq : s.cpQuiet h) (rcb : Nat) : (s.readRcbs h rcb).mem = s.mem := by
  unfold State.readRcbs
  generalize s.chainReads 8 rcb = l
  induction l generalizing s with
  | nil => rfl
  | cons a l ih =>
    obtain ⟨hmem, hpkts⟩ := State.cpRead_of_quiet hq a 128
    exact (ih (State.cpQuiet_of_pkts hq hpkts)).trans hmem

/-! ## Ends of an entry (R321, R329) -/

/-- HEAD of a queue moves past an entry, and nothing else of the queue changes. -/
theorem State.queue_pass (hv : v.desk = s.desk) :
    ((v.pass q).queue q).head = ((s.queue q).head + 1) % 2 ^ (s.queue q).log2 ∧ ((v.pass q).queue q).infl = (s.queue q).infl := by
  rw [State.pass, State.queue_modQueue_self, queue_of_desk hv]
  exact ⟨rfl, rfl⟩

/-- What a refusal with a status leaves of a queue (R321). -/
structure Refuses (s t : State) (q status : Nat) : Prop where
  head : (t.queue q).head = ((s.queue q).head + 1) % 2 ^ (s.queue q).log2
  ref : (t.queue q).ref = true
  last : (t.queue q).last = status
  launches : t.launches = s.launches
  infl : (t.queue q).infl = (s.queue q).infl

theorem State.refuses_refuse (hv : v.desk = s.desk) (d : Desc) (status : Nat) : Refuses s (v.refuse q d status) q status := by
  have hblock := (desk_of_rest (rest_writeBlock v (if flagOk' v.topo d then d.flag else 0) d.value status 0 0 0 noTix noTix)).trans hv
  unfold State.refuse
  generalize v.writeBlock (if flagOk' v.topo d then d.flag else 0) d.value status 0 0 0 noTix noTix = w at hblock ⊢
  have hq := queue_of_desk hblock q
  refine ⟨?_, ?_, ?_, congrArg Desk.launches hblock, ?_⟩ <;> simp [State.pass, hq]

/-- An entry's HEAD moves on where the queue holds more than one entry. -/
theorem head_ne_moved {h k : Nat} (hlt : h < 2 ^ k) (hk : 1 ≤ k) : (h + 1) % 2 ^ k ≠ h := fun e => by
  have htwo : 2 ≤ 2 ^ k := (Nat.pow_le_pow_right (by decide) hk : 2 ^ 1 ≤ 2 ^ k)
  rcases Nat.lt_or_ge (h + 1) (2 ^ k) with hs | hs
  · rw [Nat.mod_eq_of_lt hs] at e
    omega
  · have : h + 1 = 2 ^ k := by omega
    rw [this, Nat.mod_self] at e
    omega

/-- A queue with an entry, and room for two. -/
structure State.HasEntry (s : State) (q : Nat) : Prop where
  ready : (s.queue q).ready = true
  head : (s.queue q).head < 2 ^ (s.queue q).log2
  log2 : 1 ≤ (s.queue q).log2

theorem exec_launchRead_of_moved (h : s.HasEntry q) (ht : s.readEntry q = t)
    (hm : (t.queue q).head = ((s.queue q).head + 1) % 2 ^ (s.queue q).log2) : exec (.launchRead q) s = .next t := by
  have hne : (t.queue q).head ≠ (s.queue q).head := hm ▸ head_ne_moved h.head h.log2
  subst ht
  rw [exec_launchRead, execLaunchRead, if_neg (by simp [h.ready]), if_neg hne]

theorem exec_launchRead_of_kept (ht : s.readEntry q = t) (hd : t.desk = s.desk) : exec (.launchRead q) s = .next s := by
  subst ht
  rw [exec_launchRead, execLaunchRead]
  refine congrArg Host.Outcome.next (ite_eq_left_iff.mpr fun _ => if_pos ?_)
  exact congrArg Queue.head (queue_of_desk hd q)

theorem exec_launchRead_refuses (h : s.HasEntry q) {d : Desc} {status : Nat} (ht : s.readEntry q = v.refuse q d status)
    (hv : v.desk = s.desk) : ∃ t, exec (.launchRead q) s = .next t ∧ Refuses s t q status :=
  have hr := State.refuses_refuse hv d status
  ⟨_, exec_launchRead_of_moved h ht hr.head, hr⟩

/-! ## The checks of an entry (R321) -/

/-- The state once the entry has been read. -/
def State.readNext (s : State) (q : Nat) : State := s.cpRead (q / 4096) (s.nextAddr q) 64

theorem desk_readNext (s : State) (q : Nat) : (s.readNext q).desk = s.desk := desk_of_rest (rest_cpRead s _ _ _)

theorem State.readEntry_eq (s : State) (q : Nat) : s.readEntry q =
    if !flagOk' s.topo (descOf (s.nextDesc q)) then (s.readNext q).refuse q (descOf (s.nextDesc q)) 0x11
    else if 2 ^ 24 < (descOf (s.nextDesc q)).count then (s.readNext q).refuse q (descOf (s.nextDesc q)) 0x10
    else if bitNat (descOf (s.nextDesc q)).flags 0 && (s.queue q).infl != 0 then s.readNext q
    else if (descOf (s.nextDesc q)).count = 0 then
      ((s.readNext q).writeBlock (descOf (s.nextDesc q)).flag (descOf (s.nextDesc q)).value 1 0 0 0 noTix noTix).pass q
    else (s.readNext q).launchChecks q (descOf (s.nextDesc q)) := by
  have hdesk := desk_readNext s q
  have htopo : (s.readNext q).topo = s.topo := congrArg Desk.topo hdesk
  rw [← queue_of_desk hdesk q, ← htopo]
  rfl

/-- A queue's entry as an accepted launch leaves it (R321). -/
structure Accepts (s t : State) (q : Nat) : Prop where
  head : (t.queue q).head = ((s.queue q).head + 1) % 2 ^ (s.queue q).log2
  infl : (t.queue q).infl = (s.queue q).infl + 1

theorem State.accepts_acceptLaunch (hv : v.desk = s.desk) (d : Desc) (graph : Bool) : Accepts s (v.acceptLaunch q d graph) q := by
  have hq := queue_of_desk hv q
  have hqueue : (v.acceptLaunch q d graph).queue q =
      (((v.modQueue q fun x => { x with infl := x.infl + 1 }).pass q).queue q) := rfl
  constructor <;> rw [hqueue] <;> simp [State.pass, hq]

/-- The launch that an accepted entry makes. -/
theorem State.tget_acceptLaunch (hv : v.desk = s.desk) (d : Desc) (graph : Bool) :
    ∃ y, tget (v.acceptLaunch q d graph).launches s.nextLaunch = some y ∧ y.count = d.count ∧ y.entry = BitVec.ofNat 64 d.entry
      ∧ y.arg = BitVec.ofNat 64 d.arg ∧ y.rcb = d.rcb ∧ y.queue = q ∧ y.graph = graph ∧ y.t0 = s.tb := by
  have hnext : v.nextLaunch = s.nextLaunch := congrArg Desk.nextLaunch hv
  rw [← hnext]
  exact ⟨_, tget_tput_self _ _ _, rfl, rfl, rfl, rfl, rfl, rfl, congrArg Desk.tb hv⟩

/-! ## Entries past check 2 (R321) -/

/-- A checked entry that is not held: neither refused by check 1 or 2, nor closed at once, nor waiting. -/
structure State.Checks (s : State) (q : Nat) (d : Desc) : Prop where
  flag : flagOk' s.topo d = true
  some : 1 ≤ d.count
  few : d.count ≤ 2 ^ 24
  free : ¬(bitNat d.flags 0 = true ∧ (s.queue q).infl ≠ 0)

theorem State.readEntry_of_checks (h : s.Checks q (descOf (s.nextDesc q))) :
    s.readEntry q = (s.readNext q).launchChecks q (descOf (s.nextDesc q)) := by
  rw [State.readEntry_eq, if_neg (by simp [h.flag]), if_neg (Nat.not_lt.mpr h.few), if_neg (by simpa using h.free),
    if_neg (Nat.ne_of_gt h.some)]

/-- The state once the chain of an entry's region has been read and put in the table of the hub. -/
def State.withRegions (s : State) (q : Nat) (d : Desc) (l : List (Nat × Region)) : State :=
  (s.readRcbs (q / 4096) d.rcb).putRegions (q / 4096) l

/-- Without a chain of RCBs that ends in the table's root an entry is refused (R321). -/
theorem State.launchChecks_of_noChain {d : Desc} (hshape : d.shapeOk = true) (h : d.rcb = 0 ∨ v.readChain 8 d.rcb = none) :
    ∃ w : State, v.launchChecks q d = w.refuse q d 0x12 ∧ w.desk = v.desk := by
  rw [State.launchChecks, if_neg (by simp [hshape])]
  split
  next => exact ⟨v, rfl, rfl⟩
  next hrcb =>
    rw [h.resolve_left hrcb]
    exact ⟨_, rfl, desk_of_rest (rest_readRcbs _ _ _)⟩

/-- With no packet of the command processor under way, what is read up to the regions leaves memory. -/
theorem State.mem_withRegions {d : Desc} {l : List (Nat × Region)} (hq : s.cpQuiet (q / 4096)) :
    ((s.readNext q).withRegions q d l).mem = s.mem := by
  obtain ⟨hmem, hpkts⟩ := State.cpRead_of_quiet hq (s.nextAddr q) 64
  exact (State.mem_readRcbs (State.cpQuiet_of_pkts hq hpkts) d.rcb).trans hmem

theorem State.launchChecks_of_chain {d : Desc} {l : List (Nat × Region)} (hshape : d.shapeOk = true) (hrcb : d.rcb ≠ 0)
    (hl : v.readChain 8 d.rcb = some l) : v.launchChecks q d =
      if !(v.withRegions q d l).admitOk d then (v.readRcbs (q / 4096) d.rcb).refuse q d 0x13
      else if 2048 < (v.withRegions q d l).regionCount (q / 4096) then v
      else if d.kind = 2 then (v.withRegions q d l).launchGraph q d
      else (v.withRegions q d l).acceptLaunch q d false := by
  rw [State.launchChecks, if_neg (by simp [hshape]), if_neg hrcb]
  dsimp only
  rw [hl]
  rfl

/-! ## GRAPH launches (R328) -/

section

variable {d : Desc} {gd : GraphDesc} {ns : List Node}

/-- A graph that cannot be read refuses the launch. -/
theorem State.launchGraph_of_error {e : Halt} (hp : (u.readGraph (u.hubSc d.rcb) hubCtx d.arg).1 = .error e) :
    u.launchGraph q d = (u.readGraph (u.hubSc d.rcb) hubCtx d.arg).2.refuse q d 0x14 := by
  unfold State.launchGraph
  dsimp only
  rw [hp]

/-- So does one that the walker has no room for. -/
theorem State.launchGraph_of_big (hp : (u.readGraph (u.hubSc d.rcb) hubCtx d.arg).1 = .ok (gd, ns))
    (hbig : 65536 < u.residentNodes (hubOf (u.hubSc d.rcb)) + gd.n) :
    u.launchGraph q d = (u.readGraph (u.hubSc d.rcb) hubCtx d.arg).2.refuse q d 0x14 := by
  unfold State.launchGraph
  dsimp only
  rw [hp]
  exact if_pos hbig

/-- While no future is FREE the launch waits (log 55). -/
theorem State.launchGraph_of_noFut (hp : (u.readGraph (u.hubSc d.rcb) hubCtx d.arg).1 = .ok (gd, ns))
    (hroom : u.residentNodes (hubOf (u.hubSc d.rcb)) + gd.n ≤ 65536) (hk : u.allocFut (q / 4096) = none) : u.launchGraph q d = u := by
  unfold State.launchGraph
  dsimp only
  rw [hp, hk]
  exact if_neg (Nat.not_lt.mpr hroom)

/-- A graph launch whose graph can be read and for which a future is FREE. -/
theorem State.launchGraph_of_placed {k : Nat} (hp : (u.readGraph (u.hubSc d.rcb) hubCtx d.arg).1 = .ok (gd, ns))
    (hroom : u.residentNodes (hubOf (u.hubSc d.rcb)) + gd.n ≤ 65536) (hk : u.allocFut (q / 4096) = some k) :
    u.launchGraph q d =
      ((u.readGraph (u.hubSc d.rcb) hubCtx d.arg).2.acceptLaunch q d true).placeGraph k { rcb := d.rcb, launch := some u.nextLaunch }
        { nodes := ns, flag := gd.flag, rcb := d.rcb, sc := u.hubSc d.rcb, launch := some u.nextLaunch } := by
  unfold State.launchGraph
  dsimp only
  rw [hp, hk]
  exact if_neg (Nat.not_lt.mpr hroom)

end

/-- A graph made resident, with its future (R257). -/
theorem State.placeGraph_spec (s : State) (k : Nat) (f : Fut) (g : Graph) :
    let t := s.placeGraph k f g
    (∀ q, t.queue q = s.queue q) ∧ t.launches = s.launches
      ∧ tget t.graphs s.nextGraph = some { g with fut := k, nodes := g.nodes.map fun x => { x with zeroAt := s.cycle } }
      ∧ (t.fut k).st = .running ∧ (t.fut k).graph = true ∧ (t.fut k).count = 1 ∧ (t.fut k).launch = f.launch := by
  have hplaced : (s.placeGraph k f g).fut k =
      ((s.newFut k { f with graph := true }).modFut k fun x => { x with st := .running }).fut k := rfl
  rw [State.fut_modFut_self, State.fut_newFut_self] at hplaced
  refine ⟨fun _ => rfl, rfl, tget_tput_self s.graphs s.nextGraph _, ?_⟩
  rw [hplaced]
  exact ⟨rfl, rfl, rfl, rfl⟩

/-- Settles O45: the reads of an entry leave its queue, the launches and the numbers given next, so that each end of the checks is
that of the state before them. -/
theorem launchReads : Obligations.LaunchReads := by
  unfold Obligations.LaunchReads
  intro s q
  dsimp only
  intro hready hhead hlog
  have he : s.HasEntry q := ⟨hready, hhead, hlog⟩
  have hv := desk_readNext s q
  have hread := s.readEntry_eq q
  have hchecks := State.readEntry_of_checks (s := s) (q := q)
  rw [show s.cpRead (q / 4096) (s.nextAddr q) 64 = s.readNext q from rfl]
  generalize descOf (s.nextDesc q) = d at hread hchecks ⊢
  refine ⟨?flag, ?count, ?held, ?zero, ?checks⟩
  case flag =>
    intro hf
    obtain ⟨t, hx, hr⟩ := exec_launchRead_refuses he (hread.trans (if_pos (by rw [hf]; rfl))) hv
    exact ⟨t, hx, hr.head, hr.ref, hr.last, hr.launches, hr.infl⟩
  case count =>
    intro hf hc
    obtain ⟨t, hx, hr⟩ := exec_launchRead_refuses he (hread.trans ((if_neg (by simp [hf])).trans (if_pos hc))) hv
    exact ⟨t, hx, hr.head, hr.ref, hr.last, hr.launches, hr.infl⟩
  case held =>
    intro hf hc hh
    refine exec_launchRead_of_kept (hread.trans ?_) hv
    rw [if_neg (by simp [hf]), if_neg (Nat.not_lt.mpr hc), if_pos (by simpa using hh)]
  case zero =>
    intro hf hc hh
    have hread := hread.trans <| (if_neg (by simp [hf])).trans <| (if_neg (by simp [hc])).trans <|
      (if_neg (by simpa using hh)).trans (if_pos hc)
    have hdesk := (desk_of_rest (rest_writeBlock (s.readNext q) d.flag d.value 1 0 0 0 noTix noTix)).trans hv
    generalize (s.readNext q).writeBlock d.flag d.value 1 0 0 0 noTix noTix = w at hread hdesk
    obtain ⟨hhead, hinfl⟩ := State.queue_pass hdesk (q := q)
    exact ⟨_, exec_launchRead_of_moved he hread hhead, hhead, hinfl, congrArg Desk.launches hdesk⟩
  case checks =>
    intro hf hsome hfew hh
    have hread := hchecks ⟨hf, hsome, hfew, hh⟩
    refine ⟨?shape, ?chain, ?regions⟩
    case shape =>
      intro hs
      obtain ⟨t, hx, hr⟩ := exec_launchRead_refuses he (hread.trans (if_pos (by rw [hs]; rfl))) hv
      exact ⟨t, hx, hr.head, hr.ref, hr.last, hr.launches, hr.infl⟩
    case chain =>
      intro hs hl
      obtain ⟨w, hw, hd⟩ := State.launchChecks_of_noChain (q := q) hs hl
      obtain ⟨t, hx, hr⟩ := exec_launchRead_refuses he (hread.trans hw) (hd.trans hv)
      exact ⟨t, hx, hr.head, hr.ref, hr.last, hr.launches, hr.infl⟩
    case regions =>
      intro l hs hrcb hl
      have hread := hread.trans (State.launchChecks_of_chain hs hrcb hl)
      have hu : ((s.readNext q).withRegions q d l).desk = s.desk := (desk_putRegions _ _ _ _).trans hv
      have hr : ((s.readNext q).readRcbs (q / 4096) d.rcb).desk = s.desk := (desk_of_rest (rest_readRcbs _ _ _)).trans hv
      have hmem : s.cpQuiet (q / 4096) → ((s.readNext q).withRegions q d l).mem = s.mem := State.mem_withRegions
      rw [show ((s.readNext q).readRcbs (q / 4096) d.rcb).putRegions (q / 4096) l = (s.readNext q).withRegions q d l from rfl]
      generalize (s.readNext q).withRegions q d l = u at hread hu hmem ⊢
      refine ⟨?refused, ?full, ?task, ?graph⟩
      case refused =>
        intro ha
        obtain ⟨t, hx, hr⟩ := exec_launchRead_refuses he (hread.trans (if_pos (by rw [ha]; rfl))) hr
        exact ⟨t, hx, hr.head, hr.ref, hr.last, hr.launches, hr.infl⟩
      case full =>
        exact fun ha hfull => exec_launchRead_of_kept (hread.trans ((if_neg (by simp [ha])).trans (if_pos hfull))) hv
      case task =>
        intro ha hroom hk
        have hread := hread.trans <| (if_neg (by simp [ha])).trans <| (if_neg (Nat.not_lt.mpr hroom)).trans (if_neg (by simp [hk]))
        have hacc := State.accepts_acceptLaunch (q := q) hu d false
        obtain ⟨y, hy, hcount, hentry, harg, hrcb', hqueue, hgraph, ht0⟩ := State.tget_acceptLaunch (q := q) hu d false
        exact ⟨_, y, exec_launchRead_of_moved he hread hacc.head, hacc.head, hacc.infl,
          congrArg (· + 1) (congrArg Desk.nextLaunch hu), hy, hcount, hentry, harg, hrcb', hqueue, hgraph, ht0, hmem⟩
      case graph =>
        intro ha hroom hk
        have hread := hread.trans <| (if_neg (by simp [ha])).trans <| (if_neg (Nat.not_lt.mpr hroom)).trans (if_pos hk)
        have hp : (u.readGraph (u.hubSc d.rcb) hubCtx d.arg).2.desk = s.desk := (desk_of_rest (rest_readGraph _ _ _)).trans hu
        refine ⟨fun e herr => ?_, fun gd ns hok => ⟨fun hbig => ?_, fun hfit hnone => ?_, fun k hfit hfree => ?_⟩⟩
        · obtain ⟨t, hx, hr⟩ := exec_launchRead_refuses he (hread.trans (State.launchGraph_of_error herr)) hp
          exact ⟨t, hx, hr.head, hr.ref, hr.last, hr.launches, hr.infl⟩
        · obtain ⟨t, hx, hr⟩ := exec_launchRead_refuses he (hread.trans (State.launchGraph_of_big hok hbig)) hp
          exact ⟨t, hx, hr.head, hr.ref, hr.last, hr.launches, hr.infl⟩
        · exact exec_launchRead_of_kept (hread.trans (State.launchGraph_of_noFut hok hfit hnone)) hu
        · have hplaced := hread.trans (State.launchGraph_of_placed hok hfit hfree)
          rw [show u.nextLaunch = s.nextLaunch from congrArg Desk.nextLaunch hu] at hplaced
          have hacc := State.accepts_acceptLaunch (q := q) hp d true
          obtain ⟨y, hy, -, -, -, hrcb', hqueue, hgraph, -⟩ := State.tget_acceptLaunch (q := q) hp d true
          have hnext : ((u.readGraph (u.hubSc d.rcb) hubCtx d.arg).2.acceptLaunch q d true).nextGraph = s.nextGraph :=
            congrArg Desk.nextGraph hp
          generalize (u.readGraph (u.hubSc d.rcb) hubCtx d.arg).2.acceptLaunch q d true = w at hplaced hacc hy hnext
          obtain ⟨hq, hlaunches, hgraphs, hst, hg, hcount, hlaunch⟩ := w.placeGraph_spec k
            { rcb := d.rcb, launch := some s.nextLaunch }
            { nodes := ns, flag := gd.flag, rcb := d.rcb, sc := u.hubSc d.rcb, launch := some s.nextLaunch }
          rw [hnext] at hgraphs
          refine ⟨_, y, _, exec_launchRead_of_moved he hplaced ((congrArg Queue.head (hq q)).trans hacc.head),
            (congrArg Queue.head (hq q)).trans hacc.head, (congrArg Queue.infl (hq q)).trans hacc.infl,
            (congrArg (tget · s.nextLaunch) hlaunches).trans hy, hgraph, hqueue, hrcb', hgraphs, rfl, rfl, rfl, rfl, rfl, ?_,
            hst, hg, hcount, hlaunch⟩
          rw [List.map_map]
          rfl

end Sys2Proof.Machine
end

section
/-!
SUPPORT. Operations on read-duplicate pages (R338-R348): what each step of one leaves beside memory and the page's own state, this
package's part of each, and how the instruction goes on from it.
-/

namespace Sys2Proof.Machine

variable {s t u : State} {i k o p : Nat} {c : DupAct} {D : DupPage}

/-! ## Steps of an operation -/

/-- The rest of the machine but for the pages' states. -/
def State.aside (s : State) : State := { s.rest with dup := [] }

/-- A step from `s` leaves what accesses leave, but for the state of page `i`, which is `D`. -/
structure DupStep (s t : State) (i : Nat) (D : DupPage) : Prop where
  aside : t.aside = s.aside
  tables : t.tables = s.tables
  page : t.dupPage i = D

/-- What keeps the rest and the clusters' offices keeps the tables. -/
theorem tables_of_rest (h : t.rest = s.rest) (hsc : ∀ n, (t.sc n).office = (s.sc n).office) : t.tables = s.tables := by
  have hrest : (t.cur, t.futs, t.launches, t.pbars) = (s.cur, s.futs, s.launches, s.pbars) :=
    (congrArg (fun r : State => (r.cur, r.futs, r.launches, r.pbars)) h :)
  simp only [Prod.mk.injEq] at hrest
  obtain ⟨hcur, hfuts, hlaunches, hpbars⟩ := hrest
  rw [State.tables, State.tables, hcur, hfuts, hlaunches, hpbars, funext hsc]

theorem State.dupPage_modDup_self (s : State) (i : Nat) (f : DupPage → DupPage) : (s.modDup i f).dupPage i = f (s.dupPage i) :=
  tgetD_tput_self _ _ _ _

theorem DupStep.refl (s : State) (i : Nat) : DupStep s s i (s.dupPage i) := ⟨rfl, rfl, rfl⟩

theorem DupStep.access (h : DupStep s t i D) (hrest : u.rest = t.rest) (htables : u.tables = t.tables) : DupStep s u i D where
  aside := (congrArg (fun r : State => { r with dup := [] }) hrest :).trans h.aside
  tables := htables.trans h.tables
  page := (congrArg (fun r : State => r.dupPage i) hrest :).trans h.page

theorem DupStep.modDup (h : DupStep s t i D) (f : DupPage → DupPage) : DupStep s (t.modDup i f) i (f D) where
  aside := h.aside
  tables := h.tables
  page := (t.dupPage_modDup_self i f).trans (congrArg f h.page)

theorem DupStep.noteRead (h : DupStep s t i D) (a n : Nat) : DupStep s (t.noteRead a n) i D :=
  h.access (rest_noteRead t a n) (tables_of_rest (rest_noteRead t a n) fun m => by rw [State.sc, (sameStore_noteRead t a n).scs]; rfl)

theorem DupStep.putPte (h : DupStep s t i D) (a x : Nat) : DupStep s (t.putPte a x) i D :=
  h.access (rest_write t a _ false) (tables_write t a _ false)

theorem DupStep.dropRange (h : DupStep s t i D) (lo n : Nat) : DupStep s (t.dropRange lo n) i D :=
  h.access rfl (tables_of_rest rfl fun m => by rw [State.dropRange, State.sc_dropTlb]; rfl)

theorem DupStep.receive (h : DupStep s t i D) (b : Nat) (data : List Byte) : DupStep s (t.receive i b data) i D :=
  h.access (rest_write t _ _ false) (tables_write t _ _ false)

theorem DupStep.regrow (h : DupStep s t i D) (j b x : Nat) : DupStep s (t.regrow j b x) i D := (h.putPte _ _).dropRange _ _

theorem DupStep.gain (h : DupStep s t i D) (b o : Nat) : DupStep s (t.gain i b o) i { D with owned := tput D.owned b o } :=
  (h.regrow i b _).modDup fun d => { d with owned := tput d.owned b o }

theorem DupStep.tookBlock (h : DupStep s t i D) : DupStep s (t.tookBlock i) i { D with block := none } := h.modDup _

theorem DupStep.rebuild (h : DupStep s t i D) (b leaf : Nat) : DupStep s (t.rebuild i b leaf) i D := h.regrow i b _

/-- The block is DUP, whether or not its page becomes WHOLE with it (R346). -/
theorem DupStep.rejoin (h : DupStep s t i D) (b : Nat) :
    ∃ whole, DupStep s (t.rejoin i b) i { D with owned := tdel D.owned b, split := whole } := by
  have hdup := h.modDup fun d => { d with owned := tdel d.owned b }
  unfold State.rejoin
  dsimp only
  split
  · exact ⟨false, (((hdup.noteRead _ _).putPte _ _).dropRange _ _).modDup _⟩
  · exact ⟨_, hdup⟩

/-- What an operation reads of the machine beside the page's own state, a step leaves. -/
theorem DupStep.aside_eq {α : Type} (h : DupStep s t i D) (f : State → α) (hf : ∀ u : State, f u.aside = f u) : f t = f s :=
  (hf t).symm.trans ((congrArg f h.aside).trans (hf s))

theorem DupStep.me (h : DupStep s t i D) : t.me = s.me := by
  have hcur : t.cur = s.cur := congrArg Tables.cur h.tables
  have hctx := congrArg Sc.ctxs (congrFun (congrArg Tables.offices h.tables) s.cur.sc)
  rw [State.me, State.me, hcur, State.ctx, State.ctx]
  exact congrArg (fun l => tgetD l s.cur.ctx {}) hctx

theorem DupStep.othersDone (h : DupStep s t i D) (ha : D.acks = (s.dupPage i).acks) : t.othersDone i = s.othersDone i := by
  have hholds : t.holds i = s.holds i := h.aside_eq (State.holds · i) fun _ => rfl
  have hpkgid : t.pkgid = s.pkgid := h.aside_eq State.pkgid fun _ => rfl
  have hdead : t.isDead = s.isDead := h.aside_eq State.isDead fun _ => rfl
  rw [State.othersDone, State.othersDone, hholds, hpkgid, hdead, h.page, ha]

/-! ## This package's part (R344-R346) -/

/-- This package's part of an operation is done, memory is then `m` and the page's state `D`. -/
structure PartDone (s : State) (i : Nat) (c : DupAct) (D : DupPage) (m : List Host.Cell) : Prop where
  done : (s.dupAct i c).2 = true
  step : DupStep s (s.dupAct i c).1 i D
  mem : (s.dupAct i c).1.mem = m
  ops : D.ops = (s.dupPage i).ops
  acks : D.acks = (s.dupPage i).acks

/-- A part that is nothing to do. -/
theorem partDone_of_same (h : s.dupAct i c = (s, true)) : PartDone s i c (s.dupPage i) s.mem where
  done := by rw [h]
  step := by rw [h]; exact .refl s i
  mem := by rw [h]
  ops := rfl
  acks := rfl

theorem partDone_of_step (h : s.dupAct i c = (t, true)) (hstep : DupStep s t i D) (ho : D.ops = (s.dupPage i).ops)
    (ha : D.acks = (s.dupPage i).acks) : PartDone s i c D t.mem where
  done := by rw [h]
  step := by rw [h]; exact hstep
  mem := by rw [h]
  ops := ho
  acks := ha

theorem partDone_split_of_split (h : (s.dupPage i).split = true) : PartDone s i .split (s.dupPage i) s.mem :=
  partDone_of_same (congrArg (·, true) (if_pos h))

theorem partDone_split_of_whole (h : (s.dupPage i).split = false) : ∃ m, PartDone s i .split { s.dupPage i with split := true } m := by
  have hleaves : ∀ (l : List Nat) (g : Nat → Nat) (x : Nat → Nat) (u : State), DupStep s u i (s.dupPage i) →
      DupStep s (l.foldl (fun u j => u.putPte (g j) (x j)) u) i (s.dupPage i) := fun l g x => by
    induction l with
    | nil => exact fun _ hu => hu
    | cons j l ih => exact fun u hu => ih _ (hu.putPte _ _)
  refine ⟨_, partDone_of_step rfl ?_ rfl rfl⟩
  unfold State.splitPage
  rw [if_neg (by simp [h])]
  exact (((hleaves _ _ _ _ (.refl s i)).putPte _ _).dropRange _ _).modDup fun d => { d with split := true }

section

variable (hs : (s.dupPage i).split = true)
include hs

theorem partDone_own_of_owner (h : s.dupOwner i k = some o) : PartDone s i (.own k o) (s.dupPage i) s.mem := by
  refine partDone_of_same ?_
  rw [State.dupAct, State.own, if_neg (by simp [hs]), h]
  exact if_pos rfl

/-- A block that goes from one other holder to another only changes its owner here. -/
theorem partDone_own_elsewhere (h : s.dupOwner i k = some p) (hpo : p ≠ o) (hp : p ≠ s.pkgid) (ho : o ≠ s.pkgid) :
    PartDone s i (.own k o) { s.dupPage i with owned := tput (s.dupPage i).owned k o } s.mem := by
  refine partDone_of_step (t := s.setOwner i k o) ?_ ((DupStep.refl s i).modDup _) rfl rfl
  rw [State.dupAct, State.own, if_neg (by simp [hs]), h]
  dsimp only
  rw [if_neg hpo, if_neg hp.symm, if_neg ho.symm]

variable (ho : o = s.pkgid)
include ho

/-- A DUP block is the one's that gains it once every other mapping is removed (R348). -/
theorem own_gains_of_dup (h : s.dupOwner i k = none) (hd : s.othersDone i = true) :
    s.dupAct i (.own k o) = (s.gain i k o, true) := by
  rw [State.dupAct, State.own, if_neg (by simp [hs]), h]
  dsimp only
  rw [if_pos ho.symm, if_pos hd]

theorem own_waits_of_dup (h : s.dupOwner i k = none) (hd : s.othersDone i = false) : s.dupAct i (.own k o) = (s, false) := by
  rw [State.dupAct, State.own, if_neg (by simp [hs]), h]
  dsimp only
  rw [if_pos ho.symm, if_neg (by simp [hd])]

variable (h : s.dupOwner i k = some p) (hp : p ≠ o)
include h hp

theorem own_gains_of_dead (hd : s.isDead p = true) : s.dupAct i (.own k o) = (s.gain i k o, true) := by
  rw [State.dupAct, State.own, if_neg (by simp [hs]), h]
  dsimp only
  rw [if_neg hp, if_neg (ho ▸ hp.symm), if_pos ho.symm, if_pos hd]

theorem own_waits_of_none (hd : s.isDead p = false) (hb : (s.dupPage i).block = none) : s.dupAct i (.own k o) = (s, false) := by
  rw [State.dupAct, State.own, if_neg (by simp [hs]), h]
  dsimp only
  rw [if_neg hp, if_neg (ho ▸ hp.symm), if_pos ho.symm, if_neg (by simp [hd]), hb]

theorem own_gains_of_block {y : Nat × List Byte} (hd : s.isDead p = false) (hb : (s.dupPage i).block = some y) :
    s.dupAct i (.own k o) = (((s.receive i k y.2).tookBlock i).gain i k o, true) := by
  rw [State.dupAct, State.own, if_neg (by simp [hs]), h]
  dsimp only
  rw [if_neg hp, if_neg (ho ▸ hp.symm), if_pos ho.symm, if_neg (by simp [hd]), hb]

end

/-- A part that makes this package the owner of a block. -/
theorem partDone_of_gain (h : s.dupAct i c = (s.gain i k o, true)) :
    ∃ m, PartDone s i c { s.dupPage i with owned := tput (s.dupPage i).owned k o } m :=
  ⟨_, partDone_of_step h ((DupStep.refl s i).gain k o) rfl rfl⟩

theorem partDone_of_gain_block {bs : List Byte} (h : s.dupAct i c = (((s.receive i k bs).tookBlock i).gain i k o, true)) :
    ∃ m, PartDone s i c { s.dupPage i with owned := tput (s.dupPage i).owned k o, block := none } m :=
  ⟨_, partDone_of_step h (((DupStep.refl s i).receive k bs).tookBlock.gain k o) rfl rfl⟩

theorem partDone_dup_of_dup {copy : Bool} (h : s.dupOwner i k = none) : PartDone s i (.dup k copy) (s.dupPage i) s.mem := by
  refine partDone_of_same ?_
  rw [State.dupAct, State.share, h]

section

variable {copy : Bool} (h : s.dupOwner i k = some p) (hp : p ≠ s.pkgid)
include h hp

/-- A dead owner's block is DUP again at once (R346). -/
theorem partDone_dup_of_dead (hd : s.isDead p = true) :
    ∃ whole m, PartDone s i (.dup k copy) { s.dupPage i with owned := tdel (s.dupPage i).owned k, split := whole } m := by
  obtain ⟨whole, hstep⟩ := ((DupStep.refl s i).regrow i k (pteV (pteDup (s.pte (s.dupLeaf i k)) true (s.dupHome i)) true)).rejoin k
  refine ⟨whole, _, partDone_of_step ?_ hstep rfl rfl⟩
  rw [State.dupAct, State.share, h]
  dsimp only
  rw [if_neg hp.symm, if_pos hd]

theorem share_waits (hd : s.isDead p = false) (hb : (s.dupPage i).block = none) : s.dupAct i (.dup k copy) = (s, false) := by
  rw [State.dupAct, State.share, h]
  dsimp only
  rw [if_neg hp.symm, if_neg (by simp [hd]), hb]

/-- A live owner's block is DUP again once its leaf has come, with its bytes where they are copied (R346). -/
theorem partDone_dup_of_block {y : Nat × List Byte} (hd : s.isDead p = false) (hb : (s.dupPage i).block = some y) :
    ∃ whole m, PartDone s i (.dup k copy) { s.dupPage i with owned := tdel (s.dupPage i).owned k, split := whole, block := none } m := by
  have hcopy : DupStep s (if copy then s.receive i k y.2 else s) i (s.dupPage i) := by
    split
    · exact (DupStep.refl s i).receive k y.2
    · exact .refl s i
  obtain ⟨whole, hstep⟩ := (hcopy.tookBlock.rebuild k y.1).rejoin k
  refine ⟨whole, _, partDone_of_step ?_ hstep rfl rfl⟩
  rw [State.dupAct, State.share, h]
  dsimp only
  rw [if_neg hp.symm, if_neg (by simp [hd]), hb]

end

/-! ## Going on (R340, R342) -/

theorem State.dupPage_popDup (s : State) (i : Nat) : (s.popDup i).dupPage i = { s.dupPage i with
    ops := (s.dupPage i).ops.drop 1, block := none, mine := false, acks := (s.holds i).foldl List.erase (s.dupPage i).acks } :=
  s.dupPage_modDup_self i fun d =>
    { d with ops := d.ops.drop 1, block := none, mine := false, acks := (s.holds i).foldl List.erase d.acks }

/-- This package's part of the first operation of a page is done, and the instruction with it once every other live holder's is. -/
structure DupGoesOn (s t : State) (i : Nat) (op : DupOp) (rest : List DupOp) (D : DupPage) (m : List Host.Cell) : Prop where
  out : t.out.getLast? = some (.partDone (s.drecFrame i))
  mem : t.mem = m
  split : (t.dupPage i).split = D.split
  owned : (t.dupPage i).owned = D.owned
  block : D.block = none → (t.dupPage i).block = none
  ends : s.othersDone i = true → t.me = { s.me with pc := s.me.pc + 4, wait := none } ∧ (t.dupPage i).ops = rest
    ∧ (t.dupPage i).mine = false ∧ (t.dupPage i).block = none
  stays : s.othersDone i = false → (t.me.st = .blocked ∧ t.me.wait = some (.page i) ∧ t.me.pc = s.me.pc)
    ∧ (t.dupPage i).mine = true ∧ (t.dupPage i).ops = op :: rest

/-- This package's part done, it tells the others, and the operation has completed where they have (R342). -/
theorem State.tryDup_of_done {m : List Host.Cell} (hmine : (s.dupPage i).mine = false) (h : PartDone s i c D m) :
    ∃ w : State, s.tryDup i c = (w, s.othersDone i) ∧ w.me = s.me ∧ w.dupPage i = { D with mine := true }
      ∧ w.out.getLast? = some (.partDone (s.drecFrame i)) ∧ w.mem = m := by
  have hstep := h.step.modDup fun d => { d with mine := true }
  have hframe : (s.dupAct i c).1.drecFrame i = s.drecFrame i := h.step.aside_eq (State.drecFrame · i) fun _ => rfl
  refine ⟨((s.dupAct i c).1.modDup i fun d => { d with mine := true }).emit (.partDone (s.drecFrame i)), ?_, hstep.me, hstep.page,
    List.getLast?_concat, h.mem⟩
  rw [State.tryDup, State.partDup, if_neg (by simp [hmine])]
  dsimp only
  rw [if_pos h.done]
  exact Prod.ext rfl (hstep.othersDone h.acks)

section

variable {op : DupOp} {rest : List DupOp} (hops : (s.dupPage i).ops = op :: rest) (hwho : op.who = some (s.cur.sc, s.cur.ctx))
include hops hwho

/-- The executing context's operation is the first on its page. -/
theorem State.goDup_of_first : s.goDup i =
    if (s.tryDup i op.act).2 then ((s.tryDup i op.act).1.popDup i).fin else (s.tryDup i op.act).1.block (.page i) := by
  rw [State.goDup, hops]
  exact if_pos hwho

/-- A part that cannot be done yet waits. -/
theorem State.goDup_of_waits (hmine : (s.dupPage i).mine = false) (h : s.dupAct i op.act = (s, false)) :
    s.goDup i = s.block (.page i) := by
  have htry : s.tryDup i op.act = (s, false) := by
    rw [State.tryDup, State.partDup, if_neg (by simp [hmine]), h]
    rfl
  rw [State.goDup_of_first hops hwho, htry]
  exact if_neg Bool.false_ne_true

theorem State.goesOn_goDup {m : List Host.Cell} (hmine : (s.dupPage i).mine = false) (h : PartDone s i op.act D m) :
    DupGoesOn s (s.goDup i) i op rest D m := by
  obtain ⟨w, htry, hme, hpage, hout, hmem⟩ := State.tryDup_of_done hmine h
  have hlist : (w.dupPage i).ops = op :: rest := by rw [hpage, h.ops.trans hops]
  rw [State.goDup_of_first hops hwho, htry]
  cases hd : s.othersDone i with
  | true =>
    have hpop := w.dupPage_popDup i
    change DupGoesOn s (w.popDup i).fin i op rest D m
    refine ⟨hout, hmem, ?_, ?_, fun _ => ?_, fun _ => ⟨?_, ?_, ?_, ?_⟩, fun e => absurd (hd.symm.trans e) (by decide)⟩
    · exact (congrArg DupPage.split hpop).trans (congrArg DupPage.split hpage :)
    · exact (congrArg DupPage.owned hpop).trans (congrArg DupPage.owned hpage :)
    · exact congrArg DupPage.block hpop
    · exact State.me_fin.trans (congrArg Ctx.next hme)
    · exact (congrArg DupPage.ops hpop).trans (by rw [hlist]; rfl)
    · exact congrArg DupPage.mine hpop
    · exact congrArg DupPage.block hpop
  | false =>
    change DupGoesOn s (w.block (.page i)) i op rest D m
    have hblock : (w.block (.page i)).me = s.me.block (.page i) false := (State.me_modMe _ _).trans (congrArg (Ctx.block · _ _) hme)
    refine ⟨hout, hmem, ?_, ?_, fun hb => ?_, fun e => absurd (hd.symm.trans e) (by decide), fun _ => ⟨⟨?_, ?_, ?_⟩, ?_, ?_⟩⟩
    · exact (congrArg DupPage.split hpage :)
    · exact (congrArg DupPage.owned hpage :)
    · exact (congrArg DupPage.block hpage).trans hb
    · exact congrArg Ctx.st hblock
    · exact congrArg Ctx.wait hblock
    · exact (congrArg Ctx.pc hblock :)
    · exact congrArg DupPage.mine hpage
    · exact hlist

end

/-! ## Behind another operation, and after this package's part (R340, R342) -/

/-- An operation whose page's first is not this context's waits its turn. -/
theorem State.goDup_of_behind (h : ∀ y rest, (s.dupPage i).ops = y :: rest → y.who ≠ some (s.cur.sc, s.cur.ctx)) :
    s.goDup i = s.block (.page i) := by
  unfold State.goDup
  cases hops : (s.dupPage i).ops with
  | nil => rfl
  | cons y rest => exact if_neg (h y rest hops)

/-- With its part done, the first operation of a page waits for the others alone. -/
theorem State.goDup_of_mine {op : DupOp} {rest : List DupOp} (hops : (s.dupPage i).ops = op :: rest)
    (hwho : op.who = some (s.cur.sc, s.cur.ctx)) (hmine : (s.dupPage i).mine = true) :
    s.goDup i = if s.othersDone i then (s.popDup i).fin else s.block (.page i) := by
  have htry : s.tryDup i op.act = (s, s.othersDone i) := by
    rw [State.tryDup, State.partDup, if_pos hmine]
    rfl
  rw [State.goDup_of_first hops hwho, htry]

/-- A blocked context waits for the page, at the instruction. -/
theorem State.block_page_waits (s : State) (i : Nat) :
    (s.block (.page i)).me.st = .blocked ∧ (s.block (.page i)).me.wait = some (.page i) ∧ (s.block (.page i)).me.pc = s.me.pc := by
  have hme : (s.block (.page i)).me = s.me.block (.page i) false := s.me_modMe fun x => x.block (.page i) false
  rw [hme]
  exact ⟨rfl, rfl, rfl⟩

/-! ## What the home and the other holders send (R340, R342) -/

section

variable {va : Nat} (hr : s.dupRec va = some i)
include hr

theorem State.dupPage_peerTurn : (s.peerTurn va).dupPage i = { s.dupPage i with
    ops := (s.dupPage i).ops ++ (s.dupPage i).asked.take 1, asked := (s.dupPage i).asked.drop 1 } := by
  unfold State.peerTurn
  rw [hr]
  exact State.dupPage_modDup_self s i fun d => { d with ops := d.ops ++ d.asked.take 1, asked := d.asked.drop 1 }

theorem State.dupPage_peerDone (hp : (s.holds i).contains p = true) :
    (s.peerDone va p).dupPage i = { s.dupPage i with acks := (s.dupPage i).acks ++ [p] } := by
  unfold State.peerDone
  rw [hr]
  dsimp only
  rw [if_pos hp]
  exact State.dupPage_modDup_self s i fun d => { d with acks := d.acks ++ [p] }

theorem State.peerDone_of_stranger (hp : (s.holds i).contains p = false) : s.peerDone va p = s := by
  unfold State.peerDone
  rw [hr]
  exact if_neg (by rw [hp]; decide)

end

/-! ## The instructions (R342) -/

theorem exec_next_of_eq {j : Instr} (h : exec j s = .next u) (e : u = t) : exec j s = .next t := e ▸ h

section

variable {w a : Word} {ok : Nat → Bool} {f : Nat → Nat → Except (Nat × Word) DupAct}

theorem onPage_of_waiting (h : s.me.wait = some (.page i)) : onPage w a s ok f = s.goDup i := by
  unfold onPage
  rw [h]

section

variable (hnew : ∀ j, s.me.wait ≠ some (.page j))
include hnew

theorem onPage_unrecorded (hr : s.dupRec a.toNat = none) : onPage w a s ok f = s.trap causeStreamArg w := by
  unfold onPage
  split
  · next j h => exact absurd h (hnew j)
  · rw [hr]

variable (hr : s.dupRec a.toNat = some i)
include hr

theorem onPage_refused (ho : ok i = false) : onPage w a s ok f = s.trap causeStreamArg w := by
  unfold onPage
  split
  · next j h => exact absurd h (hnew j)
  · rw [hr]
    exact if_pos (by rw [ho]; rfl)

variable (ho : ok i = true)
include ho

theorem onPage_dead (hd : s.isDead (s.dupHome i) = true) : onPage w a s ok f = s.trap causeStreamBounds a := by
  unfold onPage
  split
  · next j h => exact absurd h (hnew j)
  · rw [hr]
    exact (if_neg (by simp [ho])).trans (if_pos hd)

variable (hd : s.isDead (s.dupHome i) = false)
include hd

theorem onPage_error {e : Nat × Word} (hf : f i (bitsNat a.toNat 16 5) = .error e) : onPage w a s ok f = s.trap e.1 e.2 := by
  unfold onPage
  split
  · next j h => exact absurd h (hnew j)
  · rw [hr]
    dsimp only
    rw [if_neg (by simp [ho]), if_neg (by simp [hd]), hf]

theorem onPage_asks (hf : f i (bitsNat a.toNat 16 5) = .ok c) : onPage w a s ok f = (s.askDup i c).goDup i := by
  unfold onPage
  split
  · next j h => exact absurd h (hnew j)
  · rw [hr]
    dsimp only
    rw [if_neg (by simp [ho]), if_neg (by simp [hd]), hf]

end

end

section

variable {d a b : BitVec 5} (hf : s.Filled [d, a, b]) (hsys : isSystem s.cur.ctx = true)
include hf hsys

/-- The words that PSPLIT, POWN and PDUP show where they trap STREAM_ARG. -/
def splitWord (a : BitVec 5) : Word := wRR 0xA6 0 a 0 0
def ownWord (a b : BitVec 5) : Word := wRR 0xA7 0 a b 0
def dupWord (a b : BitVec 5) : Word := wRR 0xA8 0 a b 0

theorem exec_psplit_filled : exec (.psplit a) s = .next (onPage (splitWord a) (s.g a) s (fun _ => true) fun _ _ => .ok .split) :=
  (priv_system hsys _).trans ((hf.mono (by simp)).ctl _)

theorem exec_pown_filled : exec (.pown a b) s = .next (onPage (ownWord a b) (s.g a) s (fun i => (s.holds i).contains (s.g b).toNat)
    fun i k => if (s.dupPage i).split then .ok (.own k (s.g b).toNat) else .error (causeStreamArg, ownWord a b)) :=
  (priv_system hsys _).trans ((hf.mono (by simp)).ctl _)

theorem exec_pdup_filled : exec (.pdup a b) s = .next (onPage (dupWord a b) (s.g a) s (fun _ => decide ((s.g b).toNat ≤ 1))
    fun i k => if (s.g b).toNat = 0 ∧ ((s.dupOwner i k).map s.isDead).getD false = true then .error (causeStreamBounds, s.g a)
      else .ok (.dup k ((s.g b).toNat == 0))) :=
  (priv_system hsys _).trans ((hf.mono (by simp)).ctl _)

theorem writes_pstat : Writes (.pstat d a) s d (s.pageWord (s.g a).toNat) :=
  writes_of ((priv_system hsys _).trans ((hf.mono (by simp)).ctl _))

/-- Where this context's operation on a page waits, each of the three goes on with it. -/
theorem exec_of_waiting (hw : s.me.wait = some (.page i)) :
    ∀ j ∈ [Instr.psplit a, .pown a b, .pdup a b], exec j s = .next (s.goDup i) := by
  simp only [List.forall_mem_cons]
  exact ⟨(exec_psplit_filled hf hsys).trans (congrArg Host.Outcome.next (onPage_of_waiting hw)),
    (exec_pown_filled hf hsys).trans (congrArg Host.Outcome.next (onPage_of_waiting hw)),
    (exec_pdup_filled hf hsys).trans (congrArg Host.Outcome.next (onPage_of_waiting hw)), List.forall_mem_nil _⟩

end

/-- A copy from a dead owner is what PDUP refuses of a page that it may act on (R346). -/
theorem not_ownerLost (h : o = 1 ∨ ∀ q, s.dupOwner i k = some q → s.isDead q = false) :
    ¬(o = 0 ∧ ((s.dupOwner i k).map s.isDead).getD false = true) := fun ⟨hzero, hdead⟩ => by
  rcases h with hone | hlive
  · exact absurd (hone.symm.trans hzero) (by decide)
  · cases hown : s.dupOwner i k with
    | none =>
      rw [hown] at hdead
      cases hdead
    | some q =>
      rw [hown] at hdead
      exact absurd ((hlive q hown).symm.trans hdead) (by decide)

theorem hasWord_psplit (a : BitVec 5) : HasWord (.psplit a) (splitWord a) :=
  have hzero : (0 : BitVec 5).toNat = 0 := rfl
  hasWord_ofNat rfl

theorem hasWord_pown (a b : BitVec 5) : HasWord (.pown a b) (ownWord a b) :=
  have hzero : (0 : BitVec 5).toNat = 0 := rfl
  hasWord_ofNat rfl

theorem hasWord_pdup (a b : BitVec 5) : HasWord (.pdup a b) (dupWord a b) :=
  have hzero : (0 : BitVec 5).toNat = 0 := rfl
  hasWord_ofNat rfl

/-! ## An operation made (R340) -/

/-- An operation joins those on a page whose home is this package: nothing else of the page and the machine changes. -/
theorem State.askDup_at_home (h : s.dupHome i = s.pkgid) (c : DupAct) : DupStep s (s.askDup i c) i { s.dupPage i with
    ops := (s.dupPage i).ops ++ [{ who := some (s.cur.sc, s.cur.ctx), act := c }] } ∧ (s.askDup i c).mem = s.mem := by
  rw [State.askDup, if_pos h]
  exact ⟨(DupStep.refl s i).modDup fun d => { d with ops := d.ops ++ [{ who := some (s.cur.sc, s.cur.ctx), act := c }] }, rfl⟩

theorem State.ops_askDup (h : s.dupHome i = s.pkgid) (c : DupAct) :
    ((s.askDup i c).dupPage i).ops = (s.dupPage i).ops ++ [{ who := some (s.cur.sc, s.cur.ctx), act := c }] := by
  obtain ⟨hstep, -⟩ := State.askDup_at_home h c
  rw [hstep.page]

/-- One whose home is another package waits to be taken there (R340). -/
theorem State.askDup_elsewhere (h : s.dupHome i ≠ s.pkgid) (c : DupAct) : DupStep s (s.askDup i c) i { s.dupPage i with
    asked := (s.dupPage i).asked ++ [{ who := some (s.cur.sc, s.cur.ctx), act := c }] } ∧ (s.askDup i c).mem = s.mem := by
  rw [State.askDup, if_neg h]
  exact ⟨(DupStep.refl s i).modDup fun d => { d with asked := d.asked ++ [{ who := some (s.cur.sc, s.cur.ctx), act := c }] }, rfl⟩

/-- What an operation made leaves of its page, and of what each part reads. -/
structure DupAsked (s u : State) (i : Nat) : Prop where
  mem : u.mem = s.mem
  split : (u.dupPage i).split = (s.dupPage i).split
  owned : (u.dupPage i).owned = (s.dupPage i).owned
  block : (u.dupPage i).block = (s.dupPage i).block
  mine : (u.dupPage i).mine = (s.dupPage i).mine
  me : u.me = s.me
  cur : u.cur = s.cur
  pkgid : u.pkgid = s.pkgid
  dead : u.isDead = s.isDead
  frame : u.drecFrame i = s.drecFrame i
  others : u.othersDone i = s.othersDone i

theorem DupStep.asked (h : DupStep s u i D) (hmem : u.mem = s.mem) (hD : D = { s.dupPage i with ops := D.ops, asked := D.asked }) :
    DupAsked s u i where
  mem := hmem
  split := by rw [h.page, hD]
  owned := by rw [h.page, hD]
  block := by rw [h.page, hD]
  mine := by rw [h.page, hD]
  me := h.me
  cur := congrArg Tables.cur h.tables
  pkgid := h.aside_eq State.pkgid fun _ => rfl
  dead := h.aside_eq State.isDead fun _ => rfl
  frame := h.aside_eq (State.drecFrame · i) fun _ => rfl
  others := h.othersDone (by rw [hD])

theorem State.asked_askDup (s : State) (i : Nat) (c : DupAct) : DupAsked s (s.askDup i c) i := by
  by_cases h : s.dupHome i = s.pkgid
  · obtain ⟨hstep, hmem⟩ := State.askDup_at_home h c
    exact hstep.asked hmem rfl
  · obtain ⟨hstep, hmem⟩ := State.askDup_elsewhere h c
    exact hstep.asked hmem rfl

theorem DupAsked.owner (h : DupAsked s u i) (k : Nat) : u.dupOwner i k = s.dupOwner i k := by rw [State.dupOwner, h.owned]; rfl

/-- An operation made goes on as from before it. -/
theorem DupGoesOn.of_asked {op : DupOp} {rest : List DupOp} {m : List Host.Cell} (g : DupGoesOn u t i op rest D m) (h : DupAsked s u i) :
    DupGoesOn s t i op rest D m where
  out := h.frame ▸ g.out
  mem := g.mem
  split := g.split
  owned := g.owned
  block := g.block
  ends := by rw [← h.me, ← h.others]; exact g.ends
  stays := by rw [← h.me, ← h.others]; exact g.stays

section

variable (hhome : s.dupHome i = s.pkgid) (hops : (s.dupPage i).ops = []) (hmine : (s.dupPage i).mine = false)
include hhome hops hmine

/-- The first operation on a page whose home is this package goes on at once with this package's part. -/
theorem State.goesOn_askDup {m : List Host.Cell} (h : PartDone (s.askDup i c) i c D m) :
    DupGoesOn s ((s.askDup i c).goDup i) i { who := some (s.cur.sc, s.cur.ctx), act := c } [] D m := by
  have hask := s.asked_askDup i c
  have hlist : ((s.askDup i c).dupPage i).ops = [{ who := some (s.cur.sc, s.cur.ctx), act := c }] := by
    rw [State.ops_askDup hhome, hops, List.nil_append]
  exact (State.goesOn_goDup hlist (by rw [hask.cur]) (hask.mine.trans hmine) h).of_asked hask

theorem State.askDup_waits (h : (s.askDup i c).dupAct i c = (s.askDup i c, false)) :
    (s.askDup i c).goDup i = (s.askDup i c).block (.page i) := by
  have hask := s.asked_askDup i c
  have hlist : ((s.askDup i c).dupPage i).ops = [{ who := some (s.cur.sc, s.cur.ctx), act := c }] := by
    rw [State.ops_askDup hhome, hops, List.nil_append]
  exact State.goDup_of_waits hlist (by rw [hask.cur]) (hask.mine.trans hmine) h

end

/-- Settles O39: an operation made waits behind another, and otherwise goes on with this package's part, of which each step leaves the
machine beside memory and the page's own state. -/
theorem readDuplicatePages : Obligations.ReadDuplicatePages := by
  unfold Obligations.ReadDuplicatePages
  intro s d a b i p hf hsys va k o me x stays ended parts keeps waits asks refuses
  have hparts : ∀ {j : Instr} {c : DupAct} {rest : List DupOp} {P : State → Prop} {t : State} {D : DupPage} {m : List Host.Cell},
      exec j s = .next t → DupGoesOn s t i { who := some me, act := c } rest D m → P t → parts j c rest P :=
    fun hx g hP => ⟨_, hx, hP, g.out, g.ends, g.stays⟩
  refine ⟨writes_pstat hf hsys, fun hnew => ⟨fun hr hlive => ?recorded, ?dead, ?args, ?unrecorded⟩, fun hw => ?goes,
    fun hr => ?comes⟩
  case dead =>
    intro hr hd
    exact traps_of (exec_next_of_eq (exec_psplit_filled hf hsys) (onPage_dead hnew hr rfl hd))
  case args =>
    intro hr
    refine ⟨fun ho => (hasWord_pown a b).traps ?_, fun ho => (hasWord_pdup a b).traps ?_⟩
    · exact exec_next_of_eq (exec_pown_filled hf hsys) (onPage_refused hnew hr ho)
    · exact exec_next_of_eq (exec_pdup_filled hf hsys) (onPage_refused hnew hr (decide_eq_false (Nat.not_le.mpr ho)))
  case unrecorded =>
    intro hr
    simp only [List.forall_mem_cons]
    exact ⟨(hasWord_psplit a).traps (exec_next_of_eq (exec_psplit_filled hf hsys) (onPage_unrecorded hnew hr)),
      (hasWord_pown a b).traps (exec_next_of_eq (exec_pown_filled hf hsys) (onPage_unrecorded hnew hr)),
      (hasWord_pdup a b).traps (exec_next_of_eq (exec_pdup_filled hf hsys) (onPage_unrecorded hnew hr)), List.forall_mem_nil _⟩
  case comes => exact ⟨State.dupPage_peerTurn hr, State.dupPage_peerDone hr, State.peerDone_of_stranger hr⟩
  case goes =>
    have hexec := exec_of_waiting (a := a) (b := b) hf hsys hw
    refine ⟨fun y copy rest hops hmine hown hp hd hb => ?_, fun y rest hops hmine hs hown hp hd hb => ?_,
      fun c rest hops hmine j hj => ?_⟩
    · obtain ⟨whole, m, hpart⟩ := partDone_dup_of_block (copy := copy) hown hp hd hb
      have g := State.goesOn_goDup hops rfl hmine hpart
      refine hparts (hexec _ (by simp)) g ⟨?_, g.block rfl⟩
      exact (congrArg (tget · k) g.owned).trans (tget_tdel_self _ _)
    · obtain ⟨m, hpart⟩ := partDone_of_gain_block (own_gains_of_block hs rfl hown hp hd hb)
      have g := State.goesOn_goDup hops rfl hmine hpart
      refine hparts (hexec _ (by simp)) g ⟨?_, g.block rfl⟩
      exact (congrArg (tget · k) g.owned).trans (tget_tput_self _ _ _)
    · have hgo := State.goDup_of_mine hops rfl hmine
      have hpop := s.dupPage_popDup i
      rw [hops] at hpop
      refine ⟨_, exec_next_of_eq (hexec j hj) hgo, ?_, fun hd => ?_, fun hd => ?_⟩
      · split
        · rfl
        · rfl
      · rw [if_pos hd]
        refine ⟨⟨State.me_fin, ?_, ?_, ?_⟩, ?_⟩
        · exact (congrArg DupPage.ops hpop :)
        · exact (congrArg DupPage.mine hpop :)
        · exact (congrArg DupPage.block hpop :)
        · exact (congrArg DupPage.acks hpop :)
      · rw [if_neg (by rw [hd]; decide)]
        exact ⟨s.block_page_waits i, rfl, rfl⟩
  case recorded =>
    have hsplit : exec (.psplit a) s = .next ((s.askDup i .split).goDup i) :=
      exec_next_of_eq (exec_psplit_filled hf hsys) (onPage_asks hnew hr rfl hlive rfl)
    have hpown : (s.holds i).contains o = true → x.split = true → exec (.pown a b) s = .next ((s.askDup i (.own k o)).goDup i) :=
      fun ho hs => exec_next_of_eq (exec_pown_filled hf hsys) (onPage_asks hnew hr ho hlive (if_pos hs))
    have hpdup : o ≤ 1 → (o = 1 ∨ ∀ q, s.dupOwner i k = some q → s.isDead q = false) →
        exec (.pdup a b) s = .next ((s.askDup i (.dup k (o == 0))).goDup i) :=
      fun ho hl => exec_next_of_eq (exec_pdup_filled hf hsys) (onPage_asks hnew hr (decide_eq_true ho) hlive (if_neg (not_ownerLost hl)))
    refine ⟨fun hhome hops hmine => ?first, fun hhome y rest hops hy => ?behind, fun hhome hhead => ?asked, fun ho hs => ?whole,
      fun hown hd ho => ?ownerDead⟩
    case whole =>
      have hfew : ¬x.split = true := by simp [hs]
      exact (hasWord_pown a b).traps (exec_next_of_eq (exec_pown_filled hf hsys)
        (onPage_error (e := (causeStreamArg, ownWord a b)) hnew hr ho hlive (if_neg hfew)))
    case ownerDead =>
      have hlost : o = 0 ∧ ((s.dupOwner i k).map s.isDead).getD false = true := ⟨ho, by rw [hown]; exact hd⟩
      exact traps_of (exec_next_of_eq (exec_pdup_filled hf hsys)
        (onPage_error (e := (causeStreamBounds, s.g a)) hnew hr (decide_eq_true (ho.trans_le (by decide))) hlive (if_pos hlost)))
    case behind =>
      have hwaits : ∀ {j : Instr} {c : DupAct}, exec j s = .next ((s.askDup i c).goDup i) → waits j c := fun {j c} hx => by
        have hask := s.asked_askDup i c
        have hlist := State.ops_askDup hhome c
        have hgo : (s.askDup i c).goDup i = (s.askDup i c).block (.page i) := State.goDup_of_behind fun z zs hz => by
          rw [hlist, show (s.dupPage i).ops = y :: rest from hops] at hz
          rw [← (List.cons.inj hz).1, hask.cur]
          exact hy
        obtain ⟨hst, hwait, hpc⟩ := State.block_page_waits (s.askDup i c) i
        exact ⟨_, exec_next_of_eq hx hgo, ⟨hst, hwait, hpc.trans (congrArg Ctx.pc hask.me)⟩, hlist, hask.owned, hask.mine⟩
      exact ⟨hwaits hsplit, fun ho hl => hwaits (hpdup ho hl), fun ho hs => hwaits (hpown ho hs)⟩
    case asked =>
      have hasks : ∀ {j : Instr} {c : DupAct}, exec j s = .next ((s.askDup i c).goDup i) → asks j c := fun {j c} hx => by
        obtain ⟨hstep, hmem⟩ := State.askDup_elsewhere hhome c
        have hask := s.asked_askDup i c
        have hlist : ((s.askDup i c).dupPage i).ops = x.ops := (congrArg DupPage.ops hstep.page :)
        have hgo : (s.askDup i c).goDup i = (s.askDup i c).block (.page i) := State.goDup_of_behind fun z zs hz => by
          rw [hask.cur]
          exact hhead z zs (hlist.symm.trans hz)
        obtain ⟨hst, hwait, hpc⟩ := State.block_page_waits (s.askDup i c) i
        exact ⟨_, exec_next_of_eq hx hgo, ⟨hst, hwait, hpc.trans (congrArg Ctx.pc hask.me)⟩, hmem, hlist,
          congrArg DupPage.asked hstep.page, hask.owned⟩
      exact ⟨hasks hsplit, fun ho hl => hasks (hpdup ho hl), fun ho hs => hasks (hpown ho hs)⟩
    case first =>
      have hask := s.asked_askDup i
      have howner : ∀ c, (s.askDup i c).dupOwner i k = s.dupOwner i k := fun c => (hask c).owner k
      have hgoes : ∀ {j : Instr} {c : DupAct} {D : DupPage} {m : List Host.Cell} {P : State → Prop},
          exec j s = .next ((s.askDup i c).goDup i) → PartDone (s.askDup i c) i c D m →
          (∀ t, (t.dupPage i).split = D.split → (t.dupPage i).owned = D.owned → t.mem = m → P t) → parts j c [] P :=
        fun hx hpart hP =>
          have g := State.goesOn_askDup hhome hops hmine hpart
          hparts hx g (hP _ g.split g.owned g.mem)
      have hsame : ∀ {j : Instr} {c : DupAct}, exec j s = .next ((s.askDup i c).goDup i) →
          PartDone (s.askDup i c) i c ((s.askDup i c).dupPage i) (s.askDup i c).mem → parts j c [] keeps :=
        fun {j c} hx hpart => hgoes hx hpart fun t hs ho hm =>
          ⟨hm.trans (hask c).mem, hs.trans (hask c).split, ho.trans (hask c).owned⟩
      have howns : ∀ {c : DupAct} {D : DupPage} {m : List Host.Cell}, exec (.pown a b) s = .next ((s.askDup i c).goDup i) →
          PartDone (s.askDup i c) i c D m → tget D.owned k = some o → parts (.pown a b) c [] fun t => t.dupOwner i k = some o :=
        fun hx hpart hD => hgoes hx hpart fun t _ ho _ => (congrArg (tget · k) ho).trans hD
      have hwaits : ∀ {j : Instr} {c : DupAct}, exec j s = .next ((s.askDup i c).goDup i) →
          (s.askDup i c).dupAct i c = (s.askDup i c, false) → waits j c := fun {j c} hx hact => by
        obtain ⟨hst, hwait, hpc⟩ := State.block_page_waits (s.askDup i c) i
        exact ⟨_, exec_next_of_eq hx (State.askDup_waits hhome hops hmine hact),
          ⟨hst, hwait, hpc.trans (congrArg Ctx.pc (hask c).me)⟩, State.ops_askDup hhome c, (hask c).owned, (hask c).mine⟩
      refine ⟨fun hs => ?_, fun hs => ?_, fun ho hs => ?own, fun ho => ?dup⟩
      · exact hsame hsplit (partDone_split_of_split ((hask _).split.trans hs))
      · obtain ⟨m, hpart⟩ := partDone_split_of_whole ((hask .split).split.trans hs)
        exact hgoes hsplit hpart fun t hs ho _ => ⟨hs, ho.trans (hask _).owned⟩
      case own =>
        have hs' := (hask (.own k o)).split.trans hs
        have hx := hpown ho hs
        have hown := howner (.own k o)
        have hpkgid := (hask (.own k o)).pkgid
        have hothers := (hask (.own k o)).others
        have hdead := fun q => congrFun (hask (.own k o)).dead q
        have hblock := (hask (.own k o)).block
        have hmem := (hask (.own k o)).mem
        refine ⟨fun h => ?_, fun h hpo hp hop => ?_, fun h hop hd => ?_, fun h hop hd => ?_, fun h hpo hop hd => ?_,
          fun h hpo hop hd hb => ?_⟩
        · exact hsame hx (partDone_own_of_owner hs' (hown.trans h))
        · have hpart := partDone_own_elsewhere hs' (hown.trans h) hpo (hpkgid ▸ hp) (hpkgid ▸ hop)
          refine hgoes hx hpart fun t _ ho hm => ⟨?_, hm.trans hmem⟩
          exact (congrArg (tget · k) ho).trans (tget_tput_self _ _ _)
        · obtain ⟨m, hpart⟩ := partDone_of_gain (own_gains_of_dup hs' (hop.trans hpkgid.symm) (hown.trans h) (hothers.trans hd))
          exact howns hx hpart (tget_tput_self _ _ _)
        · exact hwaits hx (own_waits_of_dup hs' (hop.trans hpkgid.symm) (hown.trans h) (hothers.trans hd))
        · obtain ⟨m, hpart⟩ := partDone_of_gain (own_gains_of_dead hs' (hop.trans hpkgid.symm) (hown.trans h) hpo ((hdead p).trans hd))
          exact howns hx hpart (tget_tput_self _ _ _)
        · exact hwaits hx (own_waits_of_none hs' (hop.trans hpkgid.symm) (hown.trans h) hpo ((hdead p).trans hd) (hblock.trans hb))
      case dup =>
        have hown := howner (.dup k (o == 0))
        have hpkgid := (hask (.dup k (o == 0))).pkgid
        have hdead := fun q => congrFun (hask (.dup k (o == 0))).dead q
        have hblock := (hask (.dup k (o == 0))).block
        refine ⟨fun h => ?_, fun h hp hd hb => ?_, fun h hp hd hone => ?_⟩
        · exact hsame (hpdup ho (.inr fun q hq => absurd (h.symm.trans hq) (by simp))) (partDone_dup_of_dup (hown.trans h))
        · refine hwaits (hpdup ho (.inr fun q hq => ?_))
            (share_waits (hown.trans h) (hpkgid ▸ hp) ((hdead p).trans hd) (hblock.trans hb))
          cases h.symm.trans hq
          exact hd
        · obtain ⟨whole, m, hpart⟩ := partDone_dup_of_dead (copy := o == 0) (hown.trans h) (hpkgid ▸ hp) ((hdead p).trans hd)
          refine hgoes (hpdup ho (.inl hone)) hpart fun t _ ho _ => ?_
          exact (congrArg (tget · k) ho).trans (tget_tdel_self _ _)

end Sys2Proof.Machine
end
